-- ==== Sys2Proof/Word.lean ====
section
/-! DEFINITION. The words of the TK-880 and their plainest arithmetic (spec/00_scope.md R6, R11). -/

namespace Sys2Proof

/-- A byte; memory is little-endian (R6). -/
abbrev Byte := BitVec 8
/-- A 32-bit word: FP32 elements, e and j registers, most CSRs. -/
abbrev W32 := BitVec 32
/-- A 64-bit word: general and coordinate registers, addresses. -/
abbrev W64 := BitVec 64
/-- A vector register (R97). -/
abbrev V1024 := BitVec 1024
/-- A lane mask, one bit for each byte lane (R97). -/
abbrev K128 := BitVec 128

/-- A table keyed by numbers: keys rise strictly and no entry holds the table's default value. -/
abbrev SMap (α : Type) := List (Nat × α)

/-- The bits hi:lo of a number (R6), as a field of n = hi - lo + 1 bits. -/
def fld (w lo n : Nat) : Nat := w / 2 ^ lo % 2 ^ n

/-- SignExtend of an n-bit number to an integer (R11). -/
def sext (x n : Nat) : Int := if x % 2 ^ n < 2 ^ (n - 1) then (x % 2 ^ n : Nat) else (x % 2 ^ n : Nat) - (2 ^ n : Nat)

/-- The low 64 bits of an integer. -/
def w64 (i : Int) : W64 := BitVec.ofInt 64 i

end Sys2Proof
end

