-- ==== Sys2Proof/Machine/Map.lean ====
section
/-! DEFINITION. Reading and writing a table keyed by numbers (SMap), little-endian bytes (R6), and bit fields. -/

namespace Sys2Proof.Machine

/-- The value a table holds at key k, d where it lists none. -/
def mget {α : Type} : SMap α → Nat → α → α
  | [], _, d => d
  | (k', v) :: t, k, d => if k' == k then v else mget t k d

/-- The table without key k. -/
def merase {α : Type} : SMap α → Nat → SMap α
  | [], _ => []
  | (k', v) :: t, k => if k' == k then merase t k else (k', v) :: merase t k

/-- The table with an entry for k put before the first larger key. -/
def minsert {α : Type} : SMap α → Nat → α → SMap α
  | [], k, v => [(k, v)]
  | (k', x) :: t, k, v => if Nat.blt k k' then (k, v) :: (k', x) :: t else (k', x) :: minsert t k v

/-- The table with v at k. -/
def mput {α : Type} (m : SMap α) (k : Nat) (v : α) : SMap α := minsert (merase m k) k v

/-- The table with v at k, in the form that lists no entry equal to the default d. -/
def mset {α : Type} [DecidableEq α] (m : SMap α) (k : Nat) (v d : α) : SMap α :=
  if v = d then merase m k else mput m k v

/-- Whether the table lists key k. -/
def mhas {α : Type} : SMap α → Nat → Bool
  | [], _ => false
  | (k', _) :: t, k => k' == k || mhas t k

/-- Canonical form: keys rise strictly. -/
def msorted {α : Type} : SMap α → Bool
  | [] => true
  | [_] => true
  | (a, _) :: (b, y) :: t => Nat.blt a b && msorted ((b, y) :: t)

/-- A byte string at key k and on; the default of every key is 0. -/
def msetBytes (m : SMap Byte) (k : Nat) : List Byte → SMap Byte
  | [] => m
  | b :: t => msetBytes (mset m k b 0) (k + 1) t

/-- The n bytes at key k and on. -/
def mgetBytes (m : SMap Byte) (k : Nat) : Nat → List Byte
  | 0 => []
  | n + 1 => mget m k 0 :: mgetBytes m (k + 1) n

/-- A number from its bytes, lowest first (R6). -/
def ofBytes : List Byte → Nat
  | [] => 0
  | b :: t => b.toNat + 256 * ofBytes t

/-- The n low bytes of a number, lowest first (R6). -/
def toBytes : Nat → Nat → List Byte
  | 0, _ => []
  | n + 1, x => BitVec.ofNat 8 (x % 256) :: toBytes n (x / 256)

/-- x with its n bits from lo on replaced by v (taken modulo 2^n). -/
def setFld (x lo n v : Nat) : Nat := x - fld x lo n * 2 ^ lo + v % 2 ^ n * 2 ^ lo

/-- Bit i of a number. -/
def bitOf (x i : Nat) : Bool := x / 2 ^ i % 2 == 1

/-- The numbers lo, lo + 1, …, n of them. -/
def upFrom (lo : Nat) : Nat → List Nat
  | 0 => []
  | n + 1 => lo :: upFrom (lo + 1) n

/-- Entry i of a list, d beyond its end. -/
def nth {α : Type} : List α → Nat → α → α
  | [], _, d => d
  | a :: _, 0, _ => a
  | _ :: t, n + 1, d => nth t n d

/-- The list with entry i changed by f. -/
def modNth {α : Type} : List α → Nat → (α → α) → List α
  | [], _, _ => []
  | a :: t, 0, f => f a :: t
  | a :: t, n + 1, f => a :: modNth t n f

/-- The list without entry i. -/
def dropNth {α : Type} : List α → Nat → List α
  | [], _ => []
  | _ :: t, 0 => t
  | a :: t, n + 1 => a :: dropNth t n

/-- x divided by y, rounded up. -/
def cdiv (x y : Nat) : Nat := (x + y - 1) / y

/-- The floor of x divided by 2^n, for an integer x. -/
def ashr (x : Int) (n : Nat) : Int := Int.fdiv x (2 ^ n : Nat)

end Sys2Proof.Machine
end

