-- ==== Sys2Proof/Config.lean ====
section
/-! DEFINITION. What the spec leaves to an implementation, as constants with no body: free values (spec/00_scope.md R10) and the
facts of the parts outside the device. Nothing can evaluate them, so a statement holds whatever they are. -/

namespace Sys2Proof

/-- The n-th free value: an undefined value of R10. The step numbers its uses with State.freeCtr. -/
opaque Config.free : Nat → Nat

/-- A free value of w bits. -/
def freeBits (w n : Nat) : BitVec w := BitVec.ofNat w (Config.free n)

/-- What Omfin's keys, fuses and firmware fix for a part (R397): the n-th byte of it is this, modulo 256. -/
opaque Config.secret : Nat → Nat

/-- Whether the root complex has enabled AtomicOp completer support (R271). -/
opaque Config.hostAtomics : Bool

end Sys2Proof
end

