-- ==== Sys2Proof/Syntax.lean ====
section
/-! DEFINITION. The instructions and events of the TK-880, one constructor for each row of spec/opcode_table.json.
Operand fields are numbers; their bounds and the checks of R68 stand in WellFormed.lean. -/

namespace Sys2Proof

/-- The guard of a slot word: predicate p[gp], negated when gn = 1 (R62, R65). -/
structure Guard where
  gp : Nat
  gn : Nat
  deriving DecidableEq, Repr

/-- The extension word of format V (R63). -/
structure VExt where
  fmt : Nat
  rm : Nat
  c : Nat
  i8 : Nat
  g : Nat
  deriving DecidableEq, Repr

/-- The operands of format V (R63): without an extension word the fields of VExt are zero. -/
structure VOp where
  d : Nat
  a : Nat
  b : Nat
  k : Nat
  lg : Nat
  x : Option VExt
  deriving DecidableEq, Repr

/-- The produced and consumed tokens of an engine command, format E (R63). -/
structure Edge where
  tp : Nat
  c0 : Nat
  c1 : Nat
  nc : Nat
  c2 : Nat
  deriving DecidableEq, Repr

/-- A slot class (R81 to R87); I0 and I1 share class I, V0 and V1 class V. -/
inductive SlotClass
  | c | i | v | m | x | l
  deriving DecidableEq, Repr

/-- The instructions (slot operations) and the events (steps of the machine outside a bundle).
The argument x is the optional extension word of the entry, bits 30:0. -/
inductive Instr
  /-- BR (C class). -/
  | br (gd : Guard) (d : Nat) (x : Option Nat)
  /-- BRI (C class). -/
  | bri (gd : Guard) (a : Nat)
  /-- CALL (C class). -/
  | call (gd : Guard) (d : Nat) (x : Option Nat)
  /-- CALLI (C class). -/
  | calli (gd : Guard) (d a : Nat)
  /-- RET (C class). -/
  | ret (gd : Guard) (a : Nat)
  /-- LOOP (C class). -/
  | loop (gd : Guard) (a o : Nat) (x : Option Nat)
  /-- LOOPI (C class). -/
  | loopi (gd : Guard) (c o : Nat) (x : Option Nat)
  /-- SAFE (C class). -/
  | safe (gd : Guard) (i : Nat) (x : Option Nat)
  /-- DONE (C class). -/
  | done (gd : Guard)
  /-- WAITK (C class). -/
  | waitk (gd : Guard) (a : Nat)
  /-- WAITK_RANGE (C class). -/
  | waitkRange (gd : Guard) (a b : Nat)
  /-- POLLK (C class). -/
  | pollk (gd : Guard) (d a : Nat)
  /-- POLLK_ERR (C class). -/
  | pollkErr (gd : Guard) (d a : Nat)
  /-- FENCE_CORE (C class). -/
  | fenceCore (gd : Guard)
  /-- FENCE_CLUSTER (C class). -/
  | fenceCluster (gd : Guard)
  /-- FENCE_DEVICE (C class). -/
  | fenceDevice (gd : Guard)
  /-- FENCE_SYS (C class). -/
  | fenceSys (gd : Guard)
  /-- TRAP (C class). -/
  | trap (gd : Guard) (c : Nat) (x : Option Nat)
  /-- SYSC (C class). -/
  | sysc (gd : Guard) (a i : Nat) (x : Option Nat)
  /-- ERET (C class). -/
  | eret (gd : Guard)
  /-- CSRR (C class). -/
  | csrr (gd : Guard) (d c : Nat)
  /-- CSRW (C class). -/
  | csrw (gd : Guard) (a c : Nat)
  /-- CSRS (C class). -/
  | csrs (gd : Guard) (a c : Nat)
  /-- CSRC (C class). -/
  | csrc (gd : Guard) (a c : Nat)
  /-- ADD (I class). -/
  | add (gd : Guard) (d a b : Nat)
  /-- SUB (I class). -/
  | sub (gd : Guard) (d a b : Nat)
  /-- ADDI (I class). -/
  | addi (gd : Guard) (d a i : Nat) (x : Option Nat)
  /-- MUL (I class). -/
  | mul (gd : Guard) (d a b : Nat)
  /-- MULH (I class). -/
  | mulh (gd : Guard) (d a b : Nat)
  /-- MULH_U (I class). -/
  | mulhU (gd : Guard) (d a b : Nat)
  /-- DIV (I class). -/
  | div (gd : Guard) (d a b : Nat)
  /-- DIV_U (I class). -/
  | divU (gd : Guard) (d a b : Nat)
  /-- REM (I class). -/
  | rem (gd : Guard) (d a b : Nat)
  /-- REM_U (I class). -/
  | remU (gd : Guard) (d a b : Nat)
  /-- AND (I class). -/
  | and (gd : Guard) (d a b : Nat)
  /-- OR (I class). -/
  | or (gd : Guard) (d a b : Nat)
  /-- XOR (I class). -/
  | xor (gd : Guard) (d a b : Nat)
  /-- ANDI (I class). -/
  | andi (gd : Guard) (d a i : Nat) (x : Option Nat)
  /-- ORI (I class). -/
  | ori (gd : Guard) (d a i : Nat) (x : Option Nat)
  /-- XORI (I class). -/
  | xori (gd : Guard) (d a i : Nat) (x : Option Nat)
  /-- SHL (I class). -/
  | shl (gd : Guard) (d a b : Nat)
  /-- SHR (I class). -/
  | shr (gd : Guard) (d a b : Nat)
  /-- SHR_A (I class). -/
  | shrA (gd : Guard) (d a b : Nat)
  /-- SHLI (I class). -/
  | shli (gd : Guard) (d a s : Nat)
  /-- SHRI (I class). -/
  | shri (gd : Guard) (d a s : Nat)
  /-- SHRI_A (I class). -/
  | shriA (gd : Guard) (d a s : Nat)
  /-- BFX (I class). -/
  | bfx (gd : Guard) (d a : Nat) (sx wm1 lsb : Nat)
  /-- BFI (I class). -/
  | bfi (gd : Guard) (d a : Nat) (wm1 lsb : Nat)
  /-- SETHI (I class). -/
  | sethi (gd : Guard) (d a i : Nat) (x : Option Nat)
  /-- BITC_POP (I class). -/
  | bitcPop (gd : Guard) (d a : Nat)
  /-- BITC_CLZ (I class). -/
  | bitcClz (gd : Guard) (d a : Nat)
  /-- BITC_CTZ (I class). -/
  | bitcCtz (gd : Guard) (d a : Nat)
  /-- MIN (I class). -/
  | min (gd : Guard) (d a b : Nat)
  /-- MIN_U (I class). -/
  | minU (gd : Guard) (d a b : Nat)
  /-- MAX (I class). -/
  | max (gd : Guard) (d a b : Nat)
  /-- MAX_U (I class). -/
  | maxU (gd : Guard) (d a b : Nat)
  /-- CMPEQ (I class). -/
  | cmpeq (gd : Guard) (d a b : Nat)
  /-- CMPNE (I class). -/
  | cmpne (gd : Guard) (d a b : Nat)
  /-- CMPLT (I class). -/
  | cmplt (gd : Guard) (d a b : Nat)
  /-- CMPLTU (I class). -/
  | cmpltu (gd : Guard) (d a b : Nat)
  /-- CMPLE (I class). -/
  | cmple (gd : Guard) (d a b : Nat)
  /-- CMPLEU (I class). -/
  | cmpleu (gd : Guard) (d a b : Nat)
  /-- CMPEQI (I class). -/
  | cmpeqi (gd : Guard) (d a i : Nat) (x : Option Nat)
  /-- CMPLTI (I class). -/
  | cmplti (gd : Guard) (d a i : Nat) (x : Option Nat)
  /-- PAND (I class). -/
  | pand (gd : Guard) (d a b : Nat)
  /-- POR (I class). -/
  | por (gd : Guard) (d a b : Nat)
  /-- PXOR (I class). -/
  | pxor (gd : Guard) (d a b : Nat)
  /-- PANDN (I class). -/
  | pandn (gd : Guard) (d a b : Nat)
  /-- PMOV (I class). -/
  | pmov (gd : Guard) (d a : Nat)
  /-- PMOV_PREDS (I class). -/
  | pmovPreds (gd : Guard) (d : Nat)
  /-- PMOV_FROM_G (I class). -/
  | pmovFromG (gd : Guard) (d a : Nat)
  /-- JMOV_TO_J (I class). -/
  | jmovToJ (gd : Guard) (d a : Nat)
  /-- JMOV_TO_G (I class). -/
  | jmovToG (gd : Guard) (d a : Nat)
  /-- EMOV_TO_E (I class). -/
  | emovToE (gd : Guard) (d a : Nat)
  /-- EMOV_TO_G (I class). -/
  | emovToG (gd : Guard) (d a : Nat)
  /-- EMOV_E (I class). -/
  | emovE (gd : Guard) (d a : Nat)
  /-- QSET (I class). -/
  | qset (gd : Guard) (d a : Nat)
  /-- QSET_TID (I class). -/
  | qsetTid (gd : Guard) (d a : Nat)
  /-- QSET_C (I class). -/
  | qsetC (gd : Guard) (d a b : Nat)
  /-- QGET (I class). -/
  | qget (gd : Guard) (d a : Nat)
  /-- QGET_TID (I class). -/
  | qgetTid (gd : Guard) (d a : Nat)
  /-- QGET_C (I class). -/
  | qgetC (gd : Guard) (d a b : Nat)
  /-- QADD (I class). -/
  | qadd (gd : Guard) (d a c s : Nat) (x : Option Nat)
  /-- QMOV (I class). -/
  | qmov (gd : Guard) (d a : Nat)
  /-- FADD (I class). -/
  | fadd (gd : Guard) (d a b f : Nat) (x : Option Nat)
  /-- FSUB (I class). -/
  | fsub (gd : Guard) (d a b f : Nat) (x : Option Nat)
  /-- FMUL (I class). -/
  | fmul (gd : Guard) (d a b f : Nat) (x : Option Nat)
  /-- FMA (I class). -/
  | fma (gd : Guard) (d a b f : Nat) (c rm : Nat)
  /-- FDIV (I class). -/
  | fdiv (gd : Guard) (d a b f : Nat) (x : Option Nat)
  /-- FSQRT (I class). -/
  | fsqrt (gd : Guard) (d a f : Nat) (x : Option Nat)
  /-- FMIN (I class). -/
  | fmin (gd : Guard) (d a b f : Nat)
  /-- FMAX (I class). -/
  | fmax (gd : Guard) (d a b f : Nat)
  /-- FCMP (I class). -/
  | fcmp (gd : Guard) (d a b f : Nat) (cond : Nat)
  /-- FCVT_FP (I class). -/
  | fcvtFp (gd : Guard) (d a : Nat) (src dst rm : Nat)
  /-- FCVT_FROM_I64 (I class). -/
  | fcvtFromI64 (gd : Guard) (d a : Nat) (f dst rm : Nat)
  /-- FCVT_TO_I64 (I class). -/
  | fcvtToI64 (gd : Guard) (d a : Nat) (f src rm : Nat)
  /-- FCVT_TO_U64 (I class). -/
  | fcvtToU64 (gd : Guard) (d a : Nat) (f src rm : Nat)
  /-- FCLASS (I class). -/
  | fclass (gd : Guard) (d a f : Nat)
  /-- ZCHK (I class). -/
  | zchk (gd : Guard) (d a : Nat)
  /-- ZCHK_M (I class). -/
  | zchkM (gd : Guard) (d a b : Nat)
  /-- VADD (V class). -/
  | vadd (gd : Guard) (v : VOp)
  /-- VSUB (V class). -/
  | vsub (gd : Guard) (v : VOp)
  /-- VMUL (V class). -/
  | vmul (gd : Guard) (v : VOp)
  /-- VFMA (V class). -/
  | vfma (gd : Guard) (v : VOp)
  /-- VMIN (V class). -/
  | vmin (gd : Guard) (v : VOp)
  /-- VMAX (V class). -/
  | vmax (gd : Guard) (v : VOp)
  /-- VABS (V class). -/
  | vabs (gd : Guard) (v : VOp)
  /-- VNEG (V class). -/
  | vneg (gd : Guard) (v : VOp)
  /-- VAND (V class). -/
  | vand (gd : Guard) (v : VOp)
  /-- VOR (V class). -/
  | vor (gd : Guard) (v : VOp)
  /-- VXOR (V class). -/
  | vxor (gd : Guard) (v : VOp)
  /-- VSHL (V class). -/
  | vshl (gd : Guard) (v : VOp)
  /-- VSHR (V class). -/
  | vshr (gd : Guard) (v : VOp)
  /-- VCMP (V class). -/
  | vcmp (gd : Guard) (v : VOp)
  /-- VSEL (V class). -/
  | vsel (gd : Guard) (v : VOp)
  /-- VPERM (V class). -/
  | vperm (gd : Guard) (v : VOp)
  /-- VSLIDE (V class). -/
  | vslide (gd : Guard) (v : VOp)
  /-- VPACK (V class). -/
  | vpack (gd : Guard) (v : VOp)
  /-- VUNPK (V class). -/
  | vunpk (gd : Guard) (v : VOp)
  /-- VBCAST (V class). -/
  | vbcast (gd : Guard) (v : VOp)
  /-- VEXT (V class). -/
  | vext (gd : Guard) (v : VOp)
  /-- VCVT (V class). -/
  | vcvt (gd : Guard) (v : VOp)
  /-- VQNT (V class). -/
  | vqnt (gd : Guard) (v : VOp)
  /-- VDQ (V class). -/
  | vdq (gd : Guard) (v : VOp)
  /-- VAMAX (V class). -/
  | vamax (gd : Guard) (v : VOp)
  /-- VSPEC (V class). -/
  | vspec (gd : Guard) (v : VOp)
  /-- VRED (V class). -/
  | vred (gd : Guard) (v : VOp)
  /-- VSCAN (V class). -/
  | vscan (gd : Guard) (v : VOp)
  /-- VMATCH (V class). -/
  | vmatch (gd : Guard) (v : VOp)
  /-- KLOG (V class). -/
  | klog (gd : Guard) (v : VOp)
  /-- KMOV (V class). -/
  | kmov (gd : Guard) (v : VOp)
  /-- VMOV (V class). -/
  | vmov (gd : Guard) (v : VOp)
  /-- IDLE (V class). -/
  | idle (gd : Guard)
  /-- MMA (M class). -/
  | mma (gd : Guard) (e : Edge) (d qa qb sa ta tb z kb0 kbn pa pb : Nat)
  /-- MZERO (M class). -/
  | mzero (gd : Guard) (e : Edge) (mask : Nat)
  /-- MLDA (M class). -/
  | mlda (gd : Guard) (e : Edge) (d q t part : Nat)
  /-- MSTA (M class). -/
  | msta (gd : Guard) (e : Edge) (d q t part rm dist : Nat)
  /-- MSCL_FILL (M class). -/
  | msclFill (gd : Guard) (e : Edge) (d gs : Nat)
  /-- MSCL_DIAG (M class). -/
  | msclDiag (gd : Guard) (e : Edge) (d gs : Nat)
  /-- MSCL_MUL (M class). -/
  | msclMul (gd : Guard) (e : Edge) (d gs : Nat)
  /-- MTRI_LI (M class). -/
  | mtriLi (gd : Guard) (e : Edge) (d gs one : Nat)
  /-- MTRI_LS (M class). -/
  | mtriLs (gd : Guard) (e : Edge) (d gs one : Nat)
  /-- MTRI_UI (M class). -/
  | mtriUi (gd : Guard) (e : Edge) (d gs one : Nat)
  /-- MTRI_US (M class). -/
  | mtriUs (gd : Guard) (e : Edge) (d gs one : Nat)
  /-- TBUILD (M class). -/
  | tbuild (gd : Guard) (e : Edge) (z q p kb mode w : Nat)
  /-- TLOOK (M class). -/
  | tlook (gd : Guard) (e : Edge) (d z q wkb cst cnm1 pm : Nat)
  /-- TLOOK_R (M class). -/
  | tlookR (gd : Guard) (e : Edge) (d z q wkb cst cnm1 pm : Nat)
  /-- ZSAVE (M class). -/
  | zsave (gd : Guard) (e : Edge) (z f q gs : Nat)
  /-- ZLOAD (M class). -/
  | zload (gd : Guard) (e : Edge) (z f q gs : Nat)
  /-- ZINV (M class). -/
  | zinv (gd : Guard) (e : Edge) (mask : Nat)
  /-- CBLD (M class). -/
  | cbld (gd : Guard) (e : Edge) (w gs cnt : Nat)
  /-- TFETCH (X class). -/
  | tfetch (gd : Guard) (e : Edge) (q hint : Nat)
  /-- THINT (X class). -/
  | thint (gd : Guard) (e : Edge) (q set clr : Nat)
  /-- TINV (X class). -/
  | tinv (gd : Guard) (e : Edge) (q ax nm1 : Nat)
  /-- TCOPY (X class). -/
  | tcopy (gd : Guard) (e : Edge) (qs qd t : Nat)
  /-- TCOPY_MEM (X class). -/
  | tcopyMem (gd : Guard) (e : Edge) (qs t gs : Nat)
  /-- TRED (X class). -/
  | tred (gd : Guard) (e : Edge) (qs qd opr : Nat)
  /-- TGATH (X class). -/
  | tgath (gd : Guard) (e : Edge) (qd qs gs nm1 : Nat)
  /-- TSCAT (X class). -/
  | tscat (gd : Guard) (e : Edge) (qs qd gs nm1 : Nat)
  /-- TACQ (X class). -/
  | tacq (gd : Guard) (e : Edge) (q ver : Nat)
  /-- TREL (X class). -/
  | trel (gd : Guard) (e : Edge) (q : Nat)
  /-- ITIN (X class). -/
  | itin (gd : Guard) (e : Edge) (s ix dm1 : Nat)
  /-- ITSTEP (X class). -/
  | itstep (gd : Guard) (e : Edge) (s q : Nat)
  /-- CHSEND (X class). -/
  | chsend (gd : Guard) (e : Edge) (ch q : Nat)
  /-- CHRECV (X class). -/
  | chrecv (gd : Guard) (e : Edge) (ch q : Nat)
  /-- DESC (X class). -/
  | desc (gd : Guard) (e : Edge) (gt ga : Nat)
  /-- RLD (X class). -/
  | rld (gd : Guard) (e : Edge) (d ga : Nat)
  /-- RST (X class). -/
  | rst (gd : Guard) (e : Edge) (ga gs : Nat)
  /-- RFAA (X class). -/
  | rfaa (gd : Guard) (e : Edge) (d ga gs : Nat)
  /-- RTDEC (X class). -/
  | rtdec (gd : Guard) (e : Edge) (ga : Nat)
  /-- RFENCE (X class). -/
  | rfence (gd : Guard) (e : Edge) (ga : Nat)
  /-- RFENCE_F_STORE (X class). -/
  | rfenceFStore (gd : Guard) (e : Edge) (ga gs : Nat)
  /-- RFENCE_F_DEC (X class). -/
  | rfenceFDec (gd : Guard) (e : Edge) (ga : Nat)
  /-- TSPAWN (X class). -/
  | tspawn (gd : Guard) (e : Edge) (ga : Nat)
  /-- TDEC (X class). -/
  | tdec (gd : Guard) (e : Edge) (ga : Nat)
  /-- TDECB (X class). -/
  | tdecb (gd : Guard) (e : Edge) (ga : Nat)
  /-- TDECB_ARM (X class). -/
  | tdecbArm (gd : Guard) (e : Edge) (ga gs : Nat)
  /-- LD_B (L class). -/
  | ldB (gd : Guard) (t b d : Nat) (x : Option Nat)
  /-- LD_BS (L class). -/
  | ldBs (gd : Guard) (t b d : Nat) (x : Option Nat)
  /-- LD_H (L class). -/
  | ldH (gd : Guard) (t b d : Nat) (x : Option Nat)
  /-- LD_HS (L class). -/
  | ldHs (gd : Guard) (t b d : Nat) (x : Option Nat)
  /-- LD_W (L class). -/
  | ldW (gd : Guard) (t b d : Nat) (x : Option Nat)
  /-- LD_WS (L class). -/
  | ldWs (gd : Guard) (t b d : Nat) (x : Option Nat)
  /-- LD_D (L class). -/
  | ldD (gd : Guard) (t b d : Nat) (x : Option Nat)
  /-- ST_B (L class). -/
  | stB (gd : Guard) (t b d : Nat) (x : Option Nat)
  /-- ST_H (L class). -/
  | stH (gd : Guard) (t b d : Nat) (x : Option Nat)
  /-- ST_W (L class). -/
  | stW (gd : Guard) (t b d : Nat) (x : Option Nat)
  /-- ST_D (L class). -/
  | stD (gd : Guard) (t b d : Nat) (x : Option Nat)
  /-- LDV (L class). -/
  | ldv (gd : Guard) (t b d : Nat) (x : Option Nat)
  /-- STV (L class). -/
  | stv (gd : Guard) (t b d : Nat) (x : Option Nat)
  /-- GATH (L class). -/
  | gath (gd : Guard) (t b : Nat) (vx k es sc : Nat)
  /-- SCAT (L class). -/
  | scat (gd : Guard) (t b : Nat) (vx k es sc : Nat)
  /-- LDX (L class). -/
  | ldx (gd : Guard) (t b d : Nat) (x : Option Nat)
  /-- LDXINV (L class). -/
  | ldxinv (gd : Guard) (b d : Nat) (x : Option Nat)
  /-- LDXINV_ALL (L class). -/
  | ldxinvAll (gd : Guard)
  /-- SLD (L class). -/
  | sld (gd : Guard) (t b d : Nat) (x : Option Nat)
  /-- PREF (L class). -/
  | pref (gd : Guard) (b d : Nat) (x : Option Nat)
  /-- PREF_LLC (L class). -/
  | prefLlc (gd : Guard) (b d : Nat) (x : Option Nat)
  /-- ACQ (L class). -/
  | acq (gd : Guard) (t b d : Nat) (x : Option Nat)
  /-- REL (L class). -/
  | rel (gd : Guard) (t b d : Nat) (x : Option Nat)
  /-- TRD (L class). -/
  | trd (gd : Guard) (t b d : Nat) (x : Option Nat)
  /-- TWR (L class). -/
  | twr (gd : Guard) (t b d : Nat) (x : Option Nat)
  /-- AMO (L class). -/
  | amo (gd : Guard) (t b d : Nat) (opc sz s : Nat)
  /-- CAS (L class). -/
  | cas (gd : Guard) (t b d : Nat) (sz s c : Nat)
  /-- IDLE_L (L class). -/
  | idleL (gd : Guard)
  /-- Event STALLED_BUNDLE_COMMIT. -/
  | stalledBundleCommit (core : Nat)
  /-- Event SAFE_DISTANCE_WATCHDOG. -/
  | safeDistanceWatchdog (core : Nat)
  /-- Event HANDLER_WATCHDOG. -/
  | handlerWatchdog (core : Nat)
  /-- Event TASK_END. -/
  | taskEnd (core : Nat)
  /-- Event DECREMENT. -/
  | decrement (n : Nat)
  /-- Event RELEASE_ARRIVAL. -/
  | releaseArrival (n : Nat)
  /-- Event RECORD_CREATION. -/
  | recordCreation (n : Nat)
  /-- Event OVERFLOW_RING_PLACEMENT. -/
  | overflowRingPlacement (n : Nat)
  /-- Event RDQ_REFILL. -/
  | rdqRefill (cluster part prio : Nat)
  /-- Event RDQ_LOAD_REPORT. -/
  | rdqLoadReport (cluster : Nat)
  /-- Event DISPATCH. -/
  | dispatch (cluster : Nat)
  /-- Event GANG_DISPATCH. -/
  | gangDispatch (part : Nat)
  /-- Event ENGINE_COMMAND_TAKE. -/
  | engineCommandTake (core ex : Nat)
  /-- Event FRAME_ALLOCATION. -/
  | frameAllocation (cluster : Nat)
  /-- Event COMMAND_REPLAY. -/
  | commandReplay (core n : Nat)
  /-- Event ENGINE_COMMAND_COMPLETION. -/
  | engineCommandCompletion (core n : Nat)
  /-- Event FILL_REQUEST. -/
  | fillRequest (n : Nat)
  /-- Event NEIGHBOUR_SERVE. -/
  | neighbourServe (n : Nat)
  /-- Event FILL_ANSWER. -/
  | fillAnswer (n : Nat)
  /-- Event GRANT_REQUEST. -/
  | grantRequest (n : Nat)
  /-- Event WRITE_GRANT. -/
  | writeGrant (n : Nat)
  /-- Event RETRY. -/
  | retry (n : Nat)
  /-- Event GRANT_TIMEOUT. -/
  | grantTimeout (n : Nat)
  /-- Event RELEASE_AT_HOME. -/
  | releaseAtHome (n : Nat)
  /-- Event READ_OUT_COMPLETE. -/
  | readOutComplete (cluster frame : Nat)
  /-- Event DRAIN_ARRIVAL. -/
  | drainArrival (n : Nat)
  /-- Event VICTIM_WRITE_BACK. -/
  | victimWriteBack (n : Nat)
  /-- Event TACQ_AT_HOME. -/
  | tacqAtHome (n : Nat)
  /-- Event TACQ_TIMEOUT. -/
  | tacqTimeout (n : Nat)
  /-- Event REMOTE_HOME_TIMEOUT. -/
  | remoteHomeTimeout (n : Nat)
  /-- Event LEASE_EXPIRY. -/
  | leaseExpiry (cluster frame : Nat)
  /-- Event HOME_LEASE_EXPIRY. -/
  | homeLeaseExpiry (home n : Nat)
  /-- Event LEASE_RETURN. -/
  | leaseReturn (home n : Nat)
  /-- Event REDUCTION_AT_HOME. -/
  | reductionAtHome (n : Nat)
  /-- Event MACHINE_CHECK. -/
  | machineCheck (unit x y : Nat)
  /-- Event LOAD_DATA_ARRIVAL. -/
  | loadDataArrival (core n : Nat)
  /-- Event STORE_PERFORMED. -/
  | storePerformed (core n : Nat)
  /-- Event REL_AT_HOME. -/
  | relAtHome (n : Nat)
  /-- Event ACQ_AT_HOME. -/
  | acqAtHome (n : Nat)
  /-- Event REGION_DRAIN. -/
  | regionDrain (n : Nat)
  /-- Event REGION_DRAIN_COMPLETE. -/
  | regionDrainComplete (n : Nat)
  /-- Event ACQ_REPLY. -/
  | acqReply (n : Nat)
  /-- Event AMO_AT_SLICE. -/
  | amoAtSlice (core n : Nat)
  /-- Event HOST_ATOMIC_COMPLETION. -/
  | hostAtomicCompletion (core : Nat)
  /-- Event HOST_ATOMIC_EXHAUSTED. -/
  | hostAtomicExhausted (core : Nat)
  /-- Event FABRIC_REQUEST_AT_TARGET. -/
  | fabricRequestAtTarget (n : Nat)
  /-- Event FABRIC_REPLY. -/
  | fabricReply (core n ok v : Nat)
  /-- Event FABRIC_TIMEOUT. -/
  | fabricTimeout (core n : Nat)
  /-- Event SHUNER_FRAME_RECEIVE. -/
  | shunerFrameReceive (crc src kind a v : Nat)
  /-- Event PREEMPTION_ORDER. -/
  | preemptionOrder (core : Nat)
  /-- Event FORCED_SAVE. -/
  | forcedSave (core : Nat)
  /-- Event PRQRESP. -/
  | prqresp (fn v : Nat)
  /-- Event PRI_PAGE_GROUP_RESPONSE. -/
  | priPageGroupResponse (n ok : Nat)
  /-- Event ATS_INVALIDATION. -/
  | atsInvalidation (part page : Nat)
  /-- Event VACATE. -/
  | vacate (poster kind id qmask deadline drop : Nat)
  /-- Event SAGE_EVALUATION. -/
  | sageEvaluation (n : Nat)
  /-- Event VACANCY. -/
  | vacancy (n : Nat)
  /-- Event RESUME. -/
  | resume (poster kind id qmask : Nat)
  /-- Event QSTART. -/
  | qstart (fn q : Nat)
  /-- Event QSTOP_DRAIN. -/
  | qstopDrain (fn q : Nat)
  /-- Event QSTOP_SAVE. -/
  | qstopSave (fn q : Nat)
  /-- Event QSWAP. -/
  | qswap (fn q q2 mode : Nat)
  /-- Event LOAD. -/
  | load (fn q : Nat)
  /-- Event UNLOAD. -/
  | unload (fn q : Nat)
  /-- Event DESCRIPTOR_COMMAND. -/
  | descriptorCommand (fn q : Nat)
  /-- Event LAUNCH. -/
  | launch (fn q : Nat)
  /-- Event COPY. -/
  | copy (fn q : Nat)
  /-- Event DOORBELL. -/
  | doorbell (fn q v : Nat)
  /-- Event OWNCLAIM. -/
  | ownclaim (writer v : Nat)
  /-- Event HANDOVER. -/
  | handover (writer v : Nat)
  /-- Event OPREQ. -/
  | opreq (writer v : Nat)
  /-- Event OPERATING_POINT_SWITCH. -/
  | operatingPointSwitch
  /-- Event CLSTATE. -/
  | clstate (writer v : Nat)
  /-- Event CLUSTER_WAKE. -/
  | clusterWake (cluster : Nat)
  /-- Event PARTITION_ENABLE. -/
  | partitionEnable (writer part : Nat)
  /-- Event PARTITION_DISABLE. -/
  | partitionDisable (writer part : Nat)
  /-- Event PARTITION_RESET. -/
  | partitionReset (writer part : Nat)
  /-- Event GENBUMP. -/
  | genbump (fn v : Nat)
  /-- Event GENERATION_BUMP_COMPLETE. -/
  | generationBumpComplete (n : Nat)
  /-- Event GENERATION_BUMP_HOLD. -/
  | generationBumpHold (n : Nat)
  /-- Event TRANSLATION_CACHE_EXPIRY. -/
  | translationCacheExpiry (n : Nat)
  /-- Event PTP_MESSAGE. -/
  | ptpMessage (neg offs slew : Nat)
  /-- Event PTP_SYNC_TIMEOUT. -/
  | ptpSyncTimeout
  /-- Event BUCKET_REFILL. -/
  | bucketRefill
  /-- Event FLOOR_SEGMENT_CLOSE. -/
  | floorSegmentClose
  /-- Event HARD_THERMAL_TRIP. -/
  | hardThermalTrip
  /-- Event PACKAGE_RESET. -/
  | packageReset
  /-- Event POWER_ON_RESET. -/
  | powerOnReset
  /-- Event FUNCTION_LEVEL_RESET. -/
  | functionLevelReset (fn : Nat)
  /-- Event BOOT_STAGE. -/
  | bootStage (ok : Nat)
  /-- Event GET_VERSION. -/
  | getVersion
  /-- Event GET_CAPABILITIES. -/
  | getCapabilities
  /-- Event NEGOTIATE_ALGORITHMS. -/
  | negotiateAlgorithms
  /-- Event GET_DIGESTS. -/
  | getDigests
  /-- Event GET_CERTIFICATE. -/
  | getCertificate
  /-- Event CHALLENGE. -/
  | challenge (nonce : Nat)
  /-- Event GET_MEASUREMENTS. -/
  | getMeasurements (ix : Nat)
  /-- Event REGISTER_WRITE. -/
  | registerWrite (writer fn off size v : Nat)
  /-- Event EMPTY_BUNDLE. -/
  | emptyBundle (rep sticky sv0 sv1 sl : Nat)
  /-- Event CORRECTED_ERROR. -/
  | correctedError (unit x : Nat)
  /-- Event THERMAL_SENSOR_UPDATE. -/
  | thermalSensorUpdate (v : Nat)
  /-- Event PTIME_ADVANCE. -/
  | ptimeAdvance
  /-- Event FABRIC_PATH_FAILURE. -/
  | fabricPathFailure (core n : Nat)
  /-- Event LEASE_RETURN_REQUEST. -/
  | leaseReturnRequest (home n : Nat)
  /-- Event RING_COMMAND_COMPLETION. -/
  | ringCommandCompletion (fn q : Nat)
  deriving DecidableEq, Repr

end Sys2Proof
end

