-- ==== Sys2Proof/WellFormed.lean ====
section
/-! DEFINITION. The checks an instruction meets before it is one of the TK-880's (R64, R68, R119, R124, R135, R142, R150 to R173,
R178, R182 to R187, R230, R232, R252, R267, R334). Decode refuses, by name, a word whose instruction fails them. -/

namespace Sys2Proof

/-- Lane types of a V instruction (R152). -/
inductive LaneTy
  | flt (code : Nat)
  | int (signed : Bool) (w : Nat)
  | xa64
  deriving DecidableEq, Repr

/-- The lane width of a format code (R152); DX6 has none. -/
def laneWidth (fmt : Nat) : Option Nat :=
  match fmt with
  | 0 => some 32 | 1 => some 16 | 2 => some 16 | 3 => some 8 | 4 => some 8 | 5 => some 8 | 6 => some 8
  | 7 => some 4 | 8 => some 8 | 9 => none | 10 => some 4 | 11 => some 8 | 12 => some 4 | 13 => some 8
  | 14 => some 64 | 15 => some 64 | _ => none

/-- The lane type of a typed instruction: a float type or an integer kind (R152). -/
def laneTy (fmt ik : Nat) : Option LaneTy :=
  match ik, fmt with
  | 0, 0 => some (.flt 0) | 0, 1 => some (.flt 1) | 0, 2 => some (.flt 2) | 0, 14 => some (.flt 14)
  | 0, 5 => some (.int true 8) | 0, 6 => some (.int false 8) | 0, 15 => some .xa64
  | 1, 0 => some (.int true 32) | 1, 2 => some (.int true 16) | 1, 14 => some (.int true 64)
  | 2, 0 => some (.int false 32) | 2, 2 => some (.int false 16) | 2, 14 => some (.int false 64)
  | _, _ => none

namespace VOp
/-- The extension fields, all zero when there is no extension word (R63). -/
def ex (v : VOp) : VExt := v.x.getD ⟨0, 0, 0, 0, 0⟩
/-- The lane group in bits: 1,024, 512 or 256 (R63, R151). -/
def bits (v : VOp) : Nat := 1024 / 2 ^ v.lg
/-- The integer-kind field IK (R152). -/
def ik (v : VOp) : Nat := fld v.ex.i8 6 2
/-- The lane type of a typed instruction. -/
def ty (v : VOp) : Option LaneTy := laneTy v.ex.fmt v.ik
/-- The field bounds of format V; lg = 0b11 is reserved (R63, R68). -/
def inFile (v : VOp) : Bool :=
  Nat.blt v.d 32 && Nat.blt v.a 32 && Nat.blt v.b 32 && Nat.blt v.k 8 && Nat.blt v.lg 3 &&
    (match v.x with
     | none => true
     | some e => Nat.blt e.fmt 16 && Nat.blt e.rm 4 && Nat.blt e.c 32 && Nat.blt e.i8 256 && Nat.blt e.g 64)
/-- Fields rm and c zero, where an entry names neither (R155). -/
def plain (v : VOp) : Bool := v.ex.rm == 0 && v.ex.c == 0
end VOp

/-- The arithmetic family (R157): mul says VMUL and VFMA (no XA64), sgn says VABS and VNEG (b zero, S and rm reserved). S = 1 is refused with a
float type and, in VMIN and VMAX too, with XA64 (log entry 100). -/
def wfArith (v : VOp) (mul sgn usesRm usesC : Bool) : Bool :=
  (usesC || v.ex.c == 0) && fld v.ex.i8 0 5 == 0 && (!sgn || v.b == 0) &&
    (match v.ty with
     | some (.flt _) => fld v.ex.i8 5 1 == 0 && (usesRm || v.ex.rm == 0)
     | some (.int _ _) => v.ex.rm == 0 && (!sgn || fld v.ex.i8 5 1 == 0)
     | some .xa64 => v.ex.rm == 0 && !mul && fld v.ex.i8 5 1 == 0
     | none => false)

def isFlt (t : Option LaneTy) : Bool := match t with | some (.flt _) => true | _ => false
def isIntKind (t : Option LaneTy) : Bool := match t with | some (.int _ _) => true | some .xa64 => true | _ => false

/-- Logic (R158), width-only. -/
def wfLogic (v : VOp) : Bool := (laneWidth v.ex.fmt).isSome && v.ex.i8 == 0 && v.plain
/-- Shifts (R158), integer kinds. -/
def wfShift (v : VOp) : Bool := isIntKind v.ty && fld v.ex.i8 0 6 == 0 && v.plain
/-- VCMP (R159). -/
def wfVcmp (v : VOp) : Bool :=
  Nat.blt v.d 8 && fld v.ex.i8 3 3 == 0 && v.plain &&
    ((isFlt v.ty && Nat.blt (fld v.ex.i8 0 3) 5) || (isIntKind v.ty && Nat.blt (fld v.ex.i8 0 3) 4))
/-- VSEL and VMOV (R160). -/
def wfVsel (v : VOp) : Bool := (laneWidth v.ex.fmt).isSome && v.ex.i8 == 0 && v.plain
def wfVmov (v : VOp) : Bool := wfVsel v && v.b == 0
/-- Widths of permutes, broadcasts and extracts: 8, 16, 32 or 64 (R161), of VBCAST from g as well (log entry 101). -/
def permW (v : VOp) : Bool := match laneWidth v.ex.fmt with | some w => Nat.ble 8 w | none => false
/-- Number of lanes of width w in the group (R151). -/
def lanes (v : VOp) : Nat := match laneWidth v.ex.fmt with | some w => v.bits / w | none => 0
def wfVperm (v : VOp) : Bool :=
  permW v && v.ex.rm == 0 && (v.ex.i8 == 32 || (v.ex.i8 == 0 && v.ex.c == 0))
def wfVslide (v : VOp) : Bool := permW v && v.plain && Nat.ble (fld v.ex.i8 0 7) (lanes v)
/-- VPACK and VUNPK (R163): fmt 0, 2 or 14, IK 0 to 2. -/
def packTy (v : VOp) : Bool := (v.ex.fmt == 0 || v.ex.fmt == 2 || v.ex.fmt == 14) && Nat.blt v.ik 3
def wfVpack (v : VOp) : Bool :=
  packTy v && fld v.ex.i8 0 5 == 0 && (fld v.ex.i8 5 1 == 0 || v.ik != 0) && v.plain
def wfVunpk (v : VOp) : Bool := packTy v && fld v.ex.i8 1 5 == 0 && v.b == 0 && v.plain
/-- VBCAST and VEXT (R164): width-only with a width of at least 8 bits for a lane operand; the extension word is required. -/
def wfVbcast (v : VOp) : Bool :=
  v.x.isSome && permW v && v.plain && v.b == 0 &&
    (if fld v.ex.i8 7 1 == 0 then v.a == 0 && fld v.ex.i8 0 7 == 0 else Nat.blt (fld v.ex.i8 0 7) (lanes v))
def wfVext (v : VOp) : Bool :=
  v.x.isSome && permW v && v.plain && v.d == 0 && v.b == 0 && v.k == 0 &&
    Nat.blt v.ex.i8 128 && Nat.blt (fld v.ex.i8 0 7) (lanes v)
/-- The types VCVT accepts (R165). -/
def cvtCode (c : Nat) : Bool := Nat.ble c 6 || c == 14 || c == 15
def wfVcvt (v : VOp) : Bool :=
  v.x.isSome && v.b == 0 && v.ex.c == 0 && Nat.blt v.ex.i8 128 && cvtCode v.ex.fmt && cvtCode (fld v.ex.i8 0 4) &&
    (match laneWidth v.ex.fmt, laneWidth (fld v.ex.i8 0 4) with
     | some wd, some ws => Nat.blt (fld v.ex.i8 4 3) (Nat.max ws wd / Nat.min ws wd)
     | _, _ => false)
/-- Block formats DX8, DX6, DX4, MXFP8, MXFP4, MXINT8 (R166). -/
def blockCode (c : Nat) : Bool := Nat.ble 8 c && Nat.ble c 13
def isDx (c : Nat) : Bool := c == 8 || c == 9 || c == 10
def isMx (c : Nat) : Bool := c == 11 || c == 12 || c == 13
/-- FP32, BF16 and FP16. -/
def lowFloat (c : Nat) : Bool := Nat.blt c 3
/-- VQNT (R166); the header destination c differs from d. -/
def wfVqnt (v : VOp) : Bool :=
  v.x.isSome && blockCode v.ex.fmt && lowFloat (fld v.ex.i8 0 4) && Nat.blt v.ex.i8 128 &&
    (isDx v.ex.fmt || fld v.ex.i8 4 3 == 0) && v.ex.rm == 0 && v.b == 0 && v.ex.c != v.d &&
    Nat.ble 32 (v.bits / (if fld v.ex.i8 0 4 == 0 then 32 else 16))
/-- VDQ (R167); with E = 1, b names an e register. -/
def wfVdq (v : VOp) : Bool :=
  blockCode v.ex.fmt && lowFloat (fld v.ex.i8 0 4) && fld v.ex.i8 4 3 == 0 && v.ex.c == 0 &&
    (fld v.ex.i8 7 1 == 0 || Nat.blt v.b 16)
/-- VAMAX (R168). -/
def wfVamax (v : VOp) : Bool :=
  lowFloat v.ex.fmt && (v.ex.i8 == 0 || v.ex.i8 == 32) && v.b == 0 && v.plain &&
    Nat.ble 32 (v.bits / (if v.ex.fmt == 0 then 32 else 16))
/-- VSPEC (R169). -/
def wfVspec (v : VOp) : Bool := lowFloat v.ex.fmt && Nat.blt v.ex.i8 11 && v.b == 0 && v.ex.c == 0
/-- The operation field of VRED, VSCAN and VMATCH (the table before R170); rm is ignored by float ADD (R36). -/
def redOp (v : VOp) : Bool :=
  fld v.ex.i8 3 1 == 0 && (v.ex.rm == 0 || isFlt v.ty) && ((isFlt v.ty && Nat.blt (fld v.ex.i8 0 3) 3) || (isIntKind v.ty && Nat.blt (fld v.ex.i8 0 3) 6))
def wfVred (v : VOp) : Bool :=
  redOp v && fld v.ex.i8 4 1 == 0 && v.b == 0 && v.ex.c == 0 &&
    (fld v.ex.i8 5 1 == 0 || v.ty == some (.flt 1) || v.ty == some (.flt 2))
def wfVscan (v : VOp) : Bool := redOp v && fld v.ex.i8 5 1 == 0 && v.b == 0 && v.ex.c == 0
def wfVmatch (v : VOp) : Bool := v.x.isSome && redOp v && fld v.ex.i8 4 2 == 0 && Nat.blt v.ex.c 8
/-- Mask instructions (R173). -/
def wfKlog (v : VOp) : Bool :=
  Nat.blt v.d 8 && Nat.blt v.a 8 && Nat.blt v.b 8 && v.k == 0 && v.ex.fmt == 0 && Nat.blt v.ex.i8 4 && v.plain
def wfKmov (v : VOp) : Bool :=
  v.k == 0 && v.b == 0 && v.plain &&
    (match v.ex.i8 with
     | 0 => Nat.blt v.d 8 && Nat.blt v.a 8 && v.ex.fmt == 0
     | 1 => Nat.blt v.d 8 && v.ex.fmt == 0
     | 2 => Nat.blt v.a 8 && v.ex.fmt == 0
     | 3 => Nat.blt v.d 8 && v.a == 0 && (laneWidth v.ex.fmt).isSome
     | _ => false)

/-- The FP codes scalar conversions accept (R135). -/
def fpCode (c : Nat) : Bool := Nat.ble c 4 || c == 14
/-- The CSR numbers of R110. -/
def csrExists (c : Nat) : Bool :=
  Nat.ble c 4 || (Nat.ble 8 c && Nat.ble c 0x0E) || (Nat.ble 0x10 c && Nat.ble c 0x14) || (Nat.ble 0x18 c && Nat.ble c 0x1A) ||
    (Nat.ble 0x1C c && Nat.ble c 0x1E)
/-- The end offset of LOOP and LOOPI (R140). -/
def loopOff (x : Option Nat) (o : Nat) : Nat := x.getD 0 * 256 + o
/-- An immediate extended above its low eight bits (R142, R147). -/
def extLow (x : Option Nat) (i : Nat) : Nat := x.getD 0 * 256 + i

namespace Guard
def wf (g : Guard) : Bool := Nat.blt g.gp 8 && Nat.blt g.gn 2
end Guard

namespace Edge
/-- Consumed tokens beyond nc are zero, and the produced token is none of the consumed ones (R178, R252). -/
def wf (e : Edge) : Bool :=
  Nat.blt e.tp 64 && Nat.blt e.c0 64 && Nat.blt e.c1 64 && Nat.blt e.nc 4 && Nat.blt e.c2 64 &&
    (Nat.ble 1 e.nc || e.c0 == 0) && (Nat.ble 2 e.nc || e.c1 == 0) && (e.nc == 3 || e.c2 == 0) &&
    !(Nat.ble 1 e.nc && e.tp == e.c0) && !(Nat.ble 2 e.nc && e.tp == e.c1) && !(e.nc == 3 && e.tp == e.c2)
/-- The consumed tokens that nc names (R63). -/
def consumed (e : Edge) : List Nat := [e.c0, e.c1, e.c2].take e.nc
end Edge

namespace Instr
/-- Whether the instruction's fields lie in their files and meet its entry's checks. -/
def wf (i : Instr) : Bool :=
  match i with
  | .br gd d x => gd.wf && Nat.blt d 1048576 && x.all (Nat.blt · 2147483648)
  | .bri gd a => gd.wf && Nat.blt a 64
  | .call gd d x => gd.wf && Nat.blt d 1048576 && x.all (Nat.blt · 2147483648)
  | .calli gd d a => gd.wf && Nat.blt d 64 && Nat.blt a 64
  | .ret gd a => gd.wf && Nat.blt a 64
  | .loop gd a o x => gd.wf && Nat.blt a 64 && Nat.blt o 256 && x.all (Nat.blt · 2147483648) && (loopOff x o != 0)
  | .loopi gd c o x => gd.wf && Nat.blt c 4096 && Nat.blt o 256 && x.all (Nat.blt · 2147483648) && (loopOff x o != 0)
  | .safe gd i x => gd.wf && Nat.blt i 256 && x.all (Nat.blt · 256) && (extLow x i != 0xFFFF)
  | .done gd => gd.wf
  | .waitk gd a => gd.wf && Nat.blt a 64
  | .waitkRange gd a b => gd.wf && Nat.blt a 64 && Nat.blt b 64 && (Nat.ble a b)
  | .pollk gd d a => gd.wf && Nat.blt d 8 && Nat.blt a 64
  | .pollkErr gd d a => gd.wf && Nat.blt d 8 && Nat.blt a 64
  | .fenceCore gd => gd.wf
  | .fenceCluster gd => gd.wf
  | .fenceDevice gd => gd.wf
  | .fenceSys gd => gd.wf
  | .trap gd c x => gd.wf && Nat.blt c 256 && x.all (Nat.blt · 128)
  | .sysc gd a i x => gd.wf && Nat.blt a 64 && Nat.blt i 256 && x.all (Nat.blt · 2147483648)
  | .eret gd => gd.wf
  | .csrr gd d c => gd.wf && Nat.blt d 64 && Nat.blt c 256 && (csrExists c)
  | .csrw gd a c => gd.wf && Nat.blt a 64 && Nat.blt c 256 && (csrExists c)
  | .csrs gd a c => gd.wf && Nat.blt a 64 && Nat.blt c 256 && (csrExists c)
  | .csrc gd a c => gd.wf && Nat.blt a 64 && Nat.blt c 256 && (csrExists c)
  | .add gd d a b => gd.wf && Nat.blt d 64 && Nat.blt a 64 && Nat.blt b 64
  | .sub gd d a b => gd.wf && Nat.blt d 64 && Nat.blt a 64 && Nat.blt b 64
  | .addi gd d a i x => gd.wf && Nat.blt d 64 && Nat.blt a 64 && Nat.blt i 256 && x.all (Nat.blt · 2147483648)
  | .mul gd d a b => gd.wf && Nat.blt d 64 && Nat.blt a 64 && Nat.blt b 64
  | .mulh gd d a b => gd.wf && Nat.blt d 64 && Nat.blt a 64 && Nat.blt b 64
  | .mulhU gd d a b => gd.wf && Nat.blt d 64 && Nat.blt a 64 && Nat.blt b 64
  | .div gd d a b => gd.wf && Nat.blt d 64 && Nat.blt a 64 && Nat.blt b 64
  | .divU gd d a b => gd.wf && Nat.blt d 64 && Nat.blt a 64 && Nat.blt b 64
  | .rem gd d a b => gd.wf && Nat.blt d 64 && Nat.blt a 64 && Nat.blt b 64
  | .remU gd d a b => gd.wf && Nat.blt d 64 && Nat.blt a 64 && Nat.blt b 64
  | .and gd d a b => gd.wf && Nat.blt d 64 && Nat.blt a 64 && Nat.blt b 64
  | .or gd d a b => gd.wf && Nat.blt d 64 && Nat.blt a 64 && Nat.blt b 64
  | .xor gd d a b => gd.wf && Nat.blt d 64 && Nat.blt a 64 && Nat.blt b 64
  | .andi gd d a i x => gd.wf && Nat.blt d 64 && Nat.blt a 64 && Nat.blt i 256 && x.all (Nat.blt · 2147483648)
  | .ori gd d a i x => gd.wf && Nat.blt d 64 && Nat.blt a 64 && Nat.blt i 256 && x.all (Nat.blt · 2147483648)
  | .xori gd d a i x => gd.wf && Nat.blt d 64 && Nat.blt a 64 && Nat.blt i 256 && x.all (Nat.blt · 2147483648)
  | .shl gd d a b => gd.wf && Nat.blt d 64 && Nat.blt a 64 && Nat.blt b 64
  | .shr gd d a b => gd.wf && Nat.blt d 64 && Nat.blt a 64 && Nat.blt b 64
  | .shrA gd d a b => gd.wf && Nat.blt d 64 && Nat.blt a 64 && Nat.blt b 64
  | .shli gd d a s => gd.wf && Nat.blt d 64 && Nat.blt a 64 && Nat.blt s 64
  | .shri gd d a s => gd.wf && Nat.blt d 64 && Nat.blt a 64 && Nat.blt s 64
  | .shriA gd d a s => gd.wf && Nat.blt d 64 && Nat.blt a 64 && Nat.blt s 64
  | .bfx gd d a sx wm1 lsb => gd.wf && Nat.blt d 64 && Nat.blt a 64 && Nat.blt sx 2 && Nat.blt wm1 64 && Nat.blt lsb 64 && (Nat.ble (lsb + wm1 + 1) 64)
  | .bfi gd d a wm1 lsb => gd.wf && Nat.blt d 64 && Nat.blt a 64 && Nat.blt wm1 64 && Nat.blt lsb 64 && (Nat.ble (lsb + wm1 + 1) 64)
  | .sethi gd d a i x => gd.wf && Nat.blt d 64 && Nat.blt a 64 && Nat.blt i 256 && x.all (Nat.blt · 2147483648)
  | .bitcPop gd d a => gd.wf && Nat.blt d 64 && Nat.blt a 64
  | .bitcClz gd d a => gd.wf && Nat.blt d 64 && Nat.blt a 64
  | .bitcCtz gd d a => gd.wf && Nat.blt d 64 && Nat.blt a 64
  | .min gd d a b => gd.wf && Nat.blt d 64 && Nat.blt a 64 && Nat.blt b 64
  | .minU gd d a b => gd.wf && Nat.blt d 64 && Nat.blt a 64 && Nat.blt b 64
  | .max gd d a b => gd.wf && Nat.blt d 64 && Nat.blt a 64 && Nat.blt b 64
  | .maxU gd d a b => gd.wf && Nat.blt d 64 && Nat.blt a 64 && Nat.blt b 64
  | .cmpeq gd d a b => gd.wf && Nat.blt d 8 && Nat.blt a 64 && Nat.blt b 64
  | .cmpne gd d a b => gd.wf && Nat.blt d 8 && Nat.blt a 64 && Nat.blt b 64
  | .cmplt gd d a b => gd.wf && Nat.blt d 8 && Nat.blt a 64 && Nat.blt b 64
  | .cmpltu gd d a b => gd.wf && Nat.blt d 8 && Nat.blt a 64 && Nat.blt b 64
  | .cmple gd d a b => gd.wf && Nat.blt d 8 && Nat.blt a 64 && Nat.blt b 64
  | .cmpleu gd d a b => gd.wf && Nat.blt d 8 && Nat.blt a 64 && Nat.blt b 64
  | .cmpeqi gd d a i x => gd.wf && Nat.blt d 8 && Nat.blt a 64 && Nat.blt i 256 && x.all (Nat.blt · 2147483648)
  | .cmplti gd d a i x => gd.wf && Nat.blt d 8 && Nat.blt a 64 && Nat.blt i 256 && x.all (Nat.blt · 2147483648)
  | .pand gd d a b => gd.wf && Nat.blt d 8 && Nat.blt a 8 && Nat.blt b 8
  | .por gd d a b => gd.wf && Nat.blt d 8 && Nat.blt a 8 && Nat.blt b 8
  | .pxor gd d a b => gd.wf && Nat.blt d 8 && Nat.blt a 8 && Nat.blt b 8
  | .pandn gd d a b => gd.wf && Nat.blt d 8 && Nat.blt a 8 && Nat.blt b 8
  | .pmov gd d a => gd.wf && Nat.blt d 8 && Nat.blt a 8
  | .pmovPreds gd d => gd.wf && Nat.blt d 64
  | .pmovFromG gd d a => gd.wf && Nat.blt d 8 && Nat.blt a 64
  | .jmovToJ gd d a => gd.wf && Nat.blt d 16 && Nat.blt a 64
  | .jmovToG gd d a => gd.wf && Nat.blt d 64 && Nat.blt a 16
  | .emovToE gd d a => gd.wf && Nat.blt d 16 && Nat.blt a 64
  | .emovToG gd d a => gd.wf && Nat.blt d 64 && Nat.blt a 16
  | .emovE gd d a => gd.wf && Nat.blt d 16 && Nat.blt a 16
  | .qset gd d a => gd.wf && Nat.blt d 16 && Nat.blt a 64
  | .qsetTid gd d a => gd.wf && Nat.blt d 16 && Nat.blt a 64
  | .qsetC gd d a b => gd.wf && Nat.blt d 16 && Nat.blt a 64 && Nat.blt b 64
  | .qget gd d a => gd.wf && Nat.blt d 64 && Nat.blt a 16
  | .qgetTid gd d a => gd.wf && Nat.blt d 64 && Nat.blt a 16
  | .qgetC gd d a b => gd.wf && Nat.blt d 64 && Nat.blt a 16 && Nat.blt b 64
  | .qadd gd d a c s x => gd.wf && Nat.blt d 16 && Nat.blt a 16 && Nat.blt c 4 && Nat.blt s 64 && x.all (Nat.blt · 2048) && ((x.isNone || s == 0))
  | .qmov gd d a => gd.wf && Nat.blt d 16 && Nat.blt a 16
  | .fadd gd d a b f x => gd.wf && Nat.blt d 64 && Nat.blt a 64 && Nat.blt b 64 && Nat.blt f 2 && x.all (Nat.blt · 4)
  | .fsub gd d a b f x => gd.wf && Nat.blt d 64 && Nat.blt a 64 && Nat.blt b 64 && Nat.blt f 2 && x.all (Nat.blt · 4)
  | .fmul gd d a b f x => gd.wf && Nat.blt d 64 && Nat.blt a 64 && Nat.blt b 64 && Nat.blt f 2 && x.all (Nat.blt · 4)
  | .fma gd d a b f c rm => gd.wf && Nat.blt d 64 && Nat.blt a 64 && Nat.blt b 64 && Nat.blt f 2 && Nat.blt c 64 && Nat.blt rm 4
  | .fdiv gd d a b f x => gd.wf && Nat.blt d 64 && Nat.blt a 64 && Nat.blt b 64 && Nat.blt f 2 && x.all (Nat.blt · 4)
  | .fsqrt gd d a f x => gd.wf && Nat.blt d 64 && Nat.blt a 64 && Nat.blt f 2 && x.all (Nat.blt · 4)
  | .fmin gd d a b f => gd.wf && Nat.blt d 64 && Nat.blt a 64 && Nat.blt b 64 && Nat.blt f 2
  | .fmax gd d a b f => gd.wf && Nat.blt d 64 && Nat.blt a 64 && Nat.blt b 64 && Nat.blt f 2
  | .fcmp gd d a b f cond => gd.wf && Nat.blt d 8 && Nat.blt a 64 && Nat.blt b 64 && Nat.blt f 2 && Nat.blt cond 4
  | .fcvtFp gd d a src dst rm => gd.wf && Nat.blt d 64 && Nat.blt a 64 && Nat.blt src 16 && Nat.blt dst 16 && Nat.blt rm 4 && ((fpCode src && fpCode dst))
  | .fcvtFromI64 gd d a f dst rm => gd.wf && Nat.blt d 64 && Nat.blt a 64 && Nat.blt f 64 && Nat.blt dst 16 && Nat.blt rm 4 && ((f != 63 && fpCode dst))
  | .fcvtToI64 gd d a f src rm => gd.wf && Nat.blt d 64 && Nat.blt a 64 && Nat.blt f 64 && Nat.blt src 16 && Nat.blt rm 4 && ((f != 63 && fpCode src))
  | .fcvtToU64 gd d a f src rm => gd.wf && Nat.blt d 64 && Nat.blt a 64 && Nat.blt f 64 && Nat.blt src 16 && Nat.blt rm 4 && ((f != 63 && fpCode src))
  | .fclass gd d a f => gd.wf && Nat.blt d 64 && Nat.blt a 64 && Nat.blt f 2
  | .zchk gd d a => gd.wf && Nat.blt d 8 && Nat.blt a 16
  | .zchkM gd d a b => gd.wf && Nat.blt d 8 && Nat.blt a 16 && Nat.blt b 16
  | .vadd gd v => gd.wf && v.inFile && wfArith v false false true false
  | .vsub gd v => gd.wf && v.inFile && wfArith v false false true false
  | .vmul gd v => gd.wf && v.inFile && wfArith v true false true false
  | .vfma gd v => gd.wf && v.inFile && (v.x.isSome && wfArith v true false true true)
  | .vmin gd v => gd.wf && v.inFile && wfArith v false false false false
  | .vmax gd v => gd.wf && v.inFile && wfArith v false false false false
  | .vabs gd v => gd.wf && v.inFile && wfArith v false true false false
  | .vneg gd v => gd.wf && v.inFile && wfArith v false true false false
  | .vand gd v => gd.wf && v.inFile && wfLogic v
  | .vor gd v => gd.wf && v.inFile && wfLogic v
  | .vxor gd v => gd.wf && v.inFile && wfLogic v
  | .vshl gd v => gd.wf && v.inFile && wfShift v
  | .vshr gd v => gd.wf && v.inFile && wfShift v
  | .vcmp gd v => gd.wf && v.inFile && wfVcmp v
  | .vsel gd v => gd.wf && v.inFile && wfVsel v
  | .vperm gd v => gd.wf && v.inFile && wfVperm v
  | .vslide gd v => gd.wf && v.inFile && wfVslide v
  | .vpack gd v => gd.wf && v.inFile && wfVpack v
  | .vunpk gd v => gd.wf && v.inFile && wfVunpk v
  | .vbcast gd v => gd.wf && v.inFile && wfVbcast v
  | .vext gd v => gd.wf && v.inFile && wfVext v
  | .vcvt gd v => gd.wf && v.inFile && wfVcvt v
  | .vqnt gd v => gd.wf && v.inFile && wfVqnt v
  | .vdq gd v => gd.wf && v.inFile && wfVdq v
  | .vamax gd v => gd.wf && v.inFile && wfVamax v
  | .vspec gd v => gd.wf && v.inFile && wfVspec v
  | .vred gd v => gd.wf && v.inFile && wfVred v
  | .vscan gd v => gd.wf && v.inFile && wfVscan v
  | .vmatch gd v => gd.wf && v.inFile && wfVmatch v
  | .klog gd v => gd.wf && v.inFile && wfKlog v
  | .kmov gd v => gd.wf && v.inFile && wfKmov v
  | .vmov gd v => gd.wf && v.inFile && wfVmov v
  | .idle gd => gd.wf
  | .mma gd e d qa qb sa ta tb z kb0 kbn pa pb => gd.wf && e.wf && Nat.blt d 8 && Nat.blt qa 16 && Nat.blt qb 16 && Nat.blt sa 2 && Nat.blt ta 2 && Nat.blt tb 2 && Nat.blt z 2 && Nat.blt kb0 16 && Nat.blt kbn 16 && Nat.blt pa 2 && Nat.blt pb 2 && ((sa == 0 || (Nat.blt qa 8 && pa == 0 && qa != d)))
  | .mzero gd e mask => gd.wf && e.wf && Nat.blt mask 256 && (mask != 0)
  | .mlda gd e d q t part => gd.wf && e.wf && Nat.blt d 8 && Nat.blt q 16 && Nat.blt t 2 && Nat.blt part 8
  | .msta gd e d q t part rm dist => gd.wf && e.wf && Nat.blt d 8 && Nat.blt q 16 && Nat.blt t 2 && Nat.blt part 8 && Nat.blt rm 4 && Nat.blt dist 8
  | .msclFill gd e d gs => gd.wf && e.wf && Nat.blt d 8 && Nat.blt gs 64
  | .msclDiag gd e d gs => gd.wf && e.wf && Nat.blt d 8 && Nat.blt gs 64
  | .msclMul gd e d gs => gd.wf && e.wf && Nat.blt d 8 && Nat.blt gs 64
  | .mtriLi gd e d gs one => gd.wf && e.wf && Nat.blt d 8 && Nat.blt gs 64 && Nat.blt one 2 && ((one == 0 || gs == 0))
  | .mtriLs gd e d gs one => gd.wf && e.wf && Nat.blt d 8 && Nat.blt gs 64 && Nat.blt one 2 && ((one == 0 || gs == 0))
  | .mtriUi gd e d gs one => gd.wf && e.wf && Nat.blt d 8 && Nat.blt gs 64 && Nat.blt one 2 && ((one == 0 || gs == 0))
  | .mtriUs gd e d gs one => gd.wf && e.wf && Nat.blt d 8 && Nat.blt gs 64 && Nat.blt one 2 && ((one == 0 || gs == 0))
  | .tbuild gd e z q p kb mode w => gd.wf && e.wf && Nat.blt z 16 && Nat.blt q 16 && Nat.blt p 2 && Nat.blt kb 16 && Nat.blt mode 2 && Nat.blt w 4 && ((mode == 1 || w == 0))
  | .tlook gd e d z q wkb cst cnm1 pm => gd.wf && e.wf && Nat.blt d 8 && Nat.blt z 16 && Nat.blt q 16 && Nat.blt wkb 32 && Nat.blt cst 4 && Nat.blt cnm1 4 && Nat.blt pm 16 && (pm != 0)
  | .tlookR gd e d z q wkb cst cnm1 pm => gd.wf && e.wf && Nat.blt d 8 && Nat.blt z 16 && Nat.blt q 16 && Nat.blt wkb 32 && Nat.blt cst 4 && Nat.blt cnm1 4 && Nat.blt pm 16 && (pm != 0)
  | .zsave gd e z f q gs => gd.wf && e.wf && Nat.blt z 16 && Nat.blt f 2 && Nat.blt q 16 && Nat.blt gs 64 && ((if f == 0 then q == 0 else gs == 0))
  | .zload gd e z f q gs => gd.wf && e.wf && Nat.blt z 16 && Nat.blt f 2 && Nat.blt q 16 && Nat.blt gs 64 && ((if f == 0 then q == 0 else gs == 0))
  | .zinv gd e mask => gd.wf && e.wf && Nat.blt mask 65536 && (mask != 0)
  | .cbld gd e w gs cnt => gd.wf && e.wf && Nat.blt w 4 && Nat.blt gs 64 && Nat.blt cnt 32 && (Nat.ble cnt 16)
  | .tfetch gd e q hint => gd.wf && e.wf && Nat.blt q 16 && Nat.blt hint 16 && (Nat.blt hint 8)
  | .thint gd e q set clr => gd.wf && e.wf && Nat.blt q 16 && Nat.blt set 16 && Nat.blt clr 16 && ((Nat.blt set 8 && Nat.blt clr 8 && (set != 0 || clr != 0) && (Nat.land set clr == 0)))
  | .tinv gd e q ax nm1 => gd.wf && e.wf && Nat.blt q 16 && Nat.blt ax 4 && Nat.blt nm1 256
  | .tcopy gd e qs qd t => gd.wf && e.wf && Nat.blt qs 16 && Nat.blt qd 16 && Nat.blt t 2
  | .tcopyMem gd e qs t gs => gd.wf && e.wf && Nat.blt qs 16 && Nat.blt t 2 && Nat.blt gs 64
  | .tred gd e qs qd opr => gd.wf && e.wf && Nat.blt qs 16 && Nat.blt qd 16 && Nat.blt opr 8 && (Nat.blt opr 6)
  | .tgath gd e qd qs gs nm1 => gd.wf && e.wf && Nat.blt qd 16 && Nat.blt qs 16 && Nat.blt gs 64 && Nat.blt nm1 256
  | .tscat gd e qs qd gs nm1 => gd.wf && e.wf && Nat.blt qs 16 && Nat.blt qd 16 && Nat.blt gs 64 && Nat.blt nm1 256
  | .tacq gd e q ver => gd.wf && e.wf && Nat.blt q 16 && Nat.blt ver 65536
  | .trel gd e q => gd.wf && e.wf && Nat.blt q 16
  | .itin gd e s ix dm1 => gd.wf && e.wf && Nat.blt s 4 && Nat.blt ix 4096 && Nat.blt dm1 64
  | .itstep gd e s q => gd.wf && e.wf && Nat.blt s 4 && Nat.blt q 16
  | .chsend gd e ch q => gd.wf && e.wf && Nat.blt ch 16 && Nat.blt q 16
  | .chrecv gd e ch q => gd.wf && e.wf && Nat.blt ch 16 && Nat.blt q 16
  | .desc gd e gt ga => gd.wf && e.wf && Nat.blt gt 64 && Nat.blt ga 64
  | .rld gd e d ga => gd.wf && e.wf && Nat.blt d 64 && Nat.blt ga 64
  | .rst gd e ga gs => gd.wf && e.wf && Nat.blt ga 64 && Nat.blt gs 64
  | .rfaa gd e d ga gs => gd.wf && e.wf && Nat.blt d 64 && Nat.blt ga 64 && Nat.blt gs 64
  | .rtdec gd e ga => gd.wf && e.wf && Nat.blt ga 64
  | .rfence gd e ga => gd.wf && e.wf && Nat.blt ga 64
  | .rfenceFStore gd e ga gs => gd.wf && e.wf && Nat.blt ga 64 && Nat.blt gs 64
  | .rfenceFDec gd e ga => gd.wf && e.wf && Nat.blt ga 64
  | .tspawn gd e ga => gd.wf && e.wf && Nat.blt ga 64
  | .tdec gd e ga => gd.wf && e.wf && Nat.blt ga 64
  | .tdecb gd e ga => gd.wf && e.wf && Nat.blt ga 64
  | .tdecbArm gd e ga gs => gd.wf && e.wf && Nat.blt ga 64 && Nat.blt gs 64
  | .ldB gd t b d x => gd.wf && Nat.blt t 64 && Nat.blt b 64 && Nat.blt d 256 && x.all (Nat.blt · 2147483648)
  | .ldBs gd t b d x => gd.wf && Nat.blt t 64 && Nat.blt b 64 && Nat.blt d 256 && x.all (Nat.blt · 2147483648)
  | .ldH gd t b d x => gd.wf && Nat.blt t 64 && Nat.blt b 64 && Nat.blt d 256 && x.all (Nat.blt · 2147483648)
  | .ldHs gd t b d x => gd.wf && Nat.blt t 64 && Nat.blt b 64 && Nat.blt d 256 && x.all (Nat.blt · 2147483648)
  | .ldW gd t b d x => gd.wf && Nat.blt t 64 && Nat.blt b 64 && Nat.blt d 256 && x.all (Nat.blt · 2147483648)
  | .ldWs gd t b d x => gd.wf && Nat.blt t 64 && Nat.blt b 64 && Nat.blt d 256 && x.all (Nat.blt · 2147483648)
  | .ldD gd t b d x => gd.wf && Nat.blt t 64 && Nat.blt b 64 && Nat.blt d 256 && x.all (Nat.blt · 2147483648)
  | .stB gd t b d x => gd.wf && Nat.blt t 64 && Nat.blt b 64 && Nat.blt d 256 && x.all (Nat.blt · 2147483648)
  | .stH gd t b d x => gd.wf && Nat.blt t 64 && Nat.blt b 64 && Nat.blt d 256 && x.all (Nat.blt · 2147483648)
  | .stW gd t b d x => gd.wf && Nat.blt t 64 && Nat.blt b 64 && Nat.blt d 256 && x.all (Nat.blt · 2147483648)
  | .stD gd t b d x => gd.wf && Nat.blt t 64 && Nat.blt b 64 && Nat.blt d 256 && x.all (Nat.blt · 2147483648)
  | .ldv gd t b d x => gd.wf && Nat.blt t 32 && Nat.blt b 64 && Nat.blt d 256 && x.all (Nat.blt · 2147483648)
  | .stv gd t b d x => gd.wf && Nat.blt t 32 && Nat.blt b 64 && Nat.blt d 256 && x.all (Nat.blt · 2147483648)
  | .gath gd t b vx k es sc => gd.wf && Nat.blt t 32 && Nat.blt b 64 && Nat.blt vx 32 && Nat.blt k 8 && Nat.blt es 4 && Nat.blt sc 2
  | .scat gd t b vx k es sc => gd.wf && Nat.blt t 32 && Nat.blt b 64 && Nat.blt vx 32 && Nat.blt k 8 && Nat.blt es 4 && Nat.blt sc 2
  | .ldx gd t b d x => gd.wf && Nat.blt t 64 && Nat.blt b 64 && Nat.blt d 256 && x.all (Nat.blt · 2147483648)
  | .ldxinv gd b d x => gd.wf && Nat.blt b 64 && Nat.blt d 256 && x.all (Nat.blt · 2147483648)
  | .ldxinvAll gd => gd.wf
  | .sld gd t b d x => gd.wf && Nat.blt t 16 && Nat.blt b 64 && Nat.blt d 256 && x.all (Nat.blt · 2147483648)
  | .pref gd b d x => gd.wf && Nat.blt b 64 && Nat.blt d 256 && x.all (Nat.blt · 2147483648)
  | .prefLlc gd b d x => gd.wf && Nat.blt b 64 && Nat.blt d 256 && x.all (Nat.blt · 2147483648)
  | .acq gd t b d x => gd.wf && Nat.blt t 64 && Nat.blt b 64 && Nat.blt d 256 && x.all (Nat.blt · 2147483648)
  | .rel gd t b d x => gd.wf && Nat.blt t 64 && Nat.blt b 64 && Nat.blt d 256 && x.all (Nat.blt · 2147483648)
  | .trd gd t b d x => gd.wf && Nat.blt t 32 && Nat.blt b 64 && Nat.blt d 256 && x.all (Nat.blt · 2147483648)
  | .twr gd t b d x => gd.wf && Nat.blt t 32 && Nat.blt b 64 && Nat.blt d 256 && x.all (Nat.blt · 2147483648)
  | .amo gd t b d opc sz s => gd.wf && Nat.blt t 64 && Nat.blt b 64 && Nat.blt d 256 && Nat.blt opc 16 && Nat.blt sz 4 && Nat.blt s 64 && ((Nat.blt opc 12 && Nat.blt sz 2))
  | .cas gd t b d sz s c => gd.wf && Nat.blt t 64 && Nat.blt b 64 && Nat.blt d 256 && Nat.blt sz 4 && Nat.blt s 64 && Nat.blt c 64 && ((Nat.blt sz 3 && (sz != 2 || (t % 2 == 0 && s % 2 == 0 && c % 2 == 0))))
  | .idleL gd => gd.wf
  | .stalledBundleCommit _ => true
  | .safeDistanceWatchdog _ => true
  | .handlerWatchdog _ => true
  | .taskEnd _ => true
  | .decrement _ => true
  | .releaseArrival _ => true
  | .recordCreation _ => true
  | .overflowRingPlacement _ => true
  | .rdqRefill _ _ _ => true
  | .rdqLoadReport _ => true
  | .dispatch _ => true
  | .gangDispatch _ => true
  | .engineCommandTake _ _ => true
  | .frameAllocation _ => true
  | .commandReplay _ _ => true
  | .engineCommandCompletion _ _ => true
  | .fillRequest _ => true
  | .neighbourServe _ => true
  | .fillAnswer _ => true
  | .grantRequest _ => true
  | .writeGrant _ => true
  | .retry _ => true
  | .grantTimeout _ => true
  | .releaseAtHome _ => true
  | .readOutComplete _ _ => true
  | .drainArrival _ => true
  | .victimWriteBack _ => true
  | .tacqAtHome _ => true
  | .tacqTimeout _ => true
  | .remoteHomeTimeout _ => true
  | .leaseExpiry _ _ => true
  | .homeLeaseExpiry _ _ => true
  | .leaseReturn _ _ => true
  | .reductionAtHome _ => true
  | .machineCheck _ _ _ => true
  | .loadDataArrival _ _ => true
  | .storePerformed _ _ => true
  | .relAtHome _ => true
  | .acqAtHome _ => true
  | .regionDrain _ => true
  | .regionDrainComplete _ => true
  | .acqReply _ => true
  | .amoAtSlice _ _ => true
  | .hostAtomicCompletion _ => true
  | .hostAtomicExhausted _ => true
  | .fabricRequestAtTarget _ => true
  | .fabricReply _ _ _ _ => true
  | .fabricTimeout _ _ => true
  | .shunerFrameReceive _ _ _ _ _ => true
  | .preemptionOrder _ => true
  | .forcedSave _ => true
  | .prqresp _ _ => true
  | .priPageGroupResponse _ _ => true
  | .atsInvalidation _ _ => true
  | .vacate _ _ _ _ _ _ => true
  | .sageEvaluation _ => true
  | .vacancy _ => true
  | .resume _ _ _ _ => true
  | .qstart _ _ => true
  | .qstopDrain _ _ => true
  | .qstopSave _ _ => true
  | .qswap _ _ _ _ => true
  | .load _ _ => true
  | .unload _ _ => true
  | .descriptorCommand _ _ => true
  | .launch _ _ => true
  | .copy _ _ => true
  | .doorbell _ _ _ => true
  | .ownclaim _ _ => true
  | .handover _ _ => true
  | .opreq _ _ => true
  | .operatingPointSwitch => true
  | .clstate _ _ => true
  | .clusterWake _ => true
  | .partitionEnable _ _ => true
  | .partitionDisable _ _ => true
  | .partitionReset _ _ => true
  | .genbump _ _ => true
  | .generationBumpComplete _ => true
  | .generationBumpHold _ => true
  | .translationCacheExpiry _ => true
  | .ptpMessage _ _ _ => true
  | .ptpSyncTimeout => true
  | .bucketRefill => true
  | .floorSegmentClose => true
  | .hardThermalTrip => true
  | .packageReset => true
  | .powerOnReset => true
  | .functionLevelReset _ => true
  | .bootStage _ => true
  | .getVersion => true
  | .getCapabilities => true
  | .negotiateAlgorithms => true
  | .getDigests => true
  | .getCertificate => true
  | .challenge _ => true
  | .getMeasurements _ => true
  | .registerWrite _ _ _ _ _ => true
  | .emptyBundle _ _ _ _ _ => true
  | .correctedError _ _ => true
  | .thermalSensorUpdate _ => true
  | .ptimeAdvance => true
  | .fabricPathFailure _ _ => true
  | .leaseReturnRequest _ _ => true
  | .ringCommandCompletion _ _ => true
end Instr

end Sys2Proof
end

