-- ==== Sys2Proof/Decode.lean ====
section
/-! DEFINITION. Decoding of slot words, headers and bundles, total on any words, rejecting by name (R60 to R68, R82 to R87);
after it the encoder, from the same tables. -/

namespace Sys2Proof

/-- Why a slot word is no instruction (R68): each raises ILLEGAL_OP for its slot. -/
inductive DecErr
  /-- Bit 31 of a slot or extension word is 1 (R60). -/
  | badWord
  /-- The opcode is 0x00 or unassigned in the class (R81). -/
  | unassigned
  /-- A field that must be zero is not, or a variant is unassigned. -/
  | zeroField
  /-- An extension word where the entry allows none. -/
  | extForbidden
  /-- No extension word where the entry requires one. -/
  | extMissing
  /-- A register beyond its file, a format or mode the instruction does not accept, or another check of its entry. -/
  | illFormed
  deriving DecidableEq, Repr

/-- What an entry says of an extension word. -/
inductive ExtRule
  | never | may | must
  deriving DecidableEq, Repr

/-- One entry of the opcode map, its named fields filled from a word: low is the value that the named fields and the fixed
bits give bits 19:0, ext the value they give the extension word. -/
structure Entry where
  low : Nat
  rule : ExtRule
  ext : Nat
  ins : Instr

/-- Take the first entry whose named fields account for every bit of the words, and check it. -/
def takeEntry (w : Nat) (x : Option Nat) : List Entry → Except DecErr Instr
  | [] => .error .zeroField
  | en :: rest =>
    if en.low = w % 2 ^ 20 ∧ en.ext = x.getD 0 then
      if en.rule = .never ∧ x.isSome then .error .extForbidden
      else if en.rule = .must ∧ x.isNone then .error .extMissing
      else if en.ins.wf then .ok en.ins else .error .illFormed
    else takeEntry w x rest

/-- The guard of a slot word (R62). -/
def guardOf (w : Nat) : Guard := ⟨fld w 21 3, fld w 20 1⟩
/-- The operands of format V (R63). -/
def vopOf (w : Nat) (x : Option Nat) : VOp :=
  ⟨fld w 15 5, fld w 10 5, fld w 5 5, fld w 2 3, fld w 0 2, x.map fun e => ⟨fld e 27 4, fld e 25 2, fld e 20 5, fld e 12 8, fld e 6 6⟩⟩
/-- Bits 19:0 of format V. -/
def vopLow (v : VOp) : Nat := v.d * 2 ^ 15 + v.a * 2 ^ 10 + v.b * 2 ^ 5 + v.k * 2 ^ 2 + v.lg
/-- The extension word of format V. -/
def vopExt (v : VOp) : Nat := v.ex.fmt * 2 ^ 27 + v.ex.rm * 2 ^ 25 + v.ex.c * 2 ^ 20 + v.ex.i8 * 2 ^ 12 + v.ex.g * 2 ^ 6
/-- The tokens of format E (R63). -/
def edgeOf (w : Nat) (x : Option Nat) : Edge := ⟨fld w 14 6, fld w 8 6, fld w 2 6, fld w 0 2, fld (x.getD 0) 25 6⟩
def edgeLow (e : Edge) : Nat := e.tp * 2 ^ 14 + e.c0 * 2 ^ 8 + e.c1 * 2 ^ 2 + e.nc
/-- Class C, opcode 0x01. -/
def decC01 (w : Nat) (x : Option Nat) : Except DecErr Instr :=
  let gd := guardOf w
  takeEntry w x [
    (let d := fld w 0 20; ⟨d, .may, x.getD 0, .br gd d x⟩)]
/-- Class C, opcode 0x02. -/
def decC02 (w : Nat) (x : Option Nat) : Except DecErr Instr :=
  let gd := guardOf w
  takeEntry w x [
    (let a := fld w 8 6; ⟨a * 256, .never, 0, .bri gd a⟩)]
/-- Class C, opcode 0x03. -/
def decC03 (w : Nat) (x : Option Nat) : Except DecErr Instr :=
  let gd := guardOf w
  takeEntry w x [
    (let d := fld w 0 20; ⟨d, .may, x.getD 0, .call gd d x⟩)]
/-- Class C, opcode 0x04. -/
def decC04 (w : Nat) (x : Option Nat) : Except DecErr Instr :=
  let gd := guardOf w
  takeEntry w x [
    (let d := fld w 14 6; let a := fld w 8 6; ⟨d * 16384 + a * 256, .never, 0, .calli gd d a⟩)]
/-- Class C, opcode 0x05. -/
def decC05 (w : Nat) (x : Option Nat) : Except DecErr Instr :=
  let gd := guardOf w
  takeEntry w x [
    (let a := fld w 8 6; ⟨a * 256, .never, 0, .ret gd a⟩)]
/-- Class C, opcode 0x06. -/
def decC06 (w : Nat) (x : Option Nat) : Except DecErr Instr :=
  let gd := guardOf w
  takeEntry w x [
    (let a := fld w 8 6; let o := fld w 0 8; ⟨a * 256 + o, .may, x.getD 0, .loop gd a o x⟩)]
/-- Class C, opcode 0x07. -/
def decC07 (w : Nat) (x : Option Nat) : Except DecErr Instr :=
  let gd := guardOf w
  takeEntry w x [
    (let c := fld w 8 12; let o := fld w 0 8; ⟨c * 256 + o, .may, x.getD 0, .loopi gd c o x⟩)]
/-- Class C, opcode 0x08. -/
def decC08 (w : Nat) (x : Option Nat) : Except DecErr Instr :=
  let gd := guardOf w
  takeEntry w x [
    (let i := fld w 0 8; ⟨i, .may, x.getD 0, .safe gd i x⟩)]
/-- Class C, opcode 0x09. -/
def decC09 (w : Nat) (x : Option Nat) : Except DecErr Instr :=
  let gd := guardOf w
  takeEntry w x [
    (⟨0, .never, 0, .done gd⟩)]
/-- Class C, opcode 0x0A. -/
def decC0A (w : Nat) (x : Option Nat) : Except DecErr Instr :=
  let gd := guardOf w
  takeEntry w x [
    (let a := fld w 8 6; ⟨a * 256, .never, 0, .waitk gd a⟩),
    (let a := fld w 8 6; let b := fld w 2 6; ⟨a * 256 + b * 4 + 1, .never, 0, .waitkRange gd a b⟩)]
/-- Class C, opcode 0x0B. -/
def decC0B (w : Nat) (x : Option Nat) : Except DecErr Instr :=
  let gd := guardOf w
  takeEntry w x [
    (let d := fld w 14 3; let a := fld w 8 6; ⟨d * 16384 + a * 256, .never, 0, .pollk gd d a⟩),
    (let d := fld w 14 3; let a := fld w 8 6; ⟨d * 16384 + a * 256 + 1, .never, 0, .pollkErr gd d a⟩)]
/-- Class C, opcode 0x0C. -/
def decC0C (w : Nat) (x : Option Nat) : Except DecErr Instr :=
  let gd := guardOf w
  takeEntry w x [
    (⟨0, .never, 0, .fenceCore gd⟩),
    (⟨1, .never, 0, .fenceCluster gd⟩),
    (⟨2, .never, 0, .fenceDevice gd⟩),
    (⟨3, .never, 0, .fenceSys gd⟩)]
/-- Class C, opcode 0x0D. -/
def decC0D (w : Nat) (x : Option Nat) : Except DecErr Instr :=
  let gd := guardOf w
  takeEntry w x [
    (let c := fld w 0 8; ⟨c, .may, x.getD 0, .trap gd c x⟩)]
/-- Class C, opcode 0x0E. -/
def decC0E (w : Nat) (x : Option Nat) : Except DecErr Instr :=
  let gd := guardOf w
  takeEntry w x [
    (let a := fld w 8 6; let i := fld w 0 8; ⟨a * 256 + i, .may, x.getD 0, .sysc gd a i x⟩)]
/-- Class C, opcode 0x0F. -/
def decC0F (w : Nat) (x : Option Nat) : Except DecErr Instr :=
  let gd := guardOf w
  takeEntry w x [
    (⟨0, .never, 0, .eret gd⟩)]
/-- Class C, opcode 0x10. -/
def decC10 (w : Nat) (x : Option Nat) : Except DecErr Instr :=
  let gd := guardOf w
  takeEntry w x [
    (let d := fld w 14 6; let c := fld w 0 8; ⟨d * 16384 + c, .never, 0, .csrr gd d c⟩)]
/-- Class C, opcode 0x11. -/
def decC11 (w : Nat) (x : Option Nat) : Except DecErr Instr :=
  let gd := guardOf w
  takeEntry w x [
    (let a := fld w 8 6; let c := fld w 0 8; ⟨a * 256 + c, .never, 0, .csrw gd a c⟩)]
/-- Class C, opcode 0x12. -/
def decC12 (w : Nat) (x : Option Nat) : Except DecErr Instr :=
  let gd := guardOf w
  takeEntry w x [
    (let a := fld w 8 6; let c := fld w 0 8; ⟨a * 256 + c, .never, 0, .csrs gd a c⟩)]
/-- Class C, opcode 0x13. -/
def decC13 (w : Nat) (x : Option Nat) : Except DecErr Instr :=
  let gd := guardOf w
  takeEntry w x [
    (let a := fld w 8 6; let c := fld w 0 8; ⟨a * 256 + c, .never, 0, .csrc gd a c⟩)]

/-- The C class (R82). A candidate per entry, its operands read at their bit positions. -/
def decodeC (w : Nat) (x : Option Nat) : Except DecErr Instr :=
  match fld w 24 6 with
  | 0x01 => decC01 w x
  | 0x02 => decC02 w x
  | 0x03 => decC03 w x
  | 0x04 => decC04 w x
  | 0x05 => decC05 w x
  | 0x06 => decC06 w x
  | 0x07 => decC07 w x
  | 0x08 => decC08 w x
  | 0x09 => decC09 w x
  | 0x0A => decC0A w x
  | 0x0B => decC0B w x
  | 0x0C => decC0C w x
  | 0x0D => decC0D w x
  | 0x0E => decC0E w x
  | 0x0F => decC0F w x
  | 0x10 => decC10 w x
  | 0x11 => decC11 w x
  | 0x12 => decC12 w x
  | 0x13 => decC13 w x
  | _ => .error .unassigned
/-- Class I, opcode 0x01. -/
def decI01 (w : Nat) (x : Option Nat) : Except DecErr Instr :=
  let gd := guardOf w
  takeEntry w x [
    (let d := fld w 14 6; let a := fld w 8 6; let b := fld w 2 6; ⟨d * 16384 + a * 256 + b * 4, .never, 0, .add gd d a b⟩)]
/-- Class I, opcode 0x02. -/
def decI02 (w : Nat) (x : Option Nat) : Except DecErr Instr :=
  let gd := guardOf w
  takeEntry w x [
    (let d := fld w 14 6; let a := fld w 8 6; let b := fld w 2 6; ⟨d * 16384 + a * 256 + b * 4, .never, 0, .sub gd d a b⟩)]
/-- Class I, opcode 0x03. -/
def decI03 (w : Nat) (x : Option Nat) : Except DecErr Instr :=
  let gd := guardOf w
  takeEntry w x [
    (let d := fld w 14 6; let a := fld w 8 6; let i := fld w 0 8; ⟨d * 16384 + a * 256 + i, .may, x.getD 0, .addi gd d a i x⟩)]
/-- Class I, opcode 0x04. -/
def decI04 (w : Nat) (x : Option Nat) : Except DecErr Instr :=
  let gd := guardOf w
  takeEntry w x [
    (let d := fld w 14 6; let a := fld w 8 6; let b := fld w 2 6; ⟨d * 16384 + a * 256 + b * 4, .never, 0, .mul gd d a b⟩)]
/-- Class I, opcode 0x05. -/
def decI05 (w : Nat) (x : Option Nat) : Except DecErr Instr :=
  let gd := guardOf w
  takeEntry w x [
    (let d := fld w 14 6; let a := fld w 8 6; let b := fld w 2 6; ⟨d * 16384 + a * 256 + b * 4, .never, 0, .mulh gd d a b⟩),
    (let d := fld w 14 6; let a := fld w 8 6; let b := fld w 2 6; ⟨d * 16384 + a * 256 + b * 4 + 1, .never, 0, .mulhU gd d a b⟩)]
/-- Class I, opcode 0x06. -/
def decI06 (w : Nat) (x : Option Nat) : Except DecErr Instr :=
  let gd := guardOf w
  takeEntry w x [
    (let d := fld w 14 6; let a := fld w 8 6; let b := fld w 2 6; ⟨d * 16384 + a * 256 + b * 4, .never, 0, .div gd d a b⟩),
    (let d := fld w 14 6; let a := fld w 8 6; let b := fld w 2 6; ⟨d * 16384 + a * 256 + b * 4 + 1, .never, 0, .divU gd d a b⟩)]
/-- Class I, opcode 0x07. -/
def decI07 (w : Nat) (x : Option Nat) : Except DecErr Instr :=
  let gd := guardOf w
  takeEntry w x [
    (let d := fld w 14 6; let a := fld w 8 6; let b := fld w 2 6; ⟨d * 16384 + a * 256 + b * 4, .never, 0, .rem gd d a b⟩),
    (let d := fld w 14 6; let a := fld w 8 6; let b := fld w 2 6; ⟨d * 16384 + a * 256 + b * 4 + 1, .never, 0, .remU gd d a b⟩)]
/-- Class I, opcode 0x08. -/
def decI08 (w : Nat) (x : Option Nat) : Except DecErr Instr :=
  let gd := guardOf w
  takeEntry w x [
    (let d := fld w 14 6; let a := fld w 8 6; let b := fld w 2 6; ⟨d * 16384 + a * 256 + b * 4, .never, 0, .and gd d a b⟩)]
/-- Class I, opcode 0x09. -/
def decI09 (w : Nat) (x : Option Nat) : Except DecErr Instr :=
  let gd := guardOf w
  takeEntry w x [
    (let d := fld w 14 6; let a := fld w 8 6; let b := fld w 2 6; ⟨d * 16384 + a * 256 + b * 4, .never, 0, .or gd d a b⟩)]
/-- Class I, opcode 0x0A. -/
def decI0A (w : Nat) (x : Option Nat) : Except DecErr Instr :=
  let gd := guardOf w
  takeEntry w x [
    (let d := fld w 14 6; let a := fld w 8 6; let b := fld w 2 6; ⟨d * 16384 + a * 256 + b * 4, .never, 0, .xor gd d a b⟩)]
/-- Class I, opcode 0x0B. -/
def decI0B (w : Nat) (x : Option Nat) : Except DecErr Instr :=
  let gd := guardOf w
  takeEntry w x [
    (let d := fld w 14 6; let a := fld w 8 6; let i := fld w 0 8; ⟨d * 16384 + a * 256 + i, .may, x.getD 0, .andi gd d a i x⟩)]
/-- Class I, opcode 0x0C. -/
def decI0C (w : Nat) (x : Option Nat) : Except DecErr Instr :=
  let gd := guardOf w
  takeEntry w x [
    (let d := fld w 14 6; let a := fld w 8 6; let i := fld w 0 8; ⟨d * 16384 + a * 256 + i, .may, x.getD 0, .ori gd d a i x⟩)]
/-- Class I, opcode 0x0D. -/
def decI0D (w : Nat) (x : Option Nat) : Except DecErr Instr :=
  let gd := guardOf w
  takeEntry w x [
    (let d := fld w 14 6; let a := fld w 8 6; let i := fld w 0 8; ⟨d * 16384 + a * 256 + i, .may, x.getD 0, .xori gd d a i x⟩)]
/-- Class I, opcode 0x0E. -/
def decI0E (w : Nat) (x : Option Nat) : Except DecErr Instr :=
  let gd := guardOf w
  takeEntry w x [
    (let d := fld w 14 6; let a := fld w 8 6; let b := fld w 2 6; ⟨d * 16384 + a * 256 + b * 4, .never, 0, .shl gd d a b⟩)]
/-- Class I, opcode 0x0F. -/
def decI0F (w : Nat) (x : Option Nat) : Except DecErr Instr :=
  let gd := guardOf w
  takeEntry w x [
    (let d := fld w 14 6; let a := fld w 8 6; let b := fld w 2 6; ⟨d * 16384 + a * 256 + b * 4, .never, 0, .shr gd d a b⟩),
    (let d := fld w 14 6; let a := fld w 8 6; let b := fld w 2 6; ⟨d * 16384 + a * 256 + b * 4 + 1, .never, 0, .shrA gd d a b⟩)]
/-- Class I, opcode 0x10. -/
def decI10 (w : Nat) (x : Option Nat) : Except DecErr Instr :=
  let gd := guardOf w
  takeEntry w x [
    (let d := fld w 14 6; let a := fld w 8 6; let s := fld w 0 6; ⟨d * 16384 + a * 256 + s, .never, 0, .shli gd d a s⟩)]
/-- Class I, opcode 0x11. -/
def decI11 (w : Nat) (x : Option Nat) : Except DecErr Instr :=
  let gd := guardOf w
  takeEntry w x [
    (let d := fld w 14 6; let a := fld w 8 6; let s := fld w 0 6; ⟨d * 16384 + a * 256 + s, .never, 0, .shri gd d a s⟩),
    (let d := fld w 14 6; let a := fld w 8 6; let s := fld w 0 6; ⟨d * 16384 + a * 256 + s + 64, .never, 0, .shriA gd d a s⟩)]
/-- Class I, opcode 0x12. -/
def decI12 (w : Nat) (x : Option Nat) : Except DecErr Instr :=
  let gd := guardOf w
  takeEntry w x [
    (let d := fld w 14 6; let a := fld w 8 6; let sx := fld (x.getD 0) 12 1; let wm1 := fld (x.getD 0) 6 6; let lsb := fld (x.getD 0) 0 6; ⟨d * 16384 + a * 256, .must, sx * 4096 + wm1 * 64 + lsb, .bfx gd d a sx wm1 lsb⟩)]
/-- Class I, opcode 0x13. -/
def decI13 (w : Nat) (x : Option Nat) : Except DecErr Instr :=
  let gd := guardOf w
  takeEntry w x [
    (let d := fld w 14 6; let a := fld w 8 6; let wm1 := fld (x.getD 0) 6 6; let lsb := fld (x.getD 0) 0 6; ⟨d * 16384 + a * 256, .must, wm1 * 64 + lsb, .bfi gd d a wm1 lsb⟩)]
/-- Class I, opcode 0x14. -/
def decI14 (w : Nat) (x : Option Nat) : Except DecErr Instr :=
  let gd := guardOf w
  takeEntry w x [
    (let d := fld w 14 6; let a := fld w 8 6; let i := fld w 0 8; ⟨d * 16384 + a * 256 + i, .may, x.getD 0, .sethi gd d a i x⟩)]
/-- Class I, opcode 0x15. -/
def decI15 (w : Nat) (x : Option Nat) : Except DecErr Instr :=
  let gd := guardOf w
  takeEntry w x [
    (let d := fld w 14 6; let a := fld w 8 6; ⟨d * 16384 + a * 256, .never, 0, .bitcPop gd d a⟩),
    (let d := fld w 14 6; let a := fld w 8 6; ⟨d * 16384 + a * 256 + 1, .never, 0, .bitcClz gd d a⟩),
    (let d := fld w 14 6; let a := fld w 8 6; ⟨d * 16384 + a * 256 + 2, .never, 0, .bitcCtz gd d a⟩)]
/-- Class I, opcode 0x16. -/
def decI16 (w : Nat) (x : Option Nat) : Except DecErr Instr :=
  let gd := guardOf w
  takeEntry w x [
    (let d := fld w 14 6; let a := fld w 8 6; let b := fld w 2 6; ⟨d * 16384 + a * 256 + b * 4, .never, 0, .min gd d a b⟩),
    (let d := fld w 14 6; let a := fld w 8 6; let b := fld w 2 6; ⟨d * 16384 + a * 256 + b * 4 + 1, .never, 0, .minU gd d a b⟩)]
/-- Class I, opcode 0x17. -/
def decI17 (w : Nat) (x : Option Nat) : Except DecErr Instr :=
  let gd := guardOf w
  takeEntry w x [
    (let d := fld w 14 6; let a := fld w 8 6; let b := fld w 2 6; ⟨d * 16384 + a * 256 + b * 4, .never, 0, .max gd d a b⟩),
    (let d := fld w 14 6; let a := fld w 8 6; let b := fld w 2 6; ⟨d * 16384 + a * 256 + b * 4 + 1, .never, 0, .maxU gd d a b⟩)]
/-- Class I, opcode 0x18. -/
def decI18 (w : Nat) (x : Option Nat) : Except DecErr Instr :=
  let gd := guardOf w
  takeEntry w x [
    (let d := fld w 14 3; let a := fld w 8 6; let b := fld w 2 6; ⟨d * 16384 + a * 256 + b * 4, .never, 0, .cmpeq gd d a b⟩)]
/-- Class I, opcode 0x19. -/
def decI19 (w : Nat) (x : Option Nat) : Except DecErr Instr :=
  let gd := guardOf w
  takeEntry w x [
    (let d := fld w 14 3; let a := fld w 8 6; let b := fld w 2 6; ⟨d * 16384 + a * 256 + b * 4, .never, 0, .cmpne gd d a b⟩)]
/-- Class I, opcode 0x1A. -/
def decI1A (w : Nat) (x : Option Nat) : Except DecErr Instr :=
  let gd := guardOf w
  takeEntry w x [
    (let d := fld w 14 3; let a := fld w 8 6; let b := fld w 2 6; ⟨d * 16384 + a * 256 + b * 4, .never, 0, .cmplt gd d a b⟩)]
/-- Class I, opcode 0x1B. -/
def decI1B (w : Nat) (x : Option Nat) : Except DecErr Instr :=
  let gd := guardOf w
  takeEntry w x [
    (let d := fld w 14 3; let a := fld w 8 6; let b := fld w 2 6; ⟨d * 16384 + a * 256 + b * 4, .never, 0, .cmpltu gd d a b⟩)]
/-- Class I, opcode 0x1C. -/
def decI1C (w : Nat) (x : Option Nat) : Except DecErr Instr :=
  let gd := guardOf w
  takeEntry w x [
    (let d := fld w 14 3; let a := fld w 8 6; let b := fld w 2 6; ⟨d * 16384 + a * 256 + b * 4, .never, 0, .cmple gd d a b⟩)]
/-- Class I, opcode 0x1D. -/
def decI1D (w : Nat) (x : Option Nat) : Except DecErr Instr :=
  let gd := guardOf w
  takeEntry w x [
    (let d := fld w 14 3; let a := fld w 8 6; let b := fld w 2 6; ⟨d * 16384 + a * 256 + b * 4, .never, 0, .cmpleu gd d a b⟩)]
/-- Class I, opcode 0x1E. -/
def decI1E (w : Nat) (x : Option Nat) : Except DecErr Instr :=
  let gd := guardOf w
  takeEntry w x [
    (let d := fld w 14 3; let a := fld w 8 6; let i := fld w 0 8; ⟨d * 16384 + a * 256 + i, .may, x.getD 0, .cmpeqi gd d a i x⟩)]
/-- Class I, opcode 0x1F. -/
def decI1F (w : Nat) (x : Option Nat) : Except DecErr Instr :=
  let gd := guardOf w
  takeEntry w x [
    (let d := fld w 14 3; let a := fld w 8 6; let i := fld w 0 8; ⟨d * 16384 + a * 256 + i, .may, x.getD 0, .cmplti gd d a i x⟩)]
/-- Class I, opcode 0x20. -/
def decI20 (w : Nat) (x : Option Nat) : Except DecErr Instr :=
  let gd := guardOf w
  takeEntry w x [
    (let d := fld w 14 3; let a := fld w 8 3; let b := fld w 2 3; ⟨d * 16384 + a * 256 + b * 4, .never, 0, .pand gd d a b⟩),
    (let d := fld w 14 3; let a := fld w 8 3; let b := fld w 2 3; ⟨d * 16384 + a * 256 + b * 4 + 1, .never, 0, .por gd d a b⟩),
    (let d := fld w 14 3; let a := fld w 8 3; let b := fld w 2 3; ⟨d * 16384 + a * 256 + b * 4 + 2, .never, 0, .pxor gd d a b⟩),
    (let d := fld w 14 3; let a := fld w 8 3; let b := fld w 2 3; ⟨d * 16384 + a * 256 + b * 4 + 3, .never, 0, .pandn gd d a b⟩)]
/-- Class I, opcode 0x21. -/
def decI21 (w : Nat) (x : Option Nat) : Except DecErr Instr :=
  let gd := guardOf w
  takeEntry w x [
    (let d := fld w 14 3; let a := fld w 8 3; ⟨d * 16384 + a * 256, .never, 0, .pmov gd d a⟩),
    (let d := fld w 14 6; ⟨d * 16384 + 1, .never, 0, .pmovPreds gd d⟩),
    (let d := fld w 14 3; let a := fld w 8 6; ⟨d * 16384 + a * 256 + 2, .never, 0, .pmovFromG gd d a⟩)]
/-- Class I, opcode 0x22. -/
def decI22 (w : Nat) (x : Option Nat) : Except DecErr Instr :=
  let gd := guardOf w
  takeEntry w x [
    (let d := fld w 14 4; let a := fld w 8 6; ⟨d * 16384 + a * 256, .never, 0, .jmovToJ gd d a⟩),
    (let d := fld w 14 6; let a := fld w 8 4; ⟨d * 16384 + a * 256 + 1, .never, 0, .jmovToG gd d a⟩)]
/-- Class I, opcode 0x23. -/
def decI23 (w : Nat) (x : Option Nat) : Except DecErr Instr :=
  let gd := guardOf w
  takeEntry w x [
    (let d := fld w 14 4; let a := fld w 8 6; ⟨d * 16384 + a * 256, .never, 0, .emovToE gd d a⟩),
    (let d := fld w 14 6; let a := fld w 8 4; ⟨d * 16384 + a * 256 + 1, .never, 0, .emovToG gd d a⟩),
    (let d := fld w 14 4; let a := fld w 8 4; ⟨d * 16384 + a * 256 + 2, .never, 0, .emovE gd d a⟩)]
/-- Class I, opcode 0x24. -/
def decI24 (w : Nat) (x : Option Nat) : Except DecErr Instr :=
  let gd := guardOf w
  takeEntry w x [
    (let d := fld w 14 4; let a := fld w 8 6; ⟨d * 16384 + a * 256, .never, 0, .qset gd d a⟩),
    (let d := fld w 14 4; let a := fld w 8 6; ⟨d * 16384 + a * 256 + 1, .never, 0, .qsetTid gd d a⟩),
    (let d := fld w 14 4; let a := fld w 8 6; let b := fld w 2 6; ⟨d * 16384 + a * 256 + b * 4 + 2, .never, 0, .qsetC gd d a b⟩)]
/-- Class I, opcode 0x25. -/
def decI25 (w : Nat) (x : Option Nat) : Except DecErr Instr :=
  let gd := guardOf w
  takeEntry w x [
    (let d := fld w 14 6; let a := fld w 8 4; ⟨d * 16384 + a * 256, .never, 0, .qget gd d a⟩),
    (let d := fld w 14 6; let a := fld w 8 4; ⟨d * 16384 + a * 256 + 1, .never, 0, .qgetTid gd d a⟩),
    (let d := fld w 14 6; let a := fld w 8 4; let b := fld w 2 6; ⟨d * 16384 + a * 256 + b * 4 + 2, .never, 0, .qgetC gd d a b⟩)]
/-- Class I, opcode 0x26. -/
def decI26 (w : Nat) (x : Option Nat) : Except DecErr Instr :=
  let gd := guardOf w
  takeEntry w x [
    (let d := fld w 14 4; let a := fld w 8 4; let c := fld w 6 2; let s := fld w 0 6; ⟨d * 16384 + a * 256 + c * 64 + s, .may, x.getD 0, .qadd gd d a c s x⟩)]
/-- Class I, opcode 0x27. -/
def decI27 (w : Nat) (x : Option Nat) : Except DecErr Instr :=
  let gd := guardOf w
  takeEntry w x [
    (let d := fld w 14 4; let a := fld w 8 4; ⟨d * 16384 + a * 256, .never, 0, .qmov gd d a⟩)]
/-- Class I, opcode 0x28. -/
def decI28 (w : Nat) (x : Option Nat) : Except DecErr Instr :=
  let gd := guardOf w
  takeEntry w x [
    (let d := fld w 14 6; let a := fld w 8 6; let b := fld w 2 6; let f := fld w 0 1; ⟨d * 16384 + a * 256 + b * 4 + f, .may, x.getD 0, .fadd gd d a b f x⟩)]
/-- Class I, opcode 0x29. -/
def decI29 (w : Nat) (x : Option Nat) : Except DecErr Instr :=
  let gd := guardOf w
  takeEntry w x [
    (let d := fld w 14 6; let a := fld w 8 6; let b := fld w 2 6; let f := fld w 0 1; ⟨d * 16384 + a * 256 + b * 4 + f, .may, x.getD 0, .fsub gd d a b f x⟩)]
/-- Class I, opcode 0x2A. -/
def decI2A (w : Nat) (x : Option Nat) : Except DecErr Instr :=
  let gd := guardOf w
  takeEntry w x [
    (let d := fld w 14 6; let a := fld w 8 6; let b := fld w 2 6; let f := fld w 0 1; ⟨d * 16384 + a * 256 + b * 4 + f, .may, x.getD 0, .fmul gd d a b f x⟩)]
/-- Class I, opcode 0x2B. -/
def decI2B (w : Nat) (x : Option Nat) : Except DecErr Instr :=
  let gd := guardOf w
  takeEntry w x [
    (let d := fld w 14 6; let a := fld w 8 6; let b := fld w 2 6; let f := fld w 0 1; let c := fld (x.getD 0) 2 6; let rm := fld (x.getD 0) 0 2; ⟨d * 16384 + a * 256 + b * 4 + f, .must, c * 4 + rm, .fma gd d a b f c rm⟩)]
/-- Class I, opcode 0x2C. -/
def decI2C (w : Nat) (x : Option Nat) : Except DecErr Instr :=
  let gd := guardOf w
  takeEntry w x [
    (let d := fld w 14 6; let a := fld w 8 6; let b := fld w 2 6; let f := fld w 0 1; ⟨d * 16384 + a * 256 + b * 4 + f, .may, x.getD 0, .fdiv gd d a b f x⟩)]
/-- Class I, opcode 0x2D. -/
def decI2D (w : Nat) (x : Option Nat) : Except DecErr Instr :=
  let gd := guardOf w
  takeEntry w x [
    (let d := fld w 14 6; let a := fld w 8 6; let f := fld w 0 1; ⟨d * 16384 + a * 256 + f, .may, x.getD 0, .fsqrt gd d a f x⟩)]
/-- Class I, opcode 0x2E. -/
def decI2E (w : Nat) (x : Option Nat) : Except DecErr Instr :=
  let gd := guardOf w
  takeEntry w x [
    (let d := fld w 14 6; let a := fld w 8 6; let b := fld w 2 6; let f := fld w 0 1; ⟨d * 16384 + a * 256 + b * 4 + f, .never, 0, .fmin gd d a b f⟩)]
/-- Class I, opcode 0x2F. -/
def decI2F (w : Nat) (x : Option Nat) : Except DecErr Instr :=
  let gd := guardOf w
  takeEntry w x [
    (let d := fld w 14 6; let a := fld w 8 6; let b := fld w 2 6; let f := fld w 0 1; ⟨d * 16384 + a * 256 + b * 4 + f, .never, 0, .fmax gd d a b f⟩)]
/-- Class I, opcode 0x30. -/
def decI30 (w : Nat) (x : Option Nat) : Except DecErr Instr :=
  let gd := guardOf w
  takeEntry w x [
    (let d := fld w 14 3; let a := fld w 8 6; let b := fld w 2 6; let f := fld w 0 1; let cond := fld (x.getD 0) 0 2; ⟨d * 16384 + a * 256 + b * 4 + f, .must, cond, .fcmp gd d a b f cond⟩)]
/-- Class I, opcode 0x31. -/
def decI31 (w : Nat) (x : Option Nat) : Except DecErr Instr :=
  let gd := guardOf w
  takeEntry w x [
    (let d := fld w 14 6; let a := fld w 8 6; let src := fld (x.getD 0) 8 4; let dst := fld (x.getD 0) 4 4; let rm := fld (x.getD 0) 0 2; ⟨d * 16384 + a * 256, .must, src * 256 + dst * 16 + rm, .fcvtFp gd d a src dst rm⟩),
    (let d := fld w 14 6; let a := fld w 8 6; let f := fld (x.getD 0) 25 6; let dst := fld (x.getD 0) 4 4; let rm := fld (x.getD 0) 0 2; ⟨d * 16384 + a * 256 + 1, .must, f * 33554432 + dst * 16 + rm, .fcvtFromI64 gd d a f dst rm⟩),
    (let d := fld w 14 6; let a := fld w 8 6; let f := fld (x.getD 0) 25 6; let src := fld (x.getD 0) 8 4; let rm := fld (x.getD 0) 0 2; ⟨d * 16384 + a * 256 + 2, .must, f * 33554432 + src * 256 + rm, .fcvtToI64 gd d a f src rm⟩),
    (let d := fld w 14 6; let a := fld w 8 6; let f := fld (x.getD 0) 25 6; let src := fld (x.getD 0) 8 4; let rm := fld (x.getD 0) 0 2; ⟨d * 16384 + a * 256 + 3, .must, f * 33554432 + src * 256 + rm, .fcvtToU64 gd d a f src rm⟩)]
/-- Class I, opcode 0x32. -/
def decI32 (w : Nat) (x : Option Nat) : Except DecErr Instr :=
  let gd := guardOf w
  takeEntry w x [
    (let d := fld w 14 6; let a := fld w 8 6; let f := fld w 0 1; ⟨d * 16384 + a * 256 + f, .never, 0, .fclass gd d a f⟩)]
/-- Class I, opcode 0x33. -/
def decI33 (w : Nat) (x : Option Nat) : Except DecErr Instr :=
  let gd := guardOf w
  takeEntry w x [
    (let d := fld w 14 3; let a := fld w 8 4; ⟨d * 16384 + a * 256, .never, 0, .zchk gd d a⟩),
    (let d := fld w 14 3; let a := fld w 8 4; let b := fld w 2 4; ⟨d * 16384 + a * 256 + b * 4 + 1, .never, 0, .zchkM gd d a b⟩)]

/-- The I class (R83). A candidate per entry, its operands read at their bit positions. -/
def decodeI (w : Nat) (x : Option Nat) : Except DecErr Instr :=
  match fld w 24 6 with
  | 0x01 => decI01 w x
  | 0x02 => decI02 w x
  | 0x03 => decI03 w x
  | 0x04 => decI04 w x
  | 0x05 => decI05 w x
  | 0x06 => decI06 w x
  | 0x07 => decI07 w x
  | 0x08 => decI08 w x
  | 0x09 => decI09 w x
  | 0x0A => decI0A w x
  | 0x0B => decI0B w x
  | 0x0C => decI0C w x
  | 0x0D => decI0D w x
  | 0x0E => decI0E w x
  | 0x0F => decI0F w x
  | 0x10 => decI10 w x
  | 0x11 => decI11 w x
  | 0x12 => decI12 w x
  | 0x13 => decI13 w x
  | 0x14 => decI14 w x
  | 0x15 => decI15 w x
  | 0x16 => decI16 w x
  | 0x17 => decI17 w x
  | 0x18 => decI18 w x
  | 0x19 => decI19 w x
  | 0x1A => decI1A w x
  | 0x1B => decI1B w x
  | 0x1C => decI1C w x
  | 0x1D => decI1D w x
  | 0x1E => decI1E w x
  | 0x1F => decI1F w x
  | 0x20 => decI20 w x
  | 0x21 => decI21 w x
  | 0x22 => decI22 w x
  | 0x23 => decI23 w x
  | 0x24 => decI24 w x
  | 0x25 => decI25 w x
  | 0x26 => decI26 w x
  | 0x27 => decI27 w x
  | 0x28 => decI28 w x
  | 0x29 => decI29 w x
  | 0x2A => decI2A w x
  | 0x2B => decI2B w x
  | 0x2C => decI2C w x
  | 0x2D => decI2D w x
  | 0x2E => decI2E w x
  | 0x2F => decI2F w x
  | 0x30 => decI30 w x
  | 0x31 => decI31 w x
  | 0x32 => decI32 w x
  | 0x33 => decI33 w x
  | _ => .error .unassigned
/-- Class V, opcode 0x01. -/
def decV01 (w : Nat) (x : Option Nat) : Except DecErr Instr :=
  let gd := guardOf w
  let v := vopOf w x
  takeEntry w x [
    (⟨vopLow v, .may, vopExt v, .vadd gd v⟩)]
/-- Class V, opcode 0x02. -/
def decV02 (w : Nat) (x : Option Nat) : Except DecErr Instr :=
  let gd := guardOf w
  let v := vopOf w x
  takeEntry w x [
    (⟨vopLow v, .may, vopExt v, .vsub gd v⟩)]
/-- Class V, opcode 0x03. -/
def decV03 (w : Nat) (x : Option Nat) : Except DecErr Instr :=
  let gd := guardOf w
  let v := vopOf w x
  takeEntry w x [
    (⟨vopLow v, .may, vopExt v, .vmul gd v⟩)]
/-- Class V, opcode 0x04. -/
def decV04 (w : Nat) (x : Option Nat) : Except DecErr Instr :=
  let gd := guardOf w
  let v := vopOf w x
  takeEntry w x [
    (⟨vopLow v, .may, vopExt v, .vfma gd v⟩)]
/-- Class V, opcode 0x05. -/
def decV05 (w : Nat) (x : Option Nat) : Except DecErr Instr :=
  let gd := guardOf w
  let v := vopOf w x
  takeEntry w x [
    (⟨vopLow v, .may, vopExt v, .vmin gd v⟩)]
/-- Class V, opcode 0x06. -/
def decV06 (w : Nat) (x : Option Nat) : Except DecErr Instr :=
  let gd := guardOf w
  let v := vopOf w x
  takeEntry w x [
    (⟨vopLow v, .may, vopExt v, .vmax gd v⟩)]
/-- Class V, opcode 0x07. -/
def decV07 (w : Nat) (x : Option Nat) : Except DecErr Instr :=
  let gd := guardOf w
  let v := vopOf w x
  takeEntry w x [
    (⟨vopLow v, .may, vopExt v, .vabs gd v⟩)]
/-- Class V, opcode 0x08. -/
def decV08 (w : Nat) (x : Option Nat) : Except DecErr Instr :=
  let gd := guardOf w
  let v := vopOf w x
  takeEntry w x [
    (⟨vopLow v, .may, vopExt v, .vneg gd v⟩)]
/-- Class V, opcode 0x09. -/
def decV09 (w : Nat) (x : Option Nat) : Except DecErr Instr :=
  let gd := guardOf w
  let v := vopOf w x
  takeEntry w x [
    (⟨vopLow v, .may, vopExt v, .vand gd v⟩)]
/-- Class V, opcode 0x0A. -/
def decV0A (w : Nat) (x : Option Nat) : Except DecErr Instr :=
  let gd := guardOf w
  let v := vopOf w x
  takeEntry w x [
    (⟨vopLow v, .may, vopExt v, .vor gd v⟩)]
/-- Class V, opcode 0x0B. -/
def decV0B (w : Nat) (x : Option Nat) : Except DecErr Instr :=
  let gd := guardOf w
  let v := vopOf w x
  takeEntry w x [
    (⟨vopLow v, .may, vopExt v, .vxor gd v⟩)]
/-- Class V, opcode 0x0C. -/
def decV0C (w : Nat) (x : Option Nat) : Except DecErr Instr :=
  let gd := guardOf w
  let v := vopOf w x
  takeEntry w x [
    (⟨vopLow v, .may, vopExt v, .vshl gd v⟩)]
/-- Class V, opcode 0x0D. -/
def decV0D (w : Nat) (x : Option Nat) : Except DecErr Instr :=
  let gd := guardOf w
  let v := vopOf w x
  takeEntry w x [
    (⟨vopLow v, .may, vopExt v, .vshr gd v⟩)]
/-- Class V, opcode 0x0E. -/
def decV0E (w : Nat) (x : Option Nat) : Except DecErr Instr :=
  let gd := guardOf w
  let v := vopOf w x
  takeEntry w x [
    (⟨vopLow v, .may, vopExt v, .vcmp gd v⟩)]
/-- Class V, opcode 0x0F. -/
def decV0F (w : Nat) (x : Option Nat) : Except DecErr Instr :=
  let gd := guardOf w
  let v := vopOf w x
  takeEntry w x [
    (⟨vopLow v, .may, vopExt v, .vsel gd v⟩)]
/-- Class V, opcode 0x10. -/
def decV10 (w : Nat) (x : Option Nat) : Except DecErr Instr :=
  let gd := guardOf w
  let v := vopOf w x
  takeEntry w x [
    (⟨vopLow v, .may, vopExt v, .vperm gd v⟩)]
/-- Class V, opcode 0x11. -/
def decV11 (w : Nat) (x : Option Nat) : Except DecErr Instr :=
  let gd := guardOf w
  let v := vopOf w x
  takeEntry w x [
    (⟨vopLow v, .may, vopExt v, .vslide gd v⟩)]
/-- Class V, opcode 0x12. -/
def decV12 (w : Nat) (x : Option Nat) : Except DecErr Instr :=
  let gd := guardOf w
  let v := vopOf w x
  takeEntry w x [
    (⟨vopLow v, .may, vopExt v, .vpack gd v⟩)]
/-- Class V, opcode 0x13. -/
def decV13 (w : Nat) (x : Option Nat) : Except DecErr Instr :=
  let gd := guardOf w
  let v := vopOf w x
  takeEntry w x [
    (⟨vopLow v, .may, vopExt v, .vunpk gd v⟩)]
/-- Class V, opcode 0x14. -/
def decV14 (w : Nat) (x : Option Nat) : Except DecErr Instr :=
  let gd := guardOf w
  let v := vopOf w x
  takeEntry w x [
    (⟨vopLow v, .may, vopExt v, .vbcast gd v⟩)]
/-- Class V, opcode 0x15. -/
def decV15 (w : Nat) (x : Option Nat) : Except DecErr Instr :=
  let gd := guardOf w
  let v := vopOf w x
  takeEntry w x [
    (⟨vopLow v, .may, vopExt v, .vext gd v⟩)]
/-- Class V, opcode 0x16. -/
def decV16 (w : Nat) (x : Option Nat) : Except DecErr Instr :=
  let gd := guardOf w
  let v := vopOf w x
  takeEntry w x [
    (⟨vopLow v, .may, vopExt v, .vcvt gd v⟩)]
/-- Class V, opcode 0x17. -/
def decV17 (w : Nat) (x : Option Nat) : Except DecErr Instr :=
  let gd := guardOf w
  let v := vopOf w x
  takeEntry w x [
    (⟨vopLow v, .may, vopExt v, .vqnt gd v⟩)]
/-- Class V, opcode 0x18. -/
def decV18 (w : Nat) (x : Option Nat) : Except DecErr Instr :=
  let gd := guardOf w
  let v := vopOf w x
  takeEntry w x [
    (⟨vopLow v, .may, vopExt v, .vdq gd v⟩)]
/-- Class V, opcode 0x19. -/
def decV19 (w : Nat) (x : Option Nat) : Except DecErr Instr :=
  let gd := guardOf w
  let v := vopOf w x
  takeEntry w x [
    (⟨vopLow v, .may, vopExt v, .vamax gd v⟩)]
/-- Class V, opcode 0x1A. -/
def decV1A (w : Nat) (x : Option Nat) : Except DecErr Instr :=
  let gd := guardOf w
  let v := vopOf w x
  takeEntry w x [
    (⟨vopLow v, .may, vopExt v, .vspec gd v⟩)]
/-- Class V, opcode 0x1B. -/
def decV1B (w : Nat) (x : Option Nat) : Except DecErr Instr :=
  let gd := guardOf w
  let v := vopOf w x
  takeEntry w x [
    (⟨vopLow v, .may, vopExt v, .vred gd v⟩)]
/-- Class V, opcode 0x1C. -/
def decV1C (w : Nat) (x : Option Nat) : Except DecErr Instr :=
  let gd := guardOf w
  let v := vopOf w x
  takeEntry w x [
    (⟨vopLow v, .may, vopExt v, .vscan gd v⟩)]
/-- Class V, opcode 0x1D. -/
def decV1D (w : Nat) (x : Option Nat) : Except DecErr Instr :=
  let gd := guardOf w
  let v := vopOf w x
  takeEntry w x [
    (⟨vopLow v, .may, vopExt v, .vmatch gd v⟩)]
/-- Class V, opcode 0x1E. -/
def decV1E (w : Nat) (x : Option Nat) : Except DecErr Instr :=
  let gd := guardOf w
  let v := vopOf w x
  takeEntry w x [
    (⟨vopLow v, .may, vopExt v, .klog gd v⟩)]
/-- Class V, opcode 0x1F. -/
def decV1F (w : Nat) (x : Option Nat) : Except DecErr Instr :=
  let gd := guardOf w
  let v := vopOf w x
  takeEntry w x [
    (⟨vopLow v, .may, vopExt v, .kmov gd v⟩)]
/-- Class V, opcode 0x20. -/
def decV20 (w : Nat) (x : Option Nat) : Except DecErr Instr :=
  let gd := guardOf w
  let v := vopOf w x
  takeEntry w x [
    (⟨vopLow v, .may, vopExt v, .vmov gd v⟩)]
/-- Class V, opcode 0x3F. -/
def decV3F (w : Nat) (x : Option Nat) : Except DecErr Instr :=
  let gd := guardOf w
  takeEntry w x [
    (⟨0, .never, 0, .idle gd⟩)]

/-- The V class (R84). A candidate per entry, its operands read at their bit positions. -/
def decodeV (w : Nat) (x : Option Nat) : Except DecErr Instr :=
  match fld w 24 6 with
  | 0x01 => decV01 w x
  | 0x02 => decV02 w x
  | 0x03 => decV03 w x
  | 0x04 => decV04 w x
  | 0x05 => decV05 w x
  | 0x06 => decV06 w x
  | 0x07 => decV07 w x
  | 0x08 => decV08 w x
  | 0x09 => decV09 w x
  | 0x0A => decV0A w x
  | 0x0B => decV0B w x
  | 0x0C => decV0C w x
  | 0x0D => decV0D w x
  | 0x0E => decV0E w x
  | 0x0F => decV0F w x
  | 0x10 => decV10 w x
  | 0x11 => decV11 w x
  | 0x12 => decV12 w x
  | 0x13 => decV13 w x
  | 0x14 => decV14 w x
  | 0x15 => decV15 w x
  | 0x16 => decV16 w x
  | 0x17 => decV17 w x
  | 0x18 => decV18 w x
  | 0x19 => decV19 w x
  | 0x1A => decV1A w x
  | 0x1B => decV1B w x
  | 0x1C => decV1C w x
  | 0x1D => decV1D w x
  | 0x1E => decV1E w x
  | 0x1F => decV1F w x
  | 0x20 => decV20 w x
  | 0x3F => decV3F w x
  | _ => .error .unassigned
/-- Class M, opcode 0x01. -/
def decM01 (w : Nat) (x : Option Nat) : Except DecErr Instr :=
  let gd := guardOf w
  let e := edgeOf w x
  takeEntry w x [
    (let d := fld (x.getD 0) 22 3; let qa := fld (x.getD 0) 18 4; let qb := fld (x.getD 0) 14 4; let sa := fld (x.getD 0) 13 1; let ta := fld (x.getD 0) 12 1; let tb := fld (x.getD 0) 11 1; let z := fld (x.getD 0) 10 1; let kb0 := fld (x.getD 0) 6 4; let kbn := fld (x.getD 0) 2 4; let pa := fld (x.getD 0) 1 1; let pb := fld (x.getD 0) 0 1; ⟨edgeLow e, .must, e.c2 * 33554432 + d * 4194304 + qa * 262144 + qb * 16384 + sa * 8192 + ta * 4096 + tb * 2048 + z * 1024 + kb0 * 64 + kbn * 4 + pa * 2 + pb, .mma gd e d qa qb sa ta tb z kb0 kbn pa pb⟩)]
/-- Class M, opcode 0x02. -/
def decM02 (w : Nat) (x : Option Nat) : Except DecErr Instr :=
  let gd := guardOf w
  let e := edgeOf w x
  takeEntry w x [
    (let mask := fld (x.getD 0) 17 8; ⟨edgeLow e, .must, e.c2 * 33554432 + mask * 131072, .mzero gd e mask⟩)]
/-- Class M, opcode 0x03. -/
def decM03 (w : Nat) (x : Option Nat) : Except DecErr Instr :=
  let gd := guardOf w
  let e := edgeOf w x
  takeEntry w x [
    (let d := fld (x.getD 0) 22 3; let q := fld (x.getD 0) 18 4; let t := fld (x.getD 0) 17 1; let part := fld (x.getD 0) 14 3; ⟨edgeLow e, .must, e.c2 * 33554432 + d * 4194304 + q * 262144 + t * 131072 + part * 16384, .mlda gd e d q t part⟩)]
/-- Class M, opcode 0x04. -/
def decM04 (w : Nat) (x : Option Nat) : Except DecErr Instr :=
  let gd := guardOf w
  let e := edgeOf w x
  takeEntry w x [
    (let d := fld (x.getD 0) 22 3; let q := fld (x.getD 0) 18 4; let t := fld (x.getD 0) 17 1; let part := fld (x.getD 0) 14 3; let rm := fld (x.getD 0) 12 2; let dist := fld (x.getD 0) 9 3; ⟨edgeLow e, .must, e.c2 * 33554432 + d * 4194304 + q * 262144 + t * 131072 + part * 16384 + rm * 4096 + dist * 512, .msta gd e d q t part rm dist⟩)]
/-- Class M, opcode 0x05. -/
def decM05 (w : Nat) (x : Option Nat) : Except DecErr Instr :=
  let gd := guardOf w
  let e := edgeOf w x
  takeEntry w x [
    (let d := fld (x.getD 0) 22 3; let gs := fld (x.getD 0) 16 6; ⟨edgeLow e, .must, e.c2 * 33554432 + d * 4194304 + gs * 65536, .msclFill gd e d gs⟩),
    (let d := fld (x.getD 0) 22 3; let gs := fld (x.getD 0) 16 6; ⟨edgeLow e, .must, e.c2 * 33554432 + d * 4194304 + gs * 65536 + 16384, .msclDiag gd e d gs⟩),
    (let d := fld (x.getD 0) 22 3; let gs := fld (x.getD 0) 16 6; ⟨edgeLow e, .must, e.c2 * 33554432 + d * 4194304 + gs * 65536 + 32768, .msclMul gd e d gs⟩)]
/-- Class M, opcode 0x06. -/
def decM06 (w : Nat) (x : Option Nat) : Except DecErr Instr :=
  let gd := guardOf w
  let e := edgeOf w x
  takeEntry w x [
    (let d := fld (x.getD 0) 22 3; let gs := fld (x.getD 0) 16 6; let one := fld (x.getD 0) 13 1; ⟨edgeLow e, .must, e.c2 * 33554432 + d * 4194304 + gs * 65536 + one * 8192, .mtriLi gd e d gs one⟩),
    (let d := fld (x.getD 0) 22 3; let gs := fld (x.getD 0) 16 6; let one := fld (x.getD 0) 13 1; ⟨edgeLow e, .must, e.c2 * 33554432 + d * 4194304 + gs * 65536 + one * 8192 + 16384, .mtriLs gd e d gs one⟩),
    (let d := fld (x.getD 0) 22 3; let gs := fld (x.getD 0) 16 6; let one := fld (x.getD 0) 13 1; ⟨edgeLow e, .must, e.c2 * 33554432 + d * 4194304 + gs * 65536 + one * 8192 + 32768, .mtriUi gd e d gs one⟩),
    (let d := fld (x.getD 0) 22 3; let gs := fld (x.getD 0) 16 6; let one := fld (x.getD 0) 13 1; ⟨edgeLow e, .must, e.c2 * 33554432 + d * 4194304 + gs * 65536 + one * 8192 + 49152, .mtriUs gd e d gs one⟩)]
/-- Class M, opcode 0x10. -/
def decM10 (w : Nat) (x : Option Nat) : Except DecErr Instr :=
  let gd := guardOf w
  let e := edgeOf w x
  takeEntry w x [
    (let z := fld (x.getD 0) 21 4; let q := fld (x.getD 0) 17 4; let p := fld (x.getD 0) 16 1; let kb := fld (x.getD 0) 12 4; let mode := fld (x.getD 0) 11 1; let w := fld (x.getD 0) 9 2; ⟨edgeLow e, .must, e.c2 * 33554432 + z * 2097152 + q * 131072 + p * 65536 + kb * 4096 + mode * 2048 + w * 512, .tbuild gd e z q p kb mode w⟩)]
/-- Class M, opcode 0x11. -/
def decM11 (w : Nat) (x : Option Nat) : Except DecErr Instr :=
  let gd := guardOf w
  let e := edgeOf w x
  takeEntry w x [
    (let d := fld (x.getD 0) 22 3; let z := fld (x.getD 0) 18 4; let q := fld (x.getD 0) 14 4; let wkb := fld (x.getD 0) 8 5; let cst := fld (x.getD 0) 6 2; let cnm1 := fld (x.getD 0) 4 2; let pm := fld (x.getD 0) 0 4; ⟨edgeLow e, .must, e.c2 * 33554432 + d * 4194304 + z * 262144 + q * 16384 + wkb * 256 + cst * 64 + cnm1 * 16 + pm, .tlook gd e d z q wkb cst cnm1 pm⟩),
    (let d := fld (x.getD 0) 22 3; let z := fld (x.getD 0) 18 4; let q := fld (x.getD 0) 14 4; let wkb := fld (x.getD 0) 8 5; let cst := fld (x.getD 0) 6 2; let cnm1 := fld (x.getD 0) 4 2; let pm := fld (x.getD 0) 0 4; ⟨edgeLow e, .must, e.c2 * 33554432 + d * 4194304 + z * 262144 + q * 16384 + wkb * 256 + cst * 64 + cnm1 * 16 + pm + 8192, .tlookR gd e d z q wkb cst cnm1 pm⟩)]
/-- Class M, opcode 0x12. -/
def decM12 (w : Nat) (x : Option Nat) : Except DecErr Instr :=
  let gd := guardOf w
  let e := edgeOf w x
  takeEntry w x [
    (let z := fld (x.getD 0) 21 4; let f := fld (x.getD 0) 20 1; let q := fld (x.getD 0) 16 4; let gs := fld (x.getD 0) 10 6; ⟨edgeLow e, .must, e.c2 * 33554432 + z * 2097152 + f * 1048576 + q * 65536 + gs * 1024, .zsave gd e z f q gs⟩)]
/-- Class M, opcode 0x13. -/
def decM13 (w : Nat) (x : Option Nat) : Except DecErr Instr :=
  let gd := guardOf w
  let e := edgeOf w x
  takeEntry w x [
    (let z := fld (x.getD 0) 21 4; let f := fld (x.getD 0) 20 1; let q := fld (x.getD 0) 16 4; let gs := fld (x.getD 0) 10 6; ⟨edgeLow e, .must, e.c2 * 33554432 + z * 2097152 + f * 1048576 + q * 65536 + gs * 1024, .zload gd e z f q gs⟩)]
/-- Class M, opcode 0x14. -/
def decM14 (w : Nat) (x : Option Nat) : Except DecErr Instr :=
  let gd := guardOf w
  let e := edgeOf w x
  takeEntry w x [
    (let mask := fld (x.getD 0) 9 16; ⟨edgeLow e, .must, e.c2 * 33554432 + mask * 512, .zinv gd e mask⟩)]
/-- Class M, opcode 0x15. -/
def decM15 (w : Nat) (x : Option Nat) : Except DecErr Instr :=
  let gd := guardOf w
  let e := edgeOf w x
  takeEntry w x [
    (let w := fld (x.getD 0) 23 2; let gs := fld (x.getD 0) 17 6; let cnt := fld (x.getD 0) 12 5; ⟨edgeLow e, .must, e.c2 * 33554432 + w * 8388608 + gs * 131072 + cnt * 4096, .cbld gd e w gs cnt⟩)]

/-- The M class (R85). A candidate per entry, its operands read at their bit positions. -/
def decodeM (w : Nat) (x : Option Nat) : Except DecErr Instr :=
  match fld w 24 6 with
  | 0x01 => decM01 w x
  | 0x02 => decM02 w x
  | 0x03 => decM03 w x
  | 0x04 => decM04 w x
  | 0x05 => decM05 w x
  | 0x06 => decM06 w x
  | 0x10 => decM10 w x
  | 0x11 => decM11 w x
  | 0x12 => decM12 w x
  | 0x13 => decM13 w x
  | 0x14 => decM14 w x
  | 0x15 => decM15 w x
  | _ => .error .unassigned
/-- Class X, opcode 0x01. -/
def decX01 (w : Nat) (x : Option Nat) : Except DecErr Instr :=
  let gd := guardOf w
  let e := edgeOf w x
  takeEntry w x [
    (let q := fld (x.getD 0) 21 4; let hint := fld (x.getD 0) 17 4; ⟨edgeLow e, .must, e.c2 * 33554432 + q * 2097152 + hint * 131072, .tfetch gd e q hint⟩)]
/-- Class X, opcode 0x02. -/
def decX02 (w : Nat) (x : Option Nat) : Except DecErr Instr :=
  let gd := guardOf w
  let e := edgeOf w x
  takeEntry w x [
    (let q := fld (x.getD 0) 21 4; let set := fld (x.getD 0) 17 4; let clr := fld (x.getD 0) 13 4; ⟨edgeLow e, .must, e.c2 * 33554432 + q * 2097152 + set * 131072 + clr * 8192, .thint gd e q set clr⟩)]
/-- Class X, opcode 0x03. -/
def decX03 (w : Nat) (x : Option Nat) : Except DecErr Instr :=
  let gd := guardOf w
  let e := edgeOf w x
  takeEntry w x [
    (let q := fld (x.getD 0) 21 4; let ax := fld (x.getD 0) 19 2; let nm1 := fld (x.getD 0) 11 8; ⟨edgeLow e, .must, e.c2 * 33554432 + q * 2097152 + ax * 524288 + nm1 * 2048, .tinv gd e q ax nm1⟩)]
/-- Class X, opcode 0x04. -/
def decX04 (w : Nat) (x : Option Nat) : Except DecErr Instr :=
  let gd := guardOf w
  let e := edgeOf w x
  takeEntry w x [
    (let qs := fld (x.getD 0) 21 4; let qd := fld (x.getD 0) 17 4; let t := fld (x.getD 0) 15 1; ⟨edgeLow e, .must, e.c2 * 33554432 + qs * 2097152 + qd * 131072 + t * 32768, .tcopy gd e qs qd t⟩),
    (let qs := fld (x.getD 0) 21 4; let t := fld (x.getD 0) 15 1; let gs := fld (x.getD 0) 9 6; ⟨edgeLow e, .must, e.c2 * 33554432 + qs * 2097152 + t * 32768 + gs * 512 + 65536, .tcopyMem gd e qs t gs⟩)]
/-- Class X, opcode 0x05. -/
def decX05 (w : Nat) (x : Option Nat) : Except DecErr Instr :=
  let gd := guardOf w
  let e := edgeOf w x
  takeEntry w x [
    (let qs := fld (x.getD 0) 21 4; let qd := fld (x.getD 0) 17 4; let opr := fld (x.getD 0) 14 3; ⟨edgeLow e, .must, e.c2 * 33554432 + qs * 2097152 + qd * 131072 + opr * 16384, .tred gd e qs qd opr⟩)]
/-- Class X, opcode 0x06. -/
def decX06 (w : Nat) (x : Option Nat) : Except DecErr Instr :=
  let gd := guardOf w
  let e := edgeOf w x
  takeEntry w x [
    (let qd := fld (x.getD 0) 21 4; let qs := fld (x.getD 0) 17 4; let gs := fld (x.getD 0) 11 6; let nm1 := fld (x.getD 0) 3 8; ⟨edgeLow e, .must, e.c2 * 33554432 + qd * 2097152 + qs * 131072 + gs * 2048 + nm1 * 8, .tgath gd e qd qs gs nm1⟩)]
/-- Class X, opcode 0x07. -/
def decX07 (w : Nat) (x : Option Nat) : Except DecErr Instr :=
  let gd := guardOf w
  let e := edgeOf w x
  takeEntry w x [
    (let qs := fld (x.getD 0) 21 4; let qd := fld (x.getD 0) 17 4; let gs := fld (x.getD 0) 11 6; let nm1 := fld (x.getD 0) 3 8; ⟨edgeLow e, .must, e.c2 * 33554432 + qs * 2097152 + qd * 131072 + gs * 2048 + nm1 * 8, .tscat gd e qs qd gs nm1⟩)]
/-- Class X, opcode 0x08. -/
def decX08 (w : Nat) (x : Option Nat) : Except DecErr Instr :=
  let gd := guardOf w
  let e := edgeOf w x
  takeEntry w x [
    (let q := fld (x.getD 0) 21 4; let ver := fld (x.getD 0) 5 16; ⟨edgeLow e, .must, e.c2 * 33554432 + q * 2097152 + ver * 32, .tacq gd e q ver⟩)]
/-- Class X, opcode 0x09. -/
def decX09 (w : Nat) (x : Option Nat) : Except DecErr Instr :=
  let gd := guardOf w
  let e := edgeOf w x
  takeEntry w x [
    (let q := fld (x.getD 0) 21 4; ⟨edgeLow e, .must, e.c2 * 33554432 + q * 2097152, .trel gd e q⟩)]
/-- Class X, opcode 0x0A. -/
def decX0A (w : Nat) (x : Option Nat) : Except DecErr Instr :=
  let gd := guardOf w
  let e := edgeOf w x
  takeEntry w x [
    (let s := fld (x.getD 0) 23 2; let ix := fld (x.getD 0) 11 12; let dm1 := fld (x.getD 0) 5 6; ⟨edgeLow e, .must, e.c2 * 33554432 + s * 8388608 + ix * 2048 + dm1 * 32, .itin gd e s ix dm1⟩)]
/-- Class X, opcode 0x0B. -/
def decX0B (w : Nat) (x : Option Nat) : Except DecErr Instr :=
  let gd := guardOf w
  let e := edgeOf w x
  takeEntry w x [
    (let s := fld (x.getD 0) 23 2; let q := fld (x.getD 0) 19 4; ⟨edgeLow e, .must, e.c2 * 33554432 + s * 8388608 + q * 524288, .itstep gd e s q⟩)]
/-- Class X, opcode 0x0C. -/
def decX0C (w : Nat) (x : Option Nat) : Except DecErr Instr :=
  let gd := guardOf w
  let e := edgeOf w x
  takeEntry w x [
    (let ch := fld (x.getD 0) 21 4; let q := fld (x.getD 0) 17 4; ⟨edgeLow e, .must, e.c2 * 33554432 + ch * 2097152 + q * 131072, .chsend gd e ch q⟩)]
/-- Class X, opcode 0x0D. -/
def decX0D (w : Nat) (x : Option Nat) : Except DecErr Instr :=
  let gd := guardOf w
  let e := edgeOf w x
  takeEntry w x [
    (let ch := fld (x.getD 0) 21 4; let q := fld (x.getD 0) 17 4; ⟨edgeLow e, .must, e.c2 * 33554432 + ch * 2097152 + q * 131072, .chrecv gd e ch q⟩)]
/-- Class X, opcode 0x0E. -/
def decX0E (w : Nat) (x : Option Nat) : Except DecErr Instr :=
  let gd := guardOf w
  let e := edgeOf w x
  takeEntry w x [
    (let gt := fld (x.getD 0) 19 6; let ga := fld (x.getD 0) 13 6; ⟨edgeLow e, .must, e.c2 * 33554432 + gt * 524288 + ga * 8192, .desc gd e gt ga⟩)]
/-- Class X, opcode 0x10. -/
def decX10 (w : Nat) (x : Option Nat) : Except DecErr Instr :=
  let gd := guardOf w
  let e := edgeOf w x
  takeEntry w x [
    (let d := fld (x.getD 0) 19 6; let ga := fld (x.getD 0) 13 6; ⟨edgeLow e, .must, e.c2 * 33554432 + d * 524288 + ga * 8192, .rld gd e d ga⟩)]
/-- Class X, opcode 0x11. -/
def decX11 (w : Nat) (x : Option Nat) : Except DecErr Instr :=
  let gd := guardOf w
  let e := edgeOf w x
  takeEntry w x [
    (let ga := fld (x.getD 0) 13 6; let gs := fld (x.getD 0) 7 6; ⟨edgeLow e, .must, e.c2 * 33554432 + ga * 8192 + gs * 128, .rst gd e ga gs⟩)]
/-- Class X, opcode 0x12. -/
def decX12 (w : Nat) (x : Option Nat) : Except DecErr Instr :=
  let gd := guardOf w
  let e := edgeOf w x
  takeEntry w x [
    (let d := fld (x.getD 0) 19 6; let ga := fld (x.getD 0) 13 6; let gs := fld (x.getD 0) 7 6; ⟨edgeLow e, .must, e.c2 * 33554432 + d * 524288 + ga * 8192 + gs * 128, .rfaa gd e d ga gs⟩)]
/-- Class X, opcode 0x13. -/
def decX13 (w : Nat) (x : Option Nat) : Except DecErr Instr :=
  let gd := guardOf w
  let e := edgeOf w x
  takeEntry w x [
    (let ga := fld (x.getD 0) 13 6; ⟨edgeLow e, .must, e.c2 * 33554432 + ga * 8192, .rtdec gd e ga⟩)]
/-- Class X, opcode 0x14. RFENCE.F with F = 0b10 reads no S, which may hold any number (R252). -/
def decX14 (w : Nat) (x : Option Nat) : Except DecErr Instr :=
  let gd := guardOf w
  let e := edgeOf w x
  takeEntry w x [
    (let ga := fld (x.getD 0) 13 6; ⟨edgeLow e, .must, e.c2 * 33554432 + ga * 8192, .rfence gd e ga⟩),
    (let ga := fld (x.getD 0) 13 6; let gs := fld (x.getD 0) 7 6; ⟨edgeLow e, .must, e.c2 * 33554432 + ga * 8192 + gs * 128 + 32, .rfenceFStore gd e ga gs⟩),
    (let ga := fld (x.getD 0) 13 6; let gs := fld (x.getD 0) 7 6;
      ⟨edgeLow e, .must, e.c2 * 33554432 + ga * 8192 + gs * 128 + 64, .rfenceFDec gd e ga⟩)]
/-- Class X, opcode 0x18. -/
def decX18 (w : Nat) (x : Option Nat) : Except DecErr Instr :=
  let gd := guardOf w
  let e := edgeOf w x
  takeEntry w x [
    (let ga := fld (x.getD 0) 13 6; ⟨edgeLow e, .must, e.c2 * 33554432 + ga * 8192, .tspawn gd e ga⟩)]
/-- Class X, opcode 0x19. -/
def decX19 (w : Nat) (x : Option Nat) : Except DecErr Instr :=
  let gd := guardOf w
  let e := edgeOf w x
  takeEntry w x [
    (let ga := fld (x.getD 0) 13 6; ⟨edgeLow e, .must, e.c2 * 33554432 + ga * 8192, .tdec gd e ga⟩)]
/-- Class X, opcode 0x1A. -/
def decX1A (w : Nat) (x : Option Nat) : Except DecErr Instr :=
  let gd := guardOf w
  let e := edgeOf w x
  takeEntry w x [
    (let ga := fld (x.getD 0) 13 6; ⟨edgeLow e, .must, e.c2 * 33554432 + ga * 8192, .tdecb gd e ga⟩),
    (let ga := fld (x.getD 0) 13 6; let gs := fld (x.getD 0) 7 6; ⟨edgeLow e, .must, e.c2 * 33554432 + ga * 8192 + gs * 128 + 64, .tdecbArm gd e ga gs⟩)]

/-- The X class (R86). A candidate per entry, its operands read at their bit positions. -/
def decodeX (w : Nat) (x : Option Nat) : Except DecErr Instr :=
  match fld w 24 6 with
  | 0x01 => decX01 w x
  | 0x02 => decX02 w x
  | 0x03 => decX03 w x
  | 0x04 => decX04 w x
  | 0x05 => decX05 w x
  | 0x06 => decX06 w x
  | 0x07 => decX07 w x
  | 0x08 => decX08 w x
  | 0x09 => decX09 w x
  | 0x0A => decX0A w x
  | 0x0B => decX0B w x
  | 0x0C => decX0C w x
  | 0x0D => decX0D w x
  | 0x0E => decX0E w x
  | 0x10 => decX10 w x
  | 0x11 => decX11 w x
  | 0x12 => decX12 w x
  | 0x13 => decX13 w x
  | 0x14 => decX14 w x
  | 0x18 => decX18 w x
  | 0x19 => decX19 w x
  | 0x1A => decX1A w x
  | _ => .error .unassigned
/-- Class L, opcode 0x01. -/
def decL01 (w : Nat) (x : Option Nat) : Except DecErr Instr :=
  let gd := guardOf w
  takeEntry w x [
    (let t := fld w 14 6; let b := fld w 8 6; let d := fld w 0 8; ⟨t * 16384 + b * 256 + d, .may, x.getD 0, .ldB gd t b d x⟩)]
/-- Class L, opcode 0x02. -/
def decL02 (w : Nat) (x : Option Nat) : Except DecErr Instr :=
  let gd := guardOf w
  takeEntry w x [
    (let t := fld w 14 6; let b := fld w 8 6; let d := fld w 0 8; ⟨t * 16384 + b * 256 + d, .may, x.getD 0, .ldBs gd t b d x⟩)]
/-- Class L, opcode 0x03. -/
def decL03 (w : Nat) (x : Option Nat) : Except DecErr Instr :=
  let gd := guardOf w
  takeEntry w x [
    (let t := fld w 14 6; let b := fld w 8 6; let d := fld w 0 8; ⟨t * 16384 + b * 256 + d, .may, x.getD 0, .ldH gd t b d x⟩)]
/-- Class L, opcode 0x04. -/
def decL04 (w : Nat) (x : Option Nat) : Except DecErr Instr :=
  let gd := guardOf w
  takeEntry w x [
    (let t := fld w 14 6; let b := fld w 8 6; let d := fld w 0 8; ⟨t * 16384 + b * 256 + d, .may, x.getD 0, .ldHs gd t b d x⟩)]
/-- Class L, opcode 0x05. -/
def decL05 (w : Nat) (x : Option Nat) : Except DecErr Instr :=
  let gd := guardOf w
  takeEntry w x [
    (let t := fld w 14 6; let b := fld w 8 6; let d := fld w 0 8; ⟨t * 16384 + b * 256 + d, .may, x.getD 0, .ldW gd t b d x⟩)]
/-- Class L, opcode 0x06. -/
def decL06 (w : Nat) (x : Option Nat) : Except DecErr Instr :=
  let gd := guardOf w
  takeEntry w x [
    (let t := fld w 14 6; let b := fld w 8 6; let d := fld w 0 8; ⟨t * 16384 + b * 256 + d, .may, x.getD 0, .ldWs gd t b d x⟩)]
/-- Class L, opcode 0x07. -/
def decL07 (w : Nat) (x : Option Nat) : Except DecErr Instr :=
  let gd := guardOf w
  takeEntry w x [
    (let t := fld w 14 6; let b := fld w 8 6; let d := fld w 0 8; ⟨t * 16384 + b * 256 + d, .may, x.getD 0, .ldD gd t b d x⟩)]
/-- Class L, opcode 0x08. -/
def decL08 (w : Nat) (x : Option Nat) : Except DecErr Instr :=
  let gd := guardOf w
  takeEntry w x [
    (let t := fld w 14 6; let b := fld w 8 6; let d := fld w 0 8; ⟨t * 16384 + b * 256 + d, .may, x.getD 0, .stB gd t b d x⟩)]
/-- Class L, opcode 0x09. -/
def decL09 (w : Nat) (x : Option Nat) : Except DecErr Instr :=
  let gd := guardOf w
  takeEntry w x [
    (let t := fld w 14 6; let b := fld w 8 6; let d := fld w 0 8; ⟨t * 16384 + b * 256 + d, .may, x.getD 0, .stH gd t b d x⟩)]
/-- Class L, opcode 0x0A. -/
def decL0A (w : Nat) (x : Option Nat) : Except DecErr Instr :=
  let gd := guardOf w
  takeEntry w x [
    (let t := fld w 14 6; let b := fld w 8 6; let d := fld w 0 8; ⟨t * 16384 + b * 256 + d, .may, x.getD 0, .stW gd t b d x⟩)]
/-- Class L, opcode 0x0B. -/
def decL0B (w : Nat) (x : Option Nat) : Except DecErr Instr :=
  let gd := guardOf w
  takeEntry w x [
    (let t := fld w 14 6; let b := fld w 8 6; let d := fld w 0 8; ⟨t * 16384 + b * 256 + d, .may, x.getD 0, .stD gd t b d x⟩)]
/-- Class L, opcode 0x0C. -/
def decL0C (w : Nat) (x : Option Nat) : Except DecErr Instr :=
  let gd := guardOf w
  takeEntry w x [
    (let t := fld w 14 5; let b := fld w 8 6; let d := fld w 0 8; ⟨t * 16384 + b * 256 + d, .may, x.getD 0, .ldv gd t b d x⟩)]
/-- Class L, opcode 0x0D. -/
def decL0D (w : Nat) (x : Option Nat) : Except DecErr Instr :=
  let gd := guardOf w
  takeEntry w x [
    (let t := fld w 14 5; let b := fld w 8 6; let d := fld w 0 8; ⟨t * 16384 + b * 256 + d, .may, x.getD 0, .stv gd t b d x⟩)]
/-- Class L, opcode 0x0E. -/
def decL0E (w : Nat) (x : Option Nat) : Except DecErr Instr :=
  let gd := guardOf w
  takeEntry w x [
    (let t := fld w 14 5; let b := fld w 8 6; let vx := fld (x.getD 0) 26 5; let k := fld (x.getD 0) 23 3; let es := fld (x.getD 0) 21 2; let sc := fld (x.getD 0) 20 1; ⟨t * 16384 + b * 256, .must, vx * 67108864 + k * 8388608 + es * 2097152 + sc * 1048576, .gath gd t b vx k es sc⟩)]
/-- Class L, opcode 0x0F. -/
def decL0F (w : Nat) (x : Option Nat) : Except DecErr Instr :=
  let gd := guardOf w
  takeEntry w x [
    (let t := fld w 14 5; let b := fld w 8 6; let vx := fld (x.getD 0) 26 5; let k := fld (x.getD 0) 23 3; let es := fld (x.getD 0) 21 2; let sc := fld (x.getD 0) 20 1; ⟨t * 16384 + b * 256, .must, vx * 67108864 + k * 8388608 + es * 2097152 + sc * 1048576, .scat gd t b vx k es sc⟩)]
/-- Class L, opcode 0x10. -/
def decL10 (w : Nat) (x : Option Nat) : Except DecErr Instr :=
  let gd := guardOf w
  takeEntry w x [
    (let t := fld w 14 6; let b := fld w 8 6; let d := fld w 0 8; ⟨t * 16384 + b * 256 + d, .may, x.getD 0, .ldx gd t b d x⟩)]
/-- Class L, opcode 0x11. -/
def decL11 (w : Nat) (x : Option Nat) : Except DecErr Instr :=
  let gd := guardOf w
  takeEntry w x [
    (let b := fld w 8 6; let d := fld w 0 8; ⟨b * 256 + d, .may, x.getD 0, .ldxinv gd b d x⟩),
    (⟨16384, .never, 0, .ldxinvAll gd⟩)]
/-- Class L, opcode 0x12. -/
def decL12 (w : Nat) (x : Option Nat) : Except DecErr Instr :=
  let gd := guardOf w
  takeEntry w x [
    (let t := fld w 14 4; let b := fld w 8 6; let d := fld w 0 8; ⟨t * 16384 + b * 256 + d, .may, x.getD 0, .sld gd t b d x⟩)]
/-- Class L, opcode 0x13. -/
def decL13 (w : Nat) (x : Option Nat) : Except DecErr Instr :=
  let gd := guardOf w
  takeEntry w x [
    (let b := fld w 8 6; let d := fld w 0 8; ⟨b * 256 + d, .may, x.getD 0, .pref gd b d x⟩),
    (let b := fld w 8 6; let d := fld w 0 8; ⟨b * 256 + d + 16384, .may, x.getD 0, .prefLlc gd b d x⟩)]
/-- Class L, opcode 0x14. -/
def decL14 (w : Nat) (x : Option Nat) : Except DecErr Instr :=
  let gd := guardOf w
  takeEntry w x [
    (let t := fld w 14 6; let b := fld w 8 6; let d := fld w 0 8; ⟨t * 16384 + b * 256 + d, .may, x.getD 0, .acq gd t b d x⟩)]
/-- Class L, opcode 0x15. -/
def decL15 (w : Nat) (x : Option Nat) : Except DecErr Instr :=
  let gd := guardOf w
  takeEntry w x [
    (let t := fld w 14 6; let b := fld w 8 6; let d := fld w 0 8; ⟨t * 16384 + b * 256 + d, .may, x.getD 0, .rel gd t b d x⟩)]
/-- Class L, opcode 0x16. -/
def decL16 (w : Nat) (x : Option Nat) : Except DecErr Instr :=
  let gd := guardOf w
  takeEntry w x [
    (let t := fld w 14 5; let b := fld w 8 6; let d := fld w 0 8; ⟨t * 16384 + b * 256 + d, .may, x.getD 0, .trd gd t b d x⟩)]
/-- Class L, opcode 0x17. -/
def decL17 (w : Nat) (x : Option Nat) : Except DecErr Instr :=
  let gd := guardOf w
  takeEntry w x [
    (let t := fld w 14 5; let b := fld w 8 6; let d := fld w 0 8; ⟨t * 16384 + b * 256 + d, .may, x.getD 0, .twr gd t b d x⟩)]
/-- Class L, opcode 0x18. -/
def decL18 (w : Nat) (x : Option Nat) : Except DecErr Instr :=
  let gd := guardOf w
  takeEntry w x [
    (let t := fld w 14 6; let b := fld w 8 6; let d := fld w 0 8; let opc := fld (x.getD 0) 27 4; let sz := fld (x.getD 0) 25 2; let s := fld (x.getD 0) 19 6; ⟨t * 16384 + b * 256 + d, .must, opc * 134217728 + sz * 33554432 + s * 524288, .amo gd t b d opc sz s⟩)]
/-- Class L, opcode 0x19. -/
def decL19 (w : Nat) (x : Option Nat) : Except DecErr Instr :=
  let gd := guardOf w
  takeEntry w x [
    (let t := fld w 14 6; let b := fld w 8 6; let d := fld w 0 8; let sz := fld (x.getD 0) 25 2; let s := fld (x.getD 0) 19 6; let c := fld (x.getD 0) 13 6; ⟨t * 16384 + b * 256 + d, .must, sz * 33554432 + s * 524288 + c * 8192, .cas gd t b d sz s c⟩)]
/-- Class L, opcode 0x3F. -/
def decL3F (w : Nat) (x : Option Nat) : Except DecErr Instr :=
  let gd := guardOf w
  takeEntry w x [
    (⟨0, .never, 0, .idleL gd⟩)]

/-- The L class (R87). A candidate per entry, its operands read at their bit positions. -/
def decodeL (w : Nat) (x : Option Nat) : Except DecErr Instr :=
  match fld w 24 6 with
  | 0x01 => decL01 w x
  | 0x02 => decL02 w x
  | 0x03 => decL03 w x
  | 0x04 => decL04 w x
  | 0x05 => decL05 w x
  | 0x06 => decL06 w x
  | 0x07 => decL07 w x
  | 0x08 => decL08 w x
  | 0x09 => decL09 w x
  | 0x0A => decL0A w x
  | 0x0B => decL0B w x
  | 0x0C => decL0C w x
  | 0x0D => decL0D w x
  | 0x0E => decL0E w x
  | 0x0F => decL0F w x
  | 0x10 => decL10 w x
  | 0x11 => decL11 w x
  | 0x12 => decL12 w x
  | 0x13 => decL13 w x
  | 0x14 => decL14 w x
  | 0x15 => decL15 w x
  | 0x16 => decL16 w x
  | 0x17 => decL17 w x
  | 0x18 => decL18 w x
  | 0x19 => decL19 w x
  | 0x3F => decL3F w x
  | _ => .error .unassigned

/-- One slot word with its extension word, as the slot class says (R81). -/
def decodeSlot (cl : SlotClass) (w : Nat) (x : Option Nat) : Except DecErr Instr :=
  if 2 ^ 31 ≤ w ∨ 2 ^ 31 ≤ x.getD 0 ∨ (fld w 30 1 = 1) ≠ (x.isSome = true) then .error .badWord
  else match cl with
    | .c => decodeC w x | .i => decodeI w x | .v => decodeV w x
    | .m => decodeM w x | .x => decodeX w x | .l => decodeL w x

/-- The eight slots in slot order (R28). -/
inductive Slot
  | c | i0 | i1 | v0 | v1 | m | x | l
  deriving DecidableEq, Repr

def Slot.cls : Slot → SlotClass
  | .c => .c | .i0 => .i | .i1 => .i | .v0 => .v | .v1 => .v | .m => .m | .x => .x | .l => .l
/-- The slot's bit of PRESENT in the header and of FLTMASK (R61, R76). -/
def Slot.bit : Slot → Nat
  | .c => 7 | .i0 => 6 | .i1 => 5 | .v0 => 4 | .v1 => 3 | .m => 2 | .x => 1 | .l => 0

/-- The bundle header (R61); zeros holds the bits that must be zero. -/
structure Header where
  present : Nat
  rep : Nat
  sticky : Nat
  zeros : Nat
  sv0 : Nat
  sv1 : Nat
  sl : Nat
  deriving DecidableEq, Repr

def headerOf (w : Nat) : Header :=
  ⟨fld w 23 8, fld w 19 4, fld w 18 1, fld w 16 2 * 16 + fld w 0 4, fld w 12 4, fld w 8 4, fld w 4 4⟩
/-- The slots a header marks present, in slot order. -/
def Header.slots (h : Header) : List Slot :=
  [Slot.c, .i0, .i1, .v0, .v1, .m, .x, .l].filter fun s => fld h.present s.bit 1 = 1
/-- The word of a header. -/
def Header.word (h : Header) : Nat :=
  2 ^ 31 + h.present * 2 ^ 23 + h.rep * 2 ^ 19 + h.sticky * 2 ^ 18 + h.zeros / 16 * 2 ^ 16 + h.sv0 * 2 ^ 12 + h.sv1 * 2 ^ 8 +
    h.sl * 2 ^ 4 + h.zeros % 16

/-- A slot word and its extension word, by position. -/
structure RawSlot where
  slot : Slot
  w : Nat
  x : Option Nat
  deriving DecidableEq, Repr

/-- The slot words of a bundle read from the rest of its packet: the words found, and the item of R67 (4 or 5) that stopped
the reading, 0 for none. -/
def readSlots : List Slot → List Nat → List RawSlot × Nat
  | [], _ => ([], 0)
  | _ :: _, [] => ([], 5)
  | s :: ss, w :: ws =>
    if 2 ^ 31 ≤ w then ([], 4)
    else if fld w 30 1 = 0 then
      let r := readSlots ss ws
      (⟨s, w, none⟩ :: r.1, r.2)
    else match ws with
      | [] => ([], 5)
      | e :: ws' =>
        if 2 ^ 31 ≤ e then ([], 4)
        else
          let r := readSlots ss ws'
          (⟨s, w, some e⟩ :: r.1, r.2)

/-- The words of raw slots, the header not counted. -/
def rawWords (rs : List RawSlot) : Nat := (rs.map fun r => if r.x.isSome then 2 else 1).sum

/-! The encoder, from the tables of R82 to R87. -/

namespace Instr
/-- The slot class of an instruction; an event has none. -/
def cls (i : Instr) : Option SlotClass :=
  match i with
  | .br .. => some .c
  | .bri .. => some .c
  | .call .. => some .c
  | .calli .. => some .c
  | .ret .. => some .c
  | .loop .. => some .c
  | .loopi .. => some .c
  | .safe .. => some .c
  | .done .. => some .c
  | .waitk .. => some .c
  | .waitkRange .. => some .c
  | .pollk .. => some .c
  | .pollkErr .. => some .c
  | .fenceCore .. => some .c
  | .fenceCluster .. => some .c
  | .fenceDevice .. => some .c
  | .fenceSys .. => some .c
  | .trap .. => some .c
  | .sysc .. => some .c
  | .eret .. => some .c
  | .csrr .. => some .c
  | .csrw .. => some .c
  | .csrs .. => some .c
  | .csrc .. => some .c
  | .add .. => some .i
  | .sub .. => some .i
  | .addi .. => some .i
  | .mul .. => some .i
  | .mulh .. => some .i
  | .mulhU .. => some .i
  | .div .. => some .i
  | .divU .. => some .i
  | .rem .. => some .i
  | .remU .. => some .i
  | .and .. => some .i
  | .or .. => some .i
  | .xor .. => some .i
  | .andi .. => some .i
  | .ori .. => some .i
  | .xori .. => some .i
  | .shl .. => some .i
  | .shr .. => some .i
  | .shrA .. => some .i
  | .shli .. => some .i
  | .shri .. => some .i
  | .shriA .. => some .i
  | .bfx .. => some .i
  | .bfi .. => some .i
  | .sethi .. => some .i
  | .bitcPop .. => some .i
  | .bitcClz .. => some .i
  | .bitcCtz .. => some .i
  | .min .. => some .i
  | .minU .. => some .i
  | .max .. => some .i
  | .maxU .. => some .i
  | .cmpeq .. => some .i
  | .cmpne .. => some .i
  | .cmplt .. => some .i
  | .cmpltu .. => some .i
  | .cmple .. => some .i
  | .cmpleu .. => some .i
  | .cmpeqi .. => some .i
  | .cmplti .. => some .i
  | .pand .. => some .i
  | .por .. => some .i
  | .pxor .. => some .i
  | .pandn .. => some .i
  | .pmov .. => some .i
  | .pmovPreds .. => some .i
  | .pmovFromG .. => some .i
  | .jmovToJ .. => some .i
  | .jmovToG .. => some .i
  | .emovToE .. => some .i
  | .emovToG .. => some .i
  | .emovE .. => some .i
  | .qset .. => some .i
  | .qsetTid .. => some .i
  | .qsetC .. => some .i
  | .qget .. => some .i
  | .qgetTid .. => some .i
  | .qgetC .. => some .i
  | .qadd .. => some .i
  | .qmov .. => some .i
  | .fadd .. => some .i
  | .fsub .. => some .i
  | .fmul .. => some .i
  | .fma .. => some .i
  | .fdiv .. => some .i
  | .fsqrt .. => some .i
  | .fmin .. => some .i
  | .fmax .. => some .i
  | .fcmp .. => some .i
  | .fcvtFp .. => some .i
  | .fcvtFromI64 .. => some .i
  | .fcvtToI64 .. => some .i
  | .fcvtToU64 .. => some .i
  | .fclass .. => some .i
  | .zchk .. => some .i
  | .zchkM .. => some .i
  | .vadd .. => some .v
  | .vsub .. => some .v
  | .vmul .. => some .v
  | .vfma .. => some .v
  | .vmin .. => some .v
  | .vmax .. => some .v
  | .vabs .. => some .v
  | .vneg .. => some .v
  | .vand .. => some .v
  | .vor .. => some .v
  | .vxor .. => some .v
  | .vshl .. => some .v
  | .vshr .. => some .v
  | .vcmp .. => some .v
  | .vsel .. => some .v
  | .vperm .. => some .v
  | .vslide .. => some .v
  | .vpack .. => some .v
  | .vunpk .. => some .v
  | .vbcast .. => some .v
  | .vext .. => some .v
  | .vcvt .. => some .v
  | .vqnt .. => some .v
  | .vdq .. => some .v
  | .vamax .. => some .v
  | .vspec .. => some .v
  | .vred .. => some .v
  | .vscan .. => some .v
  | .vmatch .. => some .v
  | .klog .. => some .v
  | .kmov .. => some .v
  | .vmov .. => some .v
  | .idle .. => some .v
  | .mma .. => some .m
  | .mzero .. => some .m
  | .mlda .. => some .m
  | .msta .. => some .m
  | .msclFill .. => some .m
  | .msclDiag .. => some .m
  | .msclMul .. => some .m
  | .mtriLi .. => some .m
  | .mtriLs .. => some .m
  | .mtriUi .. => some .m
  | .mtriUs .. => some .m
  | .tbuild .. => some .m
  | .tlook .. => some .m
  | .tlookR .. => some .m
  | .zsave .. => some .m
  | .zload .. => some .m
  | .zinv .. => some .m
  | .cbld .. => some .m
  | .tfetch .. => some .x
  | .thint .. => some .x
  | .tinv .. => some .x
  | .tcopy .. => some .x
  | .tcopyMem .. => some .x
  | .tred .. => some .x
  | .tgath .. => some .x
  | .tscat .. => some .x
  | .tacq .. => some .x
  | .trel .. => some .x
  | .itin .. => some .x
  | .itstep .. => some .x
  | .chsend .. => some .x
  | .chrecv .. => some .x
  | .desc .. => some .x
  | .rld .. => some .x
  | .rst .. => some .x
  | .rfaa .. => some .x
  | .rtdec .. => some .x
  | .rfence .. => some .x
  | .rfenceFStore .. => some .x
  | .rfenceFDec .. => some .x
  | .tspawn .. => some .x
  | .tdec .. => some .x
  | .tdecb .. => some .x
  | .tdecbArm .. => some .x
  | .ldB .. => some .l
  | .ldBs .. => some .l
  | .ldH .. => some .l
  | .ldHs .. => some .l
  | .ldW .. => some .l
  | .ldWs .. => some .l
  | .ldD .. => some .l
  | .stB .. => some .l
  | .stH .. => some .l
  | .stW .. => some .l
  | .stD .. => some .l
  | .ldv .. => some .l
  | .stv .. => some .l
  | .gath .. => some .l
  | .scat .. => some .l
  | .ldx .. => some .l
  | .ldxinv .. => some .l
  | .ldxinvAll .. => some .l
  | .sld .. => some .l
  | .pref .. => some .l
  | .prefLlc .. => some .l
  | .acq .. => some .l
  | .rel .. => some .l
  | .trd .. => some .l
  | .twr .. => some .l
  | .amo .. => some .l
  | .cas .. => some .l
  | .idleL .. => some .l
  | .stalledBundleCommit .. => none
  | .safeDistanceWatchdog .. => none
  | .handlerWatchdog .. => none
  | .taskEnd .. => none
  | .decrement .. => none
  | .releaseArrival .. => none
  | .recordCreation .. => none
  | .overflowRingPlacement .. => none
  | .rdqRefill .. => none
  | .rdqLoadReport .. => none
  | .dispatch .. => none
  | .gangDispatch .. => none
  | .engineCommandTake .. => none
  | .frameAllocation .. => none
  | .commandReplay .. => none
  | .engineCommandCompletion .. => none
  | .fillRequest .. => none
  | .neighbourServe .. => none
  | .fillAnswer .. => none
  | .grantRequest .. => none
  | .writeGrant .. => none
  | .retry .. => none
  | .grantTimeout .. => none
  | .releaseAtHome .. => none
  | .readOutComplete .. => none
  | .drainArrival .. => none
  | .victimWriteBack .. => none
  | .tacqAtHome .. => none
  | .tacqTimeout .. => none
  | .remoteHomeTimeout .. => none
  | .leaseExpiry .. => none
  | .homeLeaseExpiry .. => none
  | .leaseReturn .. => none
  | .reductionAtHome .. => none
  | .machineCheck .. => none
  | .loadDataArrival .. => none
  | .storePerformed .. => none
  | .relAtHome .. => none
  | .acqAtHome .. => none
  | .regionDrain .. => none
  | .regionDrainComplete .. => none
  | .acqReply .. => none
  | .amoAtSlice .. => none
  | .hostAtomicCompletion .. => none
  | .hostAtomicExhausted .. => none
  | .fabricRequestAtTarget .. => none
  | .fabricReply .. => none
  | .fabricTimeout .. => none
  | .shunerFrameReceive .. => none
  | .preemptionOrder .. => none
  | .forcedSave .. => none
  | .prqresp .. => none
  | .priPageGroupResponse .. => none
  | .atsInvalidation .. => none
  | .vacate .. => none
  | .sageEvaluation .. => none
  | .vacancy .. => none
  | .resume .. => none
  | .qstart .. => none
  | .qstopDrain .. => none
  | .qstopSave .. => none
  | .qswap .. => none
  | .load .. => none
  | .unload .. => none
  | .descriptorCommand .. => none
  | .launch .. => none
  | .copy .. => none
  | .doorbell .. => none
  | .ownclaim .. => none
  | .handover .. => none
  | .opreq .. => none
  | .operatingPointSwitch => none
  | .clstate .. => none
  | .clusterWake .. => none
  | .partitionEnable .. => none
  | .partitionDisable .. => none
  | .partitionReset .. => none
  | .genbump .. => none
  | .generationBumpComplete .. => none
  | .generationBumpHold .. => none
  | .translationCacheExpiry .. => none
  | .ptpMessage .. => none
  | .ptpSyncTimeout => none
  | .bucketRefill => none
  | .floorSegmentClose => none
  | .hardThermalTrip => none
  | .packageReset => none
  | .powerOnReset => none
  | .functionLevelReset .. => none
  | .bootStage .. => none
  | .getVersion => none
  | .getCapabilities => none
  | .negotiateAlgorithms => none
  | .getDigests => none
  | .getCertificate => none
  | .challenge .. => none
  | .getMeasurements .. => none
  | .registerWrite .. => none
  | .emptyBundle .. => none
  | .correctedError .. => none
  | .thermalSensorUpdate .. => none
  | .ptimeAdvance => none
  | .fabricPathFailure .. => none
  | .leaseReturnRequest .. => none
  | .ringCommandCompletion .. => none

/-- Opcode, guard, bits 19:0 and extension word of a C class instruction. -/
def fieldsC (i : Instr) : Nat × Guard × Nat × Option Nat :=
  match i with
  | .br gd d x => (0x01, gd, d, x)
  | .bri gd a => (0x02, gd, a * 256, none)
  | .call gd d x => (0x03, gd, d, x)
  | .calli gd d a => (0x04, gd, d * 16384 + a * 256, none)
  | .ret gd a => (0x05, gd, a * 256, none)
  | .loop gd a o x => (0x06, gd, a * 256 + o, x)
  | .loopi gd c o x => (0x07, gd, c * 256 + o, x)
  | .safe gd i x => (0x08, gd, i, x)
  | .done gd => (0x09, gd, 0, none)
  | .waitk gd a => (0x0A, gd, a * 256, none)
  | .waitkRange gd a b => (0x0A, gd, a * 256 + b * 4 + 1, none)
  | .pollk gd d a => (0x0B, gd, d * 16384 + a * 256, none)
  | .pollkErr gd d a => (0x0B, gd, d * 16384 + a * 256 + 1, none)
  | .fenceCore gd => (0x0C, gd, 0, none)
  | .fenceCluster gd => (0x0C, gd, 1, none)
  | .fenceDevice gd => (0x0C, gd, 2, none)
  | .fenceSys gd => (0x0C, gd, 3, none)
  | .trap gd c x => (0x0D, gd, c, x)
  | .sysc gd a i x => (0x0E, gd, a * 256 + i, x)
  | .eret gd => (0x0F, gd, 0, none)
  | .csrr gd d c => (0x10, gd, d * 16384 + c, none)
  | .csrw gd a c => (0x11, gd, a * 256 + c, none)
  | .csrs gd a c => (0x12, gd, a * 256 + c, none)
  | .csrc gd a c => (0x13, gd, a * 256 + c, none)
  | _ => (0, ⟨0, 0⟩, 0, none)

/-- Opcode, guard, bits 19:0 and extension word of a I class instruction. -/
def fieldsI (i : Instr) : Nat × Guard × Nat × Option Nat :=
  match i with
  | .add gd d a b => (0x01, gd, d * 16384 + a * 256 + b * 4, none)
  | .sub gd d a b => (0x02, gd, d * 16384 + a * 256 + b * 4, none)
  | .addi gd d a i x => (0x03, gd, d * 16384 + a * 256 + i, x)
  | .mul gd d a b => (0x04, gd, d * 16384 + a * 256 + b * 4, none)
  | .mulh gd d a b => (0x05, gd, d * 16384 + a * 256 + b * 4, none)
  | .mulhU gd d a b => (0x05, gd, d * 16384 + a * 256 + b * 4 + 1, none)
  | .div gd d a b => (0x06, gd, d * 16384 + a * 256 + b * 4, none)
  | .divU gd d a b => (0x06, gd, d * 16384 + a * 256 + b * 4 + 1, none)
  | .rem gd d a b => (0x07, gd, d * 16384 + a * 256 + b * 4, none)
  | .remU gd d a b => (0x07, gd, d * 16384 + a * 256 + b * 4 + 1, none)
  | .and gd d a b => (0x08, gd, d * 16384 + a * 256 + b * 4, none)
  | .or gd d a b => (0x09, gd, d * 16384 + a * 256 + b * 4, none)
  | .xor gd d a b => (0x0A, gd, d * 16384 + a * 256 + b * 4, none)
  | .andi gd d a i x => (0x0B, gd, d * 16384 + a * 256 + i, x)
  | .ori gd d a i x => (0x0C, gd, d * 16384 + a * 256 + i, x)
  | .xori gd d a i x => (0x0D, gd, d * 16384 + a * 256 + i, x)
  | .shl gd d a b => (0x0E, gd, d * 16384 + a * 256 + b * 4, none)
  | .shr gd d a b => (0x0F, gd, d * 16384 + a * 256 + b * 4, none)
  | .shrA gd d a b => (0x0F, gd, d * 16384 + a * 256 + b * 4 + 1, none)
  | .shli gd d a s => (0x10, gd, d * 16384 + a * 256 + s, none)
  | .shri gd d a s => (0x11, gd, d * 16384 + a * 256 + s, none)
  | .shriA gd d a s => (0x11, gd, d * 16384 + a * 256 + s + 64, none)
  | .bfx gd d a sx wm1 lsb => (0x12, gd, d * 16384 + a * 256, some (sx * 4096 + wm1 * 64 + lsb))
  | .bfi gd d a wm1 lsb => (0x13, gd, d * 16384 + a * 256, some (wm1 * 64 + lsb))
  | .sethi gd d a i x => (0x14, gd, d * 16384 + a * 256 + i, x)
  | .bitcPop gd d a => (0x15, gd, d * 16384 + a * 256, none)
  | .bitcClz gd d a => (0x15, gd, d * 16384 + a * 256 + 1, none)
  | .bitcCtz gd d a => (0x15, gd, d * 16384 + a * 256 + 2, none)
  | .min gd d a b => (0x16, gd, d * 16384 + a * 256 + b * 4, none)
  | .minU gd d a b => (0x16, gd, d * 16384 + a * 256 + b * 4 + 1, none)
  | .max gd d a b => (0x17, gd, d * 16384 + a * 256 + b * 4, none)
  | .maxU gd d a b => (0x17, gd, d * 16384 + a * 256 + b * 4 + 1, none)
  | .cmpeq gd d a b => (0x18, gd, d * 16384 + a * 256 + b * 4, none)
  | .cmpne gd d a b => (0x19, gd, d * 16384 + a * 256 + b * 4, none)
  | .cmplt gd d a b => (0x1A, gd, d * 16384 + a * 256 + b * 4, none)
  | .cmpltu gd d a b => (0x1B, gd, d * 16384 + a * 256 + b * 4, none)
  | .cmple gd d a b => (0x1C, gd, d * 16384 + a * 256 + b * 4, none)
  | .cmpleu gd d a b => (0x1D, gd, d * 16384 + a * 256 + b * 4, none)
  | .cmpeqi gd d a i x => (0x1E, gd, d * 16384 + a * 256 + i, x)
  | .cmplti gd d a i x => (0x1F, gd, d * 16384 + a * 256 + i, x)
  | .pand gd d a b => (0x20, gd, d * 16384 + a * 256 + b * 4, none)
  | .por gd d a b => (0x20, gd, d * 16384 + a * 256 + b * 4 + 1, none)
  | .pxor gd d a b => (0x20, gd, d * 16384 + a * 256 + b * 4 + 2, none)
  | .pandn gd d a b => (0x20, gd, d * 16384 + a * 256 + b * 4 + 3, none)
  | .pmov gd d a => (0x21, gd, d * 16384 + a * 256, none)
  | .pmovPreds gd d => (0x21, gd, d * 16384 + 1, none)
  | .pmovFromG gd d a => (0x21, gd, d * 16384 + a * 256 + 2, none)
  | .jmovToJ gd d a => (0x22, gd, d * 16384 + a * 256, none)
  | .jmovToG gd d a => (0x22, gd, d * 16384 + a * 256 + 1, none)
  | .emovToE gd d a => (0x23, gd, d * 16384 + a * 256, none)
  | .emovToG gd d a => (0x23, gd, d * 16384 + a * 256 + 1, none)
  | .emovE gd d a => (0x23, gd, d * 16384 + a * 256 + 2, none)
  | .qset gd d a => (0x24, gd, d * 16384 + a * 256, none)
  | .qsetTid gd d a => (0x24, gd, d * 16384 + a * 256 + 1, none)
  | .qsetC gd d a b => (0x24, gd, d * 16384 + a * 256 + b * 4 + 2, none)
  | .qget gd d a => (0x25, gd, d * 16384 + a * 256, none)
  | .qgetTid gd d a => (0x25, gd, d * 16384 + a * 256 + 1, none)
  | .qgetC gd d a b => (0x25, gd, d * 16384 + a * 256 + b * 4 + 2, none)
  | .qadd gd d a c s x => (0x26, gd, d * 16384 + a * 256 + c * 64 + s, x)
  | .qmov gd d a => (0x27, gd, d * 16384 + a * 256, none)
  | .fadd gd d a b f x => (0x28, gd, d * 16384 + a * 256 + b * 4 + f, x)
  | .fsub gd d a b f x => (0x29, gd, d * 16384 + a * 256 + b * 4 + f, x)
  | .fmul gd d a b f x => (0x2A, gd, d * 16384 + a * 256 + b * 4 + f, x)
  | .fma gd d a b f c rm => (0x2B, gd, d * 16384 + a * 256 + b * 4 + f, some (c * 4 + rm))
  | .fdiv gd d a b f x => (0x2C, gd, d * 16384 + a * 256 + b * 4 + f, x)
  | .fsqrt gd d a f x => (0x2D, gd, d * 16384 + a * 256 + f, x)
  | .fmin gd d a b f => (0x2E, gd, d * 16384 + a * 256 + b * 4 + f, none)
  | .fmax gd d a b f => (0x2F, gd, d * 16384 + a * 256 + b * 4 + f, none)
  | .fcmp gd d a b f cond => (0x30, gd, d * 16384 + a * 256 + b * 4 + f, some (cond))
  | .fcvtFp gd d a src dst rm => (0x31, gd, d * 16384 + a * 256, some (src * 256 + dst * 16 + rm))
  | .fcvtFromI64 gd d a f dst rm => (0x31, gd, d * 16384 + a * 256 + 1, some (f * 33554432 + dst * 16 + rm))
  | .fcvtToI64 gd d a f src rm => (0x31, gd, d * 16384 + a * 256 + 2, some (f * 33554432 + src * 256 + rm))
  | .fcvtToU64 gd d a f src rm => (0x31, gd, d * 16384 + a * 256 + 3, some (f * 33554432 + src * 256 + rm))
  | .fclass gd d a f => (0x32, gd, d * 16384 + a * 256 + f, none)
  | .zchk gd d a => (0x33, gd, d * 16384 + a * 256, none)
  | .zchkM gd d a b => (0x33, gd, d * 16384 + a * 256 + b * 4 + 1, none)
  | _ => (0, ⟨0, 0⟩, 0, none)

/-- Opcode, guard, bits 19:0 and extension word of a V class instruction. -/
def fieldsV (i : Instr) : Nat × Guard × Nat × Option Nat :=
  match i with
  | .vadd gd v => (0x01, gd, vopLow v, v.x.map fun _ => vopExt v)
  | .vsub gd v => (0x02, gd, vopLow v, v.x.map fun _ => vopExt v)
  | .vmul gd v => (0x03, gd, vopLow v, v.x.map fun _ => vopExt v)
  | .vfma gd v => (0x04, gd, vopLow v, v.x.map fun _ => vopExt v)
  | .vmin gd v => (0x05, gd, vopLow v, v.x.map fun _ => vopExt v)
  | .vmax gd v => (0x06, gd, vopLow v, v.x.map fun _ => vopExt v)
  | .vabs gd v => (0x07, gd, vopLow v, v.x.map fun _ => vopExt v)
  | .vneg gd v => (0x08, gd, vopLow v, v.x.map fun _ => vopExt v)
  | .vand gd v => (0x09, gd, vopLow v, v.x.map fun _ => vopExt v)
  | .vor gd v => (0x0A, gd, vopLow v, v.x.map fun _ => vopExt v)
  | .vxor gd v => (0x0B, gd, vopLow v, v.x.map fun _ => vopExt v)
  | .vshl gd v => (0x0C, gd, vopLow v, v.x.map fun _ => vopExt v)
  | .vshr gd v => (0x0D, gd, vopLow v, v.x.map fun _ => vopExt v)
  | .vcmp gd v => (0x0E, gd, vopLow v, v.x.map fun _ => vopExt v)
  | .vsel gd v => (0x0F, gd, vopLow v, v.x.map fun _ => vopExt v)
  | .vperm gd v => (0x10, gd, vopLow v, v.x.map fun _ => vopExt v)
  | .vslide gd v => (0x11, gd, vopLow v, v.x.map fun _ => vopExt v)
  | .vpack gd v => (0x12, gd, vopLow v, v.x.map fun _ => vopExt v)
  | .vunpk gd v => (0x13, gd, vopLow v, v.x.map fun _ => vopExt v)
  | .vbcast gd v => (0x14, gd, vopLow v, v.x.map fun _ => vopExt v)
  | .vext gd v => (0x15, gd, vopLow v, v.x.map fun _ => vopExt v)
  | .vcvt gd v => (0x16, gd, vopLow v, v.x.map fun _ => vopExt v)
  | .vqnt gd v => (0x17, gd, vopLow v, v.x.map fun _ => vopExt v)
  | .vdq gd v => (0x18, gd, vopLow v, v.x.map fun _ => vopExt v)
  | .vamax gd v => (0x19, gd, vopLow v, v.x.map fun _ => vopExt v)
  | .vspec gd v => (0x1A, gd, vopLow v, v.x.map fun _ => vopExt v)
  | .vred gd v => (0x1B, gd, vopLow v, v.x.map fun _ => vopExt v)
  | .vscan gd v => (0x1C, gd, vopLow v, v.x.map fun _ => vopExt v)
  | .vmatch gd v => (0x1D, gd, vopLow v, v.x.map fun _ => vopExt v)
  | .klog gd v => (0x1E, gd, vopLow v, v.x.map fun _ => vopExt v)
  | .kmov gd v => (0x1F, gd, vopLow v, v.x.map fun _ => vopExt v)
  | .vmov gd v => (0x20, gd, vopLow v, v.x.map fun _ => vopExt v)
  | .idle gd => (0x3F, gd, 0, none)
  | _ => (0, ⟨0, 0⟩, 0, none)

/-- Opcode, guard, bits 19:0 and extension word of a M class instruction. -/
def fieldsM (i : Instr) : Nat × Guard × Nat × Option Nat :=
  match i with
  | .mma gd e d qa qb sa ta tb z kb0 kbn pa pb => (0x01, gd, edgeLow e, some (e.c2 * 33554432 + d * 4194304 + qa * 262144 + qb * 16384 + sa * 8192 + ta * 4096 + tb * 2048 + z * 1024 + kb0 * 64 + kbn * 4 + pa * 2 + pb))
  | .mzero gd e mask => (0x02, gd, edgeLow e, some (e.c2 * 33554432 + mask * 131072))
  | .mlda gd e d q t part => (0x03, gd, edgeLow e, some (e.c2 * 33554432 + d * 4194304 + q * 262144 + t * 131072 + part * 16384))
  | .msta gd e d q t part rm dist => (0x04, gd, edgeLow e, some (e.c2 * 33554432 + d * 4194304 + q * 262144 + t * 131072 + part * 16384 + rm * 4096 + dist * 512))
  | .msclFill gd e d gs => (0x05, gd, edgeLow e, some (e.c2 * 33554432 + d * 4194304 + gs * 65536))
  | .msclDiag gd e d gs => (0x05, gd, edgeLow e, some (e.c2 * 33554432 + d * 4194304 + gs * 65536 + 16384))
  | .msclMul gd e d gs => (0x05, gd, edgeLow e, some (e.c2 * 33554432 + d * 4194304 + gs * 65536 + 32768))
  | .mtriLi gd e d gs one => (0x06, gd, edgeLow e, some (e.c2 * 33554432 + d * 4194304 + gs * 65536 + one * 8192))
  | .mtriLs gd e d gs one => (0x06, gd, edgeLow e, some (e.c2 * 33554432 + d * 4194304 + gs * 65536 + one * 8192 + 16384))
  | .mtriUi gd e d gs one => (0x06, gd, edgeLow e, some (e.c2 * 33554432 + d * 4194304 + gs * 65536 + one * 8192 + 32768))
  | .mtriUs gd e d gs one => (0x06, gd, edgeLow e, some (e.c2 * 33554432 + d * 4194304 + gs * 65536 + one * 8192 + 49152))
  | .tbuild gd e z q p kb mode w => (0x10, gd, edgeLow e, some (e.c2 * 33554432 + z * 2097152 + q * 131072 + p * 65536 + kb * 4096 + mode * 2048 + w * 512))
  | .tlook gd e d z q wkb cst cnm1 pm => (0x11, gd, edgeLow e, some (e.c2 * 33554432 + d * 4194304 + z * 262144 + q * 16384 + wkb * 256 + cst * 64 + cnm1 * 16 + pm))
  | .tlookR gd e d z q wkb cst cnm1 pm => (0x11, gd, edgeLow e, some (e.c2 * 33554432 + d * 4194304 + z * 262144 + q * 16384 + wkb * 256 + cst * 64 + cnm1 * 16 + pm + 8192))
  | .zsave gd e z f q gs => (0x12, gd, edgeLow e, some (e.c2 * 33554432 + z * 2097152 + f * 1048576 + q * 65536 + gs * 1024))
  | .zload gd e z f q gs => (0x13, gd, edgeLow e, some (e.c2 * 33554432 + z * 2097152 + f * 1048576 + q * 65536 + gs * 1024))
  | .zinv gd e mask => (0x14, gd, edgeLow e, some (e.c2 * 33554432 + mask * 512))
  | .cbld gd e w gs cnt => (0x15, gd, edgeLow e, some (e.c2 * 33554432 + w * 8388608 + gs * 131072 + cnt * 4096))
  | _ => (0, ⟨0, 0⟩, 0, none)

/-- Opcode, guard, bits 19:0 and extension word of a X class instruction. -/
def fieldsX (i : Instr) : Nat × Guard × Nat × Option Nat :=
  match i with
  | .tfetch gd e q hint => (0x01, gd, edgeLow e, some (e.c2 * 33554432 + q * 2097152 + hint * 131072))
  | .thint gd e q set clr => (0x02, gd, edgeLow e, some (e.c2 * 33554432 + q * 2097152 + set * 131072 + clr * 8192))
  | .tinv gd e q ax nm1 => (0x03, gd, edgeLow e, some (e.c2 * 33554432 + q * 2097152 + ax * 524288 + nm1 * 2048))
  | .tcopy gd e qs qd t => (0x04, gd, edgeLow e, some (e.c2 * 33554432 + qs * 2097152 + qd * 131072 + t * 32768))
  | .tcopyMem gd e qs t gs => (0x04, gd, edgeLow e, some (e.c2 * 33554432 + qs * 2097152 + t * 32768 + gs * 512 + 65536))
  | .tred gd e qs qd opr => (0x05, gd, edgeLow e, some (e.c2 * 33554432 + qs * 2097152 + qd * 131072 + opr * 16384))
  | .tgath gd e qd qs gs nm1 => (0x06, gd, edgeLow e, some (e.c2 * 33554432 + qd * 2097152 + qs * 131072 + gs * 2048 + nm1 * 8))
  | .tscat gd e qs qd gs nm1 => (0x07, gd, edgeLow e, some (e.c2 * 33554432 + qs * 2097152 + qd * 131072 + gs * 2048 + nm1 * 8))
  | .tacq gd e q ver => (0x08, gd, edgeLow e, some (e.c2 * 33554432 + q * 2097152 + ver * 32))
  | .trel gd e q => (0x09, gd, edgeLow e, some (e.c2 * 33554432 + q * 2097152))
  | .itin gd e s ix dm1 => (0x0A, gd, edgeLow e, some (e.c2 * 33554432 + s * 8388608 + ix * 2048 + dm1 * 32))
  | .itstep gd e s q => (0x0B, gd, edgeLow e, some (e.c2 * 33554432 + s * 8388608 + q * 524288))
  | .chsend gd e ch q => (0x0C, gd, edgeLow e, some (e.c2 * 33554432 + ch * 2097152 + q * 131072))
  | .chrecv gd e ch q => (0x0D, gd, edgeLow e, some (e.c2 * 33554432 + ch * 2097152 + q * 131072))
  | .desc gd e gt ga => (0x0E, gd, edgeLow e, some (e.c2 * 33554432 + gt * 524288 + ga * 8192))
  | .rld gd e d ga => (0x10, gd, edgeLow e, some (e.c2 * 33554432 + d * 524288 + ga * 8192))
  | .rst gd e ga gs => (0x11, gd, edgeLow e, some (e.c2 * 33554432 + ga * 8192 + gs * 128))
  | .rfaa gd e d ga gs => (0x12, gd, edgeLow e, some (e.c2 * 33554432 + d * 524288 + ga * 8192 + gs * 128))
  | .rtdec gd e ga => (0x13, gd, edgeLow e, some (e.c2 * 33554432 + ga * 8192))
  | .rfence gd e ga => (0x14, gd, edgeLow e, some (e.c2 * 33554432 + ga * 8192))
  | .rfenceFStore gd e ga gs => (0x14, gd, edgeLow e, some (e.c2 * 33554432 + ga * 8192 + gs * 128 + 32))
  | .rfenceFDec gd e ga => (0x14, gd, edgeLow e, some (e.c2 * 33554432 + ga * 8192 + 64))
  | .tspawn gd e ga => (0x18, gd, edgeLow e, some (e.c2 * 33554432 + ga * 8192))
  | .tdec gd e ga => (0x19, gd, edgeLow e, some (e.c2 * 33554432 + ga * 8192))
  | .tdecb gd e ga => (0x1A, gd, edgeLow e, some (e.c2 * 33554432 + ga * 8192))
  | .tdecbArm gd e ga gs => (0x1A, gd, edgeLow e, some (e.c2 * 33554432 + ga * 8192 + gs * 128 + 64))
  | _ => (0, ⟨0, 0⟩, 0, none)

/-- Opcode, guard, bits 19:0 and extension word of a L class instruction. -/
def fieldsL (i : Instr) : Nat × Guard × Nat × Option Nat :=
  match i with
  | .ldB gd t b d x => (0x01, gd, t * 16384 + b * 256 + d, x)
  | .ldBs gd t b d x => (0x02, gd, t * 16384 + b * 256 + d, x)
  | .ldH gd t b d x => (0x03, gd, t * 16384 + b * 256 + d, x)
  | .ldHs gd t b d x => (0x04, gd, t * 16384 + b * 256 + d, x)
  | .ldW gd t b d x => (0x05, gd, t * 16384 + b * 256 + d, x)
  | .ldWs gd t b d x => (0x06, gd, t * 16384 + b * 256 + d, x)
  | .ldD gd t b d x => (0x07, gd, t * 16384 + b * 256 + d, x)
  | .stB gd t b d x => (0x08, gd, t * 16384 + b * 256 + d, x)
  | .stH gd t b d x => (0x09, gd, t * 16384 + b * 256 + d, x)
  | .stW gd t b d x => (0x0A, gd, t * 16384 + b * 256 + d, x)
  | .stD gd t b d x => (0x0B, gd, t * 16384 + b * 256 + d, x)
  | .ldv gd t b d x => (0x0C, gd, t * 16384 + b * 256 + d, x)
  | .stv gd t b d x => (0x0D, gd, t * 16384 + b * 256 + d, x)
  | .gath gd t b vx k es sc => (0x0E, gd, t * 16384 + b * 256, some (vx * 67108864 + k * 8388608 + es * 2097152 + sc * 1048576))
  | .scat gd t b vx k es sc => (0x0F, gd, t * 16384 + b * 256, some (vx * 67108864 + k * 8388608 + es * 2097152 + sc * 1048576))
  | .ldx gd t b d x => (0x10, gd, t * 16384 + b * 256 + d, x)
  | .ldxinv gd b d x => (0x11, gd, b * 256 + d, x)
  | .ldxinvAll gd => (0x11, gd, 16384, none)
  | .sld gd t b d x => (0x12, gd, t * 16384 + b * 256 + d, x)
  | .pref gd b d x => (0x13, gd, b * 256 + d, x)
  | .prefLlc gd b d x => (0x13, gd, b * 256 + d + 16384, x)
  | .acq gd t b d x => (0x14, gd, t * 16384 + b * 256 + d, x)
  | .rel gd t b d x => (0x15, gd, t * 16384 + b * 256 + d, x)
  | .trd gd t b d x => (0x16, gd, t * 16384 + b * 256 + d, x)
  | .twr gd t b d x => (0x17, gd, t * 16384 + b * 256 + d, x)
  | .amo gd t b d opc sz s => (0x18, gd, t * 16384 + b * 256 + d, some (opc * 134217728 + sz * 33554432 + s * 524288))
  | .cas gd t b d sz s c => (0x19, gd, t * 16384 + b * 256 + d, some (sz * 33554432 + s * 524288 + c * 8192))
  | .idleL gd => (0x3F, gd, 0, none)
  | _ => (0, ⟨0, 0⟩, 0, none)

/-- Opcode, guard, bits 19:0 and extension word of an instruction. -/
def fields (i : Instr) : Nat × Guard × Nat × Option Nat :=
  match i.cls with
  | some .c => i.fieldsC
  | some .i => i.fieldsI
  | some .v => i.fieldsV
  | some .m => i.fieldsM
  | some .x => i.fieldsX
  | some .l => i.fieldsL
  | none => (0, ⟨0, 0⟩, 0, none)
end Instr

/-- The slot word and the extension word of an instruction (R62). -/
def encode (i : Instr) : Nat × Option Nat :=
  let f := i.fields
  ((if f.2.2.2.isSome then 2 ^ 30 else 0) + f.1 * 2 ^ 24 + f.2.1.gp * 2 ^ 21 + f.2.1.gn * 2 ^ 20 + f.2.2.1, f.2.2.2)

/-- The guard of a slot instruction. -/
def Instr.guard (i : Instr) : Guard := i.fields.2.1
/-- The words of a slot instruction. -/
def Instr.nwords (i : Instr) : Nat := if i.fields.2.2.2.isSome then 2 else 1
/-- The slot an instruction takes when it stands alone in its bundle: the first of its class (R90). -/
def Instr.slot (i : Instr) : Slot :=
  match i.cls with
  | some .c => .c | some .i => .i0 | some .v => .v0 | some .m => .m | some .x => .x | some .l => .l | none => .c

/-- The classes the same word is tried in when no slot position says which: I, V, L, C, M, X. -/
def tableOrder : List SlotClass := [.i, .v, .l, .c, .m, .x]

/-- The instruction the decoder reads from a word numbered as spec/opcode_table.json numbers it: bits 31:0 the slot word,
bits 63:32 the extension word when bit 30 is set. A slot word says nothing of its class, which its position in a bundle fixes
(R60): the classes are tried in tableOrder. -/
def decodeTableWord (_nbits w : Nat) : Option Instr :=
  tableOrder.findSome? fun cl =>
    match decodeSlot cl (w % 2 ^ 32) (if fld w 30 1 = 1 then some (fld w 32 32) else none) with
    | .ok i => some i
    | .error _ => none

end Sys2Proof
end

