-- ==== Sys2Proof/Machine/State.lean ====
section
/-! DEFINITION. The state of the TK-880 as plain data: cores, clusters, homes, the task machine, the host side. A table keyed by
numbers (SMap) lists only what differs from its default; the default of each table is named where the table is read
(Machine/Ops.lean). -/

namespace Sys2Proof.Machine

/-- Why the machine stops. -/
inductive Fault
  /-- Raised by the meaning of a slot instruction, or of EMPTY_BUNDLE, when core State.cur runs no bundle: there is nothing to execute. Safe. -/
  | noTask
  deriving DecidableEq, Repr

/-- Why an instruction has no meaning here. -/
inductive Refusal
  /-- The instruction has no meaning yet; answered by an arm of exec alone. Safe. -/
  | notModelled (mnemonic : String)
  deriving DecidableEq, Repr

/-- A token's state (R109). -/
inductive TokSt
  | free | pending | done | error
  deriving DecidableEq, Repr

/-- A fault: its code (R114), cause (R295) and address. -/
structure FaultInfo where
  code : Nat
  cause : Nat
  addr : Nat
  deriving DecidableEq, Repr

/-- The fault a failed command leaves on its token (R296, R297): the token that failed first and whether it was passed on. -/
structure CmdFault where
  flt : FaultInfo
  orig : Nat
  chn : Bool
  deriving DecidableEq, Repr

/-- A token register: its state, the fault of an ERROR token, and the command that produces it last (R249). -/
structure Tok where
  st : TokSt
  flt : Option CmdFault
  latest : Option Nat
  /-- It has been waited on or consumed since it was last produced (R23). -/
  used : Bool
  deriving DecidableEq, Repr

/-- A register a result goes to; hb names the handler bank of g56 to g63 and p6 to p7 (R100). -/
inductive Dest
  | g (n : Nat) (hb : Bool)
  | p (n : Nat) (hb : Bool)
  | v (n : Nat)
  | k (n : Nat)
  | q (n : Nat)
  | e (n : Nat)
  | j (n : Nat)
  deriving DecidableEq, Repr

/-- A result in flight (R78): dest, or of a vector only the bits of mask, receives val when left issue steps have passed. -/
structure Fly where
  dest : Dest
  val : Nat
  mask : Option Nat
  left : Nat
  deriving DecidableEq, Repr

/-- Where one byte of a load's value comes from: bound already (an L0 hit, an answer from a home), or memory at its arrival, where gva
translates to pa (R220). -/
inductive LSrc
  | known (b : Byte)
  | mem (pa gva : Nat)
  deriving DecidableEq, Repr

/-- An interlocked load (R80). Its bytes, lowest first, become the value of dest under mask when the data arrive; sx is the number
of bytes to sign-extend from, or 0; seq orders it among the core's accesses (R236). ready is false while an ACQ (R233) or a
returning atomic (R267) waits for its answer; acq says it is an ACQ. -/
structure PLoad where
  dest : Dest
  src : List LSrc
  sx : Nat
  mask : Option Nat
  seq : Nat
  ready : Bool
  acq : Bool
  deriving DecidableEq, Repr

/-- How far a store has come (R235): accepted by its core's memory port, as number n by the cluster's, or, bound for host memory, as
number m by the host port too. -/
inductive PortAt
  | core
  | cluster (n : Nat)
  | host (n m : Nat)
  deriving DecidableEq, Repr

/-- An access of a core accepted by its memory port and not yet applied at its point of coherence (R235), numbered in program order: a
store of bytes, or an atomic of n bytes (R267; opc 16 is CAS). Its guest virtual address gva translates to pa (R220). A returning atomic
answers the load entry of the same number; own is its partition, plus 256 once its task has gone (R417). -/
inductive MemOp
  | store (seq pa gva : Nat) (bytes : List Byte) (port : PortAt)
  | amo (seq pa gva n opc x cmp : Nat) (ret : Bool) (own : Nat)
  deriving DecidableEq, Repr

/-- A tile's name (R192); coord holds C3 to C0 in the low 44 bits as in R103. -/
structure Tile where
  part : Nat
  tid : Nat
  coord : Nat
  deriving DecidableEq, Repr

/-- The state of a table register's record (R107). -/
inductive ZSt
  | empty | valid | stale
  deriving DecidableEq, Repr

/-- A table register's validity record (R107). -/
structure ZRec where
  tid : Nat
  coord : Nat
  ver : Nat
  kblk : Nat
  mode : Nat
  cb : Nat
  st : ZSt
  deriving DecidableEq, Repr

/-- Where an engine command stands (R175, R247, R32). -/
inductive CmdSt
  | queued | running | parked
  deriving DecidableEq, Repr

/-- Bits of a tile that another agent writes while a running command could read them (R177): len bits from frame bit pos on, free values
numbered from base. -/
structure Torn where
  tile : Tile
  pos : Nat
  len : Nat
  base : Nat
  deriving DecidableEq, Repr

/-- An engine command: its instruction, the register operands read at commit (R76), the commands it waits for (the tokens it
consumes and the implicit edge of R249), the bank of a g destination (R100), and what its run has gathered. -/
structure Cmd where
  /-- Its number in the order of enqueuing in the device. -/
  id : Nat
  ins : Instr
  args : List Nat
  tp : Nat
  deps : List Nat
  hb : Bool
  part : Nat
  launch : Nat
  repro : Bool
  st : CmdSt
  /-- Tiles it holds references on (R199), and those of them it writes. -/
  tiles : List Tile
  wtiles : List Tile
  /-- When it was parked, and whether frames are allocated for it (R199). -/
  parkedAt : Nat
  alloc : Bool
  /-- The PTIME at which its fabric request left (R395). -/
  sentAt : Nat
  /-- A failure to complete with. -/
  fail : Option CmdFault
  /-- What its start has recorded, used at completion. -/
  res : List Nat
  /-- Its answer from a home, a device or memory has come. -/
  ready : Bool
  /-- The version and bytes of each tile it names, as it started (R177, R242), and what has changed there since. -/
  snap : List (Tile × Nat × SMap Byte)
  torn : List Torn
  /-- The descriptor images of the identifiers it names as it started (R259), and the bits of each tile it will write, as position and length (R177). -/
  imgs : List (Nat × List Byte)
  wr : List (Tile × List (Nat × Nat))
  /-- The save area of a detached command (R306). -/
  save : Option Nat
  deriving DecidableEq, Repr

/-- An armed itinerary slot (R254). -/
structure Itin where
  ix : Nat
  pos : Nat
  depth : Nat
  deriving DecidableEq, Repr

/-- State of an L0 line (R223). -/
inductive L0St
  | invalid | clean | dirty | ro
  deriving DecidableEq, Repr

/-- An L0 line (R223); its key is 4 * set + way, and an unlisted line is INVALID with rank way. -/
structure L0Line where
  tag : Nat
  st : L0St
  lru : Nat
  wmask : Nat
  data : List Byte
  deriving DecidableEq, Repr

/-- The register files of a core (R97); a keys tile * 4096 + row * 64 + column, zv keys register * 8192 + entry, w keys
register * 64 + entry * 4 + value. -/
structure Regs where
  g : SMap W64
  gh : SMap W64
  p : SMap Bool
  ph : SMap Bool
  v : SMap V1024
  k : SMap K128
  q : SMap W64
  e : SMap W32
  j : SMap W32
  a : SMap W32
  zv : SMap W32
  zr : SMap ZRec
  w : SMap W32
  wcnt : SMap Nat
  /-- What an unlisted g, v, k, q, e, j or a register holds: zero, or from some n on, free values (R20, R117). -/
  undef : Option Nat
  deriving DecidableEq, Repr

/-- The control and status registers of a core (R110). -/
structure Csr where
  taskid : W32
  partid : BitVec 8
  status : W32
  epc : W64
  fltmask : BitVec 8
  repix : W32
  fltcode : W32
  fltaddr : W64
  tvec : W64
  hscr : W64
  fpstat : W32
  detmode : W32
  safeix : W32
  safedist : W32
  stickv0 : W64
  stickv1 : W64
  stickl : W64
  lcnt : W32
  lbeg : W64
  lend : W64
  deriving DecidableEq, Repr

/-- What a core is doing. -/
inductive Run
  | idle
  /-- Running a task's bundles. -/
  | task
  /-- In step 1 of DONE (R23, R143). -/
  | doneWait
  /-- DONE's step 1 has ended; steps 2 to 4 follow (R143). -/
  | ending
  /-- Aborted: waiting until no token is PENDING (R294). -/
  | aborting
  /-- Reserved for a gang member (R262). -/
  | reserved
  /-- A save is under way (R306): full for a forced save, don when the task stands in step 1 of DONE, told once it has reported an empty
  free list (R308). -/
  | saving (full don told : Bool)
  /-- A resumed task whose withdrawn channel commands cmds have still to be enqueued again (R262, R309); don as of its save. -/
  | resuming (don : Bool) (cmds : List (Instr × Nat))
  /-- A Sage discard: it waits for its started commands (R321). -/
  | discarding
  deriving DecidableEq, Repr

/-- How the next bundle's address was reached: by sequential fetch, as a transfer's target (R70), or as the LEND bundle that a LOOP
with count zero skips (R140). -/
inductive Via
  | seq | target | skip
  deriving DecidableEq, Repr

/-- Where control goes when the running iteration commits; none while no slot has said. -/
inductive Xfer
  | none
  /-- A transfer to target; CALL and CALLI write the next bundle's address to link (R138). -/
  | jump (target : Nat) (link : Option Dest)
  /-- LOOP or LOOPI with count n and the LEND bundle at lend (R140). -/
  | loop (n lend : Nat)
  | trap (code : Nat)
  | eret
  | done
  | safe
  /-- The bundle wrote LCNT: a loop end keeps that value (R118). -/
  | keepLcnt
  deriving DecidableEq, Repr

/-- The task a core runs: its record, launch, code object, q0 at entry (R381), and the partition of the core's last task (R21). -/
structure TaskCtx where
  recPA : Nat
  recGVA : Nat
  launch : Nat
  codeh : Nat
  q0 : W64
  lastPart : Option Nat
  disc : Bool
  cost : Nat
  taskix : Nat
  deriving DecidableEq, Repr

/-- The fault an abort reports (R294, R300). -/
structure AbortInfo where
  code : Nat
  detail : Nat
  addr : Nat
  faddr : Nat
  deriving DecidableEq, Repr

/-- A host-memory atomic that a bundle of the core stalls on (R271): asked for, done with its old value, or given up. -/
inductive HostAt
  | none
  | asked (pa n opc x cmp : Nat)
  | done (old : Nat)
  | failed
  deriving DecidableEq, Repr

/-- One core (R14). -/
structure Core where
  run : Run
  pc : Nat
  via : Via
  iter : Nat
  regs : Regs
  csr : Csr
  toks : SMap Tok
  fly : List Fly
  loads : List PLoad
  mq : List MemOp
  cmds : List Cmd
  itin : SMap Itin
  pins : List Tile
  /-- Those of them that a resumption has still to fetch (R201). -/
  wants : List Tile
  l0 : SMap L0Line
  task : TaskCtx
  preempt : Bool
  preCyc : Nat
  hCyc : Nat
  tCyc : Nat
  xfer : Xfer
  abort : Option AbortInfo
  /-- Pending loads must complete before the next bundle issues (R77). -/
  settle : Bool
  /-- The iteration stalls, its faults and deliveries already decided (R418). -/
  stalled : Bool
  /-- FPSTAT as the stalled iteration began, which its CSRR reads (R150). -/
  fpBegan : W32
  /-- The order number of the core's next memory access (R236). -/
  nextSeq : Nat
  /-- The tile a stalled TRD or TWR waits for, and the fault of its fill path (R234). -/
  tcWait : Option Tile
  tcFlt : Option FaultInfo
  hostAt : HostAt
  deriving DecidableEq, Repr

/-- State of a frame (R194). -/
inductive FrSt
  | invalid | filling | clean | dirty | published | draining
  deriving DecidableEq, Repr

/-- What follows a frame's read-out (R194). -/
inductive Drain
  | none
  | victim
  | tinv
  /-- A neighbour serve: the cluster that asked, if one did, and whether its fill carries a grant (R207). -/
  | serve (dst : Option Nat) (grant : Bool)
  | grant
  | sage
  | tred
  deriving DecidableEq, Repr

/-- A frame of a tile cache (R193, R375): its key is 16 * set + way; an unlisted frame is INVALID with rank way. -/
structure Frame where
  tile : Tile
  ver : Nat
  lru : Nat
  st : FrSt
  pin : Bool
  last : Bool
  stream : Bool
  drn : Bool
  shape : Nat
  ref : Nat
  lexp : Nat
  /-- Data bytes 0 to 16,383, then the 1,024 bytes of the sidecar. -/
  data : SMap Byte
  /-- Its identifier has been redefined since it was filled (R217). -/
  redef : Bool
  why : Drain
  /-- A DRAINING frame was DIRTY (R194). -/
  wasDirty : Bool
  /-- The tile a victim is refilled for. -/
  next : Option Tile
  /-- The hints an itinerary fetch sets when its fill completes, and the core it runs for (R201 to R203). -/
  hints : Nat
  hcore : Nat
  /-- It is FILLING for an itinerary alone, whose fetch is dropped where it fails (R203). -/
  itin : Bool
  /-- The bits written since it became DIRTY, as position and length: what memory has not received (R206, R218). -/
  wrote : List (Nat × Nat)
  deriving DecidableEq, Repr

/-- A ready-queue entry (R286). -/
structure RdqE where
  raddr : Nat
  part : Nat
  prio : Nat
  held : Bool
  bcn : Nat
  epoch : Nat
  kind : Nat
  stamp : Nat
  deriving DecidableEq, Repr

/-- A full slot of a channel (R261): a tile's shape code, format, and frame bytes. -/
structure ChanSlot where
  shape : Nat
  fmt : Nat
  data : SMap Byte
  deriving DecidableEq, Repr

/-- A cluster channel's ring (R260, R261). -/
structure Chan where
  launch : Nat
  ch : Nat
  slots : Nat
  sent : Nat
  recd : Nat
  frames : List Nat
  full : SMap ChanSlot
  deriving DecidableEq, Repr

/-- One cluster (R14). -/
structure Cluster where
  frames : SMap Frame
  rdq : List RdqE
  crd : SMap Int
  ptr : Nat
  load : SMap Nat
  chans : List Chan
  deriving DecidableEq, Repr

/-- A lease at a home (R375). -/
structure Lease where
  holder : Nat
  exp : Nat
  asked : Bool
  deriving DecidableEq, Repr

/-- A home record (R205); wown 0x7F is none, 0x7E the parked owner (R310). -/
structure Home where
  ch : Nat
  tile : Tile
  rver : Nat
  loc : Nat
  ownc : Nat
  wown : Nat
  super : Bool
  leases : List Lease
  /-- Under SUPER, the bits of the tile that WOWN has written in memory (R206). -/
  wrote : List (Nat × Nat)
  deriving DecidableEq, Repr

/-- Where a decrement comes from (R281): a command of a core, a DONE's successor list, or another device. -/
inductive DecSrc
  | cmd (core id : Nat)
  | succ (core : Nat) (part : Nat) (entry : Nat) (rec : Nat) (taskid launch : Nat)
  | remote (dev : Nat)
  deriving DecidableEq, Repr

/-- A message in flight between a core, a tile cache, a home or a counter. Messages of one tile keep their order; sent is the PTIME at which
a request was sent, from which its age and its waiting time count (R209, R213, R253; log entry 86). -/
inductive Msg
  /-- A miss, with or without a grant request; nodata asks for the grant alone (R195, R206). From 128 on cl stands for device cl - 128. -/
  | fillReq (cl : Nat) (t : Tile) (grant nodata : Bool) (sent : Nat)
  /-- A serve or drain order to a cluster that holds a PUBLISHED frame (R207). -/
  | serve (owner : Nat) (t : Tile) (dst : Option Nat) (grant : Bool)
  /-- A fill's answer; without data it is a grant alone (R195). shape is that of the descriptor it was read under, redef says that the identifier
  has been redefined since (R210, R217). -/
  | fillAns (cl : Nat) (t : Tile) (ver : Nat) (grant : Bool) (lexp shape : Nat) (redef : Bool) (data : Option (SMap Byte))
  | fillFail (cl : Nat) (t : Tile) (flt : FaultInfo)
  | grantReq (cl : Nat) (t : Tile) (ver : Nat) (sent : Nat)
  | grantAns (cl : Nat) (t : Tile)
  | retryAns (cl : Nat) (t : Tile)
  | release (cl : Nat) (t : Tile) (core id : Nat) (held : Bool) (ver : Nat)
  /-- Data of a PUBLISHED frame on their way to memory (R194). -/
  | drainData (cl : Nat) (t : Tile) (shape : Nat) (redef : Bool) (ver : Nat) (data : SMap Byte) (wrote : List (Nat × Nat))
  /-- Data of a DIRTY frame on their way to memory; park gives the ownership to the parked owner (R310). -/
  | wbData (cl : Nat) (t : Tile) (shape : Nat) (redef : Bool) (ver : Nat) (data : SMap Byte) (park : Bool) (wrote : List (Nat × Nat))
  | tacq (core id : Nat) (t : Tile) (f : Nat) (sent : Nat)
  | reduce (core id : Nat) (dst : Tile) (op : Nat) (data : SMap Byte)
  | rel (core part word pa val : Nat)
  | acq (core part word pa : Nat)
  /-- A drain of a region's lines that the home has ordered from a core (R233). -/
  | drainOrder (core part word : Nat)
  | drainDone (core part word : Nat)
  | acqReply (core part word val : Nat)
  | decr (rec : Bool) (target : Nat) (part : Nat) (src : DecSrc)
  /-- Creation of a record that gva names, by a TSPAWN (R280). -/
  | create (rec gva part launch core id : Nat)
  | relMsg (cl ctr epoch : Nat)
  /-- A placement that found its ring full (R286). -/
  | ringWait (cl : Nat) (e : RdqE)
  /-- A fabric request at this device: from a command of a core here, or from device dev (R263). -/
  | fabReq (core : Option (Nat × Nat)) (dev kind off val : Nat)
  /-- A decrement of a DONE's successor list at an offset of device dev's memory (R278): for this device, or sent to another at PTIME sent and
  awaiting its reply. -/
  | fabSucc (src : DecSrc) (dev off sent : Nat)
  /-- A home on another device has asked for the lease of a tile back (R374). -/
  | leaseRecall (t : Tile)
  deriving DecidableEq, Repr

/-- Who waits for a page request's answer (R301): a fill of a tile, a write-back or drain of one, or a command. -/
inductive Waiter
  | fill (cl : Nat) (t : Tile)
  | wb (cl : Nat) (t : Tile)
  | cmd (core id : Nat)
  deriving DecidableEq, Repr

/-- A launch (R285, R381). -/
structure Launch where
  codeh : Nat
  part : Nat
  fn : Nat
  q : Nat
  tag : Nat
  live : Nat
  repro : Bool
  wit : Bool
  tvec : W64
  w : W64
  dropped : Bool
  /-- Channel endpoint tasks whose record has been created, with their clusters (R260). -/
  ends : List (Nat × Nat)
  deriving DecidableEq, Repr

/-- A task of a code object (R92). -/
structure GTask where
  entry : Nat
  cost : Nat
  tables : Nat
  tokens : Nat
  pins : Nat
  deriving DecidableEq, Repr

/-- A liveness set (R93). -/
structure LiveSet where
  g : Nat
  t : Nat
  v : Nat
  q : Nat
  e : Nat
  j : Nat
  z : Nat
  k : Nat
  a : Nat
  w : Nat
  pins : List (Nat × Nat × Nat)
  deriving DecidableEq, Repr

/-- A loaded code object (R92 to R94, R388). -/
structure Code where
  part : Nat
  base : Nat
  codeOff : Nat
  repro : Bool
  tasks : List GTask
  live : List LiveSet
  itins : List (List (Nat × Nat × Nat × Int × Nat))
  chans : List (Nat × Nat × Nat)
  regions : List (Nat × Nat × Nat)
  deriving DecidableEq, Repr

/-- A page request queue entry in use (R301): 16 * p to 16 * p + 15 are reserved for partition p, 768 and on are shared. -/
structure Prq where
  ix : Nat
  part : Nat
  stage : Nat
  page : Nat
  /-- Each with the guest virtual address that a refusal of the page reports (R302, R408). -/
  waiters : List (Waiter × Nat)
  deriving DecidableEq, Repr

/-- A partition: its partition-table entry as the 1,280 bytes of R363 and R364, keyed by offset (an unlisted byte is 0), and the
indices of its fault record queue (R298). -/
structure Part where
  tab : SMap Byte
  frqpidx : W32
  frqcidx : W32
  frqovf : W32
  deriving DecidableEq, Repr

/-- A queue control block (R387, R311); its key is 17 * function + queue, queue 16 the control ring. -/
structure Qcb where
  csz : Nat
  rsz : Nat
  vec : Nat
  dberr : Bool
  disc : Bool
  qstate : Nat
  ccidx : W32
  cpidx : W32
  cidx : W32
  pidx : W32
  cbase : Nat
  rbase : Nat
  /-- The command taken and not completed: its completion record's STATUS, FIELD, RESULT (R390). -/
  busy : Option (Nat × Nat × Nat × Nat)
  /-- A queue waiting to become STOPPED or SAVED and the QSWAP or QSTOP tag that waits with it (R312). -/
  waiting : Option Nat
  /-- The DRAINING queue is on its way to SAVED (R312). -/
  toSave : Bool
  /-- The saved list: entries with the cluster each left (R309, R320). -/
  saved : List (Nat × RdqE)
  /-- The list frames that hold the saved list of a queue a vacate has left SAVED (R320). -/
  lists : List Nat
  rem : Nat
  cal : Nat
  runN : Nat
  ent : Nat
  deriving DecidableEq, Repr

/-- A broadcast counter (R370). -/
structure Bc where
  value : W32
  mask : Nat
  epoch : Nat
  deriving DecidableEq, Repr

/-- A vacate from its posting to its RESUME (R314 to R323): queues holds the key of each queue, its choice (0 run, 1 checkpoint,
2 discard) and its snapshot state; frames the reserved frames not yet used, lists those that hold saved lists, with their queues; clusters the size of the
target's cluster set; tag that of the command, none for one of Omfin; next the PTIME of its next evaluation (R318). -/
structure Vacate where
  kind : Nat
  id : Nat
  qmask : Nat
  part : Nat
  deadline : Nat
  drop : Bool
  tag : Option Nat
  queues : List (Nat × Nat × Nat)
  frames : List Nat
  lists : List (Nat × Nat)
  clusters : Nat
  done : Bool
  next : Nat
  deriving DecidableEq, Repr

/-- A generation bump asked for (R359, R385). -/
structure Bump where
  fn : Nat
  stage : Nat
  size : Nat
  addr : Nat
  held : Bool
  deriving DecidableEq, Repr

/-- A table register in a save area (R309): staleness events of the cluster it left still reach its record. -/
structure SavedZ where
  area : Nat
  n : Nat
  cl : Nat
  part : Nat
  zr : ZRec
  deriving DecidableEq, Repr

/-- A saved task: its save area, the cluster it left, the named pins, which stay set (R306), and its cycles so far (R315). -/
structure SavedTask where
  area : Nat
  cl : Nat
  pins : List Tile
  cyc : Nat
  deriving DecidableEq, Repr

/-- A performance counter (R380). -/
structure Pmc where
  count : Nat
  ctl : W32
  deriving DecidableEq, Repr

/-- A translation a core has cached (R358 to R360): a 64 KiB guest page, its physical page, the permission bits R, W, X both stages
allow, the two generations it carries, and the PTIME of its walk. -/
structure Xl where
  core : Nat
  part : Nat
  page : Nat
  target : Nat
  perm : Nat
  gen1 : Nat
  gen2 : Nat
  walked : Nat
  deriving DecidableEq, Repr

/-- What the device has sent outside: interrupts, requests and replies. -/
inductive Out
  | msix (fn vec : Nat)
  /-- A request to device dev by a port of the device (R395). -/
  | fabric (core id dev port : Nat) (kind addr val : Nat)
  | fabricReply (dev : Nat) (val : Nat) (ok : Bool)
  | fabricFill (cl port : Nat) (t : Tile)
  /-- A home's answer to another device's fill: version, lease expiry and data (R206, R245), or none where it fails. -/
  | fillReply (dev : Nat) (t : Tile) (ans : Option (Nat × Nat × SMap Byte))
  | pri (part page entry : Nat)
  | spdm (kind : Nat) (vals : List Nat)
  | mctp (kind : Nat) (vals : List Nat)
  | leaseAsk (holder : Nat) (t : Tile)
  | leaseBack (cl : Nat) (t : Tile)
  deriving DecidableEq, Repr

/-- The device's registers outside the partitions (R384) and the lease clock unit (R372, R373). -/
structure Dev where
  owner : W64
  opreq : W32
  opcur : Nat × Nat
  opbusy : Bool
  operr : Bool
  ophold : Bool
  clerr : Bool
  therm : BitVec 16
  trip : Bool
  boot : Nat
  bootfail : Bool
  ready : Bool
  offs : Int
  lock : Bool
  inb : Bool
  inRow : Nat
  clstate : SMap Nat
  wake : SMap Nat
  genbase : Nat
  vtbase : Nat
  pffrqbase : Nat
  pffrqn : Nat
  pffrqvec : Nat
  pffrqpidx : W32
  pffrqcidx : W32
  pffrqovf : W32
  fabid : Nat
  route : SMap Nat
  ptime : W64
  sync : Nat
  /-- PTIME of the last refill of the rate buckets (R377). -/
  refilled : W64
  genres : SMap W32
  spdm : Nat
  deriving DecidableEq, Repr

/-- Which agent moves next: a core runs one bundle iteration, or an event happens. -/
inductive Choice
  | core (k : Nat)
  | event (i : Instr)
  deriving DecidableEq, Repr

structure State where
  cores : SMap Core
  clusters : SMap Cluster
  homes : List Home
  msgs : List Msg
  /-- Memory by physical address: local HBM and host memory (R221), in canonical form. -/
  mem : List Host.Cell
  /-- REC of the synchronisation words (R233), keyed by partition * 2^64 + address. -/
  recs : SMap Nat
  /-- Open write-queue entries (R269): line and partition. -/
  wq : List (Nat × Nat)
  parts : SMap Part
  bcs : SMap Bc
  launches : SMap Launch
  nextLaunch : Nat
  codes : SMap Code
  nextCode : Nat
  /-- The overflow rings (R286), keyed 256 * cluster + 4 * partition + priority. -/
  rings : SMap (List RdqE)
  /-- The gang each partition's arbiter holds: its launch and its lowest channel (R262). -/
  gangs : SMap (Option (Nat × Nat))
  /-- The guest virtual address a created record was named by, keyed by its physical address. -/
  gvas : SMap Nat
  prq : List Prq
  qcbs : SMap Qcb
  vacates : List Vacate
  savedZ : List SavedZ
  savedT : List SavedTask
  /-- The rotating pointer of each home, keyed by channel (R209). -/
  hptr : SMap Nat
  bumps : List Bump
  hist : List (Nat × Nat × Nat)
  xlats : List Xl
  /-- Host pages of 64 KiB that ATS no longer gives a partition's PASID, until a page request for them succeeds (R301, R360). -/
  absent : List (Nat × Nat)
  buckets : SMap Int
  floors : SMap (List Nat)
  pmcs : SMap Pmc
  dev : Dev
  out : List Out
  /-- The model's own fields (log entries 3, 4): the number of the next free value, the core exec acts on, the agenda. -/
  freeCtr : Nat
  /-- The number of the next stamp: it orders placements, enqueued and parked commands. -/
  clock : Nat
  cur : Nat
  agenda : List Choice
  deriving DecidableEq, Repr

def Regs.reset : Regs := ⟨[], [], [], [], [], [], [], [], [], [], [], [], [], [], none⟩
def Csr.reset : Csr := ⟨0, 0, 0, 0, 0, 0, 0, 0, 0, 0, 0, 0, 0xFFFF, 0, 0, 0, 0, 0, 0, 0⟩
def TaskCtx.reset : TaskCtx := ⟨0, 0, 0, 0, 0, none, false, 0, 0⟩
/-- A core after reset (R97, R110); no task runs. -/
def Core.reset : Core :=
  ⟨.idle, 0, .seq, 0, Regs.reset, Csr.reset, [], [], [], [], [], [], [], [], [], TaskCtx.reset, false, 0, 0, 0, .none, none, false, false, 0, 0, none, none, .none⟩
def Part.reset : Part := ⟨[], 0, 0, 0⟩
def Cluster.reset : Cluster := ⟨[], [], [], 0, [], []⟩
/-- OPREQ 0x0708_015E, 1,800 MHz at 350 mV, FABID 0x1FFF, every cluster ACTIVE (R384). -/
def Dev.reset : Dev :=
  ⟨0, 0x0708015E, (1800, 350), false, false, false, false, 0, false, 0, false, false, 0, false, false, 0, [], [], 0, 0, 0, 0, 0, 0, 0, 0,
   0x1FFF, [], 0, 0, 0, [], 0⟩

/-- The machine right after reset: every item at the value the spec gives, or at the one the assumption log names. -/
def State.reset : State :=
  { cores := [], clusters := [], homes := [], msgs := [], mem := [], recs := [], wq := [], parts := [], 
    bcs := [], launches := [], nextLaunch := 0, codes := [], nextCode := 0, rings := [], gangs := [], gvas := [], prq := [], qcbs := [],
    vacates := [], savedZ := [], savedT := [], hptr := [], bumps := [], hist := [], xlats := [], absent := [], buckets := [], floors := [], pmcs := [],
    dev := Dev.reset, out := [], freeCtr := 0, clock := 0, cur := 0, agenda := [] }

end Sys2Proof.Machine
end

