-- ==== Sys2Proof/Machine/Ops.lean ====
section
/-! DEFINITION. The named operations over the state: cores, registers and results in flight, memory, partitions, the fault record
queue, taking an exception, aborting a task and returning from the handler (spec/04, spec/12, R76 to R80). -/

namespace Sys2Proof.Machine

/-! ## Cores and the other tables -/

def State.core (s : State) (k : Nat) : Core := mget s.cores k Core.reset
def State.setCore (s : State) (k : Nat) (c : Core) : State := { s with cores := mput s.cores k c }
/-- Core k changed by f. -/
def State.updCore (s : State) (k : Nat) (f : Core → Core) : State := s.setCore k (f (s.core k))
/-- The core that exec acts on. -/
def State.me (s : State) : Core := s.core s.cur
def State.updMe (s : State) (f : Core → Core) : State := s.updCore s.cur f
def State.cluster (s : State) (k : Nat) : Cluster := mget s.clusters k Cluster.reset
def State.updCluster (s : State) (k : Nat) (f : Cluster → Cluster) : State :=
  { s with clusters := mput s.clusters k (f (s.cluster k)) }
def State.part (s : State) (p : Nat) : Part := mget s.parts p Part.reset
def State.updPart (s : State) (p : Nat) (f : Part → Part) : State := { s with parts := mput s.parts p (f (s.part p)) }
/-- The core's local number and cluster (R15). -/
def clusterOf (k : Nat) : Nat := k / 8

/-- Field of n bytes at an offset of the partition-table entry (R363). -/
def Part.fld (p : Part) (off n : Nat) : Nat := ofBytes (mgetBytes p.tab off n)
def Part.setFld (p : Part) (off n v : Nat) : Part := { p with tab := msetBytes p.tab off (toBytes n v) }
/-- The weight of a partition (R288, R376). -/
def Part.wgt (p : Part) : Nat := p.fld 0x5C 1
def Part.en (p : Part) : Bool := bitOf (p.fld 0 1) 0
def Part.s1en (p : Part) : Bool := bitOf (p.fld 0 1) 1
def Part.cenf (p : Part) : Bool := bitOf (p.fld 0 1) 2

/-! ## Registers -/

/-- In handler mode (STATUS.HMODE, R110). -/
def Core.hm (c : Core) : Bool := bitOf c.csr.status.toNat 0
/-- An unlisted register of R20 and R117: zero, or a free value numbered by file and register. -/
def Regs.dflt (r : Regs) (w off n : Nat) : BitVec w :=
  match r.undef with
  | none => 0
  | some m => freeBits w (m + off + n)
/-- g56 to g63 in handler mode are the handler bank (R100). -/
def Core.bank (c : Core) (n : Nat) : Bool := c.hm && Nat.ble 56 n
def Core.pbank (c : Core) (n : Nat) : Bool := c.hm && Nat.ble 6 n
def Core.rgIn (c : Core) (n : Nat) (hb : Bool) : W64 :=
  if n == 0 then 0 else if hb then mget c.regs.gh n 0 else mget c.regs.g n (c.regs.dflt 64 0 n)
/-- g[n] as the running mode sees it; g0 reads 0 (R97). -/
def Core.rg (c : Core) (n : Nat) : W64 := c.rgIn n (c.bank n)
/-- p[n]; p0 reads 1 (R97). -/
def Core.rp (c : Core) (n : Nat) : Bool :=
  if n == 0 then true else if c.pbank n then mget c.regs.ph n false else mget c.regs.p n false
def Core.rv (c : Core) (n : Nat) : V1024 := mget c.regs.v n (c.regs.dflt 1024 128 n)
/-- k[n]; k0 reads all ones (R97). -/
def Core.rk (c : Core) (n : Nat) : K128 := if n == 0 then BitVec.allOnes 128 else mget c.regs.k n (c.regs.dflt 128 192 n)
def Core.rq (c : Core) (n : Nat) : W64 := mget c.regs.q n (c.regs.dflt 64 224 n)
/-- e[n]; bits 31:20 read 0 (R104). -/
def Core.re (c : Core) (n : Nat) : W32 := mget c.regs.e n (BitVec.ofNat 32 ((c.regs.dflt 20 256 n).toNat))
def Core.rj (c : Core) (n : Nat) : W32 := mget c.regs.j n (c.regs.dflt 32 288 n)
/-- Element (row, col) of accumulator tile n (R97). -/
def Core.ra (c : Core) (n row col : Nat) : W32 :=
  mget c.regs.a (n * 4096 + row * 64 + col) (c.regs.dflt 32 (4096 + n * 4096 + row * 64) col)
def Core.setA (c : Core) (n row col : Nat) (x : W32) : Core :=
  { c with regs := { c.regs with a := mput c.regs.a (n * 4096 + row * 64 + col) x } }
/-- How many numbers a core's undefined registers use up of the free values. -/
def undefSpan : Nat := 65536

def Tok.free : Tok := ⟨.free, none, none, false⟩
def Core.tok (c : Core) (t : Nat) : Tok := mget c.toks t Tok.free
def Core.setTok (c : Core) (t : Nat) (x : Tok) : Core := { c with toks := mput c.toks t x }
def ZRec.empty : ZRec := ⟨0, 0, 0, 0, 0, 0, .empty⟩
def Core.zrec (c : Core) (z : Nat) : ZRec := mget c.regs.zr z ZRec.empty
def Core.setZrec (c : Core) (z : Nat) (r : ZRec) : Core := { c with regs := { c.regs with zr := mput c.regs.zr z r } }

/-- The bits of mask from new, the others from old; all of new without a mask. -/
def mergeMask (old new : Nat) (mask : Option Nat) : Nat :=
  match mask with
  | none => new
  | some m => Nat.lor (Nat.land new m) (old - Nat.land old m)

/-- A result lands in its register; writes to g0, p0 and k0 are discarded (R98). -/
def Core.write (c : Core) (d : Dest) (val : Nat) (mask : Option Nat) : Core :=
  match d with
  | .g n hb =>
    if n == 0 then c
    else if hb then { c with regs := { c.regs with gh := mput c.regs.gh n (BitVec.ofNat 64 val) } }
    else { c with regs := { c.regs with g := mput c.regs.g n (BitVec.ofNat 64 val) } }
  | .p n hb =>
    if n == 0 then c
    else if hb then { c with regs := { c.regs with ph := mput c.regs.ph n (val % 2 == 1) } }
    else { c with regs := { c.regs with p := mput c.regs.p n (val % 2 == 1) } }
  | .v n => { c with regs := { c.regs with v := mput c.regs.v n (BitVec.ofNat 1024 (mergeMask (c.rv n).toNat val mask)) } }
  | .k n =>
    if n == 0 then c else { c with regs := { c.regs with k := mput c.regs.k n (BitVec.ofNat 128 (mergeMask (c.rk n).toNat val mask)) } }
  | .q n => { c with regs := { c.regs with q := mput c.regs.q n (BitVec.ofNat 64 (mergeMask (c.rq n).toNat val mask)) } }
  | .e n => { c with regs := { c.regs with e := mput c.regs.e n (BitVec.ofNat 32 (mergeMask (c.re n).toNat val mask)) } }
  | .j n => { c with regs := { c.regs with j := mput c.regs.j n (BitVec.ofNat 32 val) } }

/-- The destination g[n] or p[n] in the running mode's bank (R100). -/
def Core.dg (c : Core) (n : Nat) : Dest := .g n (c.bank n)
def Core.dp (c : Core) (n : Nat) : Dest := .p n (c.pbank n)

/-! ## Results in flight (R78) -/

/-- A result of latency lat enters flight. -/
def Core.put (c : Core) (d : Dest) (val : Nat) (mask : Option Nat) (lat : Nat) : Core :=
  { c with fly := c.fly ++ [⟨d, val, mask, lat⟩] }
/-- The listed results land, in order. -/
def Core.landAll (c : Core) (l : List Fly) : Core := l.foldl (fun c f => c.write f.dest f.val f.mask) c
/-- One issue step passes: every result ages by one and those of age 0 land, the later-issued last (R78). -/
def Core.age (c : Core) : Core :=
  let old := c.fly.map (fun f => { f with left := f.left - 1 })
  { c.landAll (old.filter (fun f => f.left == 0)) with fly := old.filter (fun f => f.left != 0) }
/-- Every result in flight lands, in the order of its step (R77). The longest latency is 18 (R79). -/
def Core.settleFly (c : Core) : Core :=
  { ((upFrom 0 19).foldl (fun d l => d.landAll (c.fly.filter (fun f => f.left == l))) c) with fly := [] }
/-- A load's commit cancels a result in flight to its destination (R80). -/
def Core.cancel (c : Core) (d : Dest) : Core := { c with fly := c.fly.filter (fun f => f.dest != d) }
/-- A register that no interlock covers receives a value from an engine: at once, or, while an iteration stalls, which reads it as its bundle
began (R119, R148), when that iteration ends, ahead of every result that lands then. -/
def Core.arrive (c : Core) (d : Dest) (val : Nat) : Core :=
  if c.stalled then
    { c with fly := c.fly.filter (fun f => f.left == 0) ++ [⟨d, val, none, 0⟩] ++ c.fly.filter (fun f => f.left != 0) }
  else c.write d val none
/-- A register pending from a load (R80). -/
def Core.pending (c : Core) (d : Dest) : Bool := c.loads.any (fun l => l.dest == d)

/-- The core's cycle counters advance by n: task, handler (R293) and pre-emption (R305) cycles. -/
def Core.tick (c : Core) (n : Nat) : Core :=
  { c with tCyc := c.tCyc + n, hCyc := if c.hm then c.hCyc + n else c.hCyc, preCyc := if c.preempt then c.preCyc + n else c.preCyc }

/-- FPSTAT gains flags (R38). -/
def Core.orFp (c : Core) (fl : Nat) : Core :=
  { c with csr := { c.csr with fpstat := BitVec.ofNat 32 (Nat.lor c.csr.fpstat.toNat (fl % 64)) } }

/-! ## Memory -/

/-- A byte of memory; a byte nothing has written reads 0 (log entry 2). -/
def State.byte (s : State) (pa : Nat) : Byte := mget s.mem pa 0
def State.bytes (s : State) (pa n : Nat) : List Byte := mgetBytes s.mem pa n
/-- The n bytes at pa as a number, little-endian (R6). -/
def State.rdMem (s : State) (pa n : Nat) : Nat := ofBytes (s.bytes pa n)
def State.wrBytes (s : State) (pa : Nat) (l : List Byte) : State := { s with mem := msetBytes s.mem pa l }
def State.wrMem (s : State) (pa n v : Nat) : State := s.wrBytes pa (toBytes n v)
/-- Memory's canonical form: addresses rise strictly and no listed byte is 0. -/
def Memory.wf (m : List Host.Cell) : Bool := msorted m && m.all (fun x => x.2 != 0)

/-- What a stage-2 physical address names (R221). -/
inductive PaKind
  | localHbm | host | remote | none
  deriving DecidableEq, Repr
def paKind (pa : Nat) : PaKind :=
  if Nat.blt pa 0x8000000000 then .localHbm
  else if Nat.ble 0x40000000000000 pa && Nat.blt pa 0x80000000000000 then .host
  else if Nat.ble 0x80000000000000 pa && Nat.blt pa 0x90000000000000 then .remote
  else .none
/-- The LLC slice, HBM channel and home of a local byte, and its colour (R361). -/
def channelOf (pa : Nat) : Nat := Nat.xor (fld pa 8 8) (fld pa 24 8)
def colourOf (pa : Nat) : Nat := fld pa 16 6

/-- A free value is drawn: its number, and the state with the counter advanced. -/
def State.draw (s : State) (n : Nat) : State := { s with freeCtr := s.freeCtr + n }

/-! ## Faults -/

def fcIllegalBundle : Nat := 0x01
def fcIllegalOp : Nat := 0x02
def fcBranchMid : Nat := 0x03
def fcPriv : Nat := 0x04
def fcAlign : Nat := 0x05
def fcXlate : Nat := 0x06
def fcPerm : Nat := 0x07
def fcFormat : Nat := 0x08
def fcIndex : Nat := 0x09
def fcTableStale : Nat := 0x0A
def fcTableEmpty : Nat := 0x0B
def fcDescInvalid : Nat := 0x0C
def fcDescAlias : Nat := 0x0D
def fcToken : Nat := 0x0E
def fcPinLimit : Nat := 0x0F
def fcHostAtomic : Nat := 0x10
def fcLeaseTimeout : Nat := 0x11
def fcFabric : Nat := 0x12
def fcFrameExhaust : Nat := 0x13
def fcWatchdog : Nat := 0x14

/-- An interrupt leaves the device. -/
def State.emit (s : State) (o : Out) : State := { s with out := s.out ++ [o] }
/-- An MSI-X vector of a function: the physical function has 2,048, a virtual one 64 (R391). -/
def State.msix (s : State) (fn vec : Nat) : State := if Nat.blt vec (if fn == 0 then 2048 else 64) then s.emit (.msix fn vec) else s

/-- A fault record before the ring's own fields (R299). -/
structure FrqRec where
  type : Nat
  code : Nat
  detail : Nat
  part : Nat
  core : Nat
  taskid : Nat
  launch : Nat
  addr : Nat
  arg1 : Nat
  arg2 : Nat
  deriving DecidableEq, Repr

/-- The 64 bytes of a record (R299). -/
def FrqRec.bytes (r : FrqRec) (hv phase : Bool) (ptime : Nat) : List Byte :=
  toBytes 1 r.type ++ toBytes 1 r.code ++ toBytes 2 r.detail ++ toBytes 1 (hv.toNat + 2 * phase.toNat) ++ toBytes 1 r.part ++
    toBytes 2 r.core ++ toBytes 4 r.taskid ++ toBytes 4 r.launch ++ toBytes 8 r.addr ++ toBytes 8 ptime ++ toBytes 8 r.arg1 ++
    toBytes 8 r.arg2 ++ toBytes 16 0

/-- An overflow count advances and saturates (R298). -/
def satInc (x : W32) : W32 := if x == BitVec.allOnes 32 then x else x + 1

/-- A record goes to the partition's ring, or is dropped when the ring is full (R298). -/
def State.frqPost (s : State) (r : FrqRec) : State :=
  let p := s.part r.part
  let n := p.fld 0x70 1
  let used := (p.frqpidx - p.frqcidx).toNat
  if used == 2 ^ n then s.updPart r.part (fun p => { p with frqovf := satInc p.frqovf })
  else
    let ix := p.frqpidx.toNat
    let s1 := s.wrBytes (p.fld 0x68 8 + 64 * (ix % 2 ^ n)) (r.bytes false (bitOf ix n) s.dev.ptime.toNat)
    let s2 := s1.updPart r.part (fun p => { p with frqpidx := p.frqpidx + 1 })
    if used == 0 then s2.msix (p.fld 0xF0 2) (p.fld 0x72 2) else s2

/-- A record marked HV goes to the physical function's ring; while PFFRQN is 0 it is dropped (R298). -/
def State.frqPostHv (s : State) (r : FrqRec) : State :=
  let d := s.dev
  let used := (d.pffrqpidx - d.pffrqcidx).toNat
  if d.pffrqn == 0 || used == 2 ^ d.pffrqn then { s with dev := { d with pffrqovf := satInc d.pffrqovf } }
  else
    let ix := d.pffrqpidx.toNat
    let s1 := s.wrBytes (d.pffrqbase + 64 * (ix % 2 ^ d.pffrqn)) (r.bytes true (bitOf ix d.pffrqn) d.ptime.toNat)
    let s2 := { s1 with dev := { d with pffrqpidx := d.pffrqpidx + 1 } }
    if used == 0 then s2.msix 0 d.pffrqvec else s2

/-! ## Taking an exception and returning (R292, R294, R149) -/

/-- What a trap records (R76, R147, R296). -/
structure TrapRec where
  epc : Nat
  repix : Nat
  fltmask : Nat
  code : Nat
  detail : Nat
  chn : Bool
  orig : Nat
  fltaddr : Nat
  deriving DecidableEq, Repr

/-- FLTCODE as R114 lays it out. -/
def TrapRec.fltcode (t : TrapRec) : W32 := BitVec.ofNat 32 (t.code + 256 * (t.orig % 64) + 16384 * t.chn.toNat + 65536 * t.detail)

/-- The task of core k is aborted with a fault (R294): no further bundle issues and the abort completes when no token is PENDING. -/
def Core.abortWith (c : Core) (a : AbortInfo) : Core := { c with run := .aborting, abort := some a, xfer := .none, settle := false, stalled := false }

/-- Trap entry (R292): the registers are recorded, results in flight land, handler mode begins at TVEC; pending loads complete before
the handler's first bundle (R77). A task whose TVEC is 0, or that is in handler mode, is aborted with the fault instead and
none of the registers is written (R116, R292, R300). dstep marks a delivery at step 1 of DONE (R143). -/
def Core.takeTrap (c : Core) (t : TrapRec) (dstep : Bool) (stop : Nat) : Core :=
  if c.hm || c.csr.tvec == 0 then c.abortWith ⟨t.code, t.detail, stop, t.fltaddr⟩
  else
    let c := c.settleFly
    { c with
      run := .task, pc := c.csr.tvec.toNat, via := .target, iter := 0, hCyc := 2, tCyc := c.tCyc + 2,
      preCyc := if c.preempt then c.preCyc + 2 else c.preCyc, xfer := .none, settle := true, stalled := false,
      csr := { c.csr with
        epc := BitVec.ofNat 64 t.epc, repix := BitVec.ofNat 32 t.repix, fltmask := BitVec.ofNat 8 t.fltmask, fltcode := t.fltcode,
        fltaddr := BitVec.ofNat 64 t.fltaddr,
        status := BitVec.ofNat 32 (1 + 2 * dstep.toNat) } }

/-- Return from the handler (R149): HMODE is cleared, and the task goes on at EPC from iteration REPIX (R77); with DSTEP set, DSTEP is
cleared and step 1 of the task's DONE goes on instead (R143). -/
def Core.returnTrap (c : Core) : Core :=
  let dstep := bitOf c.csr.status.toNat 1
  { c with
    csr := { c.csr with status := 0 }, pc := c.csr.epc.toNat, iter := c.csr.repix.toNat, via := .target, xfer := .none,
    run := if dstep then .doneWait else .task }

end Sys2Proof.Machine
end

