-- ==== Sys2Proof/Machine/Account.lean ====
section
/-! DEFINITION. What is counted beside the work: performance counters (R380), rate buckets (R274, R377) and floor windows (R275, R378). -/

namespace Sys2Proof.Machine

/-! ## Performance counters (R380) -/

/-- The unit numbers of cores, clusters and channels; a unit's counters are 8 * unit and the seven after it. -/
def unitCluster (cl : Nat) : Nat := 768 + cl
def unitChannel (ch : Nat) : Nat := 864 + ch
/-- The counter is enabled for the event and the partition. -/
def Pmc.selects (p : Pmc) (evt part : Nat) : Bool :=
  bitOf p.ctl.toNat 31 && fld p.ctl.toNat 0 8 == evt && (!bitOf p.ctl.toNat 30 || fld p.ctl.toNat 24 6 == part)
/-- n events: the count saturates at 2^48 - 1 and sets OVF. -/
def Pmc.add (p : Pmc) (n : Nat) : Pmc :=
  if Nat.ble (2 ^ 48) (p.count + n) then ⟨2 ^ 48 - 1, BitVec.ofNat 32 (setFld p.ctl.toNat 8 1 1)⟩ else { p with count := p.count + n }
/-- n events of a unit for a partition. -/
def State.countEv (s : State) (unit evt part n : Nat) : State :=
  { s with pmcs := s.pmcs.map (fun e => if e.1 / 8 == unit && e.2.selects evt part then (e.1, e.2.add n) else e) }
/-- Events of a core for its partition. -/
def State.countCore (s : State) (k : Nat) (l : List (Nat × Nat)) : State :=
  l.foldl (fun s e => if e.2 == 0 then s else s.countEv k e.1 (s.core k).csr.partid.toNat e.2) s

/-! ## Rate buckets (R274, R377) -/

/-- The buckets of a partition: 0 the host link, 1 to 8 the Shuner ports, 16 + ch the HBM channels. -/
def bucketKey (part i : Nat) : Nat := 512 * part + i
def chanBucket (ch : Nat) : Nat := 16 + ch
/-- RATE in units of 0.25 GB/s and BURST in KiB (R363, R364). -/
def Part.rate (p : Part) (i : Nat) : Nat :=
  if i == 0 then p.fld 0xA8 4 else if Nat.blt i 16 then p.fld (0xB0 + 8 * (i - 1)) 4 else p.fld (0x100 + 4 * (i - 16) + 2) 1
def Part.burst (p : Part) (i : Nat) : Nat :=
  if i == 0 then p.fld 0xAC 4 else if Nat.blt i 16 then p.fld (0xB0 + 8 * (i - 1) + 4) 4 else p.fld (0x100 + 4 * (i - 16) + 3) 1
/-- A bucket; at BURST times 1,024 while nothing has changed it, and without a rate. -/
def State.bucket (s : State) (part i : Nat) : Int :=
  if (s.part part).rate i == 0 then (((s.part part).burst i * 1024 : Nat) : Int)
  else mget s.buckets (bucketKey part i) (((s.part part).burst i * 1024 : Nat) : Int)
def State.setBucket (s : State) (part i : Nat) (v : Int) : State :=
  { s with buckets := mset s.buckets (bucketKey part i) v (((s.part part).burst i * 1024 : Nat) : Int) }
/-- n bytes charged, down to -2^31; nothing without a rate. -/
def State.charge (s : State) (part i n : Nat) : State :=
  if (s.part part).rate i == 0 then s else s.setBucket part i (max (s.bucket part i - (n : Int)) (-(2 ^ 31)))
/-- A refill of 16 ns. -/
def State.refill (s : State) (part i : Nat) : State :=
  s.setBucket part i (min (s.bucket part i + (4 * (s.part part).rate i : Nat)) (((s.part part).burst i * 1024 : Nat) : Int))

/-! ## Floor windows (R378) and what serves an access -/

/-- n bytes of a partition served by a channel: they count in its running segment, the list's first. -/
def State.countFloor (s : State) (part ch n : Nat) : State :=
  let k := 256 * part + ch
  match mget s.floors k [] with
  | [] => { s with floors := mput s.floors k [n] }
  | c :: t => { s with floors := mput s.floors k ((c + n) :: t) }
/-- The device whose memory a remote physical address names (R263). -/
def fabricDev (pa : Nat) : Nat := fld pa 39 13
/-- The bucket of the Shuner port by which unit k's requests for a device leave: one of its route's ports (R274, R395). -/
def State.portBucket (s : State) (dev k : Nat) : Nat :=
  let ports := (upFrom 0 8).filter (bitOf (mget s.dev.route dev 0))
  1 + nth ports (k % ports.length) 0
/-- The bucket that an access to a physical address draws on. -/
def bucketOf (pa : Nat) : Nat := match paKind pa with | .localHbm => chanBucket (channelOf pa) | _ => 0
/-- An access of a partition looks its line up in the slice: what the LLC holds is its own policy, so a free bit says whether it counts as a hit
or as a miss (R206, R380). -/
def State.lookedUp (s : State) (part pa : Nat) : State :=
  if paKind pa == .localHbm then (s.countEv (unitChannel (channelOf pa)) (0x40 + Config.free s.freeCtr % 2) part 1).draw 1 else s
/-- n bytes at pa pass for a partition: charged to their bucket, and counted at their channel (R378). -/
def State.passed (s : State) (part pa n : Nat) : State :=
  let s1 := s.charge part (bucketOf pa) n
  if paKind pa == .localHbm then s1.countFloor part (channelOf pa) n else s1
/-- An access of n bytes at pa is served. -/
def State.served (s : State) (part pa n : Nat) : State := (s.passed part pa n).lookedUp part pa
/-- An access of listed bytes is served, line by line. -/
def State.servedAll (s : State) (part : Nat) (l : List Nat) : State :=
  (l.foldl (fun (r : State × Option Nat) pa =>
    (if r.2 == some (pa / 64) then r.1.passed part pa 1 else r.1.served part pa 1, some (pa / 64))) (s, none)).1
/-- A request for pa may be injected: its bucket is not negative (R274). -/
def State.mayInject (s : State) (part pa : Nat) : Bool := 0 ≤ s.bucket part (bucketOf pa)

end Sys2Proof.Machine
end

