-- ==== Sys2Proof/Machine/Xlate.lean ====
section
/-! DEFINITION. Translation in two stages, generations, page colour and the fetch of code words (R356 to R361, R69). -/

namespace Sys2Proof.Machine

/-- The permission bits of a leaf, as R, W, X from bit 0 (R357). -/
def accR : Nat := 1
def accW : Nat := 2
def accX : Nat := 4

/-- The leaf a walk finds. -/
structure Leaf where
  base : Nat
  shift : Nat
  perm : Nat
  gen : Nat
  deriving DecidableEq, Repr

/-- A walk's levels (R356): the lowest index bit, the number of index bits, whether a table entry and whether a leaf may stand. -/
def ptLevels : List (Nat × Nat × Bool × Bool) :=
  [(39, 9, true, false), (30, 9, true, true), (21, 9, true, true), (16, 5, false, true)]

/-- The walk over 48 input bits (R356, R357); rd reads a table entry, miss is the cause of a page that is not present. -/
def walkFrom (rd : Nat → Except (Nat × Nat) Nat) (miss x : Nat) :
    List (Nat × Nat × Bool × Bool) → Nat → Except (Nat × Nat) Leaf
  | [], _ => .error (fcXlate, miss)
  | (sh, n, tab, leaf) :: rest, base =>
    match rd (base + 8 * fld x sh n) with
    | .error e => .error e
    | .ok e =>
      let addr := fld e 8 48 * 256
      if !bitOf e 0 || fld e 5 3 != 0 then .error (fcXlate, miss)
      else if bitOf e 1 then
        if leaf && addr % 2 ^ sh == 0 then .ok ⟨addr, sh, fld e 2 3, fld e 56 8⟩ else .error (fcXlate, miss)
      else if tab then walkFrom rd miss x rest addr
      else .error (fcXlate, miss)

/-- The colours a local leaf covers all lie in COLS, or CENF = 0 (R361). -/
def colourOk (p : Part) (l : Leaf) : Bool :=
  !p.cenf || paKind l.base != .localHbm ||
    (upFrom 0 64).all (fun c =>
      bitOf (p.fld 0x18 8) c ||
        (if l.shift == 16 then c != colourOf l.base else if l.shift == 21 then c / 32 != fld l.base 21 1 else false))

/-- Stage 2 (R356): an IPA to its leaf. -/
def stage2 (s : State) (p : Part) (ipa : Nat) : Except (Nat × Nat) Leaf :=
  if Nat.ble (2 ^ 48) ipa then .error (fcXlate, 3)
  else
    match walkFrom (fun a => .ok (s.rdMem a 8)) 3 ipa ptLevels (p.fld 0x48 8) with
    | .error e => .error e
    | .ok l => if colourOk p l then .ok l else .error (fcPerm, 1)

def Leaf.target (l : Leaf) (x : Nat) : Nat := l.base + x % 2 ^ l.shift

/-- The memory that the leaves of a stage-2 table map, as base and size: every listed byte that could begin an entry of the table is read. -/
def State.leavesOf (s : State) : List (Nat × Nat × Bool × Bool) → Nat → List (Nat × Nat)
  | [], _ => []
  | (sh, n, tab, leaf) :: rest, base =>
    (s.mem.filter (fun c => Nat.ble base c.1 && Nat.blt c.1 (base + 8 * 2 ^ n) && (c.1 - base) % 8 == 0)).flatMap (fun c =>
      let e := s.rdMem c.1 8
      let addr := fld e 8 48 * 256
      if !bitOf e 0 || fld e 5 3 != 0 then []
      else if bitOf e 1 then (if leaf && addr % 2 ^ sh == 0 then [(addr, 2 ^ sh)] else [])
      else if tab then s.leavesOf rest addr
      else [])
/-- A table of n bytes at base lies where R384 asks: in local HBM, outside every partition's stage-2 mappings. -/
def State.tablePlaced (s : State) (base n : Nat) : Bool :=
  Nat.ble (base + n) 0x8000000000 &&
    s.parts.all (fun e => !e.2.en || (s.leavesOf ptLevels (e.2.fld 0x48 8)).all (fun l => Nat.ble (l.1 + l.2) base || Nat.ble (base + n) l.1))
/-- The generation table lies where R384 asks; where it does not, every generation read is a free value (R9; log entry 95). -/
def State.genPlaced (s : State) : Bool := s.tablePlaced s.dev.genbase 16777216
/-- The version tables lie where R384 asks; where they do not, every version read is a free value (R9; log entry 95). -/
def State.vtPlaced (s : State) : Bool := s.tablePlaced s.dev.vtbase 0x40000000
/-- The generation byte at an offset of the table. -/
def State.genByte (s : State) (off : Nat) : Nat :=
  if s.genPlaced then (s.byte (s.dev.genbase + off)).toNat else (freeBits 8 (s.freeCtr + off)).toNat
/-- GEN1 and GEN2 of a local page (R358). -/
def State.gen1 (s : State) (pa : Nat) : Nat := s.genByte (2 * (pa / 65536))
def State.gen2 (s : State) (pa : Nat) : Nat := s.genByte (2 * (pa / 65536) + 1)

/-- A stage-1 table entry: its IPA is translated by stage 2 as a read (R357). -/
def readTab1 (s : State) (p : Part) (ipa : Nat) : Except (Nat × Nat) Nat :=
  match stage2 s p ipa with
  | .error e => .error e
  | .ok l =>
    if Nat.land l.perm accR == 0 then .error (fcPerm, 1)
    else if paKind l.base == .localHbm && l.gen != s.gen2 (l.target ipa) then .error (fcXlate, 3)
    else .ok (s.rdMem (l.target ipa) 8)

/-- A translation: the physical address, the permissions both stages allow, and the generations it carries (R358). -/
structure Xr where
  pa : Nat
  perm : Nat
  gen1 : Nat
  gen2 : Nat
  deriving DecidableEq, Repr

/-- Bits 63:48 equal bit 47 (R356). -/
def canonical (gva : Nat) : Bool := fld gva 47 17 == 0 || fld gva 47 17 == 0x1FFFF

/-- Both stages of a walk (R356). -/
def walk (s : State) (p : Part) (gva : Nat) : Except (Nat × Nat) Xr :=
  let st1 : Except (Nat × Nat) Leaf :=
    if p.s1en then walkFrom (readTab1 s p) 2 (gva % 2 ^ 48) ptLevels (p.fld 0x40 8) else .ok ⟨0, 64, 7, 0⟩
  match st1 with
  | .error e => .error e
  | .ok l1 =>
    let ipa := l1.target gva
    match stage2 s p ipa with
    | .error e => .error e
    | .ok l2 => .ok ⟨l2.target ipa, Nat.land l1.perm l2.perm, l1.gen, l2.gen⟩

/-- What refuses an access at its target: for local memory, the slice's check, with the cause of the stage whose generation differs (R358);
for host memory, a page that ATS does not give the partition (R301, R360). -/
def genCheck (s : State) (part : Nat) (r : Xr) : Option Nat :=
  if paKind r.pa == .host then (if s.absent.contains (part, r.pa / 65536) then some 3 else none)
  else if paKind r.pa != .localHbm then none
  else if r.gen2 != s.gen2 r.pa then some 3
  else if (s.part part).s1en && r.gen1 != s.gen1 r.pa then some 2
  else none

/-- A unit of another device: its fills are checked against GEN2 alone (R360). -/
def remoteUnit (who : Nat) : Bool := Nat.ble 1152 who && Nat.blt who 2048
/-- The check of a unit's access. -/
def State.refuses (s : State) (who part : Nat) (r : Xr) : Option Nat :=
  genCheck s part (if remoteUnit who then { r with gen1 := s.gen1 r.pa } else r)

/-- The translation core who has cached for a page (R358); it serves for 50 µs after its walk (R359). -/
def State.cached (s : State) (who part gva : Nat) : Option Xr :=
  match s.xlats.find? (fun x => x.core == who && x.part == part && x.page == gva / 65536 && Nat.blt s.dev.ptime.toNat (x.walked + 50000)) with
  | none => none
  | some x => some ⟨x.target * 65536 + gva % 65536, x.perm, x.gen1, x.gen2⟩

/-- A guest virtual address to its translation, for an access that needs the bits acc (R356 to R358); XLATE stands before PERM (R226). A cached translation serves while
the slice accepts its generations; otherwise the page is walked again. -/
def State.xlate (s : State) (who part gva acc : Nat) : Except FaultInfo Xr :=
  let p := s.part part
  let fin (r : Xr) : Except FaultInfo Xr :=
    match s.refuses who part r with
    | some c => .error ⟨fcXlate, c, gva⟩
    | none => if Nat.land r.perm acc != acc then .error ⟨fcPerm, 1, gva⟩ else .ok r
  let fresh : Except FaultInfo Xr :=
    match walk s p gva with
    | .error (code, cause) => .error ⟨code, cause, gva⟩
    | .ok r => fin r
  if !canonical gva then .error ⟨fcXlate, 1, gva⟩
  else match s.cached who part gva with
    | none => fresh
    | some r => if (s.refuses who part r).isSome then fresh else fin r

/-- The translation of a page that an access of core who used stays cached (R358, R359); it carries the PTIME of its walk. -/
def State.keepXlate (s : State) (who part gva : Nat) : State :=
  if (s.cached who part gva).isSome then s
  else match walk s (s.part part) gva with
    | .error _ => s
    | .ok r =>
      { s with xlats := s.xlats ++ [⟨who, part, gva / 65536, r.pa / 65536, r.perm, r.gen1, r.gen2, s.dev.ptime.toNat⟩] }

/-- A cached translation the slice refuses is dropped and the page walked again (R358). -/
def State.reXlate (s : State) (who part gva : Nat) : State :=
  match s.cached who part gva with
  | none => s.keepXlate who part gva
  | some r =>
    if (s.refuses who part r).isSome then
      ({ s with xlats := s.xlats.filter (fun x => !(x.core == who && x.part == part && x.page == gva / 65536)) }.keepXlate who part gva).countEv
        (unitChannel (channelOf r.pa)) 0x46 part 1
    else s

/-- The physical address of an access of the L slot: remote memory and no target fault PERM, cause 2 (R221). -/
def State.lsTarget (s : State) (who part gva acc : Nat) : Except FaultInfo Nat :=
  match s.xlate who part gva acc with
  | .error e => .error e
  | .ok r => match paKind r.pa with
    | .localHbm => .ok r.pa
    | .host => .ok r.pa
    | _ => .error ⟨fcPerm, 2, gva⟩

/-- What an access that a slice has refused finds when its page is walked again: the physical address that gva has now, or the fault it is
refused with a second time (R220, R358). -/
def State.rebind (s : State) (part gva : Nat) : Except FaultInfo Nat :=
  match walk s (s.part part) gva with
  | .error (code, cause) => .error ⟨code, cause, gva⟩
  | .ok r => match genCheck s part r with
    | some c => .error ⟨fcXlate, c, gva⟩
    | none => match paKind r.pa with
      | .localHbm => .ok r.pa
      | .host => .ok r.pa
      | _ => .error ⟨fcPerm, 2, gva⟩

/-! ## Code words (R60, R69) -/

/-- The word at a guest virtual address, fetched with X (R357). -/
def State.fetchWord (s : State) (part a : Nat) : Except FaultInfo Nat :=
  match s.xlate s.cur part a accX with
  | .error e => .error e
  | .ok r => match paKind r.pa with
    | .localHbm => .ok (s.rdMem r.pa 4)
    | .host => .ok (s.rdMem r.pa 4)
    | _ => .error ⟨fcPerm, 2, a⟩

/-- The first address from a on whose word is not a pad word, looking at n words at most; a fetch fault ends the search (R69, R137). -/
def State.skipPads (s : State) (part : Nat) : Nat → Nat → Nat
  | 0, a => a
  | n + 1, a =>
    match s.fetchWord part a with
    | .ok w => if w == 0xFFFFFFFF then s.skipPads part n ((a + 4) % 2 ^ 64) else a
    | .error _ => a

/-- How many pad words sequential fetch looks over: every word of the address space (R69). -/
def padLimit : Nat := 2 ^ 62

/-- The words at a and on, n of them, up to the end of a's packet (R69): a fetch fault of the packet is the one at a. -/
def State.packetWords (s : State) (part : Nat) : Nat → Nat → List Nat
  | 0, _ => []
  | n + 1, a =>
    match s.fetchWord part a with
    | .ok w => w :: s.packetWords part n (a + 4)
    | .error _ => []

end Sys2Proof.Machine
end

