-- ==== Sys2Proof/Machine/L0.lean ====
section
/-! DEFINITION. The write queues of the slices (R269), the L0 data cache (R222 to R225), regions (R362), and the accesses of a core's
memory port (R235, R236). -/

namespace Sys2Proof.Machine

/-! ## Points of coherence -/

/-- An ordering point for the line of pa closes its open write-queue entries (R269). -/
def State.closeLine (s : State) (pa : Nat) : State :=
  match s.wq.find? (fun e => e.1 == pa / 64) with
  | none => s
  | some e => { s with wq := s.wq.filter (fun e => e.1 != pa / 64) }.countEv (unitChannel (channelOf pa)) 0x43 e.2 1
/-- Bytes applied at their point of coherence, an ordering point of their line (R221, R269). -/
def State.applyBytes (s : State) (pa : Nat) (l : List Byte) : State := (s.closeLine pa).wrBytes pa l

/-- The bytes of mask (bit n for byte n) of a line written at its point of coherence (R224). -/
def State.applyMasked (s : State) (pa mask : Nat) : Nat → List Byte → State
  | _, [] => s
  | i, b :: t => ((if bitOf mask i then s.wrBytes (pa + i) [b] else s).applyMasked pa mask (i + 1) t)

/-! ## The memory port (R235, R236) -/

/-- The operation covers the byte at pa. -/
def MemOp.covers (o : MemOp) (pa : Nat) : Bool :=
  match o with
  | .store _ a _ l _ => Nat.ble a pa && Nat.blt pa (a + l.length)
  | .amo _ a _ n _ _ _ _ _ => Nat.ble a pa && Nat.blt pa (a + n)
def MemOp.seq (o : MemOp) : Nat := match o with | .store n _ _ _ _ => n | .amo n _ _ _ _ _ _ _ _ => n
def MemOp.pa (o : MemOp) : Nat := match o with | .store _ a _ _ _ => a | .amo _ a _ _ _ _ _ _ _ => a
def MemOp.isAmo (o : MemOp) : Bool := match o with | .store _ _ _ _ _ => false | .amo _ _ _ _ _ _ _ _ _ => true
/-- The number at which the cluster's port accepted a store. -/
def MemOp.accepted (o : MemOp) : Option Nat :=
  match o with
  | .store _ _ _ _ (.cluster n) => some n
  | .store _ _ _ _ (.host n _) => some n
  | _ => none
/-- The number at which the host port accepted a store. -/
def MemOp.atHost (o : MemOp) : Option Nat := match o with | .store _ _ _ _ (.host _ m) => some m | _ => none
/-- The operation overlaps the bytes p names. -/
def MemOp.overlaps (o : MemOp) (p : Nat → Bool) : Bool :=
  match o with
  | .store _ a _ l _ => (upFrom a l.length).any p
  | .amo _ a _ n _ _ _ _ _ => (upFrom a n).any p

/-- The stores that the port of a cluster has accepted and that are not yet applied, with their numbers. -/
def State.inPort (s : State) (cl : Nat) : List (Nat × MemOp) :=
  (s.cores.filter (fun e => clusterOf e.1 == cl)).flatMap (fun e => e.2.mq.filterMap (fun o => o.accepted.map (fun n => (n, o))))
/-- The operation stands behind a store to bytes of it that the cluster's port accepted, before number n if one is given, and still holds. -/
def State.behind (s : State) (cl : Nat) (n : Option Nat) (o : MemOp) : Bool :=
  (s.inPort cl).any (fun x => x.2.atHost.isNone && (match n with | none => true | some n => Nat.blt x.1 n) && o.overlaps x.2.covers)

/-- The byte of a store at pa. -/
def MemOp.byteAt (o : MemOp) (pa : Nat) : Byte := match o with | .store _ a _ l _ => nth l (pa - a) 0 | .amo _ _ _ _ _ _ _ _ _ => 0
/-- The byte that the cluster's port forwards to a load that follows: its latest store's, else memory's (R235). -/
def State.clusterByte (s : State) (cl pa : Nat) : Byte :=
  match (s.inPort cl).foldl (fun (b : Option (Nat × MemOp)) x =>
      if x.2.covers pa && (match b with | none => true | some y => Nat.blt y.1 x.1) then some x else b) none with
  | some x => x.2.byteAt pa
  | none => s.byte pa

/-- The byte at pa that a load of core k numbered seq reads: that of the core's own latest earlier store before the cluster's port, or
what that port gives (R235, R236). -/
def State.portByte (s : State) (k seq pa : Nat) : Byte :=
  (s.core k).mq.foldl (fun b o =>
    if !o.isAmo && o.accepted.isNone && Nat.blt o.seq seq && o.covers pa then o.byteAt pa else b) (s.clusterByte (clusterOf k) pa)
def State.portBytes (s : State) (k seq pa : Nat) (n : Nat) : List Byte :=
  (upFrom pa n).map (fun a => s.portByte k seq a)

/-- The physical and guest virtual addresses that an access in flight still has to reach. -/
def MemOp.addrs (o : MemOp) : List (Nat × Nat) := match o with | .store _ a v _ _ => [(a, v)] | .amo _ a v _ _ _ _ _ _ => [(a, v)]
/-- The partition of an operation in the port of a core that runs in partition part, and whether its task has gone (R417). -/
def MemOp.partOf (part : Nat) (o : MemOp) : Nat := match o with | .store _ _ _ _ _ => part | .amo _ _ _ _ _ _ _ _ p => p % 256
def MemOp.orphan (o : MemOp) : Bool := match o with | .store _ _ _ _ _ => false | .amo _ _ _ _ _ _ _ _ p => Nat.ble 256 p
def PLoad.addrs (l : PLoad) : List (Nat × Nat) := l.src.filterMap (fun x => match x with | .known _ => none | .mem a v => some (a, v))
/-- The physical bytes a load has still to read. -/
def PLoad.reads (l : PLoad) (pa : Nat) : Bool :=
  l.src.any (fun x => match x with | .known _ => false | .mem a _ => a == pa)
/-- Two loads read a byte in common. -/
def PLoad.meets (l m : PLoad) : Bool := l.src.any (fun x => match x with | .known _ => false | .mem a _ => m.reads a)

/-- A REL of core k that writes a byte p names is on its way to its home. A REL waits for every earlier access of its core (R233), so each
access still to be performed is a later one. -/
def State.relOver (s : State) (k : Nat) (p : Nat → Bool) : Bool :=
  s.msgs.any (fun m => match m with | .rel k' _ _ pa _ => k' == k && (upFrom pa 8).any p | _ => false)
/-- No earlier access of the core to the bytes of o is still before the point that o goes on to (R236). -/
def Core.mayPerform (c : Core) (o : MemOp) : Bool :=
  !(c.mq.any (fun x => Nat.blt x.seq o.seq && x.accepted.isNone && o.overlaps x.covers)) &&
    !(c.loads.any (fun l => Nat.blt l.seq o.seq && o.overlaps l.reads))

/-- The same of core k in the machine: a REL of it counts as well. -/
def State.mayPerform (s : State) (k : Nat) (o : MemOp) : Bool := (s.core k).mayPerform o && !s.relOver k o.covers
/-- A load may return: its answer has come, and no earlier atomic or load of its bytes is still to be performed (R236). -/
def Core.mayReturn (c : Core) (l : PLoad) : Bool :=
  l.ready && !(c.mq.any (fun x => x.isAmo && Nat.blt x.seq l.seq && x.overlaps l.reads)) &&
    !(c.loads.any (fun x => Nat.blt x.seq l.seq && l.meets x))

/-- The same of core k in the machine: a REL of it counts as well. -/
def State.mayReturn (s : State) (k : Nat) (l : PLoad) : Bool := (s.core k).mayReturn l && !s.relOver k l.reads
/-- An atomic of the core still to be performed, or a load of it still to read, touches the line of pa: a fill of the line waits for it, so
that accesses to overlapping bytes keep their order (R236). -/
def Core.lineBusy (c : Core) (pa : Nat) : Bool :=
  let at_ := fun a => a / 64 == pa / 64
  c.mq.any (fun o => o.isAmo && o.overlaps at_) || c.loads.any (fun l => l.src.any (fun x => match x with | .known _ => false | .mem a _ => at_ a))

/-- The same of core k in the machine: a REL of it counts as well. -/
def State.lineBusy (s : State) (k pa : Nat) : Bool := (s.core k).lineBusy pa || s.relOver k (fun a => a / 64 == pa / 64)

/-- The value a load of core k returns. -/
def State.loadVal (s : State) (k : Nat) (l : PLoad) : Nat :=
  let x := ofBytes (l.src.map (fun y => match y with | .known b => b | .mem a _ => s.portByte k l.seq a))
  if l.sx == 0 then x else (BitVec.ofInt 64 (sext x (8 * l.sx))).toNat

/-- A load's data arrive: its register gets the value and is pending no longer (R80). -/
def State.arrive (s : State) (k i : Nat) : State :=
  let c := s.core k
  match c.loads.drop i with
  | [] => s
  | l :: _ => s.setCore k { c.write l.dest (s.loadVal k l) l.mask with loads := dropNth c.loads i }

/-! ## Scopes (R235) -/

/-- The core's stores and atomics are performed at cluster scope. An atomic counts when it has been applied (log entry 85). -/
def Core.clusterDone (c : Core) : Bool := c.mq.all (fun o => o.accepted.isSome)
/-- A REL of the core is on its way to its home. -/
def State.relOpen (s : State) (k : Nat) : Bool := s.msgs.any (fun m => match m with | .rel k' _ _ _ _ => k' == k | _ => false)
/-- The core's stores and atomics are performed at device scope: applied, or accepted by the host port. -/
def State.deviceDone (s : State) (k : Nat) : Bool := (s.core k).mq.all (fun o => o.atHost.isSome) && !s.relOpen k
/-- The core's stores are performed at device scope; a reduction may still be on its way (R225, R417). -/
def State.storesDone (s : State) (k : Nat) : Bool := (s.core k).mq.all (fun o => o.isAmo || o.atHost.isSome) && !s.relOpen k
/-- They are performed at system scope: applied, in host memory too. -/
def State.systemDone (s : State) (k : Nat) : Bool := (s.core k).mq.isEmpty && !s.relOpen k

/-! ## Regions (R362) -/

/-- A region of the table, with its entry number. -/
structure RegionE where
  ix : Nat
  base : Nat
  size : Nat
  word : Nat
  deriving DecidableEq, Repr

/-- Entry ix of the partition's region table, if valid. -/
def State.regionAt (s : State) (p : Part) (ix : Nat) : Option RegionE :=
  let a := p.fld 0x60 8 + 32 * ix
  if bitOf (s.byte (a + 0x18)).toNat 0 then some ⟨ix, s.rdMem a 8, s.rdMem (a + 8) 8, s.rdMem (a + 0x10) 8⟩ else none
/-- The valid entries of the region table. -/
def State.regionsOf (s : State) (part : Nat) : List RegionE := (upFrom 0 64).filterMap (s.regionAt (s.part part))
def RegionE.has (r : RegionE) (gva : Nat) : Bool := Nat.ble r.base gva && Nat.blt gva (r.base + r.size)
/-- The region holding a guest virtual address. -/
def State.regionOf (s : State) (part gva : Nat) : Option RegionE := (s.regionsOf part).find? (fun r => r.has gva)
/-- The region whose synchronisation word stands at gva. -/
def State.regionWord (s : State) (part gva : Nat) : Option RegionE := (s.regionsOf part).find? (fun r => r.word == gva)

/-! ## Lines -/

/-- Line record 4 * set + way; an unlisted one is INVALID with rank way (R223). -/
def Core.line (c : Core) (key : Nat) : L0Line := mget c.l0 key ⟨0, .invalid, key % 4, 0, []⟩
def Core.setLine (c : Core) (key : Nat) (l : L0Line) : Core := { c with l0 := mput c.l0 key l }
/-- The ways of the set of a physical address (R222). -/
def l0Ways (pa : Nat) : List Nat := upFrom (4 * fld pa 6 8) 4
/-- The way that holds the line of pa. -/
def Core.findLine (c : Core) (pa : Nat) : Option Nat :=
  (l0Ways pa).find? (fun w => (c.line w).st != .invalid && (c.line w).tag == pa / 64)
/-- A hit or fill gives the line rank 0 and moves each line of a lower rank up one (R223). -/
def Core.touchLine (c : Core) (key : Nat) : Core :=
  let r := (c.line key).lru
  (upFrom (key / 4 * 4) 4).foldl (fun c w =>
    let l := c.line w
    if w == key then c.setLine w { l with lru := 0 } else if Nat.blt l.lru r then c.setLine w { l with lru := l.lru + 1 } else c) c

/-- Write-back of a DIRTY line: the bytes of WMASK are applied, WMASK is cleared and the line is CLEAN (R224). -/
def State.writeBackLine (s : State) (k key : Nat) : State :=
  let l := (s.core k).line key
  if l.st == .dirty then
    (((s.closeLine (l.tag * 64)).served (s.core k).csr.partid.toNat (l.tag * 64) 64).applyMasked (l.tag * 64) l.wmask 0 l.data).updCore k
      (fun c => c.setLine key { l with st := .clean, wmask := 0 })
  else s
/-- A line becomes INVALID; its rank stays. -/
def Core.dropLine (c : Core) (key : Nat) : Core :=
  let l := c.line key
  c.setLine key { l with st := .invalid, wmask := 0, data := [] }

/-- The way a needed line takes (R224): the first INVALID way, else the one of highest rank. -/
def Core.victimLine (c : Core) (pa : Nat) : Nat :=
  match (l0Ways pa).find? (fun w => (c.line w).st == .invalid) with
  | some w => w
  | none => ((l0Ways pa).find? (fun w => (c.line w).lru == 3)).getD (4 * fld pa 6 8)

/-- The line of pa is brought in with a state, the victim written back first (R224). -/
def State.fillLine (s : State) (k pa : Nat) (st : L0St) : State :=
  let w := (s.core k).victimLine pa
  let s := (((s.writeBackLine k w).closeLine pa).served (s.core k).csr.partid.toNat pa 64).countCore k [(0x0A, 1)]
  let c := s.core k
  let base := pa / 64 * 64
  s.setCore k ((c.setLine w ⟨pa / 64, st, (c.line w).lru, 0, s.portBytes k c.nextSeq base 64⟩).touchLine w)

/-- The line of pa is in L0 as a region line: a hit, or a fill; a read-only copy is dropped first (R223). -/
def State.needRegionLine (s : State) (k pa : Nat) : State :=
  match (s.core k).findLine pa with
  | some w =>
    if ((s.core k).line w).st == .ro then (s.updCore k (fun c => c.dropLine w)).fillLine k pa .clean
    else s.updCore k (fun c => c.touchLine w)
  | none => s.fillLine k pa .clean

/-- n bytes of a line that is in L0. -/
def Core.lineBytes (c : Core) (pa n : Nat) : List Byte :=
  match c.findLine pa with
  | some w => ((c.line w).data.drop (pa % 64)).take n
  | none => List.replicate n 0

/-- Bytes written into a line's data from offset off on. -/
def spliceBytes (data : List Byte) (off : Nat) (l : List Byte) : List Byte :=
  data.take off ++ l ++ data.drop (off + l.length)

/-- A region store's bytes of one line: the line becomes DIRTY and WMASK records them (R223, R227). -/
def State.storeRegion (s : State) (k pa : Nat) (l : List Byte) : State :=
  let s := s.needRegionLine k pa
  s.updCore k (fun c => match c.findLine pa with
    | some w =>
      let x := c.line w
      c.setLine w { x with st := .dirty, data := spliceBytes x.data (pa % 64) l,
                           wmask := Nat.lor x.wmask ((2 ^ l.length - 1) * 2 ^ (pa % 64)) }
    | none => c)

/-- A non-region store's bytes of one line: a read-only copy is hit and takes them too, and they go on to their point of coherence (R223,
R224). -/
def State.storePort (s : State) (k pa gva : Nat) (l : List Byte) : State :=
  s.updCore k (fun c =>
    let c1 : Core := match c.findLine pa with
      | some w => if (c.line w).st == L0St.ro then
          (c.setLine w { c.line w with data := spliceBytes (c.line w).data (pa % 64) l }).touchLine w else c
      | none => c
    { c1 with mq := c1.mq ++ [MemOp.store c1.nextSeq pa gva l .core], nextSeq := c1.nextSeq + 1 })

/-- The pieces of an access of n bytes that one line each holds: offset and length. -/
def linePieces (a n : Nat) : List (Nat × Nat) :=
  if Nat.ble n (64 - a % 64) then [(0, n)]
  else (upFrom 0 (cdiv (a % 64 + n) 64)).map (fun i =>
    let lo := if i == 0 then 0 else i * 64 - a % 64
    let hi := Nat.min n ((i + 1) * 64 - a % 64)
    (lo, hi - lo))

/-- A store of core k at gva, translated to pa (R227, R228). Its page's translation stays cached. -/
def State.storeAt (s : State) (k part gva pa : Nat) (l : List Byte) : State :=
  (linePieces pa l.length).foldl (fun s p =>
    let piece := (l.drop p.1).take p.2
    if paKind pa == .localHbm && (s.regionOf part (gva + p.1)).isSome then s.storeRegion k (pa + p.1) piece
    else s.storePort k (pa + p.1) (gva + p.1) piece) (s.reXlate k part gva)

/-- n bytes of memory still to read. -/
def memSrc (pa gva n : Nat) : List LSrc := (upFrom 0 n).map (fun i => .mem (pa + i) (gva + i))

/-- An access of n bytes at gva, translated to pa, has to wait: it would fill a region line that is busy. -/
def State.fillBusy (s : State) (k part gva pa n : Nat) : Bool :=
  paKind pa == .localHbm && (linePieces pa n).any (fun p => (s.regionOf part (gva + p.1)).isSome && s.lineBusy k (pa + p.1))
/-- Bytes a load would read at once must wait: a line of them is busy. -/
def State.readBusy (s : State) (k pa n : Nat) : Bool := (linePieces pa n).any (fun p => s.lineBusy k (pa + p.1))

/-- The bytes of a load of core k at gva, translated to pa: region lines come through L0 (R222, R227); the others are read when the
data arrive. -/
def State.loadAt (s : State) (k part gva pa n : Nat) : State × List LSrc :=
  (linePieces pa n).foldl (fun (r : State × List LSrc) p =>
    if paKind pa == .localHbm && (r.1.regionOf part (gva + p.1)).isSome then
      let s := r.1.needRegionLine k (pa + p.1)
      (s, r.2 ++ ((s.core k).lineBytes (pa + p.1) p.2).map .known)
    else (r.1, r.2 ++ memSrc (pa + p.1) (gva + p.1) p.2)) (s.reXlate k part gva, [])

/-- LDX's bytes (R230): a hit on any line returns it; a miss outside a region allocates an RO line, inside one a CLEAN line; host memory
is never cached (R222). -/
def State.loadX (s : State) (k part gva pa n : Nat) : State × List LSrc :=
  let s := s.reXlate k part gva
  if paKind pa != .localHbm then (s, memSrc pa gva n)
  else
    let s := match (s.core k).findLine pa with
      | some w => s.updCore k (fun c => c.touchLine w)
      | none => s.fillLine k pa (if (s.regionOf part gva).isSome then .clean else .ro)
    (s, ((s.core k).lineBytes pa n).map .known)

/-- The load enters its register's pending list (R80). -/
def State.addLoad (s : State) (k : Nat) (d : Dest) (src : List LSrc) (sx : Nat) (mask : Option Nat) : State :=
  s.updCore k (fun c =>
    let c := c.cancel d
    { c with loads := c.loads ++ [⟨d, src, sx, mask, c.nextSeq, true, false⟩], nextSeq := c.nextSeq + 1 })

/-- Every listed line key of the core that satisfies f, changed by g. -/
def State.eachLine (s : State) (k : Nat) (f : L0Line → Bool) (g : State → Nat → State) : State :=
  (s.core k).l0.foldl (fun s e => if f ((s.core k).line e.1) then g s e.1 else s) s

/-- Every DIRTY line is written back and becomes CLEAN (R225). -/
def State.flushL0 (s : State) (k : Nat) : State := s.eachLine k (fun l => l.st == .dirty) (fun s w => s.writeBackLine k w)
/-- The lines f picks become INVALID. -/
def State.dropLines (s : State) (k : Nat) (f : L0Line → Bool) : State :=
  s.eachLine k f (fun s w => s.updCore k (fun c => c.dropLine w))

/-- The address that an access in flight goes on to after a bump of the pages listed: its page is walked again (R220, R358, R367). -/
def State.moved (s : State) (part : Nat) (pages : List Nat) (x : Nat × Nat) : Except FaultInfo Nat :=
  if pages.contains (x.1 / 65536) then s.rebind part x.2 else .ok x.1
def State.movedTo (s : State) (part : Nat) (pages : List Nat) (a v : Nat) : Nat :=
  match s.moved part pages (a, v) with | .ok b => b | .error _ => a
/-- The fault of an access that is refused again. -/
def State.movedFault (s : State) (part : Nat) (pages : List Nat) (l : List (Nat × Nat)) : Option FaultInfo :=
  l.findSome? (fun x => match s.moved part pages x with | .error f => some f | .ok _ => none)
/-- The task of a core is aborted with the fault of an access whose bundle has committed (R358; log entry 84). -/
def Core.abortLate (c : Core) (f : FaultInfo) : Core :=
  match c.run with
  | .task => c.abortWith ⟨f.code, f.cause, c.pc, f.addr⟩
  | .doneWait => c.abortWith ⟨f.code, f.cause, c.pc, f.addr⟩
  | .saving _ _ _ => c.abortWith ⟨f.code, f.cause, c.pc, f.addr⟩
  | .resuming _ _ => c.abortWith ⟨f.code, f.cause, c.pc, f.addr⟩
  | _ => c
/-- The accesses in the ports of a core whose page is one of those listed are refused and walked again: each takes the address that its page has
now, and one refused again is dropped and its task aborted with the fault (R220, R358, R367; log entry 84). -/
def State.rebindCore (s : State) (pages : List Nat) (k : Nat) : State :=
  let part := (s.core k).csr.partid.toNat
  s.updCore k (fun c =>
    let c1 : Core := { c with
      mq := (c.mq.filter (fun o => (s.movedFault (o.partOf part) pages o.addrs).isNone)).map (fun o => match o with
        | .store n a v l p => .store n (s.movedTo part pages a v) v l p
        | .amo n a v w o x y r p => .amo n (s.movedTo (p % 256) pages a v) v w o x y r p),
      loads := (c.loads.filter (fun l => (s.movedFault part pages l.addrs).isNone)).map (fun l => { l with src := l.src.map (fun x => match x with
        | .known b => .known b
        | .mem a v => .mem (s.movedTo part pages a v) v) }) }
    match s.movedFault part pages ((c.mq.filter (fun o => !o.orphan)).flatMap MemOp.addrs ++ c.loads.flatMap PLoad.addrs) with
    | some f => c1.abortLate f
    | none => c1)
/-- The same of message n, a REL or an ACQ on its way to its home. -/
def State.rebindMsg (s : State) (pages : List Nat) (n : Nat) : State :=
  match s.msgs[n]? with
  | some (.rel k p w pa v) =>
    (match s.moved p pages (pa, w) with
    | .ok a => { s with msgs := modNth s.msgs n (fun _ => .rel k p w a v) }
    | .error f => { s with msgs := dropNth s.msgs n }.updCore k (fun c => c.abortLate f))
  | some (.acq k p w pa) =>
    (match s.moved p pages (pa, w) with
    | .ok a => { s with msgs := modNth s.msgs n (fun _ => .acq k p w a) }
    | .error f => { s with msgs := dropNth s.msgs n }.updCore k (fun c => { c with loads := c.loads.filter (fun l => !l.acq) }.abortLate f))
  | _ => s
/-- Every access in flight, after a bump of the pages listed. -/
def State.rebindAll (s : State) (pages : List Nat) : State :=
  let t := s.cores.foldl (fun s e => s.rebindCore pages e.1) s
  (upFrom 0 t.msgs.length).foldr (fun n s => s.rebindMsg pages n) t

/-- The physical address of a byte of a region's line, when it translates to local memory. -/
def State.lineOfGva (s : State) (who part gva : Nat) : Option Nat :=
  match s.xlate who part gva 0 with
  | .ok r => if paKind r.pa == .localHbm then some r.pa else none
  | .error _ => none

/-- A physical line address lies in the region: some 64-byte line of the region translates to it. -/
def State.lineInRegion (s : State) (who part : Nat) (r : RegionE) (tag : Nat) : Bool :=
  (upFrom 0 (r.size / 64)).any (fun i =>
    match s.lineOfGva who part (r.base + 64 * i) with
    | some pa => pa / 64 == tag
    | none => false)

end Sys2Proof.Machine
end

