-- ==== Sys2Proof/Machine/Operands.lean ====
section
/-! DEFINITION. What each instruction names: source and destination registers (for the interlocks of R80 and item 6 of R67), produced
and consumed tokens, lane groups, sticky bases; immediates, displacements and effective addresses (R63, R119, R220, R226). -/

namespace Sys2Proof.Machine

/-- The source registers of a C instruction; the bank of a g or p name is left open. -/
def srcsC (i : Instr) : List Dest :=
  match i with
  | .bri _ a => [.g a false]
  | .calli _ _ a => [.g a false]
  | .ret _ a => [.g a false]
  | .loop _ a _ _ => [.g a false]
  | .sysc _ a _ _ => [.g a false]
  | .csrw _ a _ => [.g a false]
  | .csrs _ a _ => [.g a false]
  | .csrc _ a _ => [.g a false]
  | _ => []

/-- The source registers of a I instruction; the bank of a g or p name is left open. -/
def srcsI (i : Instr) : List Dest :=
  match i with
  | .add _ _ a b => [.g a false, .g b false]
  | .sub _ _ a b => [.g a false, .g b false]
  | .addi _ _ a _ _ => [.g a false]
  | .mul _ _ a b => [.g a false, .g b false]
  | .mulh _ _ a b => [.g a false, .g b false]
  | .mulhU _ _ a b => [.g a false, .g b false]
  | .div _ _ a b => [.g a false, .g b false]
  | .divU _ _ a b => [.g a false, .g b false]
  | .rem _ _ a b => [.g a false, .g b false]
  | .remU _ _ a b => [.g a false, .g b false]
  | .and _ _ a b => [.g a false, .g b false]
  | .or _ _ a b => [.g a false, .g b false]
  | .xor _ _ a b => [.g a false, .g b false]
  | .andi _ _ a _ _ => [.g a false]
  | .ori _ _ a _ _ => [.g a false]
  | .xori _ _ a _ _ => [.g a false]
  | .shl _ _ a b => [.g a false, .g b false]
  | .shr _ _ a b => [.g a false, .g b false]
  | .shrA _ _ a b => [.g a false, .g b false]
  | .shli _ _ a _ => [.g a false]
  | .shri _ _ a _ => [.g a false]
  | .shriA _ _ a _ => [.g a false]
  | .bfx _ _ a _ _ _ => [.g a false]
  | .bfi _ d a _ _ => [.g a false, .g d false]
  | .sethi _ _ a _ _ => [.g a false]
  | .bitcPop _ _ a => [.g a false]
  | .bitcClz _ _ a => [.g a false]
  | .bitcCtz _ _ a => [.g a false]
  | .min _ _ a b => [.g a false, .g b false]
  | .minU _ _ a b => [.g a false, .g b false]
  | .max _ _ a b => [.g a false, .g b false]
  | .maxU _ _ a b => [.g a false, .g b false]
  | .cmpeq _ _ a b => [.g a false, .g b false]
  | .cmpne _ _ a b => [.g a false, .g b false]
  | .cmplt _ _ a b => [.g a false, .g b false]
  | .cmpltu _ _ a b => [.g a false, .g b false]
  | .cmple _ _ a b => [.g a false, .g b false]
  | .cmpleu _ _ a b => [.g a false, .g b false]
  | .cmpeqi _ _ a _ _ => [.g a false]
  | .cmplti _ _ a _ _ => [.g a false]
  | .pand _ _ a b => [.p a false, .p b false]
  | .por _ _ a b => [.p a false, .p b false]
  | .pxor _ _ a b => [.p a false, .p b false]
  | .pandn _ _ a b => [.p a false, .p b false]
  | .pmov _ _ a => [.p a false]
  | .pmovFromG _ _ a => [.g a false]
  | .jmovToJ _ _ a => [.g a false]
  | .jmovToG _ _ a => [.j a]
  | .emovToE _ _ a => [.g a false]
  | .emovToG _ _ a => [.e a]
  | .emovE _ _ a => [.e a]
  | .qset _ _ a => [.g a false]
  | .qsetTid _ d a => [.g a false, .q d]
  | .qsetC _ d a b => [.g a false, .g b false, .q d]
  | .qget _ _ a => [.q a]
  | .qgetTid _ _ a => [.q a]
  | .qgetC _ _ a b => [.q a, .g b false]
  | .qadd _ _ a _ _ _ => [.q a]
  | .qmov _ _ a => [.q a]
  | .fadd _ _ a b _ _ => [.g a false, .g b false]
  | .fsub _ _ a b _ _ => [.g a false, .g b false]
  | .fmul _ _ a b _ _ => [.g a false, .g b false]
  | .fma _ _ a b _ c _ => [.g a false, .g b false, .g c false]
  | .fdiv _ _ a b _ _ => [.g a false, .g b false]
  | .fsqrt _ _ a _ _ => [.g a false]
  | .fmin _ _ a b _ => [.g a false, .g b false]
  | .fmax _ _ a b _ => [.g a false, .g b false]
  | .fcmp _ _ a b _ _ => [.g a false, .g b false]
  | .fcvtFp _ _ a _ _ _ => [.g a false]
  | .fcvtFromI64 _ _ a _ _ _ => [.g a false]
  | .fcvtToI64 _ _ a _ _ _ => [.g a false]
  | .fcvtToU64 _ _ a _ _ _ => [.g a false]
  | .fclass _ _ a _ => [.g a false]
  | _ => []

/-- The source registers of a V instruction; the bank of a g or p name is left open. A field that the chosen form does not read is no source
(R161, R164, R165, R167). -/
def srcsV (i : Instr) : List Dest :=
  match i with
  | .vadd _ o => [.v o.a, .v o.b, .k o.k]
  | .vsub _ o => [.v o.a, .v o.b, .k o.k]
  | .vmul _ o => [.v o.a, .v o.b, .k o.k]
  | .vfma _ o => [.v o.a, .v o.b, .v o.ex.c, .k o.k]
  | .vmin _ o => [.v o.a, .v o.b, .k o.k]
  | .vmax _ o => [.v o.a, .v o.b, .k o.k]
  | .vabs _ o => [.v o.a, .k o.k]
  | .vneg _ o => [.v o.a, .k o.k]
  | .vand _ o => [.v o.a, .v o.b, .k o.k]
  | .vor _ o => [.v o.a, .v o.b, .k o.k]
  | .vxor _ o => [.v o.a, .v o.b, .k o.k]
  | .vshl _ o => [.v o.a, .v o.b, .k o.k]
  | .vshr _ o => [.v o.a, .v o.b, .k o.k]
  | .vcmp _ o => [.v o.a, .v o.b, .k o.k]
  | .vsel _ o => [.v o.a, .v o.b, .k o.k]
  | .vperm _ o => if bitOf o.ex.i8 5 then [.v o.a, .v o.b, .v o.ex.c, .k o.k] else [.v o.a, .v o.b, .k o.k]
  | .vslide _ o => [.v o.a, .v o.b, .k o.k]
  | .vpack _ o => [.v o.a, .v o.b, .k o.k]
  | .vunpk _ o => [.v o.a, .k o.k]
  | .vbcast _ o => if bitOf o.ex.i8 7 then [.v o.a, .k o.k] else [.g o.ex.g false, .k o.k]
  | .vext _ o => [.v o.a]
  | .vcvt _ o => if o.ex.fmt == 15 || fld o.ex.i8 0 4 == 15 then [.v o.a, .k o.k, .g o.ex.g false] else [.v o.a, .k o.k]
  | .vqnt _ o => [.v o.a, .k o.k]
  | .vdq _ o => if bitOf o.ex.i8 7 then [.v o.a, .e o.b, .k o.k] else [.v o.a, .v o.b, .k o.k]
  | .vamax _ o => [.v o.a, .k o.k]
  | .vspec _ o => [.v o.a, .k o.k]
  | .vred _ o => [.v o.a, .k o.k]
  | .vscan _ o => [.v o.a, .k o.k]
  | .vmatch _ o => [.v o.a, .v o.b, .k o.k]
  | .klog _ o => [.k o.a, .k o.b]
  | .kmov _ o => (match fld o.ex.i8 0 2 with | 0 => [.k o.a] | 1 => [.v o.a] | 2 => [.k o.a] | _ => [.g o.ex.g false])
  | .vmov _ o => [.v o.a, .k o.k]
  | _ => []

/-- The source registers of a M instruction; the bank of a g or p name is left open. -/
def srcsM (i : Instr) : List Dest :=
  match i with
  | .mma _ _ _ qa qb _ _ _ _ _ _ _ _ => [.q qa, .q qb]
  | .mlda _ _ _ q _ _ => [.q q]
  | .msta _ _ _ q _ _ _ _ => [.q q]
  | .msclFill _ _ _ gs => [.g gs false]
  | .msclDiag _ _ _ gs => [.g gs false]
  | .msclMul _ _ _ gs => [.g gs false]
  | .mtriLi _ _ _ gs _ => [.g gs false]
  | .mtriLs _ _ _ gs _ => [.g gs false]
  | .mtriUi _ _ _ gs _ => [.g gs false]
  | .mtriUs _ _ _ gs _ => [.g gs false]
  | .tbuild _ _ _ q _ _ _ _ => [.q q]
  | .tlook _ _ _ _ q _ _ _ _ => [.q q]
  | .tlookR _ _ _ _ q _ _ _ _ => [.q q]
  | .zsave _ _ _ _ q gs => [.q q, .g gs false]
  | .zload _ _ _ _ q gs => [.q q, .g gs false]
  | .cbld _ _ _ gs _ => [.g gs false]
  | _ => []

/-- The source registers of a X instruction; the bank of a g or p name is left open. -/
def srcsX (i : Instr) : List Dest :=
  match i with
  | .tfetch _ _ q _ => [.q q]
  | .thint _ _ q _ _ => [.q q]
  | .tinv _ _ q _ _ => [.q q]
  | .tcopy _ _ qs qd _ => [.q qs, .q qd]
  | .tcopyMem _ _ qs _ gs => [.q qs, .g gs false]
  | .tred _ _ qs qd _ => [.q qs, .q qd]
  | .tgath _ _ qd qs gs _ => [.q qs, .q qd, .g gs false]
  | .tscat _ _ qs qd gs _ => [.q qs, .q qd, .g gs false]
  | .tacq _ _ q _ => [.q q]
  | .trel _ _ q => [.q q]
  | .chsend _ _ _ q => [.q q]
  | .chrecv _ _ _ q => [.q q]
  | .desc _ _ gt ga => [.g gt false, .g ga false]
  | .rld _ _ _ ga => [.g ga false]
  | .rst _ _ ga gs => [.g ga false, .g gs false]
  | .rfaa _ _ _ ga gs => [.g ga false, .g gs false]
  | .rtdec _ _ ga => [.g ga false]
  | .rfence _ _ ga => [.g ga false]
  | .rfenceFStore _ _ ga gs => [.g ga false, .g gs false]
  | .rfenceFDec _ _ ga => [.g ga false]
  | .tspawn _ _ ga => [.g ga false]
  | .tdec _ _ ga => [.g ga false]
  | .tdecb _ _ ga => [.g ga false]
  | .tdecbArm _ _ ga gs => [.g ga false, .g gs false]
  | _ => []

/-- The source registers of a L instruction; the bank of a g or p name is left open. -/
def srcsL (i : Instr) : List Dest :=
  match i with
  | .ldB _ _ b _ _ => [.g b false]
  | .ldBs _ _ b _ _ => [.g b false]
  | .ldH _ _ b _ _ => [.g b false]
  | .ldHs _ _ b _ _ => [.g b false]
  | .ldW _ _ b _ _ => [.g b false]
  | .ldWs _ _ b _ _ => [.g b false]
  | .ldD _ _ b _ _ => [.g b false]
  | .stB _ t b _ _ => [.g b false, .g t false]
  | .stH _ t b _ _ => [.g b false, .g t false]
  | .stW _ t b _ _ => [.g b false, .g t false]
  | .stD _ t b _ _ => [.g b false, .g t false]
  | .ldv _ _ b _ _ => [.g b false]
  | .stv _ t b _ _ => [.g b false, .v t]
  | .gath _ _ b vx k _ _ => [.g b false, .v vx, .k k]
  | .scat _ t b vx k _ _ => [.g b false, .v vx, .k k, .v t]
  | .ldx _ _ b _ _ => [.g b false]
  | .ldxinv _ b _ _ => [.g b false]
  | .sld _ t b _ _ => [.g b false, .e t]
  | .pref _ b _ _ => [.g b false]
  | .prefLlc _ b _ _ => [.g b false]
  | .acq _ _ b _ _ => [.g b false]
  | .rel _ t b _ _ => [.g b false, .g t false]
  | .trd _ _ b _ _ => [.g b false]
  | .twr _ t b _ _ => [.g b false, .v t]
  | .amo _ _ b _ _ _ s => [.g b false, .g s false]
  | .cas _ _ b _ sz s c => (if sz == 2 then [.g b false, .g c false, .g (c + 1) false, .g s false, .g (s + 1) false] else [.g b false, .g c false, .g s false])
  | _ => []

/-- The source registers of an instruction. -/
def srcsOf (i : Instr) : List Dest :=
  match i.cls with
  | some .c => srcsC i
  | some .i => srcsI i
  | some .v => srcsV i
  | some .m => srcsM i
  | some .x => srcsX i
  | some .l => srcsL i
  | none => []

/-- The destination registers of a C instruction; the bank of a g or p name is left open. -/
def dstsC (i : Instr) : List Dest :=
  match i with
  | .call _ _ _ => [.g 63 false]
  | .calli _ d _ => [.g d false]
  | .pollk _ d _ => [.p d false]
  | .pollkErr _ d _ => [.p d false]
  | .csrr _ d _ => [.g d false]
  | _ => []

/-- The destination registers of a I instruction; the bank of a g or p name is left open. -/
def dstsI (i : Instr) : List Dest :=
  match i with
  | .add _ d _ _ => [.g d false]
  | .sub _ d _ _ => [.g d false]
  | .addi _ d _ _ _ => [.g d false]
  | .mul _ d _ _ => [.g d false]
  | .mulh _ d _ _ => [.g d false]
  | .mulhU _ d _ _ => [.g d false]
  | .div _ d _ _ => [.g d false]
  | .divU _ d _ _ => [.g d false]
  | .rem _ d _ _ => [.g d false]
  | .remU _ d _ _ => [.g d false]
  | .and _ d _ _ => [.g d false]
  | .or _ d _ _ => [.g d false]
  | .xor _ d _ _ => [.g d false]
  | .andi _ d _ _ _ => [.g d false]
  | .ori _ d _ _ _ => [.g d false]
  | .xori _ d _ _ _ => [.g d false]
  | .shl _ d _ _ => [.g d false]
  | .shr _ d _ _ => [.g d false]
  | .shrA _ d _ _ => [.g d false]
  | .shli _ d _ _ => [.g d false]
  | .shri _ d _ _ => [.g d false]
  | .shriA _ d _ _ => [.g d false]
  | .bfx _ d _ _ _ _ => [.g d false]
  | .bfi _ d _ _ _ => [.g d false]
  | .sethi _ d _ _ _ => [.g d false]
  | .bitcPop _ d _ => [.g d false]
  | .bitcClz _ d _ => [.g d false]
  | .bitcCtz _ d _ => [.g d false]
  | .min _ d _ _ => [.g d false]
  | .minU _ d _ _ => [.g d false]
  | .max _ d _ _ => [.g d false]
  | .maxU _ d _ _ => [.g d false]
  | .cmpeq _ d _ _ => [.p d false]
  | .cmpne _ d _ _ => [.p d false]
  | .cmplt _ d _ _ => [.p d false]
  | .cmpltu _ d _ _ => [.p d false]
  | .cmple _ d _ _ => [.p d false]
  | .cmpleu _ d _ _ => [.p d false]
  | .cmpeqi _ d _ _ _ => [.p d false]
  | .cmplti _ d _ _ _ => [.p d false]
  | .pand _ d _ _ => [.p d false]
  | .por _ d _ _ => [.p d false]
  | .pxor _ d _ _ => [.p d false]
  | .pandn _ d _ _ => [.p d false]
  | .pmov _ d _ => [.p d false]
  | .pmovPreds _ d => [.g d false]
  | .pmovFromG _ d _ => [.p d false]
  | .jmovToJ _ d _ => [.j d]
  | .jmovToG _ d _ => [.g d false]
  | .emovToE _ d _ => [.e d]
  | .emovToG _ d _ => [.g d false]
  | .emovE _ d _ => [.e d]
  | .qset _ d _ => [.q d]
  | .qsetTid _ d _ => [.q d]
  | .qsetC _ d _ _ => [.q d]
  | .qget _ d _ => [.g d false]
  | .qgetTid _ d _ => [.g d false]
  | .qgetC _ d _ _ => [.g d false]
  | .qadd _ d _ _ _ _ => [.q d]
  | .qmov _ d _ => [.q d]
  | .fadd _ d _ _ _ _ => [.g d false]
  | .fsub _ d _ _ _ _ => [.g d false]
  | .fmul _ d _ _ _ _ => [.g d false]
  | .fma _ d _ _ _ _ _ => [.g d false]
  | .fdiv _ d _ _ _ _ => [.g d false]
  | .fsqrt _ d _ _ _ => [.g d false]
  | .fmin _ d _ _ _ => [.g d false]
  | .fmax _ d _ _ _ => [.g d false]
  | .fcmp _ d _ _ _ _ => [.p d false]
  | .fcvtFp _ d _ _ _ _ => [.g d false]
  | .fcvtFromI64 _ d _ _ _ _ => [.g d false]
  | .fcvtToI64 _ d _ _ _ _ => [.g d false]
  | .fcvtToU64 _ d _ _ _ _ => [.g d false]
  | .fclass _ d _ _ => [.g d false]
  | .zchk _ d _ => [.p d false]
  | .zchkM _ d _ _ => [.p d false]
  | _ => []

/-- The destination registers of a V instruction; the bank of a g or p name is left open. -/
def dstsV (i : Instr) : List Dest :=
  match i with
  | .vadd _ o => [.v o.d]
  | .vsub _ o => [.v o.d]
  | .vmul _ o => [.v o.d]
  | .vfma _ o => [.v o.d]
  | .vmin _ o => [.v o.d]
  | .vmax _ o => [.v o.d]
  | .vabs _ o => [.v o.d]
  | .vneg _ o => [.v o.d]
  | .vand _ o => [.v o.d]
  | .vor _ o => [.v o.d]
  | .vxor _ o => [.v o.d]
  | .vshl _ o => [.v o.d]
  | .vshr _ o => [.v o.d]
  | .vcmp _ o => [.k o.d]
  | .vsel _ o => [.v o.d]
  | .vperm _ o => [.v o.d]
  | .vslide _ o => [.v o.d]
  | .vpack _ o => [.v o.d]
  | .vunpk _ o => [.v o.d]
  | .vbcast _ o => [.v o.d]
  | .vext _ o => [.g o.ex.g false]
  | .vcvt _ o => [.v o.d]
  | .vqnt _ o => [.v o.d, .v o.ex.c]
  | .vdq _ o => [.v o.d]
  | .vamax _ o => [.v o.d]
  | .vspec _ o => [.v o.d]
  | .vred _ o => [.v o.d]
  | .vscan _ o => [.v o.d]
  | .vmatch _ o => [.v o.d, .k o.ex.c]
  | .klog _ o => [.k o.d]
  | .kmov _ o => (match fld o.ex.i8 0 2 with | 2 => [.v o.d] | _ => [.k o.d])
  | .vmov _ o => [.v o.d]
  | _ => []

/-- The destination registers of a M instruction; the bank of a g or p name is left open. -/
def dstsM (i : Instr) : List Dest :=
  match i with
  | _ => []

/-- The destination registers of a X instruction; the bank of a g or p name is left open. -/
def dstsX (i : Instr) : List Dest :=
  match i with
  | .itstep _ _ _ q => [.q q]
  | .rld _ _ d _ => [.g d false]
  | .rfaa _ _ d _ _ => [.g d false]
  | _ => []

/-- The destination registers of a L instruction; the bank of a g or p name is left open. -/
def dstsL (i : Instr) : List Dest :=
  match i with
  | .ldB _ t _ _ _ => [.g t false]
  | .ldBs _ t _ _ _ => [.g t false]
  | .ldH _ t _ _ _ => [.g t false]
  | .ldHs _ t _ _ _ => [.g t false]
  | .ldW _ t _ _ _ => [.g t false]
  | .ldWs _ t _ _ _ => [.g t false]
  | .ldD _ t _ _ _ => [.g t false]
  | .ldv _ t _ _ _ => [.v t]
  | .gath _ t _ _ _ _ _ => [.v t]
  | .ldx _ t _ _ _ => [.g t false]
  | .sld _ t _ _ _ => [.e t]
  | .acq _ t _ _ _ => [.g t false]
  | .trd _ t _ _ _ => [.v t]
  | .amo _ t _ _ _ _ _ => [.g t false]
  | .cas _ t _ _ sz _ _ => (if sz == 2 then [.g t false, .g (t + 1) false] else [.g t false])
  | _ => []

/-- The destination registers of an instruction. -/
def dstsOf (i : Instr) : List Dest :=
  match i.cls with
  | some .c => dstsC i
  | some .i => dstsI i
  | some .v => dstsV i
  | some .m => dstsM i
  | some .x => dstsX i
  | some .l => dstsL i
  | none => []

/-- The token fields of an engine command. -/
def edgeOf (i : Instr) : Option Edge :=
  match i with
  | .mma _ e _ _ _ _ _ _ _ _ _ _ _ => some e
  | .mzero _ e _ => some e
  | .mlda _ e _ _ _ _ => some e
  | .msta _ e _ _ _ _ _ _ => some e
  | .msclFill _ e _ _ => some e
  | .msclDiag _ e _ _ => some e
  | .msclMul _ e _ _ => some e
  | .mtriLi _ e _ _ _ => some e
  | .mtriLs _ e _ _ _ => some e
  | .mtriUi _ e _ _ _ => some e
  | .mtriUs _ e _ _ _ => some e
  | .tbuild _ e _ _ _ _ _ _ => some e
  | .tlook _ e _ _ _ _ _ _ _ => some e
  | .tlookR _ e _ _ _ _ _ _ _ => some e
  | .zsave _ e _ _ _ _ => some e
  | .zload _ e _ _ _ _ => some e
  | .zinv _ e _ => some e
  | .cbld _ e _ _ _ => some e
  | .tfetch _ e _ _ => some e
  | .thint _ e _ _ _ => some e
  | .tinv _ e _ _ _ => some e
  | .tcopy _ e _ _ _ => some e
  | .tcopyMem _ e _ _ _ => some e
  | .tred _ e _ _ _ => some e
  | .tgath _ e _ _ _ _ => some e
  | .tscat _ e _ _ _ _ => some e
  | .tacq _ e _ _ => some e
  | .trel _ e _ => some e
  | .itin _ e _ _ _ => some e
  | .itstep _ e _ _ => some e
  | .chsend _ e _ _ => some e
  | .chrecv _ e _ _ => some e
  | .desc _ e _ _ => some e
  | .rld _ e _ _ => some e
  | .rst _ e _ _ => some e
  | .rfaa _ e _ _ _ => some e
  | .rtdec _ e _ => some e
  | .rfence _ e _ => some e
  | .rfenceFStore _ e _ _ => some e
  | .rfenceFDec _ e _ => some e
  | .tspawn _ e _ => some e
  | .tdec _ e _ => some e
  | .tdecb _ e _ => some e
  | .tdecbArm _ e _ _ => some e
  | _ => none

/-- The V operands of a V instruction. -/
def vopFields (i : Instr) : Option VOp :=
  match i with
  | .vadd _ o => some o
  | .vsub _ o => some o
  | .vmul _ o => some o
  | .vfma _ o => some o
  | .vmin _ o => some o
  | .vmax _ o => some o
  | .vabs _ o => some o
  | .vneg _ o => some o
  | .vand _ o => some o
  | .vor _ o => some o
  | .vxor _ o => some o
  | .vshl _ o => some o
  | .vshr _ o => some o
  | .vcmp _ o => some o
  | .vsel _ o => some o
  | .vperm _ o => some o
  | .vslide _ o => some o
  | .vpack _ o => some o
  | .vunpk _ o => some o
  | .vbcast _ o => some o
  | .vext _ o => some o
  | .vcvt _ o => some o
  | .vqnt _ o => some o
  | .vdq _ o => some o
  | .vamax _ o => some o
  | .vspec _ o => some o
  | .vred _ o => some o
  | .vscan _ o => some o
  | .vmatch _ o => some o
  | .klog _ o => some o
  | .kmov _ o => some o
  | .vmov _ o => some o
  | _ => none

/-- The base register of an L instruction. -/
def lBase (i : Instr) : Option Nat :=
  match i with
  | .ldB _ _ b _ _ => some b
  | .ldBs _ _ b _ _ => some b
  | .ldH _ _ b _ _ => some b
  | .ldHs _ _ b _ _ => some b
  | .ldW _ _ b _ _ => some b
  | .ldWs _ _ b _ _ => some b
  | .ldD _ _ b _ _ => some b
  | .stB _ _ b _ _ => some b
  | .stH _ _ b _ _ => some b
  | .stW _ _ b _ _ => some b
  | .stD _ _ b _ _ => some b
  | .ldv _ _ b _ _ => some b
  | .stv _ _ b _ _ => some b
  | .gath _ _ b _ _ _ _ => some b
  | .scat _ _ b _ _ _ _ => some b
  | .ldx _ _ b _ _ => some b
  | .ldxinv _ b _ _ => some b
  | .sld _ _ b _ _ => some b
  | .pref _ b _ _ => some b
  | .prefLlc _ b _ _ => some b
  | .acq _ _ b _ _ => some b
  | .rel _ _ b _ _ => some b
  | .trd _ _ b _ _ => some b
  | .twr _ _ b _ _ => some b
  | .amo _ _ b _ _ _ _ => some b
  | .cas _ _ b _ _ _ _ => some b
  | _ => none

/-- A name as the running mode sees it (R100). -/
def Core.banked (c : Core) (d : Dest) : Dest :=
  match d with
  | .g n _ => c.dg n
  | .p n _ => c.dp n
  | d => d
/-- A constant register, whose writes are discarded (R98). -/
def isConst (d : Dest) : Bool :=
  match d with
  | .g 0 _ => true
  | .p 0 _ => true
  | .k 0 => true
  | _ => false

/-- The register a sticky re-issue of i advances (R73): the base of an L instruction, the g field of a V instruction's extension. -/
def stickyBase (i : Instr) : Option Nat :=
  match i.cls with
  | some .l => lBase i
  | some .v => match vopFields i with
    | some o => o.x.map (fun e => e.g)
    | none => none
  | _ => none

/-- Bits of the lane group a V slot occupies (R154); IDLE counts none. -/
def groupBits (i : Instr) : Nat := match vopFields i with | some o => o.bits | none => 0

/-- A transfer instruction (R81). -/
def isTransfer (i : Instr) : Bool :=
  match i with
  | .br _ _ _ => true | .bri _ _ => true | .call _ _ _ => true | .calli _ _ _ => true | .ret _ _ => true
  | .loop _ _ _ _ => true | .loopi _ _ _ _ => true | .safe _ _ _ => true | .done _ => true
  | .trap _ _ _ => true | .sysc _ _ _ _ => true | .eret _ => true
  | _ => false
/-- An instruction that R83 restricts to I0. -/
def onlyI0 (i : Instr) : Bool :=
  match i with
  | .mul _ _ _ _ => true | .mulh _ _ _ _ => true | .mulhU _ _ _ _ => true
  | .div _ _ _ _ => true | .divU _ _ _ _ => true | .rem _ _ _ _ => true | .remU _ _ _ _ => true
  | .fdiv _ _ _ _ _ _ => true | .fsqrt _ _ _ _ _ => true
  | _ => false

/-- The consumed tokens of an edge (R63). -/
def consumed (e : Edge) : List Nat :=
  match e.nc with
  | 0 => []
  | 1 => [e.c0]
  | 2 => [e.c0, e.c1]
  | _ => [e.c0, e.c1, e.c2]

/-- An immediate of format B (R119): SignExtend(i8) or SignExtend(ext ‖ i8), 39 bits. -/
def immB (i : Nat) (x : Option Nat) : Int := match x with | none => sext i 8 | some e => sext (e * 256 + i) 39
/-- A displacement of format J in words (R63, R138): 20 bits, or 51 with an extension word. -/
def dispJ (d : Nat) (x : Option Nat) : Int := match x with | none => sext d 20 | some e => sext (e * 2 ^ 20 + d) 51
/-- A displacement of format L in bytes (R63): the short form counts units of n. -/
def dispL (d : Nat) (x : Option Nat) (n : Nat) : Int := match x with | none => sext d 8 * (n : Nat) | some e => sext (e * 256 + d) 39
/-- The effective address of an L access (R220). -/
def Core.ea (c : Core) (b d : Nat) (x : Option Nat) (n : Nat) : Nat :=
  (BitVec.ofInt 64 ((c.rg b).toNat + dispL d x n)).toNat
/-- A direct target (R138). -/
def targetJ (pc d : Nat) (x : Option Nat) : Nat := (BitVec.ofInt 64 ((pc : Int) + 4 * dispJ d x)).toNat

/-- The source registers that a slot's synchronous faults depend on: the address registers of an access or of a fabric request (R76, R418). -/
def faultSrcs (i : Instr) : List Dest :=
  match i with
  | .gath _ _ b vx k _ _ => [.g b false, .v vx, .k k]
  | .scat _ _ b vx k _ _ => [.g b false, .v vx, .k k]
  | .rld _ _ _ ga => [.g ga false]
  | .rst _ _ ga _ => [.g ga false]
  | .rfaa _ _ _ ga _ => [.g ga false]
  | .rtdec _ _ ga => [.g ga false]
  | .rfence _ _ ga => [.g ga false]
  | .rfenceFStore _ _ ga _ => [.g ga false]
  | .rfenceFDec _ _ ga => [.g ga false]
  | i => match lBase i with
    | some b => [.g b false]
    | none => []

/-- A register of the list is pending from a load (R80). -/
def Core.awaits (c : Core) (l : List Dest) : Bool :=
  !c.loads.isEmpty && l.any (fun d => !isConst d && c.pending (c.banked d))

/-- A slot waits on a register pending from a load that it reads or writes (R80). -/
def Core.hazard (c : Core) (i : Instr) : Bool := c.awaits (srcsOf i ++ dstsOf i)

/-- TOKEN of an engine slot that consumes a FREE token (R33). -/
def Core.freeTok (c : Core) (i : Instr) : Option FaultInfo :=
  match edgeOf i with
  | some e => if (consumed e).any (fun t => (c.tok t).st == .free) then some ⟨fcToken, 1, 0⟩ else none
  | none => none

end Sys2Proof.Machine
end

