-- ==== Sys2Proof/Machine/Issue.lean ====
section
/-! DEFINITION. One iteration of a bundle: what its slots ask for, the order of faults, deliveries and stalls, commit, and where control
goes next (R65, R66, R73, R75 to R78, R88, R141, R418). -/

namespace Sys2Proof.Machine

/-- What one slot asks of an iteration (R418): a synchronous fault; ERROR tokens consumed or produced onto; a wait, with what the
machine does meanwhile; ERROR tokens that a WAITK names; an operation that has to be done before the iteration commits, asked for when every
wait has ended (R271); and its effect on commit. -/
structure SlotEff where
  flt : Option FaultInfo := none
  errs : List Nat := []
  wait : Bool := false
  prep : State → State := id
  late : List Nat := []
  ask : Option (State → State) := none
  commit : State → State := id

/-- A slot of the bundle being issued, present or re-issued: adv is the sticky advance of a base register (R73), record the sticky
record the slot leaves (R72). -/
structure SlotRun where
  slot : Slot
  ins : Instr
  sem : State → SlotEff
  adv : Option (Nat × W64)
  record : Option W64

/-- A bundle: its length in words with the header, REPEAT, and its effective slots in slot order. -/
structure Bundle where
  len : Nat
  rep : Nat
  slots : List SlotRun

/-- The answer of a machine operation. -/
abbrev Res := Host.Outcome State Fault Refusal

/-- The guard holds (R65). -/
def Core.guard (c : Core) (g : Guard) : Bool := c.rp g.gp != (g.gn == 1)

/-- The sticky advance of a slot: written as a result of one step (R73). -/
def SlotRun.advance (r : SlotRun) (s : State) : State :=
  match r.adv with
  | none => s
  | some (n, v) => s.updMe (fun c => c.put (c.dg n) v.toNat none 1)

/-- The state a slot reads: a re-issue sees its advanced base (R73). -/
def SlotRun.view (r : SlotRun) (s : State) : State :=
  match r.adv with
  | none => s
  | some (n, v) => s.updMe (fun c => c.write (c.dg n) v.toNat none)

/-- The register a re-issue advances is pending from a load (R73, R80). -/
def SlotRun.advWaits (r : SlotRun) (c : Core) : Bool :=
  match r.adv with
  | none => false
  | some (n, _) => !isConst (.g n false) && c.pending (c.dg n)

/-- What a slot asks for: nothing but its advance when its guard fails (R65, R73); a wait for pending registers (R80) and, of an L slot,
for an ACQ's value (R233) is added to its own. While a register that its faults depend on is pending, it can fault on its tokens alone. -/
def SlotRun.eff (r : SlotRun) (s : State) : SlotEff :=
  let v := r.view s
  let c := v.me
  let adv := r.advWaits c
  let dark := c.awaits (faultSrcs r.ins)
  if c.guard r.ins.guard then
    let e := r.sem v
    { e with
      flt := if dark then c.freeTok r.ins else e.flt,
      wait := e.wait || adv || c.hazard r.ins || (r.slot == .l && c.loads.any (fun l => l.acq)),
      prep := if dark || adv then id else e.prep,
      commit := fun s => e.commit (r.advance s) }
  else { wait := adv, commit := r.advance }

/-- The bits of FLTMASK (R76). -/
def maskOf (l : List (Slot × SlotEff)) (p : SlotEff → Bool) : Nat :=
  l.foldl (fun m x => if p x.2 then m + 2 ^ x.1.bit else m) 0

/-- The lowest number of a list. -/
def lowest : List Nat → Option Nat
  | [] => none
  | a :: t => match lowest t with
    | none => some a
    | some b => some (Nat.min a b)

/-- Delivery of the engine exception of token t by the running bundle (R296, R297): the token becomes DONE. mask names the slots. -/
def Core.deliver (c : Core) (t mask : Nat) (dstep : Bool) : Core :=
  let k := c.tok t
  let f := k.flt.getD ⟨⟨0, 0, 0⟩, t, false⟩
  let c := { c with tcWait := none, tcFlt := none, hostAt := .none }.setTok t { k with st := .done, flt := none, used := true }
  c.takeTrap ⟨c.pc, c.iter, mask, f.flt.code, 32768 + 512 * t + f.flt.cause % 512, f.chn, f.orig, f.flt.addr⟩ dstep c.pc

/-- A synchronous fault of the iteration (R76): nothing commits. -/
def Core.faultAt (c : Core) (f : FaultInfo) (mask : Nat) : Core :=
  { c with tcWait := none, tcFlt := none, hostAt := .none }.takeTrap ⟨c.pc, c.iter, mask, f.code, f.cause, false, 0, f.addr⟩ false c.pc

/-- The core's next bundle begins at address a, reached by v. -/
def Core.goTo (c : Core) (a : Nat) (v : Via) : Core := { c with pc := a, via := v, iter := 0 }

/-- The core begins a save (R305, R306). -/
def Core.beginSave (c : Core) (full don : Bool) : Core := { c.settleFly with run := .saving full don false, stalled := false, hostAt := .none, tcWait := none, tcFlt := none }

/-- The sticky records that a committing bundle leaves (R72). -/
def Bundle.records (b : Bundle) (c : Core) : Core :=
  b.slots.foldl (fun c r => match r.record with
    | none => c
    | some w => match r.slot with
      | .v0 => { c with csr := { c.csr with stickv0 := w } }
      | .v1 => { c with csr := { c.csr with stickv1 := w } }
      | .l => { c with csr := { c.csr with stickl := w } }
      | _ => c) c

/-- A loop-end transfer falls due at the final iteration of the bundle, by LCNT, LBEG and LEND as the bundle began (R141). -/
def loopEnd (c0 : Core) : Bool := c0.csr.lcnt != 0 && c0.csr.lend.toNat == c0.pc

/-- Control after the last iteration without a taken transfer (R141); keep leaves LCNT as the bundle wrote it (R118). -/
def Core.fallThrough (c c0 : Core) (next : Nat) (keep : Bool) : Core :=
  if loopEnd c0 then
    let c := if keep then c else { c with csr := { c.csr with lcnt := c0.csr.lcnt - 1 } }
    if c0.csr.lcnt == 1 then c.goTo next .seq else c.goTo c0.csr.lbeg.toNat .target
  else c.goTo next .seq

/-- Where control goes when an iteration has committed; c0 is the core as the iteration began, next the next bundle (R137 to R149). DESIGN
CHOICE (log entry 82): the link of CALL and CALLI is seen from the next step on, as a result of latency 1, for R138 names no class. DESIGN
CHOICE (log entry 83): of a repeated bundle, a loop end reads LCNT, LBEG and LEND as its final iteration began (R141). DESIGN
CHOICE (log entry 104): a DONE at LEND is no loop end and leaves LCNT. -/
def Core.resolve (c c0 : Core) (b : Bundle) (next : Nat) : Core :=
  let x := c.xfer
  let c := { c with xfer := .none }
  match x with
  | .jump t link =>
    let c := match link with
      | none => c
      | some d => c.write d next none
    (c.tick 2).goTo t .target
  | .loop n lend =>
    let c := { c with csr := { c.csr with lbeg := BitVec.ofNat 64 next, lend := BitVec.ofNat 64 lend, lcnt := BitVec.ofNat 32 n } }
    if n == 0 then (c.tick 2).goTo lend .skip else c.goTo next .seq
  | .trap code =>
    let d := c.fallThrough c0 next false
    d.takeTrap ⟨d.pc, 0, 0x80, fcIllegalOp, 32768 + code, false, 0, c0.pc⟩ false c0.pc
  | .eret => (c.tick 2).returnTrap
  | .done => { c with run := .doneWait, csr := { c.csr with status := 0 } }
  | .safe =>
    let d := c.fallThrough c0 next false
    if d.preempt then d.beginSave false false else d
  | .none => if Nat.blt c0.iter b.rep then { c with iter := c0.iter + 1 } else c.fallThrough c0 next false
  | .keepLcnt => if Nat.blt c0.iter b.rep then { c with iter := c0.iter + 1 } else c.fallThrough c0 next true

/-- SAFEDIST after a committed iteration: it advances in task mode, and SAFE and DONE set it to 0 (R88, R115). -/
def Core.countSafe (c c0 : Core) : Core :=
  match c.xfer with
  | .safe => { c with csr := { c.csr with safedist := 0 } }
  | .done => { c with csr := { c.csr with safedist := 0 } }
  | _ => if c0.hm then c else { c with csr := { c.csr with safedist := c.csr.safedist + 1 } }

/-- The end of a committed iteration: one issue step passes. -/
def Bundle.retire (b : Bundle) (s0 s : State) : State :=
  let c0 := s0.me
  let next := s.skipPads c0.csr.partid.toNat padLimit ((c0.pc + 4 * b.len) % 2 ^ 64)
  s.updMe (fun c => ((((b.records c).age.countSafe c0).tick 1).resolve c0 b next))

/-- The iteration commits every effective slot, in slot order (R76). -/
def Bundle.commit (b : Bundle) (s : State) (effs : List (Slot × SlotEff)) : State :=
  b.retire s (effs.foldl (fun s x => x.2.commit s) (s.updMe (fun c => { c with settle := false, stalled := false, xfer := .none })))

/-- A trap entry counts (R380). -/
def State.countTrap (s : State) (c0 : Core) : State := s.countCore s.cur [(0x0B, (!c0.hm && s.me.hm).toNat)]
/-- What a stalled iteration's cycle counts as (R380): an interlock, a credit, a fabric slot, or another wait. -/
def stallEvent (c : Core) (effs : List (SlotRun × SlotEff)) : Nat :=
  match effs.find? (fun x => x.2.wait) with
  | none => 6
  | some x =>
    if c.hazard x.1.ins then 3
    else match x.1.ins.cls with
      | some .m => 4
      | some .x => (match x.1.ins with
        | .rld _ _ _ _ => 5 | .rst _ _ _ _ => 5 | .rfaa _ _ _ _ _ => 5 | .rtdec _ _ _ => 5 | .rfence _ _ _ => 5
        | .rfenceFStore _ _ _ _ => 5 | .rfenceFDec _ _ _ => 5 | _ => 4)
      | _ => 6
/-- What a committed iteration counts (R380): itself, and the commands it has enqueued. -/
def State.countCommit (s : State) (s0 : State) : State :=
  let new := s.me.cmds.filter (fun x => Nat.ble s0.clock x.id)
  (s.countCore s.cur [(2, 1), (7, (new.filter (fun x => x.ins.cls == some .m)).length), (8, (new.filter (fun x => x.ins.cls == some .x)).length)]).countTrap s0.me

/-- The iteration stalls for a cycle; FPSTAT is kept as it began (R150). -/
def Core.stall (c : Core) : Core := { c.tick 1 with stalled := true, fpBegan := if c.stalled then c.fpBegan else c.csr.fpstat }

/-- One iteration, decided in the order of R418: an iteration that has begun to stall has passed the deliveries. DESIGN
CHOICE (log entry 103): the token states and table records that POLLK and ZCHK test are those of the turn at which it commits. -/
def Bundle.iterate (b : Bundle) (s : State) : State :=
  let effs := b.slots.map (fun r => (r.slot, r.eff s))
  match effs.findSome? (fun x => x.2.flt) with
  | some f => (s.updMe (fun c => c.faultAt f (maskOf effs (fun e => e.flt.isSome)))).countTrap s.me
  | none =>
    match (if s.me.stalled then none else lowest (effs.flatMap (fun x => x.2.errs))) with
    | some t => (s.updMe (fun c => c.deliver t (maskOf effs (fun e => !e.errs.isEmpty || !e.late.isEmpty)) false)).countTrap s.me
    | none =>
      if effs.any (fun x => x.2.wait) then
        ((effs.foldl (fun s x => x.2.prep s) s).updMe Core.stall).countCore s.cur
          [(1, 1), (stallEvent s.me (b.slots.zip (effs.map (fun x => x.2))), 1)]
      else
        match lowest (effs.flatMap (fun x => x.2.late)) with
        | some t => (s.updMe (fun c => c.deliver t (maskOf effs (fun e => !e.late.isEmpty)) false)).countTrap s.me
        | none =>
          match effs.findSome? (fun x => x.2.ask) with
          | some f => ((f s).updMe Core.stall).countCore s.cur [(1, 1), (6, 1)]
          | none => ((b.commit s effs).countCommit s).countCore s.cur [(1, 1)]

/-- WATCHDOG falls due: SAFEDIST stands at 2,048 and the C slot is neither SAFE nor DONE (R88). -/
def Bundle.watchdog (b : Bundle) (c : Core) : Bool :=
  Nat.ble 2048 c.csr.safedist.toNat &&
    !(b.slots.any (fun r => match r.ins with | .safe _ _ _ => true | .done _ => true | _ => false))

/-- The liveness sets of the running task's code object (R142). -/
def liveCount (s : State) : Nat :=
  match s.codes.find? (fun e => e.1 == s.me.task.codeh) with
  | some e => e.2.live.length
  | none => 0

/-- A slot that raises ILLEGAL_OP whatever its guard though its word decodes: an instruction of I0 in I1 (R68), or a SAFE whose index
names no liveness set of the code object (R142). -/
def SlotRun.illegal (r : SlotRun) (s : State) : Bool :=
  match r.ins with
  | .safe _ i x => Nat.ble (liveCount s) (extLow x i) || extLow x i == 0xFFFF
  | i => r.slot == .i1 && onlyI0 i

/-- The FLTMASK bits of the slots that f picks. -/
def Bundle.maskIf (b : Bundle) (f : SlotRun → Bool) : Nat :=
  b.slots.foldl (fun m r => if f r then m + 2 ^ r.slot.bit else m) 0

/-- A bundle's iteration on the running core; a core that runs no bundle has nothing to execute. -/
def Bundle.run (b : Bundle) (s : State) : Res :=
  let c := s.me
  if c.run != .task then .fault .noTask
  else if c.settle && !c.loads.isEmpty then .next (s.updMe (fun c => c.tick 1))
  else if b.slots.any (fun r => r.illegal s) then
    .next ((s.updMe (fun c => c.faultAt ⟨fcIllegalOp, 0, 0⟩ (b.maskIf (fun r => r.illegal s)))).countTrap s.me)
  else if b.watchdog c then .next (s.updMe (fun c => c.abortWith ⟨fcWatchdog, 1, c.pc, 0⟩))
  else .next (b.iterate s)

/-- The sticky record of an instruction: VALID, the extension word and the slot word (R72). -/
def recordOf (i : Instr) : W64 :=
  let e := encode i
  BitVec.ofNat 64 (2 ^ 63 + e.2.getD 0 * 2 ^ 32 + e.1)

/-- A present slot holding i. -/
def presentSlot (sl : Slot) (i : Instr) (sem : State → SlotEff) : SlotRun :=
  ⟨sl, i, sem, none, match sl with | .v0 => some (recordOf i) | .v1 => some (recordOf i) | .l => some (recordOf i) | _ => none⟩

/-- The bundle whose one slot holds i, with REPEAT 0. -/
def soleBundle (i : Instr) (sem : State → SlotEff) : Bundle := ⟨1 + i.nwords, 0, [presentSlot i.slot i sem]⟩

/-- The meaning of an instruction that stands alone in its bundle, on core State.cur. -/
def runSole (i : Instr) (sem : State → SlotEff) (s : State) : Res := (soleBundle i sem).run s

/-- A slot effect that changes the running core alone. -/
def onCore (f : Core → Core) : SlotEff := { commit := fun s => s.updMe f }
/-- A slot effect that is one result of a latency. -/
def result (d : Dest) (val lat : Nat) : SlotEff := onCore (fun c => c.put d val none lat)
/-- A result with FPSTAT flags (R38). -/
def resultFl (d : Dest) (r : Nat × Nat) (lat : Nat) : SlotEff := onCore (fun c => (c.put d r.1 none lat).orFp r.2)
/-- A slot that faults. -/
def faults (code cause addr : Nat) : SlotEff := { flt := some ⟨code, cause, addr⟩ }

end Sys2Proof.Machine
end

