-- ==== Sys2Proof/Machine/Flags.lean ====
section
/-! DEFINITION. The six exception flags and when operands raise NV; rounding modes and decoded values (R36, R37, R40, R112). The flags
that rounding raises stand with it in Machine/Num.lean; FPSTAT gains them through Core.orFp. -/

namespace Sys2Proof.Machine

/-- The flags, at their FPSTAT positions (R112). -/
def flNX : Nat := 1
def flUF : Nat := 2
def flOF : Nat := 4
def flDZ : Nat := 8
def flNV : Nat := 16
def flSAT : Nat := 32

/-- The rounding modes (R36). -/
def rne : Nat := 0
def rtz : Nat := 1
def rup : Nat := 2
def rdn : Nat := 3

/-- A decoded value: a NaN, signalling or quiet; an infinity; or (−1)^neg × man × 2^exp, a zero when man = 0. -/
inductive FV
  | nan (sig : Bool)
  | inf (neg : Bool)
  | fin (neg : Bool) (man : Nat) (exp : Int)
  deriving DecidableEq, Repr

def FV.isNan : FV → Bool | .nan _ => true | _ => false
/-- NV for a signalling NaN (R40). -/
def FV.sigFlag : FV → Nat | .nan true => flNV | _ => 0
def FV.isZero : FV → Bool | .fin _ 0 _ => true | _ => false
def FV.isInf : FV → Bool | .inf _ => true | _ => false
def FV.isNeg : FV → Bool | .inf n => n | .fin n _ _ => n | .nan _ => false
def FV.negate : FV → FV | .inf n => .inf (!n) | .fin n m e => .fin (!n) m e | v => v

/-- NV of the operands (R40), and of a NaN that the operation makes of numbers. -/
def nvOf (ops : List FV) (r : FV) : Nat :=
  if ops.any (fun v => v.sigFlag != 0) then flNV
  else if r.isNan && !(ops.any FV.isNan) then flNV else 0

/-- Flags of several lanes or terms, ORed (R38). -/
def orFlags (l : List Nat) : Nat := l.foldl Nat.lor 0

end Sys2Proof.Machine
end

