-- ==== Sys2Proof/Machine/Num.lean ====
section
/-! DEFINITION. The number formats: decoding, rounding, arithmetic, integer and fixed-point conversion, and the block formats
(spec/02_number_formats.md). A finite value is a sign, a magnitude and a power of two, and every operation is exact before it is
rounded once. -/

namespace Sys2Proof.Machine

/-- Exponent and fraction bits of a floating-point format code (R39, R41). -/
def fmtBits (code : Nat) : Nat × Nat :=
  match code with
  | 0 => (8, 23) | 1 => (8, 7) | 2 => (5, 10) | 3 => (4, 3) | 4 => (5, 2) | 14 => (11, 52) | _ => (8, 23)
/-- Width of a floating-point format. -/
def fmtWidth (code : Nat) : Nat := 1 + (fmtBits code).1 + (fmtBits code).2
def fmtBias (code : Nat) : Int := (2 ^ ((fmtBits code).1 - 1) : Nat) - 1
/-- The exponent of the lowest bit of a subnormal. -/
def fmtEmin (code : Nat) : Int := 1 - fmtBias code - ((fmtBits code).2 : Nat)
/-- The canonical NaN (R39, R41). -/
def nanBits (code : Nat) : Nat :=
  match code with
  | 0 => 0x7FC00000 | 1 => 0x7FC0 | 2 => 0x7E00 | 3 => 0x7F | 4 => 0x7E | _ => 0x7FF8000000000000

/-- The value of a bit pattern (R39 to R41). -/
def decodeF (code x : Nat) : FV :=
  let eb := (fmtBits code).1
  let mb := (fmtBits code).2
  let neg := bitOf x (eb + mb)
  let e := fld x mb eb
  let f := fld x 0 mb
  if code == 3 then
    if e == 15 && f == 7 then .nan false
    else if e == 0 then .fin neg f (fmtEmin 3) else .fin neg (2 ^ mb + f) (fmtEmin 3 + e - 1)
  else if e == 2 ^ eb - 1 then
    if f == 0 then .inf neg else .nan (!bitOf f (mb - 1))
  else if e == 0 then .fin neg f (fmtEmin code)
  else .fin neg (2 ^ mb + f) (fmtEmin code + e - 1)

/-- The integer a magnitude man × 2^exp (plus, with sticky, a little more than the bits of man say) rounds to, and whether that is
inexact (R36). -/
def roundMag (mode : Nat) (neg : Bool) (man : Nat) (exp : Int) (sticky : Bool) : Nat × Bool :=
  match exp with
  | .ofNat n => (man * 2 ^ n, sticky)
  | .negSucc n =>
    let sh := n + 1
    let q := man / 2 ^ sh
    let rem := man % 2 ^ sh
    let inexact := rem != 0 || sticky
    let half := 2 ^ n
    let up :=
      if mode == 1 then false
      else if mode == 2 then inexact && !neg
      else if mode == 3 then inexact && neg
      else Nat.blt half rem || (rem == half && (sticky || q % 2 == 1))
    (if up then q + 1 else q, inexact)

/-- Round a non-zero magnitude to a floating-point format: the bit pattern and the flags (R37, R40, R41). A sticky input must have at
least two more bits than the format keeps. -/
def roundF (code mode : Nat) (neg : Bool) (man : Nat) (exp : Int) (sticky : Bool) : Nat × Nat :=
  let eb := (fmtBits code).1
  let mb := (fmtBits code).2
  let e : Int := exp + (Nat.log2 man : Nat)
  let lsbU : Int := e - (mb : Nat)
  let lsb : Int := if lsbU < fmtEmin code then fmtEmin code else lsbU
  let r := roundMag mode neg man (exp - lsb) sticky
  let u := roundMag mode neg man (exp - lsbU) sticky
  let eU : Int := if Nat.ble (2 ^ (mb + 1)) u.1 then e + 1 else e
  let bits := (lsb - fmtEmin code).toNat * 2 ^ mb + r.1
  let sgn := if neg then 2 ^ (eb + mb) else 0
  let uf := if r.2 && eU < 1 - fmtBias code then flUF else 0
  let nx := if r.2 then flNX else 0
  if code == 3 then
    if Nat.ble bits 0x7E then (sgn + bits, nx + uf) else (sgn + 0x7E, flOF + flNX)
  else
    let infB := (2 ^ eb - 1) * 2 ^ mb
    if Nat.blt bits infB then (sgn + bits, nx + uf)
    else
      let toInf := mode == 0 || (mode == 2 && !neg) || (mode == 3 && neg)
      (sgn + (if toInf then infB else infB - 1), flOF + flNX)

/-- The encoding of a value in a format, rounded (R40, R41): a NaN becomes the canonical NaN, NV being the caller's. -/
def encodeF (code mode : Nat) (v : FV) : Nat × Nat :=
  let sb := 2 ^ ((fmtBits code).1 + (fmtBits code).2)
  match v with
  | .nan _ => (nanBits code, 0)
  | .inf neg =>
    if code == 3 then ((if neg then sb else 0) + 0x7E, flOF + flNX)
    else ((if neg then sb else 0) + (2 ^ (fmtBits code).1 - 1) * 2 ^ (fmtBits code).2, 0)
  | .fin neg 0 _ => (if neg then sb else 0, 0)
  | .fin neg man exp => roundF code mode neg man exp false

/-- A signed magnitude as an integer. -/
def signed (neg : Bool) (man : Nat) : Int := if neg then -(man : Int) else man
/-- 2^n for an integer n that is not negative. -/
def pow2 (n : Int) : Nat := 2 ^ n.toNat

/-- Sum of two values, exact; neg0 is the sign of an exact zero from values that are not both zeros of one sign (R40). -/
def addV (neg0 : Bool) (x y : FV) : FV :=
  match x, y with
  | .nan _, _ => .nan false
  | _, .nan _ => .nan false
  | .inf a, .inf b => if a == b then .inf a else .nan false
  | .inf a, _ => .inf a
  | _, .inf b => .inf b
  | .fin a m e, .fin b n f =>
    let g := min e f
    let s := signed a (m * pow2 (e - g)) + signed b (n * pow2 (f - g))
    if s == 0 then .fin (if m == 0 && n == 0 && a == b then a else neg0) 0 0 else .fin (s < 0) s.natAbs g
/-- Product of two values, exact. -/
def mulV (x y : FV) : FV :=
  match x, y with
  | .nan _, _ => .nan false
  | _, .nan _ => .nan false
  | .inf a, y => if y.isZero then .nan false else .inf (a != y.isNeg)
  | x, .inf b => if x.isZero then .nan false else .inf (x.isNeg != b)
  | .fin a m e, .fin b n f => .fin (a != b) (m * n) (e + f)

/-- A rounded result with the operation's NV (R132). -/
def finish (code mode : Nat) (ops : List FV) (r : FV) : Nat × Nat :=
  let b := encodeF code mode r
  (b.1, Nat.lor b.2 (nvOf ops r))

def fAdd (code mode x y : Nat) : Nat × Nat :=
  let a := decodeF code x
  let b := decodeF code y
  finish code mode [a, b] (addV (mode == 3) a b)
def fSub (code mode x y : Nat) : Nat × Nat :=
  let a := decodeF code x
  let b := decodeF code y
  finish code mode [a, b] (addV (mode == 3) a b.negate)
def fMul (code mode x y : Nat) : Nat × Nat :=
  let a := decodeF code x
  let b := decodeF code y
  finish code mode [a, b] (mulV a b)
/-- x × y + z with one rounding; 0 × ∞ raises NV even when z is a quiet NaN (R132). -/
def fFma (code mode x y z : Nat) : Nat × Nat :=
  let a := decodeF code x
  let b := decodeF code y
  let c := decodeF code z
  let p := mulV a b
  let r := addV (mode == 3) p c
  let b1 := encodeF code mode r
  let bad := p.isNan && !a.isNan && !b.isNan
  (b1.1, Nat.lor b1.2 (if bad then flNV else nvOf [a, b, c] r))

/-- x / y (R132); a finite non-zero value over zero raises DZ. -/
def fDiv (code mode x y : Nat) : Nat × Nat :=
  let a := decodeF code x
  let b := decodeF code y
  let neg := a.isNeg != b.isNeg
  match a, b with
  | .nan _, _ => finish code mode [a, b] (.nan false)
  | _, .nan _ => finish code mode [a, b] (.nan false)
  | .inf _, .inf _ => finish code mode [a, b] (.nan false)
  | .inf _, _ => encodeF code mode (.inf neg)
  | _, .inf _ => encodeF code mode (.fin neg 0 0)
  | .fin _ m e, .fin _ n f =>
    if n == 0 then
      if m == 0 then finish code mode [a, b] (.nan false)
      else ((encodeF code mode (.inf neg)).1, flDZ)
    else if m == 0 then encodeF code mode (.fin neg 0 0)
    else
      let k := (fmtBits code).2 + 4 + Nat.log2 n
      roundF code mode neg (m * 2 ^ k / n) (e - f - (k : Nat)) (m * 2 ^ k % n != 0)

/-- The integer square root of x below 2^(2n), by bits. -/
def isqrtFrom (x : Nat) : Nat → Nat → Nat
  | 0, r => r
  | n + 1, r => isqrtFrom x n (if Nat.ble ((r + 2 ^ n) * (r + 2 ^ n)) x then r + 2 ^ n else r)
def isqrt (x : Nat) : Nat := isqrtFrom x (Nat.log2 x / 2 + 1) 0

/-- √x (R132): −0 stays, other negatives raise NV. -/
def fSqrt (code mode x : Nat) : Nat × Nat :=
  let a := decodeF code x
  match a with
  | .nan _ => finish code mode [a] (.nan false)
  | .inf neg => if neg then finish code mode [a] (.nan false) else encodeF code mode a
  | .fin neg m e =>
    if m == 0 then encodeF code mode a
    else if neg then finish code mode [a] (.nan false)
    else
      let odd := e % 2 != 0
      let k := (fmtBits code).2 + 4
      let big := (if odd then 2 * m else m) * 2 ^ (2 * k)
      let r := isqrt big
      roundF code mode false r ((if odd then e - 1 else e) / 2 - (k : Nat)) (r * r != big)

/-- Order of two values that are no NaN: x < y and x = y, zeros equal. -/
def ltV (x y : FV) : Bool :=
  match x, y with
  | .inf a, .inf b => a && !b
  | .inf a, _ => a
  | _, .inf b => !b
  | .fin a m e, .fin b n f =>
    let g := min e f
    decide (signed a (m * pow2 (e - g)) < signed b (n * pow2 (f - g)))
  | _, _ => false
def eqV (x y : FV) : Bool := !x.isNan && !y.isNan && !ltV x y && !ltV y x

/-- FMIN and FMAX (R133): an operand unchanged, −0 below +0; a NaN gives the canonical NaN. -/
def fMinMax (code : Nat) (isMax : Bool) (x y : Nat) : Nat × Nat :=
  let a := decodeF code x
  let b := decodeF code y
  if a.isNan || b.isNan then (nanBits code, Nat.lor a.sigFlag b.sigFlag)
  else
    let xLess := ltV a b || (eqV a b && a.isNeg && !b.isNeg)
    (if xLess != isMax then x else y, 0)

/-- The conditions of FCMP and VCMP (R134, R159): 0 eq, 1 lt, 2 le, 3 un. -/
def fCmp (code cond x y : Nat) : Bool × Nat :=
  let a := decodeF code x
  let b := decodeF code y
  let anyNan := a.isNan || b.isNan
  let sig := Nat.lor a.sigFlag b.sigFlag
  match cond with
  | 0 => (!anyNan && eqV a b, sig)
  | 1 => (!anyNan && ltV a b, if anyNan then flNV else 0)
  | 2 => (!anyNan && (ltV a b || eqV a b), if anyNan then flNV else 0)
  | _ => (anyNan, sig)

/-- The class bit of FCLASS (R136). -/
def fClass (code x : Nat) : Nat :=
  let eb := (fmtBits code).1
  let mb := (fmtBits code).2
  match decodeF code x with
  | .nan sig => if sig then 8 else 9
  | .inf neg => if neg then 0 else 7
  | .fin neg man _ =>
    if man == 0 then (if neg then 3 else 4)
    else if fld x mb eb == 0 then (if neg then 2 else 5) else (if neg then 1 else 6)

/-- A conversion between floating-point formats (R40, R41). -/
def fCvt (src dst mode x : Nat) : Nat × Nat :=
  let v := decodeF src x
  let b := encodeF dst mode v
  (b.1, Nat.lor b.2 v.sigFlag)

/-- An integer times 2^−f, rounded (R135, R43). -/
def intToF (dst mode : Nat) (i : Int) (f : Nat) : Nat × Nat :=
  if i == 0 then (0, 0) else roundF dst mode (i < 0) i.natAbs (-(f : Int)) false

/-- x × 2^f as an integer, into lo to hi (R43, R51). -/
def valToInt (mode : Nat) (v : FV) (f : Nat) (lo hi : Int) : Int × Nat :=
  match v with
  | .nan _ => (0, flNV)
  | .inf neg => (if neg then lo else hi, flOF + flSAT + flNX)
  | .fin neg man exp =>
    let r := roundMag mode neg man (exp + (f : Nat)) false
    let i := signed neg r.1
    if i < lo then (lo, flSAT + flNX) else if hi < i then (hi, flSAT + flNX) else (i, if r.2 then flNX else 0)

/-! ## Magnitudes in block formats -/

/-- |x| of a block input: ±∞ counts as the largest FP32 (R46); zero for a NaN. -/
def blockMag : FV → Nat × Int
  | .nan _ => (0, 0)
  | .inf _ => (2 ^ 24 - 1, 104)
  | .fin _ m e => (m, e)
/-- Order of magnitudes. -/
def magLt (x y : Nat × Int) : Bool :=
  let g := min x.2 y.2
  Nat.blt (x.1 * pow2 (x.2 - g)) (y.1 * pow2 (y.2 - g))
/-- The distance of two magnitudes. -/
def magDist (x y : Nat × Int) : Nat × Int :=
  let g := min x.2 y.2
  let a := x.1 * pow2 (x.2 - g)
  let b := y.1 * pow2 (y.2 - g)
  (if Nat.ble a b then b - a else a - b, g)
def magMax (l : List FV) : Nat × Int := l.foldl (fun m v => if magLt m (blockMag v) then blockMag v else m) (0, 0)
/-- floor(log2) of a magnitude that is not zero. -/
def floorLog2 (m : Nat × Int) : Int := m.2 + (Nat.log2 m.1 : Nat)
def clampI (x lo hi : Int) : Int := if x < lo then lo else if hi < x then hi else x

/-- The magnitude bits of a DX format (R44). -/
def dxM (code : Nat) : Nat := match code with | 8 => 6 | 9 => 4 | _ => 2
/-- Bits of a DX element. -/
def dxWidth (code : Nat) : Nat := dxM code + 2

/-- A DX element's value under its header (R44). -/
def dxDecode (code el e0 e1 : Nat) : FV :=
  let mb := dxM code
  let e := if bitOf el (mb + 1) then e1 else e0
  let s := bitOf el mb
  let m := fld el 0 mb
  if e == 0xFF then .nan false
  else if m == 0 then (if s then .nan false else .fin false 0 0)
  else .fin s m ((e : Int) - 127 - (mb : Nat))

/-- Quantisation of one finite input with one exponent (R46): the magnitude, whether it saturates, and the error. -/
def dxTry (code : Nat) (x : Nat × Int) (e : Nat) : Nat × Bool × (Nat × Int) :=
  let mb := dxM code
  let u := (roundMag rne false x.1 (x.2 + (mb : Nat) - ((e : Int) - 127)) false).1
  let sat := Nat.ble (2 ^ mb) u
  let u := if sat then 2 ^ mb - 1 else u
  (u, sat, magDist x (u, (e : Int) - 127 - (mb : Nat)))

/-- Quantisation to a DX format (R46): the elements, E0, E1 and the flags. -/
def dxQuant (code dist : Nat) (xs : List FV) : List Nat × Nat × Nat × Nat :=
  let mb := dxM code
  let a := magMax xs
  let e1 := if a.1 == 0 then 0 else (clampI (floorLog2 a + 128) 0 254).toNat
  let e0 := e1 - dist
  let one (x : FV) : Nat × Nat :=
    match x with
    | .nan sig => (2 ^ (mb + 1) + 2 ^ mb, if sig then flNV else 0)
    | .inf neg => (2 ^ (mb + 1) + neg.toNat * 2 ^ mb + (2 ^ mb - 1), flOF + flSAT + flNX)
    | .fin neg m e =>
      let t0 := dxTry code (m, e) e0
      let t1 := dxTry code (m, e) e1
      let sel0 := magLt t0.2.2 t1.2.2
      let t := if sel0 then t0 else t1
      let s := if t.1 == 0 then 0 else neg.toNat
      ((if sel0 then 0 else 2 ^ (mb + 1)) + s * 2 ^ mb + t.1,
        Nat.lor (if t.2.2.1 == 0 then 0 else flNX) (if t.2.1 then flSAT + flNX else 0))
  let r := xs.map one
  (r.map Prod.fst, e0, e1, r.foldl (fun f p => Nat.lor f p.2) 0)

/-- An MX element's value under its scale (R47); code 11 is E4M3, 12 E2M1, 13 the 8-bit integer. -/
def mxDecode (code el x : Nat) : FV :=
  if x == 0xFF then .nan false
  else
    let sc : Int := (x : Int) - 127
    match code with
    | 11 => match decodeF 3 el with
      | .fin n m e => .fin n m (e + sc)
      | v => v
    | 12 =>
      let e := fld el 1 2
      let f := fld el 0 1
      if e == 0 then .fin (bitOf el 3) f (-1 + sc) else .fin (bitOf el 3) (2 + f) ((e : Int) - 2 + sc)
    | _ => let i := sext el 8
      .fin (i < 0) i.natAbs (-6 + sc)

/-- An E2M1 encoding of a magnitude, rounded to nearest even: 7 (6.0) and 8 or more say the value lies beyond (R47). -/
def e2m1Round (man : Nat) (exp : Int) : Nat × Bool :=
  let e : Int := exp + (Nat.log2 man : Nat)
  let lsb : Int := if e < 1 then -1 else e - 1
  let r := roundMag rne false man (exp - lsb) false
  ((lsb + 1).toNat * 2 + r.1, r.2)

/-- One finite element of an MX block at scale exponent sc (R48): the element and its flags. -/
def mxQuantFin (code : Nat) (neg : Bool) (man : Nat) (exp : Int) : Nat × Nat :=
  match code with
  | 11 =>
    if man == 0 then (if neg then 0x80 else 0, 0)
    else
      let r := roundF 3 rne neg man exp false
      (r.1, if Nat.land r.2 flOF != 0 then flSAT + flNX else Nat.land r.2 flNX)
  | 12 =>
    let r := if man == 0 then (0, false) else e2m1Round man exp
    if Nat.ble r.1 7 then (r.1 + 8 * neg.toNat, if r.2 then flNX else 0) else (7 + 8 * neg.toNat, flSAT + flNX)
  | _ =>
    let r := roundMag rne neg man (exp + 6) false
    let i := signed neg r.1
    if i < -128 then (128, flSAT + flNX) else if 127 < i then (127, flSAT + flNX) else ((i % 256).toNat, if r.2 then flNX else 0)
/-- The largest magnitude of an MX element with a sign (R48). -/
def mxLargest (code : Nat) (neg : Bool) : Nat :=
  match code with
  | 11 => 0x7E + 0x80 * neg.toNat
  | 12 => 7 + 8 * neg.toNat
  | _ => if neg then 128 else 127

/-- Quantisation to an MX format (R48): the elements, X and the flags. -/
def mxQuant (code : Nat) (xs : List FV) : List Nat × Nat × Nat :=
  if xs.any FV.isNan then
    (xs.map (fun _ => 0), 0xFF,
      Nat.lor (xs.foldl (fun f v => Nat.lor f v.sigFlag) 0) (if xs.all FV.isNan then 0 else flNX))
  else
    let a := magMax xs
    let e : Int := match code with | 11 => 8 | 12 => 2 | _ => 0
    let x := if a.1 == 0 then 0 else (clampI (floorLog2 a - e + 127) 0 254).toNat
    let one (v : FV) : Nat × Nat :=
      match v with
      | .nan _ => (0, 0)
      | .inf neg => (mxLargest code neg, flOF + flSAT + flNX)
      | .fin neg m ex => mxQuantFin code neg m (ex - ((x : Int) - 127))
    let r := xs.map one
    (r.map Prod.fst, x, r.foldl (fun f p => Nat.lor f p.2) 0)

/-! ## Summation order (R55, R56) -/

/-- The product of two decoded operands with the NV it raises (R55): 0 × ∞ and a signalling operand. -/
def mulTerm (x y : FV) : FV × Nat :=
  let p := mulV x y
  (p, nvOf [x, y] p)

/-- Truncation of a term toward zero to a multiple of 2^lsb, as an integer at that scale, and whether bits were lost. -/
def truncAt (lsb : Int) (neg : Bool) (man : Nat) (exp : Int) : Int × Bool :=
  let r := roundMag rtz neg man (exp - lsb) false
  (signed neg r.1, r.2)

/-- The block sum of R55: the FP32 pattern and its flags. nv is the NV of the products. -/
def blockSum (ps : List FV) (nv : Nat) : Nat × Nat :=
  let pinf := ps.any (fun p => p.isInf && !p.isNeg)
  let ninf := ps.any (fun p => p.isInf && p.isNeg)
  if ps.any FV.isNan || (pinf && ninf) then (nanBits 0, Nat.lor nv (if pinf && ninf then flNV else 0))
  else if pinf then (0x7F800000, nv)
  else if ninf then (0xFF800000, nv)
  else if ps.all FV.isZero then (0, nv)
  else
    let emax := ps.foldl (fun (m : Option Int) p => match p with
      | .fin _ man e =>
        if man == 0 then m else
          let l := floorLog2 (man, e)
          some (match m with | none => l | some k => if k < l then l else k)
      | _ => m) none
    let lsb : Int := emax.getD 0 - 193
    let ts := ps.map (fun p => match p with
      | .fin n m e => truncAt lsb n m e
      | _ => (0, false))
    let s := ts.foldl (fun a t => a + t.1) 0
    let sticky := ts.any Prod.snd
    if s == 0 then (0, Nat.lor nv (if sticky then flNX else 0))
    else if sticky then
      let r := roundF 0 rne (s < 0) (4 * s.natAbs + 1) (lsb - 2) false
      (r.1, Nat.lor nv (Nat.lor r.2 flNX))
    else
      let r := roundF 0 rne (s < 0) s.natAbs lsb false
      (r.1, Nat.lor nv r.2)

/-- A pairwise tree over a list of 2^k values (R57). -/
def treeLevel (op : Nat → Nat → Nat × Nat) : List Nat → List Nat × Nat
  | a :: b :: t =>
    let r := op a b
    let rest := treeLevel op t
    (r.1 :: rest.1, Nat.lor r.2 rest.2)
  | [a] => ([a], 0)
  | [] => ([], 0)
def treeReduce (op : Nat → Nat → Nat × Nat) : Nat → List Nat → Nat × Nat
  | 0, l => (nth l 0 0, 0)
  | k + 1, l =>
    let r := treeLevel op l
    let u := treeReduce op k r.1
    (u.1, Nat.lor r.2 u.2)

end Sys2Proof.Machine
end

