-- ==== Sys2Proof/Machine/Tensor.lean ====
section
/-! DEFINITION. Tensor descriptors (R349 to R355), the shape of tiles and frames (R190, R328, R329), where the bytes of a tile lie in
memory (R350 to R352), and the elements of a frame as values (R42 to R50). -/

namespace Sys2Proof.Machine

/-! ## Descriptors -/

/-- A descriptor image (R349). -/
structure Desc where
  base : Nat
  fmt : Nat
  wsel : Nat
  sgn : Bool
  v : Bool
  we : Bool
  ax : Nat
  ncp : Bool
  shape : Nat
  twv : Bool
  xf : Nat
  hil : Nat
  zero : Nat
  lease : Nat
  ext : List Nat
  str : List Int
  sbase : Nat
  sstr : List Int
  twin : Nat
  deriving DecidableEq, Repr

/-- The n bytes of an image at an offset, as a number. -/
def imgFld (img : List Byte) (off n : Nat) : Nat := ofBytes ((img.drop off).take n)

/-- A descriptor from its 128 bytes (R349). -/
def Desc.ofImg (img : List Byte) : Desc :=
  let f := imgFld img
  { base := f 0 8, fmt := fld (f 8 1) 0 4, wsel := fld (f 8 1) 4 3, sgn := bitOf (f 8 1) 7, v := bitOf (f 9 1) 0,
    we := bitOf (f 9 1) 1, ax := fld (f 9 1) 2 1, ncp := bitOf (f 9 1) 3, shape := fld (f 9 1) 4 3, twv := bitOf (f 9 1) 7,
    xf := fld (f 10 1) 0 6, hil := fld (f 10 1) 6 2, lease := f 12 4,
    ext := (upFrom 0 4).map (fun d => f (16 + 4 * d) 4), str := (upFrom 0 4).map (fun d => sext (f (32 + 8 * d) 8) 64),
    sbase := f 64 8, sstr := (upFrom 0 4).map (fun d => sext (f (72 + 4 * d) 4) 32), twin := fld (f 88 4) 0 20,
    zero := f 11 1 + fld (f 88 4) 20 12 + f 92 36 }

/-- The entry of a tensor identifier in the partition's descriptor table (R363). -/
def State.descImg (s : State) (part tid : Nat) : List Byte := s.bytes ((s.part part).fld 0x50 8 + 128 * tid) 128
/-- The descriptor of a tensor identifier; an identifier at or beyond DTN names none. -/
def State.desc (s : State) (part tid : Nat) : Desc :=
  let d := Desc.ofImg (s.descImg part tid)
  if Nat.ble ((s.part part).fld 0x58 4) tid then { d with v := false } else d
/-- The descriptor by which a command reads and writes an identifier's tiles: the one in force as it started (R259). -/
def Cmd.desc (x : Cmd) (s : State) (tid : Nat) : Desc :=
  match x.imgs.find? (fun e => e.1 == tid) with
  | some e => Desc.ofImg e.2
  | none => s.desc x.part tid
/-- The lease setting in ns (R349). -/
def Desc.leaseNs (d : Desc) : Nat := if d.lease == 0 then 10000 else d.lease

def isDxF (code : Nat) : Bool := Nat.ble 8 code && Nat.ble code 10
def isMxF (code : Nat) : Bool := Nat.ble 11 code && Nat.ble code 13
/-- Formats with block scales along an axis: DX and MX. -/
def Desc.scaled (d : Desc) : Bool := d.wsel == 0 && (isDxF d.fmt || isMxF d.fmt)
/-- Wb: weight codes with a scale plane (R49). -/
def Desc.isWb (d : Desc) : Bool := Nat.ble 1 d.wsel && Nat.ble d.wsel 4
/-- Planes of a weight-code tile (R328). -/
def Desc.planes (d : Desc) : Nat := if d.wsel == 5 then (if d.ncp then 2 else 1) else d.wsel
/-- Bits of an element in memory (R35). -/
def fmtElBits (code : Nat) : Nat :=
  match code with
  | 0 => 32 | 1 => 16 | 2 => 16 | 7 => 4 | 9 => 6 | 10 => 4 | 12 => 4 | 14 => 64 | 15 => 64 | _ => 8
/-- Bytes of a block header (R190). -/
def Desc.hsz (d : Desc) : Nat := if d.wsel != 0 then (if d.isWb then 1 else 0) else if isDxF d.fmt then 2 else if isMxF d.fmt then 1 else 0
/-- Packed formats, whose rows have no element stride (R350). -/
def Desc.packed (d : Desc) : Bool := d.wsel != 0 || d.fmt == 7 || d.scaled

/-- Tile rows, row bytes of a frame, and elements of a row (R190, R328). -/
def Desc.r (d : Desc) : Nat := 16 * 2 ^ d.shape
def Desc.rowB (d : Desc) : Nat := 16384 / d.r
def Desc.kt (d : Desc) : Nat := match d.planes with | 1 => 1024 | 2 => 512 | 3 => 320 | _ => 256
def Desc.e (d : Desc) : Nat :=
  if d.wsel != 0 then d.kt else if isDxF d.fmt then d.rowB else d.rowB * 8 / fmtElBits d.fmt
/-- Data bytes and sidecar bytes used of a tile (R212, R328). -/
def Desc.dataB (d : Desc) : Nat :=
  if d.wsel != 0 then 64 * (d.kt / 32) * 4 * d.planes else if isDxF d.fmt then 16384 * fmtElBits d.fmt / 8 else 16384
def Desc.sideB (d : Desc) : Nat :=
  if d.isWb then 16 * (d.kt / 32) else if d.wsel != 0 then 0
  else if isDxF d.fmt || d.fmt == 12 then 1024 else if isMxF d.fmt then 512 else 0
def Desc.sKib (d : Desc) : Nat := cdiv (d.dataB + d.sideB) 1024
/-- RB, the bytes a packed row of EXT0 elements occupies (R350). -/
def Desc.rb (d : Desc) : Nat :=
  let n := nth d.ext 0 0
  if d.wsel != 0 then cdiv n 32 * 4 * d.planes
  else if d.scaled then cdiv n 32 * (4 * fmtElBits d.fmt) else cdiv n 2

/-- NoAlias over dimensions in ascending order of stride (R354). -/
def noAliasFrom : Nat → List (Nat × Nat) → Bool
  | _, [] => true
  | span, (st, n) :: t => Nat.ble span st && noAliasFrom (span + st * (n - 1)) t
def insDim (x : Nat × Nat) : List (Nat × Nat) → List (Nat × Nat)
  | [] => [x]
  | y :: t => if Nat.ble x.1 y.1 then x :: y :: t else y :: insDim x t
def noAlias (u : Nat) (dims : List (Nat × Nat)) : Bool :=
  noAliasFrom u ((dims.filter (fun x => Nat.blt 1 x.2)).foldr insDim [])

/-- The extents of the scale plane (R352). -/
def Desc.sext (d : Desc) : List Nat :=
  let e := d.ext
  if d.isWb then [cdiv (nth e 0 0) 32, cdiv (nth e 1 0) 8, nth e 2 0, nth e 3 0]
  else if d.ax == 0 then [cdiv (nth e 0 0) 32, nth e 1 0, nth e 2 0, nth e 3 0] else [nth e 0 0, cdiv (nth e 1 0) 32, nth e 2 0, nth e 3 0]

/-- The first list of R353 for identifier tid of a partition with dtn entries. -/
def Desc.bad (d : Desc) (tid dtn : Nat) : Bool :=
  let isz : Int := (fmtElBits d.fmt / 8 : Nat)
  d.zero != 0 || (d.wsel == 0 && d.fmt == 14) || Nat.ble 6 d.wsel || (d.wsel != 0 && d.fmt != 0) ||
  (d.sgn && !d.isWb) || (d.ncp && d.wsel != 5) || Nat.ble 5 d.shape || Nat.ble 2 d.hil ||
  (d.xf != 0 && (d.fmt != 15 || d.xf == 63)) || (d.ax == 1 && (!d.scaled || d.shape == 0)) ||
  (d.twv && (!d.scaled || d.twin == tid)) || (!d.twv && d.twin != 0) || d.ext.any (· == 0) ||
  Nat.blt 2048 (cdiv (nth d.ext 0 0) d.e) || Nat.blt 2048 (cdiv (nth d.ext 1 0) d.r) ||
  Nat.blt 2048 (nth d.ext 2 0) || Nat.blt 2048 (nth d.ext 3 0) ||
  (if d.packed then nth d.str 0 0 != 0 || d.base % 8 != 0 || (d.str.drop 1).any (fun x => x % 8 != 0)
   else (d.base : Int) % isz != 0 || d.str.any (fun x => x % isz != 0)) ||
  (if d.hsz == 0 then d.sbase != 0 || d.sstr.any (· != 0)
   else d.sbase % d.hsz != 0 || d.sstr.any (fun x => x % (d.hsz : Nat) != 0)) ||
  Nat.ble dtn tid

/-- The alias check of data and scale plane passes (R354). -/
def Desc.aliasFree (d : Desc) : Bool :=
  let dims := (d.str.map Int.natAbs).zip d.ext
  (if d.packed then noAlias d.rb (dims.drop 1) else noAlias (fmtElBits d.fmt / 8) dims) &&
    (d.hsz == 0 || noAlias d.hsz ((d.sstr.map Int.natAbs).zip d.sext))

/-- What validation answers: none, or the fault (R353). -/
def descCheck (img : List Byte) (tid dtn : Nat) : Option (Nat × Nat) :=
  let d := Desc.ofImg img
  if !d.v then (if Nat.ble dtn tid then some (fcDescInvalid, 1) else none)
  else if d.bad tid dtn then some (fcDescInvalid, 1)
  else if d.we && !d.aliasFree then some (fcDescAlias, 0) else none

/-- The validated image enters the table; an image with V = 0 retires the identifier (R353). Frames of the identifier, and their data on the way
to and from memory, stand under an earlier image from now on (R217). A frame still FILLING has no data of its own: what it stands under
comes with its fill's answer. -/
def State.setDesc (s : State) (part tid : Nat) (img : List Byte) : State :=
  let a := (s.part part).fld 0x50 8 + 128 * tid
  let s1 := if (Desc.ofImg img).v then s.wrBytes a img
    else s.wrBytes (a + 9) [BitVec.ofNat 8 (setFld (s.byte (a + 9)).toNat 0 1 0)]
  let mine (t : Tile) : Bool := t.part == part && t.tid == tid
  { s1 with
    clusters := s1.clusters.map (fun c => (c.1, { c.2 with frames := c.2.frames.map (fun f =>
      (f.1, if mine f.2.tile && f.2.st != .filling then { f.2 with redef := true } else f.2)) })),
    msgs := s1.msgs.map (fun m => match m with
      | .drainData cl t sh rd ver m wr => .drainData cl t sh (rd || mine t) ver m wr
      | .wbData cl t sh rd ver m park wr => .wbData cl t sh (rd || mine t) ver m park wr
      | .fillAns cl t v g l sh rd m => .fillAns cl t v g l sh (rd || mine t) m
      | m => m) }

/-! ## Tiles -/

/-- Coordinate n of a tile name (R103). -/
def Tile.c (t : Tile) (n : Nat) : Nat := fld t.coord (11 * n) 11
/-- The tile a q register names in a partition (R103). -/
def tileOf (part q : Nat) : Tile := ⟨part, fld q 44 20, fld q 0 44⟩
def Tile.q (t : Tile) : Nat := t.tid * 2 ^ 44 + t.coord
/-- The tile with coordinate n advanced by k modulo 2^11 (R203, R253). -/
def Tile.step (t : Tile) (n : Nat) (k : Int) : Tile :=
  { t with coord := setFld t.coord (11 * n) 11 (((t.c n : Int) + k) % 2048).toNat }
/-- The tile of the twin (R355). -/
def Tile.twin (t : Tile) (tid : Nat) : Tile :=
  { t with tid := tid, coord := setFld (setFld t.coord 0 11 (t.c 1)) 11 11 (t.c 0) }
/-- The tile's first element lies beyond an extent (R351). -/
def Desc.outside (d : Desc) (t : Tile) : Bool :=
  Nat.ble (nth d.ext 0 0) (d.e * t.c 0) || Nat.ble (nth d.ext 1 0) (d.r * t.c 1) ||
    Nat.ble (nth d.ext 2 0) (t.c 2) || Nat.ble (nth d.ext 3 0) (t.c 3)
/-- The set of a tile (R191). -/
def Tile.set (t : Tile) : Nat := (t.tid + t.c 0 + 9 * t.c 1 + 25 * t.c 2 + 49 * t.c 3) % 64

/-- A GVA modulo 2^64. -/
def wrap64 (x : Int) : Nat := (x % (2 ^ 64 : Nat)).toNat
/-- The first byte of the row i1 of a tensor, in dimensions 1 to 3 (R350). -/
def Desc.rowAddr (d : Desc) (i1 i2 i3 : Nat) : Int :=
  (d.base : Int) + (i1 : Int) * nth d.str 1 0 + (i2 : Int) * nth d.str 2 0 + (i3 : Int) * nth d.str 3 0
/-- The byte of the tensor that holds element (i0, i1, i2, i3) (R350). -/
def Desc.elAddr (d : Desc) (i0 i1 i2 i3 : Nat) : Nat :=
  let off0 : Int := if d.packed then ((if d.wsel != 0 then i0 / 32 * 4 * d.planes else i0 * fmtElBits d.fmt / 8 : Nat) : Int)
    else (i0 : Int) * nth d.str 0 0
  wrap64 (d.rowAddr i1 i2 i3 + off0)
/-- The header of block (b0, b1, b2, b3) (R352). -/
def Desc.hdrAddr (d : Desc) (b : List Nat) : Nat :=
  wrap64 ((d.sbase : Int) + (b.zip d.sstr).foldl (fun x y => x + (y.1 : Int) * y.2) 0)

/-- One byte of a tile: its frame offset, its guest virtual address, the bits of it the tile holds, and whether a write-back writes it. -/
structure TileByte where
  off : Nat
  gva : Nat
  mask : Nat
  back : Bool
  deriving DecidableEq, Repr

/-- Of byte b of a row of weight codes, n of them within the extents, the bits that hold codes of those (R190, R329). -/
def codeMask (planes n b : Nat) : Nat :=
  2 ^ Nat.min 8 (Nat.min 32 (n - 32 * (b / 4 / planes)) - 8 * (b % 4)) - 1
/-- The data bytes of tile row i that hold elements within the extents (R190, R210, R350). -/
def Desc.rowBytes (d : Desc) (t : Tile) (i : Nat) : List TileByte :=
  let i1 := d.r * t.c 1 + i
  if Nat.ble (nth d.ext 1 0) i1 then []
  else
    let n := Nat.min d.e (nth d.ext 0 0 - d.e * t.c 0)
    let row := d.rowAddr i1 (t.c 2) (t.c 3)
    if d.wsel != 0 then
      let first := d.e * t.c 0 * d.planes / 8
      ((upFrom 0 (cdiv n 32 * 4 * d.planes)).filter (fun b => codeMask d.planes n b != 0)).map (fun b =>
        ⟨i * d.rowB + b, wrap64 (row + ((first + b : Nat) : Int)), codeMask d.planes n b, true⟩)
    else if d.packed then
      let w := fmtElBits d.fmt
      let bits := n * w
      let first := d.e * t.c 0 * w / 8
      (upFrom 0 (cdiv bits 8)).map (fun b =>
        ⟨i * d.rowB + b, wrap64 (row + ((first + b : Nat) : Int)), if Nat.ble (8 * b + 8) bits then 255 else 2 ^ (bits % 8) - 1, true⟩)
    else
      let sz := fmtElBits d.fmt / 8
      (upFrom 0 n).flatMap (fun j => (upFrom 0 sz).map (fun b =>
        ⟨i * d.rowB + j * sz + b, wrap64 (row + ((d.e * t.c 0 + j : Nat) : Int) * nth d.str 0 0 + (b : Int)), 255, true⟩))

/-- The header bytes of a tile within the scale plane's extents, at their sidecar offsets from 16,384 on (R190, R329, R352). -/
def Desc.hdrBytes (d : Desc) (t : Tile) : List TileByte :=
  let inside (b : List Nat) : Bool := (b.zip d.sext).all (fun x => Nat.blt x.1 x.2)
  let put (b : List Nat) (off : Nat) (back : Bool) : List TileByte :=
    if inside b then (upFrom 0 d.hsz).map (fun x => ⟨16384 + off + x, (d.hdrAddr b + x) % 2 ^ 64, 255, back⟩) else []
  if d.isWb then
    (upFrom 0 (d.kt / 32)).flatMap (fun k => (upFrom 0 8).flatMap (fun c =>
      let b := [d.kt / 32 * t.c 0 + k, 8 * t.c 1 + c, t.c 2, t.c 3]
      put b (2 * (8 * k + c)) true ++ put b (2 * (8 * k + c) + 1) false))
  else if !d.scaled then []
  else if d.ax == 0 then
    let m := d.e / 32
    (upFrom 0 d.r).flatMap (fun i => (upFrom 0 m).flatMap (fun b =>
      put [m * t.c 0 + b, d.r * t.c 1 + i, t.c 2, t.c 3] (d.hsz * (i * m + b)) true))
  else
    (upFrom 0 (d.r / 32)).flatMap (fun m => (upFrom 0 d.e).flatMap (fun j =>
      put [d.e * t.c 0 + j, d.r / 32 * t.c 1 + m, t.c 2, t.c 3] (d.hsz * (m * d.e + j)) true))

/-- Every byte of a tile that memory holds (R210). -/
def Desc.tileBytes (d : Desc) (t : Tile) : List TileByte := (upFrom 0 d.r).flatMap (d.rowBytes t) ++ d.hdrBytes t

/-- The tile's first byte (R205). -/
def Desc.firstByte (d : Desc) (t : Tile) : Nat := d.elAddr (d.e * t.c 0) (d.r * t.c 1) (t.c 2) (t.c 3)

/-! ## Elements of a frame -/

/-- The bits of a frame from bit position n on (R6). -/
def frameBits (m : SMap Byte) (pos w : Nat) : Nat := fld (ofBytes (mgetBytes m (pos / 8) ((pos % 8 + w + 7) / 8))) (pos % 8) w
/-- Bits of a frame replaced. -/
def setFrameBits (m : SMap Byte) (pos w v : Nat) : SMap Byte :=
  let n := (pos % 8 + w + 7) / 8
  msetBytes m (pos / 8) (toBytes n (setFld (ofBytes (mgetBytes m (pos / 8) n)) (pos % 8) w v))

/-- Bits of an element as a frame holds it. -/
def Desc.elW (d : Desc) : Nat := fmtElBits d.fmt
/-- The bit position of element (i, j) of a frame (R190). -/
def Desc.elPos (d : Desc) (i j : Nat) : Nat := 8 * (i * d.rowB) + j * d.elW
/-- The sidecar offset of the header of element (i, j) (R190). -/
def Desc.hdrOff (d : Desc) (i j : Nat) : Nat :=
  16384 + d.hsz * (if d.ax == 0 then i * (d.e / 32) + j / 32 else i / 32 * d.e + j)
/-- The raw element (i, j). -/
def Desc.elRaw (d : Desc) (m : SMap Byte) (i j : Nat) : Nat := frameBits m (d.elPos i j) d.elW
/-- The header of element (i, j). -/
def Desc.hdr (d : Desc) (m : SMap Byte) (i j : Nat) : Nat := ofBytes (mgetBytes m (d.hdrOff i j) d.hsz)

/-- The value of a raw element under its header (R39 to R47). -/
def elValue (fmt raw hdr : Nat) : FV :=
  if isDxF fmt then dxDecode fmt raw (hdr % 256) (hdr / 256)
  else if isMxF fmt then mxDecode fmt raw hdr
  else match fmt with
    | 5 => let x := sext raw 8; .fin (decide (x < 0)) x.natAbs 0
    | 6 => .fin false raw 0
    | 7 => let x := sext raw 4; .fin (decide (x < 0)) x.natAbs 0
    | _ => decodeF fmt raw
def Desc.elVal (d : Desc) (m : SMap Byte) (i j : Nat) : FV := elValue d.fmt (d.elRaw m i j) (if d.scaled then d.hdr m i j else 0)

/-- The class of a format for the matrix engine (R180): 0 F32, 1 H, 2 8-bit, 3 4-bit. -/
def fmtClass (code : Nat) : Option Nat :=
  match code with
  | 0 => some 0 | 1 => some 1 | 2 => some 1 | 7 => some 3 | 10 => some 3 | 12 => some 3 | 14 => none | 15 => none
  | _ => if Nat.blt code 14 then some 2 else none

end Sys2Proof.Machine
end

