-- ==== Sys2Proof/Machine/Report.lean ====
section
/-! DEFINITION. Machine-check records (R300, R304), the page request queue (R301, R302), messages in flight, and the core's engine
commands as other operations see them. -/

namespace Sys2Proof.Machine

/-- An MCHECK record, written to both rings (R300). -/
def State.mcheck (s : State) (part core addr unit ver : Nat) : State :=
  let r : FrqRec := ⟨4, 0, 0, part, core, 0, 0, addr, unit, ver⟩
  (s.frqPost r).frqPostHv r

/-! ## Messages -/

def State.send (s : State) (m : Msg) : State := { s with msgs := s.msgs ++ [m] }
def State.dropMsg (s : State) (n : Nat) : State := { s with msgs := dropNth s.msgs n }
/-- Message n, if there is one. -/
def State.msg (s : State) (n : Nat) : Option Msg := (s.msgs.drop n).head?
/-- Some message before message n satisfies p. -/
def State.before (s : State) (n : Nat) (p : Msg → Bool) : Bool := (s.msgs.take n).any p

/-! ## Commands -/

/-- The command of a number on a core. -/
def Core.cmd (c : Core) (id : Nat) : Option Cmd := c.cmds.find? (fun x => x.id == id)
/-- The command of a number changed. -/
def Core.updCmd (c : Core) (id : Nat) (f : Cmd → Cmd) : Core :=
  { c with cmds := c.cmds.map (fun x => if x.id == id then f x else x) }
def State.updCmd (s : State) (k id : Nat) (f : Cmd → Cmd) : State := s.updCore k (fun c => c.updCmd id f)
/-- The local cores of a cluster (R15). -/
def coresOf (cl : Nat) : List Nat := upFrom (8 * cl) 8
/-- A command fails by itself (R297): its completion will set its token ERROR. -/
def Cmd.failWith (x : Cmd) (f : FaultInfo) : Cmd := if x.fail.isSome then x else { x with fail := some ⟨f, x.tp, false⟩ }
/-- A command of M or X queue. -/
def isM (i : Instr) : Bool := match i.cls with | some .m => true | _ => false

/-! ## The page request queue (R301, R302) -/

/-- The IPA that misses at stage 2 when a GVA is translated: the address itself or that of a stage-1 table. -/
def missIpa (s : State) (p : Part) (gva : Nat) : Nat :=
  if p.s1en then
    match walkFrom (fun a => match readTab1 s p a with | .error _ => .error (a, 0) | .ok v => .ok v) 2 (gva % 2 ^ 48) ptLevels
        (p.fld 0x40 8) with
    | .error (a, 0) => a
    | .error _ => 0
    | .ok l => l.target gva
  else gva

/-- The stage and page of a translation miss. -/
def missPage (s : State) (p : Part) (f : FaultInfo) : Nat × Nat :=
  if f.cause == 2 then (1, f.addr / 65536 * 65536) else (2, missIpa s p f.addr / 65536 * 65536)

/-- A fault that is a translation miss of an engine access (R213, R301). -/
def isMiss (f : FaultInfo) : Bool := f.code == fcXlate && (f.cause == 2 || f.cause == 3)

/-- A stage-1 table entry without the check of its page's generation. -/
def readTabBare (s : State) (p : Part) (ipa : Nat) : Except (Nat × Nat) Nat :=
  match stage2 s p ipa with
  | .error e => .error e
  | .ok l => .ok (s.rdMem (l.target ipa) 8)
/-- A fault that stands for a page that is not present (R301), not for a slice that refuses the generations of its leaves again, which no page
request mends (R358). -/
def State.pageMiss (s : State) (part : Nat) (f : FaultInfo) : Bool :=
  let p := s.part part
  isMiss f &&
    (match (if p.s1en then walkFrom (readTabBare s p) 2 (f.addr % 2 ^ 48) ptLevels (p.fld 0x40 8) else .ok ⟨0, 64, 7, 0⟩) with
    | .error _ => true
    | .ok l => match stage2 s p (l.target f.addr) with
      | .error _ => true
      | .ok l2 => paKind (l2.target f.addr) == .host)

/-- The waiter waits on an open entry. -/
def State.prqWaits (s : State) (w : Waiter) : Bool := s.prq.any (fun e => e.waiters.any (fun x => x.1 == w))

/-- Shared entries the partition may still take (R363). -/
def State.prqShareOk (s : State) (part : Nat) : Bool :=
  let m := (s.part part).fld 0xA6 2
  m == 0 || Nat.blt (s.prq.filter (fun e => e.part == part && Nat.ble 768 e.ix)).length m

/-- The host page an IPA's page stands for, which ATS translates (R301, R360). -/
def State.hostPage (s : State) (part stage page : Nat) : Option Nat :=
  if stage != 2 then none
  else match stage2 s (s.part part) page with
    | .ok l => if paKind (l.target page) == .host then some (l.target page / 65536) else none
    | .error _ => none

/-- A miss joins the open entry for its page, or takes an entry and writes one PAGE record, or waits parked (R301). A host page reached
through ATS is asked for with a PRI Page Request that carries the partition's PASID as well. at_ is the address that a refusal reports. -/
def State.pageRequest (s : State) (part : Nat) (f : FaultInfo) (w : Waiter) (at_ : Nat) : State :=
  let (stage, page) := missPage s (s.part part) f
  if s.prqWaits w then s
  else if s.prq.any (fun e => e.part == part && e.stage == stage && e.page == page) then
    { s with prq := s.prq.map (fun e =>
        if e.part == part && e.stage == stage && e.page == page then { e with waiters := e.waiters ++ [(w, at_)] } else e) }
  else
    let free (ix : Nat) : Bool := !s.prq.any (fun e => e.ix == ix)
    let own := (upFrom (16 * part) 16).find? free
    let shared := if s.prqShareOk part then (upFrom 768 3328).find? free else none
    match own.or shared with
    | none => s
    | some ix =>
      let s := { s with prq := s.prq ++ [(⟨ix, part, stage, page, [(w, at_)]⟩ : Prq)] }
      let r : FrqRec := ⟨5, fcXlate, f.cause, part, 0xFFFF, 0, 0, page, ix, stage⟩
      let s := if stage == 1 then s.frqPost r else s.frqPostHv r
      if (s.hostPage part stage page).isSome then s.emit (.pri part page ix) else s

end Sys2Proof.Machine
end

