-- ==== Sys2Proof/Machine/Tiles.lean ====
section
/-! DEFINITION. The tile cache of a cluster: lookup, rank, victim choice, allocation, hints and frame contents (R189 to R202), the
staleness of table registers (R344), and the tile moves between memory and frames (R210, R213, R217). -/

namespace Sys2Proof.Machine

/-! ## Frames -/

/-- The record of an unlisted frame (R193). -/
def Frame.reset (key : Nat) : Frame :=
  ⟨⟨0, 0, 0⟩, 0, key % 16, .invalid, false, false, false, false, 0, 0, 0, [], false, .none, false, none, 0, 0, false, []⟩
def State.frame (s : State) (cl key : Nat) : Frame := mget (s.cluster cl).frames key (Frame.reset key)
def State.setFrame (s : State) (cl key : Nat) (f : Frame) : State :=
  s.updCluster cl (fun c => { c with frames := mput c.frames key f })
def State.updFrame (s : State) (cl key : Nat) (f : Frame → Frame) : State := s.setFrame cl key (f (s.frame cl key))
/-- The frames of the set of a tile (R189, R191). -/
def setFrames (t : Tile) : List Nat := upFrom (16 * t.set) 16

/-- The frame can serve a lookup (R192, R214, R374): a victim, a CLEAN one whose lease has expired, or a leased CLEAN one of a device out of
bound cannot. A lease ends a CLEAN copy alone, as R194 has it. -/
def State.live (s : State) (f : Frame) : Bool :=
  (f.st == .clean || f.st == .dirty || f.st == .published || f.st == .draining) && f.why != .victim &&
    (f.st != .clean || f.lexp == 0 || (Nat.blt s.dev.ptime.toNat f.lexp && s.dev.inb))
/-- The frame that a lookup of the tile hits. -/
def State.hit (s : State) (cl : Nat) (t : Tile) : Option Nat :=
  (setFrames t).find? (fun k => (s.frame cl k).tile == t && s.live (s.frame cl k))
/-- The frame being filled, or drained to be filled, for the tile. -/
def State.filling (s : State) (cl : Nat) (t : Tile) : Option Nat :=
  (setFrames t).find? (fun k =>
    let f := s.frame cl k
    (f.st == .filling && f.tile == t) || (f.st == .draining && f.next == some t))

/-- A frame takes rank 0 and each frame of a lower rank moves up one (R200). -/
def State.touchFrame (s : State) (cl key : Nat) : State :=
  let r := (s.frame cl key).lru
  (upFrom (key / 16 * 16) 16).foldl (fun s k =>
    let f := s.frame cl k
    if k == key then s.setFrame cl k { f with lru := 0 }
    else if Nat.blt f.lru r then s.setFrame cl k { f with lru := f.lru + 1 } else s) s

/-- The class of a victim candidate (R198), 0 when the way is none. -/
def victimClass (f : Frame) : Nat :=
  if f.pin || f.ref != 0 || !(f.st == .clean || f.st == .dirty || f.st == .published) then 0
  else if f.stream then 1 else if f.last then 2
  else if f.st == .clean then (if f.drn then 4 else 3) else 5

/-- The way of highest rank among those of a class. -/
def oldestOf (s : State) (cl : Nat) (ks : List Nat) : Option Nat :=
  ks.foldl (fun b k => match b with
    | none => some k
    | some x => if Nat.blt (s.frame cl x).lru (s.frame cl k).lru then some k else some x) none

/-- The way a tile takes (R198): the first INVALID way, else the oldest candidate of the first class up to top that holds one. -/
def State.chooseWay (s : State) (cl : Nat) (t : Tile) (top : Nat) : Option Nat :=
  match (setFrames t).find? (fun k => (s.frame cl k).st == .invalid && (s.frame cl k).pin == false) with
  | some k => some k
  | none => (upFrom 1 top).findSome? (fun n => oldestOf s cl ((setFrames t).filter (fun k => victimClass (s.frame cl k) == n)))

/-- A frame as it begins to fill for a tile (R193, R194). -/
def Frame.fillFor (f : Frame) (t : Tile) (shape ref : Nat) : Frame :=
  { f with tile := t, st := .filling, pin := false, last := false, stream := false, drn := false, shape := shape, ref := ref,
           lexp := 0, data := [], redef := false, why := .none, wasDirty := false, next := none, hints := 0, itin := false, wrote := [] }

/-- A leased frame given up early returns its lease (R214). -/
def State.giveLease (s : State) (cl : Nat) (f : Frame) : State := if f.lexp == 0 then s else s.emit (.leaseBack cl f.tile)

/-- The expired lease of a tile keeps its frame, which started commands still use (R214): no second frame is taken for the tile (R192). -/
def State.stale (s : State) (cl : Nat) (t : Tile) : Option Nat :=
  (setFrames t).find? (fun k =>
    let f := s.frame cl k
    f.tile == t && f.st == .clean && !s.live f)

/-- A frame becomes INVALID and keeps its rank (R200). -/
def Frame.drop (f : Frame) : Frame :=
  { f with st := .invalid, pin := false, ref := 0, why := .none, next := none, data := [], lexp := 0, last := false, stream := false,
           drn := false, hints := 0, itin := false, wrote := [] }
/-- Commands hold no reference on the tile any more: its frame has gone under them, and its REF with it (R199). -/
def State.forget (s : State) (cl : Nat) (t : Tile) : State :=
  (coresOf cl).foldl (fun s k => s.updCore k (fun c => { c with cmds := c.cmds.map (fun x =>
    if x.st == .running && x.tiles.contains t then { x with tiles := x.tiles.filter (· != t) } else x) })) s
/-- A frame is given up: its lease goes back, and its references with it. -/
def State.dropFrame (s : State) (cl key : Nat) : State :=
  let f := s.frame cl key
  let s := if f.ref == 0 then s else s.forget cl f.tile
  (s.giveLease cl f).updFrame cl key Frame.drop

/-- A frame allocated for a tile, with its references (R194, R198, R199); a DIRTY or PUBLISHED victim is read out first. None while the
frame of an expired lease of the tile cannot go (R192, R214). -/
def State.allocate (s : State) (cl : Nat) (t : Tile) (ref top : Nat) : Option (State × Nat) :=
  let pick (s : State) : Option (State × Nat) :=
    match s.chooseWay cl t top with
    | none => none
    | some k =>
      let f := s.frame cl k
      let s := s.giveLease cl (if f.st == .invalid then { f with lexp := 0 } else f)
      if f.st == .dirty || f.st == .published then
        some (s.setFrame cl k { f with st := .draining, why := .victim, wasDirty := f.st == .dirty, next := some t, ref := ref, hints := 0,
                                       itin := false, lexp := 0 }, k)
      else some (s.setFrame cl k (f.fillFor t (s.desc t.part t.tid).shape ref), k)
  match s.stale cl t with
  | none => pick s
  | some k =>
    let f := s.frame cl k
    if f.ref == 0 then pick (s.dropFrame cl k) else none

/-- A frame is read out (R194): it is DRAINING, for a reason. -/
def Frame.drain (f : Frame) (why : Drain) : Frame := { f with st := .draining, why := why, wasDirty := f.st == .dirty, next := none }

/-- References of a tile's frame raised or lowered (R199); an allocation for commands is no itinerary's alone (R203). -/
def State.refUp (s : State) (cl : Nat) (t : Tile) : State :=
  match (s.hit cl t).or (s.filling cl t) with
  | some k => s.updFrame cl k (fun f => { f with ref := f.ref + 1, itin := false })
  | none => s
def State.refDown (s : State) (cl : Nat) (t : Tile) : State :=
  match (setFrames t).find? (fun k =>
      let f := s.frame cl k
      f.ref != 0 && ((f.tile == t && f.st != .invalid && f.why != .victim) || f.next == some t)) with
  | some k => s.updFrame cl k (fun f => { f with ref := f.ref - 1 })
  | none => s

/-- Pinned ways of a set (R201); ring frames of channels count among them (R260). -/
def State.pinned (s : State) (cl : Nat) (keys : List Nat) : Nat := (keys.filter (fun k => (s.frame cl k).pin)).length

/-! ## Requests to the home -/

/-- A miss request is in flight for the tile. -/
def State.asked (s : State) (cl : Nat) (t : Tile) : Bool :=
  s.msgs.any (fun m => match m with
    | .fillReq c t' _ _ _ => c == cl && t' == t
    | .serve _ t' (some c) _ => c == cl && t' == t
    | .fillAns c t' _ _ _ _ _ _ => c == cl && t' == t
    | .fillFail c t' _ => c == cl && t' == t
    | _ => false)
/-- A grant request or its answer is in flight. -/
def State.grantAsked (s : State) (cl : Nat) (t : Tile) : Bool :=
  s.msgs.any (fun m => match m with
    | .grantReq c t' _ _ => c == cl && t' == t
    | .grantAns c t' => c == cl && t' == t
    | .retryAns c t' => c == cl && t' == t
    | _ => false)

/-- A write to the tile needs a grant first (R195): asked for on a CLEAN frame, after the drain on a PUBLISHED one. -/
def State.needGrant (s : State) (cl : Nat) (t : Tile) : State :=
  match s.hit cl t with
  | none => s
  | some k =>
    let f := s.frame cl k
    if s.grantAsked cl t then s
    else if f.st == .clean then s.send (.grantReq cl t f.ver s.dev.ptime.toNat)
    else if f.st == .published then s.setFrame cl k (f.drain .grant)
    else s
/-- The frame of the tile may be written (R194, R195). -/
def State.mayWrite (s : State) (cl : Nat) (t : Tile) : Bool :=
  match s.hit cl t with
  | some k => (s.frame cl k).st == .dirty
  | none => false

/-- A tile an operation names: whether it writes it, and whether it writes every element of it (R195). -/
structure Need where
  tile : Tile
  write : Bool
  whole : Bool
  deriving DecidableEq, Repr

/-- The tile is resident, and granted if written. -/
def State.have (s : State) (cl : Nat) (n : Need) : Bool :=
  if n.write then s.mayWrite cl n.tile else (s.hit cl n.tile).isSome

/-- The needs with each tile once: a write beside a read is a write that needs the tile's data. -/
def mergeNeeds : List Need → List Need
  | [] => []
  | n :: t =>
    let t' := mergeNeeds t
    match t'.find? (fun m => m.tile == n.tile) with
    | some m => ⟨n.tile, n.write || m.write, n.write && m.write && n.whole && m.whole⟩ :: t'.filter (fun x => x.tile != n.tile)
    | none => n :: t'

/-- A missing tile's request is sent once (R195, R213). -/
def State.ask (s : State) (cl : Nat) (n : Need) : State :=
  if s.asked cl n.tile then s else s.send (.fillReq cl n.tile n.write (n.write && n.whole) s.dev.ptime.toNat)

/-- The tile is resident or FILLING. -/
def State.present (s : State) (cl : Nat) (t : Tile) : Bool := ((s.hit cl t).or (s.filling cl t)).isSome
/-- Frames for the missing tiles of a list, or none (R199). -/
def State.allocMissing (s : State) (cl : Nat) : List Need → Option State
  | [] => some s
  | n :: t => match s.allocate cl n.tile 1 5 with
    | none => none
    | some (s, _) => (s.ask cl n).allocMissing cl t
/-- A reference on every tile of a list, the resident ones first, and frames for every missing one, or none (R199). -/
def State.allocAll (s : State) (cl : Nat) (l : List Need) : Option State :=
  let here := l.filter (fun n => s.present cl n.tile)
  (here.foldl (fun s n => let s := s.refUp cl n.tile; if n.write then s.needGrant cl n.tile else s) s).allocMissing cl
    (l.filter (fun n => !s.present cl n.tile))

/-- What a stalled TRD or TWR does for its tile (R234): a miss is requested, a grant is asked for. -/
def State.pursue (s : State) (cl : Nat) (n : Need) : State :=
  match (s.hit cl n.tile).or (s.filling cl n.tile) with
  | some k => let s := s.updFrame cl k (fun f => { f with itin := false }); if n.write then s.needGrant cl n.tile else s
  | none => match s.allocate cl n.tile 0 5 with
    | none => s
    | some (s, _) => s.ask cl n

/-! ## Staleness of tables (R107, R344) -/

/-- a ≥ b and a newer than b, for versions (R368). -/
def verGe (a b : Nat) : Bool := Nat.blt ((a + 65536 - b) % 65536) 32768
def verNewer (a b : Nat) : Bool := a != b && verGe a b

/-- Every VALID table of the cluster's cores, or saved from one (R309), on tiles of the partition that f picks becomes STALE. -/
def State.staleIf (s : State) (cl part : Nat) (f : ZRec → Bool) : State :=
  let s := { s with savedZ := s.savedZ.map (fun z =>
    if z.cl == cl && z.part == part && z.zr.st == .valid && f z.zr then { z with zr := { z.zr with st := .stale } } else z) }
  (coresOf cl).foldl (fun s k =>
    if (s.core k).csr.partid.toNat != part then s
    else s.updCore k (fun c => { c with regs := { c.regs with zr := c.regs.zr.map (fun e =>
      if e.2.st == .valid && f e.2 then (e.1, { e.2 with st := .stale }) else e) } })) s
def ZRec.names (z : ZRec) (t : Tile) : Bool := z.tid == t.tid && z.coord == t.coord
/-- The block of the table overlaps rows r0 to r0 + rn − 1, elements e0 to e0 + en − 1 (R326). -/
def ZRec.overlaps (z : ZRec) (r0 rn e0 en : Nat) : Bool :=
  let p := 64 * (z.kblk / 16)
  let k := 32 * (z.kblk % 16)
  Nat.blt r0 (p + 64) && Nat.blt p (r0 + rn) && Nat.blt e0 (k + 32) && Nat.blt k (e0 + en)
def State.staleRect (s : State) (cl : Nat) (t : Tile) (r0 rn e0 en : Nat) : State :=
  s.staleIf cl t.part (fun z => z.names t && z.overlaps r0 rn e0 en)
/-- A plain store's bytes (R344): a table is covered when a 64-byte line written holds a byte of an element of its block within the extents. -/
def State.staleStore (s : State) (cl part : Nat) (pa n : Nat) : State :=
  s.staleIf cl part (fun z =>
    let t : Tile := ⟨part, z.tid, z.coord⟩
    let d := s.desc part z.tid
    (upFrom (64 * (z.kblk / 16)) 64).any (fun i => (upFrom (32 * (z.kblk % 16)) 32).any (fun j =>
      let e := d.elAddr (d.e * t.c 0 + j) (d.r * t.c 1 + i) (t.c 2) (t.c 3)
      let first := if d.packed then (d.e * t.c 0 + j) * fmtElBits d.fmt % 8 else 0
      Nat.blt (d.e * t.c 0 + j) (nth d.ext 0 0) && Nat.blt (d.r * t.c 1 + i) (nth d.ext 1 0) &&
        (upFrom e ((first + fmtElBits d.fmt + 7) / 8)).any (fun a => match s.xlate (1024 + cl) part a 0 with
          | .ok r => Nat.ble (pa / 64) (r.pa / 64) && Nat.ble (r.pa / 64) ((pa + n - 1) / 64)
          | .error _ => false))))

/-! ## Frame contents -/

/-- Bits of a tile that command id of core k, or another agent, writes: every other running command of the cluster that names the tile sees
undefined values there (R177). -/
def State.markTorn (s : State) (cl : Nat) (t : Tile) (wr : List (Nat × Nat)) (k id : Nat) : State :=
  let hitBy (kk : Nat) (x : Cmd) : Bool := x.st == .running && (x.snap.any (fun e => e.1 == t)) && !(kk == k && x.id == id)
  if (coresOf cl).any (fun kk => (s.core kk).cmds.any (hitBy kk)) then
    ((coresOf cl).foldl (fun s' kk => s'.updCore kk (fun c => { c with cmds := c.cmds.map (fun x =>
      if hitBy kk x then { x with torn := x.torn ++ wr.map (fun w => (⟨t, w.1, w.2, s.freeCtr + w.1⟩ : Torn)) } else x) })) s).draw 139264
  else s
/-- The bits of a tile that running commands of the cluster will write, those of command id of core k left out. -/
def State.beingWritten (s : State) (cl : Nat) (t : Tile) (k id : Nat) : List (Nat × Nat) :=
  (coresOf cl).flatMap (fun kk => ((s.core kk).cmds.filter (fun x => x.st == .running && !(kk == k && x.id == id))).flatMap (fun x =>
    (x.wr.filter (fun e => e.1 == t)).flatMap (fun e => e.2)))
/-- Bits of a frame replaced by free values numbered from base. -/
def tearBits (m : SMap Byte) (pos len base : Nat) : SMap Byte :=
  if pos % 8 == 0 && len % 8 == 0 then msetBytes m (pos / 8) ((upFrom base (len / 8)).map (fun n => freeBits 8 n))
  else setFrameBits m pos len (freeBits len base).toNat

/-- The whole frame, as a range of its bits: the data and the sidecar. -/
def wholeFrame : List (Nat × Nat) := [(0, 139264)]
/-- The contents of the frame of a tile after a write of the ranges wr of its bits; an FP32 tile's sidecar record goes with it (R339). -/
def State.putFrame (s : State) (cl : Nat) (t : Tile) (data : SMap Byte) (wr : List (Nat × Nat)) : State :=
  match s.hit cl t with
  | none => s
  | some key => s.updFrame cl key (fun f => { f with data := data, wrote := f.wrote ++ wr })
/-- A frame of free values numbered from base (R195: a grant without data). -/
def freeFrame (base : Nat) : SMap Byte := (upFrom 0 17408).map (fun n => (n, freeBits 8 (base + n)))
/-- The bytes of the frame of a tile. -/
def State.frameData (s : State) (cl : Nat) (t : Tile) : SMap Byte :=
  match s.hit cl t with
  | none => []
  | some key => (s.frame cl key).data
/-- What a starting command holds of each tile it names: version and bytes. -/
def State.snapshot (s : State) (cl : Nat) (l : List Need) : List (Tile × Nat × SMap Byte) :=
  l.map (fun n => match s.hit cl n.tile with
    | none => (n.tile, 0, [])
    | some key => (n.tile, (s.frame cl key).ver, (s.frame cl key).data))
/-- The version and bytes of a tile that a running command reads: as it started, with undefined values where another write overlaps its
run (R177). -/
def Cmd.tile (x : Cmd) (t : Tile) : Nat × SMap Byte :=
  match x.snap.find? (fun e => e.1 == t) with
  | none => (0, [])
  | some e => (e.2.1, (x.torn.filter (fun y => y.tile == t)).foldl (fun m y => tearBits m y.pos y.len y.base) e.2.2)
/-- The bits of a tile that a running command writes. -/
def Cmd.writes (x : Cmd) (t : Tile) : List (Nat × Nat) := (x.wr.filter (fun e => e.1 == t)).flatMap (fun e => e.2)
/-- A write of an FP32 tile other than ZSAVE's sets the record bytes of its sidecar to zero (R339). -/
def clearRecord (d : Desc) (m : SMap Byte) : SMap Byte :=
  if d.wsel == 0 && d.fmt == 0 then m.filter (fun e => !(Nat.ble 16384 e.1 && Nat.blt e.1 16400)) else m

/-! ## Tiles and memory (R210) -/

/-- The frame a fill brings from memory, with how many free values it holds: bytes in another device's memory are inputs. -/
def State.readTile (s : State) (who : Nat) (d : Desc) (t : Tile) : Except FaultInfo (SMap Byte) :=
  (d.tileBytes t).foldl (fun r b =>
    match r with
    | .error e => .error e
    | .ok m =>
      match s.xlate who t.part b.gva accR with
      | .error e => .error e
      | .ok x =>
        match paKind x.pa with
        | .localHbm => .ok (mset m b.off (BitVec.ofNat 8 (Nat.land (s.byte x.pa).toNat b.mask)) 0)
        | .host => .ok (mset m b.off (BitVec.ofNat 8 (Nat.land (s.byte x.pa).toNat b.mask)) 0)
        | .remote => .ok (mset m b.off (BitVec.ofNat 8 (Nat.land (freeBits 8 (s.freeCtr + b.off)).toNat b.mask)) 0)
        | .none => .error ⟨fcPerm, 2, b.gva⟩) (.ok [])

/-- The frame of a tile whose bytes are inputs, numbered from base on; what lies beyond the extents is 0 (R190). -/
def Desc.inputTile (d : Desc) (t : Tile) (base : Nat) : SMap Byte :=
  (d.tileBytes t).foldl (fun m b => mset m b.off (BitVec.ofNat 8 (Nat.land (freeBits 8 (base + b.off)).toNat b.mask)) 0) []
/-- A frame's bytes within the extents, the others 0 (R190). -/
def Desc.onlyTile (d : Desc) (t : Tile) (x : SMap Byte) : SMap Byte :=
  (d.tileBytes t).foldl (fun m b => mset m b.off (BitVec.ofNat 8 (Nat.land (mget x b.off 0).toNat b.mask)) 0) []

/-- Bytes of other devices' memory are charged to the ports that they pass (R274). -/
def State.chargeAll (s : State) (part who : Nat) (l : List Nat) : State := l.foldl (fun s a => s.charge part (s.portBucket (fabricDev a) who) 1) s
/-- A tile's bytes pass between a cluster and memory: they are charged and counted (R274, R378). -/
def State.passTile (s : State) (who : Nat) (d : Desc) (t : Tile) : State :=
  let as := (d.tileBytes t).filterMap (fun b => match s.xlate who t.part b.gva 0 with | .ok x => some x.pa | .error _ => none)
  (s.servedAll t.part (as.filter (fun a => paKind a != .remote))).chargeAll t.part who (as.filter (fun a => paKind a == .remote))
/-- The requests for a tile's bytes may be injected (R274). -/
def State.mayTile (s : State) (who : Nat) (d : Desc) (t : Tile) : Bool :=
  s.buckets.isEmpty ||
    (d.tileBytes t).all (fun b => match s.xlate who t.part b.gva 0 with
      | .ok x => if paKind x.pa == .remote then 0 ≤ s.bucket t.part (s.portBucket (fabricDev x.pa) who) else s.mayInject t.part x.pa
      | .error _ => true)
/-- A line of the tile reaches its point of coherence: its write-queue entries close (R269). -/
def State.closeTile (s : State) (who : Nat) (d : Desc) (t : Tile) : State :=
  if s.wq.isEmpty then s
  else (d.tileBytes t).foldl (fun s b => match s.xlate who t.part b.gva 0 with | .ok x => s.closeLine x.pa | .error _ => s) s

/-- The first fault that an access of some bytes of a tile meets. -/
def State.tileFault (s : State) (who part acc : Nat) (bs : List TileByte) : Option FaultInfo :=
  bs.findSome? (fun b => match s.xlate who part b.gva acc with | .error e => some e | .ok _ => none)

/-- A tile's bytes written to memory (R210). With the identifier redefined since the fill every byte is an undefined value (R217). -/
def State.writeTile (s : State) (who : Nat) (d : Desc) (t : Tile) (redef : Bool) (data : SMap Byte) : State :=
  let s1 := ((d.tileBytes t).filter (fun b => b.back)).foldl (fun s b =>
    match s.xlate who t.part b.gva accW with
    | .error _ => s
    | .ok x =>
      match paKind x.pa with
      | .localHbm | .host =>
        let old := (s.byte x.pa).toNat
        let new := if redef then (freeBits 8 (s.freeCtr + b.off)).toNat else (mget data b.off 0).toNat
        s.wrBytes x.pa [BitVec.ofNat 8 (Nat.lor (Nat.land new b.mask) (old - Nat.land old b.mask))]
      | _ => s) (s.closeTile who d t)
  if redef then s1.draw 17408 else s1

end Sys2Proof.Machine
end

