-- ==== Sys2Proof/Machine/Scalar.lean ====
section
/-! DEFINITION. The I-slot instructions (R120 to R136; ZCHK stands in Machine/Tables.lean). Latencies are those of R79. -/

namespace Sys2Proof.Machine

/-- A g result of latency 1. -/
def gRes (c : Core) (d : Nat) (v : W64) : SlotEff := result (c.dg d) v.toNat 1
/-- A g result of another latency. -/
def gResLat (c : Core) (d : Nat) (v : W64) (lat : Nat) : SlotEff := result (c.dg d) v.toNat lat
/-- A p result of latency 1. -/
def pRes (c : Core) (d : Nat) (b : Bool) : SlotEff := result (c.dp d) b.toNat 1
/-- The shift amount of a register (R121). -/
def shAmt (v : W64) : Nat := v.toNat % 64

/-! ## Integer arithmetic and logic (R120 to R123) -/

def semAdd (d a b : Nat) (s : State) : SlotEff := gRes s.me d (s.me.rg a + s.me.rg b)

/-- ADD alone in its bundle. -/
def execAdd (gd : Guard) (d a b : Nat) (s : State) : Res :=
  runSole (.add gd d a b) (semAdd d a b) s

def semSub (d a b : Nat) (s : State) : SlotEff := gRes s.me d (s.me.rg a - s.me.rg b)

/-- SUB alone in its bundle. -/
def execSub (gd : Guard) (d a b : Nat) (s : State) : Res :=
  runSole (.sub gd d a b) (semSub d a b) s

def semAddi (d a i : Nat) (x : Option Nat) (s : State) : SlotEff := gRes s.me d (s.me.rg a + w64 (immB i x))

/-- ADDI alone in its bundle. -/
def execAddi (gd : Guard) (d a i : Nat) (x : Option Nat) (s : State) : Res :=
  runSole (.addi gd d a i x) (semAddi d a i x) s

def semMul (d a b : Nat) (s : State) : SlotEff := gResLat s.me d (s.me.rg a * s.me.rg b) 3

/-- MUL alone in its bundle. -/
def execMul (gd : Guard) (d a b : Nat) (s : State) : Res :=
  runSole (.mul gd d a b) (semMul d a b) s

def semMulh (d a b : Nat) (s : State) : SlotEff :=
  gResLat s.me d (w64 (ashr ((s.me.rg a).toInt * (s.me.rg b).toInt) 64)) 3

/-- MULH alone in its bundle. -/
def execMulh (gd : Guard) (d a b : Nat) (s : State) : Res :=
  runSole (.mulh gd d a b) (semMulh d a b) s

def semMulhU (d a b : Nat) (s : State) : SlotEff :=
  gResLat s.me d (BitVec.ofNat 64 ((s.me.rg a).toNat * (s.me.rg b).toNat / 2 ^ 64)) 3

/-- MULH_U alone in its bundle. -/
def execMulhU (gd : Guard) (d a b : Nat) (s : State) : Res :=
  runSole (.mulhU gd d a b) (semMulhU d a b) s

/-- Signed quotient, truncated; by zero all ones; −2^63 by −1 wraps (R123). -/
def sdiv (x y : W64) : W64 := if y == 0 then BitVec.allOnes 64 else w64 (Int.tdiv x.toInt y.toInt)
/-- Signed remainder, with the sign of x; by zero x (R123). -/
def srem (x y : W64) : W64 := if y == 0 then x else w64 (Int.tmod x.toInt y.toInt)
def udiv (x y : W64) : W64 := if y == 0 then BitVec.allOnes 64 else BitVec.ofNat 64 (x.toNat / y.toNat)
def urem (x y : W64) : W64 := if y == 0 then x else BitVec.ofNat 64 (x.toNat % y.toNat)

def semDiv (d a b : Nat) (s : State) : SlotEff := gResLat s.me d (sdiv (s.me.rg a) (s.me.rg b)) 18

/-- DIV alone in its bundle. -/
def execDiv (gd : Guard) (d a b : Nat) (s : State) : Res :=
  runSole (.div gd d a b) (semDiv d a b) s

def semDivU (d a b : Nat) (s : State) : SlotEff := gResLat s.me d (udiv (s.me.rg a) (s.me.rg b)) 18

/-- DIV_U alone in its bundle. -/
def execDivU (gd : Guard) (d a b : Nat) (s : State) : Res :=
  runSole (.divU gd d a b) (semDivU d a b) s

def semRem (d a b : Nat) (s : State) : SlotEff := gResLat s.me d (srem (s.me.rg a) (s.me.rg b)) 18

/-- REM alone in its bundle. -/
def execRem (gd : Guard) (d a b : Nat) (s : State) : Res :=
  runSole (.rem gd d a b) (semRem d a b) s

def semRemU (d a b : Nat) (s : State) : SlotEff := gResLat s.me d (urem (s.me.rg a) (s.me.rg b)) 18

/-- REM_U alone in its bundle. -/
def execRemU (gd : Guard) (d a b : Nat) (s : State) : Res :=
  runSole (.remU gd d a b) (semRemU d a b) s

def semAnd (d a b : Nat) (s : State) : SlotEff := gRes s.me d (s.me.rg a &&& s.me.rg b)

/-- AND alone in its bundle. -/
def execAnd (gd : Guard) (d a b : Nat) (s : State) : Res :=
  runSole (.and gd d a b) (semAnd d a b) s

def semOr (d a b : Nat) (s : State) : SlotEff := gRes s.me d (s.me.rg a ||| s.me.rg b)

/-- OR alone in its bundle. -/
def execOr (gd : Guard) (d a b : Nat) (s : State) : Res :=
  runSole (.or gd d a b) (semOr d a b) s

def semXor (d a b : Nat) (s : State) : SlotEff := gRes s.me d (s.me.rg a ^^^ s.me.rg b)

/-- XOR alone in its bundle. -/
def execXor (gd : Guard) (d a b : Nat) (s : State) : Res :=
  runSole (.xor gd d a b) (semXor d a b) s

def semAndi (d a i : Nat) (x : Option Nat) (s : State) : SlotEff := gRes s.me d (s.me.rg a &&& w64 (immB i x))

/-- ANDI alone in its bundle. -/
def execAndi (gd : Guard) (d a i : Nat) (x : Option Nat) (s : State) : Res :=
  runSole (.andi gd d a i x) (semAndi d a i x) s

def semOri (d a i : Nat) (x : Option Nat) (s : State) : SlotEff := gRes s.me d (s.me.rg a ||| w64 (immB i x))

/-- ORI alone in its bundle. -/
def execOri (gd : Guard) (d a i : Nat) (x : Option Nat) (s : State) : Res :=
  runSole (.ori gd d a i x) (semOri d a i x) s

def semXori (d a i : Nat) (x : Option Nat) (s : State) : SlotEff := gRes s.me d (s.me.rg a ^^^ w64 (immB i x))

/-- XORI alone in its bundle. -/
def execXori (gd : Guard) (d a i : Nat) (x : Option Nat) (s : State) : Res :=
  runSole (.xori gd d a i x) (semXori d a i x) s

/-- Shifts of R121. -/
def shlW (v : W64) (n : Nat) : W64 := BitVec.ofNat 64 (v.toNat * 2 ^ n)
def shrW (v : W64) (n : Nat) : W64 := BitVec.ofNat 64 (v.toNat / 2 ^ n)
def sraW (v : W64) (n : Nat) : W64 := w64 (ashr v.toInt n)

def semShl (d a b : Nat) (s : State) : SlotEff := gRes s.me d (shlW (s.me.rg a) (shAmt (s.me.rg b)))

/-- SHL alone in its bundle. -/
def execShl (gd : Guard) (d a b : Nat) (s : State) : Res :=
  runSole (.shl gd d a b) (semShl d a b) s

def semShr (d a b : Nat) (s : State) : SlotEff := gRes s.me d (shrW (s.me.rg a) (shAmt (s.me.rg b)))

/-- SHR alone in its bundle. -/
def execShr (gd : Guard) (d a b : Nat) (s : State) : Res :=
  runSole (.shr gd d a b) (semShr d a b) s

def semShrA (d a b : Nat) (s : State) : SlotEff := gRes s.me d (sraW (s.me.rg a) (shAmt (s.me.rg b)))

/-- SHR_A alone in its bundle. -/
def execShrA (gd : Guard) (d a b : Nat) (s : State) : Res :=
  runSole (.shrA gd d a b) (semShrA d a b) s

def semShli (d a n : Nat) (s : State) : SlotEff := gRes s.me d (shlW (s.me.rg a) n)

/-- SHLI alone in its bundle. -/
def execShli (gd : Guard) (d a s0 : Nat) (s : State) : Res :=
  runSole (.shli gd d a s0) (semShli d a s0) s

def semShri (d a n : Nat) (s : State) : SlotEff := gRes s.me d (shrW (s.me.rg a) n)

/-- SHRI alone in its bundle. -/
def execShri (gd : Guard) (d a s0 : Nat) (s : State) : Res :=
  runSole (.shri gd d a s0) (semShri d a s0) s

def semShriA (d a n : Nat) (s : State) : SlotEff := gRes s.me d (sraW (s.me.rg a) n)

/-- SHRI_A alone in its bundle. -/
def execShriA (gd : Guard) (d a s0 : Nat) (s : State) : Res :=
  runSole (.shriA gd d a s0) (semShriA d a s0) s

/-! ## Bit fields, constants and counts (R124 to R126) -/

def semBfx (d a sx wm1 lsb : Nat) (s : State) : SlotEff :=
  let f := fld (s.me.rg a).toNat lsb (wm1 + 1)
  gRes s.me d (if sx == 1 then w64 (sext f (wm1 + 1)) else BitVec.ofNat 64 f)

/-- BFX alone in its bundle. -/
def execBfx (gd : Guard) (d a sx wm1 lsb : Nat) (s : State) : Res :=
  runSole (.bfx gd d a sx wm1 lsb) (semBfx d a sx wm1 lsb) s

def semBfi (d a wm1 lsb : Nat) (s : State) : SlotEff :=
  gRes s.me d (BitVec.ofNat 64 (setFld (s.me.rg d).toNat lsb (wm1 + 1) (s.me.rg a).toNat))

/-- BFI alone in its bundle. -/
def execBfi (gd : Guard) (d a wm1 lsb : Nat) (s : State) : Res :=
  runSole (.bfi gd d a wm1 lsb) (semBfi d a wm1 lsb) s

def semSethi (d a i : Nat) (x : Option Nat) (s : State) : SlotEff :=
  gRes s.me d (BitVec.ofNat 64 ((w64 (immB i x)).toNat % 2 ^ 32 * 2 ^ 32 + (s.me.rg a).toNat % 2 ^ 32))

/-- SETHI alone in its bundle. -/
def execSethi (gd : Guard) (d a i : Nat) (x : Option Nat) (s : State) : Res :=
  runSole (.sethi gd d a i x) (semSethi d a i x) s

/-- Set bits among the low n bits. -/
def popCount (x : Nat) : Nat → Nat
  | 0 => 0
  | n + 1 => popCount x n + (bitOf x n).toNat
/-- Zero bits above the highest set one among the low n bits. -/
def leadZeros (x : Nat) : Nat → Nat
  | 0 => 0
  | n + 1 => if bitOf x n then 0 else leadZeros x n + 1
/-- Zero bits below the lowest set one, counting n bits from bit i. -/
def trailZeros (x i : Nat) : Nat → Nat
  | 0 => 0
  | n + 1 => if bitOf x i then 0 else trailZeros x (i + 1) n + 1

def semBitcPop (d a : Nat) (s : State) : SlotEff := gRes s.me d (BitVec.ofNat 64 (popCount (s.me.rg a).toNat 64))

/-- BITC_POP alone in its bundle. -/
def execBitcPop (gd : Guard) (d a : Nat) (s : State) : Res :=
  runSole (.bitcPop gd d a) (semBitcPop d a) s

def semBitcClz (d a : Nat) (s : State) : SlotEff := gRes s.me d (BitVec.ofNat 64 (leadZeros (s.me.rg a).toNat 64))

/-- BITC_CLZ alone in its bundle. -/
def execBitcClz (gd : Guard) (d a : Nat) (s : State) : Res :=
  runSole (.bitcClz gd d a) (semBitcClz d a) s

def semBitcCtz (d a : Nat) (s : State) : SlotEff := gRes s.me d (BitVec.ofNat 64 (trailZeros (s.me.rg a).toNat 0 64))

/-- BITC_CTZ alone in its bundle. -/
def execBitcCtz (gd : Guard) (d a : Nat) (s : State) : Res :=
  runSole (.bitcCtz gd d a) (semBitcCtz d a) s

def semMin (d a b : Nat) (s : State) : SlotEff :=
  gRes s.me d (if (s.me.rg a).toInt ≤ (s.me.rg b).toInt then s.me.rg a else s.me.rg b)

/-- MIN alone in its bundle. -/
def execMin (gd : Guard) (d a b : Nat) (s : State) : Res :=
  runSole (.min gd d a b) (semMin d a b) s

def semMinU (d a b : Nat) (s : State) : SlotEff :=
  gRes s.me d (if (s.me.rg a).toNat ≤ (s.me.rg b).toNat then s.me.rg a else s.me.rg b)

/-- MIN_U alone in its bundle. -/
def execMinU (gd : Guard) (d a b : Nat) (s : State) : Res :=
  runSole (.minU gd d a b) (semMinU d a b) s

def semMax (d a b : Nat) (s : State) : SlotEff :=
  gRes s.me d (if (s.me.rg a).toInt ≤ (s.me.rg b).toInt then s.me.rg b else s.me.rg a)

/-- MAX alone in its bundle. -/
def execMax (gd : Guard) (d a b : Nat) (s : State) : Res :=
  runSole (.max gd d a b) (semMax d a b) s

def semMaxU (d a b : Nat) (s : State) : SlotEff :=
  gRes s.me d (if (s.me.rg a).toNat ≤ (s.me.rg b).toNat then s.me.rg b else s.me.rg a)

/-- MAX_U alone in its bundle. -/
def execMaxU (gd : Guard) (d a b : Nat) (s : State) : Res :=
  runSole (.maxU gd d a b) (semMaxU d a b) s

/-! ## Compares and predicates (R127, R128) -/

def semCmpeq (d a b : Nat) (s : State) : SlotEff := pRes s.me d (s.me.rg a == s.me.rg b)

/-- CMPEQ alone in its bundle. -/
def execCmpeq (gd : Guard) (d a b : Nat) (s : State) : Res :=
  runSole (.cmpeq gd d a b) (semCmpeq d a b) s

def semCmpne (d a b : Nat) (s : State) : SlotEff := pRes s.me d (s.me.rg a != s.me.rg b)

/-- CMPNE alone in its bundle. -/
def execCmpne (gd : Guard) (d a b : Nat) (s : State) : Res :=
  runSole (.cmpne gd d a b) (semCmpne d a b) s

def semCmplt (d a b : Nat) (s : State) : SlotEff := pRes s.me d (decide ((s.me.rg a).toInt < (s.me.rg b).toInt))

/-- CMPLT alone in its bundle. -/
def execCmplt (gd : Guard) (d a b : Nat) (s : State) : Res :=
  runSole (.cmplt gd d a b) (semCmplt d a b) s

def semCmpltu (d a b : Nat) (s : State) : SlotEff := pRes s.me d (decide ((s.me.rg a).toNat < (s.me.rg b).toNat))

/-- CMPLTU alone in its bundle. -/
def execCmpltu (gd : Guard) (d a b : Nat) (s : State) : Res :=
  runSole (.cmpltu gd d a b) (semCmpltu d a b) s

def semCmple (d a b : Nat) (s : State) : SlotEff := pRes s.me d (decide ((s.me.rg a).toInt ≤ (s.me.rg b).toInt))

/-- CMPLE alone in its bundle. -/
def execCmple (gd : Guard) (d a b : Nat) (s : State) : Res :=
  runSole (.cmple gd d a b) (semCmple d a b) s

def semCmpleu (d a b : Nat) (s : State) : SlotEff := pRes s.me d (decide ((s.me.rg a).toNat ≤ (s.me.rg b).toNat))

/-- CMPLEU alone in its bundle. -/
def execCmpleu (gd : Guard) (d a b : Nat) (s : State) : Res :=
  runSole (.cmpleu gd d a b) (semCmpleu d a b) s

def semCmpeqi (d a i : Nat) (x : Option Nat) (s : State) : SlotEff := pRes s.me d (s.me.rg a == w64 (immB i x))

/-- CMPEQI alone in its bundle. -/
def execCmpeqi (gd : Guard) (d a i : Nat) (x : Option Nat) (s : State) : Res :=
  runSole (.cmpeqi gd d a i x) (semCmpeqi d a i x) s

def semCmplti (d a i : Nat) (x : Option Nat) (s : State) : SlotEff := pRes s.me d (decide ((s.me.rg a).toInt < immB i x))

/-- CMPLTI alone in its bundle. -/
def execCmplti (gd : Guard) (d a i : Nat) (x : Option Nat) (s : State) : Res :=
  runSole (.cmplti gd d a i x) (semCmplti d a i x) s

def semPand (d a b : Nat) (s : State) : SlotEff := pRes s.me d (s.me.rp a && s.me.rp b)

/-- PAND alone in its bundle. -/
def execPand (gd : Guard) (d a b : Nat) (s : State) : Res :=
  runSole (.pand gd d a b) (semPand d a b) s

def semPor (d a b : Nat) (s : State) : SlotEff := pRes s.me d (s.me.rp a || s.me.rp b)

/-- POR alone in its bundle. -/
def execPor (gd : Guard) (d a b : Nat) (s : State) : Res :=
  runSole (.por gd d a b) (semPor d a b) s

def semPxor (d a b : Nat) (s : State) : SlotEff := pRes s.me d (s.me.rp a != s.me.rp b)

/-- PXOR alone in its bundle. -/
def execPxor (gd : Guard) (d a b : Nat) (s : State) : Res :=
  runSole (.pxor gd d a b) (semPxor d a b) s

def semPandn (d a b : Nat) (s : State) : SlotEff := pRes s.me d (s.me.rp a && !s.me.rp b)

/-- PANDN alone in its bundle. -/
def execPandn (gd : Guard) (d a b : Nat) (s : State) : Res :=
  runSole (.pandn gd d a b) (semPandn d a b) s

def semPmov (d a : Nat) (s : State) : SlotEff := pRes s.me d (s.me.rp a)

/-- PMOV alone in its bundle. -/
def execPmov (gd : Guard) (d a : Nat) (s : State) : Res :=
  runSole (.pmov gd d a) (semPmov d a) s

/-- p7 to p0 as a number (R128). -/
def Core.preds (c : Core) : Nat := (upFrom 0 8).foldl (fun x n => x + (c.rp n).toNat * 2 ^ n) 0

def semPmovPreds (d : Nat) (s : State) : SlotEff := gRes s.me d (BitVec.ofNat 64 s.me.preds)

/-- PMOV_PREDS alone in its bundle. -/
def execPmovPreds (gd : Guard) (d : Nat) (s : State) : Res :=
  runSole (.pmovPreds gd d) (semPmovPreds d) s

def semPmovFromG (d a : Nat) (s : State) : SlotEff := pRes s.me d (s.me.rg a != 0)

/-- PMOV_FROM_G alone in its bundle. -/
def execPmovFromG (gd : Guard) (d a : Nat) (s : State) : Res :=
  runSole (.pmovFromG gd d a) (semPmovFromG d a) s

/-! ## Step, scale and coordinate moves (R129, R130) -/

def semJmovToJ (d a : Nat) (s : State) : SlotEff := result (.j d) ((s.me.rg a).toNat % 2 ^ 32) 1

/-- JMOV_TO_J alone in its bundle. -/
def execJmovToJ (gd : Guard) (d a : Nat) (s : State) : Res :=
  runSole (.jmovToJ gd d a) (semJmovToJ d a) s

def semJmovToG (d a : Nat) (s : State) : SlotEff := gRes s.me d (w64 (s.me.rj a).toInt)

/-- JMOV_TO_G alone in its bundle. -/
def execJmovToG (gd : Guard) (d a : Nat) (s : State) : Res :=
  runSole (.jmovToG gd d a) (semJmovToG d a) s

def semEmovToE (d a : Nat) (s : State) : SlotEff := result (.e d) ((s.me.rg a).toNat % 2 ^ 20) 1

/-- EMOV_TO_E alone in its bundle. -/
def execEmovToE (gd : Guard) (d a : Nat) (s : State) : Res :=
  runSole (.emovToE gd d a) (semEmovToE d a) s

def semEmovToG (d a : Nat) (s : State) : SlotEff := gRes s.me d (BitVec.ofNat 64 (s.me.re a).toNat)

/-- EMOV_TO_G alone in its bundle. -/
def execEmovToG (gd : Guard) (d a : Nat) (s : State) : Res :=
  runSole (.emovToG gd d a) (semEmovToG d a) s

def semEmovE (d a : Nat) (s : State) : SlotEff := result (.e d) (s.me.re a).toNat 1

/-- EMOV_E alone in its bundle. -/
def execEmovE (gd : Guard) (d a : Nat) (s : State) : Res :=
  runSole (.emovE gd d a) (semEmovE d a) s

def semQset (d a : Nat) (s : State) : SlotEff := result (.q d) (s.me.rg a).toNat 1

/-- QSET alone in its bundle. -/
def execQset (gd : Guard) (d a : Nat) (s : State) : Res :=
  runSole (.qset gd d a) (semQset d a) s

/-- Coordinate n of a tile name (R103). -/
def coordOf (q n : Nat) : Nat := fld q (11 * (n % 4)) 11
def withCoord (q n v : Nat) : Nat := setFld q (11 * (n % 4)) 11 v

def semQsetTid (d a : Nat) (s : State) : SlotEff := result (.q d) (setFld (s.me.rq d).toNat 44 20 (s.me.rg a).toNat) 1

/-- QSET_TID alone in its bundle. -/
def execQsetTid (gd : Guard) (d a : Nat) (s : State) : Res :=
  runSole (.qsetTid gd d a) (semQsetTid d a) s

def semQsetC (d a b : Nat) (s : State) : SlotEff :=
  result (.q d) (withCoord (s.me.rq d).toNat (s.me.rg b).toNat (s.me.rg a).toNat) 1

/-- QSET_C alone in its bundle. -/
def execQsetC (gd : Guard) (d a b : Nat) (s : State) : Res :=
  runSole (.qsetC gd d a b) (semQsetC d a b) s

def semQget (d a : Nat) (s : State) : SlotEff := gRes s.me d (s.me.rq a)

/-- QGET alone in its bundle. -/
def execQget (gd : Guard) (d a : Nat) (s : State) : Res :=
  runSole (.qget gd d a) (semQget d a) s

def semQgetTid (d a : Nat) (s : State) : SlotEff := gRes s.me d (BitVec.ofNat 64 (fld (s.me.rq a).toNat 44 20))

/-- QGET_TID alone in its bundle. -/
def execQgetTid (gd : Guard) (d a : Nat) (s : State) : Res :=
  runSole (.qgetTid gd d a) (semQgetTid d a) s

def semQgetC (d a b : Nat) (s : State) : SlotEff :=
  gRes s.me d (BitVec.ofNat 64 (coordOf (s.me.rq a).toNat (s.me.rg b).toNat))

/-- QGET_C alone in its bundle. -/
def execQgetC (gd : Guard) (d a b : Nat) (s : State) : Res :=
  runSole (.qgetC gd d a b) (semQgetC d a b) s

def semQadd (d a c n : Nat) (x : Option Nat) (s : State) : SlotEff :=
  let delta : Int := match x with | none => sext n 6 | some e => sext e 11
  let q := (s.me.rq a).toNat
  result (.q d) (withCoord q c (((coordOf q c : Int) + delta) % (2048 : Nat)).toNat) 1

/-- QADD alone in its bundle. -/
def execQadd (gd : Guard) (d a c s0 : Nat) (x : Option Nat) (s : State) : Res :=
  runSole (.qadd gd d a c s0 x) (semQadd d a c s0 x) s

def semQmov (d a : Nat) (s : State) : SlotEff := result (.q d) (s.me.rq a).toNat 1

/-- QMOV alone in its bundle. -/
def execQmov (gd : Guard) (d a : Nat) (s : State) : Res :=
  runSole (.qmov gd d a) (semQmov d a) s

/-! ## Scalar floating point (R131 to R136) -/

/-- The format code fn selects: FP32 or FP64 (R131). -/
def fpCodeOf (f : Nat) : Nat := if f == 1 then 14 else 0
/-- An operand of a precision: FP32 uses bits 31:0 (R119). -/
def fpArg (c : Core) (f a : Nat) : Nat := if f == 1 then (c.rg a).toNat else (c.rg a).toNat % 2 ^ 32
/-- The rounding mode of an optional extension word; RNE without one (R131). -/
def rmOf (x : Option Nat) : Nat := x.getD 0 % 4

def semFadd (d a b f : Nat) (x : Option Nat) (s : State) : SlotEff :=
  resultFl (s.me.dg d) (fAdd (fpCodeOf f) (rmOf x) (fpArg s.me f a) (fpArg s.me f b)) 4

/-- FADD alone in its bundle. -/
def execFadd (gd : Guard) (d a b f : Nat) (x : Option Nat) (s : State) : Res :=
  runSole (.fadd gd d a b f x) (semFadd d a b f x) s

def semFsub (d a b f : Nat) (x : Option Nat) (s : State) : SlotEff :=
  resultFl (s.me.dg d) (fSub (fpCodeOf f) (rmOf x) (fpArg s.me f a) (fpArg s.me f b)) 4

/-- FSUB alone in its bundle. -/
def execFsub (gd : Guard) (d a b f : Nat) (x : Option Nat) (s : State) : Res :=
  runSole (.fsub gd d a b f x) (semFsub d a b f x) s

def semFmul (d a b f : Nat) (x : Option Nat) (s : State) : SlotEff :=
  resultFl (s.me.dg d) (fMul (fpCodeOf f) (rmOf x) (fpArg s.me f a) (fpArg s.me f b)) 4

/-- FMUL alone in its bundle. -/
def execFmul (gd : Guard) (d a b f : Nat) (x : Option Nat) (s : State) : Res :=
  runSole (.fmul gd d a b f x) (semFmul d a b f x) s

def semFma (d a b f c rm : Nat) (s : State) : SlotEff :=
  resultFl (s.me.dg d) (fFma (fpCodeOf f) (rm % 4) (fpArg s.me f a) (fpArg s.me f b) (fpArg s.me f c)) 4

/-- FMA alone in its bundle. -/
def execFma (gd : Guard) (d a b f c rm : Nat) (s : State) : Res :=
  runSole (.fma gd d a b f c rm) (semFma d a b f c rm) s

def semFdiv (d a b f : Nat) (x : Option Nat) (s : State) : SlotEff :=
  resultFl (s.me.dg d) (fDiv (fpCodeOf f) (rmOf x) (fpArg s.me f a) (fpArg s.me f b)) 18

/-- FDIV alone in its bundle. -/
def execFdiv (gd : Guard) (d a b f : Nat) (x : Option Nat) (s : State) : Res :=
  runSole (.fdiv gd d a b f x) (semFdiv d a b f x) s

def semFsqrt (d a f : Nat) (x : Option Nat) (s : State) : SlotEff :=
  resultFl (s.me.dg d) (fSqrt (fpCodeOf f) (rmOf x) (fpArg s.me f a)) 18

/-- FSQRT alone in its bundle. -/
def execFsqrt (gd : Guard) (d a f : Nat) (x : Option Nat) (s : State) : Res :=
  runSole (.fsqrt gd d a f x) (semFsqrt d a f x) s

def semFmin (d a b f : Nat) (s : State) : SlotEff :=
  resultFl (s.me.dg d) (fMinMax (fpCodeOf f) false (fpArg s.me f a) (fpArg s.me f b)) 4

/-- FMIN alone in its bundle. -/
def execFmin (gd : Guard) (d a b f : Nat) (s : State) : Res :=
  runSole (.fmin gd d a b f) (semFmin d a b f) s

def semFmax (d a b f : Nat) (s : State) : SlotEff :=
  resultFl (s.me.dg d) (fMinMax (fpCodeOf f) true (fpArg s.me f a) (fpArg s.me f b)) 4

/-- FMAX alone in its bundle. -/
def execFmax (gd : Guard) (d a b f : Nat) (s : State) : Res :=
  runSole (.fmax gd d a b f) (semFmax d a b f) s

def semFcmp (d a b f cond : Nat) (s : State) : SlotEff :=
  let r := fCmp (fpCodeOf f) cond (fpArg s.me f a) (fpArg s.me f b)
  resultFl (s.me.dp d) (r.1.toNat, r.2) 4

/-- FCMP alone in its bundle. -/
def execFcmp (gd : Guard) (d a b f cond : Nat) (s : State) : Res :=
  runSole (.fcmp gd d a b f cond) (semFcmp d a b f cond) s

/-- A source of a format code, from the low bits (R135). -/
def fcvtArg (c : Core) (code a : Nat) : Nat := (c.rg a).toNat % 2 ^ fmtWidth code

def semFcvtFp (d a src dst rm : Nat) (s : State) : SlotEff :=
  resultFl (s.me.dg d) (fCvt src dst (rm % 4) (fcvtArg s.me src a)) 4

/-- FCVT_FP alone in its bundle. -/
def execFcvtFp (gd : Guard) (d a src dst rm : Nat) (s : State) : Res :=
  runSole (.fcvtFp gd d a src dst rm) (semFcvtFp d a src dst rm) s

def semFcvtFromI64 (d a f dst rm : Nat) (s : State) : SlotEff :=
  resultFl (s.me.dg d) (intToF dst (rm % 4) (s.me.rg a).toInt f) 4

/-- FCVT_FROM_I64 alone in its bundle. -/
def execFcvtFromI64 (gd : Guard) (d a f dst rm : Nat) (s : State) : Res :=
  runSole (.fcvtFromI64 gd d a f dst rm) (semFcvtFromI64 d a f dst rm) s

def semFcvtToI64 (d a f src rm : Nat) (s : State) : SlotEff :=
  let r := valToInt (rm % 4) (decodeF src (fcvtArg s.me src a)) f (-(2 ^ 63)) (2 ^ 63 - 1)
  resultFl (s.me.dg d) ((w64 r.1).toNat, r.2) 4

/-- FCVT_TO_I64 alone in its bundle. -/
def execFcvtToI64 (gd : Guard) (d a f src rm : Nat) (s : State) : Res :=
  runSole (.fcvtToI64 gd d a f src rm) (semFcvtToI64 d a f src rm) s

def semFcvtToU64 (d a f src rm : Nat) (s : State) : SlotEff :=
  let r := valToInt (rm % 4) (decodeF src (fcvtArg s.me src a)) f 0 (2 ^ 64 - 1)
  resultFl (s.me.dg d) ((w64 r.1).toNat, r.2) 4

/-- FCVT_TO_U64 alone in its bundle. -/
def execFcvtToU64 (gd : Guard) (d a f src rm : Nat) (s : State) : Res :=
  runSole (.fcvtToU64 gd d a f src rm) (semFcvtToU64 d a f src rm) s

def semFclass (d a f : Nat) (s : State) : SlotEff :=
  gResLat s.me d (BitVec.ofNat 64 (2 ^ fClass (fpCodeOf f) (fpArg s.me f a))) 4

/-- FCLASS alone in its bundle. -/
def execFclass (gd : Guard) (d a f : Nat) (s : State) : Res :=
  runSole (.fclass gd d a f) (semFclass d a f) s

end Sys2Proof.Machine
end

