-- ==== Sys2Proof/Machine/Special.lean ====
section
/-! DEFINITION. The functions of VSPEC, rounded once from 640 fraction bits (R169). A result that is not exact is irrational; its computed
bits lie so close to it that no rounding boundary of a 16- or 32-bit format falls between (log entry 22). -/

namespace Sys2Proof.Machine

/-- Fraction bits of the working precision. -/
def spP : Nat := 640
def spOne : Nat := 2 ^ spP
/-- Product of two fixed-point numbers. -/
def spMul (x y : Nat) : Nat := x * y / spOne

/-- Σ term·z2^j / (2(k+j)+1): the series of atanh. -/
def atanhFrom (z2 : Nat) : Nat → Nat → Nat → Nat
  | 0, _, _ => 0
  | n + 1, k, term => term / (2 * k + 1) + atanhFrom z2 n (k + 1) (spMul term z2)
/-- atanh of a fixed-point z up to 1/3. -/
def spAtanh (z : Nat) : Nat := atanhFrom (spMul z z) 220 0 z
def spLn2 : Nat := 2 * spAtanh (spOne / 3)

/-- Σ (−1)^j·term / (m^2j (2(k+j)+1)): the series of atan(1/m). -/
def atanFrom (m2 : Nat) : Nat → Nat → Int → Int
  | 0, _, _ => 0
  | n + 1, k, term => term / (2 * k + 1 : Nat) - atanFrom m2 n (k + 1) (term / (m2 : Int))
/-- π by Machin's formula. -/
def spPi : Nat := (16 * atanFrom 25 150 0 ((spOne / 5 : Nat) : Int) - 4 * atanFrom (239 * 239) 60 0 ((spOne / 239 : Nat) : Int)).toNat

/-- ln of man × 2^exp > 0, in fixed point. -/
def spLn (man : Nat) (exp : Int) : Int :=
  let l := Nat.log2 man
  let m := man * 2 ^ (spP - l)
  let z := (m - spOne) * spOne / (m + spOne)
  2 * (spAtanh z : Int) + (exp + (l : Nat)) * (spLn2 : Int)

/-- Σ term·r^j / ((k+1)…(k+j)): the series of exp. -/
def expFrom (r : Nat) : Nat → Nat → Nat → Nat
  | 0, _, _ => 0
  | n + 1, k, term => term + expFrom r n (k + 1) (spMul term r / (k + 1))
/-- exp of a fixed-point r from 0 up to ln 2. -/
def spExpFrac (r : Nat) : Nat := expFrom r 170 0 spOne
/-- e^x of a fixed-point x: a mantissa in fixed point and a power of two. -/
def spExp (x : Int) : Nat × Int :=
  let n := Int.fdiv x (spLn2 : Int)
  (spExpFrac (x - n * (spLn2 : Int)).toNat, n)

/-- The fixed-point form of ±man × 2^exp. -/
def spFix (neg : Bool) (man : Nat) (exp : Int) : Int := signed neg (roundMag rtz neg man (exp + (spP : Nat)) false).1

/-- Σ of the series of sin: term·(−y2)^j / ((2k+2)…). -/
def sinFrom (y2 : Nat) : Nat → Nat → Nat → Int
  | 0, _, _ => 0
  | n + 1, k, term => (term : Int) - sinFrom y2 n (k + 1) (spMul term y2 / ((2 * k + 2) * (2 * k + 3)))
/-- sin(πt) of a fixed-point t up to 1/2. -/
def spSinPi (t : Nat) : Nat :=
  let y := spMul spPi t
  (sinFrom (spMul y y) 90 0 y).toNat

/-- A result with more bits below those of man. -/
def inexactF (code mode : Nat) (neg : Bool) (man : Nat) (exp : Int) : Nat × Nat :=
  if man == 0 then roundF code mode neg 1 (exp - 2) true else roundF code mode neg (4 * man + 1) (exp - 2) true
/-- An exact result. -/
def exactF (code mode : Nat) (neg : Bool) (man : Nat) (exp : Int) : Nat × Nat := encodeF code mode (.fin neg man exp)

/-- x is so large that e^x and its kin lie beyond every format, or so near their limit: |x| ≥ 2^n. -/
def magGe (n man : Nat) (exp : Int) : Bool := decide ((n : Int) ≤ floorLog2 (man, exp))

/-- 2^x for exp2 and e^x for exp. -/
def spPow (code mode : Nat) (base2 neg : Bool) (man : Nat) (exp : Int) : Nat × Nat :=
  if magGe 12 man exp then inexactF code mode false 1 (if neg then -4000 else 4000)
  else
    let x := spFix neg man exp
    if base2 then
      let n := Int.fdiv x (spOne : Int)
      let r := (x - n * (spOne : Int)).toNat
      if r == 0 then exactF code mode false 1 n
      else inexactF code mode false (spExpFrac (spMul r spLn2)) (n - (spP : Nat))
    else
      let e := spExp x
      inexactF code mode false e.1 (e.2 - (spP : Nat))

/-- tanh of a value that is not zero. -/
def spTanh (code mode : Nat) (neg : Bool) (man : Nat) (exp : Int) : Nat × Nat :=
  if magGe 8 man exp then inexactF code mode neg (2 ^ 100 - 1) (-100)
  else
    let e := spExp (2 * spFix false man exp)
    let big := e.1 * pow2 e.2
    inexactF code mode neg ((big - spOne) * spOne / (big + spOne)) (-(spP : Int))

/-- The logistic function of a value that is not zero. -/
def spSigm (code mode : Nat) (neg : Bool) (man : Nat) (exp : Int) : Nat × Nat :=
  if magGe 8 man exp then (if neg then inexactF code mode false 1 (-300) else inexactF code mode false (2 ^ 100 - 1) (-100))
  else
    let e := spExp (spFix (!neg) man exp)
    let y := (roundMag rtz false e.1 e.2 false).1
    inexactF code mode false (spOne * spOne / (spOne + y)) (-(spP : Int))

/-- 1/√x of a positive value. -/
def spRsqrt (code mode : Nat) (man : Nat) (exp : Int) : Nat × Nat :=
  let odd := exp % 2 != 0
  let m := if odd then 2 * man else man
  let e := if odd then exp - 1 else exp
  let k := 100 + Nat.log2 m
  let r := isqrt (2 ^ (2 * k) / m)
  if r * r * m == 2 ^ (2 * k) then exactF code mode false r (-(k : Int) - e / 2)
  else inexactF code mode false r (-(k : Int) - e / 2)

/-- sin(πx) with the argument t = |x| (plus a half for the cosine) in fixed point; zneg is the sign of an exact zero. -/
def spSin (code mode : Nat) (neg zneg : Bool) (t : Nat) : Nat × Nat :=
  let t2 := t % (2 * spOne)
  let flip := Nat.ble spOne t2
  let u := if flip then t2 - spOne else t2
  let u := if Nat.blt (spOne / 2) u then spOne - u else u
  if u == 0 then exactF code mode zneg 0 0
  else if u == spOne / 2 then exactF code mode (neg != flip) 1 0
  else inexactF code mode (neg != flip) (spSinPi u) (-(spP : Int))

/-- A NaN result with NV. -/
def invalidF (code : Nat) : Nat × Nat := (nanBits code, flNV)

/-- VSPEC's function fn of a lane in format code (R169). -/
def vspecF (code mode fn x : Nat) : Nat × Nat :=
  let v := decodeF code x
  let inf (neg : Bool) : Nat := (encodeF code mode (.inf neg)).1
  let zero (neg : Bool) : Nat := (encodeF code mode (.fin neg 0 0)).1
  let one : Nat := (encodeF code mode (.fin false 1 0)).1
  match v with
  | .nan sig => (nanBits code, if sig then flNV else 0)
  | .inf neg =>
    match fn with
    | 0 => (if neg then zero false else inf false, 0)
    | 1 => if neg then invalidF code else (inf false, 0)
    | 2 => (zero neg, 0)
    | 3 => if neg then invalidF code else (zero false, 0)
    | 4 => if neg then invalidF code else (inf false, 0)
    | 5 => (if neg then zero false else inf false, 0)
    | 6 => if neg then invalidF code else (inf false, 0)
    | 7 => ((encodeF code mode (.fin neg 1 0)).1, 0)
    | 8 => (if neg then zero false else one, 0)
    | _ => invalidF code
  | .fin neg man exp =>
    match fn with
    | 0 => if man == 0 then (one, 0) else spPow code mode true neg man exp
    | 1 =>
      if man == 0 then (inf true, flDZ) else if neg then invalidF code
      else if man == 2 ^ Nat.log2 man then
        let l := exp + (Nat.log2 man : Nat)
        exactF code mode (l < 0) l.natAbs 0
      else
        let l := spLn man exp
        inexactF code mode (l < 0) (l.natAbs * spOne / spLn2) (-(spP : Int))
    | 2 => fDiv code mode one x
    | 3 =>
      if man == 0 then (inf neg, flDZ) else if neg then invalidF code else spRsqrt code mode man exp
    | 4 => fSqrt code mode x
    | 5 => if man == 0 then (one, 0) else spPow code mode false neg man exp
    | 6 =>
      if man == 0 then (inf true, flDZ) else if neg then invalidF code
      else
        let l := spLn man exp
        if man == 2 ^ Nat.log2 man && exp + (Nat.log2 man : Nat) == 0 then (zero false, 0)
        else inexactF code mode (l < 0) l.natAbs (-(spP : Int))
    | 7 => if man == 0 then (x, 0) else spTanh code mode neg man exp
    | 8 => if man == 0 then exactF code mode false 1 (-1) else spSigm code mode neg man exp
    | 9 => if decide (0 ≤ exp) then (zero neg, 0) else spSin code mode neg neg (spFix false man exp).toNat
    | _ =>
      if decide (1 ≤ exp) then (one, 0)
      else spSin code mode false false ((spFix false man exp).toNat + spOne / 2)

end Sys2Proof.Machine
end

