-- ==== Sys2Proof/Machine/Vector.lean ====
section
/-! DEFINITION. The V-slot instructions (R74, R151 to R173). -/

namespace Sys2Proof.Machine

/-! ## Lanes and masks (R151 to R153) -/

/-- The bits of a vector register as a number. -/
def Core.vn (c : Core) (n : Nat) : Nat := (c.rv n).toNat
/-- Lane i of w bits. -/
def laneAt (x w i : Nat) : Nat := fld x (i * w) w
/-- Lane i is enabled: the mask bit of the lane's lowest byte (R153). -/
def laneOn (mask w i : Nat) : Bool := bitOf mask (i * w / 8)
def Core.kn (c : Core) (n : Nat) : Nat := (c.rk n).toNat

/-- Fields of w bits from bit 0 on: those present as a value, with the mask of their bits. -/
def packLanes (w : Nat) : List (Option Nat) → Nat × Nat
  | [] => (0, 0)
  | none :: t => (2 ^ w * (packLanes w t).1, 2 ^ w * (packLanes w t).2)
  | some x :: t => (x % 2 ^ w + 2 ^ w * (packLanes w t).1, 2 ^ w - 1 + 2 ^ w * (packLanes w t).2)

/-- A v result: the lanes present, after a latency, with flags (R153, R155). -/
def vPut (d w lat : Nat) (l : List (Option Nat)) (fl : Nat) : SlotEff :=
  let p := packLanes w l
  onCore (fun c => (c.put (.v d) p.1 (some p.2) lat).orFp fl)
/-- A k result under a mask. -/
def kPut (d val : Nat) (mask : Option Nat) (lat : Nat) : SlotEff := onCore (fun c => c.put (.k d) val mask lat)

/-- The lane width of an instruction's fmt. -/
def vW (o : VOp) : Nat := (laneWidth o.ex.fmt).getD 32
/-- The number of lanes of width w in the group. -/
def vN (o : VOp) (w : Nat) : Nat := o.bits / w

/-- The enabled lanes i receive f i with its flags; the others keep their values (R153). -/
def vMap (o : VOp) (mask w lat : Nat) (f : Nat → Nat × Nat) : SlotEff :=
  let rs := (upFrom 0 (vN o w)).map (fun i => if laneOn mask w i then some (f i) else none)
  vPut o.d w lat (rs.map (Option.map Prod.fst)) (orFlags (rs.map (fun r => (r.getD (0, 0)).2)))

/-! ## Typed lanes (R152) -/

/-- The width of a lane type. -/
def tyWidth (t : LaneTy) : Nat := match t with | .flt code => fmtWidth code | .int _ w => w | .xa64 => 64
def tyFloat (t : LaneTy) : Bool := match t with | .flt _ => true | _ => false
/-- Kinds that read as signed. -/
def tySigned (t : LaneTy) : Bool := match t with | .int sg _ => sg | .xa64 => true | .flt _ => false
/-- An integer lane's value. -/
def tyInt (t : LaneTy) (x : Nat) : Int := if tySigned t then sext x (tyWidth t) else (x : Int)
/-- The range of an integer kind. -/
def tyLo (t : LaneTy) : Int := if tySigned t then -((2 ^ (tyWidth t - 1) : Nat) : Int) else 0
def tyHi (t : LaneTy) : Int := if tySigned t then ((2 ^ (tyWidth t - 1) : Nat) : Int) - 1 else ((2 ^ tyWidth t : Nat) : Int) - 1
/-- An integer's lane bits: wrapped, or saturated with S = 1 (R157). -/
def tyBits (t : LaneTy) (sat : Bool) (e : Int) : Nat :=
  ((if sat then clampI e (tyLo t) (tyHi t) else e) % ((2 ^ tyWidth t : Nat) : Int)).toNat
/-- The lane type of a typed instruction. -/
def vTy (o : VOp) : LaneTy := o.ty.getD (.flt 0)
def vSat (o : VOp) : Bool := bitOf o.ex.i8 5
def arithLat (t : LaneTy) : Nat := if tyFloat t then 5 else 2

/-- The arithmetic family (R157): the float operation of a format code, and the exact integer one. -/
def vArith (o : VOp) (c : Core) (ff : Nat → Nat → Nat → Nat → Nat × Nat) (fi : Int → Int → Int → Int) : SlotEff :=
  let t := vTy o
  let w := tyWidth t
  vMap o (c.kn o.k) w (arithLat t) (fun i =>
    let x := laneAt (c.vn o.a) w i
    let y := laneAt (c.vn o.b) w i
    let z := laneAt (c.vn o.ex.c) w i
    match t with
    | .flt code => ff code x y z
    | t => (tyBits t (vSat o) (fi (tyInt t x) (tyInt t y) (tyInt t z)), 0))

def semVadd (o : VOp) (s : State) : SlotEff := vArith o s.me (fun code x y _ => fAdd code o.ex.rm x y) (fun x y _ => x + y)

/-- VADD alone in its bundle. -/
def execVadd (gd : Guard) (v : VOp) (s : State) : Res :=
  runSole (.vadd gd v) (semVadd v) s

def semVsub (o : VOp) (s : State) : SlotEff := vArith o s.me (fun code x y _ => fSub code o.ex.rm x y) (fun x y _ => x - y)

/-- VSUB alone in its bundle. -/
def execVsub (gd : Guard) (v : VOp) (s : State) : Res :=
  runSole (.vsub gd v) (semVsub v) s

def semVmul (o : VOp) (s : State) : SlotEff := vArith o s.me (fun code x y _ => fMul code o.ex.rm x y) (fun x y _ => x * y)

/-- VMUL alone in its bundle. -/
def execVmul (gd : Guard) (v : VOp) (s : State) : Res :=
  runSole (.vmul gd v) (semVmul v) s

def semVfma (o : VOp) (s : State) : SlotEff :=
  vArith o s.me (fun code x y z => fFma code o.ex.rm x y z) (fun x y z => x * y + z)

/-- VFMA alone in its bundle. -/
def execVfma (gd : Guard) (v : VOp) (s : State) : Res :=
  runSole (.vfma gd v) (semVfma v) s

def semVmin (o : VOp) (s : State) : SlotEff := vArith o s.me (fun code x y _ => fMinMax code false x y) (fun x y _ => min x y)

/-- VMIN alone in its bundle. -/
def execVmin (gd : Guard) (v : VOp) (s : State) : Res :=
  runSole (.vmin gd v) (semVmin v) s

def semVmax (o : VOp) (s : State) : SlotEff := vArith o s.me (fun code x y _ => fMinMax code true x y) (fun x y _ => max x y)

/-- VMAX alone in its bundle. -/
def execVmax (gd : Guard) (v : VOp) (s : State) : Res :=
  runSole (.vmax gd v) (semVmax v) s

/-- VABS and VNEG of a float lane (R157): a NaN gives the canonical NaN. -/
def signOp (code x : Nat) (f : Bool → Bool) : Nat × Nat :=
  let v := decodeF code x
  let sb := 2 ^ (fmtWidth code - 1)
  if v.isNan then (nanBits code, v.sigFlag) else (x % sb + (if f (Nat.ble sb x) then sb else 0), 0)

def semVabs (o : VOp) (s : State) : SlotEff :=
  vArith o s.me (fun code x _ _ => signOp code x (fun _ => false)) (fun x _ _ => if x < 0 then -x else x)

/-- VABS alone in its bundle. -/
def execVabs (gd : Guard) (v : VOp) (s : State) : Res :=
  runSole (.vabs gd v) (semVabs v) s

def semVneg (o : VOp) (s : State) : SlotEff := vArith o s.me (fun code x _ _ => signOp code x (fun n => !n)) (fun x _ _ => -x)

/-- VNEG alone in its bundle. -/
def execVneg (gd : Guard) (v : VOp) (s : State) : Res :=
  runSole (.vneg gd v) (semVneg v) s

/-- Bitwise logic of lanes (R158). -/
def vLogic (o : VOp) (c : Core) (f : Nat → Nat → Nat) : SlotEff :=
  vMap o (c.kn o.k) (vW o) 2 (fun i => (f (laneAt (c.vn o.a) (vW o) i) (laneAt (c.vn o.b) (vW o) i), 0))

def semVand (o : VOp) (s : State) : SlotEff := vLogic o s.me Nat.land

/-- VAND alone in its bundle. -/
def execVand (gd : Guard) (v : VOp) (s : State) : Res :=
  runSole (.vand gd v) (semVand v) s

def semVor (o : VOp) (s : State) : SlotEff := vLogic o s.me Nat.lor

/-- VOR alone in its bundle. -/
def execVor (gd : Guard) (v : VOp) (s : State) : Res :=
  runSole (.vor gd v) (semVor v) s

def semVxor (o : VOp) (s : State) : SlotEff := vLogic o s.me Nat.xor

/-- VXOR alone in its bundle. -/
def execVxor (gd : Guard) (v : VOp) (s : State) : Res :=
  runSole (.vxor gd v) (semVxor v) s

/-- Shifts of integer lanes by the low log2(w) bits of v[b]'s lane (R158). -/
def vShift (o : VOp) (c : Core) (f : LaneTy → Nat → Nat → Nat) : SlotEff :=
  let t := vTy o
  let w := tyWidth t
  vMap o (c.kn o.k) w 2 (fun i => (f t (laneAt (c.vn o.a) w i) (laneAt (c.vn o.b) w i % w), 0))

def semVshl (o : VOp) (s : State) : SlotEff := vShift o s.me (fun t x n => x * 2 ^ n % 2 ^ tyWidth t)

/-- VSHL alone in its bundle. -/
def execVshl (gd : Guard) (v : VOp) (s : State) : Res :=
  runSole (.vshl gd v) (semVshl v) s

def semVshr (o : VOp) (s : State) : SlotEff := vShift o s.me (fun t x n => tyBits t false (ashr (tyInt t x) n))

/-- VSHR alone in its bundle. -/
def execVshr (gd : Guard) (v : VOp) (s : State) : Res :=
  runSole (.vshr gd v) (semVshr v) s

/-! ## Compare, select and move (R159, R160) -/

/-- One lane's condition of VCMP: 0 eq, 1 ne, 2 lt, 3 le, 4 un. -/
def vCond (t : LaneTy) (cond x y : Nat) : Bool × Nat :=
  match t with
  | .flt code =>
    match cond with
    | 0 => fCmp code 0 x y
    | 1 => (!(fCmp code 0 x y).1, (fCmp code 0 x y).2)
    | 2 => fCmp code 1 x y
    | 3 => fCmp code 2 x y
    | _ => fCmp code 3 x y
  | t =>
    match cond with
    | 0 => (x == y, 0)
    | 1 => (x != y, 0)
    | 2 => (decide (tyInt t x < tyInt t y), 0)
    | _ => (decide (tyInt t x ≤ tyInt t y), 0)

def semVcmp (o : VOp) (s : State) : SlotEff :=
  let c := s.me
  let t := vTy o
  let w := tyWidth t
  let rs := (upFrom 0 (vN o w)).map (fun i =>
    if laneOn (c.kn o.k) w i then vCond t (fld o.ex.i8 0 3) (laneAt (c.vn o.a) w i) (laneAt (c.vn o.b) w i) else (false, 0))
  let p := packLanes (w / 8) (rs.map (fun r => some (if r.1 then 2 ^ (w / 8) - 1 else 0)))
  onCore (fun c => (c.put (.k o.d) p.1 (some p.2) 2).orFp (orFlags (rs.map Prod.snd)))

/-- VCMP alone in its bundle. -/
def execVcmp (gd : Guard) (v : VOp) (s : State) : Res :=
  runSole (.vcmp gd v) (semVcmp v) s

def semVsel (o : VOp) (s : State) : SlotEff :=
  let c := s.me
  let w := (vW o)
  vPut o.d w 2 ((upFrom 0 (vN o w)).map (fun i =>
    some (if laneOn (c.kn o.k) w i then laneAt (c.vn o.a) w i else laneAt (c.vn o.b) w i))) 0

/-- VSEL alone in its bundle. -/
def execVsel (gd : Guard) (v : VOp) (s : State) : Res :=
  runSole (.vsel gd v) (semVsel v) s

def semVmov (o : VOp) (s : State) : SlotEff :=
  vMap o (s.me.kn o.k) (vW o) 2 (fun i => (laneAt (s.me.vn o.a) (vW o) i, 0))

/-- VMOV alone in its bundle. -/
def execVmov (gd : Guard) (v : VOp) (s : State) : Res :=
  runSole (.vmov gd v) (semVmov v) s

/-! ## Permutes, slides, pack and unpack (R161 to R164) -/

def semVperm (o : VOp) (s : State) : SlotEff :=
  let c := s.me
  let w := (vW o)
  let n := vN o w
  vMap o (c.kn o.k) w 3 (fun i =>
    let j := laneAt (c.vn o.b) w i % (if bitOf o.ex.i8 5 then 2 * n else n)
    (if Nat.blt j n then laneAt (c.vn o.a) w j else laneAt (c.vn o.ex.c) w (j - n), 0))

/-- VPERM alone in its bundle. -/
def execVperm (gd : Guard) (v : VOp) (s : State) : Res :=
  runSole (.vperm gd v) (semVperm v) s

def semVslide (o : VOp) (s : State) : SlotEff :=
  let c := s.me
  let w := (vW o)
  let n := vN o w
  let k := fld o.ex.i8 0 7
  vMap o (c.kn o.k) w 3 (fun i =>
    (if bitOf o.ex.i8 7 then
      (if Nat.ble k i then laneAt (c.vn o.a) w (i - k) else laneAt (c.vn o.b) w (n + i - k))
    else (if Nat.blt (i + k) n then laneAt (c.vn o.a) w (i + k) else laneAt (c.vn o.b) w (i + k - n)), 0))

/-- VSLIDE alone in its bundle. -/
def execVslide (gd : Guard) (v : VOp) (s : State) : Res :=
  runSole (.vslide gd v) (semVslide v) s

def semVpack (o : VOp) (s : State) : SlotEff :=
  let c := s.me
  let w := (vW o)
  let h := w / 2
  let n := vN o w
  vMap o (c.kn o.k) h 3 (fun i =>
    let x := if Nat.blt i n then laneAt (c.vn o.a) w i else laneAt (c.vn o.b) w (i - n)
    (if bitOf o.ex.i8 5 then tyBits (.int (o.ik == 1) h) true (tyInt (.int (o.ik == 1) w) x) else x % 2 ^ h, 0))

/-- VPACK alone in its bundle. -/
def execVpack (gd : Guard) (v : VOp) (s : State) : Res :=
  runSole (.vpack gd v) (semVpack v) s

def semVunpk (o : VOp) (s : State) : SlotEff :=
  let c := s.me
  let w := (vW o)
  let h := w / 2
  let n := vN o w
  vMap o (c.kn o.k) w 3 (fun i =>
    let x := laneAt (c.vn o.a) h ((fld o.ex.i8 0 1) * n + i)
    (if o.ik == 1 then (sext x h % ((2 ^ w : Nat) : Int)).toNat else x, 0))

/-- VUNPK alone in its bundle. -/
def execVunpk (gd : Guard) (v : VOp) (s : State) : Res :=
  runSole (.vunpk gd v) (semVunpk v) s

def semVbcast (o : VOp) (s : State) : SlotEff :=
  let c := s.me
  let w := (vW o)
  let x := if bitOf o.ex.i8 7 then laneAt (c.vn o.a) w (fld o.ex.i8 0 7) else (c.rg o.ex.g).toNat % 2 ^ w
  vMap o (c.kn o.k) w 2 (fun _ => (x, 0))

/-- VBCAST alone in its bundle. -/
def execVbcast (gd : Guard) (v : VOp) (s : State) : Res :=
  runSole (.vbcast gd v) (semVbcast v) s

def semVext (o : VOp) (s : State) : SlotEff :=
  let x := laneAt (s.me.vn o.a) (vW o) (fld o.ex.i8 0 7)
  gResLat s.me o.ex.g (if o.ex.fmt == 5 then w64 (sext x 8) else BitVec.ofNat 64 x) 3

/-- VEXT alone in its bundle. -/
def execVext (gd : Guard) (v : VOp) (s : State) : Res :=
  runSole (.vext gd v) (semVext v) s

/-! ## Conversion, quantisation and scales (R165 to R168) -/

/-- The value of a VCVT source: an XA64 lane has the binary point f (R51). -/
def cvtSource (code x f : Nat) : FV :=
  match code with
  | 5 => .fin (sext x 8 < 0) (sext x 8).natAbs 0
  | 6 => .fin false x 0
  | 15 => .fin (sext x 64 < 0) (sext x 64).natAbs (-(f : Int))
  | _ => decodeF code x
/-- A conversion between any two types of VCVT (R40, R41, R43, R51). -/
def vConvert (src dst mode f x : Nat) : Nat × Nat :=
  let v := cvtSource src x f
  match dst with
  | 5 => let r := valToInt mode v 0 (-128) 127
    ((r.1 % 256).toNat, r.2)
  | 6 => let r := valToInt mode v 0 0 255
    (r.1.toNat, r.2)
  | 15 => let r := valToInt mode v f (-(2 ^ 63)) (2 ^ 63 - 1)
    ((w64 r.1).toNat, r.2)
  | _ => let b := encodeF dst mode (if v.isZero && (src == 5 || src == 6 || src == 15) then .fin false 0 0 else v)
    (b.1, Nat.lor b.2 v.sigFlag)

def semVcvt (o : VOp) (s : State) : SlotEff :=
  let c := s.me
  let src := fld o.ex.i8 0 4
  let ws := (laneWidth src).getD 32
  let wd := (vW o)
  let n := o.bits / Nat.max ws wd
  let part := fld o.ex.i8 4 3
  let bi := if Nat.blt ws wd then part * n else 0
  let bo := if Nat.blt wd ws then part * n else 0
  let f := Nat.min ((c.rg o.ex.g).toNat % 64) 62
  let rs := (upFrom 0 (bo + n)).map (fun j =>
    if Nat.ble bo j && laneOn (c.kn o.k) wd j then
      some (vConvert src o.ex.fmt o.ex.rm f (laneAt (c.vn o.a) ws (bi + (j - bo)))) else none)
  vPut o.d wd 6 (rs.map (Option.map Prod.fst)) (orFlags (rs.map (fun r => (r.getD (0, 0)).2)))

/-- VCVT alone in its bundle. -/
def execVcvt (gd : Guard) (v : VOp) (s : State) : Res :=
  runSole (.vcvt gd v) (semVcvt v) s

/-- The lists of 32 in a list, n of them. -/
def blocksOf {α : Type} : Nat → List α → List (List α)
  | 0, _ => []
  | n + 1, l => l.take 32 :: blocksOf n (l.drop 32)
/-- Element width of a block format (R44, R47). -/
def blockWidth (code : Nat) : Nat := match code with | 9 => 6 | 10 => 4 | 12 => 4 | _ => 8
/-- One block quantised (R46, R48): elements, header (E0 and E1, or X), flags. -/
def quantBlock (code dist : Nat) (xs : List FV) : List Nat × Nat × Nat :=
  if isDx code then
    let r := dxQuant code dist xs
    (r.1, r.2.1 + 256 * r.2.2.1, r.2.2.2)
  else mxQuant code xs
/-- An element of a block format under its header (R44, R47). -/
def blockDecode (code el hdr : Nat) : FV :=
  if isDx code then dxDecode code el (hdr % 256) (hdr / 256 % 256) else mxDecode code el (hdr % 256)
/-- Bits of a block's header. -/
def hdrBits (code : Nat) : Nat := if isDx code then 16 else 8

def semVqnt (o : VOp) (s : State) : SlotEff :=
  let c := s.me
  let src := fld o.ex.i8 0 4
  let ws := (laneWidth src).getD 32
  let n := o.bits / ws
  let code := o.ex.fmt
  let xs := (upFrom 0 n).map (fun i =>
    if laneOn (c.kn o.k) ws i then decodeF src (laneAt (c.vn o.a) ws i) else .fin false 0 0)
  let bs := (blocksOf (n / 32) xs).map (quantBlock code (fld o.ex.i8 4 3 + 1))
  let els := packLanes (blockWidth code) ((bs.flatMap (fun b => b.1)).map some)
  let hds := packLanes (hdrBits code) (bs.map (fun b => some b.2.1))
  onCore (fun c => ((c.put (.v o.d) els.1 (some els.2) 6).put (.v o.ex.c) hds.1 (some hds.2) 6).orFp
    (orFlags (bs.map (fun b => b.2.2))))

/-- VQNT alone in its bundle. -/
def execVqnt (gd : Guard) (v : VOp) (s : State) : Res :=
  runSole (.vqnt gd v) (semVqnt v) s

/-- VDQ: a lane group narrower than a block of the destination type holds no block, and nothing is decoded (R167). -/
def semVdq (o : VOp) (s : State) : SlotEff :=
  let c := s.me
  let code := o.ex.fmt
  let dst := fld o.ex.i8 0 4
  let wd := (laneWidth dst).getD 32
  let fromE := bitOf o.ex.i8 7
  let e := (c.re o.b).toNat
  if fromE && fld e 16 4 != code then faults fcFormat 5 0
  else if Nat.blt o.bits (32 * wd) then {}
  else
    vMap o (c.kn o.k) wd 6 (fun i =>
      let hdr := if fromE then e % 65536 else fld (c.vn o.b) (i / 32 * hdrBits code) (hdrBits code)
      encodeF dst o.ex.rm (blockDecode code (laneAt (c.vn o.a) (blockWidth code) i) hdr))

/-- VDQ alone in its bundle. -/
def execVdq (gd : Guard) (v : VOp) (s : State) : Res :=
  runSole (.vdq gd v) (semVdq v) s

/-- The largest magnitude of a block's enabled lanes, exact in FP32, with NV for a signalling NaN (R168). -/
def amaxBlock (vs : List FV) : Nat × Nat :=
  let fl := orFlags (vs.map FV.sigFlag)
  if vs.any FV.isInf then (0x7F800000, fl)
  else
    let m := magMax vs
    (if m.1 == 0 then 0 else (roundF 0 rne false m.1 m.2 false).1, fl)

def semVamax (o : VOp) (s : State) : SlotEff :=
  let c := s.me
  let src := o.ex.fmt
  let ws := (vW o)
  let n := o.bits / ws
  let rs := (upFrom 0 (n / 32)).map (fun b =>
    let vs := ((upFrom (32 * b) 32).filter (fun i => laneOn (c.kn o.k) ws i)).map (fun i => decodeF src (laneAt (c.vn o.a) ws i))
    let m := amaxBlock vs
    if bitOf o.ex.i8 5 then
      let r := fMinMax 0 true (laneAt (c.vn o.d) 32 b) m.1
      (r.1, Nat.lor m.2 r.2)
    else m)
  vPut o.d 32 6 (rs.map (fun r => some r.1)) (orFlags (rs.map Prod.snd))

/-- VAMAX alone in its bundle. -/
def execVamax (gd : Guard) (v : VOp) (s : State) : Res :=
  runSole (.vamax gd v) (semVamax v) s

/-! ## Special functions, reductions, scans and match-and-reduce (R169 to R172) -/

def semVspec (o : VOp) (s : State) : SlotEff :=
  let c := s.me
  vMap o (c.kn o.k) (vW o) 12 (fun i => vspecF o.ex.fmt o.ex.rm (fld o.ex.i8 0 4) (laneAt (c.vn o.a) (vW o) i))

/-- VSPEC alone in its bundle. -/
def execVspec (gd : Guard) (v : VOp) (s : State) : Res :=
  runSole (.vspec gd v) (semVspec v) s

/-- An operation of the reductions on a lane type; float ADD rounds RNE. -/
def redOpOf (t : LaneTy) (op x y : Nat) : Nat × Nat :=
  match t with
  | .flt code => (match op with
    | 0 => fAdd code rne x y
    | 1 => fMinMax code false x y
    | _ => fMinMax code true x y)
  | t => (match op with
    | 0 => tyBits t false (tyInt t x + tyInt t y)
    | 1 => tyBits t false (min (tyInt t x) (tyInt t y))
    | 2 => tyBits t false (max (tyInt t x) (tyInt t y))
    | 3 => Nat.land x y
    | 4 => Nat.lor x y
    | _ => Nat.xor x y, 0)
/-- Its identity. -/
def redIdent (t : LaneTy) (op : Nat) : Nat :=
  match t with
  | .flt code => (match op with
    | 0 => 2 ^ (fmtWidth code - 1)
    | 1 => (encodeF code rne (.inf false)).1
    | _ => (encodeF code rne (.inf true)).1)
  | t => (match op with
    | 1 => tyBits t false (tyHi t)
    | 2 => tyBits t false (tyLo t)
    | 3 => 2 ^ tyWidth t - 1
    | _ => 0)

def semVred (o : VOp) (s : State) : SlotEff :=
  let c := s.me
  let t := vTy o
  let w := tyWidth t
  let n := vN o w
  let op := fld o.ex.i8 0 3
  let wide := bitOf o.ex.i8 5
  let t2 := if wide then .flt 0 else t
  let code := match t with | .flt k => k | _ => 0
  let ls := (upFrom 0 n).map (fun i =>
    if laneOn (c.kn o.k) w i then
      (if wide then fCvt code 0 rne (laneAt (c.vn o.a) w i) else (laneAt (c.vn o.a) w i, 0))
    else (redIdent t2 op, 0))
  let r := treeReduce (redOpOf t2 op) (Nat.log2 n) (ls.map Prod.fst)
  vPut o.d (tyWidth t2) 10 [some r.1] (Nat.lor r.2 (orFlags (ls.map Prod.snd)))

/-- VRED alone in its bundle. -/
def execVred (gd : Guard) (v : VOp) (s : State) : Res :=
  runSole (.vred gd v) (semVred v) s

/-- One level of the doubling tree of VSCAN: every lane reads the previous level (R171); an operation at a lane that on disables raises no
flag (R153). -/
def scanLevel (f : Nat → Nat → Nat × Nat) (on : Nat → Bool) (n d : Nat) (y : List Nat) (h : List Bool) : List Nat × List Bool × Nat :=
  let r := (upFrom 0 n).map (fun i =>
    if Nat.ble d i && !(nth h i false) then
      let v := f (nth y (i - d) 0) (nth y i 0)
      (v.1, nth h (i - d) false, if on i then v.2 else 0)
    else (nth y i 0, nth h i false, 0))
  (r.map (fun x => x.1), r.map (fun x => x.2.1), orFlags (r.map (fun x => x.2.2)))
/-- The levels of VSCAN at distances d, 2d, …, as many as k. -/
def scanLevels (f : Nat → Nat → Nat × Nat) (on : Nat → Bool) (n : Nat) : Nat → Nat → List Nat → List Bool → List Nat × Nat
  | 0, _, y, _ => (y, 0)
  | k + 1, d, y, h =>
    let r := scanLevel f on n d y h
    let u := scanLevels f on n k (2 * d) r.1 r.2.1
    (u.1, Nat.lor r.2.2 u.2)

def semVscan (o : VOp) (s : State) : SlotEff :=
  let c := s.me
  let t := vTy o
  let w := tyWidth t
  let n := vN o w
  let op := fld o.ex.i8 0 3
  let seg := bitOf o.ex.i8 4
  let on (i : Nat) : Bool := seg || laneOn (c.kn o.k) w i
  let y := (upFrom 0 n).map (fun i => if on i then laneAt (c.vn o.a) w i else redIdent t op)
  let h := (upFrom 0 n).map (fun i => seg && laneOn (c.kn o.k) w i)
  let r := scanLevels (redOpOf t op) on n (Nat.log2 n) 1 y h
  vPut o.d w 10 ((upFrom 0 n).map (fun i => if on i then some (nth r.1 i 0) else none)) r.2

/-- VSCAN alone in its bundle. -/
def execVscan (gd : Guard) (v : VOp) (s : State) : Res :=
  runSole (.vscan gd v) (semVscan v) s

/-- The values of one group combined in lane order (R58). -/
def foldGroup (f : Nat → Nat → Nat × Nat) : Nat → List Nat → Nat × Nat
  | acc, [] => (acc, 0)
  | acc, x :: t =>
    let r := f acc x
    let u := foldGroup f r.1 t
    (u.1, Nat.lor r.2 u.2)

def semVmatch (o : VOp) (s : State) : SlotEff :=
  let c := s.me
  let t := vTy o
  let w := tyWidth t
  let n := vN o w
  let op := fld o.ex.i8 0 3
  let on (i : Nat) : Bool := laneOn (c.kn o.k) w i
  let key (i : Nat) : Nat := laneAt (c.vn o.b) w i
  let val (i : Nat) : Nat := laneAt (c.vn o.a) w i
  let leads (i : Nat) : Bool := on i && !((upFrom 0 i).any (fun j => on j && key j == key i))
  let rs := (upFrom 0 n).map (fun i =>
    if leads i then
      some (foldGroup (redOpOf t op) (val i) (((upFrom (i + 1) (n - i - 1)).filter (fun j => on j && key j == key i)).map val))
    else none)
  let p := packLanes w (rs.map (Option.map Prod.fst))
  let m := packLanes (w / 8) (rs.map (fun r => some (if r.isSome then 2 ^ (w / 8) - 1 else 0)))
  onCore (fun c => ((c.put (.v o.d) p.1 (some p.2) 10).put (.k o.ex.c) m.1 (some m.2) 10).orFp
    (orFlags (rs.map (fun r => (r.getD (0, 0)).2))))

/-- VMATCH alone in its bundle. -/
def execVmatch (gd : Guard) (v : VOp) (s : State) : Res :=
  runSole (.vmatch gd v) (semVmatch v) s

/-! ## Mask instructions (R173) and IDLE (R74) -/

def semKlog (o : VOp) (s : State) : SlotEff :=
  let x := s.me.kn o.a
  let y := s.me.kn o.b
  kPut o.d (match fld o.ex.i8 0 2 with
    | 0 => Nat.land x y
    | 1 => Nat.lor x y
    | 2 => Nat.xor x y
    | _ => x - Nat.land x y) none 2

/-- KLOG alone in its bundle. -/
def execKlog (gd : Guard) (v : VOp) (s : State) : Res :=
  runSole (.klog gd v) (semKlog v) s

def semKmov (o : VOp) (s : State) : SlotEff :=
  let c := s.me
  match fld o.ex.i8 0 2 with
  | 0 => kPut o.d (c.kn o.a) none 2
  | 1 => kPut o.d (c.vn o.a % 2 ^ 128) none 2
  | 2 => vPut o.d 128 2 [some (c.kn o.a)] 0
  | _ =>
    let m := Nat.min (c.rg o.ex.g).toNat (1024 / (vW o))
    kPut o.d (2 ^ cdiv (m * (vW o)) 8 - 1) none 2

/-- KMOV alone in its bundle. -/
def execKmov (gd : Guard) (v : VOp) (s : State) : Res :=
  runSole (.kmov gd v) (semKmov v) s

def semIdle (_s : State) : SlotEff := {}

/-- IDLE alone in its bundle. -/
def execIdle (gd : Guard) (s : State) : Res :=
  runSole (.idle gd) (semIdle) s

end Sys2Proof.Machine
end

