-- ==== Sys2Proof/Machine/Memory.lean ====
section
/-! DEFINITION. The L-slot instructions: loads, stores, gathers and scatters, the read-only path, SLD, prefetch, acquire and release,
and frame access (R220 to R234). -/

namespace Sys2Proof.Machine

/-! ## Checks of an access (R226) -/

/-- The physical address of an access of n bytes at a, or its fault: ALIGN, then XLATE, then PERM. -/
def State.access (s : State) (a n acc : Nat) : Except FaultInfo Nat :=
  if a % n != 0 then .error ⟨fcAlign, 0, a⟩ else s.lsTarget s.cur s.me.csr.partid.toNat a acc

/-- A slot with an address: its fault, or what it does at the physical address. -/
def State.accessing (s : State) (a n acc : Nat) (f : Nat → SlotEff) : SlotEff :=
  match s.access a n acc with
  | .error e => { flt := some e }
  | .ok pa => f pa

/-- A load of n bytes at a for a register, sign-extended from sx bytes (R227). -/
def loadTo (s : State) (d : Dest) (a n sx : Nat) : SlotEff :=
  s.accessing a n accR (fun pa =>
    { wait := s.fillBusy s.cur s.me.csr.partid.toNat a pa n
      commit := fun s =>
        let r := s.loadAt s.cur s.me.csr.partid.toNat a pa n
        r.1.addLoad s.cur d r.2 sx none })

/-- Bytes stored at a, translated to pa, by the running core: tables of the cluster watch them (R227, R344). -/
def State.storeBytes (s : State) (a pa : Nat) (l : List Byte) : State :=
  let p := s.me.csr.partid.toNat
  (s.storeAt s.cur p a pa l).staleStore (clusterOf s.cur) p pa l.length

/-- A store of n bytes at a (R227). -/
def storeFrom (s : State) (a : Nat) (l : List Byte) : SlotEff :=
  s.accessing a l.length accW (fun pa =>
    { wait := s.fillBusy s.cur s.me.csr.partid.toNat a pa l.length, commit := fun s => s.storeBytes a pa l })

def loadG (t b d : Nat) (x : Option Nat) (n sx : Nat) (s : State) : SlotEff := loadTo s (s.me.dg t) (s.me.ea b d x n) n sx
def storeG (t b d : Nat) (x : Option Nat) (n : Nat) (s : State) : SlotEff :=
  storeFrom s (s.me.ea b d x n) (toBytes n (s.me.rg t).toNat)

/-! ## Scalar and vector loads and stores (R227, R228) -/

def semLdB (t b d : Nat) (x : Option Nat) (s : State) : SlotEff := loadG t b d x 1 0 s

/-- LD_B alone in its bundle. -/
def execLdB (gd : Guard) (t b d : Nat) (x : Option Nat) (s : State) : Res :=
  runSole (.ldB gd t b d x) (semLdB t b d x) s

def semLdBs (t b d : Nat) (x : Option Nat) (s : State) : SlotEff := loadG t b d x 1 1 s

/-- LD_BS alone in its bundle. -/
def execLdBs (gd : Guard) (t b d : Nat) (x : Option Nat) (s : State) : Res :=
  runSole (.ldBs gd t b d x) (semLdBs t b d x) s

def semLdH (t b d : Nat) (x : Option Nat) (s : State) : SlotEff := loadG t b d x 2 0 s

/-- LD_H alone in its bundle. -/
def execLdH (gd : Guard) (t b d : Nat) (x : Option Nat) (s : State) : Res :=
  runSole (.ldH gd t b d x) (semLdH t b d x) s

def semLdHs (t b d : Nat) (x : Option Nat) (s : State) : SlotEff := loadG t b d x 2 2 s

/-- LD_HS alone in its bundle. -/
def execLdHs (gd : Guard) (t b d : Nat) (x : Option Nat) (s : State) : Res :=
  runSole (.ldHs gd t b d x) (semLdHs t b d x) s

def semLdW (t b d : Nat) (x : Option Nat) (s : State) : SlotEff := loadG t b d x 4 0 s

/-- LD_W alone in its bundle. -/
def execLdW (gd : Guard) (t b d : Nat) (x : Option Nat) (s : State) : Res :=
  runSole (.ldW gd t b d x) (semLdW t b d x) s

def semLdWs (t b d : Nat) (x : Option Nat) (s : State) : SlotEff := loadG t b d x 4 4 s

/-- LD_WS alone in its bundle. -/
def execLdWs (gd : Guard) (t b d : Nat) (x : Option Nat) (s : State) : Res :=
  runSole (.ldWs gd t b d x) (semLdWs t b d x) s

def semLdD (t b d : Nat) (x : Option Nat) (s : State) : SlotEff := loadG t b d x 8 0 s

/-- LD_D alone in its bundle. -/
def execLdD (gd : Guard) (t b d : Nat) (x : Option Nat) (s : State) : Res :=
  runSole (.ldD gd t b d x) (semLdD t b d x) s

def semStB (t b d : Nat) (x : Option Nat) (s : State) : SlotEff := storeG t b d x 1 s

/-- ST_B alone in its bundle. -/
def execStB (gd : Guard) (t b d : Nat) (x : Option Nat) (s : State) : Res :=
  runSole (.stB gd t b d x) (semStB t b d x) s

def semStH (t b d : Nat) (x : Option Nat) (s : State) : SlotEff := storeG t b d x 2 s

/-- ST_H alone in its bundle. -/
def execStH (gd : Guard) (t b d : Nat) (x : Option Nat) (s : State) : Res :=
  runSole (.stH gd t b d x) (semStH t b d x) s

def semStW (t b d : Nat) (x : Option Nat) (s : State) : SlotEff := storeG t b d x 4 s

/-- ST_W alone in its bundle. -/
def execStW (gd : Guard) (t b d : Nat) (x : Option Nat) (s : State) : Res :=
  runSole (.stW gd t b d x) (semStW t b d x) s

def semStD (t b d : Nat) (x : Option Nat) (s : State) : SlotEff := storeG t b d x 8 s

/-- ST_D alone in its bundle. -/
def execStD (gd : Guard) (t b d : Nat) (x : Option Nat) (s : State) : Res :=
  runSole (.stD gd t b d x) (semStD t b d x) s

def semLdv (t b d : Nat) (x : Option Nat) (s : State) : SlotEff := loadTo s (.v t) (s.me.ea b d x 128) 128 0

/-- LDV alone in its bundle. -/
def execLdv (gd : Guard) (t b d : Nat) (x : Option Nat) (s : State) : Res :=
  runSole (.ldv gd t b d x) (semLdv t b d x) s

def semStv (t b d : Nat) (x : Option Nat) (s : State) : SlotEff :=
  storeFrom s (s.me.ea b d x 128) (toBytes 128 (s.me.rv t).toNat)

/-- STV alone in its bundle. -/
def execStv (gd : Guard) (t b d : Nat) (x : Option Nat) (s : State) : Res :=
  runSole (.stv gd t b d x) (semStv t b d x) s

/-! ## Gather and scatter (R229) -/

/-- The enabled lanes of an access by lane: lane number and address. -/
def lanesOf (c : Core) (b vx k es sc : Nat) : List (Nat × Nat) :=
  let n := 2 ^ es
  let w := 8 * n
  ((upFrom 0 (128 / n)).filter (fun i => laneOn (c.kn k) w i)).map (fun i =>
    (i, wrap64 (((c.rg b).toNat : Int) + sext (laneAt (c.vn vx) w i) w * ((if sc == 1 then n else 1 : Nat) : Int))))

/-- The fault of the lowest lane among those that fault at the earliest check: ALIGN, XLATE, PERM. -/
def laneFault (s : State) (n acc : Nat) (l : List (Nat × Nat)) : Option FaultInfo :=
  let fs := l.filterMap (fun x => match s.access x.2 n acc with | .error e => some e | .ok _ => none)
  ((fs.find? (fun e => e.code == fcAlign)).or (fs.find? (fun e => e.code == fcXlate))).or fs.head?

/-- A lane of an access has to wait for its line. -/
def lanesBusy (s : State) (n acc : Nat) (l : List (Nat × Nat)) : Bool :=
  l.any (fun x => match s.access x.2 n acc with
    | .ok pa => s.fillBusy s.cur s.me.csr.partid.toNat x.2 pa n
    | .error _ => false)

/-- The sources of a gather's lanes, with zeros for disabled lanes. -/
def gathLanes (s : State) (n : Nat) : List Nat → List (Nat × Nat) → State × List LSrc
  | [], _ => (s, [])
  | i :: t, l =>
    match l.find? (fun x => x.1 == i) with
    | none =>
      let r := gathLanes s n t l
      (r.1, List.replicate n (.known 0) ++ r.2)
    | some x =>
      match s.access x.2 n accR with
      | .error _ => gathLanes s n t l
      | .ok pa =>
        let q := s.loadAt s.cur s.me.csr.partid.toNat x.2 pa n
        let r := gathLanes q.1 n t l
        (r.1, q.2 ++ r.2)

def semGath (t b vx k es sc : Nat) (s : State) : SlotEff :=
  let n := 2 ^ es
  let l := lanesOf s.me b vx k es sc
  match laneFault s n accR l with
  | some e => { flt := some e }
  | none =>
    { wait := lanesBusy s n accR l
      commit := fun s =>
        let r := gathLanes s n (upFrom 0 (128 / n)) l
        r.1.addLoad s.cur (.v t) r.2 0 (some (l.foldl (fun m x => m + (2 ^ (8 * n) - 1) * 2 ^ (8 * n * x.1)) 0)) }

/-- GATH alone in its bundle. -/
def execGath (gd : Guard) (t b vx k es sc : Nat) (s : State) : Res :=
  runSole (.gath gd t b vx k es sc) (semGath t b vx k es sc) s

def semScat (t b vx k es sc : Nat) (s : State) : SlotEff :=
  let n := 2 ^ es
  let v := s.me.vn t
  let l := lanesOf s.me b vx k es sc
  match laneFault s n accW l with
  | some e => { flt := some e }
  | none =>
    { wait := lanesBusy s n accW l
      commit := fun s => l.foldl (fun s x =>
        match s.access x.2 n accW with
        | .ok pa => s.storeBytes x.2 pa (toBytes n (laneAt v (8 * n) x.1))
        | .error _ => s) s }

/-- SCAT alone in its bundle. -/
def execScat (gd : Guard) (t b vx k es sc : Nat) (s : State) : Res :=
  runSole (.scat gd t b vx k es sc) (semScat t b vx k es sc) s

/-! ## The read-only path (R230) -/

def semLdx (t b d : Nat) (x : Option Nat) (s : State) : SlotEff :=
  let a := s.me.ea b d x 8
  s.accessing a 8 accR (fun pa =>
    { wait := paKind pa == .localHbm && s.lineBusy s.cur pa
      commit := fun s =>
        let r := s.loadX s.cur s.me.csr.partid.toNat a pa 8
        r.1.addLoad s.cur (s.me.dg t) r.2 0 none })

/-- LDX alone in its bundle. -/
def execLdx (gd : Guard) (t b d : Nat) (x : Option Nat) (s : State) : Res :=
  runSole (.ldx gd t b d x) (semLdx t b d x) s

def semLdxinv (b d : Nat) (x : Option Nat) (s : State) : SlotEff :=
  match s.lineOfGva s.cur s.me.csr.partid.toNat (s.me.ea b d x 64) with
  | none => {}
  | some pa => onCore (fun c => match c.findLine pa with
      | some w => if (c.line w).st == .ro then c.dropLine w else c
      | none => c)

/-- LDXINV alone in its bundle. -/
def execLdxinv (gd : Guard) (b d : Nat) (x : Option Nat) (s : State) : Res :=
  runSole (.ldxinv gd b d x) (semLdxinv b d x) s

def semLdxinvAll (_s : State) : SlotEff := { commit := fun s => s.dropLines s.cur (fun l => l.st == .ro) }

/-- LDXINV_ALL alone in its bundle. -/
def execLdxinvAll (gd : Guard) (s : State) : Res :=
  runSole (.ldxinvAll gd) (semLdxinvAll) s

/-! ## Scale registers and prefetch (R231, R232) -/

/-- SLD lands at step s + 6 (R80); of e[t] it writes X0 and X1. -/
def semSld (t b d : Nat) (x : Option Nat) (s : State) : SlotEff :=
  let n := if isDxF (fld (s.me.re t).toNat 16 4) then 2 else 1
  let a := s.me.ea b d x n
  s.accessing a n accR (fun pa =>
    { wait := s.readBusy s.cur pa n
      commit := fun s =>
        let r := s.loadAt s.cur s.me.csr.partid.toNat a pa n
        let l : PLoad := ⟨.e t, r.2, 0, some 0xFFFF, s.me.nextSeq, true, false⟩
        r.1.updMe (fun c => c.put (.e t) (r.1.loadVal r.1.cur l) (some 0xFFFF) 6) })

/-- SLD alone in its bundle. -/
def execSld (gd : Guard) (t b d : Nat) (x : Option Nat) (s : State) : Res :=
  runSole (.sld gd t b d x) (semSld t b d x) s

/-- A region line comes into L0 as CLEAN; any other prefetch fills the LLC alone, which no access sees. A prefetch of a line that an access
of the core has still to reach does nothing, as a hint may. -/
def semPref (b d : Nat) (x : Option Nat) (s : State) : SlotEff :=
  let a := s.me.ea b d x 64
  let p := s.me.csr.partid.toNat
  match s.xlate s.cur p a accR with
  | .error _ => {}
  | .ok r =>
    if paKind r.pa == .localHbm && (s.regionOf p a).isSome then
      { commit := fun s => match s.me.findLine r.pa with
          | some w => s.updMe (fun c => c.touchLine w)
          | none => if s.lineBusy s.cur r.pa then s else s.fillLine s.cur r.pa .clean }
    else {}

/-- PREF alone in its bundle. -/
def execPref (gd : Guard) (b d : Nat) (x : Option Nat) (s : State) : Res :=
  runSole (.pref gd b d x) (semPref b d x) s

def semPrefLlc (_b _d : Nat) (_x : Option Nat) (_s : State) : SlotEff := {}

/-- PREF_LLC alone in its bundle. -/
def execPrefLlc (gd : Guard) (b d : Nat) (x : Option Nat) (s : State) : Res :=
  runSole (.prefLlc gd b d x) (semPrefLlc b d x) s

/-! ## Acquire and release (R233) -/

/-- The access of a synchronisation word, whose address must be the RSYNC of a valid entry (R362). -/
def State.syncWord (s : State) (a acc : Nat) (f : Nat → SlotEff) : SlotEff :=
  s.accessing a 8 acc (fun pa =>
    if (s.regionWord s.me.csr.partid.toNat a).isSome then f pa else faults fcPerm 4 a)

def semAcq (t b d : Nat) (x : Option Nat) (s : State) : SlotEff :=
  let a := s.me.ea b d x 8
  s.syncWord a accR (fun pa =>
    { commit := fun s =>
        let c := s.me
        (s.updMe (fun c =>
          let c := c.cancel (c.dg t)
          { c with loads := c.loads ++ [⟨c.dg t, [], 0, none, c.nextSeq, false, true⟩], nextSeq := c.nextSeq + 1 })).send
          (.acq s.cur c.csr.partid.toNat a pa) })

/-- ACQ alone in its bundle. -/
def execAcq (gd : Guard) (t b d : Nat) (x : Option Nat) (s : State) : Res :=
  runSole (.acq gd t b d x) (semAcq t b d x) s

/-- A load that reads memory, not an L0 line. -/
def PLoad.outside (l : PLoad) : Bool := l.src.any (fun x => match x with | .known _ => false | .mem _ _ => true) || !l.ready

def semRel (t b d : Nat) (x : Option Nat) (s : State) : SlotEff :=
  let a := s.me.ea b d x 8
  let v := (s.me.rg t).toNat
  s.syncWord a accW (fun pa =>
    { wait := !s.deviceDone s.cur || s.me.loads.any PLoad.outside
      commit := fun s => s.send (.rel s.cur s.me.csr.partid.toNat a pa v) })

/-- REL alone in its bundle. -/
def execRel (gd : Guard) (t b d : Nat) (x : Option Nat) (s : State) : Res :=
  runSole (.rel gd t b d x) (semRel t b d x) s

/-! ## Frame access (R234) -/

/-- A window of a frame: a row form's byte offset, or a column form's first row, element and lane width. -/
inductive Window
  | row (off : Nat)
  | col (r0 j w : Nat)
  deriving DecidableEq, Repr

/-- The checks of TRD and TWR, and the window. -/
def tileWindow (d : Desc) (t : Tile) (disp : Int) (write : Bool) : Except FaultInfo Window :=
  let e (code cause : Nat) : Except FaultInfo Window := .error ⟨code, cause, t.q⟩
  if !d.v then e fcDescInvalid 1
  else if d.outside t then e fcIndex 1
  else if write && !d.we then e fcPerm 3
  else if disp < 0 || 32768 ≤ disp then e fcIndex 2
  else
    let n := disp.toNat
    if Nat.blt n 16384 then (if n % 128 == 0 then .ok (.row n) else e fcAlign 0)
    else if d.wsel != 0 then e fcFormat 6
    else if d.fmt == 9 then e fcFormat 1
    else
      let w := d.elW
      let r0 := fld n 11 3 * (1024 / w)
      let j := fld n 0 11
      if Nat.ble d.e j || Nat.ble d.r r0 then e fcIndex 2 else .ok (.col r0 j w)

/-- The 1,024 bits a window reads. -/
def Window.read (wd : Window) (d : Desc) (m : SMap Byte) : Nat :=
  match wd with
  | .row off => ofBytes (mgetBytes m off 128)
  | .col r0 j w => (upFrom 0 (1024 / w)).foldl (fun v k =>
      v + (if Nat.blt (r0 + k) d.r then frameBits m (d.elPos (r0 + k) j) w else 0) * 2 ^ (w * k)) 0

/-- A window written. -/
def Window.write (wd : Window) (d : Desc) (m : SMap Byte) (v : Nat) : SMap Byte :=
  match wd with
  | .row off => msetBytes m off (toBytes 128 v)
  | .col r0 j w => (upFrom 0 (1024 / w)).foldl (fun m k =>
      if Nat.blt (r0 + k) d.r then setFrameBits m (d.elPos (r0 + k) j) w (fld v (w * k) w) else m) m

/-- The rows and elements a window covers, as first row, rows, first element, elements (R344). -/
def Window.rect (wd : Window) (d : Desc) : Nat × Nat × Nat × Nat :=
  match wd with
  | .row off =>
    let r0 := off / d.rowB
    if Nat.blt d.rowB 128 then (r0, 128 / d.rowB, 0, d.e) else (r0, 1, off % d.rowB * 8 / d.elW, 1024 / d.elW)
  | .col r0 j w => (r0, 1024 / w, j, 1)

/-- The bits of a frame that a write of a window changes, an FP32 tile's record among them (R339). -/
def Window.bits (wd : Window) (d : Desc) : List (Nat × Nat) :=
  (match wd with
    | .row off => [(8 * off, 1024)]
    | .col r0 j w => ((upFrom 0 (1024 / w)).filter (fun k => Nat.blt (r0 + k) d.r)).map (fun k => (d.elPos (r0 + k) j, w))) ++
    (if d.fmt == 0 && d.wsel == 0 then [(131072, 128)] else [])
/-- PERM of a TWR whose window covers bytes of a page that denies W (R357). -/
def windowDenied (s : State) (d : Desc) (t : Tile) (wd : Window) : Bool :=
  let bits := wd.bits d
  (d.tileBytes t).any (fun b => b.back && bits.any (fun w => Nat.blt w.1 (8 * b.off + 8) && Nat.blt (8 * b.off) (w.1 + w.2)) &&
    (match s.xlate (1024 + clusterOf s.cur) t.part b.gva accW with
      | .error e => e.code == fcPerm
      | .ok _ => false))

/-- TRD or TWR: the checks, a fault of the fill path, the wait for the frame and grant, and the effect on commit. -/
def frameAccess (s : State) (b d : Nat) (x : Option Nat) (write : Bool) (f : Desc → Tile → Window → State → State) : SlotEff :=
  let t := tileOf s.me.csr.partid.toNat (s.me.rg b).toNat
  let ds := s.desc t.part t.tid
  match tileWindow ds t (dispL d x 128) write with
  | .error e => { flt := some e }
  | .ok wd =>
    let need : Need := ⟨t, write, false⟩
    let cl := clusterOf s.cur
    match (if s.me.tcWait == some t then s.me.tcFlt else none) with
    | some e => { flt := some { e with addr := t.q } }
    | none =>
      if write && windowDenied s ds t wd then faults fcPerm 1 t.q
      else
      { wait := !s.have cl need
        prep := fun s => (s.pursue cl need).updMe (fun c => { c with tcWait := some t })
        commit := fun s => f ds t wd (s.updMe (fun c => { c with tcWait := none, tcFlt := none })) }

def semTrd (t b d : Nat) (x : Option Nat) (s : State) : SlotEff :=
  frameAccess s b d x false (fun ds tl wd s =>
    let torn := s.beingWritten (clusterOf s.cur) tl 768 0
    let m := torn.foldl (fun m w => tearBits m w.1 w.2 (s.freeCtr + w.1)) (s.frameData (clusterOf s.cur) tl)
    (s.addLoad s.cur (.v t) ((toBytes 128 (wd.read ds m)).map .known) 0 none).draw (if torn.isEmpty then 0 else 139264))

/-- TRD alone in its bundle. -/
def execTrd (gd : Guard) (t b d : Nat) (x : Option Nat) (s : State) : Res :=
  runSole (.trd gd t b d x) (semTrd t b d x) s

/-- A TWR's write of a window into the frame of its tile: tables and running commands see it (R177, R344). -/
def State.writeWindow (s : State) (cl : Nat) (ds : Desc) (tl : Tile) (wd : Window) (v : Nat) : State :=
  match s.hit cl tl with
  | none => s
  | some k =>
    let s := (s.putFrame cl tl (clearRecord ds (wd.write ds (s.frame cl k).data v)) (wd.bits ds)).markTorn cl tl (wd.bits ds) 768 0
    let r := wd.rect ds
    s.staleRect cl tl r.1 r.2.1 r.2.2.1 r.2.2.2

def semTwr (t b d : Nat) (x : Option Nat) (s : State) : SlotEff :=
  let v := (s.me.rv t).toNat
  frameAccess s b d x true (fun ds tl wd s => s.writeWindow (clusterOf s.cur) ds tl wd v)

/-- TWR alone in its bundle. -/
def execTwr (gd : Guard) (t b d : Nat) (x : Option Nat) (s : State) : Res :=
  runSole (.twr gd t b d x) (semTwr t b d x) s

/-- IDLE of the L slot has no effect; as a present slot it becomes the slot's sticky record (R72, R74). -/
def semIdleL (_s : State) : SlotEff := {}

/-- IDLE_L alone in its bundle. -/
def execIdleL (gd : Guard) (s : State) : Res :=
  runSole (.idleL gd) (semIdleL) s

end Sys2Proof.Machine
end

