-- ==== Sys2Proof/Machine/Atomics.lean ====
section
/-! DEFINITION. AMO and CAS (R267, R268), their performance at the LLC slice and its write queue (R269, R270), atomics to host memory
(R271), and the arrival of loads and performance of stores (R80, R235, R236). -/

namespace Sys2Proof.Machine

/-- The new value of an atomic of n bytes (R267): opc 0 to 11 of AMO, 16 CAS with its compare value. -/
def amoNew (opc n old x cmp : Nat) : Nat :=
  let w := 8 * n
  let f := if n == 8 then 14 else 0
  match opc with
  | 0 => (old + x) % 2 ^ w
  | 1 => Nat.land old x
  | 2 => Nat.lor old x
  | 3 => Nat.xor old x
  | 4 => if sext x w < sext old w then x else old
  | 5 => if sext old w < sext x w then x else old
  | 6 => Nat.min old x
  | 7 => Nat.max old x
  | 8 => x
  | 9 => (fAdd f rne old x).1
  | 10 => (fMinMax f false old x).1
  | 11 => (fMinMax f true old x).1
  | _ => if old == cmp then x else old

/-- The destinations of a returning atomic: one register, or the pair of a 128-bit CAS. -/
def amoDests (c : Core) (t n : Nat) : List Dest := if n == 16 then [c.dg t, c.dg (t + 1)] else [c.dg t]

/-- An operand of n bytes from a register or an even pair. -/
def amoArg (c : Core) (r n : Nat) : Nat :=
  if n == 16 then (c.rg r).toNat + 2 ^ 64 * (c.rg (r + 1)).toNat else (c.rg r).toNat % 2 ^ (8 * n)

/-- The line holding pa leaves the core's L0 (R268). -/
def State.evictLine (s : State) (k pa : Nat) : State :=
  match (s.core k).findLine pa with
  | none => s
  | some w => (s.writeBackLine k w).updCore k (fun c => c.dropLine w)

/-- A local atomic at gva leaves the core; one that returns a value marks its destinations pending. -/
def State.amoOut (s : State) (pa gva n opc x cmp : Nat) (dests : List Dest) : State :=
  (s.evictLine s.cur pa).updMe (fun c =>
    let c := dests.foldl Core.cancel c
    { c with loads := c.loads ++ dests.map (fun d => ⟨d, [], 0, none, c.nextSeq, false, false⟩),
             mq := c.mq ++ [MemOp.amo c.nextSeq pa gva n opc x cmp (!dests.isEmpty) c.csr.partid.toNat], nextSeq := c.nextSeq + 1 })

/-- The old value of a host atomic reaches its destinations (R271); R80 does not apply. -/
def Core.hostResult (c : Core) (dests : List Dest) (old : Nat) : Core :=
  let r := dests.foldl (fun (x : Core × Nat) d => (x.1.put d (x.2 % 2 ^ 64) none 1, x.2 / 2 ^ 64)) (c, old)
  { r.1 with hostAt := .none }

/-- An atomic of n bytes at a: its checks, then the local form or the host form. The host form is asked for when nothing else keeps the
bundle from committing, so that it comes after a fence of the bundle (R146) and before no delivery (R144, R271). -/
def atomic (s : State) (a n opc x cmp : Nat) (dests : List Dest) : SlotEff :=
  match s.me.hostAt with
  | .done old => onCore (fun c => c.hostResult dests old)
  | .failed => faults fcHostAtomic 1 a
  | .asked _ _ _ _ _ => { ask := some id }
  | .none =>
    s.accessing a n (accR + accW) (fun pa =>
      match paKind pa with
      | .host =>
        if !Config.hostAtomics then faults fcHostAtomic 2 a
        else { ask := some (fun s => s.updMe (fun c => { c with hostAt := .asked pa n opc x cmp })) }
      | _ => { commit := fun s => s.amoOut pa a n opc x cmp dests })

def semAmo (t b d opc sz r : Nat) (s : State) : SlotEff :=
  let n := if sz == 1 then 8 else 4
  atomic s (s.me.ea b d none n) n opc (amoArg s.me r n) 0 (if t == 0 then [] else amoDests s.me t n)

/-- AMO alone in its bundle. -/
def execAmo (gd : Guard) (t b d opc sz s0 : Nat) (s : State) : Res :=
  runSole (.amo gd t b d opc sz s0) (semAmo t b d opc sz s0) s

def semCas (t b d sz r c : Nat) (s : State) : SlotEff :=
  let n := 4 * 2 ^ sz
  atomic s (s.me.ea b d none n) n 16 (amoArg s.me r n) (amoArg s.me c n) (amoDests s.me t n)

/-- CAS alone in its bundle. -/
def execCas (gd : Guard) (t b d sz s0 c : Nat) (s : State) : Res :=
  runSole (.cas gd t b d sz s0 c) (semCas t b d sz s0 c) s

/-! ## At the slice (R269, R270) -/

/-- Open entries of a partition on the channel of pa. -/
def State.wqHeld (s : State) (part pa : Nat) : List (Nat × Nat) :=
  s.wq.filter (fun e => e.2 == part && channelOf (e.1 * 64) == channelOf pa)
/-- SHARE of a partition on a channel (R364). -/
def Part.share (p : Part) (ch : Nat) : Nat := p.fld (0x100 + 4 * ch + 1) 1

/-- A reduction of pa would open an entry, and the partition's share is full: its injection waits (R270). -/
def State.shareFull (s : State) (part pa : Nat) : Bool :=
  !s.wq.any (fun e => e.1 == pa / 64) && Nat.ble ((s.part part).share (channelOf pa)) (s.wqHeld part pa).length
/-- The slice applies the partition's oldest entry of the channel (log entry 47). -/
def State.applyOldest (s : State) (part pa : Nat) : State :=
  match s.wqHeld part pa with
  | [] => s
  | e :: _ => { s with wq := s.wq.filter (fun x => x != e) }
/-- A reduction joins its line's open entry or opens one, once the partition's share has room. -/
def State.joinLine (s : State) (part pa : Nat) : State :=
  if s.wq.any (fun e => e.1 == pa / 64) then s.countEv (unitChannel (channelOf pa)) 0x42 part 1
  else
    let s := if s.shareFull part pa then s.applyOldest part pa else s
    { s with wq := s.wq ++ [(pa / 64, part)] }

/-- An atomic is applied at its slice, indivisibly (R267): the old value, and the state after. A returning one is an ordering point. -/
def State.applyAmo (s : State) (part pa n opc x cmp : Nat) (ret : Bool) : State × Nat :=
  let s := if ret then s.closeLine pa else s.joinLine part pa
  let old := s.rdMem pa n
  (s.wrMem pa n (amoNew opc n old x cmp), old)

/-- The loads of number seq get the bytes of old, the first the low ones. -/
def fillLoads (seq n old : Nat) : List PLoad → List PLoad
  | [] => []
  | l :: t =>
    if l.seq == seq then { l with src := (toBytes (Nat.min n 8) old).map .known, ready := true } :: fillLoads seq (n - 8) (old / 2 ^ 64) t
    else l :: fillLoads seq n old t

/-- AMO_AT_SLICE: entry n of the core's memory port, an atomic that may be performed, is applied; a reduction that finds the partition's share
full waits while the slice applies an entry (R270). -/
def atSlice (k n : Nat) (s : State) : State :=
  let c := s.core k
  match c.mq.drop n with
  | .amo seq pa gva len opc x cmp ret own :: _ =>
    let o := MemOp.amo seq pa gva len opc x cmp ret own
    let part := own % 256
    if s.mayPerform k o && !s.behind (clusterOf k) none o && s.mayInject part pa then
      if !ret && s.shareFull part pa && !(s.wqHeld part pa).isEmpty then s.applyOldest part pa
      else
      let r := (s.served part pa len).applyAmo part pa len opc x cmp ret
      r.1.updCore k (fun c => { c with mq := dropNth c.mq n, loads := if ret then fillLoads seq len r.2 c.loads else c.loads })
    else s
  | _ => s
def execAmoAtSlice (core n : Nat) (s : State) : Res := .next (atSlice core n s)

/-- Entry n of core k's port becomes o. -/
def State.setOp (s : State) (k n : Nat) (o : MemOp) : State := s.updCore k (fun c => { c with mq := modNth c.mq n (fun _ => o) })
/-- Entry n of core k's port has been applied. -/
def State.dropOp (s : State) (k n : Nat) : State := s.updCore k (fun c => { c with mq := dropNth c.mq n })
/-- The host port accepted a store to bytes of o before number m. -/
def State.hostBehind (s : State) (m : Nat) (o : MemOp) : Bool :=
  s.cores.any (fun e => e.2.mq.any (fun x => match x.atHost with | some y => Nat.blt y m && o.overlaps x.covers | none => false))

/-- STORE_PERFORMED: entry n of the core's memory port, a store, comes to the next point of R235 when every access before it to its bytes
has: the port of its cluster, which forwards it from then on; for host memory the host port; and its point of coherence. -/
def storePerformed (k n : Nat) (s : State) : State :=
  let c := s.core k
  let part := c.csr.partid.toNat
  match c.mq.drop n with
  | .store seq pa gva l at_ :: _ =>
    let o := MemOp.store seq pa gva l at_
    let stamp (at_ : PortAt) : State := { s.setOp k n (.store seq pa gva l at_) with clock := s.clock + 1 }
    match at_ with
    | .core => if s.mayPerform k o then stamp (.cluster s.clock) else s
    | .cluster i =>
      if s.behind (clusterOf k) (some i) o || !s.mayInject part pa then s
      else if paKind pa == .host then { (s.served part pa l.length).setOp k n (.store seq pa gva l (.host i s.clock)) with clock := s.clock + 1 }
      else ((s.served part pa l.length).applyBytes pa l).dropOp k n
    | .host _ m => if s.hostBehind m o then s else (s.applyBytes pa l).dropOp k n
  | _ => s
def execStorePerformed (core n : Nat) (s : State) : Res := .next (storePerformed core n s)

/-- LOAD_DATA_ARRIVAL: pending load n of the core, if its data may return, lands. A load is an ordering point of its lines (R269). -/
def loadArrives (k n : Nat) (s : State) : State :=
  let c := s.core k
  match c.loads.drop n with
  | l :: _ =>
    let p := c.csr.partid.toNat
    if s.mayReturn k l && l.src.all (fun x => match x with | .mem a _ => s.mayInject p a | .known _ => true) then
      let as := l.addrs.map Prod.fst
      ((as.foldl (fun s a => s.closeLine a) s).servedAll p as).arrive k n
    else s
  | [] => s
def execLoadDataArrival (core n : Nat) (s : State) : Res := .next (loadArrives core n s)

/-! ## Host atomics (R271) -/

/-- HOST_ATOMIC_COMPLETION: the operation that the core's bundle stalls on is done in host memory, after the core's earlier accesses to
its bytes and the stores that the ports have accepted (R236). -/
def hostDone (k : Nat) (s : State) : State :=
  let c := s.core k
  match c.hostAt with
  | .asked pa n opc x cmp =>
    let o := MemOp.amo c.nextSeq pa 0 n opc x cmp true 0
    if s.mayPerform k o && !s.behind (clusterOf k) none o && !s.hostBehind s.clock o && s.mayInject c.csr.partid.toNat pa then
      let old := s.rdMem pa n
      ((s.served c.csr.partid.toNat pa n).wrMem pa n (amoNew opc n old x cmp)).updCore k (fun c => { c with hostAt := .done old })
    else s
  | _ => s
def execHostAtomicCompletion (core : Nat) (s : State) : Res := .next (hostDone core s)

/-- HOST_ATOMIC_EXHAUSTED: an emulated operation has used its 1,024 attempts; host memory is unchanged. -/
def hostGivesUp (k : Nat) (s : State) : State :=
  match (s.core k).hostAt with
  | .asked _ _ opc _ _ => if opc == 0 || opc == 8 || opc == 16 then s else s.updCore k (fun c => { c with hostAt := .failed })
  | _ => s
def execHostAtomicExhausted (core : Nat) (s : State) : Res := .next (hostGivesUp core s)

/-! ## Regions at their homes (R233, R239, R246) -/

/-- The release record of a word: 0x3FF is none. -/
def recKey (part word : Nat) : Nat := part * 2 ^ 64 + word
def State.recOf (s : State) (part word : Nat) : Nat := mget s.recs (recKey part word) 0x3FF
def State.setRec (s : State) (part word v : Nat) : State := { s with recs := mset s.recs (recKey part word) v 0x3FF }

/-- A drain of the word's region is ordered and not complete. -/
def State.drainOpen (s : State) (part word : Nat) : Bool :=
  s.msgs.any (fun m => match m with
    | .drainOrder _ p w => p == part && w == word
    | .drainDone _ p w => p == part && w == word
    | _ => false)

/-- REL_AT_HOME, a core's own in their order: an earlier releaser's drain is ordered, the value is written, REC names this core. -/
def relHome (n : Nat) (s : State) : State :=
  match s.msg n with
  | some (.rel k p w pa v) =>
    if s.before n (fun m => match m with | .rel k' p' w' _ _ => k' == k && p' == p && w' == w | _ => false) ||
        s.hostBehind s.clock (.amo 0 pa 0 8 0 0 0 true 0) || !s.mayInject p pa then s
    else
      let r := s.recOf p w
      let s := s.dropMsg n
      let s := if r != 0x3FF && r != k then s.send (.drainOrder r p w) else s
      (((s.closeLine pa).served p pa 8).wrMem pa 8 v).setRec p w k
  | _ => s
def execRelAtHome (n : Nat) (s : State) : Res := .next (relHome n s)

/-- An ACQ of core k may read its word: every earlier access of the core to its bytes has been performed (R236), and what the cluster's port
forwards has been applied (R235). -/
def State.acqMayRead (s : State) (k pa : Nat) : Bool :=
  let c := s.core k
  let o (n : Nat) : MemOp := .amo n pa 0 8 0 0 0 true 0
  (match c.loads.find? (fun l => l.acq) with
    | some l => c.mayPerform (o l.seq) && !c.mq.any (fun x => Nat.blt x.seq l.seq && (o l.seq).overlaps x.covers)
    | none => true) && !s.behind (clusterOf k) none (o 0)

/-- ACQ_AT_HOME: with no drain of the region open, another core's REC is drained first; otherwise the home replies. -/
def acqHome (n : Nat) (s : State) : State :=
  match s.msg n with
  | some (.acq k p w pa) =>
    if s.drainOpen p w || s.before n (fun m => match m with | .rel k' p' w' _ _ => k' == k && p' == p && w' == w | _ => false) || !s.acqMayRead k pa || !s.mayInject p pa then s
    else
      let r := s.recOf p w
      if r != 0x3FF && r != k then (s.setRec p w 0x3FF).send (.drainOrder r p w)
      else (((s.dropMsg n).closeLine pa).served p pa 8).send (.acqReply k p w (s.rdMem pa 8))
  | _ => s
def execAcqAtHome (n : Nat) (s : State) : Res := .next (acqHome n s)

/-- The lines of the region whose word is given, in a core's L0, that f picks. -/
def State.regionLine (s : State) (k part word : Nat) (l : L0Line) : Bool :=
  match s.regionWord part word with
  | none => false
  | some r => s.lineInRegion k part r l.tag

/-- REGION_DRAIN: the ordered core writes back every DIRTY line of the region. -/
def regionDrain (n : Nat) (s : State) : State :=
  match s.msg n with
  | some (.drainOrder k p w) =>
    ((s.eachLine k (fun l => l.st == .dirty && s.regionLine k p w l) (fun s x => s.writeBackLine k x)).dropMsg n).send (.drainDone k p w)
  | _ => s
def execRegionDrain (n : Nat) (s : State) : Res := .next (regionDrain n s)

/-- REGION_DRAIN_COMPLETE: the home hears that the drain is complete. -/
def regionDrainDone (n : Nat) (s : State) : State :=
  match s.msg n with
  | some (.drainDone _ _ _) => s.dropMsg n
  | _ => s
def execRegionDrainComplete (n : Nat) (s : State) : Res := .next (regionDrainDone n s)

/-- ACQ_REPLY: the core's CLEAN lines of the region and RO lines of its range become INVALID, and the value lands (R233). -/
def acqReply (n : Nat) (s : State) : State :=
  match s.msg n with
  | some (.acqReply k p w v) =>
    let s1 := s.dropLines k (fun l => (l.st == .clean || l.st == .ro) && s.regionLine k p w l)
    (s1.dropMsg n).updCore k (fun c =>
      { (c.loads.filter (fun l => l.acq)).foldl (fun c l => c.write l.dest v none) c with loads := c.loads.filter (fun l => !l.acq) })
  | _ => s
def execAcqReply (n : Nat) (s : State) : Res := .next (acqReply n s)

end Sys2Proof.Machine
end

