-- ==== Sys2Proof/Machine/Control.lean ====
section
/-! DEFINITION. The C-slot instructions (R138 to R150). -/

namespace Sys2Proof.Machine

/-- A slot that says where control goes. -/
def transfer (x : Xfer) : SlotEff := onCore (fun c => { c with xfer := x })

/-! ## Transfers and the hardware loop (R138, R140) -/

def semBr (d : Nat) (x : Option Nat) (s : State) : SlotEff := transfer (.jump (targetJ s.me.pc d x) none)

/-- BR alone in its bundle. -/
def execBr (gd : Guard) (d : Nat) (x : Option Nat) (s : State) : Res :=
  runSole (.br gd d x) (semBr d x) s

def semBri (a : Nat) (s : State) : SlotEff := transfer (.jump (s.me.rg a).toNat none)

/-- BRI alone in its bundle. -/
def execBri (gd : Guard) (a : Nat) (s : State) : Res :=
  runSole (.bri gd a) (semBri a) s

def semCall (d : Nat) (x : Option Nat) (s : State) : SlotEff := transfer (.jump (targetJ s.me.pc d x) (some (s.me.dg 63)))

/-- CALL alone in its bundle. -/
def execCall (gd : Guard) (d : Nat) (x : Option Nat) (s : State) : Res :=
  runSole (.call gd d x) (semCall d x) s

def semCalli (d a : Nat) (s : State) : SlotEff := transfer (.jump (s.me.rg a).toNat (some (s.me.dg d)))

/-- CALLI alone in its bundle. -/
def execCalli (gd : Guard) (d a : Nat) (s : State) : Res :=
  runSole (.calli gd d a) (semCalli d a) s

def semRet (a : Nat) (s : State) : SlotEff := transfer (.jump (s.me.rg a).toNat none)

/-- RET alone in its bundle. -/
def execRet (gd : Guard) (a : Nat) (s : State) : Res :=
  runSole (.ret gd a) (semRet a) s

/-- The LEND bundle of an offset (R140). -/
def lendOf (pc o : Nat) (x : Option Nat) : Nat := (pc + 4 * loopOff x o) % 2 ^ 64

def semLoop (a o : Nat) (x : Option Nat) (s : State) : SlotEff :=
  transfer (.loop (Nat.min (s.me.rg a).toNat 0xFFFFFFFF) (lendOf s.me.pc o x))

/-- LOOP alone in its bundle. -/
def execLoop (gd : Guard) (a o : Nat) (x : Option Nat) (s : State) : Res :=
  runSole (.loop gd a o x) (semLoop a o x) s

def semLoopi (n o : Nat) (x : Option Nat) (s : State) : SlotEff := transfer (.loop n (lendOf s.me.pc o x))

/-- LOOPI alone in its bundle. -/
def execLoopi (gd : Guard) (c o : Nat) (x : Option Nat) (s : State) : Res :=
  runSole (.loopi gd c o x) (semLoopi c o x) s

/-! ## Safe points and task end (R142, R143) -/

/-- SAFE in handler mode raises PRIV; in task mode it records its liveness set, and a pending pre-emption is taken. -/
def semSafe (i : Nat) (x : Option Nat) (s : State) : SlotEff :=
  if s.me.hm then faults fcPriv 2 0
  else onCore (fun c => { c with xfer := .safe, csr := { c.csr with safeix := BitVec.ofNat 32 (extLow x i) } })

/-- SAFE alone in its bundle. -/
def execSafe (gd : Guard) (i : Nat) (x : Option Nat) (s : State) : Res :=
  runSole (.safe gd i x) (semSafe i x) s

def semDone (_s : State) : SlotEff := transfer .done

/-- DONE alone in its bundle. -/
def execDone (gd : Guard) (s : State) : Res :=
  runSole (.done gd) (semDone) s

/-! ## Tokens and fences (R144 to R146) -/

/-- The tokens are marked as waited on (R23). -/
def Core.useToks (c : Core) (l : List Nat) : Core := l.foldl (fun c t => c.setTok t { c.tok t with used := true }) c

/-- A wait on the listed tokens (R144). -/
def waitOn (l : List Nat) (s : State) : SlotEff :=
  let c := s.me
  if l.any (fun t => (c.tok t).st == .free) then faults fcToken 1 0
  else
    { wait := l.any (fun t => (c.tok t).st == .pending)
      late := l.filter (fun t => (c.tok t).st == .error)
      commit := fun s => s.updMe (fun c => c.useToks l) }

def semWaitk (a : Nat) (s : State) : SlotEff := waitOn [a] s

/-- WAITK alone in its bundle. -/
def execWaitk (gd : Guard) (a : Nat) (s : State) : Res :=
  runSole (.waitk gd a) (semWaitk a) s

def semWaitkRange (a b : Nat) (s : State) : SlotEff := waitOn (upFrom a (b + 1 - a)) s

/-- WAITK_RANGE alone in its bundle. -/
def execWaitkRange (gd : Guard) (a b : Nat) (s : State) : Res :=
  runSole (.waitkRange gd a b) (semWaitkRange a b) s

def semPollk (d a : Nat) (s : State) : SlotEff :=
  match (s.me.tok a).st with
  | .free => faults fcToken 1 0
  | st => pRes s.me d (st == .done || st == .error)

/-- POLLK alone in its bundle. -/
def execPollk (gd : Guard) (d a : Nat) (s : State) : Res :=
  runSole (.pollk gd d a) (semPollk d a) s

def semPollkErr (d a : Nat) (s : State) : SlotEff :=
  match (s.me.tok a).st with
  | .free => faults fcToken 1 0
  | st => pRes s.me d (st == .error)

/-- POLLK_ERR alone in its bundle. -/
def execPollkErr (gd : Guard) (d a : Nat) (s : State) : Res :=
  runSole (.pollkErr gd d a) (semPollkErr d a) s

/-- The core's earlier loads have returned (R235, core scope). -/
def semFenceCore (s : State) : SlotEff := { wait := !s.me.loads.isEmpty }

/-- FENCE_CORE alone in its bundle. -/
def execFenceCore (gd : Guard) (s : State) : Res :=
  runSole (.fenceCore gd) (semFenceCore) s

def semFenceCluster (s : State) : SlotEff := { wait := !s.me.loads.isEmpty || !s.me.clusterDone || s.relOpen s.cur }

/-- FENCE_CLUSTER alone in its bundle. -/
def execFenceCluster (gd : Guard) (s : State) : Res :=
  runSole (.fenceCluster gd) (semFenceCluster) s

/-- A fence of device or system scope sends a drain marker, an ordering point of every line (R269). -/
def drainMarker (s : State) : State := { s with wq := [] }

def semFenceDevice (s : State) : SlotEff := { wait := !s.me.loads.isEmpty || !s.deviceDone s.cur, commit := drainMarker }

/-- FENCE_DEVICE alone in its bundle. -/
def execFenceDevice (gd : Guard) (s : State) : Res :=
  runSole (.fenceDevice gd) (semFenceDevice) s

def semFenceSys (s : State) : SlotEff := { wait := !s.me.loads.isEmpty || !s.systemDone s.cur, commit := drainMarker }

/-- FENCE_SYS alone in its bundle. -/
def execFenceSys (gd : Guard) (s : State) : Res :=
  runSole (.fenceSys gd) (semFenceSys) s

/-! ## Traps, service calls and return (R147 to R149) -/

def semTrap (n : Nat) (x : Option Nat) (s : State) : SlotEff :=
  if s.me.hm then faults fcPriv 3 0 else transfer (.trap (extLow x n))

/-- TRAP alone in its bundle. -/
def execTrap (gd : Guard) (c : Nat) (x : Option Nat) (s : State) : Res :=
  runSole (.trap gd c x) (semTrap c x) s

/-- The SERVICE record of SYSC (R148, R300). -/
def serviceRec (s : State) (num arg : Nat) : FrqRec :=
  let c := s.me
  ⟨1, 0, 0, c.csr.partid.toNat, s.cur, c.csr.taskid.toNat, c.task.launch, 0, num, arg⟩

/-- The 39-bit service number fills ARG1 with zeros above it (log entry 99). -/
def semSysc (a i : Nat) (x : Option Nat) (s : State) : SlotEff :=
  let arg := (s.me.rg a).toNat
  { wait := !s.me.loads.isEmpty || !s.systemDone s.cur
    commit := fun s => s.frqPost (serviceRec s ((BitVec.ofInt 39 (immB i x)).toNat) arg) }

/-- SYSC alone in its bundle. -/
def execSysc (gd : Guard) (a i : Nat) (x : Option Nat) (s : State) : Res :=
  runSole (.sysc gd a i x) (semSysc a i x) s

def semEret (s : State) : SlotEff := if s.me.hm then transfer .eret else faults fcPriv 4 0

/-- ERET alone in its bundle. -/
def execEret (gd : Guard) (s : State) : Res :=
  runSole (.eret gd) (semEret) s

/-! ## CSR access (R110, R111, R150) -/

/-- The value of a CSR on core k, zero-extended (R110). -/
def csrVal (s : State) (k n : Nat) : Nat :=
  let r := (s.core k).csr
  match n with
  | 0x00 => r.taskid.toNat
  | 0x01 => k
  | 0x02 => clusterOf k
  | 0x03 => r.partid.toNat
  | 0x04 => r.status.toNat
  | 0x08 => r.epc.toNat
  | 0x09 => r.fltmask.toNat
  | 0x0A => r.repix.toNat
  | 0x0B => r.fltcode.toNat
  | 0x0C => r.fltaddr.toNat
  | 0x0D => r.tvec.toNat
  | 0x0E => r.hscr.toNat
  | 0x10 => if (s.core k).stalled then (s.core k).fpBegan.toNat else r.fpstat.toNat
  | 0x11 => r.detmode.toNat
  | 0x12 => r.safeix.toNat
  | 0x13 => r.safedist.toNat
  | 0x14 => s.dev.ptime.toNat
  | 0x18 => r.stickv0.toNat
  | 0x19 => r.stickv1.toNat
  | 0x1A => r.stickl.toNat
  | 0x1C => r.lcnt.toNat
  | 0x1D => r.lbeg.toNat
  | 0x1E => r.lend.toNat
  | _ => 0

/-- A software write of a CSR: read-only and hardware registers ignore it, FPSTAT keeps its zero field, and a write of LCNT stands at a
loop end (R7, R8, R111, R118). -/
def Core.csrSet (c : Core) (n v : Nat) : Core :=
  match n with
  | 0x0E => { c with csr := { c.csr with hscr := BitVec.ofNat 64 v } }
  | 0x10 => { c with csr := { c.csr with fpstat := BitVec.ofNat 32 (v % 64) } }
  | 0x1C => { c with csr := { c.csr with lcnt := BitVec.ofNat 32 v }, xfer := .keepLcnt }
  | 0x1D => { c with csr := { c.csr with lbeg := BitVec.ofNat 64 v } }
  | 0x1E => { c with csr := { c.csr with lend := BitVec.ofNat 64 v } }
  | _ => c

/-- HSCR is the handler's alone (R111). -/
def csrPriv (c : Core) (n : Nat) : Bool := n == 0x0E && !c.hm

/-- A write of CSR n with f of its old value and the source. -/
def csrOp (n a : Nat) (f : Nat → Nat → Nat) (s : State) : SlotEff :=
  if csrPriv s.me n then faults fcPriv 1 0
  else
    let g := (s.me.rg a).toNat
    onCore (fun c => c.csrSet n (f (if n == 0x10 then c.csr.fpstat.toNat else csrVal s s.cur n) g))

def semCsrr (d n : Nat) (s : State) : SlotEff :=
  if csrPriv s.me n then faults fcPriv 1 0 else gRes s.me d (BitVec.ofNat 64 (csrVal s s.cur n))

/-- CSRR alone in its bundle. -/
def execCsrr (gd : Guard) (d c : Nat) (s : State) : Res :=
  runSole (.csrr gd d c) (semCsrr d c) s

def semCsrw (a n : Nat) (s : State) : SlotEff := csrOp n a (fun _ v => v) s

/-- CSRW alone in its bundle. -/
def execCsrw (gd : Guard) (a c : Nat) (s : State) : Res :=
  runSole (.csrw gd a c) (semCsrw a c) s

def semCsrs (a n : Nat) (s : State) : SlotEff := csrOp n a (fun old v => Nat.lor old v) s

/-- CSRS alone in its bundle. -/
def execCsrs (gd : Guard) (a c : Nat) (s : State) : Res :=
  runSole (.csrs gd a c) (semCsrs a c) s

def semCsrc (a n : Nat) (s : State) : SlotEff := csrOp n a (fun old v => old - Nat.land old v) s

/-- CSRC alone in its bundle. -/
def execCsrc (gd : Guard) (a c : Nat) (s : State) : Res :=
  runSole (.csrc gd a c) (semCsrc a c) s

end Sys2Proof.Machine
end

