-- ==== Sys2Proof/Machine/Queue.lean ====
section
/-! DEFINITION. Enqueuing engine commands (R29 to R33, R247, R249, R250), their completion and chained failure (R249, R250, R297), and the
reports of a command to a save area it is detached to (R306). -/

namespace Sys2Proof.Machine

/-! ## Enqueuing -/

/-- Commands of the core in a queue: each holds one credit until it completes, a detached one too (R247, R306). -/
def Core.inQueue (c : Core) (m : Bool) : Nat := (c.cmds.filter (fun x => isM x.ins == m)).length
def queueDepth (m : Bool) : Nat := if m then 16 else 32

/-- The numbers of the commands that the tokens of a list wait for. -/
def Core.producers (c : Core) (l : List Nat) : List Nat :=
  l.filterMap (fun t => if (c.tok t).st == .pending then (c.tok t).latest else none)

/-- The fault an ERROR token passes on (R297). -/
def Core.chained (c : Core) (l : List Nat) : Option CmdFault :=
  match lowest (l.filter (fun t => (c.tok t).st == .error)) with
  | none => none
  | some t => (c.tok t).flt.map (fun f => { f with chn := true })

/-- A bundle commits a command (R249, R250), with the core c as the bundle began: its token is PENDING and it waits for the tokens it
consumes and for the earlier producer of its own. A consumed token that has become ERROR since its bundle began fails it. The production of a
consumed token that the bundle itself replaces is the one consumed. -/
def State.enqueue (s : State) (c : Core) (i : Instr) (e : Edge) (args : List Nat) (hb : Bool) : State :=
  let used := consumed e
  let x : Cmd :=
    { id := s.clock, ins := i, args := args, tp := e.tp, deps := c.producers (used ++ [e.tp]), hb := hb,
      part := c.csr.partid.toNat, launch := c.task.launch, repro := bitOf c.csr.detmode.toNat 0, st := .queued, tiles := [], parkedAt := 0, sentAt := 0,
      alloc := false, fail := c.chained (used ++ [e.tp]), res := [], ready := false, snap := [], torn := [], save := none, wtiles := [], imgs := [],
      wr := [] }
  { s.updMe (fun k =>
      let k := used.foldl (fun k t => if (k.tok t).latest == (c.tok t).latest then k.setTok t { k.tok t with used := true } else k) k
      { k.setTok e.tp ⟨.pending, none, some s.clock, false⟩ with cmds := k.cmds ++ [x] }) with clock := s.clock + 1 }

/-- An M or X slot (R31, R33, R249, R250). -/
def engineSlot (s : State) (i : Instr) (e : Edge) (args : List Nat) (hb : Bool) : SlotEff :=
  let c := s.me
  let used := consumed e
  if used.any (fun t => (c.tok t).st == .free) then faults fcToken 1 0
  else
    { errs := (used ++ [e.tp]).filter (fun t => (c.tok t).st == .error)
      wait := Nat.ble (queueDepth (isM i)) (c.inQueue (isM i))
      commit := fun s => s.enqueue c i e args hb }

/-- The q and g operands of an engine slot. -/
def Core.qn (c : Core) (n : Nat) : Nat := (c.rq n).toNat
def Core.gn (c : Core) (n : Nat) : Nat := (c.rg n).toNat

/-! ## Completion -/

/-- A token after the end of one of its producers (R249, R250). -/
def Tok.after (t : Tok) (id : Nat) (fail : Option CmdFault) : Tok :=
  if t.latest == some id then
    match fail with
    | none => { t with st := .done, flt := none, latest := none }
    | some f => { t with st := .error, flt := some f, latest := none }
  else t

/-- The commands that waited for one that ends: they wait no more, and its failure passes to them (R250). -/
def passOn (id : Nat) (fail : Option CmdFault) (l : List Cmd) : List Cmd :=
  l.map (fun x =>
    if x.deps.contains id then
      { x with deps := x.deps.filter (· != id),
               fail := match x.fail, fail with
                 | some g, _ => some g
                 | none, some f => some { f with chn := true }
                 | none, none => none }
    else x)

/-- Offset of token t's entry in a save area, and its bytes: state, CODE, DETAIL, FLTCODE bits 15:8 (R307). -/
def saveTokBytes (st : TokSt) (f : Option CmdFault) (t : Nat) : List Byte :=
  let n := match st with | .free => 0 | .pending => 1 | .done => 2 | .error => 3
  match st, f with
  | .error, some g =>
    toBytes 1 n ++ toBytes 1 g.flt.code ++ toBytes 2 (32768 + 512 * t + g.flt.cause % 512) ++ toBytes 1 (g.orig % 64 + 64 * g.chn.toNat) ++
      toBytes 3 0
  | _, _ => toBytes 8 n

/-- A detached command's end in its save area (R306): its token's final state unless a later command produces it, its flags, and one
less outstanding. -/
def State.detachedEnd (s : State) (a : Nat) (x : Cmd) (fl : Nat) (last : Bool) : State :=
  let s := if last then s.wrBytes (a + 0x500 + 8 * x.tp) (saveTokBytes (if x.fail.isSome then .error else .done) x.fail x.tp) else s
  let s := s.wrMem (a + 0x24) 4 (Nat.lor (s.rdMem (a + 0x24) 4) (fl % 64))
  s.wrMem (a + 0x2D) 1 (s.rdMem (a + 0x2D) 1 - 1)

/-- Command id of core k ends, with its flags: its references are lowered, its token and its successors hear of it (R199, R249). An
aborting task's flags are discarded (R294). -/
def State.endCmd (s : State) (k id fl : Nat) : State :=
  match (s.core k).cmd id with
  | none => s
  | some x =>
    let s := x.tiles.foldl (fun s t => s.refDown (clusterOf k) t) s
    let last := !((s.core k).cmds.any (fun y => y.save == x.save && y.tp == x.tp && Nat.blt id y.id))
    let s := s.updCore k (fun c => { c with cmds := passOn id x.fail (c.cmds.filter (fun y => y.id != id)) })
    match x.save with
    | some a => s.detachedEnd a x fl last
    | none => s.updCore k (fun c =>
        let c := c.setTok x.tp ((c.tok x.tp).after id x.fail)
        if c.run == .aborting then c else c.orFp fl)

/-- Every command that has failed and waits for nothing, and has not started, ends (R250); n bounds how many. -/
def State.cascade (s : State) (k : Nat) : Nat → State
  | 0 => s
  | n + 1 =>
    match (s.core k).cmds.find? (fun x => x.fail.isSome && x.deps.isEmpty && x.st != .running) with
    | none => s
    | some x => (s.endCmd k x.id 0).cascade k n

/-- A command ends and the failures it causes pass on. -/
def State.finish (s : State) (k id fl : Nat) : State := (s.endCmd k id fl).cascade k 64

/-- A command ends failed: nothing it names has changed. -/
def State.failCmd (s : State) (k id : Nat) (f : FaultInfo) : State := (s.updCmd k id (fun x => x.failWith f)).finish k id 0

/-- A parked command lowers its references and waits for frames again (R209, R211). -/
def State.unpark (s : State) (k : Nat) (x : Cmd) : State :=
  (x.tiles.foldl (fun s t => s.refDown (clusterOf k) t) s).updCmd k x.id (fun y => { y with alloc := false, tiles := [], wtiles := [] })

/-- Every parked command of the cluster that waits on the tile waits for frames again. -/
def State.unparkTile (s : State) (cl : Nat) (t : Tile) : State :=
  (coresOf cl).foldl (fun s k => ((s.core k).cmds.filter (fun x => x.st == .parked && x.alloc && x.tiles.contains t)).foldl
    (fun s x => s.unpark k x) s) s

/-- Every command that waits on the tile's fill, or while the tile is resident on its grant, ends with a fault, and a TRD or TWR stalled on it
will raise it (R213). -/
def State.failTile (s : State) (cl : Nat) (t : Tile) (f : FaultInfo) : State :=
  let here := (s.hit cl t).isSome
  let s := (coresOf cl).foldl (fun s k => ((s.core k).cmds.filter (fun x =>
      x.st == .parked && x.alloc && (if here then x.wtiles.contains t else x.tiles.contains t))).foldl
    (fun s x => s.failCmd k x.id f) s) s
  (coresOf cl).foldl (fun s k => s.updCore k (fun c => if c.tcWait == some t then { c with tcFlt := some f } else c)) s

end Sys2Proof.Machine
end

