-- ==== Sys2Proof/Machine/Matrix.lean ====
section
/-! DEFINITION. The M-slot commands: their enqueuing, checks, tiles, and effects at completion (R174 to R188, R326 to R344). -/

namespace Sys2Proof.Machine

/-! ## Windows and operands (R179 to R181) -/

/-- The first fault of a list of tests. -/
def firstOf (l : List (Bool × Nat × Nat × Nat)) : Option FaultInfo :=
  (l.find? (fun x => x.1)).map (fun x => ⟨x.2.1, x.2.2.1, x.2.2.2⟩)

/-- An operand of MMA or TBUILD: the tile named, read under T, and its part. -/
structure Opnd where
  tile : Tile
  tr : Bool
  part : Nat
  deriving DecidableEq, Repr

/-- Whether the blocks of the named tensor lie across K (R181). -/
def Desc.across (d : Desc) (tr : Bool) : Bool := d.scaled && (d.ax == 1) != tr
/-- The operand actually read by descriptors df: the twin's, when the named tensor's blocks lie across K (R54, R181, R355). -/
def Opnd.realBy (o : Opnd) (df : Nat → Desc) : Opnd :=
  let d := df o.tile.tid
  if d.across o.tr then ⟨o.tile.twin d.twin, !o.tr, o.part⟩ else o
def Opnd.real (o : Opnd) (s : State) : Opnd := o.realBy (s.desc o.tile.part)
/-- The twin is acceptable (R355) and lies along K. -/
def twinOk (s : State) (o : Opnd) : Bool :=
  let d := s.desc o.tile.part o.tile.tid
  let w := s.desc o.tile.part d.twin
  d.twv && w.v && w.fmt == d.fmt && w.wsel == 0 && w.ax == 0 && nth w.ext 0 0 == nth d.ext 1 0 && nth w.ext 1 0 == nth d.ext 0 0 &&
    nth w.ext 2 0 == nth d.ext 2 0 && nth w.ext 3 0 == nth d.ext 3 0 && w.r == d.e && !w.across (!o.tr)
/-- The operand's K length, its parts, and its shape (R179). -/
def Desc.kLen (d : Desc) (tr : Bool) : Nat := if tr then d.r else d.e
def Desc.parts (d : Desc) (tr : Bool) : Nat := (if tr then d.e else d.r) / 64
def Desc.mmaShape (d : Desc) (tr : Bool) : Bool := let n := if tr then d.e else d.r; n == 64 || n == 128

def Opnd.descBad (o : Opnd) (s : State) : Option FaultInfo :=
  firstOf [(!(s.desc o.tile.part o.tile.tid).v, fcDescInvalid, 1, o.tile.q)]
/-- FORMAT of an operand: weight codes, format, shape, twin. R178 names no tile for a failing check of the twin: FLTADDR is the twin's name
where its own shape or coordinate fails, and the named tile's otherwise (log entry 87). -/
def Opnd.fmtBad (o : Opnd) (s : State) : Option FaultInfo :=
  let d := s.desc o.tile.part o.tile.tid
  let r := o.real s
  let w := s.desc r.tile.part r.tile.tid
  firstOf [(d.wsel != 0, fcFormat, 6, o.tile.q), ((fmtClass d.fmt).isNone, fcFormat, 1, o.tile.q),
    (!d.mmaShape o.tr, fcFormat, 3, o.tile.q), (d.across o.tr && !twinOk s o, fcFormat, 2, o.tile.q),
    (d.across o.tr && !w.mmaShape r.tr, fcFormat, 3, r.tile.q)]
/-- INDEX_RANGE of an operand: coordinate, part, K range up to kmax. -/
def Opnd.ixBad (o : Opnd) (s : State) (kmax : Nat) : Option FaultInfo :=
  let d := s.desc o.tile.part o.tile.tid
  let r := o.real s
  let w := s.desc r.tile.part r.tile.tid
  firstOf [(d.outside o.tile, fcIndex, 1, o.tile.q), (w.outside r.tile, fcIndex, 1, r.tile.q),
    (Nat.ble (w.parts r.tr) o.part, fcIndex, 2, o.tile.q), (Nat.blt (w.kLen r.tr) kmax, fcIndex, 3, o.tile.q)]

/-- X(i, k) of an operand read from frame bytes (R179). -/
def opVal (d : Desc) (m : SMap Byte) (tr : Bool) (part i k : Nat) : FV :=
  if tr then d.elVal m k (64 * part + i) else d.elVal m (64 * part + i) k

/-- The 64 × 64 window of MLDA and MSTA (R179). -/
def Desc.winShape (d : Desc) : Bool := Nat.ble 64 d.r && Nat.ble 64 d.e
def Desc.winParts (d : Desc) : Nat := d.r / 64 * (d.e / 64)
def Desc.winRow (d : Desc) (p : Nat) : Nat := 64 * (p / (d.e / 64))
def Desc.winCol (d : Desc) (p : Nat) : Nat := 64 * (p % (d.e / 64))

/-! ## Accumulators -/

/-- Every element of a[d] in the listed columns replaced by f's value; the flags of all. -/
def Core.mapAcc (c : Core) (d : Nat) (cols : List Nat) (f : Nat → Nat → Nat × Nat) : Core × Nat :=
  (upFrom 0 64).foldl (fun r i => cols.foldl (fun (r : Core × Nat) j =>
    let v := f i j
    (r.1.setA d i j (BitVec.ofNat 32 v.1), Nat.lor r.2 v.2)) r) (c, 0)
def allCols : List Nat := upFrom 0 64
/-- Element (i, j) of a[n] as a pattern. -/
def Core.an (c : Core) (n i j : Nat) : Nat := (c.ra n i j).toNat
/-- acc + BlockSum, rounded (R56), with the flags of both. -/
def accStep (acc : Nat) (bs : Nat × Nat) : Nat × Nat :=
  let r := fAdd 0 rne acc bs.1
  (r.1, Nat.lor bs.2 r.2)
/-- A constant operand (R184): a NaN becomes the canonical NaN, and one that signals raises NV. -/
def constS (g : Nat) : Nat × Nat :=
  let v := decodeF 0 (g % 2 ^ 32)
  (if v.isNan then nanBits 0 else g % 2 ^ 32, v.sigFlag)

/-- One element of an MMA (R182): acc over K-blocks kb0 and on. -/
def mmaElem (a b : Nat → FV) : Nat → Nat → Nat → Nat × Nat
  | 0, _, acc => (acc, 0)
  | n + 1, kb, acc =>
    let ts := (upFrom (32 * kb) 32).map (fun k => mulTerm (a k) (b k))
    let r := accStep acc (blockSum (ts.map Prod.fst) (orFlags (ts.map Prod.snd)))
    let q := mmaElem a b n (kb + 1) r.1
    (q.1, Nat.lor r.2 q.2)

/-- A conversion of FP32 into a destination format of MSTA (R40, R41, R43, R187). -/
def toFmt (dst mode x : Nat) : Nat × Nat :=
  match dst with
  | 7 => let r := valToInt mode (decodeF 0 x) 0 (-8) 7
    ((r.1 % 16).toNat, r.2)
  | _ => vConvert 0 dst mode 0 x

/-! ## Table registers (R326 to R332) -/

/-- Entry (row, group, p) of z[n]. -/
def Core.zent (c : Core) (n i g p : Nat) : Nat := (mget c.regs.zv (n * 8192 + 128 * i + 16 * g + p) (0 : W32)).toNat
/-- w[n].entry[p][t]. -/
def Core.went (c : Core) (n p t : Nat) : Nat := (mget c.regs.w (n * 64 + 4 * p + t) (0 : W32)).toNat
def Core.wcnt (c : Core) (n : Nat) : Nat := mget c.regs.wcnt n 0

/-- An exact sum of values, with the NV of opposite infinities or signalling operands among them, whatever their order (R327). -/
def sumV (l : List FV) : FV × Nat :=
  ((match l with
    | [] => .fin false 0 0
    | v :: t => t.foldl (addV false) v),
   if l.any (fun v => v.sigFlag != 0) || (l.contains (.inf false) && l.contains (.inf true)) then flNV else 0)
/-- A value rounded to FP32 (RNE). -/
def to32 (r : FV × Nat) : Nat × Nat :=
  let b := encodeF 0 rne r.1
  (b.1, Nat.lor b.2 r.2)

/-- An entry of a table (R327): plane mode, or codebook mode with codebook w. -/
def tableEntry (c : Core) (mode w p : Nat) (x : Nat → FV) : Nat × Nat :=
  if mode == 0 then
    if p == 0 then (0, 0) else to32 (sumV (((upFrom 0 4).filter (fun t => bitOf p t)).map x))
  else if Nat.ble (c.wcnt w) p then (0, 0)
  else
    let ts := (upFrom 0 4).map (fun t => mulTerm (x t) (decodeF 0 (c.went w p t)))
    let r := sumV (ts.map Prod.fst)
    to32 (r.1, Nat.lor r.2 (orFlags (ts.map Prod.snd)))

/-- The table of a block (R335): z[z] filled from the values x(row, position), with its record; the flags. -/
def Core.buildTable (c : Core) (z : Nat) (rec : ZRec) (x : Nat → Nat → FV) : Core × Nat :=
  let r := (upFrom 0 64).foldl (fun r i => (upFrom 0 8).foldl (fun r g => (upFrom 0 16).foldl (fun (r : SMap W32 × Nat) p =>
    let v := tableEntry c rec.mode rec.cb p (fun t => x i (4 * g + t))
    (mset r.1 (z * 8192 + 128 * i + 16 * g + p) (BitVec.ofNat 32 v.1) 0, Nat.lor r.2 v.2)) r) r) (c.regs.zv, 0)
  ({ c with regs := { c.regs with zv := r.1 } }.setZrec z rec, r.2)

/-- A value times 2^n, exact. -/
def scaleV (v : FV) (n : Int) : FV := match v with | .fin a m e => .fin a m (e + n) | v => v

/-- Plane word j of column n, K-block k of a weight tile (R329). -/
def planeWord (d : Desc) (m : SMap Byte) (n k j : Nat) : Nat := ofBytes (mgetBytes m (256 * n + 4 * (d.planes * k + j)) 4)
/-- A NaN entry of a table signals no more (R332). -/
def FV.quiet (v : FV) : FV := match v with | .nan _ => .nan false | v => v
/-- The term of group g (R330, R331) with the NV of opposite infinities inside it. -/
def lookTerm (c : Core) (d : Desc) (m : SMap Byte) (z i n k g pm : Nat) : FV × Nat :=
  let ps := (upFrom 0 d.planes).filter (fun j => bitOf pm j)
  let ent (j : Nat) : FV := (decodeF 0 (c.zent z i g (fld (planeWord d m n k j) (4 * g) 4))).quiet
  if d.wsel == 5 then sumV (ps.map ent)
  else
    let b := d.wsel
    let x := (mget m (16384 + 2 * (8 * k + n / 8) + n % 8 / 4) 0).toNat
    let off := if d.sgn && bitOf pm (b - 1) then [scaleV (decodeF 0 (c.zent z i g 15)).quiet.negate ((b : Int) - 1)] else []
    let r := sumV (ps.map (fun j => scaleV (ent j) (j : Nat)) ++ off)
    if x == 0xFF then (.nan false, r.2) else (scaleV r.1 ((x : Int) - 127), r.2)

/-- One element of a TLOOK (R332). -/
def lookElem (c : Core) (d : Desc) (m : SMap Byte) (z i n k pm acc : Nat) : Nat × Nat :=
  let ts := (upFrom 0 8).map (fun g => lookTerm c d m z i n k g pm)
  accStep acc (blockSum (ts.map Prod.fst) (orFlags (ts.map Prod.snd)))

/-- The codes a codebook lookup uses all name entries below CNT (R336). -/
def codesOk (c : Core) (d : Desc) (m : SMap Byte) (cb k pm : Nat) (cols : List Nat) : Bool :=
  cols.all (fun n => ((upFrom 0 d.planes).filter (fun j => bitOf pm j)).all (fun j =>
    (upFrom 0 8).all (fun g => Nat.blt (fld (planeWord d m n k j) (4 * g) 4) (c.wcnt cb))))

/-- A table's record as the 128 bits of R107, and back. -/
def ZRec.bits (z : ZRec) : Nat :=
  (match z.st with | .empty => 0 | .valid => 1 | .stale => 2) + 32 * z.cb + 128 * z.mode + 2 ^ 40 * z.kblk + 2 ^ 48 * z.ver +
    2 ^ 64 * z.coord + 2 ^ 108 * z.tid
def ZRec.ofBits (x : Nat) : ZRec :=
  ⟨fld x 108 20, fld x 64 44, fld x 48 16, fld x 40 8, fld x 7 1, fld x 5 2, match fld x 0 2 with | 0 => .empty | 1 => .valid | _ => .stale⟩
/-- A saved record ZLOAD refuses (R341). -/
def recordBad (x : Nat) : Bool := fld x 0 2 == 3 || fld x 2 3 != 0 || fld x 8 32 != 0

/-- The source operand of a table's record (R337). -/
def ZRec.opnd (z : ZRec) (part : Nat) : Opnd := ⟨⟨part, z.tid, z.coord⟩, false, fld z.kblk 4 1⟩
def ZRec.kmax (z : ZRec) : Nat := 32 * (fld z.kblk 0 4 + 1)

/-- Bytes of engine memory accesses (R255, R340, R343): a fault, or the physical address of each. -/
def State.engAddrs (s : State) (k part gva n acc : Nat) : Except FaultInfo (List Nat) :=
  (upFrom 0 n).foldr (fun i r => match s.xlate k part ((gva + i) % 2 ^ 64) acc with
    | .error e => .error e
    | .ok x => match paKind x.pa with
      | .localHbm => r.map (fun l => x.pa :: l)
      | .host => r.map (fun l => x.pa :: l)
      | _ => .error ⟨fcPerm, 2, (gva + i) % 2 ^ 64⟩) (.ok [])
def State.engFault (s : State) (k part gva n acc : Nat) : Option FaultInfo :=
  match s.engAddrs k part gva n acc with | .error e => some e | .ok _ => none
def State.engRead (s : State) (k part gva n : Nat) : List Byte :=
  match s.engAddrs k part gva n accR with | .error _ => List.replicate n 0 | .ok l => l.map s.byte
/-- Writes at the points of coherence; no L0 line is touched. -/
def State.engWrite (s : State) (k part gva : Nat) (l : List Byte) : State :=
  match s.engAddrs k part gva l.length accW with
  | .error _ => s
  | .ok as => (as.zip l).foldl (fun s x => (s.closeLine x.1).wrBytes x.1 [x.2]) s

/-- The local and host bytes of ranges of guest memory, given by address, length and access; of a range that faults none. -/
def State.reached (s : State) (k part : Nat) (l : List (Nat × Nat × Nat)) : List Nat :=
  l.flatMap (fun r => match s.engAddrs k part r.1 r.2.1 r.2.2 with | .ok as => as | .error _ => [])
/-- The requests for these ranges may be injected (R274). -/
def State.mayReach (s : State) (k part : Nat) (l : List (Nat × Nat × Nat)) : Bool :=
  s.buckets.isEmpty || (s.reached k part l).all (s.mayInject part)
/-- They pass: they are charged, counted, and ordering points of their lines (R269, R274, R378). -/
def State.passBytes (s : State) (k part : Nat) (l : List (Nat × Nat × Nat)) : State :=
  ((s.reached k part l).foldl (fun s a => s.closeLine a) s).servedAll part (s.reached k part l)

/-! ## What each command checks, names and does -/

/-- What an engine command does: its checks when taken and at replay, in their order (R178, R333); the tiles it names, in the order A, B,
destination (R200); what it records when it starts; and its effect at completion, with its flags and a fault found while it ran. It reads and
writes its tiles by the descriptors in force as it started, those of the tiles it names and of tids (R259). -/
structure CmdSem where
  check : State → Option FaultInfo := fun _ => none
  needs : State → List Need := fun _ => []
  /-- A fault found as it starts, with its tiles at hand. -/
  begins : State → Option FaultInfo := fun _ => none
  record : State → List Nat := fun _ => []
  /-- Identifiers whose descriptors it uses beside those of its tiles. -/
  tids : State → List Nat := fun _ => []
  /-- The bits of each tile that it writes at its completion (R177). -/
  wr : State → List (Tile × List (Nat × Nat)) := fun _ => []
  /-- Resident tiles it names without needing them resident, whose frames take rank 0 as well (R200). -/
  touch : List Tile := []
  /-- The ranges of guest memory it reads or writes itself, by address, length and access: what it injects when it starts (R274). -/
  uses : State → List (Nat × Nat × Nat) := fun _ => []
  effect : State → State × Nat × Option FaultInfo := fun s => (s, 0, none)
  /-- What must hold before it can start, beside its tokens and tiles. -/
  may : State → Bool := fun _ => true
  /-- What it sends when it starts. -/
  start : State → State := id
  /-- What must hold before it can complete. -/
  done : State → Bool := fun _ => true

/-- A command on core k: effects on the core alone. -/
def coreEff (k : Nat) (f : Core → Core × Nat) : State → State × Nat × Option FaultInfo :=
  fun s => let r := f (s.core k); (s.setCore k r.1, r.2, none)

/-- MMA (R182). R178 orders no causes within FORMAT: the classes of A and B are compared after the shape and twin of both, and FLTADDR then
names B's tile (log entry 87). -/
def mmaSem (d qa sa ta tb z kb0 kbn pa pb : Nat) (k : Nat) (x : Cmd) : CmdSem :=
  let oa : Opnd := ⟨tileOf x.part (nth x.args 0 0), ta == 1, pa⟩
  let ob : Opnd := ⟨tileOf x.part (nth x.args 1 0), tb == 1, pb⟩
  let kmax := 32 * (kb0 + kbn + 1)
  let cls (s : State) (o : Opnd) : Option Nat := fmtClass (s.desc o.tile.part o.tile.tid).fmt
  { check := fun s =>
      if sa == 1 then
        ((ob.descBad s).or (ob.fmtBad s)).or ((firstOf [(cls s ob != some 0, fcFormat, 1, ob.tile.q),
          (Nat.blt 64 kmax, fcIndex, 3, 0)]).or (ob.ixBad s kmax))
      else
        ((oa.descBad s).or (ob.descBad s)).or (((oa.fmtBad s).or (ob.fmtBad s)).or
          ((firstOf [(cls s oa != cls s ob, fcFormat, 1, ob.tile.q)]).or ((oa.ixBad s kmax).or (ob.ixBad s kmax))))
    needs := fun s => (if sa == 1 then [] else [⟨(oa.real s).tile, false, false⟩]) ++ [⟨(ob.real s).tile, false, false⟩]
    tids := fun _ => [oa.tile.tid, ob.tile.tid]
    effect := fun s =>
      let c := s.core k
      let ra := oa.realBy (x.desc s)
      let rb := ob.realBy (x.desc s)
      let ma := (x.tile ra.tile).2
      let mb := (x.tile rb.tile).2
      let da := x.desc s ra.tile.tid
      let db := x.desc s rb.tile.tid
      let av (i kk : Nat) : FV :=
        if sa == 1 then decodeF 0 (if ta == 0 then c.an (qa % 8) i kk else c.an (qa % 8) kk i) else opVal da ma ra.tr pa i kk
      coreEff k (fun c => c.mapAcc d allCols (fun i j =>
        mmaElem (av i) (opVal db mb rb.tr pb j) (kbn + 1) kb0 (if z == 1 then 0 else c.an d i j))) s }

def mzeroSem (mask k : Nat) : CmdSem :=
  { effect := coreEff k (fun c =>
      (((upFrom 0 8).filter (fun n => bitOf mask n)).foldl (fun c n => (c.mapAcc n allCols (fun _ _ => (0, 0))).1) c, 0)) }

/-- MSCL and MTRI (R184): s where keep holds, +0 elsewhere. -/
def constSem (d : Nat) (g : Nat) (keep : Nat → Nat → Bool) (k : Nat) : CmdSem :=
  let v := constS g
  { effect := coreEff k (fun c => ((c.mapAcc d allCols (fun i j => (if keep i j then v.1 else 0, 0))).1, v.2)) }
def mulSem (d g k : Nat) : CmdSem :=
  { effect := coreEff k (fun c => c.mapAcc d allCols (fun i j => fMul 0 rne (c.an d i j) (g % 2 ^ 32))) }
def triArg (one g : Nat) : Nat := if one == 1 then 0x3F800000 else g

/-- The checks of an MLDA or MSTA window (R179, R186, R187). -/
def winCheck (s : State) (t : Tile) (part : Nat) (extra : Desc → List (Bool × Nat × Nat × Nat)) (write : Bool) : Option FaultInfo :=
  let d := s.desc t.part t.tid
  firstOf ([(!d.v, fcDescInvalid, 1, t.q), (d.wsel != 0, fcFormat, 6, t.q), ((fmtClass d.fmt).isNone, fcFormat, 1, t.q),
    (!d.winShape, fcFormat, 3, t.q)] ++ extra d ++
    [(d.outside t, fcIndex, 1, t.q), (Nat.ble d.winParts part, fcIndex, 2, t.q), (write && !d.we, fcPerm, 3, t.q)])

def mldaSem (d tr part k : Nat) (x : Cmd) : CmdSem :=
  let t := tileOf x.part (nth x.args 0 0)
  { check := fun s => winCheck s t part (fun _ => []) false
    needs := fun _ => [⟨t, false, false⟩]
    effect := fun s =>
      let ds := x.desc s t.tid
      let m := (x.tile t).2
      coreEff k (fun c => c.mapAcc d allCols (fun i j =>
        let v := if tr == 1 then ds.elVal m (ds.winRow part + j) (ds.winCol part + i) else ds.elVal m (ds.winRow part + i) (ds.winCol part + j)
        to32 (v, v.sigFlag))) s }

/-- The bits of a frame that a write of the window changes: its elements, the headers of its blocks, and an FP32 tile's record (R187, R339). -/
def Desc.winBits (d : Desc) (part : Nat) : List (Nat × Nat) :=
  let r0 := d.winRow part
  let c0 := d.winCol part
  (upFrom 0 64).map (fun i => (d.elPos (r0 + i) c0, 64 * d.elW)) ++
    (if d.scaled then (upFrom 0 64).flatMap (fun i => (upFrom 0 2).map (fun b =>
      (8 * (if d.ax == 0 then d.hdrOff (r0 + i) (c0 + 32 * b) else d.hdrOff (r0 + 32 * b) (c0 + i)), 8 * d.hsz)))
     else if d.fmt == 0 then [(131072, 128)] else [])

/-- The window of 64 × 64 accumulator values written to a frame (R187): the frame bytes and flags. xv gives the value of window element
(i, j). -/
def storeWindow (d : Desc) (m : SMap Byte) (part rm dist : Nat) (xv : Nat → Nat → Nat) : SMap Byte × Nat :=
  let r0 := d.winRow part
  let c0 := d.winCol part
  if !d.scaled then
    (upFrom 0 64).foldl (fun r i => (upFrom 0 64).foldl (fun (r : SMap Byte × Nat) j =>
      let v := toFmt d.fmt rm (xv i j)
      (setFrameBits r.1 (d.elPos (r0 + i) (c0 + j)) d.elW v.1, Nat.lor r.2 v.2)) r) (m, 0)
  else
    (upFrom 0 64).foldl (fun r i => (upFrom 0 2).foldl (fun (r : SMap Byte × Nat) b =>
      let at_ (n : Nat) : Nat × Nat := if d.ax == 0 then (i, 32 * b + n) else (32 * b + n, i)
      let q := quantBlock d.fmt (dist + 1) ((upFrom 0 32).map (fun n => decodeF 0 (xv (at_ n).1 (at_ n).2)))
      let els := (upFrom 0 32).foldl (fun m n => setFrameBits m (d.elPos (r0 + (at_ n).1) (c0 + (at_ n).2)) d.elW (nth q.1 n 0)) r.1
      (msetBytes els (d.hdrOff (r0 + (at_ 0).1) (c0 + (at_ 0).2)) (toBytes d.hsz q.2.1), Nat.lor r.2 q.2.2)) r) (m, 0)

def mstaSem (a tr part rm dist k : Nat) (x : Cmd) : CmdSem :=
  let t := tileOf x.part (nth x.args 0 0)
  { check := fun s => winCheck s t part (fun d =>
      [(if d.scaled then rm != 0 || (isMxF d.fmt && dist != 0) else dist != 0, fcFormat, 4, t.q)]) true
    needs := fun s => [⟨t, true, (s.desc t.part t.tid).winParts == 1⟩]
    wr := fun s => [(t, (s.desc t.part t.tid).winBits part)]
    effect := fun s =>
      let cl := clusterOf k
      let d := x.desc s t.tid
      let c := s.core k
      let m := s.frameData cl t
      let r := storeWindow d m part rm dist (fun i j => if tr == 1 then c.an a j i else c.an a i j)
      let s1 := (s.putFrame cl t (clearRecord d r.1) (x.writes t))
      (s1.staleRect cl t (d.winRow part) 64 (d.winCol part) 64, r.2, none) }

/-- The checks of TBUILD (R335), also those of a rebuild (R337). -/
def buildCheck (s : State) (o : Opnd) (kmax : Nat) : Option FaultInfo :=
  ((o.descBad s).or (o.fmtBad s)).or (o.ixBad s kmax)
/-- The table built from an operand (R335). -/
def State.build (s : State) (k : Nat) (x : Cmd) (z : Nat) (o : Opnd) (rec : ZRec) : State × Nat :=
  let r := o.realBy (x.desc s)
  let d := x.desc s r.tile.tid
  let (ver, m) := x.tile r.tile
  let kb := fld rec.kblk 0 4
  let q := (s.core k).buildTable z { rec with ver := ver, st := .valid } (fun i t => opVal d m r.tr o.part i (32 * kb + t))
  (s.setCore k q.1, q.2)

def tbuildSem (z p kb mode w k : Nat) (x : Cmd) : CmdSem :=
  let t := tileOf x.part (nth x.args 0 0)
  let o : Opnd := ⟨t, false, p⟩
  { check := fun s => buildCheck s o (32 * (kb + 1))
    needs := fun s => [⟨(o.real s).tile, false, false⟩]
    tids := fun _ => [t.tid]
    effect := fun s =>
      let r := s.build k x z o ⟨t.tid, t.coord, 0, 16 * p + kb, mode, w, .valid⟩
      (r.1, r.2, none) }

/-- A lookup finds its table STALE and rebuilds it (R337). -/
def rebuilds (s : State) (k z : Nat) (r : Bool) : Bool := r && ((s.core k).zrec z).st == .stale

def tlookSem (d z wkb cst cnm1 pm k : Nat) (r : Bool) (x : Cmd) : CmdSem :=
  let t := tileOf x.part (nth x.args 0 0)
  let cols := upFrom (16 * cst) (16 * (cnm1 + 1))
  { check := fun s =>
      let zr := (s.core k).zrec z
      let ds := s.desc t.part t.tid
      (firstOf [(zr.st == .empty, fcTableEmpty, z, 0), (!ds.v, fcDescInvalid, 1, t.q),
        (if zr.mode == 0 then !ds.isWb else ds.wsel != 5, fcFormat, 6, t.q), (ds.shape != 2, fcFormat, 3, t.q),
        (ds.outside t, fcIndex, 1, t.q),
        (Nat.ble (ds.kt / 32) wkb || Nat.ble (2 ^ ds.planes) pm || Nat.blt 3 (cst + cnm1), fcIndex, 4, t.q),
        (zr.st == .stale && !r, fcTableStale, z, 0)]).or
      (if rebuilds s k z r then buildCheck s (zr.opnd x.part) zr.kmax else none)
    needs := fun s =>
      ⟨t, false, false⟩ :: (if rebuilds s k z r then [⟨(((s.core k).zrec z).opnd x.part |>.real s).tile, false, false⟩] else [])
    record := fun s => [(rebuilds s k z r).toNat]
    tids := fun s => [((s.core k).zrec z).tid]
    effect := fun s =>
      let zr := (s.core k).zrec z
      let b := if nth x.res 0 0 == 1 then s.build k x z (zr.opnd x.part) zr else (s, 0)
      let s1 := b.1
      let c := s1.core k
      let ds := x.desc s1 t.tid
      let m := (x.tile t).2
      if zr.mode == 1 && !codesOk c ds m zr.cb wkb pm cols then (s1, b.2, some ⟨fcIndex, 4, t.q⟩)
      else
        let q := c.mapAcc d cols (fun i n => lookElem c ds m z i n wkb pm (c.an d i n))
        (s1.setCore k q.1, Nat.lor b.2 q.2, none) }

/-! ## Spilling and restoring (R339 to R343) -/

/-- Entry bytes of z[n]; those of an EMPTY table are undefined values numbered from base. -/
def zBytes (c : Core) (n base : Nat) : List Byte :=
  if (c.zrec n).st == .empty then (upFrom base 32768).map (fun i => freeBits 8 i)
  else (upFrom 0 8192).flatMap (fun i => toBytes 4 (mget c.regs.zv (n * 8192 + i) (0 : W32)).toNat)
/-- The two tiles of a table image (R339). -/
def imageTiles (x : Cmd) : Tile × Tile := let t := tileOf x.part (nth x.args 0 0); (t, t.step 0 1)
/-- Frame bytes of half of an image: row i holds groups 4h to 4h + 3. -/
def imageHalf (l : List Byte) (h : Nat) : List Byte := (upFrom 0 64).flatMap (fun i => (l.drop (512 * i + 256 * h)).take 256)
/-- The checks of the tile form, and of the memory form (R340, R341). -/
def imageCheck (s : State) (k f : Nat) (x : Cmd) (write : Bool) : Option FaultInfo :=
  if f == 1 then
    let (t, u) := imageTiles x
    let d := s.desc t.part t.tid
    firstOf [(!d.v, fcDescInvalid, 1, t.q), (d.wsel != 0 || d.fmt != 0 || d.shape != 2, fcFormat, 3, t.q),
      (d.outside t, fcIndex, 1, t.q), (d.outside u, fcIndex, 1, u.q), (write && !d.we, fcPerm, 3, t.q)]
  else
    let a := nth x.args 0 0
    if a % 64 != 0 then some ⟨fcAlign, 0, a⟩ else s.engFault k x.part a 32832 (if write then accW else accR)
def imageNeeds (f : Nat) (x : Cmd) (write : Bool) : List Need :=
  if f == 1 then [⟨(imageTiles x).1, write, write⟩, ⟨(imageTiles x).2, write, write⟩] else []

def zsaveSem (z f k : Nat) (x : Cmd) : CmdSem :=
  { check := fun s => imageCheck s k f x true
    needs := fun _ => imageNeeds f x true
    record := fun s => [((s.core k).zrec z).bits]
    uses := fun _ => if f == 1 then [] else [(nth x.args 0 0, 32832, accW)]
    wr := fun _ => if f == 1 then [((imageTiles x).1, wholeFrame), ((imageTiles x).2, wholeFrame)] else []
    effect := fun s =>
      let cl := clusterOf k
      let l := zBytes (s.core k) z s.freeCtr
      let r := toBytes 16 (nth x.res 0 0)
      let s := if ((s.core k).zrec z).st == .empty then s.draw 32768 else s
      if f == 1 then
        let (t, u) := imageTiles x
        let s1 := s.putFrame cl t (msetBytes (msetBytes [] 0 (imageHalf l 0)) 16384 r) (x.writes t)
        let s2 := s1.putFrame cl u (msetBytes [] 0 (imageHalf l 1)) (x.writes u)
        ((s2.staleRect cl t 0 64 0 64).staleRect cl u 0 64 0 64, 0, none)
      else (s.engWrite k x.part (nth x.args 0 0) (l ++ r ++ List.replicate 48 0), 0, none) }

def zloadSem (z f k : Nat) (x : Cmd) : CmdSem :=
  { check := fun s => imageCheck s k f x false
    needs := fun _ => imageNeeds f x false
    uses := fun _ => if f == 1 then [] else [(nth x.args 0 0, 32832, accR)]
    effect := fun s =>
      let cl := clusterOf k
      let img : List Byte :=
        if f == 1 then
          let m := (x.tile (imageTiles x).1).2
          let n := (x.tile (imageTiles x).2).2
          (upFrom 0 64).flatMap (fun i => mgetBytes m (256 * i) 256 ++ mgetBytes n (256 * i) 256) ++ mgetBytes m 16384 16
        else s.engRead k x.part (nth x.args 0 0) 32784
      let rec' := ofBytes (img.drop 32768)
      if recordBad rec' then (s, 0, some ⟨fcFormat, 4, nth x.args 0 0⟩)
      else
        let zr := ZRec.ofBits rec'
        let held := match s.hit cl ⟨x.part, zr.tid, zr.coord⟩ with | some key => (s.frame cl key).ver == zr.ver | none => false
        let st := if zr.st == .valid && !held then .stale else zr.st
        (s.updCore k (fun c =>
          { c with regs := { c.regs with zv := (upFrom 0 8192).foldl (fun m i =>
              mset m (z * 8192 + i) (BitVec.ofNat 32 (ofBytes ((img.drop (4 * i)).take 4))) 0) c.regs.zv } }.setZrec z { zr with st := st }),
          0, none) }

def zinvSem (mask k : Nat) : CmdSem :=
  { effect := coreEff k (fun c => (((upFrom 0 16).filter (fun n => bitOf mask n)).foldl
      (fun c n => c.setZrec n { c.zrec n with st := .empty }) c, 0)) }

def cbldSem (w cnt k : Nat) (x : Cmd) : CmdSem :=
  let a := nth x.args 0 0
  { check := fun s => if a % 16 != 0 then some ⟨fcAlign, 0, a⟩ else s.engFault k x.part a (Nat.max 1 (16 * cnt)) accR
    uses := fun _ => [(a, 16 * cnt, accR)]
    effect := fun s =>
      let l := s.engRead k x.part a (16 * cnt)
      coreEff k (fun c =>
        let regs := { c.regs with
          w := (upFrom 0 (4 * cnt)).foldl (fun m i => mput m (w * 64 + i) (BitVec.ofNat 32 (ofBytes ((l.drop (4 * i)).take 4)))) c.regs.w,
          wcnt := mput c.regs.wcnt w cnt,
          zr := c.regs.zr.map (fun e => if e.2.st == .valid && e.2.mode == 1 && e.2.cb == w then (e.1, { e.2 with st := .stale }) else e) }
        ({ c with regs := regs }, 0)) s }

/-! ## The M slot -/

def semMma (e : Edge) (d qa qb sa ta tb z kb0 kbn pa pb : Nat) (s : State) : SlotEff :=
  engineSlot s (.mma ⟨0, 0⟩ e d qa qb sa ta tb z kb0 kbn pa pb) e [if sa == 1 then 0 else s.me.qn qa, s.me.qn qb] false

/-- MMA alone in its bundle. -/
def execMma (gd : Guard) (e : Edge) (d qa qb sa ta tb z kb0 kbn pa pb : Nat) (s : State) : Res :=
  runSole (.mma gd e d qa qb sa ta tb z kb0 kbn pa pb) (semMma e d qa qb sa ta tb z kb0 kbn pa pb) s

def semMzero (e : Edge) (mask : Nat) (s : State) : SlotEff := engineSlot s (.mzero ⟨0, 0⟩ e mask) e [] false

/-- MZERO alone in its bundle. -/
def execMzero (gd : Guard) (e : Edge) (mask : Nat) (s : State) : Res :=
  runSole (.mzero gd e mask) (semMzero e mask) s

def semMlda (e : Edge) (d q t part : Nat) (s : State) : SlotEff := engineSlot s (.mlda ⟨0, 0⟩ e d q t part) e [s.me.qn q] false

/-- MLDA alone in its bundle. -/
def execMlda (gd : Guard) (e : Edge) (d q t part : Nat) (s : State) : Res :=
  runSole (.mlda gd e d q t part) (semMlda e d q t part) s

def semMsta (e : Edge) (d q t part rm dist : Nat) (s : State) : SlotEff :=
  engineSlot s (.msta ⟨0, 0⟩ e d q t part rm dist) e [s.me.qn q] false

/-- MSTA alone in its bundle. -/
def execMsta (gd : Guard) (e : Edge) (d q t part rm dist : Nat) (s : State) : Res :=
  runSole (.msta gd e d q t part rm dist) (semMsta e d q t part rm dist) s

def semMsclFill (e : Edge) (d gs : Nat) (s : State) : SlotEff := engineSlot s (.msclFill ⟨0, 0⟩ e d gs) e [s.me.gn gs] false

/-- MSCL_FILL alone in its bundle. -/
def execMsclFill (gd : Guard) (e : Edge) (d gs : Nat) (s : State) : Res :=
  runSole (.msclFill gd e d gs) (semMsclFill e d gs) s

def semMsclDiag (e : Edge) (d gs : Nat) (s : State) : SlotEff := engineSlot s (.msclDiag ⟨0, 0⟩ e d gs) e [s.me.gn gs] false

/-- MSCL_DIAG alone in its bundle. -/
def execMsclDiag (gd : Guard) (e : Edge) (d gs : Nat) (s : State) : Res :=
  runSole (.msclDiag gd e d gs) (semMsclDiag e d gs) s

def semMsclMul (e : Edge) (d gs : Nat) (s : State) : SlotEff := engineSlot s (.msclMul ⟨0, 0⟩ e d gs) e [s.me.gn gs] false

/-- MSCL_MUL alone in its bundle. -/
def execMsclMul (gd : Guard) (e : Edge) (d gs : Nat) (s : State) : Res :=
  runSole (.msclMul gd e d gs) (semMsclMul e d gs) s

def semMtriLi (e : Edge) (d gs one : Nat) (s : State) : SlotEff := engineSlot s (.mtriLi ⟨0, 0⟩ e d gs one) e [s.me.gn gs] false

/-- MTRI_LI alone in its bundle. -/
def execMtriLi (gd : Guard) (e : Edge) (d gs one : Nat) (s : State) : Res :=
  runSole (.mtriLi gd e d gs one) (semMtriLi e d gs one) s

def semMtriLs (e : Edge) (d gs one : Nat) (s : State) : SlotEff := engineSlot s (.mtriLs ⟨0, 0⟩ e d gs one) e [s.me.gn gs] false

/-- MTRI_LS alone in its bundle. -/
def execMtriLs (gd : Guard) (e : Edge) (d gs one : Nat) (s : State) : Res :=
  runSole (.mtriLs gd e d gs one) (semMtriLs e d gs one) s

def semMtriUi (e : Edge) (d gs one : Nat) (s : State) : SlotEff := engineSlot s (.mtriUi ⟨0, 0⟩ e d gs one) e [s.me.gn gs] false

/-- MTRI_UI alone in its bundle. -/
def execMtriUi (gd : Guard) (e : Edge) (d gs one : Nat) (s : State) : Res :=
  runSole (.mtriUi gd e d gs one) (semMtriUi e d gs one) s

def semMtriUs (e : Edge) (d gs one : Nat) (s : State) : SlotEff := engineSlot s (.mtriUs ⟨0, 0⟩ e d gs one) e [s.me.gn gs] false

/-- MTRI_US alone in its bundle. -/
def execMtriUs (gd : Guard) (e : Edge) (d gs one : Nat) (s : State) : Res :=
  runSole (.mtriUs gd e d gs one) (semMtriUs e d gs one) s

def semTbuild (e : Edge) (z q p kb mode w : Nat) (s : State) : SlotEff :=
  engineSlot s (.tbuild ⟨0, 0⟩ e z q p kb mode w) e [s.me.qn q] false

/-- TBUILD alone in its bundle. -/
def execTbuild (gd : Guard) (e : Edge) (z q p kb mode w : Nat) (s : State) : Res :=
  runSole (.tbuild gd e z q p kb mode w) (semTbuild e z q p kb mode w) s

def semTlook (e : Edge) (d z q wkb cst cnm1 pm : Nat) (s : State) : SlotEff :=
  engineSlot s (.tlook ⟨0, 0⟩ e d z q wkb cst cnm1 pm) e [s.me.qn q] false

/-- TLOOK alone in its bundle. -/
def execTlook (gd : Guard) (e : Edge) (d z q wkb cst cnm1 pm : Nat) (s : State) : Res :=
  runSole (.tlook gd e d z q wkb cst cnm1 pm) (semTlook e d z q wkb cst cnm1 pm) s

def semTlookR (e : Edge) (d z q wkb cst cnm1 pm : Nat) (s : State) : SlotEff :=
  engineSlot s (.tlookR ⟨0, 0⟩ e d z q wkb cst cnm1 pm) e [s.me.qn q] false

/-- TLOOK_R alone in its bundle. -/
def execTlookR (gd : Guard) (e : Edge) (d z q wkb cst cnm1 pm : Nat) (s : State) : Res :=
  runSole (.tlookR gd e d z q wkb cst cnm1 pm) (semTlookR e d z q wkb cst cnm1 pm) s

def semZsave (e : Edge) (z f q gs : Nat) (s : State) : SlotEff :=
  engineSlot s (.zsave ⟨0, 0⟩ e z f q gs) e [if f == 1 then s.me.qn q else s.me.gn gs] false

/-- ZSAVE alone in its bundle. -/
def execZsave (gd : Guard) (e : Edge) (z f q gs : Nat) (s : State) : Res :=
  runSole (.zsave gd e z f q gs) (semZsave e z f q gs) s

def semZload (e : Edge) (z f q gs : Nat) (s : State) : SlotEff :=
  engineSlot s (.zload ⟨0, 0⟩ e z f q gs) e [if f == 1 then s.me.qn q else s.me.gn gs] false

/-- ZLOAD alone in its bundle. -/
def execZload (gd : Guard) (e : Edge) (z f q gs : Nat) (s : State) : Res :=
  runSole (.zload gd e z f q gs) (semZload e z f q gs) s

def semZinv (e : Edge) (mask : Nat) (s : State) : SlotEff := engineSlot s (.zinv ⟨0, 0⟩ e mask) e [] false

/-- ZINV alone in its bundle. -/
def execZinv (gd : Guard) (e : Edge) (mask : Nat) (s : State) : Res :=
  runSole (.zinv gd e mask) (semZinv e mask) s

def semCbld (e : Edge) (w gs cnt : Nat) (s : State) : SlotEff := engineSlot s (.cbld ⟨0, 0⟩ e w gs cnt) e [s.me.gn gs] false

/-- CBLD alone in its bundle. -/
def execCbld (gd : Guard) (e : Edge) (w gs cnt : Nat) (s : State) : Res :=
  runSole (.cbld gd e w gs cnt) (semCbld e w gs cnt) s

/-! ## ZCHK (R338) -/

def semZchk (d a : Nat) (s : State) : SlotEff := pRes s.me d ((s.me.zrec a).st == .valid)

/-- ZCHK alone in its bundle. -/
def execZchk (gd : Guard) (d a : Nat) (s : State) : Res :=
  runSole (.zchk gd d a) (semZchk d a) s

def semZchkM (d a b : Nat) (s : State) : SlotEff :=
  let z := s.me.zrec a
  pRes s.me d (z.st == .valid && z.tid * 2 ^ 44 + z.coord == s.me.qn b)

/-- ZCHK_M alone in its bundle. -/
def execZchkM (gd : Guard) (d a b : Nat) (s : State) : Res :=
  runSole (.zchkM gd d a b) (semZchkM d a b) s

/-! ## Conflicts (R176) -/

/-- The accumulators, table registers and codebooks, numbered from 0, 8 and 24, that an M command reads, and those that it writes. A lookup
may read any codebook. -/
def meUse (i : Instr) : List Nat × List Nat :=
  let ones (off m n : Nat) : List Nat := ((upFrom 0 n).filter (fun b => bitOf m b)).map (· + off)
  match i with
  | .mma _ _ d qa _ sa _ _ z _ _ _ _ => ((if z == 1 then [] else [d]) ++ (if sa == 1 then [qa % 8] else []), [d])
  | .mzero _ _ mask => ([], ones 0 mask 8)
  | .mlda _ _ d _ _ _ => ([], [d])
  | .msta _ _ d _ _ _ _ _ => ([d], [])
  | .msclFill _ _ d _ => ([], [d])
  | .msclDiag _ _ d _ => ([], [d])
  | .msclMul _ _ d _ => ([d], [d])
  | .mtriLi _ _ d _ _ => ([], [d])
  | .mtriLs _ _ d _ _ => ([], [d])
  | .mtriUi _ _ d _ _ => ([], [d])
  | .mtriUs _ _ d _ _ => ([], [d])
  | .tbuild _ _ z _ _ _ mode w => (if mode == 1 then [24 + w] else [], [8 + z])
  | .tlook _ _ d z _ _ _ _ _ => ([d, 8 + z, 24, 25, 26, 27], [d])
  | .tlookR _ _ d z _ _ _ _ _ => ([d, 8 + z, 24, 25, 26, 27], [d, 8 + z])
  | .zsave _ _ z _ _ _ => ([8 + z], [])
  | .zload _ _ z _ _ _ => ([], [8 + z])
  | .zinv _ _ mask => ([], ones 8 mask 16)
  | .cbld _ _ w _ _ => ([], [24 + w])
  | _ => ([], [])
/-- Two commands conflict: one writes what the other reads or writes. -/
def conflict (i j : Instr) : Bool :=
  let a := meUse i
  let b := meUse j
  a.2.any (fun n => b.1.contains n || b.2.contains n) || a.1.any b.2.contains

/-- What each M command checks, names and does. -/
def mSem (i : Instr) (k : Nat) (x : Cmd) : CmdSem :=
  let g := nth x.args 0 0
  match i with
  | .mma _ _ d qa _ sa ta tb z kb0 kbn pa pb => mmaSem d qa sa ta tb z kb0 kbn pa pb k x
  | .mzero _ _ mask => mzeroSem mask k
  | .mlda _ _ d _ t part => mldaSem d t part k x
  | .msta _ _ d _ t part rm dist => mstaSem d t part rm dist k x
  | .msclFill _ _ d _ => constSem d g (fun _ _ => true) k
  | .msclDiag _ _ d _ => constSem d g (fun i j => i == j) k
  | .msclMul _ _ d _ => mulSem d g k
  | .mtriLi _ _ d _ one => constSem d (triArg one g) (fun i j => Nat.ble j i) k
  | .mtriLs _ _ d _ one => constSem d (triArg one g) (fun i j => Nat.blt j i) k
  | .mtriUi _ _ d _ one => constSem d (triArg one g) (fun i j => Nat.ble i j) k
  | .mtriUs _ _ d _ one => constSem d (triArg one g) (fun i j => Nat.blt i j) k
  | .tbuild _ _ z _ p kb mode w => tbuildSem z p kb mode w k x
  | .tlook _ _ d z _ wkb cst cnm1 pm => tlookSem d z wkb cst cnm1 pm k false x
  | .tlookR _ _ d z _ wkb cst cnm1 pm => tlookSem d z wkb cst cnm1 pm k true x
  | .zsave _ _ z f _ _ => zsaveSem z f k x
  | .zload _ _ z f _ _ => zloadSem z f k x
  | .zinv _ _ mask => zinvSem mask k
  | .cbld _ _ w _ cnt => cbldSem w cnt k x
  | _ => {}

end Sys2Proof.Machine
end

