-- ==== Sys2Proof/Machine/Copy.lean ====
section
/-! DEFINITION. The X-slot commands of the tile cache, the copy engine, the channel port and the descriptor unit (R201 to R203, R215,
R217, R252 to R261). -/

namespace Sys2Proof.Machine

/-! ## Names, pins and hints -/

/-- DESC_INVALID and INDEX_RANGE of the tiles a command names (R178). -/
def tilesBad (s : State) (l : List Tile) : Option FaultInfo :=
  firstOf (l.map (fun t => (!(s.desc t.part t.tid).v, fcDescInvalid, 1, t.q)) ++
    l.map (fun t => ((s.desc t.part t.tid).outside t, fcIndex, 1, t.q)))

/-- The frame that holds the tile, one whose lease has expired included. -/
def State.held (s : State) (cl : Nat) (t : Tile) : Option Nat :=
  (setFrames t).find? (fun k =>
    let f := s.frame cl k
    f.tile == t && (f.st == .clean || f.st == .dirty || f.st == .published || (f.st == .draining && f.why != .victim)))
/-- A frame of the cluster is FILLING, or being read out, for the tile. -/
def State.isFilling (s : State) (cl : Nat) (t : Tile) : Bool := (s.filling cl t).isSome
def State.isDraining (s : State) (cl : Nat) (t : Tile) : Bool :=
  (setFrames t).any (fun k => (s.frame cl k).tile == t && (s.frame cl k).st == .draining)

/-- The code object and the task of the running task of core k. -/
def State.code (s : State) (h : Nat) : Option Code := (s.codes.find? (fun e => e.1 == h)).map (fun e => e.2)
def State.gtask (s : State) (k : Nat) : GTask :=
  match s.code (s.core k).task.codeh with
  | none => ⟨0, 0, 0, 0, 0⟩
  | some c => nth c.tasks (s.core k).task.taskix ⟨0, 0, 0, 0, 0⟩

/-- PIN_LIMIT of a pin of core k on the tile (R201). -/
def State.pinFault (s : State) (k : Nat) (t : Tile) : Option FaultInfo :=
  let cl := clusterOf k
  let mine := (s.core k).pins
  let isPinned := match s.held cl t with | some key => (s.frame cl key).pin | none => false
  firstOf [(!isPinned && Nat.ble 12 (s.pinned cl (setFrames t)), fcPinLimit, 1, t.q),
    (!mine.contains t && Nat.ble (s.gtask k).pins mine.length, fcPinLimit, 2, t.q)]
/-- Core k's task pins a resident tile. -/
def State.addPin (s : State) (k : Nat) (t : Tile) : State :=
  match s.held (clusterOf k) t with
  | none => s
  | some key => (s.updFrame (clusterOf k) key (fun f => { f with pin := true })).updCore k (fun c =>
      if c.pins.contains t then c else { c with pins := c.pins ++ [t] })
/-- A task of the cluster, running or saved, holds a pin on the tile (R201, R306). -/
def State.pinHeld (s : State) (cl : Nat) (t : Tile) : Bool :=
  (coresOf cl).any (fun j => (s.core j).pins.contains t) || s.savedT.any (fun x => x.cl == cl && x.pins.contains t)
/-- Core k's task lets go of its pin; the frame stays pinned while another task of the cluster pins it. -/
def State.dropPin (s : State) (k : Nat) (t : Tile) : State :=
  let cl := clusterOf k
  let s := s.updCore k (fun c => { c with pins := c.pins.filter (fun u => u != t) })
  match s.held cl t with
  | none => s
  | some key => s.updFrame cl key (fun f => { f with pin := s.pinHeld cl t })
/-- Every pin of core k's task ends (R201). -/
def State.dropPins (s : State) (k : Nat) : State :=
  let cl := clusterOf k
  let s := s.updCore k (fun c => { c with wants := [] })
  -- an itinerary's fetch still under way pins nothing for the core's next task
  let s := s.updCluster cl (fun c => { c with frames := c.frames.map (fun e =>
    (e.1, if e.2.hcore == k then { e.2 with hints := setFld e.2.hints 0 1 0 } else e.2)) })
  (s.core k).pins.foldl (fun s t => s.dropPin k t) s
/-- LAST and STREAM set and cleared on a frame (R202): bits 1 and 2 of each hint field. -/
def Frame.hint (f : Frame) (set clr : Nat) : Frame :=
  { f with last := (f.last || bitOf set 1) && !bitOf clr 1, stream := (f.stream || bitOf set 2) && !bitOf clr 2 }
/-- The hints of a command on a tile of core k's cluster (R201, R202): the state, or PIN_LIMIT. A detached command's task runs no more, and
its pin is not taken. -/
def State.applyHints (s : State) (k : Nat) (x : Cmd) (t : Tile) (set clr : Nat) : State × Nat × Option FaultInfo :=
  let set := if x.save.isSome then setFld set 0 1 0 else set
  match (if bitOf set 0 then s.pinFault k t else none) with
  | some f => (s, 0, some f)
  | none =>
    let s := match s.held (clusterOf k) t with
      | none => s
      | some key => s.updFrame (clusterOf k) key (fun f => f.hint set clr)
    let s := if bitOf set 0 then s.addPin k t else s
    (if bitOf clr 0 then s.dropPin k t else s, 0, none)

/-! ## Itineraries (R203, R254) -/

/-- Tile n of an itinerary with its hints, none past the last (R203). -/
def itinTile (part : Nat) : List (Nat × Nat × Nat × Int × Nat) → Nat → Option (Tile × Nat)
  | [], _ => none
  | (q, count, axis, st, hints) :: t, n =>
    if Nat.blt n count then some ((tileOf part q).step axis ((n : Int) * st), hints) else itinTile part t (n - count)

/-- An itinerary fetch of one tile (R203): none for a resident or FILLING one, whose hints are then not touched (log entry 88); dropped
where it would fault. -/
def State.prefetch (s : State) (k : Nat) (t : Tile) (hints : Nat) : State :=
  let cl := clusterOf k
  let d := s.desc t.part t.tid
  if (s.hit cl t).isSome || s.isFilling cl t then s
  else if !d.v || d.outside t || (s.tileFault (1024 + cl) t.part accR (d.tileBytes t)).isSome then s.countEv (unitCluster cl) 0x27 t.part 1
  else match s.allocate cl t 0 4 with
    | none => s
    | some (s, key) => (s.updFrame cl key (fun f => { f with hints := hints, hcore := k, itin := true })).ask cl ⟨t, false, false⟩
/-- The requests of an armed slot from its position up to its look-ahead. -/
def State.lookAhead (s : State) (k : Nat) (part : Nat) (it : Itin) : State :=
  match s.code (s.core k).task.codeh with
  | none => s
  | some c => (upFrom it.pos it.depth).foldl (fun s n =>
      match itinTile part (nth c.itins it.ix []) n with
      | none => s
      | some (t, h) => s.prefetch k t h) s

/-! ## Tile-cache commands (R253, R254) -/

def tfetchSem (hint k : Nat) (x : Cmd) : CmdSem :=
  let t := tileOf x.part (nth x.args 0 0)
  { check := fun s => (tilesBad s [t]).or (if bitOf hint 0 && x.save.isNone then s.pinFault k t else none)
    needs := fun _ => [⟨t, false, false⟩]
    effect := fun s => s.applyHints k x t hint 0 }

def thintSem (set clr k : Nat) (x : Cmd) : CmdSem :=
  let t := tileOf x.part (nth x.args 0 0)
  { check := fun s => (tilesBad s [t]).or (if bitOf set 0 && x.save.isNone then s.pinFault k t else none)
    needs := fun _ => if bitOf set 0 then [⟨t, false, false⟩] else []
    touch := [t]
    effect := fun s => s.applyHints k x t set clr }

/-- TINV of one tile (R217, R253): a DIRTY frame is released, DIRTY and PUBLISHED ones are drained, a CLEAN one becomes INVALID, and
pins end. -/
def State.invTile (s : State) (k id : Nat) (t : Tile) : State :=
  let cl := clusterOf k
  let s := { s with savedT := s.savedT.map (fun x => if x.cl == cl then { x with pins := x.pins.filter (· != t) } else x) }
  let s := (coresOf cl).foldl (fun s j => s.dropPin j t) s
  match s.held cl t with
  | none => s
  | some key =>
    let f := s.frame cl key
    match f.st with
    | .dirty => ((s.giveLease cl f).send (.release cl t k id true f.ver)).setFrame cl key { f.drain .tinv with wasDirty := false, lexp := 0 }
    | .published => (s.giveLease cl f).setFrame cl key { f.drain .tinv with lexp := 0 }
    | .clean => s.dropFrame cl key
    | _ => s
/-- A release or data of the tile from the cluster are under way. -/
def State.outgoing (s : State) (cl : Nat) (t : Tile) : Bool :=
  s.msgs.any (fun m => match m with
    | .release c u _ _ _ _ => c == cl && u == t
    | .drainData c u _ _ _ _ _ => c == cl && u == t
    | .wbData c u _ _ _ _ _ _ => c == cl && u == t
    | _ => false)

def tinvSem (ax nm1 k : Nat) (x : Cmd) : CmdSem :=
  let ts := (upFrom 0 (nm1 + 1)).map (fun n => (tileOf x.part (nth x.args 0 0)).step ax (n : Nat))
  let cl := clusterOf k
  { check := fun s => tilesBad s ts
    touch := ts
    may := fun s => ts.all (fun t => !s.isFilling cl t && !s.isDraining cl t)
    start := fun s => ts.foldl (fun s t => s.invTile k x.id t) s
    done := fun s => ts.all (fun t => !s.isDraining cl t && !s.outgoing cl t) }

/-- The home of a tile is found by translating its first byte (R253). -/
def homeFault (s : State) (k : Nat) (t : Tile) : Option FaultInfo :=
  match s.xlate (1024 + clusterOf k) t.part ((s.desc t.part t.tid).firstByte t) accR with
  | .error e => some e
  | .ok _ => none

/-- The cluster's DIRTY frame of a tile. -/
def State.dirtyFrame (s : State) (cl : Nat) (t : Tile) : Option Nat :=
  match s.held cl t with
  | some key => if (s.frame cl key).st == .dirty then some key else none
  | none => none

def trelSem (k : Nat) (x : Cmd) : CmdSem :=
  let t := tileOf x.part (nth x.args 0 0)
  let cl := clusterOf k
  { check := fun s => (tilesBad s [t]).or (if (s.dirtyFrame cl t).isSome then none else homeFault s k t)
    touch := [t]
    may := fun s => !s.isDraining cl t && !s.isFilling cl t
    start := fun s => match s.dirtyFrame cl t with
      | some key =>
        (s.updFrame cl key (fun f => { f with st := .published })).send (.release cl t k x.id true (s.frame cl key).ver)
      | none => s.send (.release cl t k x.id false 0)
    done := fun s => match (s.core k).cmd x.id with | some y => y.ready | none => true }

def tacqSem (ver k : Nat) (x : Cmd) : CmdSem :=
  let t := tileOf x.part (nth x.args 0 0)
  { check := fun s => (tilesBad s [t]).or (homeFault s k t)
    touch := [t]
    may := fun s => !s.isFilling (clusterOf k) t
    start := fun s => s.send (.tacq k x.id t ver s.dev.ptime.toNat)
    done := fun s => match (s.core k).cmd x.id with | some y => y.ready | none => true }

def itinSem (sl ix dm1 k : Nat) (x : Cmd) : CmdSem :=
  { effect := fun s =>
      match (s.launches.find? (fun e => e.1 == x.launch)).bind (fun e => s.code e.2.codeh) with
      | none => (s, 0, some ⟨fcIndex, 6, 0⟩)
      | some c =>
        if Nat.ble c.itins.length ix then (s, 0, some ⟨fcIndex, 6, 0⟩)
        else
          let it : Itin := ⟨ix, 0, dm1 + 1⟩
          if x.save.isSome then (s, 0, none)
          else ((s.updCore k (fun c => { c with itin := mput c.itin sl it })).lookAhead k x.part it, 0, none) }

/-- ITSTEP: the name of the tile at the position goes to q[q] at completion. -/
def itstepSem (sl q k : Nat) (x : Cmd) : CmdSem :=
  { effect := fun s =>
      match ((s.core k).itin.find? (fun e => e.1 == sl)), s.code (s.core k).task.codeh with
      | some (_, it), some c =>
        let wr (s : State) (v : Nat) : State := s.updCore k (fun c => if c.run == .aborting then c else c.arrive (.q q) v)
        (match itinTile x.part (nth c.itins it.ix []) it.pos with
        | none => (wr s 0, 0, none)
        | some (t, _) =>
          let it : Itin := { it with pos := it.pos + 1 }
          (((wr s t.q).updCore k (fun c => { c with itin := mput c.itin sl it })).lookAhead k x.part it, 0, none))
      | _, _ => (s, 0, some ⟨fcIndex, 6, 0⟩) }

/-! ## Copies (R255) -/

/-- Data and sidecar bytes of a frame that its format uses (R212), for a raw copy. -/
def rawCopy (d : Desc) (m : SMap Byte) : SMap Byte := m.filter (fun e => Nat.blt e.1 (16384 + d.sideB))
/-- Elements copied to the places that g gives, with their headers in block order when withHdr. -/
def moveElems (ds dd : Desc) (m : SMap Byte) (g : Nat → Nat → Nat × Nat) (withHdr : Bool) : SMap Byte :=
  let base := if withHdr then m.filter (fun e => Nat.ble 16384 e.1 && Nat.blt e.1 (16384 + ds.sideB)) else []
  (upFrom 0 ds.r).foldl (fun o i => (upFrom 0 ds.e).foldl (fun o j =>
    let p := g i j
    setFrameBits o (dd.elPos p.1 p.2) dd.elW (ds.elRaw m i j)) o) base
/-- Whole tile t is written by command x of core k, with its staleness events (R344). -/
def State.putTile (s : State) (k : Nat) (x : Cmd) (t : Tile) (m : SMap Byte) : State :=
  let cl := clusterOf k
  let d := x.desc s t.tid
  (s.putFrame cl t (clearRecord d m) (x.writes t)).staleRect cl t 0 d.r 0 d.e
/-- A weight-code tile of another shape than r = 64, in a command that reads it (R328). -/
def codeShape (d : Desc) (t : Tile) : Bool × Nat × Nat × Nat := (d.wsel != 0 && d.shape != 2, fcFormat, 3, t.q)
/-- Not write-enabled (R178). -/
def notWe (s : State) (t : Tile) : Option FaultInfo := firstOf [(!(s.desc t.part t.tid).we, fcPerm, 3, t.q)]

def tcopySem (tr k : Nat) (x : Cmd) : CmdSem :=
  let t := tileOf x.part (nth x.args 0 0)
  let u := tileOf x.part (nth x.args 1 0)
  { check := fun s =>
      let ds := s.desc t.part t.tid
      let dd := s.desc u.part u.tid
      (firstOf [(!ds.v, fcDescInvalid, 1, t.q), (!dd.v, fcDescInvalid, 1, u.q), (ds.fmt != dd.fmt, fcFormat, 1, u.q),
        (ds.wsel != dd.wsel || ds.sgn != dd.sgn || ds.ncp != dd.ncp, fcFormat, 6, u.q),
        (tr == 1 && ds.wsel != 0, fcFormat, 6, t.q), (tr == 1 && ds.scaled, fcFormat, 1, t.q), codeShape ds t,
        (tr == 1 && (dd.r != ds.e || dd.e != ds.r), fcFormat, 3, u.q),
        (tr == 0 && ds.shape != dd.shape && ds.scaled && (ds.ax == 1 || dd.ax == 1), fcFormat, 3, u.q)]).or
      (((firstOf [(ds.outside t, fcIndex, 1, t.q), (dd.outside u, fcIndex, 1, u.q)]).or (notWe s u)))
    needs := fun _ => [⟨t, false, false⟩, ⟨u, true, true⟩]
    wr := fun _ => [(u, wholeFrame)]
    effect := fun s =>
      let ds := x.desc s t.tid
      let dd := x.desc s u.tid
      let m := (x.tile t).2
      let o := if tr == 1 then moveElems ds dd m (fun i j => (j, i)) false
        else if ds.shape == dd.shape || ds.wsel != 0 then rawCopy ds m
        else moveElems ds dd m (fun i j => let n := i * ds.e + j; (n / dd.e, n % dd.e)) ds.scaled
      (s.putTile k x u o, 0, none) }

/-- Data bytes of a tile in frame order, then its sidecar bytes used (R255). -/
def tileImage (d : Desc) (m : SMap Byte) : List Byte :=
  (upFrom 0 d.r).flatMap (fun i => mgetBytes m (i * d.rowB) (d.dataB / d.r)) ++ mgetBytes m 16384 d.sideB

def tcopyMemSem (k : Nat) (x : Cmd) : CmdSem :=
  let t := tileOf x.part (nth x.args 0 0)
  let a := nth x.args 1 0
  { check := fun s =>
      let d := s.desc t.part t.tid
      firstOf [(!d.v, fcDescInvalid, 1, t.q), codeShape d t, (d.outside t, fcIndex, 1, t.q)]
    needs := fun _ => [⟨t, false, false⟩]
    begins := fun s =>
      let d := s.desc t.part t.tid
      if a % 64 != 0 then some ⟨fcAlign, 0, a⟩ else s.engFault k x.part a (d.dataB + d.sideB) accW
    uses := fun s => let d := s.desc t.part t.tid; [(a, d.dataB + d.sideB, accW)]
    effect := fun s => (s.engWrite k x.part a (tileImage (x.desc s t.tid) (x.tile t).2), 0, none) }

/-! ## Reductions (R256) -/

/-- Formats a reduction operator takes, by format code. -/
def redFmt (op fmt : Nat) : Bool :=
  fmt == 5 || fmt == 6 || fmt == 15 || (Nat.blt op 3 && Nat.blt fmt 3)
/-- Destination element reduced with a source element; FP flags are not raised. -/
def redNew (op fmt w old x : Nat) : Nat :=
  if Nat.blt fmt 3 then
    (match op with
      | 0 => (fAdd fmt rne old x).1
      | 1 => (fMinMax fmt false old x).1
      | _ => (fMinMax fmt true old x).1)
  else
    let lt (a b : Nat) : Bool := if fmt == 6 then Nat.blt a b else decide (sext a w < sext b w)
    match op with
    | 0 => (old + x) % 2 ^ w
    | 1 => if lt x old then x else old
    | 2 => if lt old x then x else old
    | 3 => Nat.land old x
    | 4 => Nat.lor old x
    | _ => Nat.xor old x

/-- What the translation of a TRED's destination meets (R256): each byte within the extents needs W and a slice of this device or host
memory; no rule lets reductions reach another device, and none gives a target that is none (log entry 89). -/
def State.reduceFault (s : State) (who : Nat) (u : Tile) : Option FaultInfo :=
  ((s.desc u.part u.tid).tileBytes u).findSome? (fun b => match s.xlate who u.part b.gva accW with
    | .error e => some e
    | .ok r => match paKind r.pa with
      | .localHbm => none
      | .host => none
      | _ => some ⟨fcPerm, 2, b.gva⟩)

/-- TRED (R256): the issuing cluster's own frame of the destination is drained, released first when it is DIRTY as TINV releases it, and goes. -/
def tredSem (op k : Nat) (x : Cmd) : CmdSem :=
  let t := tileOf x.part (nth x.args 0 0)
  let u := tileOf x.part (nth x.args 1 0)
  let cl := clusterOf k
  { check := fun s =>
      let ds := s.desc t.part t.tid
      let dd := s.desc u.part u.tid
      (firstOf [(!ds.v, fcDescInvalid, 1, t.q), (!dd.v, fcDescInvalid, 1, u.q),
        (ds.wsel != 0 || dd.wsel != 0 || ds.fmt != dd.fmt || !redFmt op ds.fmt, fcFormat, 1, u.q),
        (ds.shape != dd.shape, fcFormat, 3, u.q), (x.repro && Nat.blt ds.fmt 3, fcFormat, 7, u.q)]).or
      ((firstOf [(ds.outside t, fcIndex, 1, t.q), (dd.outside u, fcIndex, 1, u.q)]).or (notWe s u))
    needs := fun _ => [⟨t, false, false⟩]
    begins := fun s => s.reduceFault (1024 + cl) u
    tids := fun _ => [u.tid]
    touch := [u]
    may := fun s => !s.isFilling cl u && !s.isDraining cl u
    start := fun s =>
      let data := match s.snapshot cl [⟨t, false, false⟩] with | e :: _ => e.2.2 | [] => []
      let s := match s.held cl u with
        | none => s.staleIf cl u.part (fun z => z.names u)
        | some key =>
          let f := s.frame cl key
          if f.st == FrSt.dirty then
            { (s.send (.release cl u k s.clock true f.ver)) with clock := s.clock + 1 }.setFrame cl key { f.drain .tred with wasDirty := false }
          else if f.st == FrSt.published then s.setFrame cl key (f.drain .tred)
          else (s.dropFrame cl key).staleIf cl u.part (fun z => z.names u)
      s.send (.reduce k x.id u op data)
    done := fun s => match (s.core k).cmd x.id with | some y => y.ready | none => true }

/-! ## Gather and scatter of rows (R257, R258) -/

/-- The index list of n signed 32-bit values. -/
def State.indices (s : State) (k part a n : Nat) : List Int :=
  let l := s.engRead k part a (4 * n)
  (upFrom 0 n).map (fun i => sext (ofBytes ((l.drop (4 * i)).take 4)) 32)
/-- Common checks of TGATH and TSCAT: source t, destination u, n rows of at most r. -/
def rowsCheck (s : State) (t u : Tile) (n r : Nat) (shapes : Bool) : Option FaultInfo :=
  let ds := s.desc t.part t.tid
  let dd := s.desc u.part u.tid
  (firstOf [(!ds.v, fcDescInvalid, 1, t.q), (!dd.v, fcDescInvalid, 1, u.q), (ds.wsel != 0 || dd.wsel != 0, fcFormat, 6, t.q),
    (ds.fmt != dd.fmt, fcFormat, 1, u.q), (ds.scaled && (ds.ax == 1 || dd.ax == 1), fcFormat, 1, t.q),
    (shapes && ds.shape != dd.shape, fcFormat, 3, u.q)]).or
  ((firstOf [(ds.outside t, fcIndex, 1, t.q), (dd.outside u, fcIndex, 1, u.q), (Nat.blt r n, fcIndex, 7, u.q)]).or (notWe s u))
/-- Bytes that hold one element of a source row: address and the bit position in them. -/
def Desc.rowEl (d : Desc) (i0 i1 i2 i3 : Nat) : Nat × Nat :=
  if d.packed then
    let b := i0 * fmtElBits d.fmt
    (wrap64 (d.rowAddr i1 i2 i3 + (b / 8 : Nat)), b % 8)
  else (d.elAddr i0 i1 i2 i3, 0)
/-- The fault a gather of these rows meets: the first byte of the row in FLTADDR (R408). -/
def rowsFault (s : State) (k : Nat) (part : Nat) (d : Desc) (t : Tile) (n : Nat) (idx : List Int) : Option FaultInfo :=
  idx.findSome? (fun (i : Int) =>
    if i < 0 then none
    else
      let bytes (a len : Nat) : Option FaultInfo :=
        match s.engFault k part a len accR with
        | none => none
        | some f => some (if s.pageMiss part f then f else { f with addr := (d.rowEl (d.e * t.c 0) i.toNat (t.c 2) (t.c 3)).1 })
      (upFrom 0 n).findSome? (fun j =>
        let p := d.rowEl (d.e * t.c 0 + j) i.toNat (t.c 2) (t.c 3)
        (bytes p.1 ((p.2 + fmtElBits d.fmt + 7) / 8)).or
          (if d.hsz != 0 && j % 32 == 0 then bytes (d.hdrAddr [(d.e * t.c 0 + j) / 32, i.toNat, t.c 2, t.c 3]) d.hsz else none)))
/-- FLTADDR of a refused TGATH (R408): element 0 of the lowest row whose translation fails. -/
def State.gatherRefused (s : State) (k : Nat) (x : Cmd) (nm1 : Nat) : Option Nat :=
  let u := tileOf x.part (nth x.args 0 0)
  let t := tileOf x.part (nth x.args 1 0)
  let d := s.desc t.part t.tid
  let n := Nat.min (s.desc u.part u.tid).e (nth d.ext 0 0 - d.e * t.c 0)
  if (s.engFault k x.part (nth x.args 2 0) (4 * (nm1 + 1)) accR).isSome then none
  else ((s.indices k x.part (nth x.args 2 0) (nm1 + 1)).find? (fun i => (rowsFault s k x.part d t n [i]).isSome)).map
    (fun i => (d.rowEl (d.e * t.c 0) i.toNat (t.c 2) (t.c 3)).1)
/-- Elements and headers of the gathered rows in the frame of the destination (R190, R257). -/
def gatherRows (s : State) (k : Nat) (part : Nat) (ds dd : Desc) (t : Tile) (idx : List Int) (m : SMap Byte) : SMap Byte :=
  let n := Nat.min dd.e (nth ds.ext 0 0 - ds.e * t.c 0)
  ((upFrom 0 idx.length).zip idx).foldl (fun m (i, ix) =>
    let m := (upFrom 0 dd.e).foldl (fun m j =>
      let p := ds.rowEl (ds.e * t.c 0 + j) ix.toNat (t.c 2) (t.c 3)
      let v := if ix < 0 || Nat.ble n j then 0
        else fld (ofBytes (s.engRead k part p.1 ((p.2 + dd.elW + 7) / 8))) p.2 dd.elW
      setFrameBits m (dd.elPos i j) dd.elW v) m
    if dd.hsz == 0 then m
    else (upFrom 0 (dd.e / 32)).foldl (fun m b =>
      let h := if ix < 0 || Nat.ble n (32 * b) then 0
        else ofBytes (s.engRead k part (ds.hdrAddr [ds.e * t.c 0 / 32 + b, ix.toNat, t.c 2, t.c 3]) ds.hsz)
      msetBytes m (dd.hdrOff i (32 * b)) (toBytes dd.hsz h)) m) m

/-- The source bytes of gathered rows, as ranges of memory. -/
def gatherUses (ds dd : Desc) (t : Tile) (idx : List Int) : List (Nat × Nat × Nat) :=
  let n := Nat.min dd.e (nth ds.ext 0 0 - ds.e * t.c 0)
  (idx.filter (fun i => 0 ≤ i)).flatMap (fun i =>
    (upFrom 0 n).map (fun j => let p := ds.rowEl (ds.e * t.c 0 + j) i.toNat (t.c 2) (t.c 3); (p.1, (p.2 + dd.elW + 7) / 8, accR)) ++
      if dd.hsz == 0 then []
      else (upFrom 0 (cdiv n 32)).map (fun b => (ds.hdrAddr [ds.e * t.c 0 / 32 + b, i.toNat, t.c 2, t.c 3], ds.hsz, accR)))

/-- Frame bytes given as a list of offsets, each with its byte. -/
def bytePairs : List Nat → SMap Byte → SMap Byte
  | o :: b :: t, m => bytePairs t (mset m o (BitVec.ofNat 8 b) 0)
  | _, m => m
/-- The bits of rows of a frame, their headers and an FP32 tile's record among them. -/
def Desc.rowBits (d : Desc) (rows : List Nat) : List (Nat × Nat) :=
  rows.flatMap (fun i => (8 * (i * d.rowB), 8 * d.rowB) :: (if d.hsz == 0 then [] else [(8 * d.hdrOff i 0, 8 * (d.hsz * (d.e / 32)))])) ++
    (if d.fmt == 0 && d.wsel == 0 then [(131072, 128)] else [])

def tgathSem (nm1 k : Nat) (x : Cmd) : CmdSem :=
  let u := tileOf x.part (nth x.args 0 0)
  let t := tileOf x.part (nth x.args 1 0)
  let a := nth x.args 2 0
  let n := nm1 + 1
  let lens (s : State) : Nat :=
    Nat.min (s.desc u.part u.tid).e (nth (s.desc t.part t.tid).ext 0 0 - (s.desc t.part t.tid).e * t.c 0)
  { check := fun s => rowsCheck s t u n (s.desc u.part u.tid).r false
    needs := fun s => [⟨u, true, n == (s.desc u.part u.tid).r⟩]
    wr := fun s => [(u, (s.desc u.part u.tid).rowBits (upFrom 0 n))]
    uses := fun s => (a, 4 * n, accR) :: gatherUses (s.desc t.part t.tid) (s.desc u.part u.tid) t (s.indices k x.part a n)
    begins := fun s =>
      let ds := s.desc t.part t.tid
      if a % 4 != 0 then some ⟨fcAlign, 0, a⟩
      else (s.engFault k x.part a (4 * n) accR).or
        (let idx := s.indices k x.part a n
         if idx.any (fun i => i < -1 || ((nth ds.ext 1 0 : Nat) : Int) ≤ i) then some ⟨fcIndex, 7, u.q⟩
         else rowsFault s k x.part ds t (lens s) idx)
    record := fun s =>
      (gatherRows s k x.part (s.desc t.part t.tid) (s.desc u.part u.tid) t (s.indices k x.part a n) []).flatMap
        (fun e => [e.1, e.2.toNat])
    effect := fun s =>
      let cl := clusterOf k
      let d := x.desc s u.tid
      let keep := (s.frameData cl u).filter (fun e =>
        if Nat.blt e.1 16384 then Nat.ble n (e.1 / d.rowB) else d.hsz == 0 || Nat.ble n ((e.1 - 16384) / d.hsz / (d.e / 32)))
      ((s.putFrame cl u (clearRecord d (bytePairs x.res keep)) (x.writes u)).staleRect cl u 0 n 0 d.e, 0, none) }

/-- The rows of a scatter that have a destination, in order. -/
def scatRows (idx : List Nat) : List (Nat × Nat) := ((upFrom 0 idx.length).zip idx).filter (fun p => p.2 != 0xFFFFFFFF)

def tscatSem (nm1 k : Nat) (x : Cmd) : CmdSem :=
  let t := tileOf x.part (nth x.args 0 0)
  let u := tileOf x.part (nth x.args 1 0)
  let a := nth x.args 2 0
  let n := nm1 + 1
  { check := fun s => rowsCheck s t u n (s.desc t.part t.tid).r true
    needs := fun _ => [⟨t, false, false⟩, ⟨u, true, false⟩]
    begins := fun s =>
      if a % 4 != 0 then some ⟨fcAlign, 0, a⟩
      else (s.engFault k x.part a (4 * n) accR).or
        (if (s.indices k x.part a n).any (fun i => i < -1 || ((s.desc u.part u.tid).r : Int) ≤ i) then some ⟨fcIndex, 7, u.q⟩ else none)
    record := fun s => (s.indices k x.part a n).map (fun i => (i % 4294967296).toNat)
    uses := fun _ => [(a, 4 * n, accR)]
    wr := fun s => [(u, (s.desc u.part u.tid).rowBits (((s.indices k x.part a n).filter (fun i => 0 ≤ i)).map Int.toNat))]
    effect := fun s =>
      let cl := clusterOf k
      let d := x.desc s u.tid
      let src := (x.tile t).2
      let hb := if d.hsz == 0 then 0 else d.hsz * (d.e / 32)
      let m := (scatRows x.res).foldl (fun m p =>
        msetBytes (msetBytes m (p.2 * d.rowB) (mgetBytes src (p.1 * d.rowB) d.rowB)) (16384 + p.2 * hb) (mgetBytes src (16384 + p.1 * hb) hb))
        (s.frameData cl u)
      ((scatRows x.res).foldl (fun s p => s.staleRect cl u p.2 1 0 d.e) (s.putFrame cl u (clearRecord d m) (x.writes u)), 0, none) }

/-! ## Channels (R260, R261) -/

/-- The declaration of a channel of the launch's code object: slots, sender task, receiver task. -/
def State.chanDecl (s : State) (k ch : Nat) : Option (Nat × Nat × Nat) :=
  match s.code (s.core k).task.codeh with
  | none => none
  | some c => (c.chans.drop ch).head?
/-- The ring of a channel, at its receiver's cluster. -/
def State.chan (s : State) (launch ch : Nat) : Option (Nat × Chan) :=
  s.clusters.findSome? (fun e => (e.2.chans.find? (fun c => c.launch == launch && c.ch == ch)).map (fun c => (e.1, c)))
def State.updChan (s : State) (launch ch : Nat) (f : Chan → Chan) : State :=
  { s with clusters := s.clusters.map (fun e =>
      (e.1, { e.2 with chans := e.2.chans.map (fun c => if c.launch == launch && c.ch == ch then f c else c) })) }
/-- Format and weight-code fields of a tile as a slot keeps them. -/
def Desc.slotFmt (d : Desc) : Nat := d.fmt + 16 * d.wsel + 128 * d.sgn.toNat + 256 * d.ncp.toNat

def chsendSem (ch k : Nat) (x : Cmd) : CmdSem :=
  let t := tileOf x.part (nth x.args 0 0)
  let ok (s : State) : Bool := match s.chanDecl k ch with | some (_, a, _) => a == (s.core k).task.taskix | none => false
  { check := fun s =>
      let d := s.desc t.part t.tid
      (firstOf [(!d.v, fcDescInvalid, 1, t.q), codeShape d t, (d.outside t, fcIndex, 1, t.q)]).or (if ok s then none else some ⟨fcPerm, 5, 0⟩)
    needs := fun _ => [⟨t, false, false⟩]
    may := fun s => !ok s || (match s.chan x.launch ch with | some (_, c) => Nat.blt (c.sent - c.recd) c.slots | none => false)
    effect := fun s =>
      let d := x.desc s t.tid
      (s.updChan x.launch ch (fun c =>
        { c with full := mput c.full (c.sent % c.slots) ⟨d.shape, d.slotFmt, (x.tile t).2⟩, sent := c.sent + 1 }), 0, none) }

def chrecvSem (ch k : Nat) (x : Cmd) : CmdSem :=
  let t := tileOf x.part (nth x.args 0 0)
  let ok (s : State) : Bool := match s.chanDecl k ch with | some (_, _, b) => b == (s.core k).task.taskix | none => false
  let slot (s : State) : Option ChanSlot := match s.chan x.launch ch with
    | some (_, c) => (c.full.find? (fun e => e.1 == c.recd % c.slots)).map (fun e => e.2)
    | none => none
  { check := fun s =>
      let d := s.desc t.part t.tid
      (firstOf [(!d.v, fcDescInvalid, 1, t.q)]).or
      ((match slot s with
        | some z => if ok s then firstOf [(z.fmt != d.slotFmt, fcFormat, 1, t.q), (z.shape != d.shape, fcFormat, 3, t.q)] else none
        | none => none).or
      ((firstOf [(d.outside t, fcIndex, 1, t.q)]).or ((notWe s t).or (if ok s then none else some ⟨fcPerm, 5, 0⟩))))
    needs := fun _ => [⟨t, true, true⟩]
    wr := fun _ => [(t, wholeFrame)]
    may := fun s => !ok s || (slot s).isSome
    effect := fun s => match slot s with
      | none => (s, 0, none)
      | some z =>
        ((s.updChan x.launch ch (fun c => { c with full := merase c.full (c.recd % c.slots), recd := c.recd + 1 })).putTile k x t z.data, 0, none) }

/-! ## DESC (R259) -/

def descSem (k : Nat) (x : Cmd) : CmdSem :=
  let tid := fld (nth x.args 0 0) 0 20
  let a := nth x.args 1 0
  { check := fun s => if a % 128 != 0 then some ⟨fcAlign, 0, a⟩ else s.engFault k x.part a 128 accR
    record := fun s => (s.engRead k x.part a 128).map (fun b => b.toNat)
    uses := fun _ => [(a, 128, accR)]
    effect := fun s =>
      let img := x.res.map (BitVec.ofNat 8)
      match descCheck img tid ((s.part x.part).fld 0x58 4) with
      | some (c, e) => (s, 0, some ⟨c, e, 0⟩)
      | none => (s.setDesc x.part tid img, 0, none) }

/-! ## The X slot -/

def semTfetch (e : Edge) (q hint : Nat) (s : State) : SlotEff := engineSlot s (.tfetch ⟨0, 0⟩ e q hint) e [s.me.qn q] false

/-- TFETCH alone in its bundle. -/
def execTfetch (gd : Guard) (e : Edge) (q hint : Nat) (s : State) : Res :=
  runSole (.tfetch gd e q hint) (semTfetch e q hint) s

def semThint (e : Edge) (q set clr : Nat) (s : State) : SlotEff := engineSlot s (.thint ⟨0, 0⟩ e q set clr) e [s.me.qn q] false

/-- THINT alone in its bundle. -/
def execThint (gd : Guard) (e : Edge) (q set clr : Nat) (s : State) : Res :=
  runSole (.thint gd e q set clr) (semThint e q set clr) s

def semTinv (e : Edge) (q ax nm1 : Nat) (s : State) : SlotEff := engineSlot s (.tinv ⟨0, 0⟩ e q ax nm1) e [s.me.qn q] false

/-- TINV alone in its bundle. -/
def execTinv (gd : Guard) (e : Edge) (q ax nm1 : Nat) (s : State) : Res :=
  runSole (.tinv gd e q ax nm1) (semTinv e q ax nm1) s

def semTcopy (e : Edge) (qs qd t : Nat) (s : State) : SlotEff :=
  engineSlot s (.tcopy ⟨0, 0⟩ e qs qd t) e [s.me.qn qs, s.me.qn qd] false

/-- TCOPY alone in its bundle. -/
def execTcopy (gd : Guard) (e : Edge) (qs qd t : Nat) (s : State) : Res :=
  runSole (.tcopy gd e qs qd t) (semTcopy e qs qd t) s

def semTcopyMem (e : Edge) (qs t gs : Nat) (s : State) : SlotEff :=
  engineSlot s (.tcopyMem ⟨0, 0⟩ e qs t gs) e [s.me.qn qs, s.me.gn gs] false

/-- TCOPY_MEM alone in its bundle. -/
def execTcopyMem (gd : Guard) (e : Edge) (qs t gs : Nat) (s : State) : Res :=
  runSole (.tcopyMem gd e qs t gs) (semTcopyMem e qs t gs) s

def semTred (e : Edge) (qs qd opr : Nat) (s : State) : SlotEff :=
  engineSlot s (.tred ⟨0, 0⟩ e qs qd opr) e [s.me.qn qs, s.me.qn qd] false

/-- TRED alone in its bundle. -/
def execTred (gd : Guard) (e : Edge) (qs qd opr : Nat) (s : State) : Res :=
  runSole (.tred gd e qs qd opr) (semTred e qs qd opr) s

def semTgath (e : Edge) (qd qs gs nm1 : Nat) (s : State) : SlotEff :=
  engineSlot s (.tgath ⟨0, 0⟩ e qd qs gs nm1) e [s.me.qn qd, s.me.qn qs, s.me.gn gs] false

/-- TGATH alone in its bundle. -/
def execTgath (gd : Guard) (e : Edge) (qd qs gs nm1 : Nat) (s : State) : Res :=
  runSole (.tgath gd e qd qs gs nm1) (semTgath e qd qs gs nm1) s

def semTscat (e : Edge) (qs qd gs nm1 : Nat) (s : State) : SlotEff :=
  engineSlot s (.tscat ⟨0, 0⟩ e qs qd gs nm1) e [s.me.qn qs, s.me.qn qd, s.me.gn gs] false

/-- TSCAT alone in its bundle. -/
def execTscat (gd : Guard) (e : Edge) (qs qd gs nm1 : Nat) (s : State) : Res :=
  runSole (.tscat gd e qs qd gs nm1) (semTscat e qs qd gs nm1) s

def semTacq (e : Edge) (q ver : Nat) (s : State) : SlotEff := engineSlot s (.tacq ⟨0, 0⟩ e q ver) e [s.me.qn q] false

/-- TACQ alone in its bundle. -/
def execTacq (gd : Guard) (e : Edge) (q ver : Nat) (s : State) : Res :=
  runSole (.tacq gd e q ver) (semTacq e q ver) s

def semTrel (e : Edge) (q : Nat) (s : State) : SlotEff := engineSlot s (.trel ⟨0, 0⟩ e q) e [s.me.qn q] false

/-- TREL alone in its bundle. -/
def execTrel (gd : Guard) (e : Edge) (q : Nat) (s : State) : Res :=
  runSole (.trel gd e q) (semTrel e q) s

def semItin (e : Edge) (s0 ix dm1 : Nat) (s : State) : SlotEff := engineSlot s (.itin ⟨0, 0⟩ e s0 ix dm1) e [] false

/-- ITIN alone in its bundle. -/
def execItin (gd : Guard) (e : Edge) (s0 ix dm1 : Nat) (s : State) : Res :=
  runSole (.itin gd e s0 ix dm1) (semItin e s0 ix dm1) s

def semItstep (e : Edge) (s0 q : Nat) (s : State) : SlotEff := engineSlot s (.itstep ⟨0, 0⟩ e s0 q) e [] false

/-- ITSTEP alone in its bundle. -/
def execItstep (gd : Guard) (e : Edge) (s0 q : Nat) (s : State) : Res :=
  runSole (.itstep gd e s0 q) (semItstep e s0 q) s

def semChsend (e : Edge) (ch q : Nat) (s : State) : SlotEff := engineSlot s (.chsend ⟨0, 0⟩ e ch q) e [s.me.qn q] false

/-- CHSEND alone in its bundle. -/
def execChsend (gd : Guard) (e : Edge) (ch q : Nat) (s : State) : Res :=
  runSole (.chsend gd e ch q) (semChsend e ch q) s

def semChrecv (e : Edge) (ch q : Nat) (s : State) : SlotEff := engineSlot s (.chrecv ⟨0, 0⟩ e ch q) e [s.me.qn q] false

/-- CHRECV alone in its bundle. -/
def execChrecv (gd : Guard) (e : Edge) (ch q : Nat) (s : State) : Res :=
  runSole (.chrecv gd e ch q) (semChrecv e ch q) s

def semDesc (e : Edge) (gt ga : Nat) (s : State) : SlotEff := engineSlot s (.desc ⟨0, 0⟩ e gt ga) e [s.me.gn gt, s.me.gn ga] false

/-- DESC alone in its bundle. -/
def execDesc (gd : Guard) (e : Edge) (gt ga : Nat) (s : State) : Res :=
  runSole (.desc gd e gt ga) (semDesc e gt ga) s

end Sys2Proof.Machine
end

