-- ==== Sys2Proof/Machine/Remote.lean ====
section
/-! DEFINITION. The X-slot commands of the fabric port (R263 to R265, R395) and of the task unit (R280), the broadcast counters' release
(R284), and the meaning of every engine command. -/

namespace Sys2Proof.Machine

/-! ## Fabric requests -/

/-- The request a command makes: 0 RLD, 1 RST, 2 RFAA, 3 RTDEC, 4 RFENCE, 5 and 6 RFENCE.F with a store or a decrement. -/
def fabricKind (i : Instr) : Option Nat :=
  match i with
  | .rld _ _ _ _ => some 0
  | .rst _ _ _ _ => some 1
  | .rfaa _ _ _ _ _ => some 2
  | .rtdec _ _ _ => some 3
  | .rfence _ _ _ => some 4
  | .rfenceFStore _ _ _ _ => some 5
  | .rfenceFDec _ _ _ => some 6
  | _ => none
/-- The offset of a physical address in its device's memory (R263). -/
def fabricOff (pa : Nat) : Nat := fld pa 0 39
/-- The core's requests to a device: each holds one of 8 slots (R265). -/
def Core.toDev (c : Core) (dev : Nat) : List Cmd :=
  c.cmds.filter (fun x => (fabricKind x.ins).isSome && fabricDev (nth x.args 0 0) == dev)
/-- Permission bits a request needs at its source (R263, R357) and at its target. -/
def fabricAcc (kind : Nat) : Nat := match kind with | 0 => accR | 1 => accW | 4 => 0 | _ => accR + accW

/-- A fabric slot: its address checks are synchronous (R263), and it waits for one of the 8 slots to its target (R265). -/
def fabricSlot (s : State) (i : Instr) (e : Edge) (a val : Nat) (hb : Bool) : SlotEff :=
  let c := s.me
  let part := c.csr.partid.toNat
  if a % 8 != 0 then { engineSlot s i e [a, val] hb with flt := some ⟨fcAlign, 0, a⟩ }
  else match s.xlate s.cur part a (fabricAcc ((fabricKind i).getD 0)) with
    | .error f => { engineSlot s i e [a, val] hb with flt := some f }
    | .ok r =>
      match paKind r.pa with
      | .remote =>
        let f := engineSlot s i e [r.pa, val] hb
        { f with wait := f.wait || Nat.ble 8 (c.toDev (fabricDev r.pa)).length, commit := fun s => f.commit (s.reXlate s.cur part a) }
      | _ => { engineSlot s i e [a, val] hb with flt := some ⟨fcPerm, 2, a⟩ }

/-- The device sends no request to the target (R395): it has no number, or no port leads there. -/
def State.noRoute (s : State) (dev : Nat) : Bool :=
  s.dev.fabid == 0x1FFF || (dev != s.dev.fabid && mget s.dev.route dev 0 == 0)

/-- The bucket a request draws on (R274): of the port it leaves by, chosen by its core among those of its route (R395), or at its own
device of its channel. -/
def State.fabBucket (s : State) (dev off k : Nat) : Nat :=
  if dev == s.dev.fabid then bucketOf off
  else
    s.portBucket dev k
/-- The bytes a request carries: eight, an RFENCE none (log entry 96). -/
def fabricBytes (kind : Nat) : Nat := if kind == 4 then 0 else 8

def fabricSem (kind k : Nat) (x : Cmd) (d : Option Nat) : CmdSem :=
  let pa := nth x.args 0 0
  let dev := fabricDev pa
  { check := fun s => if s.noRoute dev then some ⟨fcFabric, 0, 0⟩ else none
    may := fun s => (s.noRoute dev || 0 ≤ s.bucket x.part (s.fabBucket dev (fabricOff pa) k)) && ((s.core k).toDev dev).all (fun y =>
      Nat.ble x.id y.id || (nth y.args 0 0 / 8 != pa / 8 && Nat.ble kind 4 &&
        !(kind == 4 && (match fabricKind y.ins with | some n => Nat.ble 1 n && Nat.ble n 3 | none => false))))
    start := fun s =>
      let s := s.charge x.part (s.fabBucket dev (fabricOff pa) k) (fabricBytes kind)
      if dev == s.dev.fabid then s.send (.fabReq (some (k, x.id)) dev kind (fabricOff pa) (nth x.args 1 0))
      else (s.updCmd k x.id (fun y => { y with sentAt := s.dev.ptime.toNat })).emit
        (.fabric k x.id dev (s.portBucket dev k - 1) kind (fabricOff pa) (nth x.args 1 0))
    done := fun s => match (s.core k).cmd x.id with | some y => y.ready | none => true
    effect := fun s => match d with
      | none => (s, 0, none)
      | some n => (s.updCore k (fun c => if c.run == .aborting then c else c.arrive (.g n x.hb) (nth x.res 0 0)), 0, none) }

/-! ## The task unit -/

/-- A record address: aligned, readable and writable, in local memory (R280). -/
def recordFault (s : State) (k part a : Nat) : Option FaultInfo :=
  if a % 128 != 0 then some ⟨fcAlign, 0, a⟩
  else match s.xlate k part a (accR + accW) with
    | .error f => some f
    | .ok r => match paKind r.pa with | .localHbm => none | _ => some ⟨fcPerm, 7, a⟩
/-- Its physical address. -/
def recordPa (s : State) (k part a : Nat) : Nat := match s.xlate k part a (accR + accW) with | .ok r => r.pa | .error _ => 0

def tspawnSem (k : Nat) (x : Cmd) : CmdSem :=
  let a := nth x.args 0 0
  { check := fun s => recordFault s k x.part a
    start := fun s => s.send (.create (recordPa s k x.part a) a x.part x.launch k x.id)
    done := fun s => match (s.core k).cmd x.id with | some y => y.ready | none => true }

def tdecSem (k : Nat) (x : Cmd) : CmdSem :=
  let a := nth x.args 0 0
  { check := fun s => recordFault s k x.part a
    start := fun s => s.send (.decr true (recordPa s k x.part a) x.part (.cmd k x.id))
    done := fun s => match (s.core k).cmd x.id with | some y => y.ready | none => true }

def Bc.reset : Bc := ⟨0, 0, 0⟩
def State.bc (s : State) (n : Nat) : Bc := mget s.bcs n Bc.reset
/-- A release (R284): sent to every cluster of MASK; the epoch advances. -/
def State.release (s : State) (n : Nat) : State :=
  let b := s.bc n
  let s1 := ((upFrom 0 96).filter (fun c => bitOf b.mask c)).foldl (fun s c => s.send (.relMsg c n b.epoch)) s
  { s1 with bcs := mput s1.bcs n ⟨b.value, 0, (b.epoch + 1) % 256⟩ }
/-- INDEX_RANGE of a counter index (R280). -/
def ctrFault (p : Part) (ix : Nat) : Option FaultInfo :=
  if Nat.ble 4096 ix || Nat.ble (p.fld 0xA2 2) ix then some ⟨fcIndex, 5, 0⟩ else none
/-- The physical counter of an index (R282). -/
def Part.ctr (p : Part) (ix : Nat) : Nat := p.fld 0xA0 2 + ix

def tdecbSem (k : Nat) (x : Cmd) : CmdSem :=
  let ix := nth x.args 0 0
  { check := fun s => ctrFault (s.part x.part) ix
    start := fun s => s.send (.decr false ((s.part x.part).ctr ix) x.part (.cmd k x.id))
    done := fun s => match (s.core k).cmd x.id with | some y => y.ready | none => true }

def tdecbArmSem (x : Cmd) : CmdSem :=
  let ix := nth x.args 0 0
  { check := fun s => ctrFault (s.part x.part) ix
    effect := fun s =>
      let n := (s.part x.part).ctr ix
      let b := s.bc n
      if b.value != 0 then (s, 0, some ⟨fcIndex, 5, 0⟩)
      else
        let v := BitVec.ofNat 32 (nth x.args 1 0)
        let s := { s with bcs := mput s.bcs n { b with value := v } }
        (if v == 0 then s.release n else s, 0, none) }

/-! ## The X slot -/

def semRld (e : Edge) (d ga : Nat) (s : State) : SlotEff :=
  fabricSlot s (.rld ⟨0, 0⟩ e d ga) e (s.me.gn ga) 0 (s.me.bank d)

/-- RLD alone in its bundle. -/
def execRld (gd : Guard) (e : Edge) (d ga : Nat) (s : State) : Res :=
  runSole (.rld gd e d ga) (semRld e d ga) s

def semRst (e : Edge) (ga gs : Nat) (s : State) : SlotEff :=
  fabricSlot s (.rst ⟨0, 0⟩ e ga gs) e (s.me.gn ga) (s.me.gn gs) false

/-- RST alone in its bundle. -/
def execRst (gd : Guard) (e : Edge) (ga gs : Nat) (s : State) : Res :=
  runSole (.rst gd e ga gs) (semRst e ga gs) s

def semRfaa (e : Edge) (d ga gs : Nat) (s : State) : SlotEff :=
  fabricSlot s (.rfaa ⟨0, 0⟩ e d ga gs) e (s.me.gn ga) (s.me.gn gs) (s.me.bank d)

/-- RFAA alone in its bundle. -/
def execRfaa (gd : Guard) (e : Edge) (d ga gs : Nat) (s : State) : Res :=
  runSole (.rfaa gd e d ga gs) (semRfaa e d ga gs) s

def semRtdec (e : Edge) (ga : Nat) (s : State) : SlotEff :=
  fabricSlot s (.rtdec ⟨0, 0⟩ e ga) e (s.me.gn ga) 0 false

/-- RTDEC alone in its bundle. -/
def execRtdec (gd : Guard) (e : Edge) (ga : Nat) (s : State) : Res :=
  runSole (.rtdec gd e ga) (semRtdec e ga) s

def semRfence (e : Edge) (ga : Nat) (s : State) : SlotEff :=
  fabricSlot s (.rfence ⟨0, 0⟩ e ga) e (s.me.gn ga) 0 false

/-- RFENCE alone in its bundle. -/
def execRfence (gd : Guard) (e : Edge) (ga : Nat) (s : State) : Res :=
  runSole (.rfence gd e ga) (semRfence e ga) s

def semRfenceFStore (e : Edge) (ga gs : Nat) (s : State) : SlotEff :=
  fabricSlot s (.rfenceFStore ⟨0, 0⟩ e ga gs) e (s.me.gn ga) (s.me.gn gs) false

/-- RFENCE_F_STORE alone in its bundle. -/
def execRfenceFStore (gd : Guard) (e : Edge) (ga gs : Nat) (s : State) : Res :=
  runSole (.rfenceFStore gd e ga gs) (semRfenceFStore e ga gs) s

def semRfenceFDec (e : Edge) (ga : Nat) (s : State) : SlotEff :=
  fabricSlot s (.rfenceFDec ⟨0, 0⟩ e ga) e (s.me.gn ga) 0 false

/-- RFENCE_F_DEC alone in its bundle. -/
def execRfenceFDec (gd : Guard) (e : Edge) (ga : Nat) (s : State) : Res :=
  runSole (.rfenceFDec gd e ga) (semRfenceFDec e ga) s

def semTspawn (e : Edge) (ga : Nat) (s : State) : SlotEff := engineSlot s (.tspawn ⟨0, 0⟩ e ga) e [s.me.gn ga] false

/-- TSPAWN alone in its bundle. -/
def execTspawn (gd : Guard) (e : Edge) (ga : Nat) (s : State) : Res :=
  runSole (.tspawn gd e ga) (semTspawn e ga) s

def semTdec (e : Edge) (ga : Nat) (s : State) : SlotEff := engineSlot s (.tdec ⟨0, 0⟩ e ga) e [s.me.gn ga] false

/-- TDEC alone in its bundle. -/
def execTdec (gd : Guard) (e : Edge) (ga : Nat) (s : State) : Res :=
  runSole (.tdec gd e ga) (semTdec e ga) s

def semTdecb (e : Edge) (ga : Nat) (s : State) : SlotEff := engineSlot s (.tdecb ⟨0, 0⟩ e ga) e [s.me.gn ga] false

/-- TDECB alone in its bundle. -/
def execTdecb (gd : Guard) (e : Edge) (ga : Nat) (s : State) : Res :=
  runSole (.tdecb gd e ga) (semTdecb e ga) s

def semTdecbArm (e : Edge) (ga gs : Nat) (s : State) : SlotEff :=
  engineSlot s (.tdecbArm ⟨0, 0⟩ e ga gs) e [s.me.gn ga, s.me.gn gs] false

/-- TDECB_ARM alone in its bundle. -/
def execTdecbArm (gd : Guard) (e : Edge) (ga gs : Nat) (s : State) : Res :=
  runSole (.tdecbArm gd e ga gs) (semTdecbArm e ga gs) s

/-! ## Every engine command -/

/-- What each X command checks, names and does. -/
def xSem (i : Instr) (k : Nat) (x : Cmd) : CmdSem :=
  match i with
  | .tfetch _ _ _ hint => tfetchSem hint k x
  | .thint _ _ _ set clr => thintSem set clr k x
  | .tinv _ _ _ ax nm1 => tinvSem ax nm1 k x
  | .tcopy _ _ _ _ t => tcopySem t k x
  | .tcopyMem _ _ _ _ _ => tcopyMemSem k x
  | .tred _ _ _ _ op => tredSem op k x
  | .tgath _ _ _ _ _ nm1 => tgathSem nm1 k x
  | .tscat _ _ _ _ _ nm1 => tscatSem nm1 k x
  | .tacq _ _ _ ver => tacqSem ver k x
  | .trel _ _ _ => trelSem k x
  | .itin _ _ sl ix dm1 => itinSem sl ix dm1 k x
  | .itstep _ _ sl q => itstepSem sl q k x
  | .chsend _ _ ch _ => chsendSem ch k x
  | .chrecv _ _ ch _ => chrecvSem ch k x
  | .desc _ _ _ _ => descSem k x
  | .rld _ _ d _ => fabricSem 0 k x (some d)
  | .rst _ _ _ _ => fabricSem 1 k x none
  | .rfaa _ _ d _ _ => fabricSem 2 k x (some d)
  | .rtdec _ _ _ => fabricSem 3 k x none
  | .rfence _ _ _ => fabricSem 4 k x none
  | .rfenceFStore _ _ _ _ => fabricSem 5 k x none
  | .rfenceFDec _ _ _ => fabricSem 6 k x none
  | .tspawn _ _ _ => tspawnSem k x
  | .tdec _ _ _ => tdecSem k x
  | .tdecb _ _ _ => tdecbSem k x
  | .tdecbArm _ _ _ _ => tdecbArmSem x
  | _ => {}

/-- What an engine command of core k does. -/
def Cmd.sem (x : Cmd) (k : Nat) : CmdSem := if isM x.ins then mSem x.ins k x else xSem x.ins k x

/-- The executor of a command (R175, R248): 0 array, 1 accumulator port, 2 tile-cache control, 3 copy engine, 4 channel port,
5 descriptor unit, 6 fabric port, 7 task unit. -/
def executor (i : Instr) : Nat :=
  match i with
  | .mzero _ _ _ => 1
  | .mlda _ _ _ _ _ _ => 1
  | .msta _ _ _ _ _ _ _ _ => 1
  | .msclFill _ _ _ _ => 1
  | .msclDiag _ _ _ _ => 1
  | .msclMul _ _ _ _ => 1
  | .mtriLi _ _ _ _ _ => 1
  | .mtriLs _ _ _ _ _ => 1
  | .mtriUi _ _ _ _ _ => 1
  | .mtriUs _ _ _ _ _ => 1
  | .tfetch _ _ _ _ => 2
  | .thint _ _ _ _ _ => 2
  | .tinv _ _ _ _ _ => 2
  | .tacq _ _ _ _ => 2
  | .trel _ _ _ => 2
  | .itin _ _ _ _ _ => 2
  | .itstep _ _ _ _ => 2
  | .tcopy _ _ _ _ _ => 3
  | .tcopyMem _ _ _ _ _ => 3
  | .tred _ _ _ _ _ => 3
  | .tgath _ _ _ _ _ _ => 3
  | .tscat _ _ _ _ _ _ => 3
  | .chrecv _ _ _ _ => 3
  | .chsend _ _ _ _ => 4
  | .desc _ _ _ _ => 5
  | .tspawn _ _ _ => 7
  | .tdec _ _ _ => 7
  | .tdecb _ _ _ => 7
  | .tdecbArm _ _ _ _ => 7
  | i => if isM i then 0 else 6

end Sys2Proof.Machine
end

