-- ==== Sys2Proof/Machine/Engine.lean ====
section
/-! DEFINITION. The events of the engine queues: taking, parking, allocating, replaying and completing commands (R32, R175, R177, R178,
R199, R200, R211, R248, R249). -/

namespace Sys2Proof.Machine

/-- The executor cannot take the command now (R175, R248). A path of the matrix engine holds one command until that command's occupancy ends,
which is before it completes (R188); cycles are left out, so a free bit says whether a running command still occupies its path, and one that
conflicts with the next does (log entry 30). Commands of both paths read and write their registers as they complete: so the result is that of
a serial order (R176). -/
def State.execBusy (s : State) (k : Nat) (x : Cmd) : Bool :=
  let ex := executor x.ins
  let running (y : Cmd) : Bool := y.st == .running && executor y.ins == ex && y.id != x.id
  match ex with
  | 0 => (s.core k).cmds.any (fun y => running y && (conflict x.ins y.ins || Config.free s.freeCtr % 2 == 0))
  | 1 => (s.core k).cmds.any (fun y => running y && (conflict x.ins y.ins || Config.free s.freeCtr % 2 == 0))
  | 2 => false
  | 6 => false
  | 3 => (coresOf (clusterOf k)).any (fun j => (s.core j).cmds.any running)
  | 4 => (coresOf (clusterOf k)).any (fun j => (s.core j).cmds.any (fun y => running y && y.launch == x.launch &&
      (match x.ins, y.ins with | .chsend _ _ a _, .chsend _ _ b _ => a == b | _, _ => false)))
  | _ => (s.core k).cmds.any running

/-- The tiles a command names, each once. -/
def Cmd.tileNeeds (x : Cmd) (k : Nat) (s : State) : List Need := mergeNeeds ((x.sem k).needs s)

/-- A fault met by a command that has not started: a miss asks for the page (R213), anything else ends it (R178). -/
def State.cmdFault (s : State) (k : Nat) (x : Cmd) (f : FaultInfo) : State :=
  if s.pageMiss x.part f then
    s.pageRequest x.part f (.cmd k x.id) (match x.ins with
      | .tgath _ _ _ _ _ nm1 => (s.gatherRefused k x nm1).getD f.addr
      | _ => f.addr)
  else s.failCmd k x.id f

/-- A command whose tiles are at hand starts (R175, R199, R200): its frames take rank 0 in the order A, B, destination. It and the running
commands of the cluster see undefined values where one of them writes what the other reads (R177). -/
def State.startCmd (s : State) (k : Nat) (x : Cmd) : State :=
  let cl := clusterOf k
  let sem := x.sem k
  match sem.begins s with
  | some f => s.cmdFault k x f
  | none =>
    let needs := x.tileNeeds k s
    let also := sem.touch.filter (fun t => (s.hit cl t).isSome && !needs.any (fun n => n.tile == t))
    let s := also.foldl (fun s t => s.refUp cl t) (if x.alloc then s else needs.foldl (fun s n => s.refUp cl n.tile) s)
    let s := (needs.map (fun n => n.tile) ++ sem.touch).foldl (fun s t =>
      match s.hit cl t with | some key => s.touchFrame cl key | none => s) s
    let snap := s.snapshot cl needs
    let res := sem.record s
    let wr := sem.wr s
    let torn := ((upFrom 0 needs.length).zip needs).flatMap (fun n => (s.beingWritten cl n.2.tile k x.id).map (fun w =>
      (⟨n.2.tile, w.1, w.2, s.freeCtr + 139264 * n.1 + w.1⟩ : Torn)))
    let s := s.passBytes k x.part (sem.uses s)
    let imgs := (sem.tids s ++ needs.map (fun n => n.tile.tid)).map (fun tid => (tid, s.descImg x.part tid))
    let s := s.updCmd k x.id (fun y => { y with
      st := .running, tiles := needs.map (fun n => n.tile) ++ also, wtiles := (needs.filter (fun n => n.write)).map (fun n => n.tile),
      snap := snap, torn := torn, res := res, wr := wr, imgs := imgs })
    sem.start (wr.foldl (fun s w => s.markTorn cl w.1 w.2 k x.id) (s.draw (if torn.isEmpty then 0 else 139264 * needs.length)))

/-- A taken command: its checks, then it starts or parks (R32, R175, R178). -/
def State.takeCmd (s : State) (k : Nat) (x : Cmd) : State :=
  match (x.sem k).check s with
  | some f => s.cmdFault k x f
  | none =>
    let needs := x.tileNeeds k s
    let hits := (needs.filter (fun n => (s.hit (clusterOf k) n.tile).isSome)).length
    let u := unitCluster (clusterOf k)
    let s := (s.countEv u 0x20 x.part hits).countEv u 0x21 x.part (needs.length - hits)
    if needs.all (fun n => s.have (clusterOf k) n) then s.startCmd k x
    else { s.updCmd k x.id (fun y => { y with st := .parked, parkedAt := s.clock }) with clock := s.clock + 1 }.countCore k [(9, 1)]

/-- The command may be taken: every token it consumes is DONE (R175), and no bucket holds what it injects (R274). -/
def State.startable (s : State) (k : Nat) (x : Cmd) : Bool :=
  x.st == .queued && x.deps.isEmpty && x.fail.isNone && !s.prqWaits (.cmd k x.id) && (x.sem k).may s &&
    s.mayReach k x.part ((x.sem k).uses s) && !s.execBusy k x

/-- The oldest command of a list of cores that an executor may take. -/
def State.oldest (s : State) (ks : List Nat) (ex : Nat) : Option (Nat × Cmd) :=
  ks.foldl (fun b k =>
    match (s.core k).cmds.find? (fun x => executor x.ins == ex && s.startable k x), b with
    | some x, some (j, y) => if Nat.blt x.id y.id then some (k, x) else some (j, y)
    | some x, none => some (k, x)
    | none, b => b) none

/-- ENGINE_COMMAND_TAKE: executor ex of core k, or of its cluster for the copy engine, takes the oldest startable command. -/
def engineTake (k ex : Nat) (s : State) : State :=
  let s := s.cascade k 64
  match s.oldest (if ex == 3 then coresOf (clusterOf k) else [k]) ex with
  | none => s.draw 1
  | some (j, x) => (s.draw 1).takeCmd j x
def execEngineCommandTake (core ex : Nat) (s : State) : Res := .next (engineTake core ex s)

/-- The parked command of a cluster that has waited longest for frames. -/
def State.oldestParked (s : State) (cl : Nat) : Option (Nat × Cmd) :=
  (coresOf cl).foldl (fun b k =>
    ((s.core k).cmds.filter (fun x => x.st == .parked && !x.alloc && !s.prqWaits (.cmd k x.id))).foldl (fun b x =>
      match b with
      | none => some (k, x)
      | some (j, y) => if Nat.blt x.parkedAt y.parkedAt then some (k, x) else some (j, y)) b) none

/-- The pinned tiles that tasks resumed in a cluster have still to fetch are asked for, as far as there are ways (R201). -/
def State.fetchWants (s : State) (cl : Nat) : State :=
  (coresOf cl).foldl (fun s k => (s.core k).wants.foldl (fun s t =>
    if (s.held cl t).isSome || s.isFilling cl t then s.updCore k (fun c => { c with wants := c.wants.filter (· != t) })
    else match s.allocate cl t 0 5 with
      | none => s
      | some (s, _) => (s.ask cl ⟨t, false, false⟩).updCore k (fun c => { c with wants := c.wants.filter (· != t) })) s) s
/-- FRAME_ALLOCATION: the oldest parked command gets frames for every missing tile, or none (R199); without one, pinned tiles are fetched. -/
def frameAlloc (cl : Nat) (s : State) : State :=
  match s.oldestParked cl with
  | none => s.fetchWants cl
  | some (k, x) =>
    let needs := x.tileNeeds k s
    match s.allocAll cl needs with
    | none => s.fetchWants cl
    | some s => s.updCmd k x.id (fun y => { y with
        alloc := true, tiles := needs.map (fun n => n.tile), wtiles := (needs.filter (fun n => n.write)).map (fun n => n.tile) })
def execFrameAllocation (cluster : Nat) (s : State) : Res := .next (frameAlloc cluster s)

/-- COMMAND_REPLAY: parked command n of the core, its frames filled and its grant arrived, is checked again and starts (R211). One whose
frames have gone waits for frames again; one that lacks a grant asks for it. -/
def replay (k n : Nat) (s : State) : State :=
  let cl := clusterOf k
  match (s.core k).cmds.drop n with
  | [] => s
  | x :: _ =>
    let needs := x.tileNeeds k s
    if x.st != .parked || !x.alloc || s.prqWaits (.cmd k x.id) then s
    else if s.execBusy k x then s.draw 1
    else if needs.map (fun m => m.tile) != x.tiles || needs.any (fun m => (s.hit cl m.tile).isNone && !s.isFilling cl m.tile) then s.unpark k x
    else if needs.any (fun m => (s.hit cl m.tile).isNone) then s
    else if !needs.all (fun m => s.have cl m) then needs.foldl (fun s m => if m.write then s.needGrant cl m.tile else s) s
    else if !(x.sem k).may s || !s.mayReach k x.part ((x.sem k).uses s) then s
    else match (x.sem k).check s with
      | some f => s.cmdFault k x f
      | none => (s.draw 1).startCmd k x
def execCommandReplay (core n : Nat) (s : State) : Res := .next (replay core n s)

/-- Registers as they were before a command of an aborting task completed (R294); tables it has made STALE stay so. -/
def Regs.keep (old new : Regs) : Regs :=
  { old with zr := old.zr.map (fun e => if e.2.st == .valid && (mget new.zr e.1 ZRec.empty).st == .stale then (e.1, { e.2 with st := .stale }) else e) }

/-- K-block passes of an MMA and lookups of a TLOOK, these in units of 1,024 (R380). -/
def Cmd.events (x : Cmd) : List (Nat × Nat) :=
  let look (cnm1 pm : Nat) : Nat := cdiv (16 * (cnm1 + 1) * ((upFrom 0 4).filter (bitOf pm)).length) 2
  match x.ins with
  | .mma _ _ _ _ _ _ _ _ _ _ kbn _ _ => [(0x0C, kbn + 1)]
  | .tlook _ _ _ _ _ _ _ cnm1 pm => [(0x0D, look cnm1 pm)]
  | .tlookR _ _ _ _ _ _ _ cnm1 pm => [(0x0D, look cnm1 pm)]
  | _ => []
/-- ENGINE_COMMAND_COMPLETION: running command n of the core completes (R249): its results are written, or its failure stands. -/
def complete (k n : Nat) (s : State) : State :=
  match (s.core k).cmds.drop n with
  | [] => s
  | x :: _ =>
    if x.st != .running || !(x.sem k).done s then s
    else if x.fail.isSome then s.finish k x.id 0
    else
      let r := (x.sem k).effect (s.countCore k x.events)
      let t := if (s.core k).run == .aborting then r.1.updCore k (fun c => { c with regs := (s.core k).regs.keep c.regs }) else r.1
      match r.2.2 with
      | some f => t.failCmd k x.id f
      | none => t.finish k x.id r.2.1
def execEngineCommandCompletion (core n : Nat) (s : State) : Res := .next (complete core n s)

end Sys2Proof.Machine
end

