-- ==== Sys2Proof/Machine/Sem.lean ====
section
/-! DEFINITION. What each slot instruction asks of an iteration of a bundle: the same meanings that exec runs alone, by class. -/

namespace Sys2Proof.Machine

def semOfC (i : Instr) : State → SlotEff :=
  match i with
  | .br _ d x => semBr d x
  | .bri _ a => semBri a
  | .call _ d x => semCall d x
  | .calli _ d a => semCalli d a
  | .ret _ a => semRet a
  | .loop _ a o x => semLoop a o x
  | .loopi _ c o x => semLoopi c o x
  | .safe _ i x => semSafe i x
  | .done _ => semDone
  | .waitk _ a => semWaitk a
  | .waitkRange _ a b => semWaitkRange a b
  | .pollk _ d a => semPollk d a
  | .pollkErr _ d a => semPollkErr d a
  | .fenceCore _ => semFenceCore
  | .fenceCluster _ => semFenceCluster
  | .fenceDevice _ => semFenceDevice
  | .fenceSys _ => semFenceSys
  | .trap _ c x => semTrap c x
  | .sysc _ a i x => semSysc a i x
  | .eret _ => semEret
  | .csrr _ d c => semCsrr d c
  | .csrw _ a c => semCsrw a c
  | .csrs _ a c => semCsrs a c
  | .csrc _ a c => semCsrc a c
  | _ => fun _ => {}

def semOfI (i : Instr) : State → SlotEff :=
  match i with
  | .add _ d a b => semAdd d a b
  | .sub _ d a b => semSub d a b
  | .addi _ d a i x => semAddi d a i x
  | .mul _ d a b => semMul d a b
  | .mulh _ d a b => semMulh d a b
  | .mulhU _ d a b => semMulhU d a b
  | .div _ d a b => semDiv d a b
  | .divU _ d a b => semDivU d a b
  | .rem _ d a b => semRem d a b
  | .remU _ d a b => semRemU d a b
  | .and _ d a b => semAnd d a b
  | .or _ d a b => semOr d a b
  | .xor _ d a b => semXor d a b
  | .andi _ d a i x => semAndi d a i x
  | .ori _ d a i x => semOri d a i x
  | .xori _ d a i x => semXori d a i x
  | .shl _ d a b => semShl d a b
  | .shr _ d a b => semShr d a b
  | .shrA _ d a b => semShrA d a b
  | .shli _ d a s0 => semShli d a s0
  | .shri _ d a s0 => semShri d a s0
  | .shriA _ d a s0 => semShriA d a s0
  | .bfx _ d a sx wm1 lsb => semBfx d a sx wm1 lsb
  | .bfi _ d a wm1 lsb => semBfi d a wm1 lsb
  | .sethi _ d a i x => semSethi d a i x
  | .bitcPop _ d a => semBitcPop d a
  | .bitcClz _ d a => semBitcClz d a
  | .bitcCtz _ d a => semBitcCtz d a
  | .min _ d a b => semMin d a b
  | .minU _ d a b => semMinU d a b
  | .max _ d a b => semMax d a b
  | .maxU _ d a b => semMaxU d a b
  | .cmpeq _ d a b => semCmpeq d a b
  | .cmpne _ d a b => semCmpne d a b
  | .cmplt _ d a b => semCmplt d a b
  | .cmpltu _ d a b => semCmpltu d a b
  | .cmple _ d a b => semCmple d a b
  | .cmpleu _ d a b => semCmpleu d a b
  | .cmpeqi _ d a i x => semCmpeqi d a i x
  | .cmplti _ d a i x => semCmplti d a i x
  | .pand _ d a b => semPand d a b
  | .por _ d a b => semPor d a b
  | .pxor _ d a b => semPxor d a b
  | .pandn _ d a b => semPandn d a b
  | .pmov _ d a => semPmov d a
  | .pmovPreds _ d => semPmovPreds d
  | .pmovFromG _ d a => semPmovFromG d a
  | .jmovToJ _ d a => semJmovToJ d a
  | .jmovToG _ d a => semJmovToG d a
  | .emovToE _ d a => semEmovToE d a
  | .emovToG _ d a => semEmovToG d a
  | .emovE _ d a => semEmovE d a
  | .qset _ d a => semQset d a
  | .qsetTid _ d a => semQsetTid d a
  | .qsetC _ d a b => semQsetC d a b
  | .qget _ d a => semQget d a
  | .qgetTid _ d a => semQgetTid d a
  | .qgetC _ d a b => semQgetC d a b
  | .qadd _ d a c s0 x => semQadd d a c s0 x
  | .qmov _ d a => semQmov d a
  | .fadd _ d a b f x => semFadd d a b f x
  | .fsub _ d a b f x => semFsub d a b f x
  | .fmul _ d a b f x => semFmul d a b f x
  | .fma _ d a b f c rm => semFma d a b f c rm
  | .fdiv _ d a b f x => semFdiv d a b f x
  | .fsqrt _ d a f x => semFsqrt d a f x
  | .fmin _ d a b f => semFmin d a b f
  | .fmax _ d a b f => semFmax d a b f
  | .fcmp _ d a b f cond => semFcmp d a b f cond
  | .fcvtFp _ d a src dst rm => semFcvtFp d a src dst rm
  | .fcvtFromI64 _ d a f dst rm => semFcvtFromI64 d a f dst rm
  | .fcvtToI64 _ d a f src rm => semFcvtToI64 d a f src rm
  | .fcvtToU64 _ d a f src rm => semFcvtToU64 d a f src rm
  | .fclass _ d a f => semFclass d a f
  | .zchk _ d a => semZchk d a
  | .zchkM _ d a b => semZchkM d a b
  | _ => fun _ => {}

def semOfV (i : Instr) : State → SlotEff :=
  match i with
  | .vadd _ v => semVadd v
  | .vsub _ v => semVsub v
  | .vmul _ v => semVmul v
  | .vfma _ v => semVfma v
  | .vmin _ v => semVmin v
  | .vmax _ v => semVmax v
  | .vabs _ v => semVabs v
  | .vneg _ v => semVneg v
  | .vand _ v => semVand v
  | .vor _ v => semVor v
  | .vxor _ v => semVxor v
  | .vshl _ v => semVshl v
  | .vshr _ v => semVshr v
  | .vcmp _ v => semVcmp v
  | .vsel _ v => semVsel v
  | .vperm _ v => semVperm v
  | .vslide _ v => semVslide v
  | .vpack _ v => semVpack v
  | .vunpk _ v => semVunpk v
  | .vbcast _ v => semVbcast v
  | .vext _ v => semVext v
  | .vcvt _ v => semVcvt v
  | .vqnt _ v => semVqnt v
  | .vdq _ v => semVdq v
  | .vamax _ v => semVamax v
  | .vspec _ v => semVspec v
  | .vred _ v => semVred v
  | .vscan _ v => semVscan v
  | .vmatch _ v => semVmatch v
  | .klog _ v => semKlog v
  | .kmov _ v => semKmov v
  | .vmov _ v => semVmov v
  | .idle _ => semIdle
  | _ => fun _ => {}

def semOfM (i : Instr) : State → SlotEff :=
  match i with
  | .mma _ e d qa qb sa ta tb z kb0 kbn pa pb => semMma e d qa qb sa ta tb z kb0 kbn pa pb
  | .mzero _ e mask => semMzero e mask
  | .mlda _ e d q t part => semMlda e d q t part
  | .msta _ e d q t part rm dist => semMsta e d q t part rm dist
  | .msclFill _ e d gs => semMsclFill e d gs
  | .msclDiag _ e d gs => semMsclDiag e d gs
  | .msclMul _ e d gs => semMsclMul e d gs
  | .mtriLi _ e d gs one => semMtriLi e d gs one
  | .mtriLs _ e d gs one => semMtriLs e d gs one
  | .mtriUi _ e d gs one => semMtriUi e d gs one
  | .mtriUs _ e d gs one => semMtriUs e d gs one
  | .tbuild _ e z q p kb mode w => semTbuild e z q p kb mode w
  | .tlook _ e d z q wkb cst cnm1 pm => semTlook e d z q wkb cst cnm1 pm
  | .tlookR _ e d z q wkb cst cnm1 pm => semTlookR e d z q wkb cst cnm1 pm
  | .zsave _ e z f q gs => semZsave e z f q gs
  | .zload _ e z f q gs => semZload e z f q gs
  | .zinv _ e mask => semZinv e mask
  | .cbld _ e w gs cnt => semCbld e w gs cnt
  | _ => fun _ => {}

def semOfX (i : Instr) : State → SlotEff :=
  match i with
  | .tfetch _ e q hint => semTfetch e q hint
  | .thint _ e q set clr => semThint e q set clr
  | .tinv _ e q ax nm1 => semTinv e q ax nm1
  | .tcopy _ e qs qd t => semTcopy e qs qd t
  | .tcopyMem _ e qs t gs => semTcopyMem e qs t gs
  | .tred _ e qs qd opr => semTred e qs qd opr
  | .tgath _ e qd qs gs nm1 => semTgath e qd qs gs nm1
  | .tscat _ e qs qd gs nm1 => semTscat e qs qd gs nm1
  | .tacq _ e q ver => semTacq e q ver
  | .trel _ e q => semTrel e q
  | .itin _ e s0 ix dm1 => semItin e s0 ix dm1
  | .itstep _ e s0 q => semItstep e s0 q
  | .chsend _ e ch q => semChsend e ch q
  | .chrecv _ e ch q => semChrecv e ch q
  | .desc _ e gt ga => semDesc e gt ga
  | .rld _ e d ga => semRld e d ga
  | .rst _ e ga gs => semRst e ga gs
  | .rfaa _ e d ga gs => semRfaa e d ga gs
  | .rtdec _ e ga => semRtdec e ga
  | .rfence _ e ga => semRfence e ga
  | .rfenceFStore _ e ga gs => semRfenceFStore e ga gs
  | .rfenceFDec _ e ga => semRfenceFDec e ga
  | .tspawn _ e ga => semTspawn e ga
  | .tdec _ e ga => semTdec e ga
  | .tdecb _ e ga => semTdecb e ga
  | .tdecbArm _ e ga gs => semTdecbArm e ga gs
  | _ => fun _ => {}

def semOfL (i : Instr) : State → SlotEff :=
  match i with
  | .ldB _ t b d x => semLdB t b d x
  | .ldBs _ t b d x => semLdBs t b d x
  | .ldH _ t b d x => semLdH t b d x
  | .ldHs _ t b d x => semLdHs t b d x
  | .ldW _ t b d x => semLdW t b d x
  | .ldWs _ t b d x => semLdWs t b d x
  | .ldD _ t b d x => semLdD t b d x
  | .stB _ t b d x => semStB t b d x
  | .stH _ t b d x => semStH t b d x
  | .stW _ t b d x => semStW t b d x
  | .stD _ t b d x => semStD t b d x
  | .ldv _ t b d x => semLdv t b d x
  | .stv _ t b d x => semStv t b d x
  | .gath _ t b vx k es sc => semGath t b vx k es sc
  | .scat _ t b vx k es sc => semScat t b vx k es sc
  | .ldx _ t b d x => semLdx t b d x
  | .ldxinv _ b d x => semLdxinv b d x
  | .ldxinvAll _ => semLdxinvAll
  | .sld _ t b d x => semSld t b d x
  | .pref _ b d x => semPref b d x
  | .prefLlc _ b d x => semPrefLlc b d x
  | .acq _ t b d x => semAcq t b d x
  | .rel _ t b d x => semRel t b d x
  | .trd _ t b d x => semTrd t b d x
  | .twr _ t b d x => semTwr t b d x
  | .amo _ t b d opc sz s0 => semAmo t b d opc sz s0
  | .cas _ t b d sz s0 c => semCas t b d sz s0 c
  | .idleL _ => semIdleL
  | _ => fun _ => {}

/-- The slot effect of an instruction. -/
def semOf (i : Instr) : State → SlotEff :=
  match i.cls with
  | some .c => semOfC i
  | some .i => semOfI i
  | some .v => semOfV i
  | some .m => semOfM i
  | some .x => semOfX i
  | some .l => semOfL i
  | none => fun _ => {}

end Sys2Proof.Machine
end

