-- ==== Sys2Proof/Machine/Fetch.lean ====
section
/-! DEFINITION. Fetching a bundle: the stages of R66 before execution, pad words and targets (R69, R70), the items of R67, sticky
re-issues (R73), and the bytes of a lone instruction in memory. -/

namespace Sys2Proof.Machine

/-- What fetch finds at the core's next bundle. -/
inductive Fetched
  | bundle (at_ : Nat) (b : Bundle)
  /-- A fault of the bundle or of slots, with FLTMASK, at a header address. -/
  | bad (at_ : Nat) (f : FaultInfo) (mask : Nat)
  /-- The LEND bundle is skipped; fetch goes on at the next bundle (R140). -/
  | over (next : Nat)

/-- The opcode of a slot word. -/
def opOf (w : Nat) : Nat := fld w 24 6

/-- The C opcodes of transfer instructions (R81). -/
def transferOp (op : Nat) : Bool := (Nat.ble 1 op && Nat.ble op 9) || op == 0x0D || op == 0x0E || op == 0x0F

/-- The lane group a raw V word counts (R154). -/
def rawBits (w : Nat) : Nat := if opOf w == 0x3F || fld w 0 2 == 3 then 0 else 1024 / 2 ^ fld w 0 2

/-- The word and extension of a sticky record (R72). -/
def recordWords (r : W64) : Nat × Option Nat :=
  let w := fld r.toNat 0 32
  (w, if bitOf w 30 then some (fld r.toNat 32 31) else none)

/-- The sticky record and the step register of a slot. -/
def stickyOf (c : Core) (h : Header) (sl : Slot) : Option (W64 × Nat) :=
  match sl with
  | .v0 => some (c.csr.stickv0, h.sv0)
  | .v1 => some (c.csr.stickv1, h.sv1)
  | .l => some (c.csr.stickl, h.sl)
  | _ => none

/-- The slots that re-issue their record in a bundle (R73). -/
def reissues (c : Core) (h : Header) : List RawSlot :=
  if h.sticky == 0 then []
  else [Slot.v0, .v1, .l].filterMap (fun sl =>
    if h.slots.contains sl then none
    else match stickyOf c h sl with
      | some (r, _) => if bitOf r.toNat 63 then some ⟨sl, (recordWords r).1, (recordWords r).2⟩ else none
      | none => none)

/-- A slot with the instruction it decodes to. -/
def rawInstr (r : RawSlot) : Option Instr :=
  match decodeSlot r.slot.cls r.w r.x with
  | .ok i => some i
  | .error _ => none

/-- The g register a re-issue advances, with its new value (R73). -/
def advanceOf (c : Core) (h : Header) (sl : Slot) (i : Instr) : Option (Nat × W64) :=
  match stickyOf c h sl, stickyBase i with
  | some (_, step), some n => some (n, c.rg n + w64 (c.rj step).toInt)
  | _, _ => none

/-- A slot re-issuing i. -/
def reissueSlot (c : Core) (h : Header) (sl : Slot) (i : Instr) : SlotRun := ⟨sl, i, semOf i, advanceOf c h sl i, none⟩

/-- The effective slots of a bundle in slot order (R67): present ones that decode, and re-issues. -/
def effective (c : Core) (h : Header) (raws : List RawSlot) : List SlotRun :=
  let here := raws.filterMap (fun r => (rawInstr r).map (fun i => presentSlot r.slot i (semOf i)))
  let again := (reissues c h).filterMap (fun r => (rawInstr r).map (fun i => reissueSlot c h r.slot i))
  [Slot.c, .i0, .i1, .v0, .v1, .m, .x, .l].flatMap (fun sl => (here ++ again).filter (fun r => r.slot == sl))

/-- The destinations of a slot, constants left out (R67, item 6; R98). -/
def SlotRun.dests (r : SlotRun) : List Dest :=
  ((match r.adv with
    | some (n, _) => if (dstsOf r.ins).contains (.g n false) then [] else [Dest.g n false]
    | none => []) ++ dstsOf r.ins).filter (fun d => !isConst d)
/-- No entry of one list occurs in a later one. -/
def disjointAll : List (List Dest) → Bool
  | [] => true
  | a :: t => t.all (fun b => a.all (fun d => !b.contains d)) && disjointAll t
def distinctNats : List Nat → Bool
  | [] => true
  | a :: t => !t.contains a && distinctNats t

/-- The lowest item of R67 that the bundle breaks, 0 for none; stop is the item that ended the reading of its words. -/
def brokenItem (c : Core) (h : Header) (raws : List RawSlot) (stop : Nat) : Nat :=
  let eff := effective c h raws
  if h.zeros != 0 then 1
  else if h.sticky == 0 && (h.sv0 != 0 || h.sv1 != 0 || h.sl != 0) then 2
  else if h.rep != 0 && raws.any (fun r => r.slot == .c && transferOp (opOf r.w)) then 3
  else if stop != 0 then stop
  else if !(disjointAll (eff.map SlotRun.dests)) || !(distinctNats (eff.filterMap (fun r => (edgeOf r.ins).map (fun e => e.tp)))) then 6
  else if Nat.blt 1024 (((raws ++ reissues c h).filter (fun r => r.slot.cls == .v)).foldl (fun n r => n + rawBits r.w) 0) then 7
  else 0

/-- The bundle of a header and the words after it, for the core (R66, stages 2 and 3). -/
def readBundle (s : State) (a : Nat) (hw : Nat) (ws : List Nat) : Fetched :=
  let c := s.me
  let h := headerOf hw
  let r := readSlots h.slots ws
  let item := brokenItem c h r.1 r.2
  if item != 0 then .bad a ⟨fcIllegalBundle, item, 0⟩ 0
  else
    let b : Bundle := ⟨1 + rawWords r.1, h.rep, effective c h r.1⟩
    let badSlots := (r.1 ++ reissues c h).filter (fun x => (rawInstr x).isNone)
    if badSlots.isEmpty then .bundle a b
    else .bad a ⟨fcIllegalOp, 0, 0⟩ (badSlots.foldl (fun m x => m + 2 ^ x.slot.bit) (b.maskIf (fun x => x.illegal s)))

/-- The next bundle of the running core (R66, R69, R70, R137). DESIGN CHOICE (log entry 105): a LEND bundle that is skipped ends with the last
word read before one that breaks items 4 or 5 of R67. -/
def fetchBundle (s : State) : Fetched :=
  let c := s.me
  let p := c.csr.partid.toNat
  let a := match c.via with | .seq => s.skipPads p padLimit c.pc | _ => c.pc
  match s.fetchWord p (a / 4 * 4) with
  | .error e => .bad a { e with addr := a } 0
  | .ok w =>
    if a % 4 != 0 then .bad a ⟨fcAlign, 0, a⟩ 0
    else if w == 0xFFFFFFFF then .bad a ⟨fcBranchMid, 0, a⟩ 0
    else if !bitOf w 31 then
      (match c.via with
        | .seq => .bad a ⟨fcIllegalBundle, 8, 0⟩ 0
        | _ => .bad a ⟨fcBranchMid, 1, a⟩ 0)
    else
      let ws := s.packetWords p (15 - a % 64 / 4) (a + 4)
      match c.via with
      | .skip => .over (s.skipPads p padLimit ((a + 4 * (1 + rawWords (readSlots (headerOf w).slots ws).1)) % 2 ^ 64))
      | _ => readBundle s a w ws

/-- The running core does what fetch has found: it skips, faults, or runs a bundle's iteration. -/
def runFetched (f : Fetched) (s : State) : Res :=
  match f with
  | .over next => .next (s.updMe (fun c => c.goTo next .seq))
  | .bad a f mask => .next ((s.updMe (fun c => { c with pc := a }.faultAt f mask)).countTrap s.me)
  | .bundle a b => b.run (s.updMe (fun c => { c with pc := a }))

/-- A running task's core issues one iteration of its next bundle. -/
def issue (s : State) : Res :=
  if s.me.settle && !s.me.loads.isEmpty then .next (s.updMe (fun c => c.tick 1)) else runFetched (fetchBundle s) s

/-! ## A lone instruction where the next step fetches it -/

/-- The header of a bundle whose one slot is sl. -/
def soleHeader (sl : Slot) : Nat := 2 ^ 31 + 2 ^ (23 + sl.bit)

/-- The words of a bundle holding the instruction whose bits are w (bits 63:32 its extension word): its slot is the one decodeTableWord
gives it. -/
def soleWords (nbits w : Nat) : List Nat :=
  let sl := match decodeTableWord nbits w with | some i => i.slot | none => .i0
  [soleHeader sl, w % 2 ^ 32] ++ (if bitOf w 30 then [fld w 32 32] else [])

/-- Core State.cur runs a task in a partition whose pages are mapped one to one: stage 1 off, and a stage-2 table at 0x10000 with one leaf
of 1 GiB, and a generation table outside it. It stands for the load and the dispatch that bring a program to a core (log entry 21). -/
def State.mapOne (s : State) : State :=
  let p := s.me.csr.partid.toNat
  let s := (s.wrMem 0x10000 8 0x11001).wrMem 0x11000 8 0x1F
  { s with dev := { s.dev with genbase := 0x7F00000000 } }.updPart p (fun x => (x.setFld 0 1 1).setFld 0x48 8 0x10000)

/-- A bundle holding the instruction alone, at the address the running core fetches next. -/
def State.placeWord (s : State) (nbits w : Nat) : State :=
  let c := s.me
  let part := c.csr.partid.toNat
  let a := c.pc / 64 * 64
  let bytes := (soleWords nbits w).flatMap (toBytes 4)
  let s1 := match s.xlate s.cur part a accX with
    | .ok r => s.wrBytes r.pa bytes
    | .error _ =>
      let t := s.mapOne
      (t.updMe (fun c => { c with pc := 0x20000 })).wrBytes 0x20000 bytes
  { s1 with agenda := [] }.updMe (fun c => { c with
    run := .task, pc := c.pc / 64 * 64, via := .target, iter := 0, stalled := false, settle := false })

end Sys2Proof.Machine
end

