-- ==== Sys2Proof/Machine/Home.lean ====
section
/-! DEFINITION. The homes of tiles: their records, the version table, fills, grants, releases, drains, leases, reductions and machine checks
(R194, R195, R205 to R218, R243 to R245, R256, R304, R368, R369, R374, R375). -/

namespace Sys2Proof.Machine

/-! ## Records and versions -/

def noOwner : Nat := 0x7F
def parkedOwner : Nat := 0x7E

/-- Where a tile has its home, for a cluster (R205, R206, R208). -/
inductive HomeAt
  | here (ch : Nat)
  | away (dev : Nat)
  | fault (f : FaultInfo)
  deriving DecidableEq, Repr
/-- The channel of a tile in host memory (R208). -/
def Tile.hostHome (t : Tile) : Nat := (t.tid + t.c 0 + 9 * t.c 1 + 25 * t.c 2 + 49 * t.c 3 + 7 * t.part) % 256
def State.homeAt (s : State) (cl : Nat) (t : Tile) : HomeAt :=
  match s.xlate (1024 + cl) t.part ((s.desc t.part t.tid).firstByte t) 0 with
  | .error f => .fault f
  | .ok r => match paKind r.pa with
    | .localHbm => .here (channelOf r.pa)
    | .host => .here t.hostHome
    | .remote => .away (fabricDev r.pa)
    | .none => .fault ⟨fcPerm, 2, (s.desc t.part t.tid).firstByte t⟩

/-- The home that holds the tile's record, should the tile's first byte no longer translate. -/
def State.homeOf (s : State) (cl : Nat) (t : Tile) : HomeAt :=
  match s.homeAt cl t with
  | .fault f => (match s.homes.find? (fun h => h.tile == t && Nat.blt h.ch 256) with
    | some h => .here h.ch
    | none => .fault f)
  | x => x

/-- The entries of a tile's set in its home's version table (R369). -/
def vtSet (t : Tile) : Nat := (t.tid + 3 * t.c 0 + 5 * t.c 1 + 11 * t.c 2 + 13 * t.c 3 + 7 * t.part) % 16384
def State.vtWays (s : State) (ch : Nat) (t : Tile) : List Nat := (upFrom 0 16).map (fun w => s.dev.vtbase + ch * 2 ^ 22 + vtSet t * 256 + 16 * w)
/-- The retirement sweep of a set (R369). Version tables out of their place are neither read nor written (R9; log entry 95). -/
def State.sweep (s : State) (ch : Nat) (t : Tile) : State :=
  if !s.vtPlaced then s
  else (s.vtWays ch t).foldl (fun s a =>
    let e := s.rdMem a 16
    if bitOf e 102 && !(s.desc (fld e 16 6) (fld e 22 20)).v then s.wrMem a 16 0 else s) s
def State.vtFind (s : State) (ch : Nat) (t : Tile) : Option Nat :=
  (s.vtWays ch t).find? (fun a =>
    let e := s.rdMem a 16
    bitOf e 102 && fld e 16 6 == t.part && fld e 22 20 == t.tid && fld e 42 44 == t.coord)
def State.vtFree (s : State) (ch : Nat) (t : Tile) : Option Nat := (s.vtWays ch t).find? (fun a => !bitOf (s.rdMem a 16) 102)
/-- The version-table entry of a tile. -/
def vtEntry (t : Tile) (ver : Nat) : Nat := t.part * 2 ^ 16 + t.tid * 2 ^ 22 + t.coord * 2 ^ 42 + ver * 2 ^ 86 + 2 ^ 102

/-- The record that the home of channel ch holds of a tile (R205); number 256 stands for a home on another device. -/
def State.homeRec (s : State) (ch : Nat) (t : Tile) : Option Home := s.homes.find? (fun h => h.ch == ch && h.tile == t)
/-- A record as it stands after a use: the most recent of its list. -/
def State.putHome (s : State) (h : Home) : State := { s with homes := s.homes.filter (fun x => !(x.ch == h.ch && x.tile == h.tile)) ++ [h] }
/-- What a cluster's data or the loss of a frame change in the records of a tile: f picks by owner the record that they concern. -/
def State.updHome (s : State) (t : Tile) (f : Home → Home) : State :=
  (s.homes.filter (fun h => h.tile == t)).foldl (fun s h => s.putHome (f h)) s
/-- The released version of a tile (R205). -/
def State.rver (s : State) (ch : Nat) (t : Tile) : Nat :=
  match s.homeRec ch t with
  | some h => h.rver
  | none =>
    if !s.vtPlaced then (freeBits 16 (s.freeCtr + vtSet t)).toNat
    else match s.vtFind ch t with | some a => fld (s.rdMem a 16) 86 16 | none => 0

/-- Every CLEAN frame of the tile becomes INVALID. -/
def State.dropClean (s : State) (t : Tile) : State :=
  (upFrom 0 96).foldl (fun s cl => match s.held cl t with
    | some key => if (s.frame cl key).st == .clean then (s.dropFrame cl key).unparkTile cl t else s
    | none => s) s
/-- A serve or drain order, or data, of the tile is under way. -/
def State.moving (s : State) (t : Tile) : Bool :=
  s.msgs.any (fun m => match m with
    | .serve _ u _ _ => u == t
    | .drainData _ u _ _ _ _ _ => u == t
    | .wbData _ u _ _ _ _ _ _ => u == t
    | _ => false)

/-- The directory recalls its least recently used record that may go (R205, R369): a PUBLISHED frame is drained first. -/
def State.recall (s : State) (ch : Nat) : State :=
  match s.homes.find? (fun h => h.ch == ch && h.wown == noOwner && h.leases.isEmpty &&
      (h.rver == 0 || !s.vtPlaced || ((s.sweep ch h.tile).vtFree ch h.tile).isSome)) with
  | none => s
  | some h =>
    if h.loc == 1 then (if s.moving h.tile then s else s.send (.serve h.ownc h.tile none false))
    else
      let s := (s.dropClean h.tile).sweep ch h.tile
      let s := if h.rver == 0 || !s.vtPlaced then s else match s.vtFree ch h.tile with | some a => s.wrMem a 16 (vtEntry h.tile h.rver) | none => s
      { s with homes := s.homes.filter (fun x => !(x.ch == ch && x.tile == h.tile)) }.countEv (unitChannel ch) 0x48 h.tile.part 1

/-- The record of a tile, created when there is none; no record while the directory is full (R205). -/
def State.useHome (s : State) (ch : Nat) (t : Tile) : State × Option Home :=
  match s.homeRec ch t with
  | some h => (s, some h)
  | none =>
    let s := if Nat.ble 16384 (s.homes.filter (fun h => h.ch == ch)).length then s.recall ch else s
    if Nat.ble 16384 (s.homes.filter (fun h => h.ch == ch)).length then (s, none)
    else
      let s := s.sweep ch t
      let h : Home := ⟨ch, t, s.rver ch t, 0, 0, noOwner, false, [], []⟩
      let s := if s.vtPlaced then (match s.vtFind ch t with | some a => s.wrMem a 16 0 | none => s) else s.draw 65536
      (s.putHome h, some h)

/-! ## Fills (R206 to R208, R213) -/

/-- A fill ends with a fault. -/
def State.refuseFill (s : State) (n cl : Nat) (t : Tile) (f : FaultInfo) : State := (s.dropMsg n).send (.fillFail cl t f)
/-- The tile's frame is being filled for an itinerary alone. -/
def State.itinOnly (s : State) (cl : Nat) (t : Tile) : Bool := match s.filling cl t with | some k => (s.frame cl k).itin | none => false
/-- A fault at a fill's or grant's home: a miss asks for the page, anything else fails it; an itinerary's fetch is dropped (R203). -/
def State.fillFault (s : State) (n cl : Nat) (t : Tile) (f : FaultInfo) : State :=
  if s.pageMiss t.part f && !s.itinOnly cl t then s.pageRequest t.part f (.fill cl t) f.addr else s.refuseFill n cl t f
/-- An earlier message of the tile that the message must wait for: from its own cluster, or a reduction when it asks for a grant. -/
def State.waitsBefore (s : State) (n cl : Nat) (t : Tile) (grant : Bool) : Bool :=
  s.before n (fun m => match m with
    | .release c u _ _ _ _ => c == cl && u == t
    | .drainData c u _ _ _ _ _ => c == cl && u == t
    | .wbData c u _ _ _ _ _ _ => c == cl && u == t
    | .reduce _ _ u _ _ => u == t && grant
    | _ => false)

/-- The PTIME at which a request comes to its home, 100 cycles after it left (R209; log entry 86). -/
def State.arrived (s : State) (sent : Nat) : Nat := sent + 100000 / s.dev.opcur.1
/-- The age of a request at a home (R209, R376): its weight for each cycle since it came, up to 2^24 - 1. A cluster's has weight WGT; one of another
device, which comes by a Shuner port, FWGT (log entry 86). -/
def State.reqAge (s : State) (cl : Nat) (t : Tile) (sent : Nat) : Nat :=
  let p := s.part t.part
  Nat.min ((if Nat.ble 128 cl then p.fld 0x5E 1 else p.wgt) * ((s.dev.ptime.toNat - s.arrived sent) * s.dev.opcur.1 / 1000)) (2 ^ 24 - 1)
/-- The steps from a home's pointer up to a requester's number, modulo 104 (R209). -/
def State.ptrDist (s : State) (ch cl : Nat) : Nat := (cl + 104 - mget s.hptr ch 0) % 104
/-- The write owner that a home's record of a tile names. -/
def State.ownerAt (s : State) (ch : Nat) (t : Tile) : Nat := match s.homeRec ch t with | some h => h.wown | none => noOwner
/-- The requests for a grant of the tile that its home could take now, with their clusters and ages: one with its fill waits while another cluster
owns the writes (R209). -/
def State.grantRivals (s : State) (ch : Nat) (t : Tile) : List (Nat × Nat × Nat) :=
  let w := s.ownerAt ch t
  ((upFrom 0 s.msgs.length).zip s.msgs).filterMap (fun x =>
    let open_ (cl sent : Nat) : Option (Nat × Nat × Nat) :=
      if s.prqWaits (.fill cl t) || s.waitsBefore x.1 cl t true then none else some (x.1, cl, s.reqAge cl t sent)
    match x.2 with
    | .fillReq cl u true _ sent => if u == t && (w == noOwner || w == parkedOwner || w == cl) then open_ cl sent else none
    | .grantReq cl u _ sent => if u == t then open_ cl sent else none
    | _ => none)
/-- Another request for a grant of the tile goes first: an older one, or one of equal age that the pointer meets first (R209, R219). -/
def State.outranked (s : State) (ch n cl : Nat) (t : Tile) (sent : Nat) : Bool :=
  (s.grantRivals ch t).any (fun x => x.1 != n &&
    (Nat.blt (s.reqAge cl t sent) x.2.2 || (x.2.2 == s.reqAge cl t sent && Nat.blt (s.ptrDist ch x.2.1) (s.ptrDist ch cl))))
/-- A home has looked at message n of cluster cl and left u: where it has taken it, and the request was tied, its pointer moves (R209). -/
def State.movePtr (s : State) (ch n cl : Nat) (t : Tile) (sent : Nat) (u : State) : State :=
  if u.msg n != s.msg n && (s.grantRivals ch t).any (fun x => x.1 != n && x.2.2 == s.reqAge cl t sent) then
    { u with hptr := mset s.hptr ch ((cl + 1) % 104) 0 }
  else u

/-- Memory's bytes of a tile for cluster cl (R206): under SUPER the elements that another owner has written are undefined values. A table's record
never comes from memory (R339). -/
def State.tileFor (s : State) (cl : Nat) (d : Desc) (t : Tile) (h : Home) : Except FaultInfo (SMap Byte) :=
  match s.readTile (1024 + cl) d t with
  | .error f => .error f
  | .ok m => .ok (if h.super && h.wown != cl && h.wown != parkedOwner then
      clearRecord d (d.onlyTile t (h.wrote.foldl (fun m w => tearBits m w.1 w.2 (s.freeCtr + w.1)) m)) else m)
/-- A fill answered from memory (R206), once the partition's buckets let it pass (R274). -/
def State.answerFill (s : State) (n cl : Nat) (t : Tile) (h : Home) (grant nodata : Bool) : State :=
  let d := s.desc t.part t.tid
  let s1 := if grant then s.putHome { h with wown := cl } else s.putHome h
  if nodata then (s1.dropMsg n).send (.fillAns cl t h.rver true 0 d.shape false none)
  else if !s.mayTile (1024 + cl) d t then s
  else match s.tileFor cl d t h with
    | .error f => s.fillFault n cl t f
    | .ok m =>
      -- whether the LLC or HBM serves is the LLC's own policy: a free bit says which is counted
      let src := 0x23 + Config.free (s.freeCtr + 139264) % 2
      ((((s1.closeTile (1024 + cl) d t).passTile (1024 + cl) d t).countEv (unitCluster cl) src t.part 1).dropMsg n).send
        (.fillAns cl t h.rver grant 0 d.shape false (some m)) |>.draw 139265
/-- A fill for another device (R206, R245): the data of RVER, with a lease from now on; a home with four leases makes it wait (R375). A
PUBLISHED owner's frame is drained first. -/
def State.answerDevice (s : State) (n cl : Nat) (t : Tile) (h : Home) : State :=
  let d := s.desc t.part t.tid
  if Nat.ble 4 h.leases.length then s
  else if h.loc == 1 then s.send (.serve h.ownc t none false)
  else match s.tileFor cl d t h with
    | .error f => if s.pageMiss t.part f then s.pageRequest t.part f (.fill cl t) f.addr else (s.dropMsg n).emit (.fillReply (cl - 128) t none)
    | .ok m =>
      let e := s.dev.ptime.toNat + d.leaseNs
      let s1 := ((s.closeTile (1024 + cl) d t).passTile (1024 + cl) d t).charge t.part (s.portBucket (cl - 128) h.ch) (d.tileBytes t).length
      (((s1.putHome { h with leases := h.leases ++ [⟨cl - 128, e, false⟩] }).dropMsg n).emit (.fillReply (cl - 128) t (some (h.rver, e, m)))).draw 139264
/-- The record of a tile whose home is another device: which cluster of this device owns its writes (R244). -/
def State.awayRec (s : State) (t : Tile) : Home := (s.homeRec 256 t).getD ⟨256, t, 0, 0, 0, noOwner, false, [], []⟩

/-- FILL_REQUEST: message n, a miss, is taken by the tile's home. Whether a home on another device lets a cluster of this device own the writes
of a tile is an input, a free bit; it never does so while another cluster of this device owns them (R244). -/
def fillRequest (n : Nat) (s : State) : State :=
  match s.msg n with
  | some (.fillReq cl t grant nodata sent) =>
    if s.prqWaits (.fill cl t) || s.waitsBefore n cl t grant then s
    else match s.homeAt cl t with
      | .fault f => if Nat.ble 128 cl then (s.dropMsg n).emit (.fillReply (cl - 128) t none) else s.fillFault n cl t f
      | .away dev =>
        let h := s.awayRec t
        let d := s.desc t.part t.tid
        if Nat.ble 128 cl then s
        else match s.tileFault (1024 + cl) t.part accR (d.tileBytes t) with
        | some f => s.fillFault n cl t f
        | none =>
          if s.noRoute dev then s.refuseFill n cl t ⟨fcFabric, 0, t.q⟩
          else if !s.dev.inb || !s.mayTile (1024 + cl) d t then s
          else if grant && (!(h.wown == noOwner || h.wown == cl) || Config.free s.freeCtr % 2 == 1) then s.draw 1
          else
            let b := s.freeCtr
            let s := (if grant then s.putHome { h with wown := cl } else s).passTile (1024 + cl) d t
            ((((s.dropMsg n).emit (.fabricFill cl (s.portBucket dev (1024 + cl) - 1) t)).countEv (unitCluster cl) 0x25 t.part 1).send (.fillAns cl t (freeBits 16 (b + 17408)).toNat grant
              (freeBits 64 (b + 17409)).toNat d.shape false (some (d.inputTile t b)))).draw 17410
      | .here ch =>
        if s.moving t then s
        else match s.useHome ch t with
          | (s, none) => s
          | (s, some h) =>
            if Nat.ble 128 cl then s.answerDevice n cl t h
            else
            let own := h.wown == cl || h.wown == parkedOwner
            if grant && (!(h.wown == noOwner || own) || s.outranked ch n cl t sent) then s
            else if (grant || own) && !h.leases.isEmpty then s
            else
              let u : State :=
                if h.loc == 1 then
                  (if h.ownc == cl then s
                   else ((if grant || own then s.putHome { h with wown := cl } else s.putHome h).dropMsg n).send
                     (.serve h.ownc t (some cl) (grant || own)))
                else s.answerFill n cl t h (grant || own) (nodata && !own)
              if grant then s.movePtr ch n cl t sent u else u
  | _ => s
def execFillRequest (n : Nat) (s : State) : Res := .next (fillRequest n s)

/-- NEIGHBOUR_SERVE: a serve or drain order reaches the owner (R207), whose PUBLISHED frame is then read out once, for both. A frame no longer
PUBLISHED sends nothing, and the request is held at the home. -/
def neighbourServe (n : Nat) (s : State) : State :=
  match s.msg n with
  | some (.serve owner t dst grant) =>
    let s1 := s.dropMsg n
    let hold : State := match dst with | some c => s1.send (.fillReq c t grant false s.dev.ptime.toNat) | none => s1
    (match s.held owner t with
    | some key =>
      let f := s.frame owner key
      if f.st == FrSt.published then s1.setFrame owner key (f.drain (.serve dst grant)) else hold
    | none => hold)
  | _ => s
def execNeighbourServe (n : Nat) (s : State) : Res := .next (neighbourServe n s)

/-- A fill's failure at the tile cache (R213): a frame that is still read out for the tile is then INVALID; an itinerary's fetch is counted as
dropped (R203). A miss that an itinerary's fetch met, and that a command has joined since, is asked for again, for the command's page request. -/
def State.fillFailed (s : State) (cl : Nat) (t : Tile) (f : FaultInfo) : State :=
  if (s.filling cl t).isSome && !s.itinOnly cl t && s.pageMiss t.part f then s.send (.fillReq cl t false false s.dev.ptime.toNat)
  else
  let s := if s.itinOnly cl t then s.countEv (unitCluster cl) 0x27 t.part 1 else s.failTile cl t f
  match s.filling cl t with
  | some key =>
    if (s.frame cl key).st == FrSt.filling then s.updFrame cl key Frame.drop
    else s.updFrame cl key (fun f => { f with next := none, ref := 0 })
  | none => match s.held cl t with
    | some key => if (s.frame cl key).st == FrSt.clean then s.dropFrame cl key else s
    | none => s

/-- An itinerary's hints fall due on a filled frame (R201 to R203). A PIN beyond a limit is dropped: an itinerary raises no fault (log entry
88). -/
def State.fillHints (s : State) (cl key : Nat) : State :=
  let f := s.frame cl key
  let s := s.setFrame cl key { f.hint f.hints 0 with hints := 0, itin := false }
  if bitOf f.hints 0 && (s.pinFault f.hcore f.tile).isNone then s.addPin f.hcore f.tile else s

/-- FILL_ANSWER: the data, the grant or the fault of a fill reach the cluster (R194, R200, R213, R344). A tile that a task of the cluster holds
pinned is pinned again (R201), as long as its set has fewer than 12 pinned ways (DESIGN CHOICE, log entry 106). Data with a grant reach a CLEAN
frame too, whose grant request a parked owner has answered (R310). -/
def fillAnswer (n : Nat) (s : State) : State :=
  match s.msg n with
  | some (.fillFail cl t f) => (s.dropMsg n).fillFailed cl t f
  | some (.fillAns cl t ver grant lexp shape redef data) =>
    (match (setFrames t).find? (fun k => (s.frame cl k).tile == t &&
        ((s.frame cl k).st == FrSt.filling || (grant && (s.frame cl k).st == FrSt.clean))) with
    | some key =>
      let d := s.desc t.part t.tid
      let m := data.getD (freeFrame s.freeCtr)
      let pin := s.pinHeld cl t && Nat.blt (s.pinned cl (setFrames t)) 12
      let s1 := ((s.dropMsg n).updFrame cl key (fun f =>
        { f with st := if grant then .dirty else .clean, ver := if grant then (ver + 1) % 65536 else ver, drn := false, lexp := lexp,
                 shape := shape, redef := redef, pin := f.pin || pin, wrote := if data.isNone then wholeFrame else [],
                 data := if grant then clearRecord d m else m })).draw (if data.isNone then 17408 else 0)
      (((s1.touchFrame cl key).staleIf cl t.part (fun z => z.names t && verNewer ver z.ver))).fillHints cl key
    | none => if s.isFilling cl t then s else s.dropMsg n)
  | _ => s
def execFillAnswer (n : Nat) (s : State) : Res := .next (fillAnswer n s)

/-! ## Grants (R195, R209) -/

/-- GRANT_REQUEST: a cluster that holds a CLEAN frame asks its home for the right to write. A parked owner's ownership is handed over with the
data in memory (R310). -/
def grantRequest (n : Nat) (s : State) : State :=
  match s.msg n with
  | some (.grantReq cl t v sent) =>
    if s.prqWaits (.fill cl t) || s.waitsBefore n cl t true then s
    else match s.homeAt cl t with
      | .fault f => s.fillFault n cl t f
      | .away _ =>
        let h := s.awayRec t
        if (h.wown == noOwner || h.wown == cl) && Config.free s.freeCtr % 2 == 0 then
          (((s.putHome { h with wown := cl }).dropMsg n).send (.grantAns cl t)).draw 1
        else ((s.dropMsg n).send (.retryAns cl t)).draw 1
      | .here ch =>
        if s.outranked ch n cl t sent then s
        else s.movePtr ch n cl t sent (match s.useHome ch t with
        | (s, none) => s
        | (s, some h) =>
          if h.wown == parkedOwner then (if h.leases.isEmpty then s.answerFill n cl t h true false else s)
          else if h.wown == noOwner && h.rver == v then
            (if h.leases.isEmpty then ((s.putHome { h with wown := cl }).dropMsg n).send (.grantAns cl t) else s)
          else ((s.putHome h).dropMsg n).send (.retryAns cl t))
  | _ => s
def execGrantRequest (n : Nat) (s : State) : Res := .next (grantRequest n s)

/-- WRITE_GRANT: a CLEAN frame becomes DIRTY at the next version (R194). -/
def writeGrant (n : Nat) (s : State) : State :=
  match s.msg n with
  | some (.grantAns cl t) =>
    let s := s.dropMsg n
    (match s.held cl t with
    | some key =>
      let d := s.desc t.part t.tid
      if (s.frame cl key).st == FrSt.clean then s.updFrame cl key (fun f =>
        { f with st := .dirty, ver := (f.ver + 1) % 65536, drn := false, wrote := [], data := clearRecord d f.data })
      else s
    | none => s)
  | _ => s
def execWriteGrant (n : Nat) (s : State) : Res := .next (writeGrant n s)

/-- RETRY: the CLEAN frame becomes INVALID and its commands ask again (R209). -/
def retry (n : Nat) (s : State) : State :=
  match s.msg n with
  | some (.retryAns cl t) =>
    let s := (s.dropMsg n).countEv (unitCluster cl) 0x26 t.part 1
    (match s.held cl t with
    | some key => if (s.frame cl key).st == FrSt.clean then (s.unparkTile cl t).dropFrame cl key else s
    | none => s)
  | _ => s
def execRetry (n : Nat) (s : State) : Res := .next (retry n s)

/-- A request has waited longer than its tensor's lease setting (R209, R213, R253). -/
def State.overdue (s : State) (t : Tile) (sent : Nat) : Bool := Nat.blt (s.arrived sent + (s.desc t.part t.tid).leaseNs) s.dev.ptime.toNat

/-- GRANT_TIMEOUT: a request that has waited for another cluster's release beyond the lease setting is answered TIMEOUT (R209). -/
def grantTimeout (n : Nat) (s : State) : State :=
  match s.msg n with
  | some (.fillReq cl t true _ sent) =>
    (match s.homeAt cl t with
    | .here ch =>
      let w := s.ownerAt ch t
      if !s.overdue t sent || w == noOwner || w == cl || w == parkedOwner then s else s.refuseFill n cl t ⟨fcLeaseTimeout, 0, t.q⟩
    | _ => s)
  | _ => s
def execGrantTimeout (n : Nat) (s : State) : Res := .next (grantTimeout n s)

/-- REMOTE_HOME_TIMEOUT: a fill whose remote home stays silent beyond the lease setting (R213, R374). -/
def remoteTimeout (n : Nat) (s : State) : State :=
  match s.msg n with
  | some (.fillReq cl t _ _ sent) =>
    (match s.homeAt cl t with
    | .away _ => if s.overdue t sent then s.refuseFill n cl t ⟨fcLeaseTimeout, 0, t.q⟩ else s
    | _ => s)
  | _ => s
def execRemoteHomeTimeout (n : Nat) (s : State) : Res := .next (remoteTimeout n s)

/-! ## Releases and acquires (R195, R205, R215, R253) -/

/-- A command's answer from a home has come. -/
def State.answered (s : State) (k id : Nat) : State := s.updCmd k id (fun x => { x with ready := true })

/-- The data of a release that cluster cl has sent are still there: its frame stands PUBLISHED or is read out, or its data are on their way. A
frame lost meanwhile has told the home nothing yet (R218). -/
def State.holdsRelease (s : State) (cl : Nat) (t : Tile) : Bool :=
  (setFrames t).any (fun k => (s.frame cl k).tile == t &&
    ((s.frame cl k).st == .published || ((s.frame cl k).st == .draining && !(s.frame cl k).wasDirty))) ||
  s.msgs.any (fun m => match m with | .drainData c u _ _ _ _ _ => c == cl && u == t | _ => false)

/-- RELEASE_AT_HOME: the home records a TREL's release; without a DIRTY frame, that of a frame written back before (R205, R253). -/
def releaseAtHome (n : Nat) (s : State) : State :=
  match s.msg n with
  | some (.release cl t k id held ver) =>
    if s.waitsBefore n cl t false then s
    else match s.homeOf cl t with
      | .here ch =>
        (match s.useHome ch t with
        | (s, none) => s
        | (s, some h) =>
          let h' := if held then { h with rver := ver, loc := (s.holdsRelease cl t).toNat, ownc := cl, wown := noOwner, super := false, wrote := [] }
            else if h.wown == cl && h.super then
              { h with rver := (h.rver + 1) % 65536, loc := 0, wown := noOwner, super := false, wrote := [] } else h
          ((s.putHome h').dropMsg n).answered k id)
      | _ =>
        let s := { s with homes := s.homes.filter (fun h => !(h.tile == t && h.ch == 256 && h.wown == cl && (held || h.super))) }
        (s.dropMsg n).answered k id
  | _ => s
def execReleaseAtHome (n : Nat) (s : State) : Res := .next (releaseAtHome n s)

/-- The state after a look at a tile's set of the version table, where it has no record (R369). -/
def State.swept (s : State) (cl : Nat) (t : Tile) : State :=
  match s.homeAt cl t with
  | .here ch => if (s.homeRec ch t).isNone then s.sweep ch t else s
  | _ => s
/-- TACQ_AT_HOME: the released version has reached the minimum; older CLEAN frames of the cluster go, one that a drain leaves CLEAN too (R243),
and older tables become STALE. When a home on another device has released it is an input: a free bit. -/
def tacqAtHome (n : Nat) (s : State) : State :=
  match s.msg n with
  | some (.tacq k id t f _) =>
    let cl := clusterOf k
    let ok (s : State) : Bool := match s.homeAt cl t with
      | .here ch => verGe (s.rver ch t) f
      | .away _ => Config.free s.freeCtr % 2 == 0
      | .fault _ => false
    if s.isFilling cl t || s.isDraining cl t then s
    else if !ok (s.swept cl t) then (s.swept cl t).draw 1
    else
      let s := ((s.swept cl t).dropMsg n).draw 1
      let s := match s.held cl t with
        | some key =>
          let fr := s.frame cl key
          if fr.st == FrSt.clean && verNewer f fr.ver then (s.dropFrame cl key).unparkTile cl t else s
        | none => s
      (s.staleIf cl t.part (fun z => z.names t && verNewer f z.ver)).answered k id
  | _ => s
def execTacqAtHome (n : Nat) (s : State) : Res := .next (tacqAtHome n s)

/-- A command ends with a fault, when its completion event comes. -/
def State.answerFault (s : State) (k id : Nat) (f : FaultInfo) : State := s.updCmd k id (fun x => { x.failWith f with ready := true })

/-- TACQ_TIMEOUT: a TACQ that has waited longer than the lease setting (R253). -/
def tacqTimeout (n : Nat) (s : State) : State :=
  match s.msg n with
  | some (.tacq k id t _ sent) => if !s.overdue t sent then s else (s.dropMsg n).answerFault k id ⟨fcLeaseTimeout, 0, t.q⟩
  | _ => s
def execTacqTimeout (n : Nat) (s : State) : Res := .next (tacqTimeout n s)

/-! ## Drains and write-backs (R194, R207, R210, R217, R218) -/

/-- A frame read out becomes INVALID, and its references with it (R199). -/
def State.loseFrame (s : State) (cl key : Nat) : State :=
  let f := s.frame cl key
  (if f.ref == 0 then s else s.forget cl f.tile).updFrame cl key Frame.drop

/-- READ_OUT_COMPLETE: a DRAINING frame's data leave for memory, and for the cluster that a serve is for (R207), once no command is writing
the frame (R197). -/
def readOut (cl key : Nat) (s : State) : State :=
  let f := s.frame cl key
  if f.st != .draining || !(s.beingWritten cl f.tile 768 0).isEmpty then s
  else
    let out (s : State) (park : Bool) : State :=
      if f.wasDirty then s.send (.wbData cl f.tile f.shape f.redef f.ver f.data park f.wrote)
      else s.send (.drainData cl f.tile f.shape f.redef f.ver f.data f.wrote)
    match f.why with
    | .victim =>
      (match f.next with
      | some t => (out s false).setFrame cl key (f.fillFor t (s.desc t.part t.tid).shape f.ref)
      | none => (out s false).setFrame cl key { f.drop with pin := f.pin })
    | .serve dst grant =>
      let s1 := (out s false).setFrame cl key { f with st := .clean, drn := true, why := .none, wrote := [] }
      (match dst with
      | some c => (s1.send (.fillAns c f.tile f.ver grant 0 f.shape f.redef (some f.data))).countEv (unitCluster c) 0x22 f.tile.part 1
      | none => s1)
    | .grant => (out s false).setFrame cl key { f with st := .clean, drn := true, why := .none, wrote := [] }
    | .tred => ((out s false).loseFrame cl key).staleIf cl f.tile.part (fun z => z.names f.tile)
    | .sage => (out s true).loseFrame cl key
    | _ => (out s false).loseFrame cl key
def execReadOutComplete (cluster frame : Nat) (s : State) : Res := .next (readOut cluster frame s)

/-- Elements of a lost version that never reached memory are undefined values from now on (R218). -/
def State.loseBits (s : State) (who : Nat) (t : Tile) (wr : List (Nat × Nat)) : State :=
  let d := s.desc t.part t.tid
  if wr.isEmpty || !d.v then s
  else (((d.tileBytes t).filter (fun b => b.back && wr.any (fun w => Nat.blt w.1 (8 * b.off + 8) && Nat.blt (8 * b.off) (w.1 + w.2)))).foldl
    (fun s b => match s.xlate who t.part b.gva 0 with
      | .error _ => s
      | .ok x => match paKind x.pa with
        | .localHbm | .host =>
          let old := (s.byte x.pa).toNat
          s.wrBytes x.pa [BitVec.ofNat 8 (Nat.lor (Nat.land (freeBits 8 (s.freeCtr + b.off)).toNat b.mask) (old - Nat.land old b.mask))]
        | _ => s) s).draw 17408
/-- The home hears that a PUBLISHED or DIRTY frame is lost, with the bits written that memory has not received (R218). -/
def State.lostFrame (s : State) (cl : Nat) (t : Tile) (dirty : Bool) (wr : List (Nat × Nat)) : State :=
  (s.loseBits (1024 + cl) t wr).updHome t (fun h =>
    if dirty then (if h.wown == cl then { h with wown := noOwner } else h)
    else if h.loc == 1 && h.ownc == cl then { h with loc := 0 } else h)

/-- Data on their way to memory arrive: written under the descriptor in force, or lost (R210, R213, R217). -/
def State.landData (s : State) (n cl : Nat) (t : Tile) (shape : Nat) (redef : Bool) (ver : Nat) (data : SMap Byte) (dirty : Bool)
    (wr : List (Nat × Nat)) (home : Home → Home) : State :=
  let d := s.desc t.part t.tid
  let lost (s : State) : State := ((s.dropMsg n).mcheck t.part 0xFFFF t.q 1 ver).lostFrame cl t dirty wr
  if s.prqWaits (.wb cl t) || s.waitsBefore n cl t false then s
  else if !d.v || d.shape != shape then lost s
  else match s.tileFault (1024 + cl) t.part accW ((d.tileBytes t).filter (fun b => b.back)) with
    | some f => if s.pageMiss t.part f then s.pageRequest t.part f (.wb cl t) f.addr else lost s
    | none => (((s.dropMsg n).writeTile (1024 + cl) d t redef data).passTile (1024 + cl) d t).updHome t home

/-- DRAIN_ARRIVAL: a drained version reaches the LLC slice, and the home's location becomes memory. -/
def drainArrival (n : Nat) (s : State) : State :=
  match s.msg n with
  | some (.drainData cl t shape redef ver data wr) =>
    s.landData n cl t shape redef ver data false wr (fun h => if h.loc == 1 && h.ownc == cl then { h with loc := 0 } else h)
  | _ => s
def execDrainArrival (n : Nat) (s : State) : Res := .next (drainArrival n s)

/-- VICTIM_WRITE_BACK: a DIRTY frame's data reach memory; SUPER is set, and a cleared frame's ownership is parked (R205, R310). -/
def victimWriteBack (n : Nat) (s : State) : State :=
  match s.msg n with
  | some (.wbData cl t shape redef ver data park wr) =>
    s.landData n cl t shape redef ver data true wr (fun h =>
      if h.wown == cl then { h with super := true, wown := if park then parkedOwner else cl, wrote := h.wrote ++ wr } else h)
  | _ => s
def execVictimWriteBack (n : Nat) (s : State) : Res := .next (victimWriteBack n s)

/-! ## Leases (R214, R245, R374, R375) -/

/-- A home on another device has asked for the tile's lease (R374). -/
def State.recalled (s : State) (t : Tile) : Bool := s.msgs.any (fun m => m == .leaseRecall t)
/-- This device holds a lease of the tile, or is about to. -/
def State.leased (s : State) (t : Tile) : Bool :=
  (upFrom 0 96).any (fun cl => (setFrames t).any (fun k =>
    (s.frame cl k).tile == t && (s.frame cl k).st == .clean && (s.frame cl k).lexp != 0)) ||
  s.msgs.any (fun m => match m with | .fillAns _ u _ _ lexp _ _ _ => u == t && lexp != 0 | _ => false)
/-- A request for a lease is over when none is left here. -/
def State.endRecall (s : State) (t : Tile) : State :=
  if s.leased t then s else { s with msgs := s.msgs.filter (fun m => m != .leaseRecall t) }
/-- LEASE_EXPIRY: a leased frame that no started command uses becomes INVALID when its expiry has come, and when its home has asked for the
lease, which it then returns (R214, R374). -/
def leaseExpiry (cl key : Nat) (s : State) : State :=
  let f := s.frame cl key
  if f.lexp == 0 || f.ref != 0 || f.st != .clean then s
  else if Nat.ble f.lexp s.dev.ptime.toNat && !s.recalled f.tile then s.setFrame cl key f.drop
  else if s.recalled f.tile then (s.dropFrame cl key).endRecall f.tile
  else s
def execLeaseExpiry (cluster frame : Nat) (s : State) : Res := .next (leaseExpiry cluster frame s)

/-- Lease n of home record number i. -/
def State.lease (s : State) (i n : Nat) : Option (Home × Lease) :=
  match s.homes.drop i with
  | h :: _ => (h.leases.drop n).head?.map (fun l => (h, l))
  | [] => none
def State.setLeases (s : State) (i : Nat) (f : List Lease → List Lease) : State :=
  { s with homes := modNth s.homes i (fun h => { h with leases := f h.leases }) }
/-- HOME_LEASE_EXPIRY: an entry goes at its expiry plus the skew bound. -/
def homeLeaseExpiry (i n : Nat) (s : State) : State :=
  match s.lease i n with
  | some (_, l) => if s.dev.inb && Nat.ble (l.exp + 40) s.dev.ptime.toNat then s.setLeases i (fun ls => dropNth ls n) else s
  | none => s
def execHomeLeaseExpiry (home n : Nat) (s : State) : Res := .next (homeLeaseExpiry home n s)
/-- LEASE_RETURN: a holder gives its lease back. -/
def leaseReturn (i n : Nat) (s : State) : State :=
  match s.lease i n with
  | some _ => s.setLeases i (fun ls => dropNth ls n)
  | none => s
def execLeaseReturn (home n : Nat) (s : State) : Res := .next (leaseReturn home n s)
/-- A grant for the tile waits at its home. -/
def State.grantWaits (s : State) (t : Tile) : Bool :=
  s.msgs.any (fun m => match m with
    | .grantReq _ u _ _ => u == t
    | .fillReq _ u g _ _ => u == t && g
    | _ => false)
/-- LEASE_RETURN_REQUEST: a home out of bound asks a holder for its lease when a grant waits. -/
def leaseAsk (i n : Nat) (s : State) : State :=
  match s.lease i n with
  | some (h, l) =>
    if s.dev.inb || l.asked || !s.grantWaits h.tile then s
    else (s.setLeases i (fun ls => modNth ls n (fun l => { l with asked := true }))).emit (.leaseAsk l.holder h.tile)
  | none => s
def execLeaseReturnRequest (home n : Nat) (s : State) : Res := .next (leaseAsk home n s)

/-! ## Reductions (R256, R269) -/

/-- One element reduced in memory, in its line's write-queue entry. -/
def State.reduceEl (s : State) (who part gva op fmt x : Nat) : State :=
  let n := fmtElBits fmt / 8
  match s.xlate who part gva accW with
  | .error _ => s
  | .ok r => match paKind r.pa with
    | .localHbm => (s.joinLine part r.pa).wrMem r.pa n (redNew op fmt (8 * n) (s.rdMem r.pa n) x)
    | .host => s.wrMem r.pa n (redNew op fmt (8 * n) (s.rdMem r.pa n) x)
    | _ => s
/-- Every element of the tile within the extents, by descriptor d. -/
def State.reduceTile (s : State) (who : Nat) (d : Desc) (t : Tile) (op : Nat) (m : SMap Byte) : State :=
  (upFrom 0 d.r).foldl (fun s i => (upFrom 0 d.e).foldl (fun s j =>
    if Nat.blt (d.e * t.c 0 + j) (nth d.ext 0 0) && Nat.blt (d.r * t.c 1 + i) (nth d.ext 1 0) then
      s.reduceEl who t.part (d.elAddr (d.e * t.c 0 + j) (d.r * t.c 1 + i) (t.c 2) (t.c 3)) op d.fmt (d.elRaw m i j)
    else s) s) s

/-- REDUCTION_AT_HOME: a TRED's lines are applied, once no cluster owns the tile or holds its released version. -/
def reductionAtHome (n : Nat) (s : State) : State :=
  match s.msg n with
  | some (.reduce k id t op m) =>
    let cl := clusterOf k
    let d := match (s.core k).cmd id with | some x => x.desc s t.tid | none => s.desc t.part t.tid
    if s.isDraining cl t || s.waitsBefore n cl t false || s.moving t then s
    else match s.homeAt cl t with
      | .here ch =>
        (match s.useHome ch t with
        | (s, none) => s
        | (s, some h) =>
          if h.wown != noOwner then s
          else if h.loc == 1 then s.send (.serve h.ownc t none false)
          else if !s.mayTile (1024 + cl) d t then s
          else ((((s.putHome h).dropMsg n).passTile (1024 + cl) d t).reduceTile (1024 + cl) d t op m).answered k id)
      | _ => ((s.dropMsg n).reduceTile (1024 + cl) d t op m).answered k id
  | _ => s
def execReductionAtHome (n : Nat) (s : State) : Res := .next (reductionAtHome n s)

/-! ## Machine checks (R218, R304) -/

/-- MACHINE_CHECK: unit 1 a frame (cluster, frame); 2 an LLC line (address, partition plus 64 for a DIRTY line); 3 HBM (address, partition);
4 an L0 line (core, line); 5 core state (core). -/
def machineCheck (unit x y : Nat) (s : State) : State :=
  match unit with
  | 1 =>
    let f := s.frame x y
    let s := s.mcheck f.tile.part 0xFFFF f.tile.q 1 f.ver
    let s := if f.st == FrSt.dirty then s.lostFrame x f.tile true f.wrote
      else if f.st == FrSt.published then s.lostFrame x f.tile false f.wrote
      else if f.st == FrSt.draining then s.lostFrame x f.tile f.wasDirty f.wrote else s
    let s := match f.why with
      | .serve (some c) grant => s.send (.fillReq c f.tile grant false s.dev.ptime.toNat)
      | _ => s
    let s := if f.st == FrSt.draining && f.why == .tred then s.staleIf x f.tile.part (fun z => z.names f.tile) else s
    (s.unparkTile x f.tile).dropFrame x y
  | 2 =>
    let s1 := s.mcheck (y % 64) 0xFFFF x 2 0
    if Nat.ble 64 y then (s1.wrBytes (x / 64 * 64) ((upFrom s.freeCtr 64).map (fun n => freeBits 8 n))).draw 64 else s1
  | 3 => s.mcheck (y % 64) 0xFFFF x 3 0
  | 4 =>
    let l := mget (s.core x).l0 y ⟨0, .invalid, 0, 0, []⟩
    (s.mcheck (s.core x).csr.partid.toNat x (64 * l.tag) 4 0).updCore x (fun c => c.dropLine y)
  | 5 =>
    let c := s.core x
    let s := s.mcheck c.csr.partid.toNat x 0 5 0
    (match c.run with
    | .idle => s
    | .reserved => s
    | .discarding => s
    | _ => s.updCore x (fun c => c.abortWith ⟨0, 0, c.pc, 0⟩))
  | _ => s
def execMachineCheck (unit x y : Nat) (s : State) : Res := .next (machineCheck unit x y s)

end Sys2Proof.Machine
end

