-- ==== Sys2Proof/Machine/Task.lean ====
section
/-! DEFINITION. Task records, placement, broadcast counters, ready queues, dispatch, the end of a task and of a launch (R19 to R27, R260,
R262, R277 to R290, R294, R309, R381, R389, R390). -/

namespace Sys2Proof.Machine

/-! ## Queues and completion records (R311, R315, R387, R389) -/

def Qcb.reset : Qcb := ⟨0, 0, 0, false, false, 3, 0, 0, 0, 0, 0, 0, none, none, false, [], [], 0, 0x100, 0, 0⟩
/-- Queue q of a function, 16 the control ring. -/
def qkey (fn q : Nat) : Nat := 17 * fn + q
def State.qcb (s : State) (key : Nat) : Qcb := mget s.qcbs key Qcb.reset
def State.updQcb (s : State) (key : Nat) (f : Qcb → Qcb) : State := { s with qcbs := mput s.qcbs key (f (s.qcb key)) }
/-- The physical address of a host address (R221). -/
def hostPa (h : Nat) : Nat := 0x40000000000000 + h

/-- A completion record goes to the queue's ring (R389, R390). -/
def State.post (s : State) (key tag status field result wit : Nat) : State :=
  let q := s.qcb key
  let ix := q.cpidx.toNat
  let s1 := s.wrBytes (hostPa (q.cbase + 32 * (ix % 2 ^ q.csz)))
    (toBytes 2 tag ++ toBytes 1 status ++ toBytes 1 (bitOf ix q.csz).toNat ++ toBytes 4 field ++ toBytes 8 result ++ toBytes 8 wit ++
      toBytes 8 s.dev.ptime.toNat)
  let s2 := s1.updQcb key (fun q => { q with cpidx := q.cpidx + 1 })
  if q.ccidx == q.cpidx then s2.msix (key / 17) q.vec else s2

def State.launch (s : State) (l : Nat) : Option Launch := (s.launches.find? (fun e => e.1 == l)).map (fun e => e.2)
def State.updLaunch (s : State) (l : Nat) (f : Launch → Launch) : State :=
  { s with launches := s.launches.map (fun e => if e.1 == l then (e.1, f e.2) else e) }
/-- The queue of a launch. -/
def Launch.key (l : Launch) : Nat := qkey l.fn l.q
/-- A queue counter of a launch's queue changed (R379). -/
def State.updQueueOf (s : State) (l : Nat) (f : Qcb → Qcb) : State :=
  match s.launch l with
  | none => s
  | some x => s.updQcb x.key f

/-- The pending vacate that covers a queue, with its place in the list (R314). -/
def State.vacateOf (s : State) (key : Nat) : Option (Nat × Vacate) :=
  ((upFrom 0 s.vacates.length).zip s.vacates).find? (fun x => !x.2.done && x.2.queues.any (fun q => q.1 == key))
/-- The command that waited for a queue completes (R312). -/
def State.waited (s : State) (key : Nat) : State :=
  match (s.qcb key).waiting with
  | none => s
  | some tag => ((s.post (qkey (key / 17) 16) tag 0 0 0 0).updQcb (qkey (key / 17) 16) (fun q => { q with busy := none })).updQcb key
      (fun q => { q with waiting := none })
/-- A queue on its way to SAVED whose tasks have all left becomes SAVED (R312). One that a vacate will restore to another state still owes
its QSTOP's completion. -/
def State.queueSaved (s : State) (key : Nat) : State :=
  let q := s.qcb key
  if q.qstate != 1 || !q.toSave || q.runN != 0 then s
  else
    let s := s.updQcb key (fun q => { q with qstate := 2, toSave := false })
    match s.vacateOf key with
    | some (_, v) => if v.queues.any (fun x => x.1 == key && x.2.2 == 2) then s.waited key else s
    | none => s.waited key
/-- Entries of the queue's tasks go to its saved list (R312, R320). -/
def Qcb.holds (q : Qcb) : Bool := q.toSave || q.qstate == 2

/-- A queue without live launches that is DRAINING becomes STOPPED (R312); a command that waited for it completes. -/
def State.queueStopped (s : State) (key : Nat) : State :=
  let q := s.qcb key
  if q.qstate != 1 || q.toSave || s.launches.any (fun e => e.2.key == key && !e.2.dropped) then s
  else (s.updQcb key (fun q => { q with qstate := 3 })).waited key

/-- The rings of a launch's channels are released (R260). -/
def State.freeRings (s : State) (l : Nat) : State :=
  (upFrom 0 96).foldl (fun s cl =>
    let gone := (s.cluster cl).chans.filter (fun c => c.launch == l)
    if gone.isEmpty then s
    else (gone.foldl (fun s c => c.frames.foldl (fun s k => s.updFrame cl k (fun f => { f with pin := false })) s) s).updCluster cl
      (fun c => { c with chans := c.chans.filter (fun c => c.launch != l) })) s

/-- A launch ends: its completion record is posted (R285, R321, R381). -/
def State.endLaunch (s : State) (l status : Nat) : State :=
  match s.launch l with
  | none => s
  | some x =>
    let s := s.post x.key x.tag status 0 l (if status == 0 && x.wit then x.w.toNat else 0)
    let s := { s.freeRings l with launches := s.launches.filter (fun e => e.1 != l) }
    s.queueStopped x.key

/-! ## Records (R277, R279) -/

/-- The fields of a task record. -/
structure TRec where
  codeh : Nat
  taskix : Nat
  flags : Nat
  state : Nat
  coord : Nat
  arg : Nat
  cnt : Nat
  cost : Nat
  succ : Nat
  succn : Nat
  bcn : Nat
  taskid : Nat
  aff : Nat
  launch : Nat
  zero : Nat
  deriving DecidableEq, Repr
def State.trec (s : State) (pa : Nat) : TRec :=
  let f := fun off n => s.rdMem (pa + off) n
  ⟨f 0 4, f 4 2, f 6 1, f 7 1, f 8 8, f 0x10 8, f 0x18 4, f 0x1C 4, f 0x20 8, f 0x28 2, f 0x2A 2, f 0x2C 4, f 0x30 16, f 0x40 4, f 0x44 60⟩
def TRec.prio (r : TRec) : Nat := fld r.flags 0 2
def TRec.discards (r : TRec) : Bool := bitOf r.flags 2
def TRec.repro (r : TRec) : Bool := bitOf r.flags 3
def TRec.isBc (r : TRec) : Bool := bitOf r.flags 4
def TRec.any (r : TRec) : Bool := bitOf r.flags 5
def State.setRecState (s : State) (pa st : Nat) : State := s.wrMem (pa + 7) 1 st
/-- States of a record. -/
def recNew : Nat := 0
def recWaiting : Nat := 1
def recPlaced : Nat := 2
def recDone : Nat := 3

/-- The clusters of a partition, ascending. -/
def Part.clusters (p : Part) : List Nat := (upFrom 0 96).filter (fun c => bitOf (p.fld 8 16) c)
/-- The clusters a task may run in (R277, R287). -/
def Part.affinity (p : Part) (r : TRec) : List Nat :=
  if r.any then p.clusters
  else (((upFrom 0 96).zip p.clusters).filter (fun x => bitOf r.aff x.1)).map (fun x => x.2)

/-- The task is an endpoint of a channel of its code object. -/
def Code.isEnd (c : Code) (ix : Nat) : Bool := c.chans.any (fun x => x.2.1 == ix || x.2.2 == ix)
/-- The tasks of a gang (R262): those joined to a task by channels, looked for n times. -/
def Code.gangOf (c : Code) : Nat → List Nat → List Nat
  | 0, l => l
  | n + 1, l => c.gangOf n (c.chans.foldl (fun l x =>
      if l.contains x.2.1 && !l.contains x.2.2 then l ++ [x.2.2]
      else if l.contains x.2.2 && !l.contains x.2.1 then l ++ [x.2.1] else l) l)
def Code.gang (c : Code) (ix : Nat) : List Nat := c.gangOf 16 [ix]
/-- The gangs of a code object, by lowest channel number. -/
def Code.gangs (c : Code) : List (List Nat) :=
  c.chans.foldl (fun l x => if l.any (fun g => g.contains x.2.1) then l else l ++ [c.gang x.2.1]) []

/-- An endpoint's record breaks R260 or R262. -/
def endBad (c : Code) (l : Launch) (r : TRec) (aff : List Nat) : Bool :=
  c.isEnd r.taskix && (r.any || aff.length != 1 || l.ends.any (fun e => e.1 == r.taskix) ||
    Nat.ble 8 (l.ends.filter (fun e => (c.gang r.taskix).contains e.1 && aff.contains e.2)).length)

/-- The check of a record at its creation (R279). DESIGN CHOICE (log entry 112): BCN of a record with BC = 0, and AFF bits 127:96 with ANY = 0, are Zero
fields. -/
def State.recordBad (s : State) (part : Nat) (l : Launch) (r : TRec) (a : Nat) : Option FaultInfo :=
  let p := s.part part
  let bad : Option FaultInfo := some ⟨fcDescInvalid, 2, a⟩
  match s.code r.codeh with
  | none => bad
  | some c =>
    if c.part != part || Nat.ble c.tasks.length r.taskix || r.zero != 0 || Nat.ble 64 r.flags || (!r.any && Nat.ble (2 ^ 96) r.aff) || r.state != recNew ||
        (p.affinity r).isEmpty || r.repro != l.repro || (r.repro && !c.repro) || (!r.isBc && r.bcn != 0) ||
        endBad c l r (p.affinity r) then bad
    else if r.isBc && Nat.ble (p.fld 0xA2 2) r.bcn then some ⟨fcIndex, 5, a⟩
    else none

/-! ## Placement (R283, R286, R287) -/

def clActive : Nat := 0
def clHold : Nat := 1
def clGated : Nat := 2
def State.clState (s : State) (cl : Nat) : Nat := mget s.dev.clstate cl clActive
def ringKey (cl part prio : Nat) : Nat := 256 * cl + 4 * part + prio
def State.ring (s : State) (key : Nat) : List RdqE := mget s.rings key []
/-- The cluster with the fewest entries of the partition as last reported, the lowest of equals. -/
def State.pickCluster (s : State) (part : Nat) (l : List Nat) : Nat :=
  (l.foldl (fun (b : Option Nat) c => match b with
    | none => some c
    | some x => if Nat.blt (mget (s.cluster c).load part 0) (mget (s.cluster x).load part 0) then some c else some x) none).getD 0
/-- Ring entries of a priority of the partition, over its clusters. -/
def State.ringUsed (s : State) (part prio : Nat) : Nat := ((upFrom 0 96).map (fun c => (s.ring (ringKey c part prio)).length)).foldl (· + ·) 0
/-- The 128 bits of an entry (R286). -/
def RdqE.word (e : RdqE) : Nat :=
  fld e.raddr 7 49 * 2 ^ 79 + e.part % 64 * 2 ^ 73 + e.prio % 4 * 2 ^ 71 + e.held.toNat * 2 ^ 70 + e.bcn % 4096 * 2 ^ 58 + e.epoch % 256 * 2 ^ 50 +
    e.kind % 4 * 2 ^ 48 + 2 ^ 47 + e.stamp % 2 ^ 47
/-- The entries of a priority of a partition in its overflow ring, cluster by cluster (log entry 48); x is 4 * partition + priority. -/
def ringList (rings : SMap (List RdqE)) (x : Nat) : List RdqE := (upFrom 0 96).flatMap (fun c => mget rings (256 * c + x) [])
/-- The ring's bytes from OVBASE on: its entries, then V clear in what n entries took before. -/
def ringBytes (l : List RdqE) (n : Nat) : List Byte := l.flatMap (fun e => toBytes 16 e.word) ++ List.replicate (16 * (n - l.length)) 0
/-- The overflow rings become r, in memory too (R286). -/
def State.setRings (s : State) (r : SMap (List RdqE)) : State :=
  (((s.rings ++ r).map (fun e => e.1 % 256)).eraseDups).foldl (fun t x =>
    if ringList r x == ringList s.rings x then t
    else t.wrBytes ((s.part (x / 4)).fld 0x90 8 + 16 * (s.part (x / 4)).fld 0x98 4 * (x % 4)) (ringBytes (ringList r x) (ringList s.rings x).length))
    { s with rings := r }
/-- A cluster's entries: those of its RDQ, and those that have spilled to its rings (R25, R286). -/
def State.entriesOf (s : State) (cl : Nat) : List RdqE :=
  (s.cluster cl).rdq ++ (s.rings.filter (fun x => x.1 / 256 == cl)).flatMap (fun x => x.2)
/-- An entry leaves its cluster, from the RDQ or a ring. -/
def State.takeEntry (s : State) (cl : Nat) (e : RdqE) : State :=
  (s.updCluster cl (fun c => { c with rdq := c.rdq.filter (fun x => x != e) })).setRings
    (s.rings.map (fun x => if x.1 / 256 == cl then (x.1, x.2.filter (fun y => y != e)) else x))
/-- The RDQ of the entry's cluster, or the overflow ring when the RDQ is full or gated or the ring holds earlier ones, takes an entry: none
while there is no room, or while the cluster's clocks are held (R393). -/
def State.room (s : State) (cl : Nat) (e : RdqE) : Option State :=
  let key := ringKey cl e.part e.prio
  if s.clState cl == clHold then none
  else if Nat.blt (s.cluster cl).rdq.length 2048 && s.clState cl != clGated && (s.ring key).isEmpty then
    some (s.updCluster cl (fun c => { c with rdq := c.rdq ++ [e] }))
  else if Nat.blt (s.ringUsed e.part e.prio) ((s.part e.part).fld 0x98 4) then
    some ((s.setRings (mput s.rings key (s.ring key ++ [e]))).countEv (unitCluster cl) 0x29 e.part 1)
  else none
/-- An earlier placement of the same priority of the partition waits at the home for the cluster. -/
def Msg.waitsFor (cl : Nat) (e : RdqE) : Msg → Bool
  | .ringWait c x => c == cl && x.part == e.part && x.prio == e.prio
  | _ => false
/-- An entry is taken in its turn, or waits at the home (R25, R286). -/
def State.enter (s : State) (cl : Nat) (e : RdqE) : State :=
  if s.msgs.any (Msg.waitsFor cl e) then s.send (.ringWait cl e)
  else match s.room cl e with
    | some t => t
    | none => s.send (.ringWait cl e)
/-- Placing (R286): an entry stamped now, on the cluster of R287. -/
def State.placeAt (s : State) (cl : Nat) (e : RdqE) : State :=
  { s.enter cl { e with stamp := s.clock } with clock := s.clock + 1 }
/-- The entry of a record. -/
def TRec.entry (r : TRec) (pa part kind : Nat) : RdqE := ⟨pa, part, r.prio, false, 0, 0, kind, 0⟩
/-- The kind of a record's entry: 2 for a gang member (R262). -/
def State.entryKind (s : State) (r : TRec) : Nat :=
  match s.code r.codeh with | some c => if c.isEnd r.taskix then 2 else 0 | none => 0
/-- An entry of a launch's task is placed, or goes to the saved list of a queue that holds its entries. -/
def State.placeFor (s : State) (l cl : Nat) (e : RdqE) : State :=
  match s.launch l with
  | none => s.placeAt cl e
  | some x => if (s.qcb x.key).holds then s.updQcb x.key (fun q => { q with saved := q.saved ++ [(cl, e)] }) else s.placeAt cl e
/-- A record's task is placed in the partition of its launch (R281). -/
def State.placeRec (s : State) (pa : Nat) : State :=
  let r := s.trec pa
  match s.launch r.launch with
  | none => s
  | some l =>
    if l.dropped then s
    else
      let cl := s.pickCluster l.part ((s.part l.part).affinity r)
      ((s.setRecState pa recPlaced).placeFor r.launch cl (r.entry pa l.part (s.entryKind r))).updQueueOf r.launch (fun q => { q with ent := q.ent + 1 })
/-- Registration with a broadcast counter (R283): a held entry with the current epoch. -/
def State.register (s : State) (l cl : Nat) (e : RdqE) : State :=
  let b := s.bc e.bcn
  let s := { s with bcs := mput s.bcs e.bcn { b with mask := if bitOf b.mask cl then b.mask else b.mask + 2 ^ cl } }
  s.placeFor l cl { e with held := true, epoch := b.epoch }

/-! ## Creation (R260, R279, R280, R285) -/

/-- A way of a set becomes a ring frame: a DIRTY or PUBLISHED one is read out as a victim is. -/
def State.ringFrame (s : State) (cl key : Nat) : State :=
  let f := s.frame cl key
  if f.st == .dirty || f.st == .published then (s.giveLease cl f).setFrame cl key { f.drain .victim with pin := true, lexp := 0 }
  else (s.dropFrame cl key).updFrame cl key (fun f => { f with pin := true, tile := ⟨0, 0, 0⟩ })
/-- The frames of a ring: one way in each of n sets from a set on, at most one round of the 64 sets; a set with 12 pinned ways is skipped
(R260). None while a set has no way that can go. -/
def State.ringFrames (s : State) (cl : Nat) : Nat → Nat → Nat → List Nat → Option (State × List Nat)
  | 0, _, _, l => some (s, l)
  | fuel + 1, set, n, l =>
    if n == 0 then some (s, l)
    else
      let ks := upFrom (16 * (set % 64)) 16
      if Nat.ble 12 (s.pinned cl ks) then s.ringFrames cl fuel (set + 1) n l
      else
        match (ks.find? (fun k => (s.frame cl k).st == FrSt.invalid && !(s.frame cl k).pin)).or
            ((upFrom 1 5).findSome? (fun c => oldestOf s cl (ks.filter (fun k => victimClass (s.frame cl k) == c)))) with
        | none => none
        | some k => (s.ringFrame cl k).ringFrames cl fuel (set + 1) (n - 1) (l ++ [k])
/-- The rings of the channels that the created record receives on (R260): an error where they cannot be set aside, true while they may yet be. -/
def State.makeRings (s : State) (c : Code) (l cl taskix : Nat) : Except Bool State :=
  ((upFrom 0 c.chans.length).zip c.chans).foldl (fun r x =>
    match r with
    | .error w => .error w
    | .ok s =>
      if x.2.2.2 != taskix then .ok s
      else match s.ringFrames cl 64 (16 * x.1 + l) x.2.1 [] with
        | none => .error true
        | some (s, ks) =>
          if ks.length == x.2.1 then .ok (s.updCluster cl (fun k => { k with chans := k.chans ++ [⟨l, x.1, x.2.1, 0, 0, ks, []⟩] }))
          else .error false) (.ok s)

/-- A checked record is created in a launch (R280): LAUNCH is written, the live count and REM rise, and it is registered, placed or left
WAITING; or PIN_LIMIT for a ring, or no fault while a ring's frames are not free. -/
def State.create (s : State) (pa gva part launch : Nat) : Except (Option FaultInfo) State :=
  let r := s.trec pa
  let cl := s.pickCluster part ((s.part part).affinity r)
  match s.code r.codeh with
  | none => .error (some ⟨fcDescInvalid, 2, gva⟩)
  | some c =>
    match (if c.isEnd r.taskix then s.makeRings c launch cl r.taskix else .ok s) with
    | .error w => .error (if w then none else some ⟨fcPinLimit, 1, gva⟩)
    | .ok s =>
      let s := (s.wrMem (pa + 0x40) 4 launch).updLaunch launch (fun l =>
        { l with live := l.live + 1, ends := if c.isEnd r.taskix then l.ends ++ [(r.taskix, cl)] else l.ends })
      let s := { s with gvas := mput s.gvas pa gva }
      let s := s.updQueueOf launch (fun q => { q with rem := Nat.min (q.rem + r.cost) (2 ^ 48 - 1) })
      if r.isBc then
        .ok (((s.setRecState pa recWaiting).register launch cl { r.entry pa part (s.entryKind r) with bcn := (s.part part).ctr r.bcn }).updQueueOf launch
          (fun q => { q with ent := q.ent + 1 }))
      else if r.cnt == 0 then .ok (s.placeRec pa)
      else .ok (s.setRecState pa recWaiting)

/-- RECORD_CREATION: message n, a TSPAWN's record, is created at its home. -/
def recordCreation (n : Nat) (s : State) : State :=
  match s.msg n with
  | some (.create pa gva part launch k id) =>
    (match s.launch launch with
    | none => (s.dropMsg n).answered k id
    | some l =>
      if l.dropped then (s.dropMsg n).answered k id
      else match s.recordBad part l (s.trec pa) gva with
        | some f => (s.dropMsg n).answerFault k id f
        | none =>
          if l.live == 2 ^ 32 - 1 then (s.dropMsg n).answerFault k id ⟨fcIndex, 5, gva⟩
          else match (s.dropMsg n).create pa gva part launch with
            | .error (some f) => (s.dropMsg n).answerFault k id f
            | .error none => s
            | .ok s => s.answered k id)
  | _ => s
def execRecordCreation (n : Nat) (s : State) : Res := .next (recordCreation n s)

/-! ## Decrements and releases (R281, R284) -/

/-- A SUCC_SKIP record (R278, R300). -/
def State.succSkip (s : State) (k part entry rec taskid launch : Nat) (f : FaultInfo) : State :=
  s.frqPost ⟨3, f.code, f.cause, part, k, taskid, launch, entry, rec, f.code⟩
/-- The answer of a decrement to its sender. -/
def State.decAnswer (s : State) (src : DecSrc) (f : Option FaultInfo) : State :=
  match src, f with
  | .cmd k id, none => s.answered k id
  | .cmd k id, some f => s.answerFault k id f
  | .succ k part entry rec taskid launch, some f => s.succSkip k part entry rec taskid launch f
  | .succ _ _ _ _ _ _, none => s
  | .remote dev, f => s.emit (.fabricReply dev 0 f.isNone)
/-- A record's counter lowered at its home (R281). -/
def State.decRec (s : State) (pa : Nat) (src : DecSrc) : State :=
  let r := s.trec pa
  if r.cnt == 0 then s.decAnswer src (some ⟨fcIndex, 5, mget s.gvas pa pa⟩)
  else
    let s := s.wrMem (pa + 0x18) 4 (r.cnt - 1)
    (if r.cnt == 1 && r.state == recWaiting then s.placeRec pa else s).decAnswer src none
/-- A broadcast counter lowered at its home (R284). -/
def State.decCtr (s : State) (n : Nat) (src : DecSrc) : State :=
  let b := s.bc n
  if b.value == 0 then s.decAnswer src (some ⟨fcIndex, 5, 0⟩)
  else
    let s := { s with bcs := mput s.bcs n { b with value := b.value - 1 } }
    (if b.value == 1 then s.release n else s).decAnswer src none

/-- The core or device that has sent a decrement. -/
def DecSrc.sender : DecSrc → Nat
  | .cmd k _ => k
  | .succ k _ _ _ _ _ => k
  | .remote dev => 768 + dev
/-- The decrement stands for the same home as that of a target: the channel of a record, the counter itself (log entry 91). -/
def sameHome (rec : Bool) (a b : Nat) : Bool := if rec then channelOf a == channelOf b else a == b
/-- An earlier decrement of the same sender stands for the home of a target before message n (R278). -/
def State.decBefore (s : State) (n : Nat) (src : DecSrc) (rec : Bool) (target : Nat) : Bool :=
  s.before n (fun m => match m with
    | .decr r t _ x => r == rec && x.sender == src.sender && sameHome rec t target
    | .fabSucc x d t _ => rec && d == s.dev.fabid && x.sender == src.sender && sameHome true t target
    | _ => false)
/-- DECREMENT: message n is applied at the home of its counter, one sender's decrements of one home in the order sent (R278). -/
def decrement (n : Nat) (s : State) : State :=
  match s.msg n with
  | some (.decr rec target _ src) =>
    if s.decBefore n src rec target then s
    else if rec then (s.dropMsg n).decRec target src else (s.dropMsg n).decCtr target src
  | _ => s
def execDecrement (n : Nat) (s : State) : Res := .next (decrement n s)

/-- RELEASE_ARRIVAL: every entry held for the counter and epoch in the cluster, one that still waits for room too, may be dispatched, stamped
now (R26, R284). -/
def releaseArrival (n : Nat) (s : State) : State :=
  match s.msg n with
  | some (.relMsg cl ctr epoch) =>
    let go (e : RdqE) : RdqE := if e.held && e.bcn == ctr && e.epoch == epoch then { e with held := false, stamp := s.clock } else e
    let s1 := (s.dropMsg n).updCluster cl (fun c => { c with rdq := c.rdq.map go })
    { s1.setRings (s1.rings.map (fun x => if x.1 / 256 == cl then (x.1, x.2.map go) else x)) with
      msgs := s1.msgs.map (fun m => match m with | .ringWait c e => .ringWait c (if c == cl then go e else e) | m => m),
      clock := s.clock + 1 }
  | _ => s
def execReleaseArrival (n : Nat) (s : State) : Res := .next (releaseArrival n s)

/-- OVERFLOW_RING_PLACEMENT: a placement that waited at the home enters once there is room (R286). -/
def overflowPlace (n : Nat) (s : State) : State :=
  match s.msg n with
  | some (.ringWait cl e) =>
    if s.before n (Msg.waitsFor cl e) then s else ((s.dropMsg n).room cl e).getD s
  | _ => s
def execOverflowRingPlacement (n : Nat) (s : State) : Res := .next (overflowPlace n s)

/-- RDQ_REFILL: the ring's first entry of a priority moves to the RDQ (R286). -/
def rdqRefill (cl part prio : Nat) (s : State) : State :=
  let key := ringKey cl part prio
  match s.ring key with
  | [] => s
  | e :: t =>
    if Nat.blt (s.cluster cl).rdq.length 2048 && s.clState cl != clGated then
      (s.updCluster cl (fun c => { c with rdq := c.rdq ++ [e] })).setRings (mput s.rings key t)
    else s
def execRdqRefill (cluster part prio : Nat) (s : State) : Res := .next (rdqRefill cluster part prio s)

/-- RDQ_LOAD_REPORT: the homes hear how many entries of each partition the cluster's RDQ and rings hold (R287). -/
def loadReport (cl : Nat) (s : State) : State :=
  let count (p : Nat) : Nat := ((s.cluster cl).rdq.filter (fun e => e.part == p)).length +
    ((upFrom 0 4).map (fun r => (s.ring (ringKey cl p r)).length)).foldl (· + ·) 0
  s.updCluster cl (fun c => { c with load := (upFrom 0 48).foldl (fun m p => mset m p (count p) 0) [] })
def execRdqLoadReport (cluster : Nat) (s : State) : Res := .next (loadReport cluster s)

/-! ## Dispatch (R20, R21, R225, R262, R288, R289) -/

/-- Wx: the weights of the enabled partitions whose cluster set holds the cluster. -/
def State.weightSum (s : State) (cl : Nat) : Nat :=
  ((upFrom 0 48).filter (fun p => (s.part p).en && bitOf ((s.part p).fld 8 16) cl)).foldl (fun n p => n + (s.part p).wgt) 0
/-- The record of a partition that a guest virtual address named at its creation. -/
def State.recOfGva (s : State) (part gva : Nat) : Nat :=
  match s.gvas.find? (fun x => x.2 == gva && (match s.launch (s.trec x.1).launch with | some l => l.part == part | none => false)) with
  | some x => x.1
  | none => 0
/-- The record of an entry: its own, or that of the task its save area names. -/
def State.entryRec (s : State) (e : RdqE) : Nat := if e.kind == 1 then s.recOfGva e.part (s.rdMem (e.raddr + 0x18) 8) else e.raddr
/-- The launch of an entry. -/
def State.entryLaunch (s : State) (e : RdqE) : Nat := (s.trec (s.entryRec e)).launch
/-- The entry is a gang member's, which is dispatched with its gang alone; a saved one is resumed with it (R262). -/
def State.gangEntry (s : State) (e : RdqE) : Bool := e.kind == 2 || (e.kind == 1 && s.entryKind (s.trec (s.entryRec e)) == 2)
/-- Nothing keeps an entry from being dispatched: it is not held; a saved task has no command outstanding (R309). -/
def State.readyEntry (s : State) (e : RdqE) : Bool := !e.held && (e.kind != 1 || s.rdMem (e.raddr + 0x2D) 1 == 0)
/-- An entry that may be dispatched by itself. -/
def State.dispatchable (s : State) (e : RdqE) : Bool := s.readyEntry e && !s.gangEntry e
/-- The entry a partition sends first: the highest priority, then the smallest stamp, then the lowest address. -/
def entryBefore (a b : RdqE) : Bool :=
  Nat.blt b.prio a.prio || (a.prio == b.prio && (Nat.blt a.stamp b.stamp || (a.stamp == b.stamp && Nat.blt a.raddr b.raddr)))
def firstEntry (l : List RdqE) : Option RdqE :=
  l.foldl (fun b e => match b with | none => some e | some x => if entryBefore e x then some e else some x) none
/-- The winner of a dispatch and the credits after it (R288). -/
def creditWin (ps : List Nat) (w : Nat → Nat) (wx : Nat) (crd : SMap Int) (ptr : Nat) : Option (Nat × SMap Int × Nat) :=
  let crd := ps.foldl (fun m p => mput m p (min (mget m p 0 + (w p : Int)) (wx : Int))) crd
  let top := ps.foldl (fun (b : Option Int) p => match b with | none => some (mget crd p 0) | some x => some (max x (mget crd p 0))) none
  let ties := ps.filter (fun p => some (mget crd p 0) == top)
  let win := (ties.find? (fun p => Nat.ble ptr p)).or ties.head?
  match win with
  | none => none
  | some p =>
    some (p, mput crd p (max (mget crd p 0 - (wx : Int)) (-(wx : Int))), if Nat.blt 1 ties.length then (p + 1) % 48 else ptr)
/-- The idle core an entry of the partition goes to (R289). -/
def State.idleCore (s : State) (cl part : Nat) : Option Nat :=
  let idle := (coresOf cl).filter (fun k => (s.core k).run == .idle)
  (idle.find? (fun k => (s.core k).task.lastPart == some part)).or idle.head?

/-- The core's last task belonged to another partition (R20, R21). -/
def Core.other (c : Core) (part : Nat) : Bool := match c.task.lastPart with | some p => p != part | none => false
/-- A core as a task of the partition enters or resumes on it (R20, R21, R115, R225): no command of its own is left, and detached ones go on. An
unlisted register holds zero when zero is set, at an entry after another partition's task, and else a free value. -/
def Core.fresh (c : Core) (part : Nat) (zero : Bool) (base : Nat) : Core :=
  let other := c.other part
  { c with
    regs := { c.regs with
      g := [], gh := [], p := [], ph := [], v := [], k := [], q := [], e := [], j := [], a := [],
      undef := if zero && other then none else some base, zr := if other then [] else c.regs.zr,
      wcnt := if other then [] else c.regs.wcnt },
    csr := { Csr.reset with
      partid := BitVec.ofNat 8 part, epc := c.csr.epc, fltmask := c.csr.fltmask, repix := c.csr.repix, fltcode := c.csr.fltcode,
      fltaddr := c.csr.fltaddr },
    toks := [], fly := [], loads := [], cmds := c.cmds.filter (fun x => x.save.isSome), itin := [], pins := [], preempt := false,
    preCyc := 0, hCyc := 0, tCyc := 0, xfer := .none, abort := none, settle := false, stalled := false, iter := 0, via := .target,
    tcWait := none, tcFlt := none, hostAt := .none, run := .task }
/-- Core k made ready for a task of the partition. -/
def State.freshCore (s : State) (k part : Nat) (zero : Bool) : State :=
  let other := (s.core k).other part
  let s := s.dropLines k (fun l => other || l.st == .clean)
  (s.updCore k (fun c => c.fresh part zero s.freeCtr)).draw undefSpan

/-- Core k begins the task of the record at pa (R20), read as memory holds it now (DESIGN CHOICE, log entry 113: R279 lets a field that software
has rewritten be the old or the new one). -/
def State.beginTask (s : State) (k part pa : Nat) : State :=
  let r := s.trec pa
  let s := s.freshCore k part true
  let tv : Nat × Nat := match s.launch r.launch with
    | some l => (l.tvec.toNat, l.repro.toNat + 2 * l.wit.toNat)
    | none => (0, 0)
  let entry := match s.code r.codeh with
    | some c => (c.base + c.codeOff + (nth c.tasks r.taskix ⟨0, 0, 0, 0, 0⟩).entry) % 2 ^ 64
    | none => 0
  let cost := match s.code r.codeh with
    | some c => if r.cost == 0 then (nth c.tasks r.taskix ⟨0, 0, 0, 0, 0⟩).cost else r.cost
    | none => r.cost
  s.updCore k (fun c =>
    { c with
      pc := entry,
      regs := { c.regs with g := [(1, BitVec.ofNat 64 r.arg), (2, BitVec.ofNat 64 (mget s.gvas pa pa))], q := [(0, BitVec.ofNat 64 r.coord)] },
      csr := { c.csr with taskid := BitVec.ofNat 32 r.taskid, tvec := BitVec.ofNat 64 tv.1, detmode := BitVec.ofNat 32 tv.2 },
      task := ⟨pa, mget s.gvas pa pa, r.launch, r.codeh, BitVec.ofNat 64 r.coord, some part, r.discards, cost, r.taskix⟩ })

/-! ## The end of a task (R23, R278, R294, R315, R381) -/

/-- The digest a task adds to its launch's witness (R381). -/
def taskDigest (c : Core) : Nat :=
  ofBytes ((sha512 (toBytes 4 c.csr.taskid.toNat ++ toBytes 4 c.csr.fpstat.toNat ++ toBytes 8 c.task.q0.toNat ++
    (upFrom 8 8).flatMap (fun n => toBytes 8 (c.rgIn n false).toNat))).take 8)
/-- CAL after a task that took c cycles (R315). -/
def calNext (cal c cost : Nat) : Nat :=
  let obs := Nat.min (256 * c / cost) 0xFFFF
  ((cal : Int) + Int.fdiv ((obs : Int) - (cal : Int)) 16).toNat

/-- One entry of a successor list (R278). -/
def State.successor (s : State) (k part entry : Nat) : State :=
  let c := s.core k
  let src : DecSrc := .succ k part entry c.task.recGVA c.csr.taskid.toNat c.task.launch
  let skip (s : State) (f : FaultInfo) : State := s.decAnswer src (some f)
  if entry % 8 != 0 then skip s ⟨fcAlign, 0, entry⟩
  else match s.lsTarget k part entry accR with
    | .error f => skip s f
    | .ok ea =>
      let e := s.rdMem ea 8
      let a := fld e 0 63
      if bitOf e 63 then
        (match ctrFault (s.part part) a with
        | some f => skip s f
        | none => s.send (.decr false ((s.part part).ctr a) part src))
      else if a % 128 != 0 then skip s ⟨fcAlign, 0, a⟩
      else match s.xlate k part a (accR + accW) with
        | .error f => skip s f
        | .ok r => match paKind r.pa with
          | .localHbm => s.send (.decr true r.pa part src)
          | .remote =>
            if s.noRoute (fabricDev r.pa) then skip s ⟨fcFabric, 0, a⟩
            else
              let dev := fabricDev r.pa
              let s := s.send (.fabSucc src dev (fabricOff r.pa) s.dev.ptime.toNat)
              if dev == s.dev.fabid then s
              else (s.charge part (s.portBucket dev k) 8).emit (.fabric k 0 dev (s.portBucket dev k - 1) 3 (fabricOff r.pa) 0)
          | _ => skip s ⟨fcPerm, 7, a⟩

/-- The Shuner port's bucket that an entry's decrement draws on, when it leaves the device (R274). -/
def State.succBucket (s : State) (k part entry : Nat) : Option Nat :=
  match s.lsTarget k part entry accR with
  | .error _ => none
  | .ok ea => match s.xlate k part (fld (s.rdMem ea 8) 0 63) (accR + accW) with
    | .error _ => none
    | .ok r =>
      if bitOf (s.rdMem ea 8) 63 || paKind r.pa != .remote || s.noRoute (fabricDev r.pa) || fabricDev r.pa == s.dev.fabid then none
      else some (s.portBucket (fabricDev r.pa) k)

/-- An operation in the port of a core whose task goes: a reduction still on its way stays (R417). -/
def MemOp.orphaned (o : MemOp) : MemOp :=
  match o with
  | .store n a v l p => .store n a v l p
  | .amo n a v w op x c r p => .amo n a v w op x c r (256 + p % 256)
/-- The core goes back to its RDQ as idle. -/
def State.toIdle (s : State) (k : Nat) : State :=
  s.updCore k (fun c =>
    { c with run := .idle, mq := c.mq.map MemOp.orphaned, preempt := false, abort := none, xfer := .none, settle := false, stalled := false })

/-- The core's own commands have all ended: what is left is detached from saved tasks (R306). -/
def Core.unattached (c : Core) : Bool := c.cmds.all (fun x => x.save.isSome)
/-- An ACQ of the core whose task has gone is answered to nobody. -/
def State.dropAcqs (s : State) (k : Nat) : State :=
  { s with msgs := s.msgs.filter (fun m => match m with | .acq k' _ _ _ => k' != k | .acqReply k' _ _ _ => k' != k | _ => true) }
/-- TASK_END: steps 2 to 4 of DONE (R23), once the task's stores are performed at device scope (R225), and its decrements may leave the device
(R274; log entry 107). -/
def taskEnd (k : Nat) (s : State) : State :=
  let c := s.core k
  let part := c.csr.partid.toNat
  let r := s.trec c.task.recPA
  let entries := (upFrom 0 r.succn).map (fun n => (r.succ + 8 * n) % 2 ^ 64)
  if c.run != .ending || !s.storesDone k ||
      entries.any (fun e => match s.succBucket k part e with | some b => s.bucket part b < 0 | none => false) then s
  else
    let l := c.task.launch
    let s := (s.flushL0 k).setRecState c.task.recPA recDone
    let s := if bitOf c.csr.detmode.toNat 1 then s.updLaunch l (fun x => { x with w := x.w + BitVec.ofNat 64 (taskDigest c) }) else s
    let s := entries.foldl (fun s e => s.successor k part e) s
    let s := s.updQueueOf l (fun q =>
      { q with rem := q.rem - r.cost, runN := q.runN - 1, cal := if r.cost == 0 then q.cal else calNext q.cal c.tCyc r.cost })
    let s := ((s.dropPins k).toIdle k).updLaunch l (fun x => { x with live := x.live - 1 })
    match s.launch l with
    | some x => if x.live == 0 && !x.dropped then (s.endLaunch l 0).queueSaved x.key else s.queueSaved x.key
    | none => s
def execTaskEnd (core : Nat) (s : State) : Res := .next (taskEnd core s)

/-- The task of core k has nothing under way any more: no token is PENDING, no command runs, and its stores are performed (R294). -/
def State.quietTask (s : State) (k : Nat) : Bool :=
  let c := s.core k
  !(upFrom 0 64).any (fun t => (c.tok t).st == .pending) && c.unattached && s.storesDone k
/-- The last steps of an abort (R294). -/
def State.endAbort (s : State) (k : Nat) : State :=
  let c := s.core k
  let a := c.abort.getD ⟨0, 0, 0, 0⟩
  let s := ((s.dropAcqs k).flushL0 k).dropPins k
  let s := s.frqPost ⟨2, a.code, a.detail, c.csr.partid.toNat, k, c.csr.taskid.toNat, c.task.launch, a.addr, a.faddr, c.task.recGVA⟩
  let s := (s.updQueueOf c.task.launch (fun q => { q with runN := q.runN - 1 })).toIdle k
  match s.launch c.task.launch with
  | some x => s.queueSaved x.key
  | none => s

end Sys2Proof.Machine
end

