-- ==== Sys2Proof/Machine/Save.lean ====
section
/-! DEFINITION. Pre-emption: saving a task and resuming it (R117, R305 to R309), dispatch (R288, R289) and gangs (R262), and what a core does
while it runs no bundle. -/

namespace Sys2Proof.Machine

/-! ## Save frames (R308) -/

/-- A frame from the partition's free list. -/
def State.popFrame (s : State) (part : Nat) : Option (State × Nat) :=
  let p := s.part part
  let h := p.fld 0x84 4
  if h == p.fld 0x88 4 then none
  else some (s.updPart part (fun p => p.setFld 0x84 4 ((h + 1) % 2 ^ 32)), s.rdMem (p.fld 0x78 8 + 8 * (h % p.fld 0x80 4)) 8)
/-- A frame goes back to the list, before its head. -/
def State.pushFrame (s : State) (part a : Nat) : State :=
  let p := s.part part
  let h := (p.fld 0x84 4 + 2 ^ 32 - 1) % 2 ^ 32
  (s.wrMem (p.fld 0x78 8 + 8 * (h % p.fld 0x80 4)) 8 a).updPart part (fun p => p.setFld 0x84 4 h)
def State.popFrames (s : State) (part : Nat) : Nat → Option (State × List Nat)
  | 0 => some (s, [])
  | n + 1 => match s.popFrame part with
    | none => none
    | some (s, a) => match s.popFrames part n with
      | none => none
      | some (s, l) => some (s, a :: l)
def State.pushFrames (s : State) (part : Nat) (l : List Nat) : State := l.reverse.foldl (fun s a => s.pushFrame part a) s

/-- The queue of a core's task. -/
def State.queueOf (s : State) (k : Nat) : Option Nat := (s.launch (s.core k).task.launch).map Launch.key
/-- n frames for a save of core k: from the reservation of the vacate that orders it, else from the free list. -/
def State.saveFrames (s : State) (k n : Nat) : Option (State × List Nat) :=
  match (s.queueOf k).bind s.vacateOf with
  | some (i, v) =>
    if Nat.blt v.frames.length n then none
    else some ({ s with vacates := modNth s.vacates i (fun v => { v with frames := v.frames.drop n }) }, v.frames.take n)
  | none => s.popFrames (s.core k).csr.partid.toNat n

/-! ## Saving (R306, R307) -/

/-- The bits of a mask below n. -/
def maskBits (m n : Nat) : List Nat := (upFrom 0 n).filter (fun i => bitOf m i)
/-- A liveness set that names everything a core holds (R305). -/
def Core.fullSet (c : Core) : LiveSet :=
  ⟨2 ^ 64 - 1, 2 ^ 64 - 1, 2 ^ 32 - 1, 65535, 65535, 65535, 65535, 255, 255, 15, c.pins.map (fun t => (t.tid, t.q, 1))⟩
/-- The liveness set of SAFEIX (R93, R306); a codebook-mode table brings its w register (R117). -/
def State.liveSet (s : State) (k : Nat) (full : Bool) : LiveSet :=
  let c := s.core k
  if full then c.fullSet
  else
    let l := match s.code c.task.codeh with
      | some x => nth x.live c.csr.safeix.toNat ⟨0, 0, 0, 0, 0, 0, 0, 0, 0, 0, []⟩
      | none => ⟨0, 0, 0, 0, 0, 0, 0, 0, 0, 0, []⟩
    let cbs := ((maskBits l.z 16).filter (fun n => (c.zrec n).mode == 1)).map (fun n => (c.zrec n).cb)
    { l with w := (upFrom 0 4).foldl (fun m n => if bitOf m n || !cbs.contains n then m else m + 2 ^ n) l.w }
/-- Withdrawn channel commands: those that have not taken their slot or data (R306, step 3). -/
def Core.withdrawn (c : Core) : List Cmd :=
  c.cmds.filter (fun x => x.save.isNone && x.st != .running && (match x.ins with | .chsend _ _ _ _ => true | .chrecv _ _ _ _ => true | _ => false))
/-- Whether a set needs the auxiliary frame, and how many frames it takes (R308). -/
def LiveSet.aux (l : LiveSet) (c : Core) : Bool := l.w != 0 || !l.pins.isEmpty || !c.withdrawn.isEmpty
def LiveSet.frames (l : LiveSet) (c : Core) : Nat :=
  1 + (l.v != 0).toNat + 4 * (maskBits l.a 8).length + 8 * (maskBits l.z 16).length + (l.aux c).toNat

/-- Bytes split into 4 KiB frames. -/
def framesOf : Nat → List Byte → List (List Byte)
  | 0, _ => []
  | n + 1, l => l.take 4096 :: framesOf n (l.drop 4096)
/-- Value i of a w register: entries at or beyond CNT are undefined, free values numbered from base (R108). -/
def Core.wVal (c : Core) (n i base : Nat) : W32 :=
  if Nat.blt (i / 4) (c.wcnt n) then mget c.regs.w (n * 64 + i) 0 else freeBits 32 (base + 64 * n + i)
/-- The contents of the data frames, in their order (R307). -/
def saveData (c : Core) (l : LiveSet) (base : Nat) : List (List Byte) :=
  (if l.v == 0 then [] else [(upFrom 0 32).flatMap (fun n => if bitOf l.v n then toBytes 128 (c.rv n).toNat else toBytes 128 0)]) ++
  (maskBits l.a 8).flatMap (fun n => framesOf 4 ((upFrom 0 4096).flatMap (fun i => toBytes 4 (c.ra n (i / 64) (i % 64)).toNat))) ++
  (maskBits l.z 16).flatMap (fun n => framesOf 8 (zBytes c n 0)) ++
  (if !l.aux c then [] else
    [(maskBits l.w 4).flatMap (fun n => (upFrom 0 64).flatMap (fun i => toBytes 4 (c.wVal n i base).toNat) ++ toBytes 4 (c.wcnt n)) ++
      l.pins.flatMap (fun p => toBytes 4 p.1 ++ toBytes 8 p.2.1 ++ toBytes 4 p.2.2) ++
      c.withdrawn.flatMap (fun x => let e := encode x.ins
        toBytes 4 e.1 ++ toBytes 4 (e.2.getD 0) ++ toBytes 8 (nth x.args 0 0))])
/-- p1 to p7 at bits 1 to 7, bit 0 set. -/
def Core.predByte (c : Core) : Nat := 1 + (upFrom 1 7).foldl (fun m n => if mget c.regs.p n false then m + 2 ^ n else m) 0
/-- The token entry of a save area. -/
def tokEntry (t : Tok) (n : Nat) : List Byte := saveTokBytes t.st t.flt n
/-- The header frame (R307). -/
def saveHeader (c : Core) (l : LiveSet) (full don : Bool) (det : Nat) (frames : List Nat) : List Byte :=
  let w := fun (n v : Nat) => toBytes n v
  let named (m n : Nat) (b : List Byte) : List Byte := if bitOf m n then b else List.replicate b.length 0
  w 8 c.pc ++ w 4 c.iter ++ w 4 c.csr.taskid.toNat ++ w 8 c.csr.tvec.toNat ++ w 8 c.task.recGVA ++ w 4 c.csr.detmode.toNat ++
  w 4 c.csr.fpstat.toNat ++ w 4 c.csr.safeix.toNat ++ w 1 (full.toNat + 2 * don.toNat) ++ w 1 det ++ w 1 c.csr.partid.toNat ++ w 1 c.predByte ++
  w 8 c.csr.stickv0.toNat ++ w 8 c.csr.stickv1.toNat ++ w 8 c.csr.stickl.toNat ++ w 8 c.csr.lcnt.toNat ++ w 8 c.csr.lbeg.toNat ++
  w 8 c.csr.lend.toNat ++ w 8 l.g ++ w 8 l.t ++ w 4 l.v ++ w 2 l.q ++ w 2 l.e ++ w 2 l.j ++ w 2 l.z ++ w 1 l.k ++ w 1 l.a ++
  w 1 l.pins.length ++ w 1 l.w ++
  (upFrom 0 16).flatMap (fun n => named l.z n (w 16 (c.zrec n).bits)) ++
  (upFrom 0 64).flatMap (fun n => named l.g n (w 8 (c.rgIn n false).toNat)) ++
  (upFrom 0 8).flatMap (fun n => named l.k n (w 16 (c.rk n).toNat)) ++
  (upFrom 0 16).flatMap (fun n => named l.q n (w 8 (c.rq n).toNat)) ++
  (upFrom 0 16).flatMap (fun n => named l.e n (w 4 (c.re n).toNat)) ++
  (upFrom 0 16).flatMap (fun n => named l.j n (w 4 (c.rj n).toNat)) ++
  (upFrom 0 64).flatMap (fun n => named l.t n (tokEntry (c.tok n) n)) ++
  w 8 c.csr.epc.toNat ++ w 8 c.csr.fltaddr.toNat ++ w 4 c.csr.fltcode.toNat ++ w 4 c.csr.repix.toNat ++ w 1 c.csr.fltmask.toNat ++ w 7 0 ++
  (upFrom 0 162).flatMap (fun n => w 8 (nth frames n 0)) ++ List.replicate 976 0

/-- Step 2 of a save (R306): M commands parked on a page request end with XLATE, cause 5. -/
def State.dropPaging (s : State) (k : Nat) : State :=
  let waits (x : Cmd) : Bool := isM x.ins && (s.prqWaits (.cmd k x.id) || x.tiles.any (fun t => s.prqWaits (.fill (clusterOf k) t)))
  ((s.core k).cmds.filter (fun x => x.save.isNone && x.st != .running && waits x)).foldl (fun s x => s.failCmd k x.id ⟨fcXlate, 5, 0⟩) s
/-- Every command a save waits for has completed, and every load has landed (R306, step 2). -/
def Core.savable (c : Core) : Bool :=
  c.loads.isEmpty && (c.cmds.filter (fun x => x.save.isNone)).all (fun x =>
    !isM x.ins && (match x.ins with | .rld _ _ _ _ => false | .rfaa _ _ _ _ _ => false | .itstep _ _ _ _ => false | _ => true))

/-- The tiles of a liveness set's pinned ranges, in order (R93). -/
def pinTiles (part : Nat) (pins : List (Nat × Nat × Nat)) : List Tile :=
  pins.flatMap (fun p => (upFrom 0 p.2.2).map (fun n => (tileOf part p.2.1).step 0 (n : Nat)))
/-- Tables and codebooks that a liveness set does not name are dropped at a save (R107, R108, R306). -/
def Regs.keepNamed (r : Regs) (l : LiveSet) : Regs :=
  { r with
    zr := r.zr.map (fun e => if bitOf l.z e.1 then e else (e.1, { e.2 with st := .empty })),
    wcnt := r.wcnt.filter (fun e => bitOf l.w e.1) }
/-- Steps 3 to 8 of a save with the frames at hand (R306), for the saved list of queue key. -/
def State.saveTask (s : State) (k key : Nat) (full don : Bool) (l : LiveSet) (hdr : Nat) (frames : List Nat) : State :=
  let cl := clusterOf k
  let s := (s.flushL0 k).dropLines k (fun l => l.st == .clean || l.st == .dirty)
  let c := s.core k
  let part := c.csr.partid.toNat
  let gone := c.withdrawn.map (fun x => x.id)
  let det := (c.cmds.filter (fun x => x.save.isNone && !gone.contains x.id)).length
  let data := saveData c l s.freeCtr
  let s := c.withdrawn.foldl (fun s x => x.tiles.foldl (fun s t => s.refDown cl t) s) (s.draw 256)
  let s := (frames.zip data).foldl (fun s x => s.wrBytes x.1 (x.2 ++ List.replicate (4096 - x.2.length) 0)) s
  let s := s.wrBytes hdr (saveHeader c l full don det frames)
  let s := { s with savedZ := s.savedZ ++ (maskBits l.z 16).map (fun n => (⟨hdr, n, cl, part, c.zrec n⟩ : SavedZ)) }
  let named := pinTiles part l.pins
  let s := { s with savedT := s.savedT ++ [(⟨hdr, cl, c.pins.filter (fun t => named.contains t), c.tCyc⟩ : SavedTask)] }
  let s := (c.pins.filter (fun t => !named.contains t)).foldl (fun s t => s.dropPin k t) s
  let s := s.updCore k (fun c =>
    { c with
      cmds := (c.cmds.filter (fun x => !gone.contains x.id)).map (fun x => if x.save.isNone then { x with save := some hdr } else x),
      regs := c.regs.keepNamed l, pins := [], toks := [] })
  let e : RdqE := ⟨hdr, part, (s.trec c.task.recPA).prio, false, 0, 0, 1, s.clock⟩
  let s := { s with clock := s.clock + 1 }.updQcb key (fun q => { q with saved := q.saved ++ [(cl, e)], runN := q.runN - 1, ent := q.ent + 1 })
  (s.toIdle k).queueSaved key

/-- A core that saves its task: it waits for its loads, commands and stores, since the task may go on behind another port, then for frames
(R236, R306, R308). Its cycles are no cycles of the task (R315). A task whose launch a function reset has ended is not saved (R386). -/
def saveStep (k : Nat) (full don told : Bool) (s : State) : State :=
  let s := s.dropPaging k
  let c := s.core k
  if !c.savable || !s.systemDone k then s
  else match s.queueOf k with
  | none => (((s.flushL0 k).dropLines k (fun _ => true)).dropPins k).toIdle k
  | some key =>
    let l := s.liveSet k full
    match s.saveFrames k (l.frames c) with
    | some (s, h :: t) => s.saveTask k key full don l h t
    | _ =>
      if told then s
      else
        let p := s.part c.csr.partid.toNat
        (s.frqPostHv ⟨6, 0x13, 0, c.csr.partid.toNat, k, c.csr.taskid.toNat, c.task.launch, p.fld 0x78 8, l.frames c, key % 17⟩).updCore k
          (fun c => { c with run := .saving full don true })

/-! ## Resumption (R309) -/

/-- The number at an offset of a save area. -/
def State.area (s : State) (hdr off n : Nat) : Nat := s.rdMem (hdr + off) n
/-- A saved token (R307). DESIGN CHOICE (log entry 92): an ERROR token comes back as one that no WAITK has waited on and no command consumed, for
its entry has no field for that; step 1 of DONE then delivers it (R143). -/
def State.savedTok (s : State) (hdr n : Nat) : Tok :=
  let a := 0x500 + 8 * n
  match s.area hdr a 1 with
  | 1 => ⟨.pending, none, none, false⟩
  | 2 => ⟨.done, none, none, false⟩
  | 3 => ⟨.error, some ⟨⟨s.area hdr (a + 1) 1, s.area hdr (a + 2) 2 % 512, 0⟩, s.area hdr (a + 4) 1 % 64, bitOf (s.area hdr (a + 4) 1) 6⟩, none, false⟩
  | _ => Tok.free
/-- The named registers of a file: n bytes each from an offset on. -/
def State.savedFile (s : State) (hdr m cnt off n w : Nat) : SMap (BitVec w) :=
  (maskBits m cnt).map (fun i => (i, BitVec.ofNat w (s.area hdr (off + n * i) n)))
/-- The pinned ranges and withdrawn commands of the auxiliary frame at a. -/
def State.auxPins (s : State) (a n : Nat) : List (Nat × Nat × Nat) :=
  (upFrom 0 n).map (fun i => (s.rdMem (a + 16 * i) 4, s.rdMem (a + 16 * i + 4) 8, s.rdMem (a + 16 * i + 12) 4))
def State.auxCmds (s : State) (a : Nat) : Nat → List (Instr × Nat)
  | 0 => []
  | n + 1 =>
    match decodeSlot .x (s.rdMem a 4) (some (s.rdMem (a + 4) 4)) with
    | .ok i => (i, s.rdMem (a + 8) 8) :: s.auxCmds (a + 16) n
    | .error _ => []

/-- A token that the save area does not hold is undefined after resumption (R117): FREE or DONE, by a free value; not ERROR, whose delivery would
be a fault that an undefined value causes by itself (R10; log entry 108). -/
def freeTokAt (base n : Nat) : Tok := if Config.free (base + n) % 2 == 1 then ⟨.done, none, none, false⟩ else Tok.free
/-- What a resumption leaves undefined beside the unlisted registers: the handler bank and HSCR (R117). -/
def Core.unsaved (c : Core) (base : Nat) : Core :=
  { c with
    regs := { c.regs with
      gh := (upFrom 56 8).map (fun n => (n, freeBits 64 (base + 192 + n))),
      ph := [6, 7].map (fun n => (n, Config.free (base + 256 + n) % 2 == 1)) },
    csr := { c.csr with hscr := freeBits 64 (base + 300) } }
/-- A named pin is asked for (R201, R309): it holds on a resident frame at once, and else from the end of the tile's fill on, which is asked for
as soon as there is a way. A set keeps at most 12 pinned ways (DESIGN CHOICE, log entry 106). -/
def State.restorePin (s : State) (k : Nat) (t : Tile) : State :=
  let cl := clusterOf k
  let s := s.updCore k (fun c => if c.pins.contains t then c else { c with pins := c.pins ++ [t] })
  match s.held cl t with
  | some key => if Nat.blt (s.pinned cl (setFrames t)) 12 then s.updFrame cl key (fun f => { f with pin := true }) else s
  | none =>
    if s.isFilling cl t then s
    else match s.allocate cl t 0 5 with
      | none => s.updCore k (fun c => { c with wants := c.wants ++ [t] })
      | some (s, _) => s.ask cl ⟨t, false, false⟩
/-- The record of a saved task leaves the list, and the pins that stood for it in its cluster with it (R306). -/
def State.takeSaved (s : State) (hdr : Nat) : State :=
  match s.savedT.find? (fun x => x.area == hdr) with
  | none => s
  | some x =>
    let s := { s with savedT := s.savedT.filter (fun y => y.area != hdr) }
    x.pins.foldl (fun s t => match s.held x.cl t with
      | some key => s.updFrame x.cl key (fun f => { f with pin := s.pinHeld x.cl t })
      | none => s) s
/-- What a resumed core does: it enqueues withdrawn commands again, and then comes the task's first bundle, or step 1 of its DONE (R262, R309). -/
def Run.resumed (don : Bool) (cmds : List (Instr × Nat)) : Run :=
  if cmds.isEmpty then (if don then .doneWait else .task) else .resuming don cmds
/-- Core k takes up the task saved at hdr (R309). What the area does not hold is undefined (R117): unlisted registers, tokens, HSCR and the handler
bank hold free values; STATUS is zero, for a task is saved in task mode (R305). Tables and codebooks that the liveness
set does not name are EMPTY (R347). Withdrawn channel commands are enqueued again before its first bundle (R262). -/
def State.resumeTask (s : State) (k part hdr : Nat) : State :=
  let f := fun off n => s.area hdr off n
  let pa := s.recOfGva part (f 0x18 8)
  let r := s.trec pa
  let zs := (s.savedZ.filter (fun z => z.area == hdr)).map (fun z => (z.n, z.zr))
  let frame := fun n => f (0x720 + 8 * n) 8
  let vF := (f 0x70 4 != 0).toNat
  let la := maskBits (f 0x7D 1) 8
  let lz := maskBits (f 0x7A 2) 16
  let aux := vF + 4 * la.length + 8 * lz.length
  let ws := maskBits (f 0x7F 1) 4
  let npins := f 0x7E 1
  let hasAux := frame aux != 0
  let wAt := frame aux
  let pins := if hasAux then s.auxPins (wAt + 260 * ws.length) npins else []
  let cmds := if hasAux then s.auxCmds (wAt + 260 * ws.length + 16 * npins) 32 else []
  let frames := hdr :: ((upFrom 0 162).map frame).filter (· != 0)
  let accs : SMap W32 := ((upFrom 0 la.length).zip la).flatMap (fun x => (upFrom 0 4096).map (fun i =>
    (x.2 * 4096 + i, BitVec.ofNat 32 (s.rdMem (frame (vF + 4 * x.1 + i / 1024) + 4 * (i % 1024)) 4))))
  let zvs : SMap W32 := ((upFrom 0 lz.length).zip lz).flatMap (fun x => (upFrom 0 8192).map (fun i =>
    (x.2 * 8192 + i, BitVec.ofNat 32 (s.rdMem (frame (vF + 4 * la.length + 8 * x.1 + i / 1024) + 4 * (i % 1024)) 4))))
  let wvs : SMap W32 := ((upFrom 0 ws.length).zip ws).flatMap (fun x => (upFrom 0 64).map (fun i =>
    (x.2 * 64 + i, BitVec.ofNat 32 (s.rdMem (wAt + 260 * x.1 + 4 * i) 4))))
  let wcs : SMap Nat := ((upFrom 0 ws.length).zip ws).map (fun x => (x.2, s.rdMem (wAt + 260 * x.1 + 256) 4))
  let vs : SMap V1024 := (maskBits (f 0x70 4) 32).map (fun n => (n, BitVec.ofNat 1024 (s.rdMem (frame 0 + 128 * n) 128)))
  let ps : SMap Bool := (upFrom 1 7).map (fun n => (n, bitOf (f 0x2F 1) n))
  let cyc := match s.savedT.find? (fun x => x.area == hdr) with | some x => x.cyc | none => 0
  let s := s.freshCore k part false
  let base := s.freeCtr
  let toks := (upFrom 0 64).map (fun n => (n, if bitOf (f 0x68 8) n then s.savedTok hdr n else freeTokAt base n))
  let s := (s.draw 512).updCore k (fun c => ({ c with
      pc := f 0 8, iter := f 8 4, toks := toks, tCyc := cyc, run := Run.resumed (bitOf (f 0x2C 1) 1) cmds,
      regs := { c.regs with
        g := s.savedFile hdr (f 0x60 8) 64 0x180 8 64, k := s.savedFile hdr (f 0x7C 1) 8 0x380 16 128,
        q := s.savedFile hdr (f 0x74 2) 16 0x400 8 64, e := s.savedFile hdr (f 0x76 2) 16 0x480 4 32,
        j := s.savedFile hdr (f 0x78 2) 16 0x4C0 4 32, v := vs, a := accs, p := ps,
        zv := zvs.foldl (fun m e => mset m e.1 e.2 0) c.regs.zv, zr := zs,
        w := wvs.foldl (fun m e => mput m e.1 e.2) c.regs.w, wcnt := wcs },
      csr := { c.csr with
        taskid := BitVec.ofNat 32 (f 0xC 4), tvec := BitVec.ofNat 64 (f 0x10 8), detmode := BitVec.ofNat 32 (f 0x20 4),
        fpstat := BitVec.ofNat 32 (f 0x24 4), safeix := BitVec.ofNat 32 (f 0x28 4), stickv0 := BitVec.ofNat 64 (f 0x30 8),
        stickv1 := BitVec.ofNat 64 (f 0x38 8), stickl := BitVec.ofNat 64 (f 0x40 8), lcnt := BitVec.ofNat 32 (f 0x48 4),
        lbeg := BitVec.ofNat 64 (f 0x50 8), lend := BitVec.ofNat 64 (f 0x58 8), epc := BitVec.ofNat 64 (f 0x700 8),
        fltaddr := BitVec.ofNat 64 (f 0x708 8), fltcode := BitVec.ofNat 32 (f 0x710 4), repix := BitVec.ofNat 32 (f 0x714 4),
        fltmask := BitVec.ofNat 8 (f 0x718 1) },
      task := ⟨pa, f 0x18 8, r.launch, r.codeh, BitVec.ofNat 64 r.coord, some part, r.discards, r.cost, r.taskix⟩ } : Core).unsaved base)
  let s := (({ s with savedZ := s.savedZ.filter (fun z => z.area != hdr) }.takeSaved hdr).pushFrames part frames)
  (pinTiles part pins).foldl (fun s t => s.restorePin k t) s

/-- The first of the withdrawn commands is enqueued again once the X queue has a credit for it (R31, R247, R262). -/
def resumeStep (k : Nat) (don : Bool) (cmds : List (Instr × Nat)) (s : State) : State :=
  let s := { s with cur := k }
  match cmds with
  | [] => s.updCore k (fun c => { c with run := .resumed don [] })
  | x :: t =>
    if Nat.ble (queueDepth false) (s.me.inQueue false) then s.updCore k (fun c => c.tick 1)
    else (match edgeOf x.1 with
      | some e => s.enqueue s.me x.1 e [x.2] false
      | none => s).updCore k (fun c => { c with run := .resumed don t })

/-! ## Dispatch (R262, R288, R289) -/

/-- An entry leaves its cluster's entries for core k, whose task begins or resumes. -/
def State.sendTo (s : State) (cl k : Nat) (e : RdqE) : State :=
  let l := s.entryLaunch e
  let s := (s.takeEntry cl e).countEv (unitCluster cl) 0x28 e.part 1
  let s := s.updQueueOf l (fun q => { q with runN := q.runN + 1, ent := q.ent - 1 })
  if e.kind == 1 then s.resumeTask k e.part e.raddr else s.beginTask k e.part e.raddr

/-- The placed members of a gang of a launch: cluster and entry of each task. -/
def State.members (s : State) (l : Nat) (gang : List Nat) : List (Nat × RdqE) :=
  (upFrom 0 96).flatMap (fun cl => ((s.entriesOf cl).filter (fun e =>
    s.gangEntry e && s.readyEntry e && s.entryLaunch e == l && gang.contains (s.trec (s.entryRec e)).taskix)).map (fun e => (cl, e)))
/-- Every member of a gang has been placed, or has ended before: its endpoint records are all created, and one that is not DONE has an entry among
ms. -/
def State.gangPlaced (s : State) (l : Nat) (gang : List Nat) (ms : List (Nat × RdqE)) : Bool :=
  (match s.launch l with | some x => gang.all (fun t => x.ends.any (fun e => e.1 == t)) | none => false) &&
    s.gvas.all (fun x => let r := s.trec x.1
      r.launch != l || !gang.contains r.taskix || r.state == recDone || ms.any (fun m => s.entryRec m.2 == x.1))
/-- The gangs of a launch with their lowest channels, in ascending order of these (R262). -/
def State.gangsOf (s : State) (x : Launch) : List (Nat × List Nat) :=
  match s.code x.codeh with
  | none => []
  | some c => c.gangs.map (fun g => (c.chans.findIdx (fun y => g.contains y.2.1), g))
/-- The gang an arbiter takes next: the first of the partition, by launch and lowest channel, some member of which waits. DESIGN CHOICE (log entry
109): a gang none of whose members has been placed does not keep a later one waiting. -/
def State.nextGang (s : State) (part : Nat) : Option (Nat × Nat) :=
  s.launches.findSome? (fun x =>
    if x.2.part != part then none
    else (s.gangsOf x.2).findSome? (fun g => if (s.members x.1 g.2).isEmpty then none else some (x.1, g.1)))
/-- The gang of a launch and lowest channel: its tasks. -/
def State.gangAt (s : State) (l ch : Nat) : List Nat :=
  match s.launch l with
  | none => []
  | some x => (((s.gangsOf x).find? (fun g => g.1 == ch)).map (fun g => g.2)).getD []
/-- The arbiter of a partition keeps the gang it holds while a member of it waits, and else takes the next (R262). -/
def State.takeGang (s : State) (part : Nat) : State :=
  let keep := match mget s.gangs part none with
    | some (l, ch) => !(s.members l (s.gangAt l ch)).isEmpty
    | none => false
  if keep then s else { s with gangs := mset s.gangs part (s.nextGang part) none }
/-- The gang a partition's arbiter holds: its launch, and its members once all are placed. -/
def State.heldGang (s : State) (part : Nat) : Option (Nat × List (Nat × RdqE)) :=
  match mget s.gangs part none with
  | none => none
  | some (l, ch) =>
    let m := s.members l (s.gangAt l ch)
    some (l, if s.gangPlaced l (s.gangAt l ch) m then m else [])
/-- The core reserved for a member in its cluster. -/
def State.reserved (s : State) (l : Nat) (m : Nat × RdqE) : Option Nat :=
  (coresOf m.1).find? (fun k => (s.core k).run == .reserved && (s.core k).task.launch == l && (s.core k).task.recPA == s.entryRec m.2)
/-- The next idle core of each member's cluster is reserved for it: the one that a dispatch of its entry would take (R262, R289). -/
def State.reserve (s : State) (l : Nat) (ms : List (Nat × RdqE)) : State :=
  ms.foldl (fun s m =>
    if (s.reserved l m).isSome || s.clState m.1 != clActive then s
    else match s.idleCore m.1 m.2.part with
      | none => s
      | some k => s.updCore k (fun c => { c with run := .reserved, task := { c.task with launch := l, recPA := s.entryRec m.2 } })) s
/-- Idle cores of a cluster are reserved for the members there of every partition's gang, before any other entry is dispatched to them (R262). -/
def State.reserveIn (s : State) (cl : Nat) : State :=
  (upFrom 0 48).foldl (fun s p => match s.heldGang p with
    | some (l, ms) => s.reserve l (ms.filter (fun m => m.1 == cl))
    | none => s) s
/-- The partitions with an entry of a list. -/
def partsOf (l : List RdqE) : List Nat := (upFrom 0 48).filter (fun p => l.any (fun e => e.part == p))

/-- DISPATCH: an idle core of an ACTIVE cluster that no gang needs takes the entry of R288, from the RDQ or a ring (R25, R34). -/
def dispatch (cl : Nat) (s : State) : State :=
  let s := s.reserveIn cl
  let c := s.cluster cl
  let ok := (s.entriesOf cl).filter (fun e => s.dispatchable e)
  if s.clState cl != clActive || !((coresOf cl).any (fun k => (s.core k).run == .idle)) then s
  else match creditWin (partsOf ok) (fun p => (s.part p).wgt) (s.weightSum cl) c.crd c.ptr with
    | none => s
    | some (p, crd, ptr) =>
      match firstEntry (ok.filter (fun e => e.part == p)), s.idleCore cl p with
      | some e, some k => (s.updCluster cl (fun c => { c with crd := crd, ptr := ptr })).sendTo cl k e
      | _, _ => s
def execDispatch (cluster : Nat) (s : State) : Res := .next (dispatch cluster s)

/-- The credits of a dispatch whose winner is given (R262, R288): every partition with a dispatchable entry gains, and the winner pays. -/
def creditPay (ps : List Nat) (w : Nat → Nat) (wx : Nat) (crd : SMap Int) (p : Nat) : SMap Int :=
  let crd := ps.foldl (fun m q => mput m q (min (mget m q 0 + (w q : Int)) (wx : Int))) crd
  mput crd p (max (mget crd p 0 - (wx : Int)) (-(wx : Int)))
/-- A member's cluster sends it to a core: a dispatch of the cluster that the gang's partition wins (log entry 94). -/
def State.sendMember (s : State) (cl k : Nat) (e : RdqE) : State :=
  let ps := partsOf (e :: (s.entriesOf cl).filter (fun x => s.dispatchable x))
  (s.updCluster cl (fun c => { c with crd := creditPay ps (fun p => (s.part p).wgt) (s.weightSum cl) c.crd e.part })).sendTo cl k e
/-- GANG_DISPATCH: the partition's arbiter takes a gang, cores are reserved for its members, and once every member has one, in clusters that are all
ACTIVE, all begin (R262, R287). -/
def gangDispatch (part : Nat) (s : State) : State :=
  let s := s.takeGang part
  match s.heldGang part with
  | none => s
  | some (l, ms) =>
    let s := s.reserve l ms
    if ms.isEmpty || ms.any (fun m => (s.reserved l m).isNone || s.clState m.1 != clActive) then s
    else
      let t := ms.foldl (fun s m => match s.reserved l m with
        | some k => s.sendMember m.1 k m.2
        | none => s) s
      { t with gangs := merase t.gangs part }
def execGangDispatch (part : Nat) (s : State) : Res := .next (gangDispatch part s)

/-! ## Cores between bundles (R23, R88, R143, R293, R294, R305) -/

/-- Step 1 of DONE (R23, R143): the task waits for its tokens and loads, then delivers ERROR tokens nobody has waited on or consumed. -/
def doneStep (k : Nat) (s : State) : State :=
  let c := s.core k
  let ts := upFrom 0 64
  if ts.any (fun t => (c.tok t).st == .pending) || !c.loads.isEmpty then s.updCore k (fun c => c.tick 1)
  else match lowest (ts.filter (fun t => (c.tok t).st == .error && !(c.tok t).used)) with
    | some t => (s.updCore k (fun c => c.deliver t 0x80 true)).countCore k [(0x0B, (!c.hm && (c.deliver t 0x80 true).hm).toNat)]
    | none => s.updCore k (fun c => { c.settleFly with run := .ending })

/-- A discard loses the command: it is the task's own and has not started (R321). -/
def Cmd.lost (x : Cmd) : Bool := x.st != .running && x.save.isNone
/-- A discarded task loses its loads, its tokens, and the commands not started with their references (R321). -/
def State.loseWork (s : State) (k : Nat) : State :=
  let s1 := ((s.core k).cmds.filter Cmd.lost).foldl (fun s x => x.tiles.foldl (fun s t => s.refDown (clusterOf k) t) s) (s.dropAcqs k)
  s1.updCore k (fun c =>
    { c.settleFly with
      cmds := c.cmds.filter (fun x => !x.lost), toks := [], loads := [], stalled := false, hostAt := .none, tcWait := none, tcFlt := none })
/-- A discarded task's entry goes to the saved list once its started commands have completed and its stores are performed; its L0 lines are lost,
DIRTY ones written back (R321). -/
def discardStep (k : Nat) (s : State) : State :=
  let s := s.loseWork k
  let c := s.core k
  if !c.unattached || !s.storesDone k then s.updCore k (fun c => c.tick 1)
  else
    let part := c.csr.partid.toNat
    let r := s.trec c.task.recPA
    let e := { r.entry c.task.recPA part (s.entryKind r) with stamp := s.clock }
    let s := { (((s.flushL0 k).dropLines k (fun _ => true)).dropPins k).toIdle k with clock := s.clock + 1 }
    match s.launch c.task.launch with
    | none => s
    | some l => (s.updQcb l.key (fun q =>
        if l.dropped then { q with runN := q.runN - 1 }
        else { q with saved := q.saved ++ [(clusterOf k, e)], runN := q.runN - 1, ent := q.ent + 1 })).queueSaved l.key

/-- What a core does at its turn when it issues no bundle. -/
def coreTurn (k : Nat) (s : State) : State :=
  match (s.core k).run with
  | .doneWait => doneStep k s
  | .aborting =>
    if s.quietTask k then s.endAbort k else s.updCore k (fun c => c.tick 1)
  | .saving full don told => saveStep k full don told s
  | .discarding => discardStep k s
  | .resuming don cmds => resumeStep k don cmds s
  | _ => s

/-- The bundle's host atomic has been done, so that the bundle itself comes next (R271). -/
def Core.hostReady (c : Core) : Bool := match c.hostAt with | .done _ => true | _ => false
/-- A handler has used its 8,192 cycles (R293). -/
def Core.handlerDue (c : Core) : Bool := c.hm && Nat.ble 8192 c.hCyc && !c.hostReady
/-- HANDLER_WATCHDOG: the task of a handler that has used its cycles is aborted. -/
def handlerWatchdog (k : Nat) (s : State) : State :=
  let c := s.core k
  if c.run == .task && c.handlerDue then s.updCore k (fun c => c.abortWith ⟨fcWatchdog, 2, c.pc, 0⟩) else s
def execHandlerWatchdog (core : Nat) (s : State) : Res := .next (handlerWatchdog core s)

/-- A pre-emption is ordered (R305). -/
def Core.order (c : Core) : Core :=
  match c.run with
  | .task => { c with preempt := true, preCyc := if c.preempt then c.preCyc else 0 }
  | .doneWait => { c with preempt := true, preCyc := if c.preempt then c.preCyc else 0 }
  | .resuming _ _ => { c with preempt := true, preCyc := if c.preempt then c.preCyc else 0 }
  | _ => c
/-- PREEMPTION_ORDER: two orders make one save. -/
def execPreemptionOrder (core : Nat) (s : State) : Res := .next (s.updCore core Core.order)

/-- A forced save falls due: 3,600 cycles after the order, in task mode; not between a LOOP of count zero and the LEND bundle that it skips (R140). -/
def Core.saveDue (c : Core) : Bool := c.preempt && Nat.ble 3600 c.preCyc && !c.hm && !c.hostReady && c.via != .skip
/-- FORCED_SAVE: at the next issue step in task mode, or in step 1 of DONE (R143, R305). -/
def forcedSave (k : Nat) (s : State) : State :=
  let c := s.core k
  if !c.saveDue then s
  else match c.run with
    | .task => s.updCore k (fun c => c.beginSave true false)
    | .doneWait => s.updCore k (fun c => c.beginSave true true)
    | _ => s
def execForcedSave (core : Nat) (s : State) : Res := .next (forcedSave core s)

end Sys2Proof.Machine
end

