-- ==== Sys2Proof/Machine/Pages.lean ====
section
/-! DEFINITION. Fabric requests at their target and their answers (R263 to R265, R395), answers to page requests (R302), ATS invalidations and
generation bumps (R359, R360), the expiry of cached translations. -/

namespace Sys2Proof.Machine

/-! ## Fabric requests at their target (R263, R264, R360) -/

/-- Some leaf under a table satisfies f. -/
def anyLeaf (s : State) (f : Leaf → Bool) : List (Nat × Nat × Bool × Bool) → Nat → Bool
  | [], _ => false
  | (sh, n, tab, leaf) :: rest, base =>
    (upFrom 0 (2 ^ n)).any (fun i =>
      let e := s.rdMem (base + 8 * i) 8
      let addr := fld e 8 48 * 256
      if !bitOf e 0 || fld e 5 3 != 0 then false
      else if bitOf e 1 then leaf && addr % 2 ^ sh == 0 && f ⟨addr, sh, fld e 2 3, fld e 56 8⟩
      else tab && anyLeaf s f rest addr)

/-- The first enabled partition that maps the page of a local address in stage 2, with the bits acc and its generation. -/
def State.mapper (s : State) (pa acc : Nat) : Option Nat :=
  (upFrom 0 48).find? (fun n =>
    let p := s.part n
    p.en && anyLeaf s (fun l => Nat.ble l.base pa && Nat.blt pa (l.base + 2 ^ l.shift) && Nat.land l.perm acc == acc && l.gen == s.gen2 pa)
      ptLevels (p.fld 0x48 8))

/-- Some partition does. -/
def State.mapped (s : State) (pa acc : Nat) : Bool := (s.mapper pa acc).isSome

/-- A fabric request is served at its target, for the partition that maps the page, its reply to another device included (R274, R377, R378); a request of
this device has been charged as it was injected. -/
def State.servedFab (s : State) (core : Option (Nat × Nat)) (dev part off : Nat) : State :=
  match core with
  | some _ => (s.countFloor part (channelOf off) 8).lookedUp part off
  | none => (s.served part off 8).charge part (s.portBucket dev (channelOf off)) 8
/-- The answer of a request of a core here, or of another device. -/
def State.fabAnswer (s : State) (core : Option (Nat × Nat)) (dev v : Nat) (ok : Bool) : State :=
  match core with
  | some (k, id) =>
    if ok then s.updCmd k id (fun x => { x with res := [v], ready := true }) else s.answerFault k id ⟨fcPerm, 6, 0⟩
  | none => s.emit (.fabricReply dev v ok)
/-- A decrement that a fabric request carries. -/
def State.fabDec (s : State) (core : Option (Nat × Nat)) (dev off : Nat) : State :=
  s.decRec off (match core with | some (k, id) => .cmd k id | none => .remote dev)

/-- FABRIC_REQUEST_AT_TARGET: message n, a request for local memory or a successor list's decrement of it, is applied at its point of coherence,
or refused. -/
def fabricAtTarget (n : Nat) (s : State) : State :=
  match s.msg n with
  | some (.fabReq core dev kind off v) =>
    if s.before n (fun m => match m with | .fabReq c d _ o _ => c == core && d == dev && o / 8 == off / 8 | _ => false) then s
    else
      let s1 := s.dropMsg n
      if paKind off != .localHbm || !s.mapped off (fabricAcc kind) then s1.fabAnswer core dev 0 false
      else
        let s2 := (s1.closeLine off).servedFab core dev ((s1.mapper off (fabricAcc kind)).getD 0) off
        let old := s2.rdMem off 8
        (match kind with
        | 0 => s2.fabAnswer core dev old true
        | 1 => (s2.wrMem off 8 v).fabAnswer core dev 0 true
        | 2 => (s2.wrMem off 8 (old + v)).fabAnswer core dev old true
        | 3 => s2.fabDec core dev off
        | 4 => s1.fabAnswer core dev 0 true
        | 5 => (s2.wrMem off 8 v).fabAnswer core dev 0 true
        | _ => s2.fabDec core dev off)
  | some (.fabSucc src dev off _) =>
    if dev != s.dev.fabid || s.decBefore n src true off then s
    else if paKind off != .localHbm || !s.mapped off (fabricAcc 3) then (s.dropMsg n).decAnswer src (some ⟨fcPerm, 6, 0⟩)
    else (((s.dropMsg n).closeLine off).served ((s.mapper off (fabricAcc 3)).getD 0) off 8).decRec off src
  | _ => s
def execFabricRequestAtTarget (n : Nat) (s : State) : Res := .next (fabricAtTarget n s)

/-! ## Answers (R263, R265, R395) -/

/-- Command n of core k waits for another device's answer. -/
def State.awaited (s : State) (k n : Nat) : Option Cmd :=
  match (s.core k).cmds.drop n with
  | x :: _ => if x.st == .running && !x.ready && (fabricKind x.ins).isSome && fabricDev (nth x.args 0 0) != s.dev.fabid then some x else none
  | [] => none

/-- Message n is a successor list's decrement sent to another device, which it leaves as answered with a fault or none (R278). -/
def State.succReply (s : State) (n : Nat) (f : Option FaultInfo) : State :=
  match s.msg n with
  | some (.fabSucc src dev _ _) => if dev == s.dev.fabid then s else (s.dropMsg n).decAnswer src f
  | _ => s
/-- FABRIC_REPLY: ok is 1 for an applied request, with its value v; 2 for a decrement that met a counter at 0 (R281); else a refusal. The
request completes and frees its slot; the bytes that a reply brings are charged to its port's bucket as they pass (R377). From core 768 on, message n is a successor list's decrement. -/
def fabricReply (k n ok v : Nat) (s : State) : State :=
  if Nat.ble 768 k then s.succReply n (match ok with | 1 => none | 2 => some ⟨fcIndex, 5, 0⟩ | _ => some ⟨fcPerm, 6, 0⟩)
  else
  match s.awaited k n with
  | none => s
  | some x =>
    let dev := fabricDev (nth x.args 0 0)
    let s := s.charge x.part (s.portBucket dev k) (if fabricKind x.ins == some 0 || fabricKind x.ins == some 2 then 8 else 0)
    complete k n (match ok with
    | 1 => s.updCmd k x.id (fun y => { y with res := [v], ready := true })
    | 2 => s.answerFault k x.id ⟨fcIndex, 5, 0⟩
    | _ => s.answerFault k x.id ⟨fcPerm, 6, 0⟩)
def execFabricReply (core n ok v : Nat) (s : State) : Res := .next (fabricReply core n ok v s)

/-- The request completes with FABRIC; from core 768 on, the decrement of a successor list, message n. -/
def fabricFails (k n : Nat) (s : State) : State :=
  if Nat.ble 768 k then s.succReply n (some ⟨fcFabric, 0, 0⟩)
  else
  match s.awaited k n with
  | none => s
  | some x => complete k n (s.answerFault k x.id ⟨fcFabric, 0, 0⟩)
/-- The PTIME at which the request left that fabricFails names. -/
def State.fabricSent (s : State) (k n : Nat) : Option Nat :=
  if Nat.ble 768 k then (match s.msg n with | some (.fabSucc _ _ _ sent) => some sent | _ => none)
  else (s.awaited k n).map Cmd.sentAt
/-- FABRIC_TIMEOUT: a request has stayed unanswered for 20,000 ns of PTIME (R395). -/
def fabricTimeout (k n : Nat) (s : State) : State :=
  match s.fabricSent k n with
  | some t => if Nat.ble (t + 20000) s.dev.ptime.toNat then fabricFails k n s else s
  | none => s
def execFabricTimeout (core n : Nat) (s : State) : Res := .next (fabricTimeout core n s)
/-- FABRIC_PATH_FAILURE: of the path of command n of a core; or, with core 768 and on, of the path of message n, a remote fill (R213) or a
successor list's decrement. -/
def pathFailure (k n : Nat) (s : State) : State :=
  if Nat.blt k 768 then fabricFails k n s
  else match s.msg n with
    | some (.fabSucc _ _ _ _) => fabricFails k n s
    | some (.fillReq cl t _ _ _) =>
      (match s.homeAt cl t with
      | .away _ => s.refuseFill n cl t ⟨fcFabric, 0, t.q⟩
      | _ => s)
    | _ => s
def execFabricPathFailure (core n : Nat) (s : State) : Res := .next (pathFailure core n s)

/-! ## Page requests (R302) -/

/-- The partition a virtual function belongs to (R363, R365). -/
def State.fnPart (s : State) (fn : Nat) : Option Nat :=
  if fn == 0 then none else (upFrom 0 48).find? (fun p => (s.part p).en && bitOf ((s.part p).fld 0x20 32) (fn - 1))

/-- The place of the message a waiter stands for. -/
def State.waiterMsg (s : State) (w : Waiter) : Option Nat :=
  ((upFrom 0 s.msgs.length).zip s.msgs).findSome? (fun x =>
    let hit := match w, x.2 with
      | .fill cl t, .fillReq c u _ _ _ => c == cl && u == t
      | .fill cl t, .grantReq c u _ _ => c == cl && u == t
      | .wb cl t, .wbData c u _ _ _ _ _ _ => c == cl && u == t
      | .wb cl t, .drainData c u _ _ _ _ _ => c == cl && u == t
      | _, _ => false
    if hit then some x.1 else none)

/-- What waits on a page that is refused (R213, R302): fills and commands fail with XLATE, cause 4; data on their way to memory are lost
with a machine check. addr is the address that missed (R408). -/
def State.refuseWaiter (s : State) (addr : Nat) (w : Waiter) : State :=
  let f : FaultInfo := ⟨fcXlate, 4, addr⟩
  match w with
  | .fill cl t =>
    (match s.waiterMsg w with
    | some n => s.refuseFill n cl t f
    | none => s)
  | .wb cl t =>
    (match s.waiterMsg w with
    | none => s
    | some n =>
      let r : Nat × Bool × List (Nat × Nat) := match s.msg n with
        | some (.wbData _ _ _ _ v _ _ w) => (v, true, w)
        | some (.drainData _ _ _ _ v _ w) => (v, false, w)
        | _ => (0, false, [])
      ((s.dropMsg n).mcheck t.part 0xFFFF t.q 1 r.1).lostFrame cl t r.2.1 r.2.2)
  | .cmd k id => s.failCmd k id f

/-- An entry is answered and freed. -/
def State.answerPage (s : State) (e : Prq) (ok : Bool) : State :=
  let s1 := { s with prq := s.prq.filter (fun x => x.ix != e.ix) }
  if ok then s1 else e.waiters.foldl (fun s w => s.refuseWaiter w.2 w.1) s1

/-- PRQRESP: function fn writes an entry index and a result (R302, R385). The physical function answers any entry; a virtual function those of
its partition. -/
def prqresp (fn v : Nat) (s : State) : State :=
  match s.prq.find? (fun e => e.ix == fld v 0 12) with
  | none => s
  | some e => if fn == 0 || s.fnPart fn == some e.part then s.answerPage e (bitOf v 12) else s
def execPrqresp (fn v : Nat) (s : State) : Res := .next (prqresp fn v s)

/-- PRI_PAGE_GROUP_RESPONSE: the host answers the page request of entry n (R301). -/
def priResponse (n ok : Nat) (s : State) : State :=
  match s.prq.find? (fun e => e.ix == n) with
  | none => s
  | some e => match s.hostPage e.part e.stage e.page with
    | none => s
    | some h => ({ s with absent := if ok == 1 then s.absent.filter (fun x => x != (e.part, h)) else s.absent }).answerPage e (ok == 1)
def execPriPageGroupResponse (n ok : Nat) (s : State) : Res := .next (priResponse n ok s)

/-! ## Cached translations (R359, R360) -/

/-- ATS_INVALIDATION: translations of a guest page that end in host memory are dropped, and the host, by a free bit, goes on to give the
partition that host page or not. -/
def atsInvalidation (part page : Nat) (s : State) : State :=
  let s1 := { s with xlats := s.xlats.filter (fun x => !(x.part == part && x.page == page && paKind (x.target * 65536) == .host)) }
  match walk s (s.part part) (page * 65536) with
  | .error _ => s1
  | .ok r =>
    if paKind r.pa == .host && !s.absent.contains (part, r.pa / 65536) && (Config.free s.freeCtr) % 2 == 1 then
      { s1.draw 1 with absent := (part, r.pa / 65536) :: s1.absent }
    else s1.draw 1
def execAtsInvalidation (part page : Nat) (s : State) : Res := .next (atsInvalidation part page s)
/-- TRANSLATION_CACHE_EXPIRY: cached translation n is dropped. -/
def execTranslationCacheExpiry (n : Nat) (s : State) : Res := .next { s with xlats := dropNth s.xlats n }

/-! ## Generation bumps (R359, R385) -/

/-- A function's GENRES (R385). -/
def State.genres (s : State) (fn : Nat) : Nat := (mget s.dev.genres fn 0).toNat
def State.setGenres (s : State) (fn v : Nat) : State := { s with dev := { s.dev with genres := mput s.dev.genres fn (BitVec.ofNat 32 v) } }
/-- GENBUMP: function fn asks for a bump; a fifth one behind a BUSY bump is dropped, and bit 30 says so. -/
def genbump (fn v : Nat) (s : State) : State :=
  let stage := 1 + fld v 2 1
  if fld v 0 2 == 3 || (fn == 0) != (stage == 2) || (fn != 0 && (s.fnPart fn).isNone) then s
  else if Nat.ble 5 (s.bumps.filter (fun b => b.fn == fn)).length then s.setGenres fn (setFld (s.genres fn) 30 1 1)
  else { s with bumps := s.bumps ++ [(⟨fn, stage, fld v 0 2, fld v 16 40 * 65536, false⟩ : Bump)] }.setGenres fn (setFld (s.genres fn) 31 1 1)
def execGenbump (fn v : Nat) (s : State) : Res := .next (genbump fn v s)

def Bump.bytes (b : Bump) : Nat := match b.size with | 0 => 2 ^ 16 | 1 => 2 ^ 21 | _ => 2 ^ 30
/-- The physical pages a bump covers, as 64 KiB page numbers, each once. -/
def State.bumpPages (s : State) (b : Bump) : List Nat :=
  ((upFrom 0 (b.bytes / 65536)).filterMap (fun i =>
    let a := b.addr / b.bytes * b.bytes + 65536 * i
    if b.stage == 2 then some a
    else match s.fnPart b.fn with
      | none => none
      | some p => match stage2 s (s.part p) a with
        | .ok l => some (l.target a)
        | .error _ => none)).foldl (fun l pa =>
      if paKind pa == .localHbm && !l.contains (pa / 65536) then l ++ [pa / 65536] else l) []
/-- The generation of a page of a stage (R358). -/
def State.genOf (s : State) (stage page : Nat) : Nat := s.genByte (2 * page + (stage - 1))
/-- The page held the value that a bump would give it less than 50 µs ago. -/
def State.heldGen (s : State) (stage page : Nat) : Bool :=
  let v := (s.genOf stage page + 1) % 256
  s.hist.any (fun h => h.1 == 2 * page + (stage - 1) && h.2.1 == v && Nat.blt s.dev.ptime.toNat (h.2.2 + 50000))
def State.bumpPage (s : State) (stage page : Nat) : State :=
  let old := s.genOf stage page
  let s1 := if s.genPlaced then s.wrMem (s.dev.genbase + 2 * page + (stage - 1)) 1 ((old + 1) % 256) else s
  { s1 with hist := s1.hist.filter (fun h => Nat.blt s1.dev.ptime.toNat (h.2.2 + 50000)) ++ [(2 * page + (stage - 1), old, s1.dev.ptime.toNat)] }
/-- A bump applied in every slice; accesses still on their way to one are refused there and translated again (R220, R358). GENRES gives the new generation of its first page, and BUSY while others wait. -/
def State.applyBump (s : State) (n : Nat) (b : Bump) : State :=
  let ps := s.bumpPages b
  let s0 := ps.foldl (fun s p => s.bumpPage b.stage p) { s with bumps := dropNth s.bumps n }
  let s1 := s0.rebindAll ps
  let g := match ps with | p :: _ => s1.genOf b.stage p | [] => 0
  s1.setGenres b.fn (g + (if s1.bumps.any (fun x => x.fn == b.fn) then 2 ^ 31 else 0))
/-- Bump n, the first of its function. -/
def State.firstBump (s : State) (n : Nat) : Option Bump :=
  match s.bumps.drop n with
  | b :: _ => if (s.bumps.take n).any (fun x => x.fn == b.fn) then none else some b
  | [] => none
/-- GENERATION_BUMP_COMPLETE: bump n completes, or is held when it would bring back a generation too early. -/
def bumpComplete (n : Nat) (s : State) : State :=
  match s.firstBump n with
  | none => s
  | some b =>
    if (s.bumpPages b).any (fun p => s.heldGen b.stage p) then { s with bumps := modNth s.bumps n (fun x => { x with held := true }) }
    else if b.held then s else s.applyBump n b
def execGenerationBumpComplete (n : Nat) (s : State) : Res := .next (bumpComplete n s)
/-- GENERATION_BUMP_HOLD: a held bump proceeds once its 50 µs have passed. -/
def bumpHold (n : Nat) (s : State) : State :=
  match s.firstBump n with
  | none => s
  | some b => if b.held && !(s.bumpPages b).any (fun p => s.heldGen b.stage p) then s.applyBump n b else s
def execGenerationBumpHold (n : Nat) (s : State) : Res := .next (bumpHold n s)

end Sys2Proof.Machine
end

