-- ==== Sys2Proof/Machine/Rings.lean ====
section
/-! DEFINITION. Host queues: doorbells, the taking of commands and their completion (R387 to R390), queue control (R311, R312), DESC, COPY,
UNLOAD and LAUNCH (R285, R388). -/

namespace Sys2Proof.Machine

/-! ## Taking a command (R387, R388, R390) -/

/-- The next command of a ring, when it may be taken: 64 bytes of host memory. -/
def State.ringHead (s : State) (key : Nat) : Option (List Byte) :=
  let q := s.qcb key
  if (key % 17 != 16 && q.qstate != 0) || q.pidx == q.cidx || q.busy.isSome || (q.cpidx - q.ccidx).toNat == 2 ^ q.csz then none
  else some (s.bytes (hostPa (q.rbase + 64 * (q.cidx.toNat % 2 ^ q.rsz))) 64)
/-- The operand bytes a command names, none for an opcode its ring does not know; pf says the ring is the physical function's. -/
def cmdNamed (opc : Nat) (ctl pf : Bool) : Option (List (Nat × Nat)) :=
  match opc, ctl with
  | 0x01, false => some [(8, 8), (0x10, 8), (0x18, 4)]
  | 0x02, false => some [(8, 4)]
  | 0x03, false => some [(8, 4), (0x10, 8)]
  | 0x04, false => some [(8, 4), (0xC, 4), (0x10, 8), (0x18, 4), (0x20, 8)]
  | 0x05, false => some [(8, 8), (0x10, 8), (0x18, 8)]
  | 0x10, true => some [(8, 3)]
  | 0x11, true => some [(8, 3)]
  | 0x12, true => some [(8, 3)]
  | 0x13, true => if pf then some [(8, 6), (0x10, 8)] else none
  | 0x14, true => if pf then some [(8, 1), (0xA, 4)] else none
  | _, _ => none
/-- Alignment and range of the operands (R388). -/
def operandBad (opc : Nat) (b : List Byte) : Bool :=
  let f := imgFld b
  match opc with
  | 0x01 => f 0x10 8 % 65536 != 0
  | 0x04 => f 0x10 8 % 64 != 0 || Nat.ble 4 (f 0xC 4)
  | 0x05 => Nat.blt 2 (f 1 1) || f 0x18 8 % 64 != 0 || (f 1 1 != 0 && f 8 8 % 64 != 0) || (f 1 1 != 1 && f 0x10 8 % 64 != 0)
  | 0x10 => Nat.ble 16 (f 8 1)
  | 0x11 => Nat.ble 16 (f 8 1) || Nat.ble 2 (f 0xA 1)
  | 0x12 => Nat.ble 16 (f 8 1) || Nat.ble 16 (f 9 1) || Nat.ble 2 (f 0xA 1)
  | 0x13 => Nat.ble 3 (f 8 1) || Nat.ble 2 (f 9 1)
  | 0x14 => Nat.ble 3 (f 8 1)
  | _ => false
/-- BAD_COMMAND: an unknown opcode, an unnamed byte that is not zero, an operand out of range. -/
def cmdBad (key : Nat) (b : List Byte) : Bool :=
  let opc := imgFld b 0 1
  match cmdNamed opc (key % 17 == 16) (key / 17 == 0) with
  | none => true
  | some l => operandBad opc b ||
      ((upFrom 0 64).zip b).any (fun x => x.2 != 0 && Nat.ble 4 x.1 && !l.any (fun r => Nat.ble r.1 x.1 && Nat.blt x.1 (r.1 + r.2)))
/-- A function that lies in no partition: its commands end with NO_PARTITION; of the physical function, those of its host rings. -/
def State.noPart (s : State) (key : Nat) : Bool := (s.fnPart (key / 17)).isNone && (key / 17 != 0 || key % 17 != 16)
/-- The status of a command that is refused as it is taken. -/
def State.refusal (s : State) (key : Nat) (b : List Byte) : Option Nat :=
  if s.noPart key then some 7 else if cmdBad key b then some 6 else none
/-- A command is taken, and stays the ring's current one with its completion record's STATUS, FIELD and RESULT; STATUS 256 while it waits. -/
def State.taken (s : State) (key : Nat) (b : List Byte) (r : Option (Nat × Nat × Nat)) : State :=
  s.updQcb key (fun q => { q with cidx := q.cidx + 1, busy := r.map (fun x => (imgFld b 2 2, x)) })
/-- The head of a ring, if it is a good command of an opcode. -/
def State.good (s : State) (key opc : Nat) : Option (List Byte) :=
  match s.ringHead key with
  | none => none
  | some b => if imgFld b 0 1 == opc && (s.refusal key b).isNone then some b else none
/-- There are functions 0 to 256 (R383), each with the queues 0 to 15 and the control ring, 16 (R385). -/
def isRing (fn q : Nat) : Bool := Nat.blt fn 257 && Nat.blt q 17
/-- The head of a ring of a function, if it is a good command of an opcode. -/
def State.goodOf (s : State) (fn q opc : Nat) : Option (List Byte) := if isRing fn q then s.good (qkey fn q) opc else none
/-- What a command does, which may have to wait: the state, and its STATUS, FIELD and RESULT. -/
def State.ringMay (s : State) (fn q opc : Nat) (f : List Byte → State → Option (State × Nat × Nat × Nat)) : State :=
  match s.goodOf fn q opc with
  | none => s
  | some b => match f b s with
    | none => s
    | some r => r.1.taken (qkey fn q) b (some r.2)
/-- What a command that cannot wait does: the state, and its STATUS, FIELD and RESULT. -/
def State.ringDo (s : State) (fn q opc : Nat) (f : List Byte → State → State × Nat × Nat × Nat) : State :=
  match s.goodOf fn q opc with
  | none => s
  | some b => (f b s).1.taken (qkey fn q) b (some (f b s).2)

/-- RING_COMMAND_COMPLETION: the current command's record is posted; a command that is refused as it is taken is taken and ends. -/
def ringComplete (fn q : Nat) (s : State) : State :=
  let key := qkey fn q
  match (s.qcb key).busy with
  | some (tag, st, f, r) => if Nat.blt st 256 then (s.post key tag st f r 0).updQcb key (fun q => { q with busy := none }) else s
  | none => match (if isRing fn q then s.ringHead key else none) with
    | none => s
    | some b => match s.refusal key b with
      | none => s
      | some st => (s.taken key b none).post key (imgFld b 2 2) st 0 0 0
def execRingCommandCompletion (fn q : Nat) (s : State) : Res := .next (ringComplete fn q s)

/-- DOORBELL: a write of PIDX at or after it and at most 2^RSZ ahead of CIDX, modulo 2^32; any other sets DBERR (R387). -/
def Qcb.ring (q : Qcb) (v : W32) : Qcb :=
  if Nat.ble (q.pidx - q.cidx).toNat (v - q.cidx).toNat && Nat.ble (v - q.cidx).toNat (2 ^ q.rsz) then { q with pidx := v }
  else { q with dberr := true }
/-- A doorbell of a ring of a function. -/
def doorbell (fn q v : Nat) (s : State) : State := if isRing fn q then s.updQcb (qkey fn q) (fun x => x.ring (BitVec.ofNat 32 v)) else s
def execDoorbell (fn q v : Nat) (s : State) : Res := .next (doorbell fn q v s)

/-! ## Queue control (R311, R312, R320, R323) -/

/-- The queue of an entry's launch. -/
def State.entryKey (s : State) (e : RdqE) : Option Nat := (s.launch (s.entryLaunch e)).map Launch.key
/-- Every entry of the queue's tasks, with its cluster, leaves the RDQs, the rings and the homes. -/
def State.pullEntries (s : State) (key : Nat) : State × List (Nat × RdqE) :=
  let mine (e : RdqE) : Bool := s.entryKey e == some key
  let a := (upFrom 0 96).flatMap (fun cl => ((s.cluster cl).rdq.filter mine).map (fun e => (cl, e)))
  let b := s.rings.flatMap (fun x => (x.2.filter mine).map (fun e => (x.1 / 256, e)))
  let c := s.msgs.filterMap (fun m => match m with | .ringWait cl e => if mine e then some (cl, e) else none | _ => none)
  ({ s.setRings (s.rings.map (fun x => (x.1, x.2.filter (fun e => !mine e)))) with
      clusters := s.clusters.map (fun x => (x.1, { x.2 with rdq := x.2.rdq.filter (fun e => !mine e) })),
      msgs := s.msgs.filter (fun m => match m with | .ringWait _ e => !mine e | _ => true) }, a ++ b ++ c)
/-- The cores that run a task of the queue. -/
def State.runners (s : State) (key : Nat) : List Nat :=
  (s.cores.filter (fun x => x.2.run != .idle && x.2.run != .reserved &&
    (match s.launch x.2.task.launch with | some l => l.key == key | none => false))).map (fun x => x.1)
/-- Cores reserved for the queue's gangs are given up (R262). -/
def State.unreserve (s : State) (key : Nat) : State :=
  { s with cores := s.cores.map (fun x =>
      if x.2.run == .reserved && (match s.launch x.2.task.launch with | some l => l.key == key | none => false) then (x.1, { x.2 with run := .idle })
      else x) }
/-- The queue goes to its saved list: entries now, running tasks by pre-emption (R312, R320). -/
def State.saveQueue (s : State) (key : Nat) : State :=
  let p := s.pullEntries key
  let s1 := (p.1.unreserve key).updQcb key (fun q => { q with qstate := 1, toSave := true, saved := q.saved ++ p.2 })
  ((s1.runners key).foldl (fun s k => s.updCore k Core.order) s1).queueSaved key
/-- A saved task that will not resume: the frames of its save area go back to the free list, and what stood for it ends. -/
def State.forgetSaved (s : State) (part hdr : Nat) : State :=
  let frames := hdr :: ((upFrom 0 162).map (fun n => s.rdMem (hdr + 0x720 + 8 * n) 8)).filter (· != 0)
  ({ s with savedZ := s.savedZ.filter (fun z => z.area != hdr) }.takeSaved hdr).pushFrames part frames
/-- A saved entry is placed again (R309, R323): a resumption in the cluster its task left if the partition still has it, any other by R287;
a held one registers again when its counter's epoch is the same. One of a dropped launch is discarded (R321), and counts no more (R379). -/
def State.replaceEntry (s : State) (x : Nat × RdqE) : State :=
  let e := x.2
  let l := s.entryLaunch e
  match s.launch l with
  | none => s
  | some la =>
    if la.dropped then
      (if e.kind == 1 then s.forgetSaved e.part e.raddr else s).updQcb la.key (fun q => { q with ent := q.ent - 1 })
    else
      let p := s.part e.part
      let rp := s.entryRec e
      let cl := if e.kind == 1 && bitOf (p.fld 8 16) x.1 then x.1 else s.pickCluster e.part (p.affinity (s.trec rp))
      if e.held && (s.bc e.bcn).epoch == e.epoch then s.register l cl e else s.placeFor l cl { e with held := false }
/-- The queue becomes ACTIVE, and its saved tasks are placed again (R312); the frames that hold its list go back to the free list (R320). -/
def State.startQueue (s : State) (key : Nat) : State :=
  let q := s.qcb key
  if q.qstate == 2 || q.qstate == 3 then
    (q.saved.foldl (fun s x => s.replaceEntry x) (s.updQcb key (fun q => { q with qstate := 0, toSave := false, saved := [], lists := [] }))).pushFrames
      ((s.fnPart (key / 17)).getD 0) q.lists
  else s
/-- QSTOP's effect on an ACTIVE queue; mode 0 DRAIN, 1 SAVE. -/
def State.stopQueue (s : State) (key mode : Nat) : State :=
  if (s.qcb key).qstate != 0 then s
  else if mode == 0 then (s.updQcb key (fun q => { q with qstate := 1 })).queueStopped key else s.saveQueue key
/-- A vacate of the function is pending: a QSWAP is held (R313). -/
def State.vacating (s : State) (fn : Nat) : Bool := s.vacates.any (fun v => v.queues.any (fun q => q.1 / 17 == fn))

/-- QSTART: queue q of the command at the head of the control ring. -/
def qstart (fn q : Nat) (s : State) : State :=
  match s.goodOf fn 16 0x10 with
  | none => s
  | some b => if imgFld b 8 1 != q then s else (s.startQueue (qkey fn q)).taken (qkey fn 16) b (some (0, 0, 0))
def execQstart (fn q : Nat) (s : State) : Res := .next (qstart fn q s)
/-- A command that stops a queue completes when the queue is STOPPED or SAVED (R312). -/
def State.stopCmd (s : State) (fn q mode : Nat) (b : List Byte) (next : State → State) : State :=
  let key := qkey fn q
  if (s.qcb key).qstate != 0 then s.taken (qkey fn 16) b (some (0, 0, 0))
  else
    let s := (s.updQcb key (fun x => { x with waiting := some (imgFld b 2 2) })).taken (qkey fn 16) b (some (256, 0, 0))
    next (s.stopQueue key mode)
/-- QSTOP_DRAIN and QSTOP_SAVE. -/
def qstop (fn q mode : Nat) (s : State) : State :=
  match s.goodOf fn 16 0x11 with
  | none => s
  | some b => if imgFld b 8 1 != q || imgFld b 0xA 1 != mode then s else s.stopCmd fn q mode b id
def execQstopDrain (fn q : Nat) (s : State) : Res := .next (qstop fn q 0 s)
def execQstopSave (fn q : Nat) (s : State) : Res := .next (qstop fn q 1 s)
/-- QSWAP: both queues change in one step, or neither does. -/
def qswap (fn q q2 mode : Nat) (s : State) : State :=
  match s.goodOf fn 16 0x12 with
  | none => s
  | some b =>
    if imgFld b 8 1 != q || imgFld b 9 1 != q2 || imgFld b 0xA 1 != mode || s.vacating fn then s
    else
      let st := (s.qcb (qkey fn q2)).qstate
      if st == 2 || st == 3 then s.stopCmd fn q mode b (fun s => s.startQueue (qkey fn q2))
      else s.taken (qkey fn 16) b (some (0, 0, 0))
def execQswap (fn q q2 mode : Nat) (s : State) : Res := .next (qswap fn q q2 mode s)

/-! ## DESC, COPY (R353, R388) -/

/-- DESCRIPTOR_COMMAND: the image in host memory is checked and installed. -/
def descriptorCmd (fn q : Nat) (s : State) : State :=
  s.ringDo fn q 0x03 (fun b s =>
    let part := (s.fnPart fn).getD 0
    let tid := imgFld b 8 4
    let img := s.bytes (hostPa (imgFld b 0x10 8)) 128
    match descCheck img tid ((s.part part).fld 0x58 4) with
    | some (c, e) => (s, if c == fcDescAlias then 0x31 else 0x30, e, 0)
    | none => (s.setDesc part tid img, 0, 0, 0))
def execDescriptorCommand (fn q : Nat) (s : State) : Res := .next (descriptorCmd fn q s)

/-- The physical addresses of n bytes of guest memory, for an access acc by the host. -/
def State.guestAddrs (s : State) (part gva n acc : Nat) : Except FaultInfo (List Nat) :=
  (upFrom 0 n).foldr (fun i r =>
    match s.lsTarget 2048 part ((gva + i) % 2 ^ 64) acc with
    | .ok a => r.map (fun l => a :: l)
    | .error e => .error e) (.ok [])
/-- One side of a copy: host memory untranslated, guest memory translated. -/
def State.copySide (s : State) (part addr n acc : Nat) (host : Bool) : Except FaultInfo (List Nat) :=
  if host then .ok (upFrom (hostPa addr) n) else s.guestAddrs part addr n acc
/-- Bytes moved at once from addresses to others, every line's ordering point (R269), charged to the partition (R274); none while a bucket
of its holds a request. -/
def State.moveBytes (s : State) (part : Nat) (src dst : List Nat) : Option State :=
  if !(src ++ dst).all (s.mayInject part) then none
  else
    let data := src.map s.byte
    let s1 := ((src ++ dst).foldl (fun s a => s.closeLine a) s).servedAll part (src ++ dst)
    some ((dst.zip data).foldl (fun s x => s.wrBytes x.1 [x.2]) s1)
/-- COPY: the bytes move at once; with a fault on either side nothing moves. -/
def copyCmd (fn q : Nat) (s : State) : State :=
  let part := (s.fnPart fn).getD 0
  s.ringMay fn q 0x05 (fun b s =>
    let flg := imgFld b 1 1
    let n := imgFld b 0x18 8
    match s.copySide part (imgFld b 8 8) n accR (flg == 0), s.copySide part (imgFld b 0x10 8) n accW (flg == 1) with
    | .ok src, .ok dst => (s.moveBytes part src dst).map (fun s => (s, 0, 0, 0))
    | .error e, _ => some (s, 0x32, e.code, 0)
    | _, .error e => some (s, 0x32, e.code, 0))
def execCopy (fn q : Nat) (s : State) : Res := .next (copyCmd fn q s)

/-! ## UNLOAD (R362, R388) -/

/-- Entry ix of a partition's region table is cleared: REC of its word is none again. -/
def State.clearRegion (s : State) (part ix : Nat) : State :=
  match s.regionAt (s.part part) ix with
  | none => s
  | some r => { s.wrBytes ((s.part part).fld 0x60 8 + 32 * ix) (List.replicate 32 0) with recs := merase s.recs (part * 2 ^ 64 + r.word) }
/-- UNLOAD: refused while a live launch uses the object; its regions leave the table. -/
def unloadCmd (fn q : Nat) (s : State) : State :=
  s.ringDo fn q 0x02 (fun b s =>
    let part := (s.fnPart fn).getD 0
    let h := imgFld b 8 4
    match s.code h with
    | none => (s, 6, 0, 0)
    | some c =>
      if c.part != part then (s, 6, 0, 0)
      else if s.launches.any (fun l => l.2.codeh == h && !l.2.dropped) then (s, 0x27, 0, 0)
      else
        let s1 := (upFrom 0 64).foldl (fun s ix => match s.regionAt (s.part part) ix with
          | some r => if c.regions.contains (r.base, r.size, r.word) then s.clearRegion part ix else s
          | none => s) s
        ({ s1 with codes := s1.codes.filter (fun e => e.1 != h) }, 0, 0, 0))
def execUnload (fn q : Nat) (s : State) : Res := .next (unloadCmd fn q s)

/-! ## LAUNCH (R260, R262, R285) -/

/-- The first resource a code object claims beyond a core or its partition: its field code. DESIGN CHOICE (log entry 114): each claim is looked at
over all tasks before the next, and a gang before a ring. -/
def claimBad (p : Part) (c : Code) : Option Nat :=
  if c.tasks.any (fun t => Nat.blt 16 t.tables) then some 1
  else if c.tasks.any (fun t => Nat.blt 64 t.tokens) then some 2
  else if c.tasks.any (fun t => Nat.blt 96 t.pins) then some 3
  else if c.gangs.any (fun g => Nat.blt (8 * p.clusters.length) g.length) then some 5
  else none
/-- The roots of a launch created in array order: the state, the first record that fails and whether a ring could not be set aside; none while
a ring's frames are not free. DESIGN CHOICE (log entry 115): a record whose address is misaligned, does not translate or is not local fails as one that
breaks R279. -/
def State.roots (s : State) (part l base : Nat) : Nat → Nat → Option (State × Option Nat × Bool)
  | 0, _ => some (s, none, false)
  | n + 1, i =>
    let a := (base + 128 * i) % 2 ^ 64
    let next (s : State) (bad : Option Nat) (ring : Bool) : Option (State × Option Nat × Bool) :=
      (s.roots part l base n (i + 1)).map (fun r => (r.1, bad.or r.2.1, ring || r.2.2))
    if (recordFault s 2048 part a).isSome then next s (some i) false
    else
      let pa := recordPa s 2048 part a
      match s.launch l with
      | none => some (s, none, false)
      | some la => match s.recordBad part la (s.trec pa) a with
        | some _ => next s (some i) false
        | none => match s.create pa a part l with
          | .ok s => next s none false
          | .error none => none
          | .error (some _) => next s none true
/-- A launch of code object c: the state it leaves, or its STATUS and FIELD; none while a ring's frames are not free. -/
def State.takeLaunch (s : State) (fn q part : Nat) (b : List Byte) : Option (Except (Nat × Nat) (State × Nat)) :=
  let f := imgFld b
  let h := f 8 4
  let repro := bitOf (f 0xC 4) 0
  let wit := bitOf (f 0xC 4) 1
  match s.code h with
  | none => some (.error (4, 0))
  | some c =>
    if c.part != part then some (.error (4, 0))
    else if (repro && !c.repro) || (wit && !repro) then some (.error (2, 0))
    else match claimBad (s.part part) c with
      | some n => some (.error (1, n))
      | none =>
        let l := s.nextLaunch
        let s1 := { s with
          nextLaunch := l + 1,
          launches := mput s.launches l ⟨h, part, fn, q, f 2 2, 0, repro, wit, BitVec.ofNat 64 (f 0x20 8), 0, false, []⟩ }
        match s1.roots part l (f 0x10 8) (f 0x18 4) 0 with
        | none => none
        | some (_, _, true) => some (.error (1, 4))
        | some (_, some i, _) => some (.error (3, i))
        | some (s2, none, false) => some (.ok (s2, l))
/-- LAUNCH: an admitted one completes when its live count reaches zero, so a launch without roots at once. -/
def launchCmd (fn q : Nat) (s : State) : State :=
  let key := qkey fn q
  match s.goodOf fn q 0x04 with
  | none => s
  | some b => match s.takeLaunch fn q ((s.fnPart fn).getD 0) b with
    | none => s
    | some (.error (st, f)) => s.taken key b (some (st, f, 0))
    | some (.ok (s1, l)) =>
      let s2 := s1.taken key b none
      match s2.launch l with
      | some x => if x.live == 0 then s2.endLaunch l 0 else s2
      | none => s2
def execLaunch (fn q : Nat) (s : State) : Res := .next (launchCmd fn q s)

end Sys2Proof.Machine
end

