-- ==== Sys2Proof/Machine/Gco.lean ====
section
/-! DEFINITION. LOAD: the sections of a code object, the loader's checks and the placement of the image (R92 to R96, R203, R362, R388). -/

namespace Sys2Proof.Machine

/-! ## Sections (R92) -/

/-- An image in host memory: its first byte and size. -/
structure Image where
  pa : Nat
  size : Nat
/-- A section: type, offset, size, element count. -/
structure Sect where
  type : Nat
  off : Nat
  size : Nat
  cnt : Nat
  deriving DecidableEq, Repr
def State.img (s : State) (im : Image) (off n : Nat) : Nat := s.rdMem (im.pa + off) n
def State.sects (s : State) (im : Image) : List Sect :=
  let t := s.img im 0xC 4
  (upFrom 0 (s.img im 8 4)).map (fun i => ⟨s.img im (t + 16 * i) 4, s.img im (t + 16 * i + 4) 4, s.img im (t + 16 * i + 8) 4, s.img im (t + 16 * i + 12) 4⟩)
def sectOf (l : List Sect) (type : Nat) : Sect := (l.find? (fun x => x.type == type)).getD ⟨type, 0, 0, 0⟩
/-- The offsets of n records of a size. -/
def recOffs (x : Sect) (n : Nat) : List Nat := (upFrom 0 x.cnt).map (fun i => x.off + n * i)
/-- Two extents share a byte. -/
def meets (a an b bn : Nat) : Bool := Nat.blt a (b + bn) && Nat.blt b (a + an)
/-- No extent of a list meets another. -/
def apart : List (Nat × Nat) → Bool
  | [] => true
  | x :: t => t.all (fun y => !meets x.1 x.2 y.1 y.2) && apart t

/-- The offset of what breaks the header or the section table (R95, GCO_FORMAT). DESIGN CHOICE (log entry 110): non-zero Zero bytes or reserved flag bits,
and a section whose size is not its count times its records' size, break it too. -/
def State.headerBad (s : State) (im : Image) : Option Nat :=
  let n := s.img im 8 4
  let t := s.img im 0xC 4
  if Nat.blt im.size 64 || s.img im 0 4 != 0x314F4347 || s.img im 4 2 != 1 || Nat.blt 1 (s.img im 6 2) || s.img im 0x10 48 != 0 then some 0
  else if Nat.blt im.size (t + 16 * n) then some 0xC
  else
    let l := s.sects im
    let full := l.filter (fun x => x.size != 0)
    if l.any (fun x => x.type == 0 || Nat.blt 10 x.type || Nat.blt im.size (x.off + x.size)) || !distinctNats (l.map (fun x => x.type)) ||
        !apart ((0, 64) :: (t, 16 * n) :: full.map (fun x => (x.off, x.size))) then some t
    else
      let c := sectOf l 1
      if c.off % 64 != 0 || c.size % 64 != 0 then some c.off
      else ([(4, 16), (6, 16), (7, 32), (9, 16)].findSome? (fun k =>
        let x := sectOf l k.1
        if x.size != k.2 * x.cnt then some x.off else none))

/-- Liveness sets from an offset on (R93). DESIGN CHOICE (log entry 110): one that is misaligned, runs past the section or has a field out of range is
refused with GCO_FORMAT. -/
def State.liveSets (s : State) (im : Image) (end_ : Nat) : Nat → Nat → Except Nat (List LiveSet)
  | 0, _ => .ok []
  | n + 1, o =>
    let f := fun off k => s.img im (o + off) k
    let np := f 0x1E 1
    if o % 8 != 0 || Nat.blt end_ (o + 32 + 16 * np) || Nat.blt 96 np || Nat.ble 16 (f 0x1F 1) then .error o
    else match s.liveSets im end_ n (o + 32 + 16 * np) with
      | .error e => .error e
      | .ok l => .ok (⟨f 0 8, f 8 8, f 0x10 4, f 0x14 2, f 0x16 2, f 0x18 2, f 0x1A 2, f 0x1C 1, f 0x1D 1, f 0x1F 1,
          (upFrom 0 np).map (fun i => (f (0x20 + 16 * i) 4, f (0x24 + 16 * i) 8, f (0x2C + 16 * i) 4))⟩ :: l)
/-- Itineraries from an offset on (R203). -/
def State.itineraries (s : State) (im : Image) (end_ : Nat) : Nat → Nat → Except Nat (List (List (Nat × Nat × Nat × Int × Nat)))
  | 0, _ => .ok []
  | n + 1, o =>
    let k := s.img im o 4
    let f := fun i off w => s.img im (o + 8 + 16 * i + off) w
    if Nat.blt end_ (o + 8 + 16 * k) || s.img im (o + 4) 4 != 0 ||
        (upFrom 0 k).any (fun i => f i 8 2 == 0 || Nat.blt 3 (f i 0xA 1) || Nat.ble 8 (f i 0xC 1) || f i 0xD 3 != 0) then .error o
    else match s.itineraries im end_ n (o + 8 + 16 * k) with
      | .error e => .error e
      | .ok l => .ok ((upFrom 0 k).map (fun i => (f i 0 8, f i 8 2, f i 0xA 1, sext (f i 0xB 1) 8, f i 0xC 1)) :: l)

/-- TASKS, TENSORS and CHANNELS records that break R92 or R94 (GCO_FORMAT: DESIGN CHOICE, log entry 110). -/
def State.recordsBad (s : State) (im : Image) (l : List Sect) : Option Nat :=
  let f := fun o off n => s.img im (o + off) n
  let tasks := (sectOf l 4).cnt
  ((recOffs (sectOf l 4) 16).find? (fun o => f o 0xE 2 != 0)).or
  (((recOffs (sectOf l 6) 16).find? (fun o => Nat.ble (2 ^ 20) (f o 0 4) || f o 8 8 != 0)).or
  ((if Nat.blt 16 (sectOf l 9).cnt then some (sectOf l 9).off else none).or
  ((recOffs (sectOf l 9) 16).find? (fun o => f o 0 1 == 0 || Nat.blt 16 (f o 0 1) || f o 1 1 != 0 || Nat.ble tasks (f o 2 2) ||
    Nat.ble tasks (f o 4 2) || f o 2 2 == f o 4 2 || f o 6 10 != 0))))

/-- The code object of an image whose records are well formed, or the offset of a record that is not (GCO_FORMAT). -/
def State.parse (s : State) (im : Image) (part dest : Nat) : Except Nat Code :=
  let l := s.sects im
  let f := fun o off n => s.img im (o + off) n
  match (s.headerBad im).or (s.recordsBad im l) with
  | some o => .error o
  | none =>
    let live := sectOf l 5
    let it := sectOf l 8
    match s.liveSets im (live.off + live.size) live.cnt live.off, s.itineraries im (it.off + it.size) it.cnt it.off with
    | .error o, _ => .error o
    | _, .error o => .error o
    | .ok ls, .ok its =>
      .ok ⟨part, dest, (sectOf l 1).off, bitOf (s.img im 6 2) 0,
        (recOffs (sectOf l 4) 16).map (fun o => ⟨f o 0 4, f o 4 4, f o 8 1, f o 9 1, f o 0xC 2⟩), ls, its,
        (recOffs (sectOf l 9) 16).map (fun o => (f o 0 1, f o 2 2, f o 4 2)),
        ((recOffs (sectOf l 7) 32).filter (fun o => f o 0x18 1 == 1)).map (fun o => (f o 0 8, f o 8 8, f o 0x10 8))⟩

/-! ## Code (R95) -/

/-- A bundle of the code section: its offset there, its executions, and its instructions. -/
structure GBundle where
  off : Nat
  execs : Nat
  ins : List Instr
/-- What a SAFE index, or an instruction of I0 in I1, makes illegal (R68, R142). -/
def encIllegal (live : Nat) (sl : Slot) (i : Instr) : Bool :=
  match i with
  | .safe _ n x => Nat.ble live (extLow x n) || extLow x n == 0xFFFF
  | i => sl == .i1 && onlyI0 i
/-- The bundles of one packet's words from offset o on; n bounds their number. An error is the offset of a word that begins none. -/
def packetBundles (live : Nat) : Nat → Nat → List Nat → Except Nat (List GBundle)
  | 0, _, _ => .ok []
  | _, _, [] => .ok []
  | n + 1, o, w :: ws =>
    if w == 0xFFFFFFFF then packetBundles live n (o + 4) ws
    else
      let h := headerOf w
      let r := readSlots h.slots ws
      if !bitOf w 31 || brokenItem Core.reset h r.1 r.2 != 0 ||
          r.1.any (fun x => match rawInstr x with | none => true | some i => encIllegal live x.slot i) then .error o
      else
        let k := rawWords r.1
        match packetBundles live n (o + 4 * (k + 1)) (ws.drop k) with
        | .error e => .error e
        | .ok l => .ok (⟨o, h.rep + 1, r.1.filterMap rawInstr⟩ :: l)
/-- The bundles of the section. -/
def State.bundles (s : State) (im : Image) (c : Sect) (live : Nat) : Except Nat (List GBundle) :=
  (upFrom 0 (c.size / 64)).foldr (fun p r =>
    match r, packetBundles live 16 (64 * p) ((upFrom 0 16).map (fun i => s.img im (c.off + 64 * p + 4 * i) 4)) with
    | _, .error e => .error e
    | .error e, _ => .error e
    | .ok l, .ok b => .ok (b ++ l)) (.ok [])

/-! ## Paths (R95, R96) -/

/-- The instruction's guard always holds. -/
def sure (g : Guard) : Bool := g.gp == 0 && g.gn == 0
/-- An edge of the paths: from one bundle to another, with executions added. -/
structure GEdge where
  src : Nat
  dst : Nat
  add : Nat
/-- Number of the bundle at an offset of the code section. -/
def atOff (bs : List GBundle) (o : Nat) : Option Nat :=
  (((upFrom 0 bs.length).zip bs).find? (fun x => x.2.off == o)).map (fun x => x.1)
/-- The bundle calls, or returns. -/
def GBundle.hasCall (b : GBundle) : Bool := b.ins.any (fun i => match i with | .call _ _ _ => true | .calli _ _ _ => true | _ => false)
def GBundle.hasRet (b : GBundle) : Bool := b.ins.any (fun i => match i with | .ret _ _ => true | _ => false)
/-- Where an indirect transfer may go: task entries and bundles after a CALL or CALLI (R96). -/
def indirectTo (bs : List GBundle) (entries : List Nat) : List Nat :=
  entries ++ (((upFrom 0 bs.length).zip bs).filter (fun x => x.2.hasCall) |>.map (fun x => x.1 + 1))
/-- Its control transfer, if it has one. -/
def GBundle.jump (b : GBundle) : Option Instr :=
  b.ins.find? (fun i => match i with
    | .br _ _ _ => true | .bri _ _ => true | .call _ _ _ => true | .calli _ _ _ => true | .ret _ _ => true | .loop _ _ _ _ => true
    | .loopi _ _ _ _ => true | .done _ => true | .eret _ => true | _ => false)
/-- The bundle at a transfer's target. -/
def GBundle.target (bs : List GBundle) (b : GBundle) (d : Nat) (x : Option Nat) : List Nat := (atOff bs (targetJ b.off d x)).toList
/-- Where a call of the bundle may go, a CALLI to any of ind, and whether its guard always holds. -/
def GBundle.calls (bs : List GBundle) (ind : List Nat) (b : GBundle) : Option (List Nat × Bool) :=
  match b.jump with
  | some (.call g d x) => some (b.target bs d x, sure g)
  | some (.calli g d _) => if d == 0 then none else some (ind, sure g)
  | _ => none
/-- The bundles after one, the hardware loops' own edges left out: ind where BRI and CALLI may go, rets where RET may; skip says that a call is
stepped over. -/
def nexts (bs : List GBundle) (ind rets : List Nat) (skip : Bool) (n : Nat) (b : GBundle) : List Nat :=
  match b.jump with
  | some (.br g d x) => b.target bs d x ++ (if sure g then [] else [n + 1])
  | some (.call g d x) => if skip then [n + 1] else b.target bs d x ++ (if sure g then [] else [n + 1])
  | some (.bri g _) => ind ++ (if sure g then [] else [n + 1])
  | some (.calli g d _) => if skip && d != 0 then [n + 1] else ind ++ (if sure g then [] else [n + 1])
  | some (.ret g _) => rets ++ (if sure g then [] else [n + 1])
  | some (.done g) => if sure g then [] else [n + 1]
  | some (.eret g) => if sure g then [] else [n + 1]
  | some (.loop _ _ o x) => (n + 1) :: (atOff bs (lendOf b.off o x)).toList.map (· + 1)
  | some (.loopi g c o x) =>
    let past := (atOff bs (lendOf b.off o x)).toList.map (· + 1)
    if c == 0 then past ++ (if sure g then [] else [n + 1]) else [n + 1]
  | _ => [n + 1]
/-- The hardware loops: the LOOP bundle, its LEND bundle, and its count where it is immediate. -/
def loopsOf (bs : List GBundle) : List (Nat × Nat × Option Nat) :=
  ((upFrom 0 bs.length).zip bs).flatMap (fun y => y.2.ins.flatMap (fun i => match i with
    | .loop _ _ o x => (atOff bs (lendOf y.2.off o x)).toList.map (fun e => (y.1, e, none))
    | .loopi _ c o x => (atOff bs (lendOf y.2.off o x)).toList.map (fun e => (y.1, e, some c))
    | _ => []))
/-- Every edge without the loops' own. -/
def plainEdges (bs : List GBundle) (ind rets : List Nat) (skip : Bool) : List GEdge :=
  ((upFrom 0 bs.length).zip bs).flatMap (fun x => ((nexts bs ind rets skip x.1 x.2).filter (fun d => Nat.blt d bs.length)).map (fun d => ⟨x.1, d, 0⟩))
/-- One round: f repeated until nothing changes, n times at most. -/
def settle (f : List Nat → List Nat) : Nat → List Nat → List Nat
  | 0, l => l
  | n + 1, l => if f l == l then l else settle f n (f l)
/-- The bundles reached from a list along edges that do not leave the bundle stop. -/
def reach (es : List GEdge) (stop : Option Nat) (n : Nat) (l : List Nat) : List Nat :=
  settle (fun l => l ++ ((es.filter (fun e => l.contains e.src && some e.src != stop && !l.contains e.dst)).map (fun e => e.dst)).eraseDups) n l

/-! ### Tokens -/

/-- Tokens a bundle's commands consume and produce, as masks. -/
def GBundle.consumes (b : GBundle) : Nat :=
  b.ins.foldl (fun m i => match edgeOf i with | some e => (consumed e).foldl (fun m t => Nat.lor m (2 ^ t)) m | none => m) 0
def GBundle.produces (b : GBundle) : Nat :=
  b.ins.foldl (fun m i => match edgeOf i with | some e => if sure i.guard then Nat.lor m (2 ^ e.tp) else m | none => m) 0
/-- What a call of bundle b surely produces before it returns, when l holds that of every bundle's procedure from the bundle on. -/
def GBundle.called (bs : List GBundle) (ind l : List Nat) (b : GBundle) : Nat :=
  match b.calls bs ind with
  | some (ds, true) => ds.foldl (fun m d => Nat.land m (nth l d (2 ^ 64 - 1))) (2 ^ 64 - 1)
  | _ => 0
/-- The tokens produced on every path from each bundle to the return of its procedure; es are edges that step over calls. -/
def tokensOut (bs : List GBundle) (ind : List Nat) (es : List GEdge) : List Nat :=
  let all := 2 ^ 64 - 1
  settle (fun l => ((upFrom 0 bs.length).zip bs).map (fun x =>
    let rest := if x.2.hasRet then 0 else (es.filter (fun e => e.src == x.1)).foldl (fun m e => Nat.land m (nth l e.dst all)) all
    Nat.lor (Nat.lor x.2.produces (x.2.called bs ind l)) rest))
    (64 * bs.length + 64) (List.replicate bs.length all)
/-- The edges by which calls enter procedures. -/
def callEdges (bs : List GBundle) (ind : List Nat) : List GEdge :=
  ((upFrom 0 bs.length).zip bs).flatMap (fun x => match x.2.calls bs ind with
    | some (ds, _) => (ds.filter (fun d => Nat.blt d bs.length)).map (fun d => ⟨x.1, d, 0⟩)
    | none => [])
/-- The tokens produced on every path to each bundle: each call returns to its own bundle, with what it has produced (R95). -/
def tokensIn (bs : List GBundle) (ind : List Nat) (es : List GEdge) (entries : List Nat) : List Nat :=
  let all := 2 ^ 64 - 1
  let outs := tokensOut bs ind es
  let out (l : List Nat) (n : Nat) : Nat := Nat.lor (nth l n all) (nth (bs.map GBundle.produces) n 0)
  let through (n : Nat) : Nat := nth (bs.map (GBundle.called bs ind outs)) n 0
  settle (fun l => (upFrom 0 bs.length).map (fun n =>
    if entries.contains n then 0
    else ((callEdges bs ind).filter (fun e => e.dst == n)).foldl (fun m e => Nat.land m (out l e.src))
      ((es.filter (fun e => e.dst == n)).foldl (fun m e => Nat.land m (Nat.lor (out l e.src) (through e.src))) all)))
    (64 * bs.length + 64) (List.replicate bs.length all)
/-- The first reachable bundle that consumes a token not proved to be produced (GCO_TOKEN_ORDER). -/
def tokenBad (bs : List GBundle) (ind : List Nat) (es : List GEdge) (entries : List Nat) : Option Nat :=
  let live := reach (es ++ callEdges bs ind) none bs.length entries
  let ins := tokensIn bs ind es entries
  ((((upFrom 0 bs.length).zip bs).zip ins).find? (fun x =>
    live.contains x.1.1 && Nat.land x.1.2.consumes (2 ^ 64 - 1 - x.2) != 0)).map (fun x => x.1.2.off)

/-! ### The safe distance -/

def GBundle.hasSafe (b : GBundle) : Bool := b.ins.any (fun i => match i with | .safe g _ _ => sure g | _ => false)
def GBundle.hasDone (b : GBundle) : Bool := b.ins.any (fun i => match i with | .done g => sure g | _ => false)
/-- More executions than a path may have. -/
def farCap : Nat := 4096
/-- Executions since the last safe point before each bundle, the longest path, capped; none for one that is not reached. A number n + 1
stands for n executions, 0 for none. -/
def distances (bs : List GBundle) (es : List GEdge) (stop : Option Nat) (entries : List Nat) : List Nat :=
  let out (l : List Nat) (e : GEdge) : Nat :=
    let d := nth l e.src 0
    let b := nth bs e.src ⟨0, 0, []⟩
    if d == 0 || some e.src == stop then 0
    else Nat.min farCap ((if b.hasSafe then 1 else d + b.execs) + e.add)
  settle (fun l => (upFrom 0 bs.length).map (fun n =>
    (es.filter (fun e => e.dst == n)).foldl (fun m e => Nat.max m (out l e)) (Nat.max (nth l n 0) (if entries.contains n then 1 else 0))))
    (farCap * (bs.length + 1)) (List.replicate bs.length 0)
/-- The executions of the longest path from a bundle to a return, along edges that step over calls. -/
def procLen (bs : List GBundle) (es : List GEdge) (f : Nat) : Nat :=
  (((upFrom 0 bs.length).zip bs).zip (distances bs es none [f])).foldl (fun m x =>
    if x.1.2.hasRet && x.2 != 0 then Nat.max m (Nat.min farCap (x.2 - 1 + x.1.2.execs)) else m) 0
/-- Edges that step over calls with the callee's longest path added; l holds that of each bundle's call. -/
def overCalls (es : List GEdge) (l : List Nat) : List GEdge := es.map (fun e => { e with add := Nat.min farCap (e.add + nth l e.src 0) })
/-- The longest path of each bundle's CALL, calls within it followed. -/
def callLens (bs : List GBundle) (es : List GEdge) : List Nat :=
  settle (fun l => bs.map (fun b => match b.calls bs [] with
    | some (ds, _) => ds.foldl (fun m d => Nat.max m (procLen bs (overCalls es l) d)) 0
    | none => 0)) (farCap * (bs.length + 1)) (List.replicate bs.length 0)
/-- The edges with the hardware loops, added to es: a counted loop whose body, what it calls included, has no SAFE adds its other rounds as it is
entered; any other goes back from its LEND bundle (R96). BRI, CALLI and RET do not lead on within a body. n bounds the depth of loops within
bodies, the number of loops at most. -/
def loopEdges (bs : List GBundle) : Nat → List GEdge → List GEdge
  | 0, es => es
  | n + 1, es =>
    let inner := loopEdges bs n (plainEdges bs [] [] true)
    let within := overCalls inner (callLens bs inner)
    (loopsOf bs).foldl (fun es x =>
      let body := reach (inner ++ callEdges bs []) (some x.2.1) bs.length [x.1 + 1]
      if body.any (fun m => (nth bs m ⟨0, 0, []⟩).hasSafe) || x.2.2.isNone then es ++ [⟨x.2.1, x.1 + 1, 0⟩]
      else
        let d := nth (distances bs (within.filter (fun e => body.contains e.src && body.contains e.dst)) (some x.2.1) [x.1 + 1]) x.2.1 0
        let len := d - 1 + (nth bs x.2.1 ⟨0, 0, []⟩).execs + nth (callLens bs inner) x.2.1 0
        es.map (fun e => if e.src == x.1 && e.dst == x.1 + 1 then { e with add := (x.2.2.getD 1 - 1) * len } else e)) es
/-- The first bundle on a path of more than 2,048 executions (GCO_SAFE_DISTANCE). -/
def safeBad (bs : List GBundle) (es : List GEdge) (entries : List Nat) : Option Nat :=
  ((((upFrom 0 bs.length).zip bs).zip (distances bs es none entries)).find? (fun x =>
    x.2 != 0 && !x.1.2.hasSafe && !x.1.2.hasDone && Nat.blt 2048 (x.2 - 1 + x.1.2.execs))).map (fun x => x.1.2.off)

/-! ### Claims -/

/-- The z registers and tokens an instruction names. -/
def zUse (i : Instr) : List Nat :=
  match i with
  | .tbuild _ _ z _ _ _ _ _ => [z]
  | .tlook _ _ _ z _ _ _ _ _ => [z]
  | .tlookR _ _ _ z _ _ _ _ _ => [z]
  | .zsave _ _ z _ _ _ => [z]
  | .zload _ _ z _ _ _ => [z]
  | .zinv _ _ m => (upFrom 0 16).filter (bitOf m)
  | .zchk _ _ a => [a]
  | .zchkM _ _ a _ => [a]
  | _ => []
def tokUse (i : Instr) : List Nat :=
  match i with
  | .waitk _ a => [a]
  | .waitkRange _ a b => [a, b]
  | .pollk _ _ a => [a]
  | .pollkErr _ _ a => [a]
  | i => match edgeOf i with | some e => e.tp :: consumed e | none => []
/-- The bundles of a task, as the claim check takes them (DESIGN CHOICE, log entry 111: BRI and CALLI reach what they reach for R96): those its entry
reaches along edges without RET's own, and, where one of them returns, the bundles after the calls among them. -/
def taskBundles (bs : List GBundle) (es : List GEdge) (entry : Nat) : List Nat :=
  settle (fun l =>
    let rets := if l.any (fun n => (nth bs n ⟨0, 0, []⟩).hasRet) then (l.filter (fun n => (nth bs n ⟨0, 0, []⟩).hasCall)).map (· + 1) else []
    l ++ ((rets ++ (es.filter (fun e => l.contains e.src)).map (fun e => e.dst)).filter (fun n => !l.contains n && Nat.blt n bs.length)).eraseDups)
    bs.length [entry]
/-- The first claim or use beyond a core or a task's claim (GCO_RESOURCE), as an offset in the image; the code section begins at base. -/
def resourceBad (bs : List GBundle) (es : List GEdge) (base : Nat) (ts : List (GTask × Nat × Nat)) : Option Nat :=
  ts.findSome? (fun t =>
    let c := t.1
    if Nat.blt 16 c.tables || Nat.blt 64 c.tokens || Nat.blt 96 c.pins then some t.2.1
    else
      let live := taskBundles bs es t.2.2
      (((upFrom 0 bs.length).zip bs).find? (fun x => live.contains x.1 &&
        x.2.ins.any (fun i => (zUse i).any (fun z => Nat.ble c.tables z) || (tokUse i).any (fun k => Nat.ble c.tokens k)))).map (fun x => base + x.2.off))
/-- A floating-point reduction in a reproducible object (GCO_REPRO_REDUCTION). -/
def reproBad (bs : List GBundle) : Option Nat :=
  (bs.find? (fun b => b.ins.any (fun i => match i with | .amo _ _ _ _ opc _ _ => Nat.ble 9 opc && Nat.ble opc 11 | _ => false))).map (fun b => b.off)

/-! ## The checks in order, and the placement (R95, R362, R388) -/

/-- Why an object's regions are refused (R362). -/
def State.regionsBad (s : State) (im : Image) (part : Nat) (x : Sect) (rs : List (Nat × Nat × Nat)) : Option Nat :=
  let old := s.regionsOf part
  let spans := old.map (fun r => (r.base, r.size)) ++ rs.map (fun r => (r.1, r.2.1))
  let words := old.map (fun r => r.word) ++ rs.map (fun r => r.2.2)
  let f := fun o off n => s.img im (o + off) n
  if Nat.blt 64 (old.length + x.cnt) ||
      (recOffs x 32).any (fun o => f o 0 8 % 64 != 0 || f o 8 8 == 0 || f o 8 8 % 64 != 0 || f o 0x10 8 % 8 != 0 || Nat.ble 2 (f o 0x18 8)) || !apart spans || !distinctNats words ||
      words.any (fun w => spans.any (fun r => Nat.ble r.1 w && Nat.blt w (r.1 + r.2))) then some x.off
  else none
/-- A REGIONS record of 32 bytes written into entry ix; REC of its word is none (R233). -/
def State.addRegion (s : State) (part ix : Nat) (r : List Byte) : State :=
  { s.wrBytes ((s.part part).fld 0x60 8 + 32 * ix) r with recs := merase s.recs (part * 2 ^ 64 + imgFld r 0x10 8) }
/-- An object's records written into the free entries, in order (R362). -/
def State.addRegions (s : State) (im : Image) (part : Nat) : State :=
  let free := (upFrom 0 64).filter (fun ix => (s.regionAt (s.part part) ix).isNone)
  (free.zip ((recOffs (sectOf (s.sects im) 7) 32).map (fun o => s.bytes (im.pa + o) 32))).foldl (fun t x => t.addRegion part x.1 x.2) s

/-- The checks of R95 in order: the code object, or the status and offset of the first failure. -/
def State.checkCode (s : State) (im : Image) (part dest : Nat) : Except (Nat × Nat) Code :=
  match s.parse im part dest with
  | .error o => .error (0x20, o)
  | .ok c =>
    let l := s.sects im
    let code := sectOf l 1
    match s.bundles im code c.live.length with
    | .error o => .error (0x21, code.off + o)
    | .ok bs =>
      let tasks := c.tasks.zip (recOffs (sectOf l 4) 16)
      match tasks.find? (fun t => (atOff bs t.1.entry).isNone) with
      | some t => .error (0x21, t.2)
      | none =>
        let ts := tasks.map (fun t => (t.1, t.2, (atOff bs t.1.entry).getD 0))
        let entries := ts.map (fun t => t.2.2)
        let ind := indirectTo bs entries
        let plain := plainEdges bs ind ind false
        let loops := (loopsOf bs).map (fun x => ⟨x.2.1, x.1 + 1, 0⟩)
        match tokenBad bs ind (plainEdges bs ind [] true ++ loops) entries with
        | some o => .error (0x22, code.off + o)
        | none => match safeBad bs (loopEdges bs (loopsOf bs).length plain) entries with
          | some o => .error (0x23, code.off + o)
          | none => match (resourceBad bs (plainEdges bs ind [] false ++ loops) code.off ts).or ((recOffs (sectOf l 6) 16).find? (fun o => Nat.ble ((s.part part).fld 0x58 4) (s.img im o 4))) with
            | some o => .error (0x24, o)
            | none => match (if c.repro then reproBad bs else none) with
              | some o => .error (0x25, code.off + o)
              | none => match s.regionsBad im part (sectOf l 7) c.regions with
                | some o => .error (0x26, o)
                | none => .ok c

/-- LOAD: the image is checked, copied to its destination once the partition's buckets let it pass (R274), and given the next handle. -/
def loadCmd (fn q : Nat) (s : State) : State :=
  let part := (s.fnPart fn).getD 0
  s.ringMay fn q 0x01 (fun b s =>
    let im : Image := ⟨hostPa (imgFld b 8 8), imgFld b 0x18 4⟩
    let dest := imgFld b 0x10 8
    match s.checkCode im part dest with
    | .error (st, o) => some (s, st, o, 0)
    | .ok c => match s.guestAddrs part dest im.size (accR + accX) with
      | .error e => some (s, 0x32, e.code, 0)
      | .ok as => match s.moveBytes part (upFrom im.pa im.size) as with
        | none => none
        | some s1 =>
          let s2 := s1.addRegions im part
          let h := s2.nextCode
          some ({ s2 with codes := mput s2.codes h c, nextCode := h + 1 }, 0, 0, h))
def execLoad (fn q : Nat) (s : State) : Res := .next (loadCmd fn q s)

end Sys2Proof.Machine
end

