-- ==== Sys2Proof/Machine/Sage.lean ====
section
/-! DEFINITION. Sage, the eviction governor: the bounds of a vacate, its choices, checkpoint, discard and drop, clearing, vacancy and RESUME
(R310, R313 to R323). -/

namespace Sys2Proof.Machine

/-! ## The target -/

/-- The queues of a target (R314). -/
def State.targetQueues (s : State) (kind id qmask : Nat) : List Nat :=
  match kind with
  | 0 => ((upFrom 1 256).filter (fun v => bitOf ((s.part id).fld 0x20 32) (v - 1))).flatMap (fun v => (upFrom 0 16).map (qkey v))
  | 1 => (upFrom 0 16).map (qkey id)
  | _ => ((upFrom 0 16).filter (bitOf qmask)).map (qkey id)
/-- Its partition. -/
def State.targetPart (s : State) (kind id : Nat) : Option Nat :=
  if kind == 0 then (if Nat.blt id 48 && (s.part id).en then some id else none) else s.fnPart id
/-- What a bound is computed for: the target, the deadline, the queues with the choice each counts as (3: not yet decided), the frames already
reserved, and the queues whose frames are not among them. -/
structure Plan where
  kind : Nat
  part : Nat
  deadline : Nat
  queues : List (Nat × Nat)
  held : List Nat
  extra : List Nat

/-! ## Bounds (R188, R315, R316, R346) -/

/-- The frequency in MHz. -/
def State.mhz (s : State) : Nat := s.dev.opcur.1
/-- Cycles of n ns and nanoseconds of n cycles, rounded up. -/
def State.cyc (s : State) (ns : Nat) : Nat := cdiv (ns * s.mhz) 1000
def State.ns (s : State) (cyc : Nat) : Nat := cdiv (1000 * cyc) s.mhz
def State.tFar (s : State) : Nat := 4469 + s.cyc 144
/-- T_hbm for n KiB (R212). -/
def State.tHbm (s : State) (n : Nat) : Nat := 220 + 9 * n + s.cyc 144
/-- Cycles a K-block of an MMA passes in (R188). -/
def passCycles (cls : Option Nat) : Nat := match cls with | some 1 => 64 | some 2 => 32 | some 3 => 16 | _ => 256
/-- The completion time of an M command after its start (R188, R346, R420); a read of memory is taken to come from HBM (log entry 97). -/
def State.mCycles (s : State) (x : Cmd) : Nat :=
  let look (cnm1 pm : Nat) : Nat := cdiv (16 * (cnm1 + 1) * (maskBits pm 4).length) 2
  match x.ins with
  | .mma _ _ _ _ _ sa _ _ _ _ kbn _ _ =>
    let d := s.desc x.part (tileOf x.part (nth x.args 0 0)).tid
    (kbn + 1) * passCycles (if sa == 1 then some 0 else fmtClass d.fmt) + 40
  | .mzero _ _ m => 16 * (maskBits m 8).length + 8
  | .mlda _ _ _ _ _ _ => 40
  | .msta _ _ _ _ _ _ _ _ => if (s.desc x.part (tileOf x.part (nth x.args 0 0)).tid).scaled then 56 else 40
  | .tbuild _ _ _ _ _ _ _ _ => 56
  | .tlook _ _ _ _ _ _ _ cnm1 pm => look cnm1 pm + 40
  | .tlookR _ _ _ _ _ _ _ cnm1 pm => 16 + look cnm1 pm + 80
  | .zsave _ _ _ f _ _ => if f == 1 then 104 else 417
  | .zload _ _ _ f _ _ => if f == 1 then 88 else s.tHbm 33 + 88
  | .zinv _ _ _ => 8
  | .cbld _ _ _ _ _ => s.tHbm 1 + 40
  | _ => 24
def sum (l : List Nat) : Nat := l.foldl (· + ·) 0
def maxOf (l : List Nat) : Nat := l.foldl Nat.max 0
/-- Q_c, or S_c when only started M commands count (R316), of the commands and loads that core k has for the partition. -/
def State.pendingWork (s : State) (kind part k : Nat) (started : Bool) : Nat :=
  let c := s.core k
  let ms := c.cmds.filter (fun x => isM x.ins && x.part == part && (!started || x.st == .running))
  let fills := (!c.loads.isEmpty && c.csr.partid.toNat == part) || (!started && ms.any (fun x => x.st == .parked))
  let replies := c.cmds.any (fun x => x.part == part && x.st == .running && (match x.ins with | .rld _ _ _ _ => true | .rfaa _ _ _ _ _ => true | _ => false))
  let xs := kind == 0 && (coresOf (clusterOf k)).any (fun j => (s.core j).cmds.any (fun x => !isM x.ins && x.part == part))
  sum (ms.map s.mCycles) + (if fills then s.tFar else 0) + (if replies then s.cyc 20000 else 0) + (if xs then s.tFar else 0)

/-- The cores that run tasks of a list of queues. -/
def State.targetCores (s : State) (qs : List Nat) : List Nat := qs.flatMap s.runners
/-- List frames of a queue (R316, R320), and save frames for its running tasks. A queue not yet decided counts its list frames (R317's example). -/
def State.listFrames (s : State) (key : Nat) : Nat := cdiv ((s.qcb key).ent + (s.qcb key).runN) 256
def State.planFrames (s : State) (qs : List (Nat × Nat)) : Nat :=
  sum (qs.map (fun q => match q.2 with
    | 0 => 0
    | 1 => 163 * (s.qcb q.1).runN + s.listFrames q.1
    | _ => s.listFrames q.1))
/-- The first n frames of a partition's free list, and how many it holds. -/
def State.freeFrames (s : State) (part n : Nat) : List Nat :=
  let p := s.part part
  (upFrom (p.fld 0x84 4) n).map (fun h => s.rdMem (p.fld 0x78 8 + 8 * (h % 2 ^ 32 % p.fld 0x80 4)) 8)
def State.freeCount (s : State) (part : Nat) : Nat := ((s.part part).fld 0x88 4 + 2 ^ 32 - (s.part part).fld 0x84 4) % 2 ^ 32
/-- Bytes by HBM channel, counted up. -/
def addAt (m : SMap Nat) (ch n : Nat) : SMap Nat := mput m ch (mget m ch 0 + n)
def frameLoad (l : List Nat) : SMap Nat :=
  l.foldl (fun m a => (upFrom 0 16).foldl (fun m i => addAt m (channelOf (a + 256 * i)) 256) m) []
/-- D_ch of a cluster (R379): the bytes of the partition's DIRTY and PUBLISHED frames that their descriptors map to each channel. -/
def State.dirtyLoad (s : State) (part cl : Nat) (m : SMap Nat) : SMap Nat :=
  ((s.cluster cl).frames.filter (fun f => f.2.tile.part == part && (f.2.st == .dirty || f.2.st == .published))).foldl (fun m f =>
    let d := s.desc part f.2.tile.tid
    ((d.tileBytes f.2.tile).filter (fun b => b.back)).foldl (fun m b =>
      match s.xlate (1024 + cl) part b.gva 0 with
      | .ok r => if paKind r.pa == .localHbm then addAt m (channelOf r.pa) 1 else m
      | .error _ => m) m) m
/-- G of a partition target (R316). -/
def State.stillDirty (s : State) (p : Plan) : Nat :=
  17408 * 225 * (((s.targetCores (p.queues.map (fun q => q.1))).map clusterOf).eraseDups).length
/-- The frames a plan counts: of those reserved what its choices still need, and for its other queues the next of the free list (R316). -/
def State.countedFrames (s : State) (p : Plan) : List Nat :=
  p.held.take (s.planFrames (p.queues.filter (fun q => !p.extra.contains q.1))) ++ s.freeFrames p.part (s.planFrames (p.queues.filter (fun q => p.extra.contains q.1)))
/-- W_ch: the save and list frames, and for a partition target what clearing writes. -/
def State.writes (s : State) (p : Plan) : SMap Nat :=
  let w := frameLoad (s.countedFrames p)
  if p.kind != 0 then w
  else
    let d := (s.part p.part).clusters.foldl (fun m cl => s.dirtyLoad p.part cl m) w
    let g := s.stillDirty p
    if g == 0 then d else (upFrom 0 256).foldl (fun m ch => addAt m ch g) d
/-- The floor of a channel in units of 0.25 GB/s. -/
def Part.floor (p : Part) (ch : Nat) : Nat := p.fld (0x100 + 4 * ch) 1
/-- A channel without a floor has bytes to take (REFUSED_FLOOR). -/
def State.noFloor (s : State) (p : Plan) : Bool := (s.writes p).any (fun e => e.2 != 0 && (s.part p.part).floor e.1 == 0)
/-- T_write: ⌈W_ch · f / φ_ch⌉ with φ_ch a quarter of the floor. -/
def State.tWrite (s : State) (p : Plan) : Nat :=
  maxOf ((s.writes p).map (fun e => cdiv (4 * e.2 * s.mhz) (1000 * (s.part p.part).floor e.1)))
/-- The cores a bound looks at: those that run the target's tasks, and for a partition one of each of its clusters, where commands of the
target may be unfinished. -/
def State.boundCores (s : State) (p : Plan) : List Nat :=
  s.targetCores (p.queues.map (fun q => q.1)) ++ (if p.kind == 0 then (s.part p.part).clusters.map (8 * ·) else [])
/-- The vacate bound in cycles: T_ckpt if any queue checkpoints, T_discard otherwise. -/
def State.vacateBound (s : State) (p : Plan) : Nat :=
  let ks := s.boundCores p
  if p.queues.any (fun q => q.2 == 1) then
    11792 + maxOf (ks.map (fun k => s.pendingWork p.kind p.part k false)) + s.tWrite p + 2000
  else s.tFar + maxOf (ks.map (fun k => s.pendingWork p.kind p.part k true)) + s.tWrite p + 2000
/-- The bound and extra ns fit before the deadline (R317). -/
def State.fits (s : State) (p : Plan) (extra : Nat) : Bool :=
  !s.noFloor p && Nat.ble (s.dev.ptime.toNat + s.ns (s.vacateBound p) + extra) p.deadline
/-- E_run of a queue in cycles, and whether its run ends in time. -/
def State.eRun (s : State) (part key : Nat) : Nat := cdiv ((s.qcb key).rem * (s.qcb key).cal) (256 * 8 * (s.part part).clusters.length)
def State.runFits (s : State) (p : Plan) (key : Nat) : Bool :=
  Nat.ble (s.dev.ptime.toNat + cdiv (5 * 1000 * s.eRun p.part key) (4 * s.mhz)) p.deadline
/-- A queue's choice changed in a plan. -/
def Plan.with (p : Plan) (key c : Nat) : Plan := { p with queues := p.queues.map (fun q => if q.1 == key then (key, c) else q) }

/-! ## Choices (R317, R318) -/

/-- The choice of each queue in order, or the refusal's status with the limiting queue. One that drains or is being saved never runs on (R313). -/
def State.choose (s : State) : List Nat → Plan → Except (Nat × Nat) Plan
  | [], p => .ok p
  | k :: t, p =>
    let go (c : Nat) : Except (Nat × Nat) Plan :=
      if Nat.blt (s.freeCount p.part) (s.planFrames ((p.with k c).queues.filter (fun q => q.2 != 3))) then .error (0x11, k % 17) else s.choose t (p.with k c)
    if (s.qcb k).qstate != 1 && s.runFits p k && s.fits (p.with k 1) 2000 then go 0
    else if s.fits (p.with k 1) 0 then go 1
    else if (s.qcb k).disc && s.fits (p.with k 2) 0 then go 2
    else if s.noFloor (p.with k 1) then .error (0x12, k % 17)
    else .error (0x10, k % 17)

/-- A discarded task's core (R321): no bundle issues any more; the rest happens at its turn. -/
def Core.discard (c : Core) : Core := { c with run := .discarding, preempt := false }
/-- A task that a discard can still stop: it has not passed step 1 of DONE, and is neither aborting nor being saved. -/
def Core.runs (c : Core) : Bool := match c.run with | .task => true | .doneWait => true | .resuming _ _ => true | _ => false
/-- A queue's launches end as dropped (R321, R381, R389). -/
def State.dropLaunches (s : State) (key : Nat) : State :=
  let ls := s.launches.filter (fun e => e.2.key == key && !e.2.dropped)
  let s1 := ls.foldl (fun s e => ((s.post key e.2.tag 5 0 e.1 0).freeRings e.1).updLaunch e.1 (fun l => { l with live := 0, dropped := true })) s
  s1.updQcb key (fun q => { q with rem := 0, ent := 0 })
/-- The records that Sage holds for entries and running tasks become DONE (R321). -/
def State.endRecords (s : State) (es : List (Nat × RdqE)) (ks : List Nat) : State :=
  let s1 := es.foldl (fun s e => s.setRecState (s.entryRec e.2) recDone) s
  ks.foldl (fun s k => s.setRecState (s.core k).task.recPA recDone) s1
/-- A queue is discarded (R321): its running tasks with DISC, or every one when all is set; the others are saved. -/
def State.discardQueue (s : State) (key : Nat) (drop all : Bool) : State :=
  let p := s.pullEntries key
  let s1 := p.1.unreserve key
  let gone := (s1.runners key).filter (fun k => (all || (s1.core k).task.disc) && (s1.core k).runs)
  let s2 := s1.updQcb key (fun q => { q with qstate := 1, toSave := true, saved := if drop then [] else q.saved ++ p.2 })
  let s3 := if drop then (s2.endRecords (p.2 ++ (s1.qcb key).saved) (s1.runners key)).dropLaunches key else s2
  let s4 := (s3.runners key).foldl (fun s k => if gone.contains k then s.updCore k Core.discard else s.updCore k Core.order) s3
  s4.queueSaved key
/-- A choice takes effect: run stops admissions (R311, R319). -/
def State.applyChoice (s : State) (key c : Nat) (drop : Bool) : State :=
  match c with
  | 0 => if (s.qcb key).qstate == 0 then (s.updQcb key (fun q => { q with qstate := 1 })).queueStopped key else s
  | 1 => s.saveQueue key
  | _ => s.discardQueue key drop false

/-! ## VACATE and SAGE_EVALUATION (R314, R317, R318) -/

/-- The snapshot state of a queue: one on its way to SAVED counts as SAVED (R313). -/
def Qcb.snapshot (q : Qcb) : Nat := if q.toSave then 2 else q.qstate
/-- SAGED permits the poster: 0 the physical function, 1 Omfin (R363). -/
def State.mayPost (s : State) (part poster : Nat) : Bool := bitOf ((s.part part).fld 0xA4 1) poster
/-- A lower frequency asked for and not yet in force is held while a vacate is pending (R324, R392). -/
def State.holdLower (s : State) : State :=
  if s.dev.opbusy && Nat.blt (fld s.dev.opreq.toNat 16 16) s.dev.opcur.1 then { s with dev := { s.dev with ophold := true, opbusy := false } } else s
/-- A vacate posted: the state with it pending, or its status and limiting queue. -/
def State.postVacate (s : State) (poster kind id qmask deadline : Nat) (drop : Bool) (tag : Option Nat) : Except (Nat × Nat) State :=
  match s.targetPart kind id with
  | none => .error (7, 0)
  | some part =>
    if !s.mayPost part poster then .error (0x33, 0)
    else if s.vacates.any (fun v => v.part == part && !v.done) then .error (0x13, 0)
    else
      let qs := s.targetQueues kind id qmask
      match s.choose qs ⟨kind, part, deadline, qs.map (fun k => (k, 3)), [], qs⟩ with
      | .error e => .error e
      | .ok p => match s.popFrames part (s.planFrames p.queues) with
        | none => .error (0x11, 0)
        | some (s1, fs) =>
          let v : Vacate :=
            { kind := kind, id := id, qmask := qmask, part := part, deadline := deadline, drop := drop, tag := tag,
              queues := p.queues.map (fun q => (q.1, q.2, (s.qcb q.1).snapshot)), frames := fs, lists := [],
              clusters := (s.part part).clusters.length, done := false, next := s.dev.ptime.toNat + 2000 }
          .ok (p.queues.foldl (fun s q => s.applyChoice q.1 q.2 drop) { s1 with vacates := s1.vacates ++ [v] }.holdLower)
/-- Omfin hears of the end of a vacate or resume over MCTP. -/
def State.tellOmfin (s : State) (op status field result : Nat) : State := s.emit (.mctp op [status, field, result, s.dev.ptime.toNat])
/-- VACATE: poster 0 is the physical function, whose control ring holds the command; poster 1 is Omfin, with the event's operands. -/
def vacate (poster kind id qmask deadline drop : Nat) (s : State) : State :=
  if poster == 0 then
    match s.good 16 0x13 with
    | none => s
    | some b =>
      let f := imgFld b
      (match s.postVacate 0 (f 8 1) (f 0xC 2) (f 0xA 2) (f 0x10 8) (f 9 1 == 1) (some (f 2 2)) with
      | .error (st, q) => s.taken 16 b (some (st, q, 0))
      | .ok s1 => s1.taken 16 b (some (256, 0, 0)))
  else match s.postVacate 1 kind id qmask deadline (drop == 1) none with
    | .error (st, q) => s.tellOmfin 0x13 st q 0
    | .ok s1 => s1
def execVacate (poster kind id qmask deadline drop : Nat) (s : State) : Res := .next (vacate poster kind id qmask deadline drop s)

/-- The pending vacate of a number. -/
def State.pendingVacate (s : State) (n : Nat) : Option Vacate :=
  match s.vacates.drop n with
  | v :: _ => if v.done then none else some v
  | [] => none
def State.updVacate (s : State) (n : Nat) (f : Vacate → Vacate) : State := { s with vacates := modNth s.vacates n f }
/-- The plan a pending vacate stands at. -/
def Vacate.plan (v : Vacate) : Plan :=
  ⟨v.kind, v.part, v.deadline, v.queues.map (fun q => (q.1, q.2.1)), v.frames, (v.queues.filter (fun q => q.2.1 == 0)).map (fun q => q.1)⟩
/-- A queue moves down: the frames it needs are taken, and the choice takes effect. -/
def State.moveDown (s : State) (n key c : Nat) (drop : Bool) : State :=
  match s.vacates.drop n with
  | [] => s
  | v :: _ =>
    match (if c == 1 then s.popFrames v.part (s.planFrames [(key, 1)]) else if v.queues.any (fun q => q.1 == key && q.2.1 == 0) then
        s.popFrames v.part (s.listFrames key) else some (s, [])) with
    | none => s
    | some (s1, fs) =>
      (s1.updVacate n (fun v => { v with
        frames := v.frames ++ fs, queues := v.queues.map (fun q => if q.1 == key then (key, c, q.2.2) else q) })).applyChoice key c drop
/-- Some task of the queue has been saved, or is being saved. -/
def State.anySaved (s : State) (key : Nat) : Bool :=
  (s.qcb key).saved.any (fun e => e.2.kind == 1) || (s.runners key).any (fun k => match (s.core k).run with | .saving _ _ _ => true | _ => false)
/-- The evaluation of one queue (R318). -/
def State.evalQueue (s : State) (n : Nat) (q : Nat × Nat × Nat) : State :=
  match s.pendingVacate n with
  | none => s
  | some v =>
    let p := v.plan
    let key := q.1
    match q.2.1 with
    | 0 =>
      if s.runFits p key && s.fits (p.with key 1) 2000 then s
      else if (s.qcb key).disc && !s.fits (p.with key 1) 0 && s.fits (p.with key 2) 0 then s.moveDown n key 2 v.drop
      else s.moveDown n key 1 v.drop
    | 1 =>
      if (s.qcb key).disc && !s.anySaved key && Nat.blt (s.vacateBound (p.with key 2)) (s.vacateBound p) then s.moveDown n key 2 v.drop else s
    | _ => s

/-- Sage clears a frame (R310): DIRTY and PUBLISHED ones are read out first. -/
def State.clearFrame (s : State) (cl key : Nat) : State :=
  let f := s.frame cl key
  match f.st with
  | .clean => (s.unparkTile cl f.tile).dropFrame cl key
  | .dirty => s.setFrame cl key { f.drain .sage with pin := f.pin }
  | .published => s.setFrame cl key { f.drain .sage with pin := f.pin }
  | _ => s
/-- A cluster in which the target no longer runs and none of its commands remains. -/
def State.left (s : State) (part cl : Nat) : Bool :=
  (coresOf cl).all (fun k => let c := s.core k; c.cmds.all (fun x => x.part != part) && (c.run == .idle || c.csr.partid.toNat != part))
/-- Clearing of a partition target of which some queue is not run, in the clusters it has left (R310) whose clocks run (R393). -/
def State.clearTarget (s : State) (v : Vacate) : State :=
  if v.kind != 0 || v.queues.all (fun q => q.2.1 == 0) then s
  else ((s.part v.part).clusters.filter (fun cl => s.clState cl == clActive && s.left v.part cl)).foldl (fun s cl =>
    ((s.cluster cl).frames.filter (fun f => f.2.tile.part == v.part && f.2.ref == 0)).foldl (fun s f => s.clearFrame cl f.1) s) s
/-- SAGE_EVALUATION of vacate n: every 2,000 ns of PTIME queues may move down (R318); frames are cleared at any time (R310). -/
def sageEvaluation (n : Nat) (s : State) : State :=
  match s.pendingVacate n with
  | none => s
  | some v =>
    let s1 := if Nat.ble v.next s.dev.ptime.toNat
      then v.queues.foldl (fun s q => s.evalQueue n q) (s.updVacate n (fun v => { v with next := v.next + 2000 })) else s
    s1.clearTarget ((s1.pendingVacate n).getD v)
def execSageEvaluation (n : Nat) (s : State) : Res := .next (sageEvaluation n s)

/-! ## VACANCY (R320, R322) -/

/-- A queue's list written into frames. -/
def State.writeList (s : State) (es : List (Nat × RdqE)) (fs : List Nat) : State :=
  let data := es.flatMap (fun e => toBytes 16 e.2.word)
  (fs.zip (framesOf fs.length data)).foldl (fun s x => s.wrBytes x.1 (x.2 ++ List.replicate (4096 - x.2.length) 0)) s
/-- The target is vacant. -/
def State.vacant (s : State) (v : Vacate) : Bool :=
  let keys := v.queues.map (fun q => q.1)
  keys.all (fun k => (s.runners k).isEmpty && (s.pullEntries k).2.isEmpty) &&
    (v.kind != 0 || (
      (upFrom 0 96).all (fun cl => (coresOf cl).all (fun k => (s.core k).cmds.all (fun x => x.part != v.part))) &&
      !s.msgs.any (fun m => match m with
        | .drainData _ t _ _ _ _ _ => t.part == v.part
        | .wbData _ t _ _ _ _ _ _ => t.part == v.part
        | _ => false) &&
      (v.queues.all (fun q => q.2.1 == 0) || (s.part v.part).clusters.all (fun cl =>
        (s.cluster cl).frames.all (fun f => f.2.tile.part != v.part || f.2.st == .invalid)))))
/-- The queues' outcomes, two bits each. -/
def Vacate.outcome (v : Vacate) : Nat := (((upFrom 0 32).zip v.queues).foldl (fun m x => m + x.2.2.1 * 4 ^ x.1) 0)
/-- The saved lists go to memory, queue by queue, in the reserved frames. -/
def State.writeLists (s : State) (n : Nat) (v : Vacate) : State :=
  (v.queues.filter (fun q => q.2.1 != 0)).foldl (fun s q =>
    match s.vacates.drop n with
    | [] => s
    | w :: _ =>
      let es := (s.qcb q.1).saved
      let need := cdiv es.length 256
      (s.writeList es (w.frames.take need)).updVacate n (fun v =>
        { v with frames := v.frames.drop need, lists := v.lists ++ (v.frames.take need).map (fun a => (q.1, a)) })) s
/-- An operating point that a vacate held proceeds (R324, R392). -/
def State.releaseHeld (s : State) : State :=
  if s.dev.ophold && s.vacates.all (fun v => v.done) then { s with dev := { s.dev with ophold := false, opbusy := true } } else s
/-- VACANCY of vacate n: its record is posted and unused frames go back. -/
def vacancy (n : Nat) (s : State) : State :=
  match s.pendingVacate n with
  | none => s
  | some v =>
    if !s.vacant v then s
    else
      let s1 := s.writeLists n v
      let spare := match s1.vacates.drop n with | w :: _ => w.frames | [] => []
      let s2 := ((s1.pushFrames v.part spare).updVacate n (fun v => { v with frames := [], done := true })).releaseHeld
      match v.tag with
      | some tag => (s2.post 16 tag 0 0 v.outcome 0).updQcb 16 (fun q => { q with busy := none })
      | none => s2.tellOmfin 0x13 0 0 v.outcome
def execVacancy (n : Nat) (s : State) : Res := .next (vacancy n s)

/-! ## RESUME (R313, R323) -/

/-- A queue of vacate v returns to its snapshot state: a SAVED one keeps its saved list and the list's frames; of any other the entries are
placed again and the frames go back to the free list (R313, R320). -/
def State.restoreQueue (s : State) (v : Vacate) (q : Nat × Nat × Nat) : State :=
  let fs := (v.lists.filter (fun x => x.1 == q.1)).map (fun x => x.2)
  if q.2.2 == 2 then s.updQcb q.1 (fun x => { x with qstate := 2, toSave := false, lists := x.lists ++ fs })
  else
    let es := (s.qcb q.1).saved
    let back := (s.qcb q.1).lists ++ fs
    let s1 := es.foldl (fun s x => s.replaceEntry x)
      (s.updQcb q.1 (fun x => { x with qstate := q.2.2, toSave := false, saved := [], lists := [] }))
    (s1.pushFrames v.part back).queueStopped q.1
/-- A vacated target resumes: its queues are restored, and dropped launches are forgotten. -/
def State.resumeTarget (s : State) (n : Nat) (v : Vacate) : State :=
  let s1 := v.queues.foldl (fun s q => s.restoreQueue v q) { s with vacates := dropNth s.vacates n }
  { s1 with
    launches := s1.launches.filter (fun e => !(e.2.dropped && v.queues.any (fun q => q.1 == e.2.key) && (s1.runners e.2.key).isEmpty)) }
/-- The vacated target of a kind, number and queues. -/
def State.vacated (s : State) (kind id qmask : Nat) : Option (Nat × Vacate) :=
  ((upFrom 0 s.vacates.length).zip s.vacates).find? (fun x =>
    x.2.done && x.2.kind == kind && x.2.id == id && (kind != 2 || x.2.qmask == qmask))
/-- RESUME's effect and status: a partition target needs a cluster set of the same size. -/
def State.doResume (s : State) (poster kind id qmask : Nat) : State × Nat :=
  match s.targetPart kind id with
  | none => (s, 7)
  | some part =>
    if !s.mayPost part poster then (s, 0x33)
    else match s.vacated kind id qmask with
      | none => (s, 6)
      | some (n, v) => if kind == 0 && (s.part part).clusters.length != v.clusters then (s, 6) else (s.resumeTarget n v, 0)
/-- RESUME: by the physical function's control ring, or Omfin. -/
def resume (poster kind id qmask : Nat) (s : State) : State :=
  if poster == 0 then
    match s.good 16 0x14 with
    | none => s
    | some b =>
      let f := imgFld b
      let r := s.doResume 0 (f 8 1) (f 0xC 2) (f 0xA 2)
      r.1.taken 16 b (some (r.2, 0, 0))
  else
    let r := s.doResume 1 kind id qmask
    r.1.tellOmfin 0x14 r.2 0 0
def execResume (poster kind id qmask : Nat) (s : State) : Res := .next (resume poster kind id qmask s)

end Sys2Proof.Machine
end

