-- ==== Sys2Proof/Machine/Manage.lean ====
section
/-! DEFINITION. The device's registers and their owner (R384 to R387, R391), the partition table (R363 to R366), power (R392 to R394), time (R372
to R374, R377, R378), boot and attestation (R396, R397), resets, and frames from the fabric (R395). -/

namespace Sys2Proof.Machine

/-! ## The owner (R386) -/

/-- Writers by their path: 1 the physical function's driver, 2 Omfin, 3 the fabric manager. -/
def Dev.ownerId (d : Dev) : Nat := fld d.owner.toNat 56 8
def State.owns (s : State) (writer : Nat) : Bool := writer != 0 && s.dev.ownerId == writer
def State.updDev (s : State) (f : Dev → Dev) : State := { s with dev := f s.dev }
/-- OWNCLAIM: taken while there is no owner and the written ID is the writer's own. -/
def ownclaim (writer v : Nat) (s : State) : State :=
  if s.dev.ownerId == 0 && writer != 0 && fld v 56 8 == writer then s.updDev (fun d => { d with owner := BitVec.ofNat 64 v }) else s
def execOwnclaim (writer v : Nat) (s : State) : Res := .next (ownclaim writer v s)
/-- HANDOVER: the owner names its successor; ID 0 releases. -/
def handover (writer v : Nat) (s : State) : State :=
  if s.owns writer then s.updDev (fun d => { d with owner := BitVec.ofNat 64 v }) else s
def execHandover (writer v : Nat) (s : State) : Res := .next (handover writer v s)

/-! ## Power (R392, R393, R394) -/

/-- Fields of OPREQ. -/
def opFreq (v : Nat) : Nat := fld v 16 16
def opVmv (v : Nat) : Nat := fld v 0 16
/-- The operating point may be asked for. -/
def opOk (v : Nat) : Bool :=
  Nat.ble 320 (opVmv v) && Nat.ble (opVmv v) 420 && opFreq v % 25 == 0 && Nat.ble 800 (opFreq v) &&
    Nat.ble (opFreq v + 3500) (1800 + 10 * opVmv v)
/-- OPREQ: a lower frequency is held while a vacate is pending (R324); a write while BUSY replaces the pending request. -/
def opreq (writer v : Nat) (s : State) : State :=
  if !s.owns writer then s
  else if !opOk (v % 2 ^ 32) then s.updDev (fun d => { d with operr := true })
  else
    let hold := Nat.blt (opFreq v) s.dev.opcur.1 && s.vacates.any (fun w => !w.done)
    s.updDev (fun d => { d with opreq := BitVec.ofNat 32 v, operr := false, ophold := hold, opbusy := !hold })
def execOpreq (writer v : Nat) (s : State) : Res := .next (opreq writer v s)
/-- The next step of a change: the voltage rises before the frequency changes, and else the frequency changes before the voltage falls. -/
def opStep (cur req : Nat × Nat) : Nat × Nat :=
  if Nat.blt cur.2 req.2 then (cur.1, req.2) else if cur.1 != req.1 then (req.1, cur.2) else req
/-- OPERATING_POINT_SWITCH: a step of the change, which ends BUSY once the requested point is in force. -/
def opSwitch (s : State) : State :=
  if !s.dev.opbusy then s
  else s.updDev (fun d =>
    let req := (opFreq d.opreq.toNat, opVmv d.opreq.toNat)
    { d with opcur := opStep d.opcur req, opbusy := opStep d.opcur req != req })
def execOperatingPointSwitch (s : State) : Res := .next (opSwitch s)

/-- A cluster may be gated. -/
def State.gateOk (s : State) (cl : Nat) : Bool :=
  (coresOf cl).all (fun k => (s.core k).run == .idle) && (s.cluster cl).rdq.isEmpty && (s.cluster cl).chans.isEmpty &&
    (s.cluster cl).frames.all (fun f => f.2.st != .dirty && f.2.st != .published && !f.2.pin)
/-- Gating loses every frame, L0 line, table and codebook; frames on their way to memory are read out first. -/
def State.gate (s : State) (cl : Nat) : State :=
  let s0 := (s.cluster cl).frames.foldl (fun s f => if f.2.st == FrSt.draining then readOut cl f.1 s else s) s
  let s1 := (s0.cluster cl).frames.foldl (fun s f => s.dropFrame cl f.1) s0
  (coresOf cl).foldl (fun s k => s.updCore k (fun c =>
    { c with
      l0 := c.l0.map (fun l => (l.1, { l.2 with st := .invalid, wmask := 0, data := [] })),
      regs := { c.regs with zr := c.regs.zr.map (fun z => (z.1, { z.2 with st := .empty })), wcnt := [] } })) s1
/-- One cluster's two bits of CLSTATE: what was last written, while a return to ACTIVE still takes its time (R7). -/
def State.clReg (s : State) (cl : Nat) : Nat := if mget s.dev.wake cl 0 == 1 then clActive else s.clState cl
def State.clstateReg (s : State) : Nat := (upFrom 0 96).foldl (fun n cl => n + s.clReg cl * 4 ^ cl) 0
/-- One cluster's two bits of a CLSTATE write: a return to ACTIVE takes time, and 3 is ignored. -/
def State.setCl (s : State) (cl v : Nat) : State :=
  if v == 3 || v == s.clReg cl then s
  else if v == 0 then s.updDev (fun d => { d with wake := mput d.wake cl 1 })
  else
    let s1 := s.updDev (fun d => { d with clstate := mset d.clstate cl v 0, wake := merase d.wake cl })
    if v == 2 then s1.gate cl else s1
/-- CLSTATE: the whole write is ignored when a cluster may not be gated. -/
def clstate (writer v : Nat) (s : State) : State :=
  if !s.owns writer then s
  else if (upFrom 0 96).any (fun cl => fld v (2 * cl) 2 == 2 && s.clState cl != 2 && !s.gateOk cl) then
    s.updDev (fun d => { d with clerr := true })
  else (upFrom 0 96).foldl (fun s cl => s.setCl cl (fld v (2 * cl) 2)) (s.updDev (fun d => { d with clerr := false }))
def execClstate (writer v : Nat) (s : State) : Res := .next (clstate writer v s)
/-- CLUSTER_WAKE: the cluster is ACTIVE again. -/
def clusterWake (cl : Nat) (s : State) : State :=
  if mget s.dev.wake cl 0 == 1 then s.updDev (fun d => { d with clstate := merase d.clstate cl, wake := merase d.wake cl }) else s
def execClusterWake (cluster : Nat) (s : State) : Res := .next (clusterWake cluster s)

/-- THERMAL_SENSOR_UPDATE. -/
def execThermalSensorUpdate (v : Nat) (s : State) : Res := .next (s.updDev (fun d => { d with therm := BitVec.ofNat 16 v }))
/-- The state after every item of the device has its reset value: the host's memory and pages stay, and the model's own counters and agenda go
on. -/
def State.cleared (s : State) : State :=
  { State.reset with
    mem := s.mem.filter (fun c => paKind c.1 == .host), absent := s.absent, freeCtr := s.freeCtr, clock := s.clock, cur := s.cur, agenda := s.agenda,
    out := s.out }
/-- HARD_THERMAL_TRIP: at 110 °C, 880 units, device state is lost, TRIP is set and reported; Omfin stays up with its sessions. -/
def thermalTrip (s : State) : State :=
  if Nat.blt s.dev.therm.toNat 880 then s
  else ((s.cleared.updDev (fun d => { d with trip := true, therm := s.dev.therm, spdm := s.dev.spdm })).msix 0 0).emit (.mctp 0 [s.dev.therm.toNat])
def execHardThermalTrip (s : State) : Res := .next (thermalTrip s)
/-- PACKAGE_RESET and POWER_ON_RESET: every item at its reset value (R12). -/
def execPackageReset (s : State) : Res := .next s.cleared
def execPowerOnReset (s : State) : Res := .next s.cleared

/-! ## Time (R372, R373, R377, R378) -/

/-- PTIME_ADVANCE: one nanosecond. -/
def execPtimeAdvance (s : State) : Res := .next (s.updDev (fun d => { d with ptime := d.ptime + 1 }))
/-- PTP_MESSAGE: an offset of offs ns (below the grandmaster when neg is 1) is computed. The first lock steps PTIME to the grandmaster's time;
later ones change only PTIME's rate, by slew ppm up to 200. INB needs four offsets in a row within 15 ns. -/
def ptpMessage (neg offs slew : Nat) (s : State) : State :=
  if Nat.blt 200 slew then s
  else
    let o : Int := if neg == 1 then -(offs : Int) else offs
    let row := if Nat.ble offs 15 then Nat.min (s.dev.inRow + 1) 4 else 0
    s.updDev (fun d => { d with
      offs := max (-32767) (min 32767 o),
      ptime := if d.lock then d.ptime else BitVec.ofInt 64 ((d.ptime.toNat : Int) - o),
      lock := true, inRow := row, inb := row == 4,
      sync := if d.lock then d.ptime.toNat else ((d.ptime.toNat : Int) - o).toNat,
      refilled := if d.lock then d.refilled else BitVec.ofInt 64 ((d.ptime.toNat : Int) - o) })
def execPtpMessage (neg offs slew : Nat) (s : State) : Res := .next (ptpMessage neg offs slew s)
/-- PTP_SYNC_TIMEOUT: no Sync for 125 ms. -/
def ptpTimeout (s : State) : State :=
  if Nat.ble (s.dev.sync + 125000000) s.dev.ptime.toNat then s.updDev (fun d => { d with inb := false, inRow := 0 }) else s
def execPtpSyncTimeout (s : State) : Res := .next (ptpTimeout s)
/-- A refill is due: 16 ns have passed since the last one. -/
def State.refillDue (s : State) : Bool := Nat.ble 16 (s.dev.ptime - s.dev.refilled).toNat
/-- BUCKET_REFILL: every 16 ns of PTIME, every bucket that something has changed. -/
def bucketRefill (s : State) : State :=
  if s.refillDue then
    s.buckets.foldl (fun s e => s.refill (e.1 / 512) (e.1 % 512))
      (s.updDev (fun d => { d with refilled := d.refilled + 16 }))
  else s
def execBucketRefill (s : State) : Res := .next (bucketRefill s)
/-- FLOOR_SEGMENT_CLOSE: a segment begins, and 64 complete ones are kept. -/
def execFloorSegmentClose (s : State) : Res := .next { s with floors := s.floors.map (fun e => (e.1, 0 :: e.2.take 64)) }
/-- Bytes of a floor window, and whether the partition is below its floor (R378). -/
def State.floorBytes (s : State) (part ch : Nat) : Nat := sum ((mget s.floors (256 * part + ch) []).drop 1)
def State.belowFloor (s : State) (part ch : Nat) : Bool :=
  Nat.blt (s.floorBytes part ch) ((s.part part).floor ch * 1024 * 1000 / s.dev.opcur.1)

/-! ## The partition table (R363 to R366) -/

/-- Fields that may be written while EN = 1. -/
def liveOff (o : Nat) : Bool :=
  (Nat.ble 0x18 o && Nat.blt o 0x20) || (Nat.ble 0x5C o && Nat.blt o 0x5F) || (Nat.ble 0x72 o && Nat.blt o 0x74) ||
    (Nat.ble 0x88 o && Nat.blt o 0x8C) || o == 0xA4 || (Nat.ble 0xA6 o && Nat.blt o 0xF2) || (Nat.ble 0x100 o && Nat.blt o 0x500)
/-- Fields that software writes at all: FLHEAD is the hardware's, CTL has its own rule, the rest are Zero. -/
def tableOff (o : Nat) : Bool :=
  liveOff o || (Nat.ble 8 o && Nat.blt o 0x14) || (Nat.ble 0x18 o && Nat.blt o 0x5C) || (Nat.ble 0x60 o && Nat.blt o 0x71) || (Nat.ble 0x78 o && Nat.blt o 0x84) ||
    (Nat.ble 0x90 o && Nat.blt o 0x9C) || (Nat.ble 0xA0 o && Nat.blt o 0xA4)
/-- The other enabled partitions. -/
def State.others (s : State) (part : Nat) : List Part := (((upFrom 0 48).filter (fun q => q != part && (s.part q).en)).map s.part)
/-- A sum of a channel over the enabled partitions with p among them. -/
def chanSum (p : Part) (os : List Part) (f : Part → Nat) : Nat := f p + sum (os.map f)
/-- Sums and shares of R365 that hold on every channel. -/
def sumsOk (p : Part) (os : List Part) : Bool :=
  (upFrom 0 256).all (fun ch => Nat.ble (chanSum p os (fun q => q.floor ch)) 224 && Nat.ble (chanSum p os (fun q => q.share ch)) 64 && p.share ch != 0)
def fnOk (p : Part) : Bool := let v := p.fld 0xF0 2; v == 0 || (Nat.ble v 256 && bitOf (p.fld 0x20 32) (v - 1))
/-- The checks of a write that sets EN (R365). -/
def enableOk (p : Part) (os : List Part) : Bool :=
  p.fld 8 16 != 0 && Nat.ble 1 (p.fld 0x58 4) && Nat.ble (p.fld 0x58 4) (2 ^ 20) && Nat.ble 6 (p.fld 0x70 1) && Nat.ble (p.fld 0x70 1) 16 &&
    p.fld 0x5C 1 != 0 && p.fld 0x5D 1 != 0 && p.fld 0x5E 1 != 0 && os.all (fun q => Nat.land (p.fld 0x20 32) (q.fld 0x20 32) == 0) && sumsOk p os &&
    Nat.ble (p.fld 0xA0 2 + p.fld 0xA2 2) 4096 &&
    os.all (fun q => p.fld 0xA2 2 == 0 || q.fld 0xA2 2 == 0 || Nat.ble (p.fld 0xA0 2 + p.fld 0xA2 2) (q.fld 0xA0 2) ||
      Nat.ble (q.fld 0xA0 2 + q.fld 0xA2 2) (p.fld 0xA0 2)) && fnOk p
def Part.setEn (p : Part) (v : Nat) : Part := p.setFld 0 1 (p.fld 0 1 / 2 * 2 + v)
/-- PARTITION_ENABLE. -/
def partitionEnable (writer part : Nat) (s : State) : State :=
  let p := s.part part
  if s.owns writer && Nat.blt part 48 && !p.en && enableOk p (s.others part) then s.updPart part (fun p => p.setEn 1) else s
def execPartitionEnable (writer part : Nat) (s : State) : Res := .next (partitionEnable writer part s)
/-- The queues of the virtual functions a partition names. -/
def State.partQueues (s : State) (part : Nat) : List Nat := s.targetQueues 0 part 0
/-- PARTITION_DISABLE: with no live launch, saved task or pending vacate (R366). -/
def partitionDisable (writer part : Nat) (s : State) : State :=
  if s.owns writer && Nat.blt part 48 && !s.launches.any (fun l => l.2.part == part && !l.2.dropped) &&
      (s.partQueues part).all (fun k => (s.qcb k).saved.isEmpty) && !s.vacates.any (fun v => v.part == part && !v.done) then s.updPart part (fun p => p.setEn 0)
  else s
def execPartitionDisable (writer part : Nat) (s : State) : Res := .next (partitionDisable writer part s)

/-- Listed bytes of an extent that f picks by their offset are changed by g. -/
def State.mapBytes (s : State) (a n : Nat) (f : Nat → Bool) (g : Byte → Byte) : State :=
  (s.mem.filter (fun c => Nat.ble a c.1 && Nat.blt c.1 (a + n) && f (c.1 - a))).foldl (fun s c => s.wrBytes c.1 [g c.2]) s
/-- PARTITION_RESET (R366, and the reset lines of R107, R286, R288, R298, R368, R370, R377, R378). -/
def partitionReset (writer part : Nat) (s : State) : State :=
  if !s.owns writer || Nat.ble 48 part then s
  else
    let p := s.part part
    let s := s.mapBytes (p.fld 0x50 8) (128 * p.fld 0x58 4) (fun o => o % 128 == 9) (fun b => b &&& 0xFE)
    let s := s.mapBytes (p.fld 0x60 8) 2048 (fun _ => true) (fun _ => 0)
    let s := s.mapBytes s.dev.vtbase (2 ^ 30) (fun o =>
      fld (s.rdMem (s.dev.vtbase + o / 16 * 16) 16) 16 6 == part && bitOf (s.rdMem (s.dev.vtbase + o / 16 * 16) 16) 102) (fun _ => 0)
    let mine (k : Nat) : Bool := p.fld 0xA0 2 ≤ k && k < p.fld 0xA0 2 + p.fld 0xA2 2
    let s := s.setRings (s.rings.filter (fun (e : Nat × List RdqE) => e.1 % 256 / 4 != part))
    let s : State := { s with
      recs := s.recs.filter (fun (e : Nat × Nat) => e.1 / 2 ^ 64 != part),
      clusters := s.clusters.map (fun (c : Nat × Cluster) => (c.1, { c.2 with
        frames := c.2.frames.map (fun (f : Nat × Frame) => if f.2.tile.part == part then (f.1, { f.2.drop with ver := 0 }) else f),
        rdq := c.2.rdq.filter (fun (e : RdqE) => e.part != part), crd := merase c.2.crd part })),
      cores := s.cores.map (fun (c : Nat × Core) => if c.2.task.lastPart == some part then
          (c.1, { c.2 with
            l0 := c.2.l0.map (fun (l : Nat × L0Line) => (l.1, { l.2 with st := .invalid, wmask := 0, data := [] })) })
        else c),
      gangs := merase s.gangs part,
      msgs := s.msgs.filter (fun (m : Msg) => match m with | .ringWait _ e => e.part != part | _ => true),
      prq := s.prq.filter (fun (e : Prq) => e.part != part),
      bcs := s.bcs.map (fun (b : Nat × Bc) => if mine b.1 then (b.1, { b.2 with value := 0, mask := 0 }) else b),
      buckets := s.buckets.filter (fun (e : Nat × Int) => e.1 / 512 != part),
      floors := s.floors.filter (fun (e : Nat × List Nat) => e.1 / 256 != part) }
    s.updPart part (fun p => { p with frqpidx := 0, frqcidx := 0, frqovf := 0 })
def execPartitionReset (writer part : Nat) (s : State) : Res := .next (partitionReset writer part s)

/-- A byte of the partition-table window written while the rules allow it: EN and the other bits of CTL have theirs. -/
def State.writeTable (s : State) (writer part off size v : Nat) : State :=
  let p := s.part part
  let q := (upFrom 0 size).foldl (fun q i =>
    if (if p.en then liveOff (off + i) else tableOff (off + i)) then q.setFld (off + i) 1 (fld v (8 * i) 8) else q) p
  let ok := !p.en || ((sumsOk q (s.others part) || !sumsOk p (s.others part)) && (fnOk q || !fnOk p))
  let s1 := if ok then s.updPart part (fun _ => q) else s
  -- a write of RATE or BURST brings each bucket down to the new burst (R377)
  let s2 := (List.range 272).foldl (fun s i =>
    if q.rate i == p.rate i && q.burst i == p.burst i then s
    else
      let old : Int := if p.rate i == 0 then ((p.burst i * 1024 : Nat) : Int) else mget s.buckets (bucketKey part i) ((p.burst i * 1024 : Nat) : Int)
      s.setBucket part i (min old ((q.burst i * 1024 : Nat) : Int))) s1
  if off != 0 || size == 0 then (if ok then s2 else s)
  else
    let c := fld v 0 8
    if p.en then (if bitOf c 0 then s2 else partitionDisable writer part s2)
    else
      let s3 := s2.updPart part (fun p => p.setFld 0 1 (fld c 1 2 * 2))
      if bitOf c 0 then partitionEnable writer part s3 else s3

/-! ## Register writes (R7, R8, R384, R385, R387) -/

/-- A register of n bytes at ro holding old, after a write of size bytes of v at off: the bytes that the write reaches are replaced (log entry 68);
none where it reaches none of them. -/
def merged (ro n old off size v : Nat) : Option Nat :=
  if Nat.blt ro (off + size) && Nat.blt off (ro + n) then
    some ((upFrom 0 n).foldl (fun x i => if Nat.ble off (ro + i) && Nat.blt (ro + i) (off + size)
      then setFld x (8 * i) 8 (fld v (8 * (ro + i - off)) 8) else x) old)
  else none
/-- A register that software writes: its offset, its bytes, what it holds, and the effect of a value. -/
structure WReg where
  off : Nat
  n : Nat
  old : Nat
  put : Nat → State → State
/-- Every register of a list that a write reaches takes its new value. -/
def writeRegs (off size v : Nat) (l : List WReg) (s : State) : State :=
  l.foldl (fun s r => match merged r.off r.n r.old off size v with
    | some x => r.put x s
    | none => s) s
/-- A write-only register of eight bytes at ro acts on a write of all of them, or of its first m (log entry 68). -/
def trigger (off size ro m : Nat) (act : Nat → State → State) : WReg :=
  ⟨ro, 8, 0, fun x s => if Nat.ble off ro && Nat.ble (ro + m) (off + size) then act x s else s⟩

/-- A queue control block (R387). -/
def Qcb.image (q : Qcb) : Nat :=
  q.rbase * 2 ^ 64 + q.cbase * 2 ^ 192 + q.pidx.toNat * 2 ^ 256 + q.cidx.toNat * 2 ^ 288 + q.cpidx.toNat * 2 ^ 320 + q.ccidx.toNat * 2 ^ 352 +
    q.qstate * 2 ^ 415 + q.disc.toNat * 2 ^ 417 + q.dberr.toNat * 2 ^ 418 + q.vec * 2 ^ 424 + q.rsz * 2 ^ 440 + q.csz * 2 ^ 448

/-- A write of size bytes at off covers the byte at offset n. -/
def covers (off size n : Nat) : Bool := Nat.ble off n && Nat.blt n (off + size)
/-- A write into a queue control block (R387): the ring's place and sizes only while the queue is STOPPED; PIDX rings the doorbell; DBERR is
cleared by a 1. -/
def State.writeQcb (s : State) (key off size v : Nat) : State :=
  s.updQcb key (fun q =>
    let x := setFld q.image (8 * off) (8 * size) v
    let field (o n old : Nat) : Nat := if (upFrom o n).any (covers off size) then fld x (8 * o) (8 * n) else old
    let still (o n old : Nat) : Nat := if q.qstate == 3 then field o n old else old
    let q1 := { q with
      rbase := still 8 8 q.rbase, cbase := still 24 8 q.cbase, rsz := still 55 1 q.rsz, csz := still 56 1 q.csz,
      ccidx := BitVec.ofNat 32 (field 44 4 q.ccidx.toNat), vec := field 53 2 q.vec,
      disc := if covers off size 52 then bitOf x 417 else q.disc,
      dberr := q.dberr && !(covers off size 52 && bitOf x 418) }
    if (upFrom 32 4).any (covers off size) then q1.ring (BitVec.ofNat 32 (fld x 256 32)) else q1)

/-- A write into a function block (R385). -/
def State.writeBlock (s : State) (fn off size v : Nat) : State :=
  if Nat.blt off 0x440 then s.writeQcb (qkey fn (off / 64)) (off % 64) size v
  else writeRegs off size v
    ([trigger off size 0x800 4 (prqresp fn), trigger off size 0x808 8 (genbump fn)] ++
      (if fn == 0 then
        [⟨0xC44, 4, s.dev.pffrqcidx.toNat, fun x s => s.updDev (fun d => { d with pffrqcidx := BitVec.ofNat 32 x })⟩,
         ⟨0xC48, 4, 0, fun _ s => s.updDev (fun d => { d with pffrqovf := 0 })⟩]
      else match s.fnPart fn with
        | none => []
        | some p =>
          [⟨0xC44, 4, (s.part p).frqcidx.toNat, fun x s => s.updPart p (fun p => { p with frqcidx := BitVec.ofNat 32 x })⟩,
           ⟨0xC48, 4, 0, fun _ s => s.updPart p (fun p => { p with frqovf := 0 })⟩])) s

/-- A counter of the measurement window (R380): a host write of its count, and of its control word, whose OVF is cleared by a 1. -/
def State.writePmc (s : State) (off size v : Nat) : State :=
  let key := off / 16
  let e := mget s.pmcs key ⟨0, 0⟩
  let put (s : State) (f : Pmc → Pmc) : State := { s with pmcs := mput s.pmcs key (f (mget s.pmcs key ⟨0, 0⟩)) }
  writeRegs (off % 16) size v
    [⟨0, 8, e.count, fun x s => put s (fun e => { e with count := x % 2 ^ 48 })⟩,
     ⟨8, 8, e.ctl.toNat, fun x s =>
        let ovf := bitOf e.ctl.toNat 8 && !(covers (off % 16) size 9 && bitOf x 8)
        put s (fun e => { e with ctl := BitVec.ofNat 32 (Nat.land x 0xFF0000FF + (if ovf then 256 else 0)) })⟩] s

/-- GENBASE and VTBASE are written while no partition is enabled. -/
def State.noneEnabled (s : State) : Bool := (upFrom 0 48).all (fun p => !(s.part p).en)
/-- A write to the physical function's BAR0 (R384). -/
def State.writePf (s : State) (writer off size v : Nat) : State :=
  let own := s.owns writer
  let dev (s : State) (f : Dev → Dev) : State := if own then s.updDev f else s
  if Nat.ble 0x800000 off then s.writeBlock 0 (off - 0x800000) size v
  else if Nat.ble 0x500000 off then
    (if own then (upFrom 0 size).foldl (fun s i => if Nat.blt (off + i) 0x502000 then
      s.updDev (fun d => { d with route := mset d.route (off + i - 0x500000) (fld v (8 * i) 8) 0 }) else s) s else s)
  else if Nat.ble 0x400000 off then
    (if own && Nat.blt (off - 0x400000) 0x23000 then s.writePmc (off - 0x400000) size v else s)
  else if Nat.ble 0x200000 off then s
  else if Nat.ble 0x100000 off then
    let part := (off - 0x100000) / 0x800
    if own && Nat.blt part 48 then s.writeTable writer part ((off - 0x100000) % 0x800) size v else s
  else writeRegs off size v
    [trigger off size 0x10 8 (ownclaim writer), trigger off size 0x18 8 (handover writer),
     ⟨0x20, 4, s.dev.opreq.toNat, opreq writer⟩, ⟨0x40, 24, s.clstateReg, clstate writer⟩,
     ⟨0x60, 8, s.dev.genbase, fun x s => if s.noneEnabled then dev s (fun d => { d with genbase := x }) else s⟩,
     ⟨0x68, 8, s.dev.vtbase, fun x s => if s.noneEnabled then dev s (fun d => { d with vtbase := x }) else s⟩,
     ⟨0x70, 8, s.dev.pffrqbase, fun x s => dev s (fun d => { d with pffrqbase := x })⟩,
     ⟨0x78, 1, s.dev.pffrqn, fun x s => if x == 0 || (Nat.ble 6 x && Nat.ble x 16) then dev s (fun d => { d with pffrqn := x }) else s⟩,
     ⟨0x7A, 2, s.dev.pffrqvec, fun x s => dev s (fun d => { d with pffrqvec := x })⟩,
     ⟨0x84, 4, s.dev.pffrqcidx.toNat, fun x s => s.updDev (fun d => { d with pffrqcidx := BitVec.ofNat 32 x })⟩,
     ⟨0x88, 4, 0, fun _ s => s.updDev (fun d => { d with pffrqovf := 0 })⟩,
     ⟨0x90, 2, s.dev.fabid, fun x s => dev s (fun d => { d with fabid := x % 8192 })⟩] s
/-- REGISTER_WRITE: size bytes of v at an offset of function fn's BAR0. -/
def registerWrite (writer fn off size v : Nat) (s : State) : State :=
  if Nat.blt 256 fn then s
  else if Nat.blt 8 size && !(fn == 0 && Nat.ble 0x40 off && Nat.ble (off + size) 0x58) then s
  else if fn == 0 then s.writePf writer off size v
  else s.writeBlock fn off size v
def execRegisterWrite (writer fn off size v : Nat) (s : State) : Res := .next (registerWrite writer fn off size v s)

/-! ### Reads (R7, R384, R385) -/

def Dev.opstat (d : Dev) : Nat :=
  d.opcur.1 * 2 ^ 32 + d.opcur.2 * 2 ^ 16 + d.clerr.toNat * 8 + d.ophold.toNat * 4 + d.operr.toNat * 2 + d.opbusy.toNat
def Dev.thermReg (d : Dev) : Nat := d.therm.toNat + d.trip.toNat * 2 ^ 31
def Dev.bootstat (d : Dev) : Nat := d.boot + d.bootfail.toNat * 2 ^ 30 + d.ready.toNat * 2 ^ 31
def Dev.thstat (d : Dev) : Nat := (BitVec.ofInt 16 d.offs).toNat * 2 ^ 16 + d.lock.toNat * 2 + d.inb.toNat
/-- A broadcast counter's entry of the counter window: VALUE, EPOCH, MASK. -/
def State.readCounter (s : State) (i : Nat) : Nat := let b := s.bc i; b.value.toNat + b.epoch * 2 ^ 32 + b.mask * 2 ^ 64
/-- A queue's entry of the Sage window: REM, CAL, RUN, ENT. -/
def State.readSage (s : State) (fn q : Nat) : Nat := let x := s.qcb (qkey fn q); x.rem + x.cal * 2 ^ 64 + x.runN % 2 ^ 16 * 2 ^ 80 + x.ent % 2 ^ 32 * 2 ^ 96
/-- DIRTY and PUBLISHED frames of a partition in a cluster (R379). -/
def State.dirtyFrames (s : State) (part cl : Nat) : Nat :=
  ((s.cluster cl).frames.filter (fun f => f.2.tile.part == part && (f.2.st == .dirty || f.2.st == .published))).length
/-- Size bytes from off on, of registers given by offset, bytes and value; where there is none, zeros. -/
def readRegs (off size : Nat) (l : List (Nat × Nat × Nat)) : Nat :=
  (upFrom 0 size).foldl (fun x i => match l.find? (fun r => Nat.ble r.1 (off + i) && Nat.blt (off + i) (r.1 + r.2.1)) with
    | some r => x + fld r.2.2 (8 * (off + i - r.1)) 8 * 256 ^ i
    | none => x) 0
/-- Size bytes of a function block as a read returns them (R385): of a queue control block, or of registers. The mirror of DEVID, OPSTAT, THERM and
THSTAT has them at 0xC00 and their own offsets (log entry 98). -/
def State.readBlock (s : State) (fn off size : Nat) : Nat :=
  let frq (pf : W32) (f : Part → W32) : Nat :=
    if fn == 0 then pf.toNat else match s.fnPart fn with | some p => (f (s.part p)).toNat | none => 0
  if Nat.blt off 0x440 then fld (s.qcb (qkey fn (off / 64))).image (8 * (off % 64)) (8 * size)
  else readRegs off size
    [(0x810, 4, s.genres fn), (0xC00, 4, 0x08800001), (0xC28, 8, s.dev.opstat), (0xC30, 4, s.dev.thermReg), (0xC38, 4, s.dev.thstat),
     (0xC40, 4, frq s.dev.pffrqpidx Part.frqpidx), (0xC44, 4, frq s.dev.pffrqcidx Part.frqcidx), (0xC48, 4, frq s.dev.pffrqovf Part.frqovf)]
/-- Size bytes of a window of the physical function's BAR0 as a read returns them (R384). -/
def State.readWindow (s : State) (off size : Nat) : Nat :=
  let part (x o : Nat) : Nat := fld x (8 * o) (8 * size)
  if Nat.ble 0x800000 off then s.readBlock 0 (off - 0x800000) size
  else if Nat.ble 0x500000 off then (upFrom 0 size).foldl (fun x i =>
    x + (if Nat.blt (off + i) 0x502000 then mget s.dev.route (off + i - 0x500000) 0 else 0) * 256 ^ i) 0
  else if Nat.ble 0x400000 off then
    let e := mget s.pmcs ((off - 0x400000) / 16) ⟨0, 0⟩
    part (e.count + e.ctl.toNat * 2 ^ 64) (off % 16)
  else if Nat.ble 0x300000 off then part (s.readSage ((off - 0x300000) / 512) ((off - 0x300000) / 32 % 16)) (off % 32)
  else if Nat.ble 0x200000 off then (if Nat.blt off 0x220000 then part (s.readCounter ((off - 0x200000) / 32)) (off % 32) else 0)
  else if Nat.blt ((off - 0x100000) / 0x800) 48 then (s.part ((off - 0x100000) / 0x800)).fld ((off - 0x100000) % 0x800) size else 0
/-- Size bytes of the physical function's BAR0 as a read returns them (R384): write-only registers read 0. Until boot has exposed the functions, and
where it has failed, BOOTSTAT alone is there (R396). -/
def State.readPf (s : State) (off size : Nat) : Nat :=
  let d := s.dev
  if !d.ready then readRegs off size [(0x34, 4, d.bootstat)]
  else if Nat.ble 0x100000 off then s.readWindow off size
  else readRegs off size
    [(0x00, 4, 0x08800001), (0x08, 8, d.owner.toNat), (0x20, 4, d.opreq.toNat), (0x28, 8, d.opstat), (0x30, 4, d.thermReg), (0x34, 4, d.bootstat),
     (0x38, 4, d.thstat), (0x40, 24, s.clstateReg), (0x60, 8, d.genbase), (0x68, 8, d.vtbase), (0x70, 8, d.pffrqbase), (0x78, 1, d.pffrqn),
     (0x7A, 2, d.pffrqvec), (0x80, 4, d.pffrqpidx.toNat), (0x84, 4, d.pffrqcidx.toNat), (0x88, 4, d.pffrqovf.toNat), (0x90, 2, d.fabid)]

/-! ## Function-level reset (R386, R390) -/

/-- FUNCTION_LEVEL_RESET: the function's launches end as dropped, its queues are STOPPED and its control blocks cleared; the physical function's
also releases the driver's ownership. -/
def flr (fn : Nat) (s : State) : State :=
  if Nat.blt 256 fn then s
  else
  let keys := (upFrom 0 17).map (qkey fn)
  let s := keys.foldl (fun s k => s.discardQueue k true true) s
  let s := { s with qcbs := s.qcbs.filter (fun e => e.1 / 17 != fn), launches := s.launches.filter (fun e => e.2.fn != fn) }
  if fn == 0 && s.dev.ownerId == 1 then s.updDev (fun d => { d with owner := 0 }) else s
def execFunctionLevelReset (fn : Nat) (s : State) : Res := .next (flr fn s)

/-! ## Boot and attestation (R396, R397) -/

/-- BOOT_STAGE: the next stage ends, with ok 1, or boot stops. -/
def bootStage (ok : Nat) (s : State) : State :=
  if s.dev.bootfail || s.dev.ready then s
  else if ok != 1 then s.updDev (fun d => { d with boot := d.boot + 1, bootfail := true })
  else if s.dev.boot == 3 then (s.updDev (fun d => { d with boot := 4, ready := true })).msix 0 0
  else if s.dev.boot == 2 then s.updDev (fun d => { d with boot := 3, clstate := [], opcur := (1800, 350) })
  else s.updDev (fun d => { d with boot := d.boot + 1 })
def execBootStage (ok : Nat) (s : State) : Res := .next (bootStage ok s)

/-- Omfin answers an SPDM request that needs the negotiation to have come to a level; before, with an error. -/
def State.spdm (s : State) (kind need : Nat) (vals : List Nat) (level : Nat) : State :=
  if Nat.blt s.dev.spdm need then s.emit (.spdm 0x7F [4])
  else (s.emit (.spdm kind vals)).updDev (fun d => { d with spdm := Nat.max (if kind == 0x04 then 0 else d.spdm) level })
/-- n bytes that only Omfin's fuses, keys and firmware know, those of item x: free values that stay the same (R397). -/
def secretOf (x n : Nat) : List Nat := (upFrom (65536 * x) n).map (fun i => Config.secret i % 256)
/-- A signature of 64 bytes over what a request asks for: free values. -/
def State.signature (s : State) : List Nat := (upFrom s.freeCtr 64).map (fun i => (freeBits 8 i).toNat)
/-- GET_VERSION: SPDM 1.2. -/
def execGetVersion (s : State) : Res := .next (s.spdm 0x04 0 [0x12] 1)
/-- GET_CAPABILITIES. -/
def execGetCapabilities (s : State) : Res := .next (s.spdm 0x61 1 (secretOf 0 4) 2)
/-- NEGOTIATE_ALGORITHMS: EdDSA Ed25519 and SHA-512. -/
def execNegotiateAlgorithms (s : State) : Res := .next (s.spdm 0x63 2 [25519, 512] 3)
/-- GET_DIGESTS: a SHA-512 digest of the certificate chain. -/
def execGetDigests (s : State) : Res := .next (s.spdm 0x01 3 (secretOf 1 64) 3)
/-- GET_CERTIFICATE. -/
def execGetCertificate (s : State) : Res := .next (s.spdm 0x02 3 (secretOf 2 1024) 3)
/-- CHALLENGE: a 64-byte signature over the nonce. -/
def execChallenge (nonce : Nat) (s : State) : Res := .next ((s.spdm 0x03 3 (nonce :: s.signature) 3).draw 64)
/-- GET_MEASUREMENTS: indices 1 to 4, a SHA-512 measurement each. -/
def execGetMeasurements (ix : Nat) (s : State) : Res :=
  .next (s.spdm 0x60 3 (ix :: (if Nat.ble 1 ix && Nat.ble ix 4 then secretOf (2 + ix) 64 else [])) 3)

/-! ## Corrected errors and the fabric's frames (R304, R380, R395) -/

/-- CORRECTED_ERROR: unit 0 a cluster's TC, L0s or core state, unit 1 a channel's LLC slice or HBM: counted, for the partition part. -/
def execCorrectedError (unit x : Nat) (s : State) : Res :=
  .next (if unit == 0 then s.countEv (unitCluster (x % 128)) 0x2A (x / 128) 1 else s.countEv (unitChannel (x % 256)) 0x47 (x / 256) 1)

/-- A fill request of another device goes to the tile's home (R206, R245). -/
def State.remoteFill (s : State) (src part q : Nat) : State := s.send (.fillReq (128 + src) (tileOf part q) false false s.dev.ptime.toNat)
/-- SHUNER_FRAME_RECEIVE: a frame whose CRC fails is retried by the link; kinds 0 to 6 are fabric requests of device src at offset a, 7 a remote
fill of the tile named a in partition v, 8 its home's request for its lease, which is back at once where it has lapsed (R374), 9 a management frame that carries a BAR0 offset a and data v. -/
def frameReceive (crc src kind a v : Nat) (s : State) : State :=
  if crc != 1 then s
  else match kind with
    | 7 => s.remoteFill src v a
    | 8 => if s.leased (tileOf v a) then s.send (.leaseRecall (tileOf v a)) else s.emit (.leaseBack 0 (tileOf v a))
    | 9 => s.writePf 3 a 8 v
    | _ => if Nat.blt kind 7 then s.send (.fabReq none src kind (a % 2 ^ 39) v) else s
def execShunerFrameReceive (crc src kind a v : Nat) (s : State) : Res := .next (frameReceive crc src kind a v s)

end Sys2Proof.Machine
end

