-- ==== Sys2Proof/Machine/Turn.lean ====
section
/-! DEFINITION. A core's move: one iteration of its next bundle, or a step of an ending, an abort or a save; the issue-stage events that
name a core; and which events the clocks, the trip and boot let happen (R393, R394, R396). -/

namespace Sys2Proof.Machine

/-- The running core moves: a forced save or the end of a handler's cycles comes before its next bundle (R293, R305). -/
def turn (s : State) : Res :=
  match s.me.run with
  | .task => if s.me.saveDue then .next (forcedSave s.cur s) else if s.me.handlerDue then .next (handlerWatchdog s.cur s) else issue s
  | .doneWait => .next (if s.me.saveDue then forcedSave s.cur s else coreTurn s.cur s)
  | _ => .next (coreTurn s.cur s)

/-- STALLED_BUNDLE_COMMIT: the core's stalled bundle is tried again; it commits when every wait has ended (R418). -/
def execStalledBundleCommit (core : Nat) (s : State) : Res :=
  let s := { s with cur := core }
  if s.me.stalled && s.me.run == .task then turn s else .next s

/-- The bundle fetched is one on which the watchdog falls due (R88). -/
def watchdogDue (s : State) : Option Nat :=
  match fetchBundle s with
  | .bundle a b => if b.watchdog s.me && !b.slots.any (fun r => r.illegal s) then some a else none
  | _ => none
/-- SAFE_DISTANCE_WATCHDOG (R88, R294). -/
def safeDistance (s : State) : State :=
  if s.me.run == .task then
    match watchdogDue s with
    | some a => s.updMe (fun c => { c with pc := a }.abortWith ⟨fcWatchdog, 1, a, 0⟩)
    | none => s
  else s
def execSafeDistanceWatchdog (core : Nat) (s : State) : Res := .next (safeDistance { s with cur := core })

/-- The header word of a bundle whose PRESENT field is zero (R61). -/
def emptyWord (rep sticky sv0 sv1 sl : Nat) : Nat := Header.word ⟨0, rep % 16, sticky % 2, 0, sv0 % 16, sv1 % 16, sl % 16⟩
/-- EMPTY_BUNDLE: a bundle of no slots is the running core's next one (R61, R73). -/
def execEmptyBundle (rep sticky sv0 sv1 sl : Nat) (s : State) : Res :=
  if s.me.run != .task then .fault .noTask
  else runFetched (readBundle s s.me.pc (emptyWord rep sticky sv0 sv1 sl) []) s

/-! ## What lets an event happen -/

/-- The cluster that a message is a request or an answer to. -/
def Msg.atCluster : Msg → Option Nat
  | .serve owner _ _ _ => some owner
  | .fillAns cl _ _ _ _ _ _ _ => some cl
  | .fillFail cl _ _ => some cl
  | .grantAns cl _ => some cl
  | .retryAns cl _ => some cl
  | .drainOrder core _ _ => some (clusterOf core)
  | .acqReply core _ _ _ => some (clusterOf core)
  | .relMsg cl _ _ => some cl
  | _ => none
def State.msgCluster (s : State) (n : Nat) : Option Nat := (s.msgs[n]?).bind Msg.atCluster

/-- The cluster whose clocks an event needs (R393). -/
def State.eventCluster (s : State) : Instr → Option Nat
  | .stalledBundleCommit k => some (clusterOf k)
  | .safeDistanceWatchdog k => some (clusterOf k)
  | .handlerWatchdog k => some (clusterOf k)
  | .taskEnd k => some (clusterOf k)
  | .engineCommandTake k _ => some (clusterOf k)
  | .engineCommandCompletion k _ => some (clusterOf k)
  | .commandReplay k _ => some (clusterOf k)
  | .loadDataArrival k _ => some (clusterOf k)
  | .storePerformed k _ => some (clusterOf k)
  | .amoAtSlice k _ => some (clusterOf k)
  | .hostAtomicCompletion k => some (clusterOf k)
  | .hostAtomicExhausted k => some (clusterOf k)
  | .fabricReply k _ _ _ => if Nat.blt k 768 then some (clusterOf k) else none
  | .fabricTimeout k _ => if Nat.blt k 768 then some (clusterOf k) else none
  | .fabricPathFailure k _ => if Nat.blt k 768 then some (clusterOf k) else none
  | .preemptionOrder k => some (clusterOf k)
  | .forcedSave k => some (clusterOf k)
  | .rdqRefill cl _ _ => some cl
  | .rdqLoadReport cl => some cl
  | .dispatch cl => some cl
  | .frameAllocation cl => some cl
  | .readOutComplete cl _ => some cl
  | .leaseExpiry cl _ => some cl
  | .neighbourServe n => s.msgCluster n
  | .fillAnswer n => s.msgCluster n
  | .writeGrant n => s.msgCluster n
  | .retry n => s.msgCluster n
  | .releaseArrival n => s.msgCluster n
  | .regionDrain n => s.msgCluster n
  | .acqReply n => s.msgCluster n
  | _ => none

/-- The master whose write of a register of the device the event is: 1 the physical function's driver, 2 Omfin, 3 the fabric manager (R386). -/
def writerOf : Instr → Option Nat
  | .registerWrite w _ _ _ _ => some w
  | .ownclaim w _ => some w
  | .handover w _ => some w
  | .opreq w _ => some w
  | .clstate w _ => some w
  | .partitionEnable w _ => some w
  | .partitionDisable w _ => some w
  | .partitionReset w _ => some w
  | _ => none
/-- The host sends the event through a function's registers or rings, which boot exposes last (R396). -/
def ofHost (i : Instr) : Bool :=
  match i with
  | .prqresp _ _ => true
  | .qstart _ _ => true
  | .qstopDrain _ _ => true
  | .qstopSave _ _ => true
  | .qswap _ _ _ _ => true
  | .load _ _ => true
  | .unload _ _ => true
  | .descriptorCommand _ _ => true
  | .launch _ _ => true
  | .copy _ _ => true
  | .doorbell _ _ _ => true
  | .genbump _ _ => true
  | .functionLevelReset _ => true
  | .ringCommandCompletion _ _ => true
  | i => match writerOf i with | some w => Nat.blt w 2 | none => false
/-- A bucket's due refill comes before anything that tests or charges it (R382). -/
def isRefill (i : Instr) : Bool := match i with | .bucketRefill => true | _ => false

/-- Events that go on after a hard thermal trip, which stops every clock of the package until a reset that Omfin orders (R394): the resets,
and what Omfin answers (R397). -/
def afterTrip : Instr → Bool
  | .packageReset => true
  | .powerOnReset => true
  | .getVersion => true
  | .getCapabilities => true
  | .negotiateAlgorithms => true
  | .getDigests => true
  | .getCertificate => true
  | .challenge _ => true
  | .getMeasurements _ => true
  | _ => false

/-- A core's clocks run: the package has not tripped and its cluster is ACTIVE (R393, R394); no refill of the rate buckets is due first (R382). -/
def State.clocked (s : State) (cl : Nat) : Bool := !s.dev.trip && !s.refillDue && Nat.blt cl 96 && s.clState cl == clActive

/-- The event may happen now. What stands in a bundle happens when a core issues the bundle, never as an event by itself. -/
def State.mayHappen (s : State) (i : Instr) : Bool :=
  match i with
  | .emptyBundle _ _ _ _ _ => false
  | _ =>
    i.cls.isNone && (!s.dev.trip || afterTrip i) && (s.dev.ready || !ofHost i) && (!s.dev.bootfail || (writerOf i).isNone) &&
      (!s.refillDue || isRefill i || afterTrip i) &&
      (match s.eventCluster i with
        | some cl => s.clocked cl
        | none => true)

/-- Core k moves when its clocks run. -/
def runCore (k : Nat) (s : State) : Res :=
  let s := { s with cur := k }
  if s.clocked (clusterOf k) then turn s else .next s

end Sys2Proof.Machine
end

