-- ==== Sys2Proof/Machine/Dispatch.lean ====
section
/-! DEFINITION. The meaning of every instruction and event: one arm per constructor, each one call. -/

namespace Sys2Proof.Machine

def exec (i : Instr) (s : State) : Host.Outcome State Fault Refusal :=
  match i with
  | .br gd d x => Sys2Proof.Machine.execBr gd d x s
  | .bri gd a => Sys2Proof.Machine.execBri gd a s
  | .call gd d x => Sys2Proof.Machine.execCall gd d x s
  | .calli gd d a => Sys2Proof.Machine.execCalli gd d a s
  | .ret gd a => Sys2Proof.Machine.execRet gd a s
  | .loop gd a o x => Sys2Proof.Machine.execLoop gd a o x s
  | .loopi gd c o x => Sys2Proof.Machine.execLoopi gd c o x s
  | .safe gd i0 x => Sys2Proof.Machine.execSafe gd i0 x s
  | .done gd => Sys2Proof.Machine.execDone gd s
  | .waitk gd a => Sys2Proof.Machine.execWaitk gd a s
  | .waitkRange gd a b => Sys2Proof.Machine.execWaitkRange gd a b s
  | .pollk gd d a => Sys2Proof.Machine.execPollk gd d a s
  | .pollkErr gd d a => Sys2Proof.Machine.execPollkErr gd d a s
  | .fenceCore gd => Sys2Proof.Machine.execFenceCore gd s
  | .fenceCluster gd => Sys2Proof.Machine.execFenceCluster gd s
  | .fenceDevice gd => Sys2Proof.Machine.execFenceDevice gd s
  | .fenceSys gd => Sys2Proof.Machine.execFenceSys gd s
  | .trap gd c x => Sys2Proof.Machine.execTrap gd c x s
  | .sysc gd a i0 x => Sys2Proof.Machine.execSysc gd a i0 x s
  | .eret gd => Sys2Proof.Machine.execEret gd s
  | .csrr gd d c => Sys2Proof.Machine.execCsrr gd d c s
  | .csrw gd a c => Sys2Proof.Machine.execCsrw gd a c s
  | .csrs gd a c => Sys2Proof.Machine.execCsrs gd a c s
  | .csrc gd a c => Sys2Proof.Machine.execCsrc gd a c s
  | .add gd d a b => Sys2Proof.Machine.execAdd gd d a b s
  | .sub gd d a b => Sys2Proof.Machine.execSub gd d a b s
  | .addi gd d a i0 x => Sys2Proof.Machine.execAddi gd d a i0 x s
  | .mul gd d a b => Sys2Proof.Machine.execMul gd d a b s
  | .mulh gd d a b => Sys2Proof.Machine.execMulh gd d a b s
  | .mulhU gd d a b => Sys2Proof.Machine.execMulhU gd d a b s
  | .div gd d a b => Sys2Proof.Machine.execDiv gd d a b s
  | .divU gd d a b => Sys2Proof.Machine.execDivU gd d a b s
  | .rem gd d a b => Sys2Proof.Machine.execRem gd d a b s
  | .remU gd d a b => Sys2Proof.Machine.execRemU gd d a b s
  | .and gd d a b => Sys2Proof.Machine.execAnd gd d a b s
  | .or gd d a b => Sys2Proof.Machine.execOr gd d a b s
  | .xor gd d a b => Sys2Proof.Machine.execXor gd d a b s
  | .andi gd d a i0 x => Sys2Proof.Machine.execAndi gd d a i0 x s
  | .ori gd d a i0 x => Sys2Proof.Machine.execOri gd d a i0 x s
  | .xori gd d a i0 x => Sys2Proof.Machine.execXori gd d a i0 x s
  | .shl gd d a b => Sys2Proof.Machine.execShl gd d a b s
  | .shr gd d a b => Sys2Proof.Machine.execShr gd d a b s
  | .shrA gd d a b => Sys2Proof.Machine.execShrA gd d a b s
  | .shli gd d a s0 => Sys2Proof.Machine.execShli gd d a s0 s
  | .shri gd d a s0 => Sys2Proof.Machine.execShri gd d a s0 s
  | .shriA gd d a s0 => Sys2Proof.Machine.execShriA gd d a s0 s
  | .bfx gd d a sx wm1 lsb => Sys2Proof.Machine.execBfx gd d a sx wm1 lsb s
  | .bfi gd d a wm1 lsb => Sys2Proof.Machine.execBfi gd d a wm1 lsb s
  | .sethi gd d a i0 x => Sys2Proof.Machine.execSethi gd d a i0 x s
  | .bitcPop gd d a => Sys2Proof.Machine.execBitcPop gd d a s
  | .bitcClz gd d a => Sys2Proof.Machine.execBitcClz gd d a s
  | .bitcCtz gd d a => Sys2Proof.Machine.execBitcCtz gd d a s
  | .min gd d a b => Sys2Proof.Machine.execMin gd d a b s
  | .minU gd d a b => Sys2Proof.Machine.execMinU gd d a b s
  | .max gd d a b => Sys2Proof.Machine.execMax gd d a b s
  | .maxU gd d a b => Sys2Proof.Machine.execMaxU gd d a b s
  | .cmpeq gd d a b => Sys2Proof.Machine.execCmpeq gd d a b s
  | .cmpne gd d a b => Sys2Proof.Machine.execCmpne gd d a b s
  | .cmplt gd d a b => Sys2Proof.Machine.execCmplt gd d a b s
  | .cmpltu gd d a b => Sys2Proof.Machine.execCmpltu gd d a b s
  | .cmple gd d a b => Sys2Proof.Machine.execCmple gd d a b s
  | .cmpleu gd d a b => Sys2Proof.Machine.execCmpleu gd d a b s
  | .cmpeqi gd d a i0 x => Sys2Proof.Machine.execCmpeqi gd d a i0 x s
  | .cmplti gd d a i0 x => Sys2Proof.Machine.execCmplti gd d a i0 x s
  | .pand gd d a b => Sys2Proof.Machine.execPand gd d a b s
  | .por gd d a b => Sys2Proof.Machine.execPor gd d a b s
  | .pxor gd d a b => Sys2Proof.Machine.execPxor gd d a b s
  | .pandn gd d a b => Sys2Proof.Machine.execPandn gd d a b s
  | .pmov gd d a => Sys2Proof.Machine.execPmov gd d a s
  | .pmovPreds gd d => Sys2Proof.Machine.execPmovPreds gd d s
  | .pmovFromG gd d a => Sys2Proof.Machine.execPmovFromG gd d a s
  | .jmovToJ gd d a => Sys2Proof.Machine.execJmovToJ gd d a s
  | .jmovToG gd d a => Sys2Proof.Machine.execJmovToG gd d a s
  | .emovToE gd d a => Sys2Proof.Machine.execEmovToE gd d a s
  | .emovToG gd d a => Sys2Proof.Machine.execEmovToG gd d a s
  | .emovE gd d a => Sys2Proof.Machine.execEmovE gd d a s
  | .qset gd d a => Sys2Proof.Machine.execQset gd d a s
  | .qsetTid gd d a => Sys2Proof.Machine.execQsetTid gd d a s
  | .qsetC gd d a b => Sys2Proof.Machine.execQsetC gd d a b s
  | .qget gd d a => Sys2Proof.Machine.execQget gd d a s
  | .qgetTid gd d a => Sys2Proof.Machine.execQgetTid gd d a s
  | .qgetC gd d a b => Sys2Proof.Machine.execQgetC gd d a b s
  | .qadd gd d a c s0 x => Sys2Proof.Machine.execQadd gd d a c s0 x s
  | .qmov gd d a => Sys2Proof.Machine.execQmov gd d a s
  | .fadd gd d a b f x => Sys2Proof.Machine.execFadd gd d a b f x s
  | .fsub gd d a b f x => Sys2Proof.Machine.execFsub gd d a b f x s
  | .fmul gd d a b f x => Sys2Proof.Machine.execFmul gd d a b f x s
  | .fma gd d a b f c rm => Sys2Proof.Machine.execFma gd d a b f c rm s
  | .fdiv gd d a b f x => Sys2Proof.Machine.execFdiv gd d a b f x s
  | .fsqrt gd d a f x => Sys2Proof.Machine.execFsqrt gd d a f x s
  | .fmin gd d a b f => Sys2Proof.Machine.execFmin gd d a b f s
  | .fmax gd d a b f => Sys2Proof.Machine.execFmax gd d a b f s
  | .fcmp gd d a b f cond => Sys2Proof.Machine.execFcmp gd d a b f cond s
  | .fcvtFp gd d a src dst rm => Sys2Proof.Machine.execFcvtFp gd d a src dst rm s
  | .fcvtFromI64 gd d a f dst rm => Sys2Proof.Machine.execFcvtFromI64 gd d a f dst rm s
  | .fcvtToI64 gd d a f src rm => Sys2Proof.Machine.execFcvtToI64 gd d a f src rm s
  | .fcvtToU64 gd d a f src rm => Sys2Proof.Machine.execFcvtToU64 gd d a f src rm s
  | .fclass gd d a f => Sys2Proof.Machine.execFclass gd d a f s
  | .zchk gd d a => Sys2Proof.Machine.execZchk gd d a s
  | .zchkM gd d a b => Sys2Proof.Machine.execZchkM gd d a b s
  | .vadd gd v => Sys2Proof.Machine.execVadd gd v s
  | .vsub gd v => Sys2Proof.Machine.execVsub gd v s
  | .vmul gd v => Sys2Proof.Machine.execVmul gd v s
  | .vfma gd v => Sys2Proof.Machine.execVfma gd v s
  | .vmin gd v => Sys2Proof.Machine.execVmin gd v s
  | .vmax gd v => Sys2Proof.Machine.execVmax gd v s
  | .vabs gd v => Sys2Proof.Machine.execVabs gd v s
  | .vneg gd v => Sys2Proof.Machine.execVneg gd v s
  | .vand gd v => Sys2Proof.Machine.execVand gd v s
  | .vor gd v => Sys2Proof.Machine.execVor gd v s
  | .vxor gd v => Sys2Proof.Machine.execVxor gd v s
  | .vshl gd v => Sys2Proof.Machine.execVshl gd v s
  | .vshr gd v => Sys2Proof.Machine.execVshr gd v s
  | .vcmp gd v => Sys2Proof.Machine.execVcmp gd v s
  | .vsel gd v => Sys2Proof.Machine.execVsel gd v s
  | .vperm gd v => Sys2Proof.Machine.execVperm gd v s
  | .vslide gd v => Sys2Proof.Machine.execVslide gd v s
  | .vpack gd v => Sys2Proof.Machine.execVpack gd v s
  | .vunpk gd v => Sys2Proof.Machine.execVunpk gd v s
  | .vbcast gd v => Sys2Proof.Machine.execVbcast gd v s
  | .vext gd v => Sys2Proof.Machine.execVext gd v s
  | .vcvt gd v => Sys2Proof.Machine.execVcvt gd v s
  | .vqnt gd v => Sys2Proof.Machine.execVqnt gd v s
  | .vdq gd v => Sys2Proof.Machine.execVdq gd v s
  | .vamax gd v => Sys2Proof.Machine.execVamax gd v s
  | .vspec gd v => Sys2Proof.Machine.execVspec gd v s
  | .vred gd v => Sys2Proof.Machine.execVred gd v s
  | .vscan gd v => Sys2Proof.Machine.execVscan gd v s
  | .vmatch gd v => Sys2Proof.Machine.execVmatch gd v s
  | .klog gd v => Sys2Proof.Machine.execKlog gd v s
  | .kmov gd v => Sys2Proof.Machine.execKmov gd v s
  | .vmov gd v => Sys2Proof.Machine.execVmov gd v s
  | .idle gd => Sys2Proof.Machine.execIdle gd s
  | .mma gd e d qa qb sa ta tb z kb0 kbn pa pb => Sys2Proof.Machine.execMma gd e d qa qb sa ta tb z kb0 kbn pa pb s
  | .mzero gd e mask => Sys2Proof.Machine.execMzero gd e mask s
  | .mlda gd e d q t part => Sys2Proof.Machine.execMlda gd e d q t part s
  | .msta gd e d q t part rm dist => Sys2Proof.Machine.execMsta gd e d q t part rm dist s
  | .msclFill gd e d gs => Sys2Proof.Machine.execMsclFill gd e d gs s
  | .msclDiag gd e d gs => Sys2Proof.Machine.execMsclDiag gd e d gs s
  | .msclMul gd e d gs => Sys2Proof.Machine.execMsclMul gd e d gs s
  | .mtriLi gd e d gs one => Sys2Proof.Machine.execMtriLi gd e d gs one s
  | .mtriLs gd e d gs one => Sys2Proof.Machine.execMtriLs gd e d gs one s
  | .mtriUi gd e d gs one => Sys2Proof.Machine.execMtriUi gd e d gs one s
  | .mtriUs gd e d gs one => Sys2Proof.Machine.execMtriUs gd e d gs one s
  | .tbuild gd e z q p kb mode w => Sys2Proof.Machine.execTbuild gd e z q p kb mode w s
  | .tlook gd e d z q wkb cst cnm1 pm => Sys2Proof.Machine.execTlook gd e d z q wkb cst cnm1 pm s
  | .tlookR gd e d z q wkb cst cnm1 pm => Sys2Proof.Machine.execTlookR gd e d z q wkb cst cnm1 pm s
  | .zsave gd e z f q gs => Sys2Proof.Machine.execZsave gd e z f q gs s
  | .zload gd e z f q gs => Sys2Proof.Machine.execZload gd e z f q gs s
  | .zinv gd e mask => Sys2Proof.Machine.execZinv gd e mask s
  | .cbld gd e w gs cnt => Sys2Proof.Machine.execCbld gd e w gs cnt s
  | .tfetch gd e q hint => Sys2Proof.Machine.execTfetch gd e q hint s
  | .thint gd e q set clr => Sys2Proof.Machine.execThint gd e q set clr s
  | .tinv gd e q ax nm1 => Sys2Proof.Machine.execTinv gd e q ax nm1 s
  | .tcopy gd e qs qd t => Sys2Proof.Machine.execTcopy gd e qs qd t s
  | .tcopyMem gd e qs t gs => Sys2Proof.Machine.execTcopyMem gd e qs t gs s
  | .tred gd e qs qd opr => Sys2Proof.Machine.execTred gd e qs qd opr s
  | .tgath gd e qd qs gs nm1 => Sys2Proof.Machine.execTgath gd e qd qs gs nm1 s
  | .tscat gd e qs qd gs nm1 => Sys2Proof.Machine.execTscat gd e qs qd gs nm1 s
  | .tacq gd e q ver => Sys2Proof.Machine.execTacq gd e q ver s
  | .trel gd e q => Sys2Proof.Machine.execTrel gd e q s
  | .itin gd e s0 ix dm1 => Sys2Proof.Machine.execItin gd e s0 ix dm1 s
  | .itstep gd e s0 q => Sys2Proof.Machine.execItstep gd e s0 q s
  | .chsend gd e ch q => Sys2Proof.Machine.execChsend gd e ch q s
  | .chrecv gd e ch q => Sys2Proof.Machine.execChrecv gd e ch q s
  | .desc gd e gt ga => Sys2Proof.Machine.execDesc gd e gt ga s
  | .rld gd e d ga => Sys2Proof.Machine.execRld gd e d ga s
  | .rst gd e ga gs => Sys2Proof.Machine.execRst gd e ga gs s
  | .rfaa gd e d ga gs => Sys2Proof.Machine.execRfaa gd e d ga gs s
  | .rtdec gd e ga => Sys2Proof.Machine.execRtdec gd e ga s
  | .rfence gd e ga => Sys2Proof.Machine.execRfence gd e ga s
  | .rfenceFStore gd e ga gs => Sys2Proof.Machine.execRfenceFStore gd e ga gs s
  | .rfenceFDec gd e ga => Sys2Proof.Machine.execRfenceFDec gd e ga s
  | .tspawn gd e ga => Sys2Proof.Machine.execTspawn gd e ga s
  | .tdec gd e ga => Sys2Proof.Machine.execTdec gd e ga s
  | .tdecb gd e ga => Sys2Proof.Machine.execTdecb gd e ga s
  | .tdecbArm gd e ga gs => Sys2Proof.Machine.execTdecbArm gd e ga gs s
  | .ldB gd t b d x => Sys2Proof.Machine.execLdB gd t b d x s
  | .ldBs gd t b d x => Sys2Proof.Machine.execLdBs gd t b d x s
  | .ldH gd t b d x => Sys2Proof.Machine.execLdH gd t b d x s
  | .ldHs gd t b d x => Sys2Proof.Machine.execLdHs gd t b d x s
  | .ldW gd t b d x => Sys2Proof.Machine.execLdW gd t b d x s
  | .ldWs gd t b d x => Sys2Proof.Machine.execLdWs gd t b d x s
  | .ldD gd t b d x => Sys2Proof.Machine.execLdD gd t b d x s
  | .stB gd t b d x => Sys2Proof.Machine.execStB gd t b d x s
  | .stH gd t b d x => Sys2Proof.Machine.execStH gd t b d x s
  | .stW gd t b d x => Sys2Proof.Machine.execStW gd t b d x s
  | .stD gd t b d x => Sys2Proof.Machine.execStD gd t b d x s
  | .ldv gd t b d x => Sys2Proof.Machine.execLdv gd t b d x s
  | .stv gd t b d x => Sys2Proof.Machine.execStv gd t b d x s
  | .gath gd t b vx k es sc => Sys2Proof.Machine.execGath gd t b vx k es sc s
  | .scat gd t b vx k es sc => Sys2Proof.Machine.execScat gd t b vx k es sc s
  | .ldx gd t b d x => Sys2Proof.Machine.execLdx gd t b d x s
  | .ldxinv gd b d x => Sys2Proof.Machine.execLdxinv gd b d x s
  | .ldxinvAll gd => Sys2Proof.Machine.execLdxinvAll gd s
  | .sld gd t b d x => Sys2Proof.Machine.execSld gd t b d x s
  | .pref gd b d x => Sys2Proof.Machine.execPref gd b d x s
  | .prefLlc gd b d x => Sys2Proof.Machine.execPrefLlc gd b d x s
  | .acq gd t b d x => Sys2Proof.Machine.execAcq gd t b d x s
  | .rel gd t b d x => Sys2Proof.Machine.execRel gd t b d x s
  | .trd gd t b d x => Sys2Proof.Machine.execTrd gd t b d x s
  | .twr gd t b d x => Sys2Proof.Machine.execTwr gd t b d x s
  | .amo gd t b d opc sz s0 => Sys2Proof.Machine.execAmo gd t b d opc sz s0 s
  | .cas gd t b d sz s0 c => Sys2Proof.Machine.execCas gd t b d sz s0 c s
  | .idleL gd => Sys2Proof.Machine.execIdleL gd s
  | .stalledBundleCommit core => Sys2Proof.Machine.execStalledBundleCommit core s
  | .safeDistanceWatchdog core => Sys2Proof.Machine.execSafeDistanceWatchdog core s
  | .handlerWatchdog core => Sys2Proof.Machine.execHandlerWatchdog core s
  | .taskEnd core => Sys2Proof.Machine.execTaskEnd core s
  | .decrement n => Sys2Proof.Machine.execDecrement n s
  | .releaseArrival n => Sys2Proof.Machine.execReleaseArrival n s
  | .recordCreation n => Sys2Proof.Machine.execRecordCreation n s
  | .overflowRingPlacement n => Sys2Proof.Machine.execOverflowRingPlacement n s
  | .rdqRefill cluster part prio => Sys2Proof.Machine.execRdqRefill cluster part prio s
  | .rdqLoadReport cluster => Sys2Proof.Machine.execRdqLoadReport cluster s
  | .dispatch cluster => Sys2Proof.Machine.execDispatch cluster s
  | .gangDispatch part => Sys2Proof.Machine.execGangDispatch part s
  | .engineCommandTake core ex => Sys2Proof.Machine.execEngineCommandTake core ex s
  | .frameAllocation cluster => Sys2Proof.Machine.execFrameAllocation cluster s
  | .commandReplay core n => Sys2Proof.Machine.execCommandReplay core n s
  | .engineCommandCompletion core n => Sys2Proof.Machine.execEngineCommandCompletion core n s
  | .fillRequest n => Sys2Proof.Machine.execFillRequest n s
  | .neighbourServe n => Sys2Proof.Machine.execNeighbourServe n s
  | .fillAnswer n => Sys2Proof.Machine.execFillAnswer n s
  | .grantRequest n => Sys2Proof.Machine.execGrantRequest n s
  | .writeGrant n => Sys2Proof.Machine.execWriteGrant n s
  | .retry n => Sys2Proof.Machine.execRetry n s
  | .grantTimeout n => Sys2Proof.Machine.execGrantTimeout n s
  | .releaseAtHome n => Sys2Proof.Machine.execReleaseAtHome n s
  | .readOutComplete cluster frame => Sys2Proof.Machine.execReadOutComplete cluster frame s
  | .drainArrival n => Sys2Proof.Machine.execDrainArrival n s
  | .victimWriteBack n => Sys2Proof.Machine.execVictimWriteBack n s
  | .tacqAtHome n => Sys2Proof.Machine.execTacqAtHome n s
  | .tacqTimeout n => Sys2Proof.Machine.execTacqTimeout n s
  | .remoteHomeTimeout n => Sys2Proof.Machine.execRemoteHomeTimeout n s
  | .leaseExpiry cluster frame => Sys2Proof.Machine.execLeaseExpiry cluster frame s
  | .homeLeaseExpiry home n => Sys2Proof.Machine.execHomeLeaseExpiry home n s
  | .leaseReturn home n => Sys2Proof.Machine.execLeaseReturn home n s
  | .reductionAtHome n => Sys2Proof.Machine.execReductionAtHome n s
  | .machineCheck unit x y => Sys2Proof.Machine.execMachineCheck unit x y s
  | .loadDataArrival core n => Sys2Proof.Machine.execLoadDataArrival core n s
  | .storePerformed core n => Sys2Proof.Machine.execStorePerformed core n s
  | .relAtHome n => Sys2Proof.Machine.execRelAtHome n s
  | .acqAtHome n => Sys2Proof.Machine.execAcqAtHome n s
  | .regionDrain n => Sys2Proof.Machine.execRegionDrain n s
  | .regionDrainComplete n => Sys2Proof.Machine.execRegionDrainComplete n s
  | .acqReply n => Sys2Proof.Machine.execAcqReply n s
  | .amoAtSlice core n => Sys2Proof.Machine.execAmoAtSlice core n s
  | .hostAtomicCompletion core => Sys2Proof.Machine.execHostAtomicCompletion core s
  | .hostAtomicExhausted core => Sys2Proof.Machine.execHostAtomicExhausted core s
  | .fabricRequestAtTarget n => Sys2Proof.Machine.execFabricRequestAtTarget n s
  | .fabricReply core n ok v => Sys2Proof.Machine.execFabricReply core n ok v s
  | .fabricTimeout core n => Sys2Proof.Machine.execFabricTimeout core n s
  | .shunerFrameReceive crc src kind a v => Sys2Proof.Machine.execShunerFrameReceive crc src kind a v s
  | .preemptionOrder core => Sys2Proof.Machine.execPreemptionOrder core s
  | .forcedSave core => Sys2Proof.Machine.execForcedSave core s
  | .prqresp fn v => Sys2Proof.Machine.execPrqresp fn v s
  | .priPageGroupResponse n ok => Sys2Proof.Machine.execPriPageGroupResponse n ok s
  | .atsInvalidation part page => Sys2Proof.Machine.execAtsInvalidation part page s
  | .vacate poster kind id qmask deadline drop => Sys2Proof.Machine.execVacate poster kind id qmask deadline drop s
  | .sageEvaluation n => Sys2Proof.Machine.execSageEvaluation n s
  | .vacancy n => Sys2Proof.Machine.execVacancy n s
  | .resume poster kind id qmask => Sys2Proof.Machine.execResume poster kind id qmask s
  | .qstart fn q => Sys2Proof.Machine.execQstart fn q s
  | .qstopDrain fn q => Sys2Proof.Machine.execQstopDrain fn q s
  | .qstopSave fn q => Sys2Proof.Machine.execQstopSave fn q s
  | .qswap fn q q2 mode => Sys2Proof.Machine.execQswap fn q q2 mode s
  | .load fn q => Sys2Proof.Machine.execLoad fn q s
  | .unload fn q => Sys2Proof.Machine.execUnload fn q s
  | .descriptorCommand fn q => Sys2Proof.Machine.execDescriptorCommand fn q s
  | .launch fn q => Sys2Proof.Machine.execLaunch fn q s
  | .copy fn q => Sys2Proof.Machine.execCopy fn q s
  | .doorbell fn q v => Sys2Proof.Machine.execDoorbell fn q v s
  | .ownclaim writer v => Sys2Proof.Machine.execOwnclaim writer v s
  | .handover writer v => Sys2Proof.Machine.execHandover writer v s
  | .opreq writer v => Sys2Proof.Machine.execOpreq writer v s
  | .operatingPointSwitch => Sys2Proof.Machine.execOperatingPointSwitch s
  | .clstate writer v => Sys2Proof.Machine.execClstate writer v s
  | .clusterWake cluster => Sys2Proof.Machine.execClusterWake cluster s
  | .partitionEnable writer part => Sys2Proof.Machine.execPartitionEnable writer part s
  | .partitionDisable writer part => Sys2Proof.Machine.execPartitionDisable writer part s
  | .partitionReset writer part => Sys2Proof.Machine.execPartitionReset writer part s
  | .genbump fn v => Sys2Proof.Machine.execGenbump fn v s
  | .generationBumpComplete n => Sys2Proof.Machine.execGenerationBumpComplete n s
  | .generationBumpHold n => Sys2Proof.Machine.execGenerationBumpHold n s
  | .translationCacheExpiry n => Sys2Proof.Machine.execTranslationCacheExpiry n s
  | .ptpMessage neg offs slew => Sys2Proof.Machine.execPtpMessage neg offs slew s
  | .ptpSyncTimeout => Sys2Proof.Machine.execPtpSyncTimeout s
  | .bucketRefill => Sys2Proof.Machine.execBucketRefill s
  | .floorSegmentClose => Sys2Proof.Machine.execFloorSegmentClose s
  | .hardThermalTrip => Sys2Proof.Machine.execHardThermalTrip s
  | .packageReset => Sys2Proof.Machine.execPackageReset s
  | .powerOnReset => Sys2Proof.Machine.execPowerOnReset s
  | .functionLevelReset fn => Sys2Proof.Machine.execFunctionLevelReset fn s
  | .bootStage ok => Sys2Proof.Machine.execBootStage ok s
  | .getVersion => Sys2Proof.Machine.execGetVersion s
  | .getCapabilities => Sys2Proof.Machine.execGetCapabilities s
  | .negotiateAlgorithms => Sys2Proof.Machine.execNegotiateAlgorithms s
  | .getDigests => Sys2Proof.Machine.execGetDigests s
  | .getCertificate => Sys2Proof.Machine.execGetCertificate s
  | .challenge nonce => Sys2Proof.Machine.execChallenge nonce s
  | .getMeasurements ix => Sys2Proof.Machine.execGetMeasurements ix s
  | .registerWrite writer fn off size v => Sys2Proof.Machine.execRegisterWrite writer fn off size v s
  | .emptyBundle rep sticky sv0 sv1 sl => Sys2Proof.Machine.execEmptyBundle rep sticky sv0 sv1 sl s
  | .correctedError unit x => Sys2Proof.Machine.execCorrectedError unit x s
  | .thermalSensorUpdate v => Sys2Proof.Machine.execThermalSensorUpdate v s
  | .ptimeAdvance => Sys2Proof.Machine.execPtimeAdvance s
  | .fabricPathFailure core n => Sys2Proof.Machine.execFabricPathFailure core n s
  | .leaseReturnRequest home n => Sys2Proof.Machine.execLeaseReturnRequest home n s
  | .ringCommandCompletion fn q => Sys2Proof.Machine.execRingCommandCompletion fn q s

end Sys2Proof.Machine
end

