-- ==== Sys2Proof/Machine/Step.lean ====
section
/-! DEFINITION. One step of the machine: the agent that the agenda names moves; with an empty agenda, core State.cur. -/

namespace Sys2Proof.Machine

def step (s : State) : Host.Outcome State Fault Refusal :=
  match s.agenda with
  | .core k :: t => runCore k { s with agenda := t }
  | .event i :: t => if s.mayHappen i then exec i { s with agenda := t } else .next { s with agenda := t }
  | [] => runCore s.cur s

/-- The instruction whose bits are w, placed where step fetches next (Machine/Fetch.lean). -/
def State.withFetchWord (s : State) (nbits w : Nat) : State := s.placeWord nbits w

end Sys2Proof.Machine
end

