-- ==== Sys2Proof/Safety.lean ====
section
/-! DEFINITION. What counts as a safe run, and the terms statements use: when a lone instruction can execute, what its commit leaves
beside its own effect, and where its result goes. -/

namespace Sys2Proof

/-- The step at s ends in a next state. -/
def Safe (s : Machine.State) : Prop := ∃ t, Machine.step s = .next t

namespace Machine

/-! ## When an instruction executes -/

/-- Core State.cur runs a task; after a trap its loads have returned (R77); no register i names is pending from a load (R80); and i's
guard holds (R65). -/
abbrev Runs (i : Instr) (s : State) : Prop :=
  s.me.run = .task ∧ (s.me.settle = false ∨ s.me.loads = []) ∧ s.me.hazard i = false ∧ s.me.guard i.guard = true
/-- Runs, and the safe-distance watchdog is not due (R88). -/
abbrev Ready (i : Instr) (s : State) : Prop := Runs i s ∧ s.me.csr.safedist.toNat < 2048
/-- Ready, and no ACQ is outstanding, which an L slot waits for (R233). -/
abbrev ReadyL (i : Instr) (s : State) : Prop := Ready i s ∧ s.me.loads.any (fun l => l.acq) = false

/-! ## What a commit leaves -/

/-- Where an iteration's own effects begin: the running core's marks of its last iteration are gone. -/
def State.clean (s : State) : State := s.updMe (fun c => { c with settle := false, stalled := false, xfer := .none })

/-- The CSRs after i has committed alone in its bundle, from the values c its own effect leaves: SAFEDIST advances in task mode (R115), a
loop end counts LCNT down (R141), and a V or L slot leaves its sticky record (R72). -/
def csrAfter (i : Instr) (s : State) (c : Csr) : Csr :=
  { c with
    safedist := if s.me.hm then c.safedist else c.safedist + 1
    lcnt := if loopEnd s.me then s.me.csr.lcnt - 1 else c.lcnt
    stickv0 := if i.cls = some .v then recordOf i else c.stickv0
    stickl := if i.cls = some .l then recordOf i else c.stickl }
/-- Where sequential fetch goes on after i: the first word behind it that is no pad word (R137), as state t holds memory. -/
def nextBundle (i : Instr) (s t : State) : Nat :=
  t.skipPads s.me.csr.partid.toNat padLimit ((s.me.pc + 4 * (1 + i.nwords)) % 2 ^ 64)
/-- A loop end with more rounds to go: control goes back to LBEG (R141). -/
def goesRound (s : State) : Bool := loopEnd s.me && s.me.csr.lcnt != 1

/-- t follows s by the commit of i alone in its bundle, without a transfer. u is s with i's own effect on everything but the results in
flight; beside it, only the running core's registers, results in flight, place in the program, cycle counts, SAFEDIST, LCNT and sticky
records, and the performance counters, differ from s. -/
structure Commits (i : Instr) (s u t : State) : Prop where
  core : t.me = { u.me with
    run := .task, pc := if goesRound s then s.me.csr.lbeg.toNat else nextBundle i s t, via := if goesRound s then .target else .seq,
    iter := 0, regs := t.me.regs, fly := t.me.fly, csr := csrAfter i s u.me.csr, settle := false, stalled := false, xfer := .none,
    tCyc := u.me.tCyc + 1, hCyc := if s.me.hm then u.me.hCyc + 1 else u.me.hCyc,
    preCyc := if s.me.preempt then u.me.preCyc + 1 else u.me.preCyc }
  others : ∀ k, k ≠ s.cur → t.core k = u.core k
  mem : ∀ a, t.byte a = u.byte a
  rest : t = { u with cores := t.cores, pmcs := t.pmcs }

/-! ## Results (R78) -/

/-- One issue step passes over what u has in flight, and nothing new is: results due land. -/
abbrev Settles (u t : State) : Prop := t.me.regs = u.me.age.regs ∧ t.me.fly = u.me.age.fly
/-- One issue step passes, and the result v of latency 1 lands in d behind the results that were due. -/
abbrev Lands (s t : State) (d : Dest) (v : Nat) : Prop := t.me.regs = (s.me.age.write d v none).regs ∧ t.me.fly = s.me.age.fly
/-- One issue step passes, and the results l of longer latencies are in flight, with the steps they still need. -/
abbrev Flies (s t : State) (l : List Fly) : Prop := t.me.regs = s.me.age.regs ∧ t.me.fly = s.me.age.fly ++ l

/-- i completes and puts nothing in flight; u is what its own effect leaves. -/
def DoesTo (i : Instr) (s u : State) : Prop := ∃ t, exec i s = .next t ∧ Commits i s u t ∧ Settles u t
/-- i completes: its result v of latency 1 lands in d, and nothing else has changed. -/
def Gives (i : Instr) (s : State) (d : Dest) (v : Nat) : Prop := ∃ t, exec i s = .next t ∧ Commits i s s t ∧ Lands s t d v
/-- i completes: its result v of latency lat is in flight to d, FPSTAT gains the flags fl, and nothing else has changed. -/
def GivesLater (i : Instr) (s : State) (d : Dest) (v lat fl : Nat) : Prop :=
  ∃ t, exec i s = .next t ∧ Commits i s (s.updMe (fun c => c.orFp fl)) t ∧ Flies s t [⟨d, v, none, lat - 1⟩]
/-- v and m are a result in n lanes of w bits: a lane j with a value g j holds it, and m picks its bits and no others (R153). -/
def InLanes (v m w n : Nat) (g : Nat → Option Nat) : Prop :=
  m < 2 ^ (w * n) ∧ (∀ j x, j < n → g j = some x → laneAt v w j = x % 2 ^ w ∧ laneAt m w j = 2 ^ w - 1) ∧
    (∀ j, j < n → g j = none → laneAt m w j = 0)
/-- The vector instruction i completes: of d, the lanes j of w bits below n with a value g j receive it after lat steps, every other bit
keeps its value, FPSTAT gains the flags fl, and nothing else has changed (R153, R155). -/
def GivesLanes (i : Instr) (s : State) (d : Dest) (w n lat fl : Nat) (g : Nat → Option Nat) : Prop :=
  ∃ t v m, exec i s = .next t ∧ Commits i s (s.updMe (fun c => c.orFp fl)) t ∧ Flies s t [⟨d, v, some m, lat - 1⟩] ∧ InLanes v m w n g
/-- The same for a result of two registers. -/
def GivesLanes2 (i : Instr) (s : State) (d : Dest) (w n : Nat) (g : Nat → Option Nat) (d2 : Dest) (w2 n2 : Nat) (g2 : Nat → Option Nat)
    (lat fl : Nat) : Prop :=
  ∃ t v m v2 m2, exec i s = .next t ∧ Commits i s (s.updMe (fun c => c.orFp fl)) t ∧
    Flies s t [⟨d, v, some m, lat - 1⟩, ⟨d2, v2, some m2, lat - 1⟩] ∧ InLanes v m w n g ∧ InLanes v2 m2 w2 n2 g2
/-- Lane by lane, with the flags of each lane that g gives a value. -/
abbrev GivesMap (i : Instr) (s : State) (d : Dest) (w n lat : Nat) (g : Nat → Option (Nat × Nat)) : Prop :=
  Ready i s → GivesLanes i s d w n lat (orFlags ((upFrom 0 n).map (fun j => ((g j).getD (0, 0)).2))) (fun j => (g j).map Prod.fst)
/-- The lanes that the mask register enables (R153). -/
abbrev enabled (s : State) (o : VOp) (w : Nat) (f : Nat → Nat × Nat) (j : Nat) : Option (Nat × Nat) :=
  if bitOf (s.me.rk o.k).toNat (j * w / 8) then some (f j) else none
/-- Lane j of w bits of v[n]. -/
abbrev lane (s : State) (n w j : Nat) : Nat := laneAt (s.me.rv n).toNat w j

/-- i completes with the result v for g[d], p[d]: latency 1 (R79), or a longer one. -/
abbrev GivesG (i : Instr) (s : State) (d : Nat) (v : W64) : Prop := Ready i s → Gives i s (s.me.dg d) v.toNat
abbrev GivesP (i : Instr) (s : State) (d : Nat) (b : Bool) : Prop := Ready i s → Gives i s (s.me.dp d) b.toNat
abbrev GivesGLater (i : Instr) (s : State) (d : Nat) (v : W64) (lat : Nat) : Prop := Ready i s → GivesLater i s (s.me.dg d) v.toNat lat 0
/-- i completes with a floating-point result r: its bits and its flags. -/
abbrev GivesF (i : Instr) (s : State) (d : Nat) (r : Nat × Nat) (lat : Nat) : Prop := Ready i s → GivesLater i s (s.me.dg d) r.1 lat r.2

/-- An immediate of format B (R119): SignExtend(i8, 64), or SignExtend(ext ‖ i8, 64) with an extension word. -/
def immWord (i : Nat) (x : Option Nat) : W64 :=
  match x with
  | none => (BitVec.ofNat 8 i).signExtend 64
  | some e => (BitVec.ofNat 39 (e * 256 + i)).signExtend 64

/-! ## Transfers, waits and traps -/

/-- The CSRs after a taken transfer: SAFEDIST advances in task mode, and LCNT stays (R115, R141). -/
def csrTaken (s : State) : Csr := { s.me.csr with safedist := if s.me.hm then s.me.csr.safedist else s.me.csr.safedist + 1 }
/-- t follows s by a bundle that sends the running core to pc by way of v after stall more cycles, with the CSRs r and, but for the results
that were due and lk, the registers it had. -/
structure Moves (s t : State) (pc : Nat) (v : Via) (r : Csr) (stall : Nat) (lk : Option (Dest × Nat)) : Prop where
  core : t.me = { s.me with
    pc := pc, via := v, iter := 0, csr := r, settle := false, stalled := false, xfer := .none, fly := s.me.age.fly,
    regs := (match lk with | none => s.me.age | some (d, x) => s.me.age.write d x none).regs
    tCyc := s.me.tCyc + 1 + stall, hCyc := if s.me.hm then s.me.hCyc + 1 + stall else s.me.hCyc,
    preCyc := if s.me.preempt then s.me.preCyc + 1 + stall else s.me.preCyc }
  others : ∀ k, k ≠ s.cur → t.core k = s.core k
  rest : t = { s with cores := t.cores, pmcs := t.pmcs }
/-- i completes by moving to pc. -/
def GoesTo (i : Instr) (s : State) (pc : State → Nat) (v : Via) (r : State → Csr) (stall : Nat) (lk : State → Option (Dest × Nat)) : Prop :=
  ∃ t, exec i s = .next t ∧ Moves s t (pc t) v (r t) stall (lk t)

/-- t follows s by a change of the running core alone, beside counters. -/
def CoreOnly (s t : State) : Prop := t = { s with cores := t.cores, pmcs := t.pmcs } ∧ (∀ k, k ≠ s.cur → t.core k = s.core k)
/-- The running core takes the trap r (R292): the task is aborted instead in handler mode or with TVEC 0. Nothing of the bundle commits. -/
def TrapsWith (i : Instr) (s : State) (r : TrapRec) : Prop :=
  ∃ t, exec i s = .next t ∧ CoreOnly s t ∧ t.me = { s.me with tcWait := none, tcFlt := none, hostAt := .none }.takeTrap r false s.me.pc
/-- i raises a synchronous fault (R76): EPC and REPIX name its bundle and iteration, FLTMASK its slot. -/
def Traps (i : Instr) (s : State) (code cause addr : Nat) : Prop :=
  TrapsWith i s ⟨s.me.pc, s.me.iter, 2 ^ i.slot.bit, code, cause, false, 0, addr⟩
/-- The exception of the ERROR token n is delivered by i's bundle, which does not commit (R296, R297): the token becomes DONE. -/
def Delivers (i : Instr) (s : State) (n : Nat) : Prop :=
  ∃ t, exec i s = .next t ∧ CoreOnly s t ∧
    t.me = ({ s.me with tcWait := none, tcFlt := none, hostAt := .none }.setTok n { s.me.tok n with st := .done, flt := none, used := true }).takeTrap
      (let f := (s.me.tok n).flt.getD ⟨⟨0, 0, 0⟩, n, false⟩
       ⟨s.me.pc, s.me.iter, 2 ^ i.slot.bit, f.flt.code, 0x8000 + 0x200 * n + f.flt.cause % 0x200, f.chn, f.orig, f.flt.addr⟩) false s.me.pc
/-- i's bundle stalls for a cycle, uncommitted (R418): the running core's cycles count, its iteration is marked as stalling, and FPSTAT as
it began is kept (R150). -/
def Stalls (i : Instr) (s : State) : Prop :=
  ∃ t, exec i s = .next t ∧ CoreOnly s t ∧ t.me = s.me.stall

/-- The event i happens at s, and P holds of the state it leaves. -/
def Happens (i : Instr) (s : State) (P : State → Prop) : Prop := ∃ t, exec i s = .next t ∧ P t

/-! ## Rounding (R36 to R41) -/

/-- A decoded value is the real number x. -/
def IsReal (v : FV) (x : ℝ) : Prop :=
  match v with
  | .fin neg man exp => x = (if neg then -1 else 1) * (man * 2 ^ exp)
  | _ => False
/-- r, a bit pattern of a format with its flags, is x rounded in a mode (R36, R37, R40, R41). Without OF it is the finite value nearest to x,
that of even significand where two are as near, or the nearest one toward zero, up or down; NX tells that it is not x. With OF and NX, x lies
beyond every finite value, and r is an infinity, or the largest finite value where the mode, or the format, has it so. -/
def RoundsTo (code mode : Nat) (x : ℝ) (r : Nat × Nat) : Prop :=
  (r.2 / 4 % 2 = 0 → ∃ v, IsReal (decodeF code r.1) v ∧ (r.2 % 2 = 0 ↔ v = x) ∧ ∀ p w, IsReal (decodeF code p) w →
    (mode = 0 → |v - x| ≤ |w - x| ∧ (|v - x| = |w - x| → w = v ∨ r.1 % 2 = 0)) ∧
    (mode = 1 → 0 ≤ v * x ∧ |v| ≤ |x| ∧ (|w| ≤ |x| → |w| ≤ |v|)) ∧
    (mode = 2 → x ≤ v ∧ (x ≤ w → v ≤ w)) ∧ (mode = 3 → v ≤ x ∧ (w ≤ x → w ≤ v))) ∧
  (r.2 / 4 % 2 = 1 → r.2 % 2 = 1 ∧ (∀ p w, IsReal (decodeF code p) w → |w| < |x|) ∧
    (let far := code ≠ 3 ∧ (mode = 0 ∨ mode = 2 ∧ 0 < x ∨ mode = 3 ∧ x < 0)
     (far → ∃ neg, decodeF code r.1 = .inf neg ∧ (neg = true ↔ x < 0)) ∧
     (¬ far → ∃ v, IsReal (decodeF code r.1) v ∧ 0 < v * x ∧ ∀ p w, IsReal (decodeF code p) w → |w| ≤ |v|)))

/-! ## Engine commands (R29 to R33, R247, R249, R250) -/

/-- No token of the list is FREE, or ERROR. -/
def noneIn (s : State) (l : List Nat) (x : TokSt) : Prop := ∀ n ∈ l, (s.me.tok n).st ≠ x
/-- The slot i, which enqueues the command x with the operands args: a consumed FREE token faults TOKEN; an ERROR token, consumed or produced,
delivers its exception, the lowest first; the bundle stalls while the queue is full or the command has to wait; else it commits and the
command is in its queue. -/
def Enqueues (i : Instr) (s : State) (e : Edge) (x : Instr) (args : List Nat) (hb wait : Bool) (u : State → State) : Prop :=
  let used := consumed e
  let full := (if isM x then 16 else 32) ≤ (s.me.cmds.filter (fun y => isM y.ins == isM x)).length ∨ wait = true
  (¬ noneIn s used .free → Traps i s 0x0E 1 0) ∧
  (noneIn s used .free → s.me.stalled = false → ∀ n ∈ used ++ [e.tp], (s.me.tok n).st = .error →
    (∀ m ∈ used ++ [e.tp], (s.me.tok m).st = .error → n ≤ m) → Delivers i s n) ∧
  (noneIn s used .free → noneIn s (used ++ [e.tp]) .error → full → Stalls i s) ∧
  (noneIn s used .free → noneIn s (used ++ [e.tp]) .error → ¬ full → DoesTo i s (u (s.enqueue s.me x e args hb)))

end Machine
end Sys2Proof
end

