-- ==== Sys2Proof/Certificates/Slice0/Obligations.lean ====
section
/-! DEFINITION. The statements for the provers, in the order of OBLIGATIONS.json. -/

open Sys2Proof Sys2Proof.Machine

/-! ## The machine -/

/-- R60, R64, R69: a step of a core whose clocks run, and at which neither a forced save (R305) nor the end of a handler's cycles (R293) is due,
executes the instruction that its next bundle holds: behind any pad words that sequential fetch passes over, a header that marks the instruction's
slot alone, its slot word, and its extension word if it has one. What step adds to exec is that the program counter stands at that bundle. That the
agenda, a list in the state, names the next mover, that core State.cur moves where it is empty, and that an event which may happen now is executed
when the agenda names it, are the model's choice (log entry 4). -/
def Obligations.StepRunsTheInstruction : Prop :=
  (∀ (s : State) (i : Instr) (w : Nat) (x : Option Nat) (a : Nat),
    let p := s.me.csr.partid.toNat
    s.agenda = [] → s.clocked (clusterOf s.cur) = true → s.me.run = .task → (s.me.settle = false ∨ s.me.loads = []) → s.me.via ≠ .skip →
    s.me.saveDue = false → s.me.handlerDue = false →
    a = (if s.me.via = .seq then s.skipPads p padLimit s.me.pc else s.me.pc) → a % 4 = 0 → a % 64 + 4 * (1 + i.nwords) ≤ 64 →
    i.cls ≠ none → encode i = (w, x) → decodeSlot i.slot.cls w x = .ok i →
    s.fetchWord p a = .ok (soleHeader i.slot) → s.fetchWord p (a + 4) = .ok w → (∀ e, x = some e → s.fetchWord p (a + 8) = .ok e) →
    ∃ u, u = { s with cores := u.cores } ∧ (∀ k, k ≠ s.cur → u.core k = s.core k) ∧ u.me = { s.me with pc := a } ∧ step s = exec i u) ∧
  (∀ (s : State) (i : Instr) (l : List Choice), s.agenda = .event i :: l → s.mayHappen i = true → step s = exec i { s with agenda := l })

/-- R10, R75: every step ends in a next state, and no instruction is refused. That an instruction of a slot, or a bundle without slots, stops by the
name noTask where there is no task to run it, and nothing else stops, is the model's own: the spec gives no bundle to a core without a task ('##
Stops'). -/
def Obligations.NothingStops : Prop :=
  (∀ s : State, ∃ t, step s = .next t) ∧
  (∀ (s : State) (i : Instr), (∀ r, exec i s ≠ .refused r) ∧
    (∀ f, exec i s = .fault f → f = .noTask ∧ s.me.run ≠ .task ∧ (i.cls ≠ none ∨ ∃ a b c d e, i = .emptyBundle a b c d e)) ∧
    (i.cls ≠ none → s.me.run ≠ .task → exec i s = .fault .noTask)) ∧
  (∀ (s : State) (a b c d e : Nat), s.me.run ≠ .task → exec (.emptyBundle a b c d e) s = .fault .noTask)

/-- R97, R110, R223, R298, R311, R384, R387: reset leaves what the spec says, each register by its value: every core idle with its registers at zero
and SAFEIX at 0xFFFF, every L0 line and frame INVALID with its way as its rank, every queue STOPPED, the partition table at zero, and the device's
registers and route table. The memory has the canonical form. -/
def Obligations.ResetValues : Prop :=
  let s := State.reset
  Memory.wf s.mem = true ∧
  (∀ k, (s.core k).run = .idle ∧
    (let c := (s.core k).csr;
      c.taskid = 0 ∧ c.partid = 0 ∧ c.status = 0 ∧ c.epc = 0 ∧ c.fltmask = 0 ∧ c.repix = 0 ∧ c.fltcode = 0 ∧ c.fltaddr = 0 ∧ c.tvec = 0 ∧
      c.hscr = 0 ∧ c.fpstat = 0 ∧ c.detmode = 0 ∧ c.safeix = 0xFFFF ∧ c.safedist = 0 ∧ c.stickv0 = 0 ∧ c.stickv1 = 0 ∧ c.stickl = 0 ∧
      c.lcnt = 0 ∧ c.lbeg = 0 ∧ c.lend = 0) ∧
    (∀ n, (s.core k).rg n = 0 ∧ (s.core k).rv n = 0 ∧ (s.core k).rq n = 0 ∧ (s.core k).re n = 0 ∧ (s.core k).rj n = 0) ∧
    (∀ n, n ≠ 0 → (s.core k).rp n = false ∧ (s.core k).rk n = 0) ∧ (∀ n i j, (s.core k).ra n i j = 0) ∧
    (∀ n, ((s.core k).tok n).st = .free ∧ ((s.core k).zrec n).st = .empty ∧ (s.core k).wcnt n = 0) ∧
    (∀ w, ((s.core k).line w).st = .invalid ∧ ((s.core k).line w).lru = w % 4)) ∧
  (∀ cl w, (s.frame cl w).st = .invalid ∧ (s.frame cl w).lru = w % 16 ∧ (s.frame cl w).lexp = 0) ∧
  (∀ q, (s.qcb q).image = 3 * 2 ^ 415 ∧ (s.qcb q).rem = 0 ∧ (s.qcb q).cal = 0x100 ∧ (s.qcb q).runN = 0 ∧ (s.qcb q).ent = 0) ∧
  (∀ p off n, (s.part p).en = false ∧ (s.part p).fld off n = 0 ∧ (s.part p).frqpidx = 0 ∧ (s.part p).frqcidx = 0 ∧ (s.part p).frqovf = 0) ∧
  s.dev.owner = 0 ∧ s.dev.opreq = 0x0708015E ∧ s.dev.fabid = 0x1FFF ∧ s.dev.ptime = 0 ∧
  s.dev.opstat = 1800 * 2 ^ 32 + 350 * 2 ^ 16 ∧ s.dev.thermReg = 0 ∧ s.dev.bootstat = 0 ∧ s.dev.thstat = 0 ∧ s.dev.genbase = 0 ∧
  s.dev.vtbase = 0 ∧ s.dev.pffrqbase = 0 ∧ s.dev.pffrqn = 0 ∧ s.dev.pffrqvec = 0 ∧ s.dev.pffrqpidx = 0 ∧ s.dev.pffrqcidx = 0 ∧
  s.dev.pffrqovf = 0 ∧ (∀ i, mget s.dev.route i 0 = 0) ∧ ∀ cl, s.clState cl = 0

/-- R61 to R64, R82 to R87: words that the spec writes out decode to the instructions it says they hold. -/
def Obligations.SpecWordsDecode : Prop :=
  decodeSlot .i 0x03014001 none = .ok (.addi ⟨0, 0⟩ 5 0 1 none) ∧
  decodeSlot .i 0x43010000 (some 0x003F8000) = .ok (.addi ⟨0, 0⟩ 4 0 0 (some 0x003F8000)) ∧
  decodeSlot .i 0x01014524 none = .ok (.add ⟨0, 0⟩ 5 5 9) ∧
  decodeSlot .i 0x22008600 none = .ok (.jmovToJ ⟨0, 0⟩ 2 6) ∧
  decodeSlot .i 0x1E00440A none = .ok (.cmpeqi ⟨0, 0⟩ 1 4 10 none) ∧
  decodeSlot .i 0x33008309 none = .ok (.zchkM ⟨0, 0⟩ 2 3 2) ∧
  decodeSlot .c 0x07000507 none = .ok (.loopi ⟨0, 0⟩ 5 7 none) ∧
  decodeSlot .c 0x01200005 none = .ok (.br ⟨1, 0⟩ 5 none) ∧
  decodeSlot .c 0x0DD00001 none = .ok (.trap ⟨6, 1⟩ 1 none) ∧
  decodeSlot .c 0x09000000 none = .ok (.done ⟨0, 0⟩) ∧
  decodeSlot .v 0x1B018804 none = .ok (.vred ⟨0, 0⟩ ⟨3, 2, 0, 1, 0, none⟩) ∧
  decodeSlot .v 0x5F008002 (some 0x3140) = .ok (.kmov ⟨0, 0⟩ ⟨1, 0, 0, 0, 2, some ⟨0, 0, 0, 3, 5⟩⟩) ∧
  decodeSlot .v 0x3F000000 none = .ok (.idle ⟨0, 0⟩) ∧
  decodeSlot .m 0x51018416 (some 0x004C8233) = .ok (.tlook ⟨0, 0⟩ ⟨6, 4, 5, 2, 0⟩ 1 3 2 2 0 3 3) ∧
  decodeSlot .x 0x43010301 (some 0x00400000) = .ok (.tinv ⟨0, 0⟩ ⟨4, 3, 0, 1, 0⟩ 2 0 0) ∧
  decodeSlot .l 0x07024400 none = .ok (.ldD ⟨0, 0⟩ 9 4 0 none) ∧
  decodeSlot .l 0x58000140 (some 0x02E00000) = .ok (.amo ⟨0, 0⟩ 0 1 64 0 1 28) ∧
  headerOf 0xAC140020 = ⟨0x58, 2, 1, 0, 0, 0, 2⟩ ∧ (headerOf 0xAC140020).slots = [.i0, .v0, .v1]

/-- R60 to R64, R82 to R87: the slot words of a well-formed instruction decode to that instruction, so that no operand bit is dropped. -/
def Obligations.EncodedSlotsDecode : Prop :=
  ∀ (i : Instr) (cl : SlotClass), i.cls = some cl → i.wf = true → decodeSlot cl (encode i).1 (encode i).2 = .ok i

/-- R221, R235: memory keeps the one canonical form of its contents, so that equal memories are equal data, through every step. -/
def Obligations.MemoryFormKept : Prop :=
  ∀ s t : State, Memory.wf s.mem = true → step s = .next t → Memory.wf t.mem = true

/-- R97, R98, R100: g0 reads 0, p0 reads 1 and k0 all ones in every state; a result for one of them is discarded, and any other result changes its
register, in its bank, and no other. -/
def Obligations.RegisterWrites : Prop :=
  ∀ (c : Core) (d : Dest) (v : Nat),
    c.rg 0 = 0 ∧ c.rp 0 = true ∧ c.rk 0 = BitVec.allOnes 128 ∧
    (d = .g 0 true ∨ d = .g 0 false ∨ d = .p 0 true ∨ d = .p 0 false ∨ d = .k 0 → c.write d v none = c) ∧
    c.write d v none = { c with regs := (c.write d v none).regs } ∧
    (∀ n, (c.write d v none).rg n = if d = c.dg n ∧ n ≠ 0 then BitVec.ofNat 64 v else c.rg n) ∧
    (∀ n, (c.write d v none).rp n = if d = c.dp n ∧ n ≠ 0 then decide (v % 2 = 1) else c.rp n) ∧
    (∀ n, (c.write d v none).rv n = if d = .v n then BitVec.ofNat 1024 v else c.rv n) ∧
    (∀ n, (c.write d v none).rk n = if d = .k n ∧ n ≠ 0 then BitVec.ofNat 128 v else c.rk n) ∧
    (∀ n, (c.write d v none).rq n = if d = .q n then BitVec.ofNat 64 v else c.rq n) ∧
    (∀ n, (c.write d v none).re n = if d = .e n then BitVec.ofNat 32 v else c.re n) ∧
    (∀ n, (c.write d v none).rj n = if d = .j n then BitVec.ofNat 32 v else c.rj n) ∧
    (∀ n i j, (c.write d v none).ra n i j = c.ra n i j) ∧
    (∀ n, n < 56 → c.dg n = .g n false) ∧ (∀ n, 56 ≤ n → c.dg n = .g n c.hm) ∧ (∀ n, n < 6 → c.dp n = .p n false) ∧ (∀ n, 6 ≤ n → c.dp n = .p n c.hm)

/-- R76, R77, R114 to R116, R292, R294, R300: a trap records the bundle, iteration, slots, code and address, lands every result in flight, enters
handler mode at TVEC 2 cycles later, and changes no other register; in handler mode or with TVEC 0 the task is aborted instead, and nothing is
recorded. When no token is PENDING, no command of the task is left and its stores are performed, the abort writes back the core's DIRTY lines, ends
its pins, posts its record, whose last argument is the address that named the task's record at its creation (log entry 49), and leaves the core idle
and the launch live. R66 to R73, R76: a core's next bundle faults, in this order, as its fetch does; with ALIGN or BRANCH_MID where a transfer did
not lead to a header; with ILLEGAL_BUNDLE, whose cause is the lowest item that it breaks; and with ILLEGAL_OP, whose mask names the slots. Two slots
read the registers as the bundle began, a bundle is repeated REPEAT times, and an absent slot of a sticky bundle issues its recorded word again, a
load or store behind the advance of its base, which its guard does not hold back. R117, R305 to R309: the header of a save area has the fields of
R307 at their offsets, zero where the liveness set does not name a register; a core that saves, once its loads, commands and accesses have ended and
the frames are there, writes its DIRTY lines, the data frames and the header, goes idle, and leaves a resumption entry with its queue; and a core
that takes the entry up has what the area holds: the registers that the set names, the CSRs, and the tokens, an ERROR token with FLTADDR 0, neither
waited on nor consumed (log entry 92). -/
def Obligations.TrapEntry : Prop :=
  ((∀ (c : Core) (t : TrapRec) (dstep : Bool) (stop : Nat),
     (c.hm = false → c.csr.tvec ≠ 0 → c.takeTrap t dstep stop = { c with
       run := .task, pc := c.csr.tvec.toNat, via := .target, iter := 0, hCyc := 2, tCyc := c.tCyc + 2, xfer := .none, settle := true,
       preCyc := if c.preempt then c.preCyc + 2 else c.preCyc, stalled := false, regs := c.settleFly.regs, fly := []
       csr := { c.csr with
         epc := BitVec.ofNat 64 t.epc, repix := BitVec.ofNat 32 t.repix, fltmask := BitVec.ofNat 8 t.fltmask
         fltcode := BitVec.ofNat 32 (t.code + 2 ^ 8 * (t.orig % 64) + 2 ^ 14 * t.chn.toNat + 2 ^ 16 * t.detail)
         fltaddr := BitVec.ofNat 64 t.fltaddr, status := if dstep then 3 else 1 } }) ∧
     (c.hm = true ∨ c.csr.tvec = 0 → c.takeTrap t dstep stop = { c with
       run := .aborting, abort := some ⟨t.code, t.detail, stop, t.fltaddr⟩, xfer := .none, settle := false, stalled := false })) ∧
   (∀ (s : State) (a : AbortInfo), s.agenda = [] → s.clocked (clusterOf s.cur) = true → s.me.run = .aborting → s.me.abort = some a →
     ((∃ n, n < 64 ∧ (s.me.tok n).st = .pending) → step s = .next (s.updMe (fun c => c.tick 1))) ∧
     ((∀ n, n < 64 → (s.me.tok n).st ≠ .pending) → (∀ x ∈ s.me.cmds, x.save ≠ none) → s.storesDone s.cur = true →
       ∀ x, s.launch s.me.task.launch = some x → (s.qcb x.key).toSave = false →
       ∃ t, step s = .next t ∧ t.me.run = .idle ∧ t.me.pins = [] ∧ (∀ w, (t.me.line w).st ≠ .dirty) ∧ (∀ k, k ≠ s.cur → t.core k = s.core k) ∧
         t.launch s.me.task.launch = some x ∧ (t.qcb x.key) = { s.qcb x.key with runN := (s.qcb x.key).runN - 1 } ∧
         let u := ((s.dropAcqs s.cur).flushL0 s.cur).frqPost ⟨2, a.code, a.detail, s.me.csr.partid.toNat, s.cur, s.me.csr.taskid.toNat, s.me.task.launch, a.addr, a.faddr,
           s.me.task.recGVA⟩
         (∀ p, t.byte p = u.byte p) ∧ t.parts = u.parts ∧ t.out = u.out))) ∧
  (∀ (s : State) (a v x : Nat),
     let c := s.me
     let p := c.csr.partid.toNat
     let h := headerOf v
     let word (n : Nat) (y : Nat) : Prop := s.fetchWord p n = .ok y
     let one (h : Header) (i : Instr) (sl : Slot) : Prop := a % 64 ≤ 56 ∧ word a h.word ∧ word (a + 4) (encode i).1 ∧ (encode i).2 = none ∧
       decodeSlot sl.cls (encode i).1 none = .ok i
     let two (rep : Nat) (i j : Instr) (sl sm : Slot) : Prop := rep < 16 ∧ a % 64 ≤ 52 ∧ word (a + 8) (encode j).1 ∧ (encode j).2 = none ∧
       decodeSlot sm.cls (encode j).1 none = .ok j ∧ one ⟨2 ^ sl.bit + 2 ^ sm.bit, rep, 0, 0, 0, 0, 0⟩ i sl
     let raises (code cause addr mask : Nat) : Prop := ∃ t, step s = .next t ∧ CoreOnly s t ∧
       t.me = { c with pc := a, tcWait := none, tcFlt := none, hostAt := .none }.takeTrap ⟨a, c.iter, mask, code, cause, false, 0, addr⟩ false a
     let shares (i j : Instr) : Prop := ∃ d ∈ dstsOf i, d ∈ dstsOf j ∧ isConst d = false
     s.agenda = [] → s.clocked (clusterOf s.cur) = true → c.run = .task → (c.settle = false ∨ c.loads = []) → c.via ≠ .skip →
     c.saveDue = false → c.handlerDue = false → a = (if c.via = .seq then s.skipPads p padLimit c.pc else c.pc) →
     (∀ e, s.fetchWord p (a / 4 * 4) = .error e → raises e.code e.cause a 0) ∧
     (word (a / 4 * 4) v → a % 4 ≠ 0 → raises 5 0 a 0) ∧
     (a % 4 = 0 → word a v →
       (v = 0xFFFFFFFF → raises 3 0 a 0) ∧
       (v < 2 ^ 31 → c.via = .seq → raises 1 8 0 0) ∧
       (v < 2 ^ 31 → c.via = .target → raises 3 1 a 0) ∧
       (2 ^ 31 ≤ v → v < 0xFFFFFFFF →
         let steps := h.sv0 ≠ 0 ∨ h.sv1 ≠ 0 ∨ h.sl ≠ 0
         (h.zeros ≠ 0 → raises 1 1 0 0) ∧
         (h.zeros = 0 → h.sticky = 0 → steps → raises 1 2 0 0) ∧
         (h.zeros = 0 → h.sticky = 1 ∨ ¬ steps → h.slots ≠ [] →
           (a % 64 = 60 → raises 1 5 0 0) ∧
           (a % 64 ≠ 60 → word (a + 4) x →
             (2 ^ 31 ≤ x → raises 1 4 0 0) ∧
             (x < 2 ^ 30 → .c ∈ h.slots → h.rep ≠ 0 → (let op := fld x 24 6; (1 ≤ op ∧ op ≤ 9) ∨ op = 13 ∨ op = 14 ∨ op = 15) → raises 1 3 0 0))))) ∧
     (a % 4 = 0 →
       (∀ sl : Slot, a % 64 ≤ 56 → word a (soleHeader sl) → word (a + 4) x → x < 2 ^ 30 → (∀ i, decodeSlot sl.cls x none ≠ .ok i) →
         raises 2 0 0 (2 ^ sl.bit)) ∧
       (∀ i j rep sl sm, (sl = .i0 ∧ sm = .i1) ∨ (sl = .v0 ∧ sm = .v1) → two rep i j sl sm →
         (shares i j → raises 1 6 0 0) ∧
         (¬ shares i j → sl = .v0 → 1024 < rawBits (encode i).1 + rawBits (encode j).1 → raises 1 7 0 0) ∧
         (¬ shares i j → sl = .i0 → onlyI0 j = true → raises 2 0 0 (2 ^ Slot.i1.bit))) ∧
       (∀ g1 d1 a1 b1 g2 d2 a2 b2 rep, let i := Instr.add g1 d1 a1 b1
         let j := Instr.sub g2 d2 a2 b2
         two rep i j .i0 .i1 → ¬ shares i j → Ready i s → Ready j s → ∃ t, step s = .next t ∧ CoreOnly s t ∧
           t.me.regs = ((s.me.age.write (c.dg d1) (c.rg a1 + c.rg b1).toNat none).write (c.dg d2) (c.rg a2 - c.rg b2).toNat none).regs ∧
           (c.iter < rep → t.me.pc = a ∧ t.me.iter = c.iter + 1) ∧
           (rep ≤ c.iter → c.csr.lcnt = 0 → t.me.iter = 0 ∧ t.me.pc = t.skipPads p padLimit ((a + 12) % 2 ^ 64))) ∧
       (∀ sv0 sv1 sl, sv0 < 16 → sv1 < 16 → sl < 16 → word a (Header.word ⟨0, 0, 1, 0, sv0, sv1, sl⟩) →
         (∀ i t, bitOf c.csr.stickv1.toNat 63 = false → bitOf c.csr.stickl.toNat 63 = false → c.csr.stickv0 = recordOf i → i.cls = some .v →
           (encode i).2 = none → decodeSlot .v (encode i).1 none = .ok i → stickyBase i = none → exec i (s.updMe (fun c => { c with pc := a })) = .next t →
           ∃ u, step s = .next u ∧ u.me = { t.me with pc := u.me.pc } ∧ (∀ k, k ≠ s.cur → u.core k = t.core k) ∧
             u = { t with cores := u.cores, pmcs := u.pmcs }) ∧
         (∀ i b, bitOf c.csr.stickv0.toNat 63 = false → bitOf c.csr.stickv1.toNat 63 = false → c.csr.stickl = recordOf i → i.cls = some .l →
           (encode i).2 = none → decodeSlot .l (encode i).1 none = .ok i → stickyBase i = some b → c.guard i.guard = false →
           c.pending (c.dg b) = false → c.csr.safedist.toNat < 2048 → ∃ u, step s = .next u ∧ CoreOnly s u ∧
             u.me.regs = (s.me.age.write (c.dg b) (c.rg b + (c.rj sl).signExtend 64).toNat none).regs)))) ∧
  ((∀ (c : Core) (l : LiveSet) (full don : Bool) (det : Nat) (frames : List Nat), frames.length ≤ 162 →
     let b := saveHeader c l full don det frames
     let has (off n v : Nat) : Prop := imgFld b off n = v % 256 ^ n
     let kept (m n v : Nat) : Nat := if bitOf m n then v else 0
     b.length = 4096 ∧ has 0 8 c.pc ∧ has 8 4 c.iter ∧ has 0xC 4 c.csr.taskid.toNat ∧ has 0x10 8 c.csr.tvec.toNat ∧ has 0x18 8 c.task.recGVA ∧
     has 0x20 4 c.csr.detmode.toNat ∧ has 0x24 4 c.csr.fpstat.toNat ∧ has 0x28 4 c.csr.safeix.toNat ∧ has 0x2C 1 (full.toNat + 2 * don.toNat) ∧
     has 0x2D 1 det ∧ has 0x2E 1 c.csr.partid.toNat ∧ has 0x30 8 c.csr.stickv0.toNat ∧ has 0x38 8 c.csr.stickv1.toNat ∧
     has 0x40 8 c.csr.stickl.toNat ∧ has 0x48 8 c.csr.lcnt.toNat ∧ has 0x50 8 c.csr.lbeg.toNat ∧ has 0x58 8 c.csr.lend.toNat ∧
     has 0x60 8 l.g ∧ has 0x68 8 l.t ∧ has 0x70 4 l.v ∧ has 0x74 2 l.q ∧ has 0x76 2 l.e ∧ has 0x78 2 l.j ∧ has 0x7A 2 l.z ∧ has 0x7C 1 l.k ∧
     has 0x7D 1 l.a ∧ has 0x7E 1 l.pins.length ∧ has 0x7F 1 l.w ∧
     (∀ n, n < 8 → bitOf (imgFld b 0x2F 1) n = if n = 0 then true else mget c.regs.p n false) ∧
     (∀ n, n < 64 → has (0x180 + 8 * n) 8 (kept l.g n (c.rgIn n false).toNat)) ∧ (∀ n, n < 8 → has (0x380 + 16 * n) 16 (kept l.k n (c.rk n).toNat)) ∧
     (∀ n, n < 16 → has (0x80 + 16 * n) 16 (kept l.z n (c.zrec n).bits) ∧ has (0x400 + 8 * n) 8 (kept l.q n (c.rq n).toNat) ∧
       has (0x480 + 4 * n) 4 (kept l.e n (c.re n).toNat) ∧ has (0x4C0 + 4 * n) 4 (kept l.j n (c.rj n).toNat)) ∧
     (∀ n g, n < 64 → bitOf l.t n = true → (c.tok n).st = .error → (c.tok n).flt = some g → has (0x500 + 8 * n) 1 3 ∧
       has (0x501 + 8 * n) 1 g.flt.code ∧ has (0x502 + 8 * n) 2 (0x8000 + 0x200 * n + g.flt.cause % 0x200) ∧
       has (0x504 + 8 * n) 1 (g.orig % 64 + 64 * g.chn.toNat) ∧ has (0x505 + 8 * n) 3 0) ∧
     (∀ n, n < 64 → bitOf l.t n = false ∨ (c.tok n).st ≠ .error → has (0x500 + 8 * n) 8 (kept l.t n
       (match (c.tok n).st with | .free => 0 | .pending => 1 | .done => 2 | .error => 3))) ∧
     has 0x700 8 c.csr.epc.toNat ∧ has 0x708 8 c.csr.fltaddr.toNat ∧ has 0x710 4 c.csr.fltcode.toNat ∧ has 0x714 4 c.csr.repix.toNat ∧
     has 0x718 1 c.csr.fltmask.toNat ∧ (∀ n, n < 162 → has (0x720 + 8 * n) 8 (nth frames n 0)) ∧ has 0x719 7 0 ∧ has 0xC30 976 0) ∧
   (∀ (s u : State) (full don told : Bool) (key hdr : Nat) (fs : List Nat),
     let l := s.liveSet s.cur full
     let c := s.me
     s.agenda = [] → s.clocked (clusterOf s.cur) = true → c.run = .saving full don told → c.savable = true → s.systemDone s.cur = true →
     s.queueOf s.cur = some key → (s.qcb key).toSave = false → c.cmds.Pairwise (fun x y => x.id ≠ y.id) → s.saveFrames s.cur (l.frames c) = some (u, hdr :: fs) →
     ∃ t e, step s = .next t ∧ t.me.run = .idle ∧ t.me.pins = [] ∧ (∀ w, (t.me.line w).st ≠ .dirty) ∧
       t.bytes hdr 4096 = saveHeader c l full don ((c.cmds.filter (fun x => x.save.isNone)).length - c.withdrawn.length) fs ∧
       ((hdr :: fs).Pairwise (fun f g => f + 4096 ≤ g ∨ g + 4096 ≤ f) → ∀ (i f : Nat) (b : List Byte), fs[i]? = some f →
         (saveData c l s.freeCtr)[i]? = some b → t.bytes f b.length = b) ∧
       e.raddr = hdr ∧ e.kind = 1 ∧ e.part = c.csr.partid.toNat ∧ e.held = false ∧
       (t.qcb key) = { s.qcb key with
         saved := (s.qcb key).saved ++ [(clusterOf s.cur, e)], runN := (s.qcb key).runN - 1, ent := (s.qcb key).ent + 1 }) ∧
   (∀ (s : State) (k part hdr det : Nat) (c : Core) (l : LiveSet) (full don : Bool) (frames : List Nat),
     frames.length ≤ 162 → (∀ f ∈ frames, f < 2 ^ 64) → s.bytes hdr 4096 = saveHeader c l full don det frames →
     let d := (s.resumeTask k part hdr).core k
     let vF := (l.v % 2 ^ 32 != 0).toNat
     let rank (m n : Nat) : Nat := ((upFrom 0 n).filter (fun i => bitOf m i)).length
     d.pc = c.pc % 2 ^ 64 ∧ d.iter = c.iter % 2 ^ 32 ∧ d.itin = [] ∧ d.hm = false ∧
     d.csr = { c.csr with partid := BitVec.ofNat 8 part, status := 0, safedist := 0, hscr := d.csr.hscr } ∧
     (∀ n, n < 64 → bitOf l.g n = true → d.rg n = c.rgIn n false) ∧ (∀ n, n < 8 → d.rp n = if n = 0 then true else mget c.regs.p n false) ∧
     (∀ n, n < 8 → bitOf l.k n = true → d.rk n = c.rk n) ∧ (∀ n, n < 16 → bitOf l.q n = true → d.rq n = c.rq n) ∧
     (∀ n, n < 16 → bitOf l.e n = true → d.re n = c.re n) ∧ (∀ n, n < 16 → bitOf l.j n = true → d.rj n = c.rj n) ∧
     (∀ n, n < 32 → bitOf l.v n = true → d.rv n = BitVec.ofNat 1024 (s.rdMem (nth frames 0 0 + 128 * n) 128)) ∧
     (∀ n i j, n < 8 → i < 64 → j < 64 → bitOf l.a n = true →
       d.ra n i j = BitVec.ofNat 32 (s.rdMem (nth frames (vF + 4 * rank l.a n + i / 16) 0 + 4 * ((64 * i + j) % 1024)) 4)) ∧
     (∀ n, n < 64 → bitOf l.t n = true → ((c.tok n).st ≠ .error → (d.tok n).st = (c.tok n).st) ∧
       (∀ g, (c.tok n).st = .error → (c.tok n).flt = some g →
         d.tok n = ⟨.error, some ⟨⟨g.flt.code % 256, g.flt.cause % 512, 0⟩, g.orig % 64, g.chn⟩, none, false⟩)) ∧
     (nth frames (vF + 4 * rank l.a 8 + 8 * rank l.z 16) 0 = 0 → d.run = if don then .doneWait else .task)))

/-- R298, R299: a fault record takes the next place of its partition's ring, with the fields at their offsets, PTIME and the phase bit, advances
FRQPIDX, and raises the partition's vector when the ring was empty; a full ring drops it and FRQOVF advances, to saturation. -/
def Obligations.FaultRecords : Prop :=
  ∀ (s : State) (r : FrqRec),
    let p := s.part r.part
    let n := p.fld 0x70 1
    let ix := p.frqpidx.toNat
    let a := p.fld 0x68 8 + 64 * (ix % 2 ^ n)
    let t := s.frqPost r
    (∀ k, k ≠ r.part → t.part k = s.part k) ∧
    ((p.frqpidx - p.frqcidx).toNat = 2 ^ n → t.mem = s.mem ∧ t.out = s.out ∧
      t.part r.part = { p with frqovf := if p.frqovf = BitVec.allOnes 32 then p.frqovf else p.frqovf + 1 }) ∧
    ((p.frqpidx - p.frqcidx).toNat ≠ 2 ^ n →
      t.rdMem a 1 = r.type % 2 ^ 8 ∧ t.rdMem (a + 1) 1 = r.code % 2 ^ 8 ∧ t.rdMem (a + 2) 2 = r.detail % 2 ^ 16 ∧
      t.rdMem (a + 4) 1 = (if bitOf ix n then 2 else 0) ∧ t.rdMem (a + 5) 1 = r.part % 2 ^ 8 ∧ t.rdMem (a + 6) 2 = r.core % 2 ^ 16 ∧
      t.rdMem (a + 8) 4 = r.taskid % 2 ^ 32 ∧ t.rdMem (a + 12) 4 = r.launch % 2 ^ 32 ∧ t.rdMem (a + 16) 8 = r.addr % 2 ^ 64 ∧
      t.rdMem (a + 24) 8 = s.dev.ptime.toNat ∧ t.rdMem (a + 32) 8 = r.arg1 % 2 ^ 64 ∧ t.rdMem (a + 40) 8 = r.arg2 % 2 ^ 64 ∧
      t.rdMem (a + 48) 16 = 0 ∧ (∀ q, q < a ∨ a + 64 ≤ q → t.byte q = s.byte q) ∧ t.part r.part = { p with frqpidx := p.frqpidx + 1 } ∧
      t.out = s.out ++ (if p.frqpidx = p.frqcidx then [.msix (p.fld 0xF0 2) (p.fld 0x72 2)] else []))

/-- R356 to R360, R226, R301: an address whose bits 63:48 are not bit 47 faults XLATE, cause 1; an uncached one is walked, and a walk that finds no
page faults with its cause; a page of another generation, or a host page that is absent, faults XLATE with the cause of its stage, before a page
without the permission faults PERM, cause 1; otherwise the access has the walk's target. That the generations are checked before the permission is
the model's reading (log entry 26), and that a cached translation which its slice accepts serves in the walk's place its choice (log entry 27). With
stage 1 off, one table over one leaf of 2^30 bytes maps an address to the leaf and its offset. -/
def Obligations.Translations : Prop :=
  ∀ (s : State) (k part gva acc : Nat),
    let p := s.part part
    let fine (r : Xr) : Prop := (paKind r.pa = .host → (part, r.pa / 65536) ∉ s.absent) ∧
      (paKind r.pa = .localHbm → r.gen2 = s.gen2 r.pa ∧ (p.s1en = false ∨ r.gen1 = s.gen1 r.pa))
    let serves (r : Xr) : Prop := fine r →
      (Nat.land r.perm acc ≠ acc → s.xlate k part gva acc = .error ⟨7, 1, gva⟩) ∧ (Nat.land r.perm acc = acc → s.xlate k part gva acc = .ok r)
    (fld gva 47 17 ≠ 0 → fld gva 47 17 ≠ 2 ^ 17 - 1 → s.xlate k part gva acc = .error ⟨6, 1, gva⟩) ∧
    (fld gva 47 17 = 0 ∨ fld gva 47 17 = 2 ^ 17 - 1 → (∀ r, s.cached k part gva = some r → serves r) ∧ (s.cached k part gva = none →
      (∀ e, walk s p gva = .error e → s.xlate k part gva acc = .error ⟨e.1, e.2, gva⟩) ∧
      (∀ r, walk s p gva = .ok r → serves r ∧
        (paKind r.pa = .host → (part, r.pa / 65536) ∈ s.absent → s.xlate k part gva acc = .error ⟨6, 3, gva⟩) ∧
        (paKind r.pa = .localHbm → r.gen2 ≠ s.gen2 r.pa → s.xlate k part gva acc = .error ⟨6, 3, gva⟩) ∧
        (paKind r.pa = .localHbm → r.gen2 = s.gen2 r.pa → p.s1en = true → r.gen1 ≠ s.gen1 r.pa → s.xlate k part gva acc = .error ⟨6, 2, gva⟩)))) ∧
    (p.s1en = false → p.cenf = false → gva < 2 ^ 39 →
      let e1 := s.rdMem (p.fld 0x48 8) 8
      let e2 := s.rdMem (fld e1 8 48 * 256 + 8 * fld gva 30 9) 8
      (bitOf e1 0 = false → walk s p gva = .error (6, 3)) ∧
      (bitOf e1 0 = true → bitOf e1 1 = false → fld e1 5 3 = 0 → bitOf e2 0 = true → bitOf e2 1 = true → fld e2 5 3 = 0 → fld e2 8 22 = 0 →
        walk s p gva = .ok ⟨fld e2 8 48 * 256 + gva % 2 ^ 30, fld e2 2 3, 0, fld e2 56 8⟩))

/-! ## Scalar instructions (spec/05) -/

/-- R120: ADD, SUB and ADDI write the low 64 bits of the sum or difference to g[d] one step later, and change nothing else. R120: AND, OR, XOR and
their immediate forms write the bitwise result; MIN and MAX write the smaller or larger operand. R121: the six shifts. A register amount uses bits
5:0 alone; SHLI and SHRI take every amount their encoding holds. -/
def Obligations.IntegerArithmetic : Prop :=
  (∀ (s : State) (gd : Guard) (d a b i : Nat) (x : Option Nat),
     GivesG (.add gd d a b) s d (s.me.rg a + s.me.rg b) ∧
     GivesG (.sub gd d a b) s d (s.me.rg a - s.me.rg b) ∧
     GivesG (.addi gd d a i x) s d (s.me.rg a + immWord i x)) ∧
  (∀ (s : State) (gd : Guard) (d a b i : Nat) (x : Option Nat),
     GivesG (.and gd d a b) s d (s.me.rg a &&& s.me.rg b) ∧
     GivesG (.or gd d a b) s d (s.me.rg a ||| s.me.rg b) ∧
     GivesG (.xor gd d a b) s d (s.me.rg a ^^^ s.me.rg b) ∧
     GivesG (.andi gd d a i x) s d (s.me.rg a &&& immWord i x) ∧
     GivesG (.ori gd d a i x) s d (s.me.rg a ||| immWord i x) ∧
     GivesG (.xori gd d a i x) s d (s.me.rg a ^^^ immWord i x) ∧
     GivesG (.min gd d a b) s d (if (s.me.rg a).sle (s.me.rg b) then s.me.rg a else s.me.rg b) ∧
     GivesG (.minU gd d a b) s d (if (s.me.rg a).ule (s.me.rg b) then s.me.rg a else s.me.rg b) ∧
     GivesG (.max gd d a b) s d (if (s.me.rg a).sle (s.me.rg b) then s.me.rg b else s.me.rg a) ∧
     GivesG (.maxU gd d a b) s d (if (s.me.rg a).ule (s.me.rg b) then s.me.rg b else s.me.rg a)) ∧
  (∀ (s : State) (gd : Guard) (d a b n : Nat), n < 64 →
     GivesG (.shl gd d a b) s d (s.me.rg a <<< (s.me.rg b &&& 63)) ∧
     GivesG (.shr gd d a b) s d (s.me.rg a >>> (s.me.rg b &&& 63)) ∧
     GivesG (.shrA gd d a b) s d ((s.me.rg a).sshiftRight' (s.me.rg b &&& 63)) ∧
     GivesG (.shli gd d a n) s d (s.me.rg a <<< n) ∧
     GivesG (.shri gd d a n) s d (s.me.rg a >>> n) ∧
     GivesG (.shriA gd d a n) s d ((s.me.rg a).sshiftRight n))

/-- R122, R79: MUL and MULH write the low and the high half of the 128-bit product, three steps after they issue. R123: DIV and REM, signed and
unsigned, 18 steps after they issue: a zero divisor gives all ones and the dividend, the quotient is truncated and the remainder takes the
dividend's sign; the one signed overflow gives the dividend and 0. -/
def Obligations.ProductsAndQuotients : Prop :=
  (∀ (s : State) (gd : Guard) (d a b : Nat),
     GivesGLater (.mul gd d a b) s d (s.me.rg a * s.me.rg b) 3 ∧
     GivesGLater (.mulh gd d a b) s d (((s.me.rg a).signExtend 128 * (s.me.rg b).signExtend 128).extractLsb' 64 64) 3 ∧
     GivesGLater (.mulhU gd d a b) s d (((s.me.rg a).zeroExtend 128 * (s.me.rg b).zeroExtend 128).extractLsb' 64 64) 3) ∧
  (∀ (s : State) (gd : Guard) (d a b : Nat),
     GivesGLater (.div gd d a b) s d (if s.me.rg b = 0 then BitVec.allOnes 64 else (s.me.rg a).sdiv (s.me.rg b)) 18 ∧
     GivesGLater (.divU gd d a b) s d (if s.me.rg b = 0 then BitVec.allOnes 64 else s.me.rg a / s.me.rg b) 18 ∧
     GivesGLater (.rem gd d a b) s d (if s.me.rg b = 0 then s.me.rg a else (s.me.rg a).srem (s.me.rg b)) 18 ∧
     GivesGLater (.remU gd d a b) s d (if s.me.rg b = 0 then s.me.rg a else s.me.rg a % s.me.rg b) 18)

/-- R124 to R126: BFX takes a field of w = WM1 + 1 bits, BFI replaces one, SETHI joins an upper half, BITC counts bits. R129: moves between g, j and
e registers; e registers keep 20 bits. -/
def Obligations.BitFieldsAndScaleMoves : Prop :=
  (∀ (s : State) (gd : Guard) (d a i sx wm1 lsb : Nat) (x : Option Nat), lsb + wm1 + 1 ≤ 64 →
     GivesG (.bfx gd d a sx wm1 lsb) s d
       (if sx = 1 then ((s.me.rg a).extractLsb' lsb (wm1 + 1)).signExtend 64 else ((s.me.rg a).extractLsb' lsb (wm1 + 1)).zeroExtend 64) ∧
     (∃ v : W64, (∀ n, n < 64 → v.getLsbD n =
         if lsb ≤ n ∧ n ≤ lsb + wm1 then (s.me.rg a).getLsbD (n - lsb) else (s.me.rg d).getLsbD n) ∧
       GivesG (.bfi gd d a wm1 lsb) s d v) ∧
     GivesG (.sethi gd d a i x) s d ((immWord i x).extractLsb' 0 32 ++ (s.me.rg a).extractLsb' 0 32) ∧
     GivesG (.bitcPop gd d a) s d (BitVec.ofNat 64 ((List.range 64).countP (fun n => (s.me.rg a).getLsbD n))) ∧
     (∃ n : Nat, n ≤ 64 ∧ (∀ m, 64 - n ≤ m → (s.me.rg a).getLsbD m = false) ∧ (n < 64 → (s.me.rg a).getLsbD (63 - n) = true) ∧
       GivesG (.bitcClz gd d a) s d (BitVec.ofNat 64 n)) ∧
     (∃ n : Nat, n ≤ 64 ∧ (∀ m, m < n → (s.me.rg a).getLsbD m = false) ∧ (n < 64 → (s.me.rg a).getLsbD n = true) ∧
       GivesG (.bitcCtz gd d a) s d (BitVec.ofNat 64 n))) ∧
  (∀ (s : State) (gd : Guard) (d a : Nat),
     (Ready (.jmovToJ gd d a) s → Gives (.jmovToJ gd d a) s (.j d) ((s.me.rg a).extractLsb' 0 32).toNat) ∧
     GivesG (.jmovToG gd d a) s d ((s.me.rj a).signExtend 64) ∧
     (Ready (.emovToE gd d a) s → Gives (.emovToE gd d a) s (.e d) ((s.me.rg a).extractLsb' 0 20).toNat) ∧
     GivesG (.emovToG gd d a) s d ((s.me.re a).zeroExtend 64) ∧
     (Ready (.emovE gd d a) s → Gives (.emovE gd d a) s (.e d) (s.me.re a).toNat))

/-- R127: the eight compares write their condition to p[d]. R128: predicate logic and moves; bit n of PMOV's g result is p[n], so bit 0 is 1. R338:
ZCHK writes to p[d] whether z[a] is VALID, and with M = 1 whether it is VALID and made from the tile that q[b] names. -/
def Obligations.ComparesAndPredicates : Prop :=
  (∀ (s : State) (gd : Guard) (d a b i : Nat) (x : Option Nat),
     GivesP (.cmpeq gd d a b) s d (decide (s.me.rg a = s.me.rg b)) ∧
     GivesP (.cmpne gd d a b) s d (decide (s.me.rg a ≠ s.me.rg b)) ∧
     GivesP (.cmplt gd d a b) s d ((s.me.rg a).slt (s.me.rg b)) ∧
     GivesP (.cmpltu gd d a b) s d ((s.me.rg a).ult (s.me.rg b)) ∧
     GivesP (.cmple gd d a b) s d ((s.me.rg a).sle (s.me.rg b)) ∧
     GivesP (.cmpleu gd d a b) s d ((s.me.rg a).ule (s.me.rg b)) ∧
     GivesP (.cmpeqi gd d a i x) s d (decide (s.me.rg a = immWord i x)) ∧
     GivesP (.cmplti gd d a i x) s d ((s.me.rg a).slt (immWord i x))) ∧
  (∀ (s : State) (gd : Guard) (d a b : Nat),
     GivesP (.pand gd d a b) s d (s.me.rp a && s.me.rp b) ∧
     GivesP (.por gd d a b) s d (s.me.rp a || s.me.rp b) ∧
     GivesP (.pxor gd d a b) s d (s.me.rp a != s.me.rp b) ∧
     GivesP (.pandn gd d a b) s d (s.me.rp a && !s.me.rp b) ∧
     GivesP (.pmov gd d a) s d (s.me.rp a) ∧
     GivesP (.pmovFromG gd d a) s d (decide (s.me.rg a ≠ 0)) ∧
     (∃ v : W64, v.getLsbD 0 = true ∧ (∀ n, v.getLsbD n = if n < 8 then s.me.rp n else false) ∧ GivesG (.pmovPreds gd d) s d v)) ∧
  (∀ (s : State) (gd : Guard) (d a b : Nat),
     let z := s.me.zrec a
     GivesP (.zchk gd d a) s d (decide (z.st = .valid)) ∧
     GivesP (.zchkM gd d a b) s d (decide (z.st = .valid ∧ z.tid * 2 ^ 44 + z.coord = (s.me.rq b).toNat)))

/-- R130, R103: coordinate registers: TID is bits 63:44, Cn the 11 bits from 11 n on; QADD steps one coordinate modulo 2^11. -/
def Obligations.CoordinateMoves : Prop :=
  ∀ (s : State) (gd : Guard) (d a b n k : Nat) (x : Option Nat),
    (Ready (.qset gd d a) s → Gives (.qset gd d a) s (.q d) (s.me.rg a).toNat) ∧
    (Ready (.qsetTid gd d a) s →
      Gives (.qsetTid gd d a) s (.q d) ((s.me.rg a).toNat % 2 ^ 20 * 2 ^ 44 + (s.me.rq d).toNat % 2 ^ 44)) ∧
    (Ready (.qsetC gd d a b) s → ∃ v : Nat, v < 2 ^ 64 ∧ Gives (.qsetC gd d a b) s (.q d) v ∧
      fld v (11 * ((s.me.rg b).toNat % 4)) 11 = (s.me.rg a).toNat % 2 ^ 11 ∧
      fld v 44 20 = fld (s.me.rq d).toNat 44 20 ∧
      (∀ m, m < 4 → m ≠ (s.me.rg b).toNat % 4 → fld v (11 * m) 11 = fld (s.me.rq d).toNat (11 * m) 11)) ∧
    GivesG (.qget gd d a) s d (s.me.rq a) ∧
    GivesG (.qgetTid gd d a) s d (s.me.rq a >>> 44) ∧
    GivesG (.qgetC gd d a b) s d (((s.me.rq a) >>> (11 * ((s.me.rg b).toNat % 4))) &&& 0x7FF) ∧
    (n < 4 → Ready (.qadd gd d a n k x) s → ∃ v : Nat, v < 2 ^ 64 ∧ Gives (.qadd gd d a n k x) s (.q d) v ∧
      fld v (11 * n) 11 = (BitVec.ofNat 11 (fld (s.me.rq a).toNat (11 * n) 11) +
        (match x with | none => (BitVec.ofNat 6 k).signExtend 11 | some e => BitVec.ofNat 11 e)).toNat ∧
      fld v 44 20 = fld (s.me.rq a).toNat 44 20 ∧
      (∀ m, m < 4 → m ≠ n → fld v (11 * m) 11 = fld (s.me.rq a).toNat (11 * m) 11)) ∧
    (Ready (.qmov gd d a) s → Gives (.qmov gd d a) s (.q d) (s.me.rq a).toNat)

/-- R131 to R133: the arithmetic of FP32 (f = 0) and FP64 (f = 1) writes the rounded result after 4 steps, FDIV and FSQRT after 18, and FPSTAT gains
the flags; RNE stands where an optional extension word is absent. The operations on bit patterns are those of Machine/Num.lean (R34 to R46), which
the tests evaluate. R134 to R136: FCMP writes its condition to p[d]; FCVT its conversion and FCLASS its class mask to g[d]; all after 4 steps. R36
to R41, R131 to R135, R169: rounding is that of the exact real result: encoding a value, sums, differences, products, quotients, square roots and
fused sums of finite operands, VSPEC's reciprocal and root, conversions between formats and from integers; an order of values is that of the reals;
a conversion to an integer takes the integer that the mode has it, or the bound it passes. -/
def Obligations.FloatInstructions : Prop :=
  (∀ (s : State) (gd : Guard) (d a b c f rm : Nat) (x : Option Nat), rm < 4 →
     let code := if f = 1 then 14 else 0
     let arg (n : Nat) : Nat := if f = 1 then (s.me.rg n).toNat else (s.me.rg n).toNat % 2 ^ 32
     let m := x.getD 0 % 4
     GivesF (.fadd gd d a b f x) s d (fAdd code m (arg a) (arg b)) 4 ∧
     GivesF (.fsub gd d a b f x) s d (fSub code m (arg a) (arg b)) 4 ∧
     GivesF (.fmul gd d a b f x) s d (fMul code m (arg a) (arg b)) 4 ∧
     GivesF (.fma gd d a b f c rm) s d (fFma code rm (arg a) (arg b) (arg c)) 4 ∧
     GivesF (.fdiv gd d a b f x) s d (fDiv code m (arg a) (arg b)) 18 ∧
     GivesF (.fsqrt gd d a f x) s d (fSqrt code m (arg a)) 18 ∧
     GivesF (.fmin gd d a b f) s d (fMinMax code false (arg a) (arg b)) 4 ∧
     GivesF (.fmax gd d a b f) s d (fMinMax code true (arg a) (arg b)) 4) ∧
  (∀ (s : State) (gd : Guard) (d a b f k rm src dst cond : Nat), rm < 4 →
     let code := if f = 1 then 14 else 0
     let arg (n : Nat) : Nat := if f = 1 then (s.me.rg n).toNat else (s.me.rg n).toNat % 2 ^ 32
     let i64 := valToInt rm (decodeF src ((s.me.rg a).toNat % 2 ^ fmtWidth src)) k (-(2 ^ 63)) (2 ^ 63 - 1)
     let u64 := valToInt rm (decodeF src ((s.me.rg a).toNat % 2 ^ fmtWidth src)) k 0 (2 ^ 64 - 1)
     (Ready (.fcmp gd d a b f cond) s →
       GivesLater (.fcmp gd d a b f cond) s (s.me.dp d) (fCmp code cond (arg a) (arg b)).1.toNat 4 (fCmp code cond (arg a) (arg b)).2) ∧
     GivesF (.fcvtFp gd d a src dst rm) s d (fCvt src dst rm ((s.me.rg a).toNat % 2 ^ fmtWidth src)) 4 ∧
     GivesF (.fcvtFromI64 gd d a k dst rm) s d (intToF dst rm (s.me.rg a).toInt k) 4 ∧
     GivesF (.fcvtToI64 gd d a k src rm) s d ((BitVec.ofInt 64 i64.1).toNat, i64.2) 4 ∧
     GivesF (.fcvtToU64 gd d a k src rm) s d ((BitVec.ofInt 64 u64.1).toNat, u64.2) 4 ∧
     GivesGLater (.fclass gd d a f) s d (BitVec.twoPow 64 (fClass code (arg a))) 4) ∧
  (∀ (code mode a b : Nat) (x y : ℝ), mode < 4 →
     (∀ v, IsReal v x → RoundsTo code mode x (encodeF code mode v)) ∧
     (IsReal (decodeF code a) x → IsReal (decodeF code b) y →
       RoundsTo code mode (x + y) (fAdd code mode a b) ∧ RoundsTo code mode (x - y) (fSub code mode a b) ∧ RoundsTo code mode (x * y) (fMul code mode a b) ∧
       (y ≠ 0 → RoundsTo code mode (x / y) (fDiv code mode a b)) ∧
       ∀ c z, IsReal (decodeF code c) z → RoundsTo code mode (x * y + z) (fFma code mode a b c)) ∧
     (IsReal (decodeF code a) x → 0 ≤ x → RoundsTo code mode (Real.sqrt x) (fSqrt code mode a)) ∧
     (IsReal (decodeF code a) x → code < 3 → (x ≠ 0 → RoundsTo code mode (1 / x) (vspecF code mode 2 a)) ∧
       (0 ≤ x → RoundsTo code mode (Real.sqrt x) (vspecF code mode 4 a))) ∧
     (∀ src, IsReal (decodeF src a) x → RoundsTo code mode x (fCvt src code mode a)) ∧
     (∀ (i : Int) (f : Nat), RoundsTo code mode (i * 2 ^ (-(f : Int))) (intToF code mode i f)) ∧
     (∀ v w, IsReal v x → IsReal w y → (ltV v w = true ↔ x < y)) ∧
     (∀ v f lo hi, IsReal v x → ∃ j : Int,
       let r := valToInt mode v f lo hi
       let y := x * 2 ^ f
       (mode = 0 → |j - y| ≤ 1 / 2 ∧ (|j - y| = 1 / 2 → j % 2 = 0)) ∧ (mode = 1 → 0 ≤ j * y ∧ |(j : ℝ)| ≤ |y| ∧ |y| < |(j : ℝ)| + 1) ∧
       (mode = 2 → y ≤ j ∧ j < y + 1) ∧ (mode = 3 → j ≤ y ∧ y < j + 1) ∧
       (j < lo → r = (lo, flSAT + flNX)) ∧ (lo ≤ j → hi < j → r = (hi, flSAT + flNX)) ∧
       (lo ≤ j → j ≤ hi → r.1 = j ∧ (r.2 = 0 ↔ (j : ℝ) = y) ∧ (r.2 = flNX ↔ (j : ℝ) ≠ y))))

/-! ## Control instructions (spec/05) -/

/-- R138, R139, R141: a taken transfer goes to its target, read as the bundle began, with 2 stall cycles, and leaves LCNT as it stands; CALL and
CALLI write the next bundle's address to g63 or g[d], for the next step to see (latency 1: the model's reading, log entry 82). R140: LOOP and LOOPI
set LBEG, LEND and LCNT; with a count they go on at the next bundle, with a zero count behind the bundle at LEND, after 2 stall cycles. The lone
bundle is not the LEND of its own loop, and one that arms a loop at the LEND of an active one takes no loop end (log entry 11). R141: a bundle at
LEND without a transfer, LCNT not 0: LCNT counts down, and control goes back to LBEG unless LCNT was 1. A taken transfer wins and leaves LCNT. -/
def Obligations.Transfers : Prop :=
  (∀ (s : State) (gd : Guard) (d a disp : Nat) (x : Option Nat),
     let j := (BitVec.ofNat 64 s.me.pc + 4 * (match x with
       | none => (BitVec.ofNat 20 disp).signExtend 64 | some e => (BitVec.ofNat 51 (e * 2 ^ 20 + disp)).signExtend 64)).toNat
     let go (i : Instr) (pc : Nat) (lk : Option Dest) : Prop :=
       Ready i s → GoesTo i s (fun _ => pc) .target (fun _ => csrTaken s) 2 (fun t => lk.map (fun d => (d, nextBundle i s t)))
     go (.br gd disp x) j none ∧ go (.bri gd a) (s.me.rg a).toNat none ∧ go (.call gd disp x) j (some (s.me.dg 63)) ∧
     go (.calli gd d a) (s.me.rg a).toNat (some (s.me.dg d)) ∧ go (.ret gd a) (s.me.rg a).toNat none) ∧
  (∀ (s : State) (gd : Guard) (a n o : Nat) (x : Option Nat),
     let off := match x with | none => o | some e => e * 256 + o
     let lend := BitVec.ofNat 64 (s.me.pc + 4 * off)
     let arms (i : Instr) (cnt : Nat) : Prop := Ready i s →
       (cnt ≠ 0 → GoesTo i s (fun t => nextBundle i s t) .seq
         (fun t => { csrTaken s with lbeg := BitVec.ofNat 64 (nextBundle i s t), lend := lend, lcnt := BitVec.ofNat 32 cnt }) 0 (fun _ => none)) ∧
       (cnt = 0 → GoesTo i s (fun _ => lend.toNat) .skip
         (fun t => { csrTaken s with lbeg := BitVec.ofNat 64 (nextBundle i s t), lend := lend, lcnt := 0 }) 2 (fun _ => none))
     arms (.loop gd a o x) (min (s.me.rg a).toNat 0xFFFFFFFF) ∧ arms (.loopi gd n o x) n) ∧
  (∀ (s : State) (gd gd2 : Guard) (a : Nat), s.me.csr.lcnt ≠ 0 → s.me.csr.lend.toNat = s.me.pc →
     (Ready (.idle gd) s → ∃ t, exec (.idle gd) s = .next t ∧ t.me.csr.lcnt = s.me.csr.lcnt - 1 ∧
       (s.me.csr.lcnt ≠ 1 → t.me.pc = s.me.csr.lbeg.toNat ∧ t.me.via = .target) ∧
       (s.me.csr.lcnt = 1 → t.me.pc = nextBundle (.idle gd) s t ∧ t.me.via = .seq)) ∧
     (Ready (.bri gd2 a) s → ∃ t, exec (.bri gd2 a) s = .next t ∧ t.me.csr.lcnt = s.me.csr.lcnt ∧ t.me.pc = (s.me.rg a).toNat))

/-- R142: SAFE in task mode records its index and sets SAFEDIST to 0; a pending pre-emption is taken after the commit, where the saved program
counter is the bundle that would have come next. Its index must name a liveness set, whatever its guard (log entry 12); in handler mode it raises
PRIV. FLTADDR 0 of both faults is log entry 8. R143: DONE, in either mode, leaves handler mode and begins step 1 of the task's end; its bundle goes
on nowhere, and leaves LCNT (log entry 104). -/
def Obligations.SafePointsAndTaskEnds : Prop :=
  (∀ (s : State) (gd : Guard) (i : Nat) (x : Option Nat),
     let ix := match x with | none => i | some e => e * 256 + i
     let n := (s.codes.find? (fun e => e.1 == s.me.task.codeh)).elim 0 (fun e => e.2.live.length)
     (n ≤ ix ∨ ix = 0xFFFF → s.me.run = .task → (s.me.settle = false ∨ s.me.loads = []) → Traps (.safe gd i x) s 2 0 0) ∧
     (ix < n → ix ≠ 0xFFFF → Runs (.safe gd i x) s → s.me.hm = true → Traps (.safe gd i x) s 4 2 0) ∧
     (ix < n → ix ≠ 0xFFFF → Runs (.safe gd i x) s → s.me.hm = false →
       ∃ t, exec (.safe gd i x) s = .next t ∧ CoreOnly s t ∧
         t.me.csr = { s.me.csr with safeix := BitVec.ofNat 32 ix, safedist := 0,
                                    lcnt := if loopEnd s.me then s.me.csr.lcnt - 1 else s.me.csr.lcnt } ∧
         t.me.pc = (if goesRound s then s.me.csr.lbeg.toNat else nextBundle (.safe gd i x) s t) ∧ t.me.iter = 0 ∧
         (s.me.preempt = false → t.me.run = .task ∧ t.me.regs = s.me.age.regs ∧ t.me.fly = s.me.age.fly) ∧
         (s.me.preempt = true → t.me.run = .saving false false false ∧ t.me.regs = s.me.age.settleFly.regs ∧ t.me.fly = []))) ∧
  (∀ (s : State) (gd : Guard), Runs (.done gd) s →
     ∃ t, exec (.done gd) s = .next t ∧ CoreOnly s t ∧ t.me.run = .doneWait ∧
       t.me.csr = { s.me.csr with status := 0, safedist := 0 } ∧ t.me.regs = s.me.age.regs ∧ t.me.fly = s.me.age.fly ∧
       t.me.toks = s.me.toks ∧ t.me.cmds = s.me.cmds ∧ t.me.pc = s.me.pc)

/-- R144: WAITK of one token or a range: a FREE one faults TOKEN; the bundle stalls while one is PENDING; then the lowest ERROR token's exception is
delivered and that token is DONE, or the bundle commits. FLTADDR 0 of TOKEN is log entry 8. R145: POLLK tests a token without waiting; a FREE one
faults TOKEN. The state tested is that of the turn at which the bundle commits (log entry 103). -/
def Obligations.TokenWaitsAndPolls : Prop :=
  (∀ (s : State) (gd : Guard) (a b : Nat), a ≤ b →
     let waits (i : Instr) (l : List Nat) : Prop :=
       let st (n : Nat) : TokSt := (s.me.tok n).st
       ((∃ n ∈ l, st n = .free) → Ready i s → Traps i s 0x0E 1 0) ∧
       ((∀ n ∈ l, st n ≠ .free) → (∃ n ∈ l, st n = .pending) → Ready i s → Stalls i s) ∧
       (∀ n ∈ l, (∀ m ∈ l, st m = .done ∨ st m = .error) → st n = .error → (∀ m ∈ l, st m = .error → n ≤ m) → Ready i s →
         Delivers i s n) ∧
       ((∀ n ∈ l, st n = .done) → Ready i s →
         DoesTo i s (s.updMe (fun c => l.foldl (fun c n => c.setTok n { c.tok n with used := true }) c)))
     waits (.waitk gd a) [a] ∧ waits (.waitkRange gd a b) (upFrom a (b + 1 - a))) ∧
  (∀ (s : State) (gd : Guard) (d a : Nat),
     let st := (s.me.tok a).st
     (st = .free → (Ready (.pollk gd d a) s → Traps (.pollk gd d a) s 0x0E 1 0) ∧
       (Ready (.pollkErr gd d a) s → Traps (.pollkErr gd d a) s 0x0E 1 0)) ∧
     (st ≠ .free → GivesP (.pollk gd d a) s d (decide (st = .done ∨ st = .error)) ∧
       GivesP (.pollkErr gd d a) s d (decide (st = .error))))

/-- R146, R235, R269: a FENCE stalls while a load or a write it orders has not reached its scope's port, and then commits: for cluster scope each
write has been accepted, for device scope it has reached its slice or the host port, for system scope it has been performed. At device and system
scope the FENCE closes the open write-queue entries. That core scope looks at loads alone is the model's reading (log entry 61). R148, R300: SYSC
waits for the core's accesses and posts a SERVICE record with g[a] and the 39-bit number, zeros above it (log entry 99). -/
def Obligations.FencesAndServiceCalls : Prop :=
  (∀ (s : State) (gd : Guard),
     let fence (i : Instr) (still : Prop) (u : State) : Prop := (still → Ready i s → DoesTo i s u) ∧ (¬ still → Ready i s → Stalls i s)
     let noRel : Prop := s.relOpen s.cur = false
     fence (.fenceCore gd) (s.me.loads = []) s ∧
     fence (.fenceCluster gd) (s.me.loads = [] ∧ (∀ o ∈ s.me.mq, o.accepted ≠ none) ∧ noRel) s ∧
     fence (.fenceDevice gd) (s.me.loads = [] ∧ (∀ o ∈ s.me.mq, o.atHost ≠ none) ∧ noRel) { s with wq := [] } ∧
     fence (.fenceSys gd) (s.me.loads = [] ∧ s.me.mq = [] ∧ noRel) { s with wq := [] }) ∧
  (∀ (s : State) (gd : Guard) (a n : Nat) (x : Option Nat),
     let i := Instr.sysc gd a n x
     let still : Prop := s.me.loads = [] ∧ s.me.mq = [] ∧ s.relOpen s.cur = false
     (still → Ready i s → DoesTo i s (s.frqPost
       ⟨1, 0, 0, s.me.csr.partid.toNat, s.cur, s.me.csr.taskid.toNat, s.me.task.launch, 0, (immWord n x).toNat % 2 ^ 39, (s.me.rg a).toNat⟩)) ∧
     (¬ still → Ready i s → Stalls i s))

/-- R147: TRAP commits in task mode and enters the handler, which finds the bundle that would have come next in EPC and the code in FLTCODE; with
TVEC 0 the task is aborted instead, and in handler mode TRAP raises PRIV (FLTADDR 0: log entry 8). R149, R77: ERET in handler mode goes on at EPC
from iteration REPIX, or, with DSTEP, with step 1 of the task's DONE; STATUS is cleared and no other register changes; at LEND it takes no loop end
(log entry 11). In task mode it raises PRIV, with FLTADDR 0 (log entry 8). -/
def Obligations.TrapInstructionAndReturn : Prop :=
  (∀ (s : State) (gd : Guard) (c : Nat) (x : Option Nat),
     let code := match x with | none => c | some e => e * 256 + c
     let i := Instr.trap gd c x
     let after (t : State) : Nat := if goesRound s then s.me.csr.lbeg.toNat else nextBundle i s t
     (s.me.hm = true → Ready i s → Traps i s 4 3 0) ∧
     (s.me.hm = false → Ready i s → ∃ t, exec i s = .next t ∧ CoreOnly s t ∧
       (s.me.csr.tvec ≠ 0 → t.me.run = .task ∧ t.me.pc = s.me.csr.tvec.toNat ∧ t.me.iter = 0 ∧ t.me.settle = true ∧
         t.me.regs = s.me.age.settleFly.regs ∧ t.me.fly = [] ∧
         t.me.csr = { s.me.csr with
           epc := BitVec.ofNat 64 (after t), repix := 0, fltmask := 0x80, fltcode := BitVec.ofNat 32 (2 + 0x10000 * (0x8000 + code)),
           fltaddr := BitVec.ofNat 64 s.me.pc, status := 1, safedist := s.me.csr.safedist + 1,
           lcnt := if loopEnd s.me then s.me.csr.lcnt - 1 else s.me.csr.lcnt }) ∧
       (s.me.csr.tvec = 0 → t.me.run = .aborting ∧ t.me.abort = some ⟨2, 0x8000 + code, s.me.pc, s.me.pc⟩))) ∧
  (∀ (s : State) (gd : Guard),
     (s.me.hm = false → Ready (.eret gd) s → Traps (.eret gd) s 4 4 0) ∧
     (s.me.hm = true → Ready (.eret gd) s → ∃ t, exec (.eret gd) s = .next t ∧ CoreOnly s t ∧
       t.me.pc = s.me.csr.epc.toNat ∧ t.me.iter = s.me.csr.repix.toNat ∧ t.me.csr = { s.me.csr with status := 0 } ∧
       t.me.run = (if bitOf s.me.csr.status.toNat 1 then .doneWait else .task) ∧
       t.me.regs = s.me.age.regs ∧ t.me.fly = s.me.age.fly ∧ t.me.tCyc = s.me.tCyc + 3))

/-- R110, R150: CSRR completes in either mode for every CSR but HSCR, and in handler mode for HSCR: it reads the CSR by its number, zero-extended,
FPSTAT as the bundle began even where it has stalled since; HSCR in task mode raises PRIV (R111; FLTADDR 0: log entry 8). R150, R111, R7: CSRW, CSRS
and CSRC complete for every CSR but HSCR in either mode, and for HSCR in handler mode: they write, set and clear bits of the writable CSRs; FPSTAT
keeps 6 bits, the read-only ones ignore the write, and HSCR in task mode raises PRIV. A write of LCNT stands at a loop end (R118). Each completes,
with a next state that its clause gives under conditions on the state and the operands alone: csrr, csrw, csrs, csrc. -/
def Obligations.CsrAccesses : Prop :=
  (∀ (s : State) (gd : Guard) (d : Nat),
     let r := s.me.csr
     (∀ p ∈ [(0x00, r.taskid.toNat), (0x01, s.cur), (0x02, s.cur / 8), (0x03, r.partid.toNat), (0x04, r.status.toNat), (0x08, r.epc.toNat),
         (0x09, r.fltmask.toNat), (0x0A, r.repix.toNat), (0x0B, r.fltcode.toNat), (0x0C, r.fltaddr.toNat), (0x0D, r.tvec.toNat),
         (0x10, if s.me.stalled then s.me.fpBegan.toNat else r.fpstat.toNat), (0x11, r.detmode.toNat), (0x12, r.safeix.toNat), (0x13, r.safedist.toNat), (0x14, s.dev.ptime.toNat),
         (0x18, r.stickv0.toNat), (0x19, r.stickv1.toNat), (0x1A, r.stickl.toNat), (0x1C, r.lcnt.toNat), (0x1D, r.lbeg.toNat),
         (0x1E, r.lend.toNat)], GivesG (.csrr gd d p.1) s d (BitVec.ofNat 64 p.2)) ∧
     (s.me.hm = true → GivesG (.csrr gd d 0x0E) s d r.hscr) ∧
     (s.me.hm = false → Ready (.csrr gd d 0x0E) s → Traps (.csrr gd d 0x0E) s 4 1 0)) ∧
  (∀ (s : State) (gd : Guard) (a n : Nat),
     let r := s.me.csr
     let y := s.me.rg a
     let writes (i : Instr) (f : W64 → W64) : Prop :=
       (n = 0x10 → Ready i s → DoesTo i s (s.updMe (fun c =>
         { c with csr := { c.csr with fpstat := (f (r.fpstat.zeroExtend 64) &&& 0x3F).extractLsb' 0 32 } }))) ∧
       (n = 0x1D → Ready i s → DoesTo i s (s.updMe (fun c => { c with csr := { c.csr with lbeg := f r.lbeg } }))) ∧
       (n = 0x1E → Ready i s → DoesTo i s (s.updMe (fun c => { c with csr := { c.csr with lend := f r.lend } }))) ∧
       (n = 0x0E → s.me.hm = true → Ready i s → DoesTo i s (s.updMe (fun c => { c with csr := { c.csr with hscr := f r.hscr } }))) ∧
       (n = 0x0E → s.me.hm = false → Ready i s → Traps i s 4 1 0) ∧
       (n = 0x1C → Ready i s → ∃ t, exec i s = .next t ∧ CoreOnly s t ∧
         t.me.csr = { csrTaken s with lcnt := (f (r.lcnt.zeroExtend 64)).extractLsb' 0 32 } ∧
         t.me.pc = (if goesRound s then r.lbeg.toNat else nextBundle i s t) ∧ t.me.regs = s.me.age.regs ∧ t.me.fly = s.me.age.fly) ∧
       (n ∈ [0x00, 0x01, 0x02, 0x03, 0x04, 0x08, 0x09, 0x0A, 0x0B, 0x0C, 0x0D, 0x11, 0x12, 0x13, 0x14, 0x18, 0x19, 0x1A] → Ready i s → DoesTo i s s)
     writes (.csrw gd a n) (fun _ => y) ∧ writes (.csrs gd a n) (fun v => v ||| y) ∧ writes (.csrc gd a n) (fun v => v &&& ~~~y))

/-- R65: a slot whose guard fails does nothing: its bundle commits, and no instruction of any class has an effect, a fault or a wait. SAFE with an
index of no liveness set is illegal whatever its guard (R68, R142; log entry 12). -/
def Obligations.FailingGuards : Prop :=
  ∀ (s : State) (i : Instr), i.cls ≠ none → s.me.run = .task → (s.me.settle = false ∨ s.me.loads = []) →
    (s.me.rp i.guard.gp = decide (i.guard.gn = 1)) → s.me.csr.safedist.toNat < 2048 →
    (∀ gd n x, i = .safe gd n x → extLow x n < liveCount s ∧ extLow x n ≠ 0xFFFF) → DoesTo i s s

/-! ## Vector instructions (spec/06) -/

/-- R157: the arithmetic family. A float lane receives the rounded result and its flags, an integer lane the exact result wrapped, or saturated with
S = 1; disabled lanes and the bits above the group keep their values. -/
def Obligations.VectorArithmetic : Prop :=
  ∀ (s : State) (gd : Guard) (o : VOp),
    let t := o.ty.getD (.flt 0)
    let w := tyWidth t
    let lat := if tyFloat t then 5 else 2
    let f (ff : Nat → Nat → Nat → Nat → Nat × Nat) (fi : Int → Int → Int → Int) (j : Nat) : Option (Nat × Nat) :=
      enabled s o w (fun j => match t with
        | .flt code => ff code (lane s o.a w j) (lane s o.b w j) (lane s o.ex.c w j)
        | t => (tyBits t (bitOf o.ex.i8 5) (fi (tyInt t (lane s o.a w j)) (tyInt t (lane s o.b w j)) (tyInt t (lane s o.ex.c w j))), 0)) j
    GivesMap (.vadd gd o) s (.v o.d) w (o.bits / w) lat (f (fun c x y _ => fAdd c o.ex.rm x y) (fun x y _ => x + y)) ∧
    GivesMap (.vsub gd o) s (.v o.d) w (o.bits / w) lat (f (fun c x y _ => fSub c o.ex.rm x y) (fun x y _ => x - y)) ∧
    GivesMap (.vmul gd o) s (.v o.d) w (o.bits / w) lat (f (fun c x y _ => fMul c o.ex.rm x y) (fun x y _ => x * y)) ∧
    GivesMap (.vfma gd o) s (.v o.d) w (o.bits / w) lat (f (fun c x y z => fFma c o.ex.rm x y z) (fun x y z => x * y + z)) ∧
    GivesMap (.vmin gd o) s (.v o.d) w (o.bits / w) lat (f (fun c x y _ => fMinMax c false x y) (fun x y _ => min x y)) ∧
    GivesMap (.vmax gd o) s (.v o.d) w (o.bits / w) lat (f (fun c x y _ => fMinMax c true x y) (fun x y _ => max x y)) ∧
    GivesMap (.vabs gd o) s (.v o.d) w (o.bits / w) lat (f (fun c x _ _ =>
      if (decodeF c x).isNan then (nanBits c, (decodeF c x).sigFlag) else (x % 2 ^ (fmtWidth c - 1), 0)) (fun x _ _ => |x|)) ∧
    GivesMap (.vneg gd o) s (.v o.d) w (o.bits / w) lat (f (fun c x _ _ =>
      if (decodeF c x).isNan then (nanBits c, (decodeF c x).sigFlag)
      else ((x + 2 ^ (fmtWidth c - 1)) % 2 ^ fmtWidth c, 0)) (fun x _ _ => -x))

/-- R158 and R160: logic, shifts, select and move, lane by lane, two steps after they issue; VSEL writes every lane. R159: each lane's bits of k[d]
receive its condition where the lane is enabled, and zeros where it is not. -/
def Obligations.VectorLogicAndCompares : Prop :=
  (∀ (s : State) (gd : Guard) (o : VOp),
     let w := (laneWidth o.ex.fmt).getD 32
     let t := o.ty.getD (.flt 0)
     GivesMap (.vand gd o) s (.v o.d) w (o.bits / w) 2 (enabled s o w (fun j => (lane s o.a w j &&& lane s o.b w j, 0))) ∧
     GivesMap (.vor gd o) s (.v o.d) w (o.bits / w) 2 (enabled s o w (fun j => (lane s o.a w j ||| lane s o.b w j, 0))) ∧
     GivesMap (.vxor gd o) s (.v o.d) w (o.bits / w) 2 (enabled s o w (fun j => (lane s o.a w j ^^^ lane s o.b w j, 0))) ∧
     GivesMap (.vshl gd o) s (.v o.d) (tyWidth t) (o.bits / tyWidth t) 2 (enabled s o (tyWidth t) (fun j =>
       (lane s o.a (tyWidth t) j <<< (lane s o.b (tyWidth t) j % tyWidth t) % 2 ^ tyWidth t, 0))) ∧
     GivesMap (.vshr gd o) s (.v o.d) (tyWidth t) (o.bits / tyWidth t) 2 (enabled s o (tyWidth t) (fun j =>
       ((tyInt t (lane s o.a (tyWidth t) j) >>> (lane s o.b (tyWidth t) j % tyWidth t) % ((2 ^ tyWidth t : Nat) : Int)).toNat, 0))) ∧
     GivesMap (.vsel gd o) s (.v o.d) w (o.bits / w) 2 (fun j =>
       some (if bitOf (s.me.rk o.k).toNat (j * w / 8) then lane s o.a w j else lane s o.b w j, 0)) ∧
     GivesMap (.vmov gd o) s (.v o.d) w (o.bits / w) 2 (enabled s o w (fun j => (lane s o.a w j, 0)))) ∧
  (∀ (s : State) (gd : Guard) (o : VOp),
     let t := o.ty.getD (.flt 0)
     let w := tyWidth t
     let cond (j : Nat) : Bool × Nat :=
       let x := lane s o.a w j
       let y := lane s o.b w j
       match t with
       | .flt code => (match o.ex.i8 % 8 with
         | 0 => fCmp code 0 x y
         | 1 => (!(fCmp code 0 x y).1, (fCmp code 0 x y).2)
         | 2 => fCmp code 1 x y
         | 3 => fCmp code 2 x y
         | _ => fCmp code 3 x y)
       | t => (match o.ex.i8 % 8 with
         | 0 => (x == y, 0)
         | 1 => (x != y, 0)
         | 2 => (decide (tyInt t x < tyInt t y), 0)
         | _ => (decide (tyInt t x ≤ tyInt t y), 0))
     let on (j : Nat) : Bool := bitOf (s.me.rk o.k).toNat (j * w / 8)
     Ready (.vcmp gd o) s → GivesLanes (.vcmp gd o) s (.k o.d) (w / 8) (o.bits / w) 2
       (orFlags ((upFrom 0 (o.bits / w)).map (fun j => if on j then (cond j).2 else 0)))
       (fun j => some (if on j && (cond j).1 then 2 ^ (w / 8) - 1 else 0)))

/-- R161 to R164: permutes, slides, packs and broadcasts move lanes as their entries say; VEXT writes g[g]. R173 and R74: mask logic and moves act
on all 128 bits; IDLE has no effect. -/
def Obligations.VectorPermutesAndMasks : Prop :=
  (∀ (s : State) (gd : Guard) (o : VOp),
     let w := (laneWidth o.ex.fmt).getD 32
     let n := o.bits / w
     let h := w / 2
     let i7 := o.ex.i8 % 128
     let hi := bitOf o.ex.i8 7
     GivesMap (.vperm gd o) s (.v o.d) w n 3 (enabled s o w (fun j =>
       let k := lane s o.b w j % (if bitOf o.ex.i8 5 then 2 * n else n)
       (if k < n then lane s o.a w k else lane s o.ex.c w (k - n), 0))) ∧
     GivesMap (.vslide gd o) s (.v o.d) w n 3 (enabled s o w (fun j =>
       (if hi then (if i7 ≤ j then lane s o.a w (j - i7) else lane s o.b w (n + j - i7))
        else (if j + i7 < n then lane s o.a w (j + i7) else lane s o.b w (j + i7 - n)), 0))) ∧
     GivesMap (.vpack gd o) s (.v o.d) h (o.bits / h) 3 (enabled s o h (fun j =>
       let x := if j < n then lane s o.a w j else lane s o.b w (j - n)
       (if bitOf o.ex.i8 5 then tyBits (.int (o.ik == 1) h) true (tyInt (.int (o.ik == 1) w) x) else x % 2 ^ h, 0))) ∧
     GivesMap (.vunpk gd o) s (.v o.d) w n 3 (enabled s o w (fun j =>
       let x := lane s o.a h (o.ex.i8 % 2 * n + j)
       (if o.ik = 1 then (sext x h % ((2 ^ w : Nat) : Int)).toNat else x, 0))) ∧
     GivesMap (.vbcast gd o) s (.v o.d) w n 2 (enabled s o w (fun _ =>
       (if hi then lane s o.a w i7 else (s.me.rg o.ex.g).toNat % 2 ^ w, 0))) ∧
     GivesGLater (.vext gd o) s o.ex.g
       (if o.ex.fmt = 5 then (BitVec.ofNat 8 (lane s o.a 8 i7)).signExtend 64 else BitVec.ofNat 64 (lane s o.a w i7)) 3) ∧
  (∀ (s : State) (gd : Guard) (o : VOp),
     let w := (laneWidth o.ex.fmt).getD 32
     let x := s.me.rk o.a
     let y := s.me.rk o.b
     let m := min (s.me.rg o.ex.g).toNat (1024 / w)
     (Ready (.klog gd o) s → GivesLater (.klog gd o) s (.k o.d)
       (match o.ex.i8 % 4 with | 0 => x &&& y | 1 => x ||| y | 2 => x ^^^ y | _ => x &&& ~~~y).toNat 2 0) ∧
     (o.ex.i8 % 4 = 0 → Ready (.kmov gd o) s → GivesLater (.kmov gd o) s (.k o.d) x.toNat 2 0) ∧
     (o.ex.i8 % 4 = 1 → Ready (.kmov gd o) s → GivesLater (.kmov gd o) s (.k o.d) ((s.me.rv o.a).extractLsb' 0 128).toNat 2 0) ∧
     (o.ex.i8 % 4 = 2 → Ready (.kmov gd o) s → GivesLanes (.kmov gd o) s (.v o.d) 128 1 2 0 (fun _ => some x.toNat)) ∧
     (o.ex.i8 % 4 = 3 → Ready (.kmov gd o) s → GivesLater (.kmov gd o) s (.k o.d) (2 ^ ((m * w + 7) / 8) - 1) 2 0) ∧
     (Ready (.idle gd) s → DoesTo (.idle gd) s s))

/-- R165 and R169: VCVT converts into the part of the destination that PART names; VSPEC applies its function to each enabled lane. -/
def Obligations.VectorConversions : Prop :=
  ∀ (s : State) (gd : Guard) (o : VOp),
    let wd := (laneWidth o.ex.fmt).getD 32
    let src := o.ex.i8 % 16
    let ws := (laneWidth src).getD 32
    let n := o.bits / max ws wd
    let part := o.ex.i8 / 16 % 8
    let bi := if ws < wd then part * n else 0
    let bo := if wd < ws then part * n else 0
    GivesMap (.vcvt gd o) s (.v o.d) wd (bo + n) 6 (fun j => if bo ≤ j then enabled s o wd (fun j =>
      vConvert src o.ex.fmt o.ex.rm (min ((s.me.rg o.ex.g).toNat % 64) 62) (lane s o.a ws (bi + (j - bo)))) j else none) ∧
    GivesMap (.vspec gd o) s (.v o.d) wd (o.bits / wd) 12 (enabled s o wd (fun j => vspecF o.ex.fmt o.ex.rm src (lane s o.a wd j)))

/-- R166 to R168: VQNT writes the elements and headers of the blocks it quantises; VDQ decodes blocks, or faults FORMAT when its e register names
another format; VAMAX writes the largest magnitudes. FLTADDR 0 of FORMAT is log entry 8, and that a VDQ whose lane group is too narrow decodes
nothing log entry 17. -/
def Obligations.VectorBlocks : Prop :=
  ∀ (s : State) (gd : Guard) (o : VOp),
    let src := o.ex.i8 % 16
    let ws := (laneWidth src).getD 32
    let code := o.ex.fmt
    let on (w j : Nat) : Bool := bitOf (s.me.rk o.k).toNat (j * w / 8)
    let bs := (blocksOf (o.bits / ws / 32) ((upFrom 0 (o.bits / ws)).map (fun j =>
      if on ws j then decodeF src (lane s o.a ws j) else .fin false 0 0))).map (quantBlock code (o.ex.i8 / 16 % 8 + 1))
    let els := bs.flatMap (fun b => b.1)
    let fromE := bitOf o.ex.i8 7
    let e := (s.me.re o.b).toNat
    let wf := (laneWidth code).getD 32
    (Ready (.vqnt gd o) s → GivesLanes2 (.vqnt gd o) s (.v o.d) (blockWidth code) els.length (fun j => els[j]?)
      (.v o.ex.c) (hdrBits code) bs.length (fun j => (bs[j]?).map (fun b => b.2.1)) 6 (orFlags (bs.map (fun b => b.2.2)))) ∧
    (fromE = true → fld e 16 4 ≠ code → Ready (.vdq gd o) s → Traps (.vdq gd o) s 8 5 0) ∧
    ((fromE = true → fld e 16 4 = code) → 32 * ws ≤ o.bits → GivesMap (.vdq gd o) s (.v o.d) ws (o.bits / ws) 6 (enabled s o ws (fun j =>
      encodeF src o.ex.rm (blockDecode code (lane s o.a (blockWidth code) j)
        (if fromE then e % 65536 else fld (s.me.rv o.b).toNat (j / 32 * hdrBits code) (hdrBits code)))))) ∧
    ((fromE = true → fld e 16 4 = code) → o.bits < 32 * ws → Ready (.vdq gd o) s → DoesTo (.vdq gd o) s s) ∧
    GivesMap (.vamax gd o) s (.v o.d) 32 (o.bits / wf / 32) 6 (fun b =>
      let m := amaxBlock (((upFrom (32 * b) 32).filter (on wf)).map (fun j => decodeF code (lane s o.a wf j)))
      some (if bitOf o.ex.i8 5 then ((fMinMax 0 true (lane s o.d 32 b) m.1).1, Nat.lor m.2 (fMinMax 0 true (lane s o.d 32 b) m.1).2) else m))

/-- R170 to R172: VRED writes the value of the pairwise tree to lane 0; VSCAN the prefixes of the doubling tree; VMATCH the combined values of equal
keys to their leaders, and the leaders to k[c]. That the flags of VSCAN are those of the additions at enabled lanes in all levels is log entry 16. -/
def Obligations.VectorReductions : Prop :=
  ∀ (s : State) (gd : Guard) (o : VOp),
    let t := o.ty.getD (.flt 0)
    let w := tyWidth t
    let n := o.bits / w
    let op := o.ex.i8 % 8
    let on (j : Nat) : Bool := bitOf (s.me.rk o.k).toNat (j * w / 8)
    let wide := bitOf o.ex.i8 5
    let t2 := if wide then .flt 0 else t
    let code := match t with | .flt k => k | _ => 0
    let ls := (upFrom 0 n).map (fun j =>
      if on j then (if wide then fCvt code 0 rne (lane s o.a w j) else (lane s o.a w j, 0)) else (redIdent t2 op, 0))
    let r := treeReduce (redOpOf t2 op) (Nat.log2 n) (ls.map Prod.fst)
    let seg := bitOf o.ex.i8 4
    let sc := scanLevels (redOpOf t op) (fun j => seg || on j) n (Nat.log2 n) 1
      ((upFrom 0 n).map (fun j => if seg || on j then lane s o.a w j else redIdent t op)) ((upFrom 0 n).map (fun j => seg && on j))
    let key (j : Nat) : Nat := lane s o.b w j
    let leads (j : Nat) : Bool := on j && !((upFrom 0 j).any (fun i => on i && key i == key j))
    let grp (j : Nat) : Nat × Nat := foldGroup (redOpOf t op) (lane s o.a w j)
      (((upFrom (j + 1) (n - j - 1)).filter (fun i => on i && key i == key j)).map (fun i => lane s o.a w i))
    (Ready (.vred gd o) s → GivesLanes (.vred gd o) s (.v o.d) (tyWidth t2) 1 10 (Nat.lor r.2 (orFlags (ls.map Prod.snd))) (fun _ => some r.1)) ∧
    (Ready (.vscan gd o) s → GivesLanes (.vscan gd o) s (.v o.d) w n 10 sc.2 (fun j => if seg || on j then some (nth sc.1 j 0) else none)) ∧
    (Ready (.vmatch gd o) s → GivesLanes2 (.vmatch gd o) s (.v o.d) w n (fun j => if leads j then some (grp j).1 else none)
      (.k o.ex.c) (w / 8) n (fun j => some (if leads j then 2 ^ (w / 8) - 1 else 0)) 10
      (orFlags ((upFrom 0 n).map (fun j => if leads j then (grp j).2 else 0))))

/-! ## Memory instructions (spec/09) -/

/-- R220, R226: every load, store and synchronisation access computes g[b] plus its displacement; an address that is no multiple of its size faults
ALIGN, then a failing translation faults with what it says, and remote memory or no target faults PERM, before anything else happens. -/
def Obligations.AccessFaults : Prop :=
  ∀ (s : State) (gd : Guard) (t b d : Nat) (x : Option Nat),
    let ea (n : Nat) : Nat := (s.me.rg b + (match x with
      | none => (BitVec.ofNat 8 d).signExtend 64 * BitVec.ofNat 64 n | some e => (BitVec.ofNat 39 (e * 256 + d)).signExtend 64)).toNat
    let faults (i : Instr) (n acc : Nat) : Prop := Ready i s ∧ s.me.loads.any (fun l => l.acq) = false →
      (ea n % n ≠ 0 → Traps i s 5 0 (ea n)) ∧
      (∀ e, ea n % n = 0 → s.xlate s.cur s.me.csr.partid.toNat (ea n) acc = .error e → Traps i s e.code e.cause e.addr) ∧
      (∀ r, ea n % n = 0 → s.xlate s.cur s.me.csr.partid.toNat (ea n) acc = .ok r → (paKind r.pa = .remote ∨ paKind r.pa = .none) →
        Traps i s 7 2 (ea n))
    faults (.ldB gd t b d x) 1 accR ∧ faults (.ldBs gd t b d x) 1 accR ∧ faults (.ldH gd t b d x) 2 accR ∧ faults (.ldHs gd t b d x) 2 accR ∧
    faults (.ldW gd t b d x) 4 accR ∧ faults (.ldWs gd t b d x) 4 accR ∧ faults (.ldD gd t b d x) 8 accR ∧ faults (.ldv gd t b d x) 128 accR ∧
    faults (.stB gd t b d x) 1 accW ∧ faults (.stH gd t b d x) 2 accW ∧ faults (.stW gd t b d x) 4 accW ∧ faults (.stD gd t b d x) 8 accW ∧
    faults (.stv gd t b d x) 128 accW ∧ faults (.ldx gd t b d x) 8 accR ∧ faults (.acq gd t b d x) 8 accR ∧ faults (.rel gd t b d x) 8 accW

/-- R227, R228, R80: a load from memory that no region covers waits for its bytes under its register, which is pending from then on, a result in
flight to it being cancelled; the sign-extending forms say from how many bytes. Memory is read when the data arrive. R227, R228, R223, R344: a store
outside every region leaves for its physical address with the low bytes of its register, a read-only L0 copy of the line taking them too; tables
made from those bytes become stale. Memory itself changes when the store is performed. -/
def Obligations.PlainLoadsAndStores : Prop :=
  (∀ (s : State) (gd : Guard) (t b d : Nat) (x : Option Nat),
     let part := s.me.csr.partid.toNat
     let loads (i : Instr) (dst : Dest) (n sx : Nat) : Prop := ∀ r, ReadyL i s →
       let a := s.me.ea b d x n
       a % n = 0 → s.xlate s.cur part a accR = .ok r → (paKind r.pa = .localHbm ∨ paKind r.pa = .host) →
       (paKind r.pa = .localHbm → ∀ k, k < n → s.regionOf part (a + k) = none) →
       DoesTo i s ((s.reXlate s.cur part a).updMe (fun c => { c with
         fly := c.fly.filter (fun f => f.dest != dst)
         loads := c.loads ++ [⟨dst, (upFrom 0 n).map (fun q => .mem (r.pa + q) (a + q)), sx, none, c.nextSeq, true, false⟩]
         nextSeq := c.nextSeq + 1 }))
     loads (.ldB gd t b d x) (s.me.dg t) 1 0 ∧ loads (.ldBs gd t b d x) (s.me.dg t) 1 1 ∧ loads (.ldH gd t b d x) (s.me.dg t) 2 0 ∧
     loads (.ldHs gd t b d x) (s.me.dg t) 2 2 ∧ loads (.ldW gd t b d x) (s.me.dg t) 4 0 ∧ loads (.ldWs gd t b d x) (s.me.dg t) 4 4 ∧
     loads (.ldD gd t b d x) (s.me.dg t) 8 0 ∧ loads (.ldv gd t b d x) (.v t) 128 0) ∧
  (∀ (s : State) (gd : Guard) (t b d : Nat) (x : Option Nat),
     let part := s.me.csr.partid.toNat
     let stores (i : Instr) (n : Nat) (l : List Byte) : Prop := ∀ r, ReadyL i s →
       let a := s.me.ea b d x n
       a % n = 0 → s.xlate s.cur part a accW = .ok r → (paKind r.pa = .localHbm ∨ paKind r.pa = .host) →
       (paKind r.pa = .localHbm → ∀ k, k < n → s.regionOf part (a + k) = none) →
       let out (s : State) : State := if n = 128 then (s.storePort s.cur r.pa a (l.take 64)).storePort s.cur (r.pa + 64) (a + 64) (l.drop 64)
         else s.storePort s.cur r.pa a l
       DoesTo i s ((out (s.clean.reXlate s.cur part a)).staleStore (clusterOf s.cur) part r.pa n)
     stores (.stB gd t b d x) 1 (toBytes 1 (s.me.rg t).toNat) ∧ stores (.stH gd t b d x) 2 (toBytes 2 (s.me.rg t).toNat) ∧
     stores (.stW gd t b d x) 4 (toBytes 4 (s.me.rg t).toNat) ∧ stores (.stD gd t b d x) 8 (toBytes 8 (s.me.rg t).toNat) ∧
     stores (.stv gd t b d x) 128 (toBytes 128 (s.me.rv t).toNat))

/-- R235, R236, R221: a store of the core's memory port comes to its points in turn, each time that no earlier access to its bytes holds it back:
the port of its cluster; for host memory the host port; and its point of coherence, where it writes exactly its bytes, every other byte of memory
reads as before, and it leaves the port. R80, R227, R236: the data of a load that may return land in its register, which is pending no longer: the
bytes bound already, or those of memory under the earlier stores of the core and of its cluster, sign-extended where the form says so. Each
completes, with a next state that its clause gives under conditions on the state and the operands alone: storePerformed, loadDataArrival. -/
def Obligations.AccessesPerformed : Prop :=
  (∀ (s : State) (k n i m seq pa gva : Nat) (l : List Byte),
     let o (p : PortAt) : MemOp := .store seq pa gva l p
     let at_ (p : PortAt) : Prop := (s.core k).mq[n]? = some (o p)
     let moves (p : PortAt) : Prop := ∃ t, exec (.storePerformed k n) s = .next t ∧
       t.core k = { s.core k with mq := (s.core k).mq.set n (o p) } ∧ (∀ j, j ≠ k → t.core j = s.core j) ∧ t.mem = s.mem ∧ t.clock = s.clock + 1
     let lands : Prop := ∃ t, exec (.storePerformed k n) s = .next t ∧ t.bytes pa l.length = l ∧
       (∀ a, a < pa ∨ pa + l.length ≤ a → t.byte a = s.byte a) ∧
       t.core k = { s.core k with mq := (s.core k).mq.eraseIdx n } ∧ (∀ j, j ≠ k → t.core j = s.core j)
     (at_ .core → s.mayPerform k (o .core) = true → moves (.cluster s.clock)) ∧
     (at_ (.cluster i) → s.behind (clusterOf k) (some i) (o (.cluster i)) = false → s.mayInject (s.core k).csr.partid.toNat pa = true →
       (paKind pa = .host → moves (.host i s.clock)) ∧ (paKind pa ≠ .host → lands)) ∧
     (at_ (.host i m) → s.hostBehind m (o (.host i m)) = false → lands)) ∧
  (∀ (s : State) (k n : Nat) (l : PLoad),
     (s.core k).loads[n]? = some l → s.mayReturn k l = true →
     (∀ a v, LSrc.mem a v ∈ l.src → s.mayInject (s.core k).csr.partid.toNat a = true) →
     ∃ t, exec (.loadDataArrival k n) s = .next t ∧
       t.core k = { (s.core k).write l.dest (s.loadVal k l) l.mask with loads := (s.core k).loads.eraseIdx n } ∧
       (∀ j, j ≠ k → t.core j = s.core j) ∧ (∀ a, t.byte a = s.byte a))

/-- R222 to R224, R227, R228: within a region, a load that hits takes its bytes from the L0 line, and a store that hits makes the line DIRTY,
records its bytes in WMASK and changes no memory; either way the line becomes the most recent of its set. A miss fills the line CLEAN first, a
read-only copy going before. LDV and STV use two lines. While an earlier access of the core to the line is still to reach memory, the bundle stalls.
R224: filling a line writes its DIRTY victim back to its point of coherence: the bytes of WMASK change there and no others, and the line of the
address is in L0 with the bytes of memory under the stores of the core and of its cluster's port. -/
def Obligations.RegionLines : Prop :=
  (∀ (s : State) (gd : Guard) (t b d w w2 : Nat) (x : Option Nat) (r : Xr),
     let part := s.me.csr.partid.toNat
     let o := r.pa % 64
     let gone (c : Core) : Core := match c.findLine r.pa with | some w => c.dropLine w | none => c
     let v := (gone s.me).victimLine r.pa
     let hit (pa w : Nat) : Prop := s.me.findLine pa = some w ∧ (s.me.line w).st ≠ .ro
     let miss : Prop := ∀ w, s.me.findLine r.pa = some w → (s.me.line w).st = .ro
     let filled (a : Nat) : State := ((s.clean.reXlate s.cur part a).updMe gone).fillLine s.cur r.pa .clean
     let pend (dst : Dest) (n sx : Nat) (data : List Byte) (c : Core) : Core := { c with
       fly := c.fly.filter (fun f => f.dest != dst)
       loads := c.loads ++ [⟨dst, ((data.drop o).take n).map .known, sx, none, c.nextSeq, true, false⟩], nextSeq := c.nextSeq + 1 }
     let put (w at_ : Nat) (l : List Byte) (c : Core) : Core := c.setLine w { c.line w with
       st := .dirty, data := spliceBytes (c.line w).data at_ l, wmask := (c.line w).wmask ||| (2 ^ l.length - 1) * 2 ^ at_ }
     let mine (i : Instr) (n acc : Nat) : Prop := let a := s.me.ea b d x n
       a % n = 0 ∧ paKind r.pa = .localHbm ∧ (s.regionOf part a).isSome = true ∧ s.xlate s.cur part a acc = .ok r ∧ ReadyL i s
     let loads (i : Instr) (dst : Dest) (n sx : Nat) : Prop := let a := s.me.ea b d x n
       mine i n accR → (s.lineBusy s.cur r.pa = true → Stalls i s) ∧
         (s.lineBusy s.cur r.pa = false → hit r.pa w →
           DoesTo i s ((s.reXlate s.cur part a).updMe (fun c => pend dst n sx (c.line w).data (c.touchLine w)))) ∧
         (s.lineBusy s.cur r.pa = false → miss → DoesTo i s ((filled a).updMe (fun c => pend dst n sx (c.line v).data c)))
     let stores (i : Instr) (n : Nat) : Prop := let a := s.me.ea b d x n
       let l := toBytes n (s.me.rg t).toNat
       let out (u : State) : State := u.staleStore (clusterOf s.cur) part r.pa n
       mine i n accW → (s.lineBusy s.cur r.pa = true → Stalls i s) ∧
         (s.lineBusy s.cur r.pa = false → hit r.pa w →
           DoesTo i s (out ((s.clean.reXlate s.cur part a).updMe (fun c => put w o l (c.touchLine w))))) ∧
         (s.lineBusy s.cur r.pa = false → miss → DoesTo i s (out ((filled a).updMe (put v o l))))
     let a := s.me.ea b d x 128
     let both : Prop := (s.regionOf part (a + 64)).isSome = true ∧ s.lineBusy s.cur r.pa = false ∧ s.lineBusy s.cur (r.pa + 64) = false ∧
       hit r.pa w ∧ hit (r.pa + 64) w2
     let two (c : Core) : Core := (c.touchLine w).touchLine w2
     let l := toBytes 128 (s.me.rv t).toNat
     loads (.ldB gd t b d x) (s.me.dg t) 1 0 ∧ loads (.ldBs gd t b d x) (s.me.dg t) 1 1 ∧ loads (.ldH gd t b d x) (s.me.dg t) 2 0 ∧
     loads (.ldHs gd t b d x) (s.me.dg t) 2 2 ∧ loads (.ldW gd t b d x) (s.me.dg t) 4 0 ∧ loads (.ldWs gd t b d x) (s.me.dg t) 4 4 ∧
     loads (.ldD gd t b d x) (s.me.dg t) 8 0 ∧ stores (.stB gd t b d x) 1 ∧ stores (.stH gd t b d x) 2 ∧ stores (.stW gd t b d x) 4 ∧
     stores (.stD gd t b d x) 8 ∧
     (mine (.ldv gd t b d x) 128 accR → both → DoesTo (.ldv gd t b d x) s ((s.reXlate s.cur part a).updMe (fun c =>
       pend (.v t) 128 0 ((c.line w).data.take 64 ++ (c.line w2).data.take 64) (two c)))) ∧
     (mine (.stv gd t b d x) 128 accW → both → DoesTo (.stv gd t b d x) s (((s.clean.reXlate s.cur part a).updMe (fun c =>
       put w2 0 (l.drop 64) ((put w 0 (l.take 64) (c.touchLine w)).touchLine w2))).staleStore (clusterOf s.cur) part r.pa 128))) ∧
  (∀ (s : State) (k pa : Nat) (st : L0St),
     let w := (s.core k).victimLine pa
     let l := (s.core k).line w
     let u := s.fillLine k pa st
     (∀ a, u.byte a = if l.st = .dirty ∧ l.tag * 64 ≤ a ∧ a < l.tag * 64 + l.data.length ∧ bitOf l.wmask (a - l.tag * 64)
       then nth l.data (a - l.tag * 64) 0 else s.byte a) ∧
     ((u.core k).line w).st = st ∧ ((u.core k).line w).tag = pa / 64 ∧ ((u.core k).line w).wmask = 0 ∧ ((u.core k).line w).lru = 0 ∧
     ((u.core k).line w).data = u.portBytes k (u.core k).nextSeq (pa / 64 * 64) 64 ∧ (u.core k).mq = (s.core k).mq ∧
     (∀ j, j ≠ k → u.core j = s.core j))

/-- R229: GATH and SCAT access g[b] plus each enabled lane's index, scaled or not; a faulting lane faults the whole instruction at the earliest
check, the lowest lane first; otherwise GATH waits for its lanes under v[t], and SCAT's lanes are stored in ascending order. A lane whose region
line an earlier access of the core has still to reach stalls the bundle. -/
def Obligations.GatherScatter : Prop :=
  ∀ (s : State) (gd : Guard) (t b vx k es sc : Nat),
    let n := 2 ^ es
    let l := lanesOf s.me b vx k es sc
    let g := Instr.gath gd t b vx k es sc
    let c := Instr.scat gd t b vx k es sc
    let r := gathLanes s.clean n (upFrom 0 (128 / n)) l
    (∀ p, p ∈ l → bitOf (s.me.rk k).toNat (p.1 * (8 * n) / 8) = true ∧
      p.2 = (s.me.rg b + (BitVec.ofNat (8 * n) (lane s vx (8 * n) p.1)).signExtend 64 * (if sc = 1 then BitVec.ofNat 64 n else 1)).toNat) ∧
    (∀ e, laneFault s n accR l = some e → ReadyL g s → Traps g s e.code e.cause e.addr) ∧
    (∀ e, laneFault s n accW l = some e → ReadyL c s → Traps c s e.code e.cause e.addr) ∧
    (laneFault s n accR l = none → lanesBusy s n accR l = true → ReadyL g s → Stalls g s) ∧
    (laneFault s n accW l = none → lanesBusy s n accW l = true → ReadyL c s → Stalls c s) ∧
    (laneFault s n accR l = none → lanesBusy s n accR l = false → ReadyL g s →
      DoesTo g s (r.1.addLoad s.cur (.v t) r.2 0 (some (l.foldl (fun m x => m + (2 ^ (8 * n) - 1) * 2 ^ (8 * n * x.1)) 0)))) ∧
    (laneFault s n accW l = none → lanesBusy s n accW l = false → ReadyL c s →
      DoesTo c s (l.foldl (fun q p => match q.access p.2 n accW with
        | .ok pa => q.storeBytes p.2 pa (toBytes n (lane s t (8 * n) p.1))
        | .error _ => q) s.clean))

/-- R230: LDX returns a hit on any line of L0 and otherwise fills one, read-only outside a region and CLEAN inside; LDXINV drops the read-only line
of its address and LDXINV.ALL every read-only line. An LDX of a local line that an earlier access of the core has still to reach stalls. That a line
filled inside a region is CLEAN is the model's reading (log entry 25). R231, R232, R74: SLD reads the header bytes of e[t]'s format, outside a
region those of memory, and lands them in bits 15:0 six steps later; PREF brings a region line into L0 and nothing else changes, PREF.LLC and IDLE
have no effect. A line that an earlier access of the core has still to reach makes SLD stall and PREF do nothing. That SLD's bytes are those at its
commit is the model's reading (log entry 62). -/
def Obligations.ReadOnlyAndScaleLoads : Prop :=
  (∀ (s : State) (gd : Guard) (t b d : Nat) (x : Option Nat) (r : Xr),
     let part := s.me.csr.partid.toNat
     let a := s.me.ea b d x 8
     let u := (s.clean.loadX s.cur part a r.pa 8)
     (ReadyL (.ldx gd t b d x) s → a % 8 = 0 → s.xlate s.cur part a accR = .ok r → paKind r.pa = .localHbm → s.lineBusy s.cur r.pa = true →
       Stalls (.ldx gd t b d x) s) ∧
     (ReadyL (.ldx gd t b d x) s → a % 8 = 0 → s.xlate s.cur part a accR = .ok r →
       (paKind r.pa = .localHbm ∧ s.lineBusy s.cur r.pa = false ∨ paKind r.pa = .host) →
       DoesTo (.ldx gd t b d x) s (u.1.addLoad s.cur (s.me.dg t) u.2 0 none)) ∧
     (ReadyL (.ldxinv gd b d x) s → DoesTo (.ldxinv gd b d x) s (match s.lineOfGva s.cur part (s.me.ea b d x 64) with
       | none => s
       | some pa => match s.me.findLine pa with
         | none => s
         | some w => if (s.me.line w).st = .ro then s.updMe (fun c => c.dropLine w) else s)) ∧
     (ReadyL (.ldxinvAll gd) s → DoesTo (.ldxinvAll gd) s (s.clean.dropLines s.cur (fun l => l.st == .ro)))) ∧
  (∀ (s : State) (gd : Guard) (t b d : Nat) (x : Option Nat) (r : Xr),
     let part := s.me.csr.partid.toNat
     let n := if fld (s.me.re t).toNat 16 4 = 8 ∨ fld (s.me.re t).toNat 16 4 = 9 ∨ fld (s.me.re t).toNat 16 4 = 10 then 2 else 1
     let a := s.me.ea b d x n
     let p := s.me.ea b d x 64
     (ReadyL (.sld gd t b d x) s → a % n = 0 → s.xlate s.cur part a accR = .ok r → (paKind r.pa = .localHbm ∨ paKind r.pa = .host) →
       (paKind r.pa = .localHbm → s.regionOf part a = none) → s.lineBusy s.cur r.pa = false →
       ∃ u, exec (.sld gd t b d x) s = .next u ∧ Commits (.sld gd t b d x) s (s.reXlate s.cur part a) u ∧
         Flies s u [⟨.e t, ofBytes ((upFrom r.pa n).map (fun q => s.portByte s.cur s.me.nextSeq q)), some 0xFFFF, 5⟩]) ∧
     (ReadyL (.sld gd t b d x) s → a % n = 0 → s.xlate s.cur part a accR = .ok r → (paKind r.pa = .localHbm ∨ paKind r.pa = .host) →
       s.lineBusy s.cur r.pa = true → Stalls (.sld gd t b d x) s) ∧
     (ReadyL (.sld gd t b d x) s → a % n ≠ 0 → Traps (.sld gd t b d x) s 5 0 a) ∧
     (ReadyL (.pref gd b d x) s → (∀ q, s.xlate s.cur part p accR = .ok q → paKind q.pa = .localHbm → s.regionOf part p = none) →
       DoesTo (.pref gd b d x) s s) ∧
     (ReadyL (.pref gd b d x) s → s.xlate s.cur part p accR = .ok r → paKind r.pa = .localHbm → (s.regionOf part p).isSome = true →
       DoesTo (.pref gd b d x) s (match s.me.findLine r.pa with
         | some w => s.updMe (fun c => c.touchLine w)
         | none => if s.lineBusy s.cur r.pa then s else s.clean.fillLine s.cur r.pa .clean)) ∧
     (ReadyL (.prefLlc gd b d x) s → DoesTo (.prefLlc gd b d x) s s) ∧
     (ReadyL (.idleL gd) s → DoesTo (.idleL gd) s s))

/-- R233: ACQ asks the word's home, its register pending until the answer; REL, once the core's earlier accesses are performed, sends its value
there. An address that is no region's word faults PERM, cause 4. -/
def Obligations.AcquireRelease : Prop :=
  ∀ (s : State) (gd : Guard) (t b d : Nat) (x : Option Nat) (r : Xr),
    let part := s.me.csr.partid.toNat
    let a := s.me.ea b d x 8
    let word := s.regionWord part a
    let ok := paKind r.pa = .localHbm ∨ paKind r.pa = .host
    let still := s.deviceDone s.cur = true ∧ s.me.loads.any PLoad.outside = false
    a % 8 = 0 → ok →
    (ReadyL (.acq gd t b d x) s → s.xlate s.cur part a accR = .ok r → word.isSome = true →
      DoesTo (.acq gd t b d x) s ((s.updMe (fun c => { c with
        fly := c.fly.filter (fun f => f.dest != s.me.dg t), loads := c.loads ++ [⟨s.me.dg t, [], 0, none, c.nextSeq, false, true⟩],
        nextSeq := c.nextSeq + 1 })).send (.acq s.cur part a r.pa))) ∧
    (ReadyL (.acq gd t b d x) s → s.xlate s.cur part a accR = .ok r → word = none → Traps (.acq gd t b d x) s 7 4 a) ∧
    (ReadyL (.rel gd t b d x) s → s.xlate s.cur part a accW = .ok r → word.isSome = true → still →
      DoesTo (.rel gd t b d x) s (s.send (.rel s.cur part a r.pa (s.me.rg t).toNat))) ∧
    (ReadyL (.rel gd t b d x) s → s.xlate s.cur part a accW = .ok r → word.isSome = true → ¬ still → Stalls (.rel gd t b d x) s) ∧
    (ReadyL (.rel gd t b d x) s → s.xlate s.cur part a accW = .ok r → word = none → Traps (.rel gd t b d x) s 7 4 a)

/-- R234, R246, R177: TRD reads a window of a resident frame under v[t], of bits that a running command of the cluster is to write a free value
each; TWR writes a window of a frame that may be written, and every table made from it and every running command that reads it see that. Each faults
as the checks of its window say, a TWR with PERM too where a page of its window denies W (R357), stalls while its tile is not at hand, and faults as
its tile's fill path did. Each completes, with a next state that its clause gives under conditions on the state and the operands alone: trd, twr. -/
def Obligations.FrameAccess : Prop :=
  ∀ (s : State) (gd : Guard) (t b d : Nat) (x : Option Nat),
    let tl := tileOf s.me.csr.partid.toNat (s.me.rg b).toNat
    let ds := s.desc tl.part tl.tid
    let cl := clusterOf s.cur
    let rd := Instr.trd gd t b d x
    let wr := Instr.twr gd t b d x
    let none' (c : Core) : Core := { c with tcWait := none, tcFlt := none }
    let torn := s.beingWritten cl tl 768 0
    let data := torn.foldl (fun m w => tearBits m w.1 w.2 (s.freeCtr + w.1)) (s.frameData cl tl)
    let waits (i : Instr) : Prop := ∃ u, exec i s = .next u ∧ u.me.stalled = true ∧ u.me.tcWait = some tl ∧ u.me.pc = s.me.pc ∧
      u.me.regs = s.me.regs ∧ u.mem = s.mem
    (∀ e, tileWindow ds tl (dispL d x 128) false = .error e → ReadyL rd s → Traps rd s e.code e.cause e.addr) ∧
    (∀ e, tileWindow ds tl (dispL d x 128) true = .error e → ReadyL wr s → Traps wr s e.code e.cause e.addr) ∧
    (∀ wd, tileWindow ds tl (dispL d x 128) false = .ok wd → s.me.tcFlt = none → (s.hit cl tl).isSome = true → ReadyL rd s →
      DoesTo rd s (((s.updMe none').addLoad s.cur (.v t) ((toBytes 128 (wd.read ds data)).map .known) 0 none).draw
        (if torn.isEmpty then 0 else 139264))) ∧
    (∀ wd, tileWindow ds tl (dispL d x 128) true = .ok wd → s.me.tcFlt = none → windowDenied s ds tl wd = true → ReadyL wr s →
      Traps wr s 7 1 tl.q) ∧
    (∀ wd, tileWindow ds tl (dispL d x 128) true = .ok wd → s.me.tcFlt = none → windowDenied s ds tl wd = false → s.mayWrite cl tl = true →
      ReadyL wr s → DoesTo wr s ((s.clean.updMe none').writeWindow cl ds tl wd (s.me.rv t).toNat)) ∧
    (∀ wd, tileWindow ds tl (dispL d x 128) false = .ok wd → s.me.tcFlt = none → s.hit cl tl = none → ReadyL rd s → waits rd) ∧
    (∀ wd, tileWindow ds tl (dispL d x 128) true = .ok wd → s.me.tcFlt = none → windowDenied s ds tl wd = false → s.mayWrite cl tl = false →
      ReadyL wr s → waits wr) ∧
    (∀ wd e, tileWindow ds tl (dispL d x 128) false = .ok wd → s.me.tcWait = some tl → s.me.tcFlt = some e → ReadyL rd s →
      Traps rd s e.code e.cause tl.q) ∧
    (∀ wd e, tileWindow ds tl (dispL d x 128) true = .ok wd → s.me.tcWait = some tl → s.me.tcFlt = some e → ReadyL wr s →
      Traps wr s e.code e.cause tl.q)

/-- R267, R268, R271: AMO and CAS at local memory leave for their slice, a returning one's destinations pending, and their line leaves L0; at host
memory the bundle stalls until the operation is done, and its old value lands one step later. -/
def Obligations.Atomics : Prop :=
  ∀ (s : State) (gd : Guard) (t b d opc sz r c : Nat) (x : Xr),
    let part := s.me.csr.partid.toNat
    let m := if sz = 1 then 8 else 4
    let n := 4 * 2 ^ sz
    let w (k : Nat) (q : Nat) : Nat := if k = 16 then (s.me.rg q).toNat + 2 ^ 64 * (s.me.rg (q + 1)).toNat else (s.me.rg q).toNat % 2 ^ (8 * k)
    let pair : List Dest := if n = 16 then [s.me.dg t, s.me.dg (t + 1)] else [s.me.dg t]
    let runs (i : Instr) (k opc cmp : Nat) (dests : List Dest) : Prop := ReadyL i s →
      let a := s.me.ea b d none k
      (s.me.hostAt = .none → a % k ≠ 0 → Traps i s 5 0 a) ∧
      (s.me.hostAt = .none → a % k = 0 → s.xlate s.cur part a 3 = .ok x → paKind x.pa = .localHbm →
        DoesTo i s (s.clean.amoOut x.pa a k opc (w k r) cmp dests)) ∧
      (s.me.hostAt = .none → a % k = 0 → s.xlate s.cur part a 3 = .ok x → paKind x.pa = .host →
        (Config.hostAtomics = false → Traps i s 0x10 2 a) ∧
        (Config.hostAtomics = true → ∃ u, exec i s = .next u ∧ CoreOnly s u ∧
          u.me = Core.stall { s.me with hostAt := .asked x.pa k opc (w k r) cmp })) ∧
      (∀ p n o y z, s.me.hostAt = .asked p n o y z → Stalls i s) ∧
      (∀ old, s.me.hostAt = .done old →
        ∃ u, exec i s = .next u ∧ CoreOnly s u ∧ u.me.hostAt = .none ∧ u.me.loads = s.me.loads ∧ u.me.fly = s.me.age.fly ∧
          u.me.regs = ((dests.zip [old % 2 ^ 64, old / 2 ^ 64 % 2 ^ 64]).foldl (fun c p => c.write p.1 p.2 none) s.me.age).regs) ∧
      (s.me.hostAt = .failed → Traps i s 0x10 1 a)
    runs (.amo gd t b d opc sz r) m opc 0 (if t = 0 then [] else [s.me.dg t]) ∧ runs (.cas gd t b d sz r c) n 16 (w n c) pair

/-! ## Engine commands (spec/07, spec/08, spec/10, spec/13) -/

/-- R174 to R188, R326 to R343: each M slot enqueues its command with its registers read as the bundle began. FLTADDR 0 of its TOKEN fault is log
entry 8. -/
def Obligations.MatrixCommands : Prop :=
  ∀ (s : State) (gd : Guard) (e : Edge) (d qa qb sa ta tb z kb0 kbn pa pb mask q t part rm dist gs one w cst cnm1 pm f cnt : Nat),
    let rq (n : Nat) : Nat := (s.me.rq n).toNat
    let rg (n : Nat) : Nat := (s.me.rg n).toNat
    let o : Guard := ⟨0, 0⟩
    let queues (i x : Instr) (args : List Nat) : Prop := Ready i s → Enqueues i s e x args false false id
    queues (.mma gd e d qa qb sa ta tb z kb0 kbn pa pb) (.mma o e d qa qb sa ta tb z kb0 kbn pa pb) [if sa = 1 then 0 else rq qa, rq qb] ∧
    queues (.mzero gd e mask) (.mzero o e mask) [] ∧
    queues (.mlda gd e d q t part) (.mlda o e d q t part) [rq q] ∧
    queues (.msta gd e d q t part rm dist) (.msta o e d q t part rm dist) [rq q] ∧
    queues (.msclFill gd e d gs) (.msclFill o e d gs) [rg gs] ∧
    queues (.msclDiag gd e d gs) (.msclDiag o e d gs) [rg gs] ∧
    queues (.msclMul gd e d gs) (.msclMul o e d gs) [rg gs] ∧
    queues (.mtriLi gd e d gs one) (.mtriLi o e d gs one) [rg gs] ∧
    queues (.mtriLs gd e d gs one) (.mtriLs o e d gs one) [rg gs] ∧
    queues (.mtriUi gd e d gs one) (.mtriUi o e d gs one) [rg gs] ∧
    queues (.mtriUs gd e d gs one) (.mtriUs o e d gs one) [rg gs] ∧
    queues (.tbuild gd e z q pa kb0 t w) (.tbuild o e z q pa kb0 t w) [rq q] ∧
    queues (.tlook gd e d z q kb0 cst cnm1 pm) (.tlook o e d z q kb0 cst cnm1 pm) [rq q] ∧
    queues (.tlookR gd e d z q kb0 cst cnm1 pm) (.tlookR o e d z q kb0 cst cnm1 pm) [rq q] ∧
    queues (.zsave gd e z f q gs) (.zsave o e z f q gs) [if f = 1 then rq q else rg gs] ∧
    queues (.zload gd e z f q gs) (.zload o e z f q gs) [if f = 1 then rq q else rg gs] ∧
    queues (.zinv gd e mask) (.zinv o e mask) [] ∧
    queues (.cbld gd e w gs cnt) (.cbld o e w gs cnt) [rg gs]

/-- R253 to R261, R280: each X slot of the tile cache, the copy engine, the channels, the descriptor unit and the task unit enqueues its command
with its registers read as the bundle began. FLTADDR 0 of its TOKEN fault is log entry 8. -/
def Obligations.TileAndTaskCommands : Prop :=
  ∀ (s : State) (gd : Guard) (e : Edge) (q hint set clr ax nm1 qs qd t gs opr ver s0 ix dm1 ch gt ga : Nat),
    let rq (n : Nat) : Nat := (s.me.rq n).toNat
    let rg (n : Nat) : Nat := (s.me.rg n).toNat
    let o : Guard := ⟨0, 0⟩
    let queues (i x : Instr) (args : List Nat) : Prop := Ready i s → Enqueues i s e x args false false id
    queues (.tfetch gd e q hint) (.tfetch o e q hint) [rq q] ∧
    queues (.thint gd e q set clr) (.thint o e q set clr) [rq q] ∧
    queues (.tinv gd e q ax nm1) (.tinv o e q ax nm1) [rq q] ∧
    queues (.tcopy gd e qs qd t) (.tcopy o e qs qd t) [rq qs, rq qd] ∧
    queues (.tcopyMem gd e qs t gs) (.tcopyMem o e qs t gs) [rq qs, rg gs] ∧
    queues (.tred gd e qs qd opr) (.tred o e qs qd opr) [rq qs, rq qd] ∧
    queues (.tgath gd e qd qs gs nm1) (.tgath o e qd qs gs nm1) [rq qd, rq qs, rg gs] ∧
    queues (.tscat gd e qs qd gs nm1) (.tscat o e qs qd gs nm1) [rq qs, rq qd, rg gs] ∧
    queues (.tacq gd e q ver) (.tacq o e q ver) [rq q] ∧
    queues (.trel gd e q) (.trel o e q) [rq q] ∧
    queues (.itin gd e s0 ix dm1) (.itin o e s0 ix dm1) [] ∧
    queues (.itstep gd e s0 q) (.itstep o e s0 q) [] ∧
    queues (.chsend gd e ch q) (.chsend o e ch q) [rq q] ∧
    queues (.chrecv gd e ch q) (.chrecv o e ch q) [rq q] ∧
    queues (.desc gd e gt ga) (.desc o e gt ga) [rg gt, rg ga] ∧
    queues (.tspawn gd e ga) (.tspawn o e ga) [rg ga] ∧
    queues (.tdec gd e ga) (.tdec o e ga) [rg ga] ∧
    queues (.tdecb gd e ga) (.tdecb o e ga) [rg ga] ∧
    queues (.tdecbArm gd e ga gs) (.tdecbArm o e ga gs) [rg ga, rg gs]

/-- R263, R265: a fabric slot faults ALIGN on an address that is no multiple of 8, then as its translation says, and PERM, cause 2, on one that is
not remote; it enqueues its request with the remote address, and waits while 8 of the core's requests to the device are outstanding. That these
faults come before TOKEN is log entry 39, FLTADDR 0 of TOKEN log entry 8. -/
def Obligations.FabricCommands : Prop :=
  ∀ (s : State) (gd : Guard) (e : Edge) (d ga gs : Nat),
    let a := (s.me.rg ga).toNat
    let v := (s.me.rg gs).toNat
    let o : Guard := ⟨0, 0⟩
    let part := s.me.csr.partid.toNat
    let asks (i x : Instr) (acc val : Nat) (hb : Bool) : Prop := Ready i s →
      (a % 8 ≠ 0 → Traps i s 5 0 a) ∧
      (∀ f, a % 8 = 0 → s.xlate s.cur part a acc = .error f → Traps i s f.code f.cause f.addr) ∧
      (∀ r, a % 8 = 0 → s.xlate s.cur part a acc = .ok r → paKind r.pa ≠ .remote → Traps i s 7 2 a) ∧
      (∀ r, a % 8 = 0 → s.xlate s.cur part a acc = .ok r → paKind r.pa = .remote →
        Enqueues i s e x [r.pa, val] hb (decide (8 ≤ (s.me.toDev (fld r.pa 39 13)).length)) (fun u => u.reXlate s.cur part a))
    asks (.rld gd e d ga) (.rld o e d ga) accR 0 (s.me.bank d) ∧
    asks (.rst gd e ga gs) (.rst o e ga gs) accW v false ∧
    asks (.rfaa gd e d ga gs) (.rfaa o e d ga gs) (accR + accW) v (s.me.bank d) ∧
    asks (.rtdec gd e ga) (.rtdec o e ga) (accR + accW) 0 false ∧
    asks (.rfence gd e ga) (.rfence o e ga) 0 0 false ∧
    asks (.rfenceFStore gd e ga gs) (.rfenceFStore o e ga gs) (accR + accW) v false ∧
    asks (.rfenceFDec gd e ga) (.rfenceFDec o e ga) (accR + accW) 0 false

/-- R109, R249, R250: an enqueued command is the last of its core's, waits for the latest producers of the PENDING tokens it consumes or produces,
and its token is PENDING with it as the latest producer; the tokens it consumes have been used. Nothing else of the machine changes. -/
def Obligations.EnqueuedCommand : Prop :=
  ∀ (s : State) (x : Instr) (e : Edge) (args : List Nat) (hb : Bool),
    let u := s.enqueue s.me x e args hb
    (∃ c : Cmd, u.me.cmds = s.me.cmds ++ [c] ∧ c.ins = x ∧ c.args = args ∧ c.tp = e.tp ∧ c.st = .queued ∧ c.id = s.clock ∧ c.fail.isSome =
        ((consumed e ++ [e.tp]).any (fun n => (s.me.tok n).st == .error && (s.me.tok n).flt.isSome) &&
          ((lowest ((consumed e ++ [e.tp]).filter (fun n => (s.me.tok n).st == .error))).bind (fun n => (s.me.tok n).flt)).isSome) ∧
      (∀ n p, n ∈ consumed e ++ [e.tp] → (s.me.tok n).st = .pending → (s.me.tok n).latest = some p → p ∈ c.deps) ∧
      (∀ p ∈ c.deps, ∃ n ∈ consumed e ++ [e.tp], (s.me.tok n).st = .pending ∧ (s.me.tok n).latest = some p)) ∧
    u.me.tok e.tp = ⟨.pending, none, some s.clock, false⟩ ∧
    (∀ n, n ≠ e.tp → u.me.tok n = if n ∈ consumed e then { s.me.tok n with used := true } else s.me.tok n) ∧
    u.clock = s.clock + 1 ∧ u = { s with cores := u.cores, clock := u.clock } ∧ (∀ k, k ≠ s.cur → u.core k = s.core k) ∧
    u.me = { s.me with toks := u.me.toks, cmds := u.me.cmds }

/-- R183, R184: the completion of MZERO clears the accumulators of its mask; of MSCL.FILL and MSCL.DIAG and the four forms of MTRI writes the
constant, a NaN as the canonical NaN and with ONE the value 1.0, where the form says and +0 elsewhere; of MSCL.MUL multiplies each element. Every
other accumulator keeps its value. R38, R249, R250: every running command of a core completes in a next state. One that has failed sets its token,
as its latest producer, ERROR with its fault, changes no accumulator and no byte of memory and raises no flag; a command that waited for it fails
with the same fault, chained, and is still queued or has ended with its own token ERROR. A command of the matrix engine whose effect succeeds sets
its token DONE, leaves its core's queue, frees the commands that waited for it, and FPSTAT gains its flags; one whose effect fails sets it ERROR
with that fault. A superseded producer leaves the token PENDING. A ZINV empties the tables of its mask and no other. R55, R56, R179 to R187, R326 to
R343: what the other commands of the matrix engine leave when they complete, by the tiles and descriptors in force at their start. An MMA adds to
each element, from it or from +0, the block sums of its K-blocks in ascending order, each addition rounded to nearest; MLDA rounds a window to FP32;
MSTA converts an accumulator into a window of a tile without block scales, and no other element of it changes; TBUILD fills a table, by planes or by
a codebook, and its record; a lookup, which may build a stale table again first, adds its block sum to the columns of its range; ZSAVE and ZLOAD
move a table and its record, as tiles or as memory; CBLD loads a codebook and makes the tables that use it STALE. Every other accumulator, and where
nothing is stored every byte of memory, keeps its value. R201, R202, R253 to R265, R284: what the commands of the X slot leave when they complete.
TFETCH and THINT set and clear hints, and take or end a pin; a copy moves every element, and the headers of its blocks, or stores the tile's bytes;
a gather writes rows from memory, zero for the index −1 and beyond the extent, a scatter rows of the source, the last of several with one index; a
channel takes and gives a tile; a descriptor that passes its checks enters the table, and frames under the earlier one are marked; an itinerary is
armed and stepped; a counter is armed, and released where that is with 0; a remote read gives its register. TREL, TACQ and the task commands have
sent their messages where they started, and a command that fails as it completes leaves its token ERROR. -/
def Obligations.CommandCompletions : Prop :=
  (∀ (s : State) (k n d gs one mask : Nat) (x : Cmd) (gd : Guard) (e : Edge),
     (s.core k).cmds[n]? = some x → x.st = .running → x.fail = none → (s.core k).run ≠ .aborting →
     (∀ y ∈ (s.core k).cmds, y.save = none) →
     let g (o : Nat) : Nat := if o = 1 then 0x3F800000 else nth x.args 0 0 % 2 ^ 32
     let v (o : Nat) : W32 := if (decodeF 0 (g o)).isNan then 0x7FC00000 else BitVec.ofNat 32 (g o)
     let ends (f : Nat → Nat → Nat → Option W32) : Prop := ∃ t, exec (.engineCommandCompletion k n) s = .next t ∧
       (∀ a i j, a < 8 → i < 64 → j < 64 → (t.core k).ra a i j = (f a i j).getD ((s.core k).ra a i j)) ∧ (∀ p, t.byte p = s.byte p)
     let only (f : Nat → Nat → W32) (a i j : Nat) : Option W32 := if a = d then some (f i j) else none
     (x.ins = .mzero gd e mask → ends (fun a _ _ => if bitOf mask a then some 0 else none)) ∧
     (x.ins = .msclFill gd e d gs → ends (only (fun _ _ => v 0))) ∧
     (x.ins = .msclDiag gd e d gs → ends (only (fun i j => if i = j then v 0 else 0))) ∧
     (x.ins = .msclMul gd e d gs → ends (only (fun i j => BitVec.ofNat 32 (fMul 0 rne ((s.core k).ra d i j).toNat (g 0)).1))) ∧
     (x.ins = .mtriLi gd e d gs one → ends (only (fun i j => if j ≤ i then v one else 0))) ∧
     (x.ins = .mtriLs gd e d gs one → ends (only (fun i j => if j < i then v one else 0))) ∧
     (x.ins = .mtriUi gd e d gs one → ends (only (fun i j => if i ≤ j then v one else 0))) ∧
     (x.ins = .mtriUs gd e d gs one → ends (only (fun i j => if i < j then v one else 0)))) ∧
  (∀ (s : State) (k n : Nat) (x : Cmd),
     (s.core k).cmds[n]? = some x → x.st = .running → x.save = none → (x.sem k).done s = true → (s.core k).run ≠ .aborting →
     (s.core k).cmds.Pairwise (fun a b => a.id ≠ b.id) →
     let c := s.core k
     let latest := (c.tok x.tp).latest = some x.id
     let ended (t : State) (f : Option CmdFault) : Prop :=
       ((t.core k).tok x.tp = match f with
         | none => ⟨.done, none, none, (c.tok x.tp).used⟩
         | some g => ⟨.error, some g, none, (c.tok x.tp).used⟩)
     (∀ f, x.fail = some f → ∃ t, exec (.engineCommandCompletion k n) s = .next t ∧
       (latest → ended t (some f)) ∧
       (∀ y ∈ (t.core k).cmds, y.id ≠ x.id ∧ x.id ∉ y.deps) ∧ (t.core k).csr = c.csr ∧ (t.core k).regs = c.regs ∧
       (∀ y ∈ c.cmds, x.id ∈ y.deps → y.fail = none → y.save = none → y.st ≠ .running → y.id ≠ x.id →
         (∃ z ∈ (t.core k).cmds, z.id = y.id ∧ z.fail = some { f with chn := true }) ∨
         ((c.tok y.tp).latest = some y.id → (t.core k).tok y.tp = ⟨.error, some { f with chn := true }, none, (c.tok y.tp).used⟩)) ∧
       ((∀ y ∈ c.cmds, y.save = none) → ∀ p, t.byte p = s.byte p)) ∧
     (x.fail = none → executor x.ins ≤ 1 → let r := (x.sem k).effect (s.countCore k x.events)
       ∃ t, exec (.engineCommandCompletion k n) s = .next t ∧ (latest → ended t (r.2.2.map (fun f => ⟨f, x.tp, false⟩))) ∧
         (¬ latest → r.2.2 = none → (∀ y ∈ c.cmds, y.tp = x.tp → y.fail = none) → (t.core k).tok x.tp = c.tok x.tp) ∧
         (∀ y ∈ (t.core k).cmds, y.id ≠ x.id ∧ x.id ∉ y.deps) ∧
         (t.core k).csr = { c.csr with fpstat := (t.core k).csr.fpstat } ∧
         (r.2.2 = none → (t.core k).csr.fpstat = c.csr.fpstat ||| BitVec.ofNat 32 (r.2.1 % 64)) ∧
         (r.2.2 ≠ none → (t.core k).csr.fpstat = c.csr.fpstat) ∧
         (∀ gd e mask, x.ins = .zinv gd e mask → ∀ z, z < 16 → ((t.core k).zrec z).st = if bitOf mask z then .empty else (c.zrec z).st))) ∧
  (∀ (s : State) (k n d qa qb sa ta tb z kb0 kbn pa pb q tr part rm dist w mode cst cnm1 pm gs cnt : Nat) (x : Cmd) (gd : Guard) (e : Edge),
     (s.core k).cmds[n]? = some x → x.st = .running → x.fail = none → (s.core k).run ≠ .aborting → (∀ y ∈ (s.core k).cmds, y.save = none) → d < 8 →
     let c := s.core k
     let cl := clusterOf k
     let t0 := tileOf x.part (nth x.args 0 0)
     let t1 := tileOf x.part (nth x.args 1 0)
     let t2 := t0.step 0 1
     let a := nth x.args 0 0
     let D (t : Tile) : Desc := x.desc s t.tid
     let el (t : Tile) (i j : Nat) : FV := (D t).elVal (x.tile t).2 i j
     let opnd (o : Opnd) (i kk : Nat) : FV := let r := o.realBy (x.desc s)
       if r.tr then el r.tile kk (64 * o.part + i) else el r.tile (64 * o.part + i) kk
     let sum (A B : Nat → FV) (acc : Nat) : Nat := (upFrom kb0 (kbn + 1)).foldl (fun acc b =>
       (fAdd 0 rne acc (blockSum ((upFrom (32 * b) 32).map (fun kk => mulV (A kk) (B kk))) 0).1).1) acc
     let quiet (t : State) : Prop := ∀ p, t.byte p = s.byte p
     let ends (f : Nat → Nat → Nat → W32) (P : State → Prop) : Prop := ∃ t, exec (.engineCommandCompletion k n) s = .next t ∧
       (∀ a i j, a < 8 → i < 64 → j < 64 → (t.core k).ra a i j = f a i j) ∧ P t
     let into (f : Nat → Nat → Nat) (a i j : Nat) : W32 := if a = d then BitVec.ofNat 32 (f i j) else c.ra a i j
     let tables (t : State) (v : Core) (but : Nat → Prop) : Prop := ∀ y, ¬ but y → (t.core k).zrec y = v.zrec y ∧
       ∀ i g p, i < 64 → g < 8 → p < 16 → (t.core k).zent y i g p = v.zent y i g p
     let rounded (v : FV × Nat) : Nat := (encodeF 0 rne v.1).1 % 2 ^ 32
     (x.ins = .mma gd e d qa qb sa ta tb z kb0 kbn pa pb →
       let A (i kk : Nat) : FV := if sa = 1 then decodeF 0 (if ta = 0 then c.ra (qa % 8) i kk else c.ra (qa % 8) kk i).toNat
         else opnd ⟨t0, ta == 1, pa⟩ i kk
       ends (into (fun i j => sum (A i) (opnd ⟨t1, tb == 1, pb⟩ j) (if z = 1 then 0 else (c.ra d i j).toNat))) quiet) ∧
     (x.ins = .mlda gd e d q tr part →
       let r0 := 64 * (part / ((D t0).e / 64))
       let c0 := 64 * (part % ((D t0).e / 64))
       ends (into (fun i j => (encodeF 0 rne (if tr = 1 then el t0 (r0 + j) (c0 + i) else el t0 (r0 + i) (c0 + j))).1)) quiet) ∧
     (∀ key, x.ins = .msta gd e d q tr part rm dist → s.hit cl t0 = some key → (D t0).wsel = 0 → (D t0).scaled = false →
       (fmtClass (D t0).fmt).isSome = true → (D t0).winShape = true → part < (D t0).winParts →
       let r0 := 64 * (part / ((D t0).e / 64))
       let c0 := 64 * (part % ((D t0).e / 64))
       ends c.ra (fun t => quiet t ∧ ∀ i j, i < (D t0).r → j < (D t0).e → (D t0).elRaw (t.frameData cl t0) i j =
         if r0 ≤ i ∧ i < r0 + 64 ∧ c0 ≤ j ∧ j < c0 + 64 then
           (toFmt (D t0).fmt rm (if tr = 1 then c.ra d (j - c0) (i - r0) else c.ra d (i - r0) (j - c0)).toNat).1 % 2 ^ (D t0).elW
         else (D t0).elRaw (s.frameData cl t0) i j)) ∧
     (x.ins = .tbuild gd e z q pa kb0 mode w →
       let o : Opnd := ⟨t0, false, pa⟩
       let X (i g y : Nat) : FV := opnd o i (32 * kb0 + 4 * g + y)
       ends c.ra (fun t => quiet t ∧ tables t c (fun y => y = z) ∧
         (t.core k).zrec z = ⟨t0.tid, t0.coord, (x.tile (o.realBy (x.desc s)).tile).1, 16 * pa + kb0, mode, w, .valid⟩ ∧
         ∀ i g p, i < 64 → g < 8 → p < 16 → (t.core k).zent z i g p =
           if mode = 0 then (if p = 0 then 0 else rounded (sumV (((upFrom 0 4).filter (fun y => bitOf p y)).map (X i g))))
           else if c.wcnt w ≤ p then 0 else rounded (sumV ((upFrom 0 4).map (fun y => mulV (X i g y) (decodeF 0 (c.went w p y))))))) ∧
     (x.ins = .tlook gd e d z q kb0 cst cnm1 pm ∨ x.ins = .tlookR gd e d z q kb0 cst cnm1 pm →
       let v := if nth x.res 0 0 = 1 then (s.build k x z ((c.zrec z).opnd x.part) (c.zrec z)).1.core k else c
       let m := (x.tile t0).2
       ((c.zrec z).mode = 1 → codesOk v (D t0) m (c.zrec z).cb kb0 pm (upFrom (16 * cst) (16 * (cnm1 + 1))) = true) →
       ends (fun a i j => if a = d ∧ 16 * cst ≤ j ∧ j < 16 * (cst + cnm1 + 1) then BitVec.ofNat 32 (fAdd 0 rne (c.ra d i j).toNat
           (blockSum ((upFrom 0 8).map (fun g => (lookTerm v (D t0) m z i j kb0 g pm).1)) 0).1).1 else c.ra a i j)
         (fun t => quiet t ∧ tables t v (fun _ => False))) ∧
     (∀ k0 k2, x.ins = .zsave gd e z 1 q gs → (c.zrec z).st ≠ .empty → s.hit cl t0 = some k0 → s.hit cl t2 = some k2 →
       ends c.ra (fun t => quiet t ∧
         (∀ i g p, i < 64 → g < 4 → p < 16 → ofBytes (mgetBytes (t.frameData cl t0) (256 * i + 64 * g + 4 * p) 4) = c.zent z i g p ∧
           ofBytes (mgetBytes (t.frameData cl t2) (256 * i + 64 * g + 4 * p) 4) = c.zent z i (4 + g) p) ∧
         ofBytes (mgetBytes (t.frameData cl t0) 16384 16) = nth x.res 0 0 % 2 ^ 128)) ∧
     (x.ins = .zsave gd e z 0 q gs → (c.zrec z).st ≠ .empty → ends c.ra (fun t => tables t c (fun _ => False) ∧ ∀ p, t.byte p = (s.engWrite k x.part a
       ((upFrom 0 64).flatMap (fun i => (upFrom 0 8).flatMap (fun g => (upFrom 0 16).flatMap (fun p => toBytes 4 (c.zent z i g p)))) ++
         toBytes 16 (nth x.res 0 0) ++ List.replicate 48 0)).byte p)) ∧
     (∀ (ent : Nat → Nat → Nat → Nat) (b : Nat),
       (x.ins = .zload gd e z 1 q gs ∧ b = ofBytes (mgetBytes (x.tile t0).2 16384 16) ∧ (ent = fun i g p =>
           ofBytes (mgetBytes (x.tile (if g < 4 then t0 else t2)).2 (256 * i + 64 * (g % 4) + 4 * p) 4))) ∨
         (x.ins = .zload gd e z 0 q gs ∧ b = ofBytes ((s.engRead k x.part a 32784).drop 32768) ∧ (ent = fun i g p =>
           ofBytes (((s.engRead k x.part a 32784).drop (512 * i + 64 * g + 4 * p)).take 4))) →
       recordBad b = false →
       let zr := ZRec.ofBits b
       let held := match s.hit cl ⟨x.part, zr.tid, zr.coord⟩ with | some key => (s.frame cl key).ver == zr.ver | none => false
       ends c.ra (fun t => quiet t ∧ tables t c (fun y => y = z) ∧
         (t.core k).zrec z = { zr with st := if zr.st = .valid ∧ held = false then .stale else zr.st } ∧
         ∀ i g p, i < 64 → g < 8 → p < 16 → (t.core k).zent z i g p = ent i g p)) ∧
     (x.ins = .cbld gd e w gs cnt → cnt ≤ 16 → ends c.ra (fun t => quiet t ∧ (t.core k).wcnt w = cnt ∧ (∀ y, y ≠ w → (t.core k).wcnt y = c.wcnt y) ∧
       (∀ y p i, p < 16 → i < 4 → (y = w → p < cnt) → (t.core k).went y p i =
         if y = w then ofBytes (((s.engRead k x.part a (16 * cnt)).drop (16 * p + 4 * i)).take 4) else c.went y p i) ∧
       ∀ y, (t.core k).zrec y = if (c.zrec y).st = .valid ∧ (c.zrec y).mode = 1 ∧ (c.zrec y).cb = w then { c.zrec y with st := .stale } else c.zrec y)) ∧
     (∀ p b l as, s.engAddrs k p b l.length accW = .ok as → as.Nodup → (∀ (i y : Nat) (v : Byte), as[i]? = some y → l[i]? = some v →
       (s.engWrite k p b l).byte y = v) ∧ ∀ y, y ∉ as → (s.engWrite k p b l).byte y = s.byte y) ∧
     (∀ p b m as, s.engAddrs k p b m accR = .ok as → s.engRead k p b m = as.map s.byte)) ∧
  (∀ (s : State) (k n q qa qb hint set clr gs nm1 ch ver d sl ix dm1 w : Nat) (x : Cmd) (gd : Guard) (e : Edge),
     (s.core k).cmds[n]? = some x → x.st = .running → x.fail = none → (s.core k).run ≠ .aborting → (s.core k).stalled = false →
     (∀ y ∈ (s.core k).cmds, y.save = none) → (s.core k).cmds.Pairwise (fun y z => y.id ≠ z.id) → ((s.core k).tok x.tp).latest = some x.id →
     let c := s.core k
     let cl := clusterOf k
     let t0 := tileOf x.part (nth x.args 0 0)
     let t1 := tileOf x.part (nth x.args 1 0)
     let a (y : Nat) : Nat := nth x.args y 0
     let D (t : Tile) : Desc := x.desc s t.tid
     let src (t : Tile) : SMap Byte := (x.tile t).2
     let dst (t : State) : SMap Byte := t.frameData cl t1
     let same (l r : Regs) : Prop := { l with zr := [] } = { r with zr := [] }
     let quiet (t : State) : Prop := (∀ p, t.byte p = s.byte p) ∧ ∀ j, same (t.core j).regs (s.core j).regs
     let ends (P : State → Prop) : Prop := ∃ t, exec (.engineCommandCompletion k n) s = .next t ∧ P t
     let fails (f : FaultInfo) : Prop := ends (fun t => quiet t ∧ ((t.core k).tok x.tp).st = .error ∧ ((t.core k).tok x.tp).flt = some ⟨f, x.tp, false⟩)
     (∀ key st cr, (x.ins = .tfetch gd e q hint ∧ st = hint ∧ cr = 0) ∨ (x.ins = .thint gd e q set clr ∧ st = set ∧ cr = clr) →
       s.held cl t0 = some key →
       (∀ f, bitOf st 0 = true → s.pinFault k t0 = some f → fails f) ∧
       (bitOf st 0 = false ∨ s.pinFault k t0 = none → ends (fun t =>
         let f := s.frame cl key
         let h := t.frame cl key
         quiet t ∧ h.st = f.st ∧ h.data = f.data ∧ h.last = ((f.last || bitOf st 1) && !bitOf cr 1) ∧
         h.stream = ((f.stream || bitOf st 2) && !bitOf cr 2) ∧
         (bitOf st 0 = false → bitOf cr 0 = false → h.pin = f.pin ∧ (t.core k).pins = c.pins) ∧
         (bitOf st 0 = true → bitOf cr 0 = false → h.pin = true ∧ t0 ∈ (t.core k).pins) ∧
         (bitOf cr 0 = true → t0 ∉ (t.core k).pins ∧
           (h.pin = true ↔ (∃ j ∈ coresOf cl, j ≠ k ∧ t0 ∈ (s.core j).pins) ∨ ∃ y ∈ s.savedT, y.cl = cl ∧ t0 ∈ y.pins))))) ∧
     (∀ tr, x.ins = .tcopy gd e qa qb tr → (s.hit cl t1).isSome = true → (D t0).wsel = 0 → (D t1).wsel = 0 → (D t0).fmt = (D t1).fmt →
       let ds := D t0
       let dd := D t1
       (tr = 0 → ds.shape = dd.shape → ends (fun t => quiet t ∧ ∀ i j, i < dd.r → j < dd.e → dd.elRaw (dst t) i j = ds.elRaw (src t0) i j ∧
         (ds.scaled = true → ds.ax = dd.ax → dd.hdr (dst t) i j = ds.hdr (src t0) i j))) ∧
       (tr = 0 → ds.shape ≠ dd.shape → ends (fun t => quiet t ∧ ∀ i j, i < dd.r → j < dd.e →
         dd.elRaw (dst t) i j = ds.elRaw (src t0) ((i * dd.e + j) / ds.e) ((i * dd.e + j) % ds.e))) ∧
       (tr = 1 → ds.scaled = false → dd.r = ds.e → dd.e = ds.r → ends (fun t => quiet t ∧ ∀ i j, i < dd.r → j < dd.e →
         dd.elRaw (dst t) i j = ds.elRaw (src t0) j i))) ∧
     (x.ins = .tcopyMem gd e qa w gs → ends (fun t => ∀ p, t.byte p = (s.engWrite k x.part (a 1)
       ((upFrom 0 (D t0).r).flatMap (fun i => mgetBytes (src t0) (i * (D t0).rowB) ((D t0).dataB / (D t0).r)) ++
         mgetBytes (src t0) 16384 (D t0).sideB)).byte p)) ∧
     (x.ins = .tscat gd e qa qb gs nm1 → (s.hit cl t1).isSome = true → (D t0).wsel = 0 → (D t1).wsel = 0 → (D t0).fmt = (D t1).fmt →
       (D t0).shape = (D t1).shape → (∀ r ∈ x.res, r = 0xFFFFFFFF ∨ r < (D t1).r) → x.res.length ≤ (D t0).r →
       ends (fun t => quiet t ∧ ∀ i j r, j < (D t1).e → r < (D t1).r →
         (x.res[i]? = some r → (∀ y, i < y → x.res[y]? ≠ some r) → (D t1).elRaw (dst t) r j = (D t0).elRaw (src t0) i j) ∧
         (r ∉ x.res → (D t1).elRaw (dst t) r j = (D t1).elRaw (s.frameData cl t1) r j))) ∧
     (∀ (u : State) (idx : List Int), x.ins = .tgath gd e qa qb gs nm1 → (s.hit cl t0).isSome = true → (D t0).wsel = 0 → (D t1).wsel = 0 →
       (D t0).fmt = (D t1).fmt → idx.length = nm1 + 1 → nm1 < (D t0).r →
       x.res = (gatherRows u k x.part (D t1) (D t0) t1 idx []).flatMap (fun e => [e.1, e.2.toNat]) →
       ends (fun t => quiet t ∧ ∀ i j, i < (D t0).r → j < (D t0).e →
         (D t0).elRaw (t.frameData cl t0) i j = match idx[i]? with
           | none => (D t0).elRaw (s.frameData cl t0) i j
           | some y =>
             let p := (D t1).rowEl ((D t1).e * t1.c 0 + j) y.toNat (t1.c 2) (t1.c 3)
             if y < 0 ∨ nth (D t1).ext 0 0 - (D t1).e * t1.c 0 ≤ j then 0
             else fld (ofBytes (u.engRead k x.part p.1 ((p.2 + (D t0).elW + 7) / 8))) p.2 (D t0).elW)) ∧
     (∀ r v, s.chan x.launch ch = some (r, v) → s.clusters.Pairwise (fun y z => y.1 ≠ z.1) →
       (∀ y ∈ s.clusters, ∀ o ∈ y.2.chans, o.launch = x.launch → o.ch = ch → y.1 = r) →
       (x.ins = .chsend gd e ch q → ends (fun t => quiet t ∧ t.chan x.launch ch = some (r, { v with
         full := mput v.full (v.sent % v.slots) ⟨(D t0).shape, (D t0).slotFmt, src t0⟩, sent := v.sent + 1 }))) ∧
       (∀ z, x.ins = .chrecv gd e ch q → (v.full.find? (fun y => y.1 == v.recd % v.slots)).map (fun y => y.2) = some z → (s.hit cl t0).isSome = true →
         ends (fun t => quiet t ∧ t.chan x.launch ch = some (r, { v with full := merase v.full (v.recd % v.slots), recd := v.recd + 1 }) ∧
           ∀ i j, i < (D t0).r → j < (D t0).e → (D t0).elRaw (t.frameData cl t0) i j = (D t0).elRaw z.data i j))) ∧
     (x.ins = .desc gd e q w → x.res.length = 128 →
       let tid := fld (a 0) 0 20
       let img := x.res.map (BitVec.ofNat 8)
       let p := (s.part x.part).fld 0x50 8 + 128 * tid
       match descCheck img tid ((s.part x.part).fld 0x58 4) with
       | some (code, cause) => fails ⟨code, cause, 0⟩
       | none => ends (fun t => ((Desc.ofImg img).v = true → t.descImg x.part tid = img) ∧ ((Desc.ofImg img).v = false → (t.desc x.part tid).v = false) ∧
           (∀ b, b < p ∨ p + 128 ≤ b → t.byte b = s.byte b) ∧ ∀ cl key, let f := s.frame cl key
             f.st ≠ .invalid → f.st ≠ .filling → f.tile.part = x.part → f.tile.tid = tid → (t.frame cl key).redef = true)) ∧
     (∀ r o, x.ins = .itin gd e sl ix dm1 → s.launches.find? (fun y => y.1 == x.launch) = some r → s.code r.2.codeh = some o →
       (ix < o.itins.length → ends (fun t => quiet t ∧ mget (t.core k).itin sl ⟨0, 0, 0⟩ = ⟨ix, 0, dm1 + 1⟩)) ∧ (o.itins.length ≤ ix → fails ⟨9, 6, 0⟩)) ∧
     (∀ o y, x.ins = .itstep gd e sl q → s.code c.task.codeh = some o → c.itin.find? (fun y => y.1 == sl) = some (sl, y) → ends (fun t =>
       let next := itinTile x.part (nth o.itins y.ix []) y.pos
       (∀ b, t.byte b = s.byte b) ∧ same (t.core k).regs (c.write (.q q) ((next.map (fun v => v.1.q)).getD 0) none).regs ∧
         mget (t.core k).itin sl ⟨0, 0, 0⟩ = { y with pos := y.pos + next.isSome.toNat })) ∧
     (x.ins = .itstep gd e sl q → c.itin.find? (fun y => y.1 == sl) = none → fails ⟨9, 6, 0⟩) ∧
     (x.ins = .tdecbArm gd e q w →
       let m := (s.part x.part).ctr (a 0)
       ((s.bc m).value ≠ 0 → fails ⟨9, 5, 0⟩) ∧
       ((s.bc m).value = 0 → ends (fun t => quiet t ∧ (t.bc m).value = BitVec.ofNat 32 (a 1) ∧
         (BitVec.ofNat 32 (a 1) ≠ 0 → t.bc m = { s.bc m with value := BitVec.ofNat 32 (a 1) } ∧ t.msgs = s.msgs) ∧
         (BitVec.ofNat 32 (a 1) = 0 → t.bc m = ⟨0, 0, ((s.bc m).epoch + 1) % 256⟩ ∧
           t.msgs = s.msgs ++ ((upFrom 0 96).filter (fun y => bitOf (s.bc m).mask y)).map (fun y => .relMsg y m (s.bc m).epoch))))) ∧
     (x.ins = .rld gd e d q ∨ x.ins = .rfaa gd e d q w → x.ready = true → ends (fun t => (∀ b, t.byte b = s.byte b) ∧
       (t.core k).regs = (c.write (.g d x.hb) (nth x.res 0 0) none).regs)) ∧
     (let began := (x.sem k).start s
      (∀ key, x.ins = .trel gd e q → s.dirtyFrame cl t0 = some key → began =
        (s.updFrame cl key (fun f => { f with st := .published })).send (.release cl t0 k x.id true (s.frame cl key).ver)) ∧
      (x.ins = .trel gd e q → s.dirtyFrame cl t0 = none → began = s.send (.release cl t0 k x.id false 0)) ∧
      (x.ins = .tacq gd e q ver → began = s.send (.tacq k x.id t0 ver s.dev.ptime.toNat)) ∧
      (x.ins = .tspawn gd e q → began = s.send (.create (recordPa s k x.part (a 0)) (a 0) x.part x.launch k x.id)) ∧
      (x.ins = .tdec gd e q → began = s.send (.decr true (recordPa s k x.part (a 0)) x.part (.cmd k x.id))) ∧
      (x.ins = .tdecb gd e q → began = s.send (.decr false ((s.part x.part).ctr (a 0)) x.part (.cmd k x.id))) ∧
      (∀ ax key, x.ins = .tinv gd e q ax 0 → s.held cl t0 = some key →
        let f := s.frame cl key
        let h := began.frame cl key
        (f.st = .clean → h.st = .invalid) ∧ (f.st = .published → h.st = .draining ∧ h.why = .tinv ∧ h.data = f.data) ∧
        (f.st = .dirty → h.st = .draining ∧ h.why = .tinv ∧ h.data = f.data ∧ .release cl t0 k x.id true f.ver ∈ began.msgs))))

/-! ## Events (spec/95) -/

/-- R418, R144: a stalled bundle is tried again, so one whose WAITK finds its token DONE commits. R88: with SAFEDIST at 2,048 a bundle without SAFE
or DONE is not executed, and the task is aborted with WATCHDOG. R293: so is a handler after 8,192 cycles. R305: an order makes a pre-emption
pending, and 3,600 cycles later the task is saved without its liveness set. R61: a bundle without slots passes, REPEAT times more. The place of the
check of R88 is log entry 9, of that of R293 log entry 19, and that a forced save waits for an unread host atomic log entry 52. R23, R143, R225,
R285: steps 2 to 4 of a task's DONE, once its stores are performed at device scope; that they wait for the Shuner port's buckets which its
successors' decrements draw on is the model's reading (log entry 107). The core goes back to its RDQ as idle; a task without stores to perform or
successors leaves its record DONE and its launch with one live task less, and the last one ends the launch. Each completes, with a next state that
its clause gives under conditions on the state and the operands alone: stalledBundleCommit, safeDistanceWatchdog, handlerWatchdog, preemptionOrder,
forcedSave, emptyBundle, taskEnd. -/
def Obligations.CoreEventsAndTaskEnds : Prop :=
  (∀ (s : State) (k : Nat),
     let c := s.core k
     let u := { s with cur := k }
     (∀ gd n, c.stalled = true → c.saveDue = false → c.handlerDue = false → Ready (.waitk gd n) u → fetchBundle u = .bundle c.pc (soleBundle (.waitk gd n) (semOf (.waitk gd n))) →
       (c.tok n).st = .done → Happens (.stalledBundleCommit k) s (fun t =>
         (t.core k).stalled = false ∧ (t.core k).pc = (if goesRound u then c.csr.lbeg.toNat else nextBundle (.waitk gd n) u t) ∧
         ((t.core k).tok n).used = true ∧ (t.core k).regs = c.age.regs)) ∧
     (∀ a b, c.run = .task → fetchBundle u = .bundle a b → 2048 ≤ c.csr.safedist.toNat →
       (∀ r ∈ b.slots, r.illegal u = false ∧ (∀ g n x, r.ins ≠ .safe g n x) ∧ ∀ g, r.ins ≠ .done g) →
       exec (.safeDistanceWatchdog k) s = .next (u.updCore k (fun c =>
         { c with pc := a, run := .aborting, abort := some ⟨0x14, 1, a, 0⟩, xfer := .none, settle := false, stalled := false }))) ∧
     (c.run = .task → c.hm = true → 8192 ≤ c.hCyc → (∀ v, c.hostAt ≠ .done v) → exec (.handlerWatchdog k) s = .next (s.updCore k (fun c =>
       { c with run := .aborting, abort := some ⟨0x14, 2, c.pc, 0⟩, xfer := .none, settle := false, stalled := false }))) ∧
     (c.run = .task ∨ c.run = .doneWait → exec (.preemptionOrder k) s = .next (s.updCore k (fun c =>
       { c with preempt := true, preCyc := if c.preempt then c.preCyc else 0 }))) ∧
     (c.preempt = true → 3600 ≤ c.preCyc → c.hm = false → (∀ v, c.hostAt ≠ .done v) → c.via ≠ .skip → c.run = .task ∨ c.run = .doneWait →
       exec (.forcedSave k) s = .next (s.updCore k (fun c => { c.settleFly with
         run := .saving true (c.run == .doneWait) false, stalled := false, hostAt := .none, tcWait := none, tcFlt := none }))) ∧
     (∀ rep, rep < 16 → s.me.run = .task → (s.me.settle = false ∨ s.me.loads = []) → s.me.csr.safedist.toNat < 2048 →
       Happens (.emptyBundle rep 0 0 0 0) s (fun t => CoreOnly s t ∧ t.me.regs = s.me.age.regs ∧ t.me.fly = s.me.age.fly ∧
         (s.me.iter < rep → t.me.iter = s.me.iter + 1 ∧ t.me.pc = s.me.pc ∧ t.me.csr.lcnt = s.me.csr.lcnt) ∧
         (rep ≤ s.me.iter → t.me.iter = 0 ∧ t.me.pc = (if goesRound s then s.me.csr.lbeg.toNat else
           t.skipPads s.me.csr.partid.toNat padLimit ((s.me.pc + 4) % 2 ^ 64)))))) ∧
  (∀ (s : State) (k : Nat) (x : Launch),
     let c := s.core k
     let r := s.trec c.task.recPA
     let open_ := ∀ n b, n < r.succn → s.succBucket k c.csr.partid.toNat ((r.succ + 8 * n) % 2 ^ 64) = some b → 0 ≤ s.bucket c.csr.partid.toNat b
     c.run = .ending → (s.storesDone k = false ∨ ¬ open_ → exec (.taskEnd k) s = .next s) ∧
     (s.storesDone k = true → open_ → Happens (.taskEnd k) s (fun t => (t.core k).run = .idle ∧ (t.core k).preempt = false)) ∧
     (s.storesDone k = true → c.l0 = [] → c.pins = [] → r.succn = 0 → s.launch c.task.launch = some x → x.dropped = false →
       (s.qcb x.key).toSave = false → 0 < x.live → s.launches.Pairwise (fun a b => a.1 ≠ b.1) →
       Happens (.taskEnd k) s (fun t =>
         (1 < x.live → t.byte (c.task.recPA + 7) = 3 ∧ (t.launch c.task.launch).map (fun l => l.live) = some (x.live - 1)) ∧
         (x.live = 1 → t.launch c.task.launch = none))))

/-- R278, R281, R284, R286, R287: a decrement, in its turn behind an earlier one of the same sender for the home, lowers its record's or broadcast
counter, and one that meets 0 answers INDEX_RANGE, cause 5; a release lets the entries of its cluster, counter and epoch be dispatched, stamped now,
those that wait in a ring or for room among them; an entry waits at the home, in its turn, while its RDQ and ring are full and goes from the ring to
the RDQ in their order; and a cluster reports how many entries of each partition it holds. Which decrements have one sender and one home is log
entries 76 and 91, and one ring for each cluster, partition and priority, bounded together by OVSIZE, log entry 48. Each completes, with a next
state that its clause gives under conditions on the state and the operands alone: decrement, releaseArrival, overflowRingPlacement, rdqRefill,
rdqLoadReport. -/
def Obligations.CountersAndPlacement : Prop :=
  ∀ (s : State) (n : Nat),
    (∀ pa part src, s.msg n = some (.decr true pa part src) →
      s.decBefore n src true pa = false →
      let r := s.trec pa
      (r.cnt = 0 → exec (.decrement n) s = .next ((s.dropMsg n).decAnswer src (some ⟨9, 5, mget s.gvas pa pa⟩))) ∧
      (2 ≤ r.cnt ∨ r.cnt = 1 ∧ r.state ≠ 1 →
        exec (.decrement n) s = .next (((s.dropMsg n).wrMem (pa + 0x18) 4 (r.cnt - 1)).decAnswer src none)) ∧
      (r.cnt = 1 → r.state = 1 → exec (.decrement n) s = .next ((((s.dropMsg n).wrMem (pa + 0x18) 4 0).placeRec pa).decAnswer src none))) ∧
    (∀ ctr part src, s.msg n = some (.decr false ctr part src) →
      s.decBefore n src false ctr = false →
      let b := s.bc ctr
      (b.value = 0 → exec (.decrement n) s = .next ((s.dropMsg n).decAnswer src (some ⟨9, 5, 0⟩))) ∧
      (b.value ≠ 0 → b.value ≠ 1 →
        exec (.decrement n) s = .next ({ s.dropMsg n with bcs := mput s.bcs ctr { b with value := b.value - 1 } }.decAnswer src none)) ∧
      (b.value = 1 → exec (.decrement n) s =
        .next ((State.release { s.dropMsg n with bcs := mput s.bcs ctr { b with value := 0 } } ctr).decAnswer src none))) ∧
    (∀ rec target part src, s.msg n = some (.decr rec target part src) → s.decBefore n src rec target = true → exec (.decrement n) s = .next s) ∧
    (∀ cl ctr ep, s.msg n = some (.relMsg cl ctr ep) →
      let go (e : RdqE) : RdqE := if e.held ∧ e.bcn = ctr ∧ e.epoch = ep then { e with held := false, stamp := s.clock } else e
      Happens (.releaseArrival n) s (fun t =>
        (t.cluster cl).rdq = (s.cluster cl).rdq.map go ∧ (∀ j, j ≠ cl → t.cluster j = s.cluster j) ∧
        (∀ part prio, part < 64 → prio < 4 → t.ring (ringKey cl part prio) = (s.ring (ringKey cl part prio)).map go) ∧
        (∀ key, key / 256 ≠ cl → t.ring key = s.ring key) ∧
        t.msgs = (dropNth s.msgs n).map (fun m => match m with | .ringWait c e => .ringWait c (if c = cl then go e else e) | m => m) ∧
        t.clock = s.clock + 1)) ∧
    (∀ cl e, s.msg n = some (.ringWait cl e) →
      let key := ringKey cl e.part e.prio
      let open_ : Prop := (s.cluster cl).rdq.length < 2048 ∧ s.clState cl ≠ clGated ∧ s.ring key = []
      (s.before n (Msg.waitsFor cl e) = true → exec (.overflowRingPlacement n) s = .next s) ∧
      (s.clState cl = clHold → exec (.overflowRingPlacement n) s = .next s) ∧
      (s.before n (Msg.waitsFor cl e) = false → s.clState cl ≠ clHold →
        (open_ → exec (.overflowRingPlacement n) s = .next ((s.dropMsg n).updCluster cl (fun c => { c with rdq := c.rdq ++ [e] }))) ∧
        (¬ open_ → s.ringUsed e.part e.prio < (s.part e.part).fld 0x98 4 → Happens (.overflowRingPlacement n) s (fun t =>
          t.ring key = s.ring key ++ [e] ∧ (∀ k, k ≠ key → t.ring k = s.ring k) ∧ t.clusters = s.clusters ∧ t.msgs = dropNth s.msgs n)) ∧
        (¬ open_ → (s.part e.part).fld 0x98 4 ≤ s.ringUsed e.part e.prio → exec (.overflowRingPlacement n) s = .next s))) ∧
    (∀ cl part prio e l, s.ring (ringKey cl part prio) = e :: l → (s.cluster cl).rdq.length < 2048 → s.clState cl ≠ clGated →
      Happens (.rdqRefill cl part prio) s (fun t => (t.cluster cl).rdq = (s.cluster cl).rdq ++ [e] ∧ t.ring (ringKey cl part prio) = l)) ∧
    (∀ cl, Happens (.rdqLoadReport cl) s (fun t => (t.cluster cl).rdq = (s.cluster cl).rdq ∧ ∀ p, p < 48 →
      mget (t.cluster cl).load p 0 = ((s.cluster cl).rdq.filter (fun e => e.part == p)).length +
        (s.ring (ringKey cl p 0)).length + (s.ring (ringKey cl p 1)).length + (s.ring (ringKey cl p 2)).length + (s.ring (ringKey cl p 3)).length))

/-- R279, R280: the creation of a TSPAWN's record. A record that fails its checks fails the command; a good one of no channel and no broadcast
counter, its counter not 0, names its launch, is WAITING and adds to the live count, and the command has its answer. R20, R25, R262, R287 to R289: a
dispatch sends the winner's first entry, in the RDQ or spilled, the highest priority, the earliest stamp and the lowest address, to an idle core of
the cluster that no gang needs, and its task begins there; a gang is held while a member of it waits, its members wait for a core each, and then all
begin, in clusters that are ACTIVE. Which gang comes next, one of whose members waits, is log entry 109, that a field which software has rewritten
is read as it is now log entry 113. That each member's cluster counts it as a dispatch its partition wins is the model's reading (log entry 94).
Each completes, with a next state that its clause gives under conditions on the state and the operands alone: recordCreation, dispatch,
gangDispatch. -/
def Obligations.CreationAndDispatch : Prop :=
  (∀ (s : State) (n pa gva part l k id : Nat) (x : Launch) (c : Code),
     s.msg n = some (.create pa gva part l k id) → s.launch l = some x → x.dropped = false → x.live < 2 ^ 32 - 1 →
     let r := s.trec pa
     (∀ f, s.recordBad part x r gva = some f → exec (.recordCreation n) s = .next ((s.dropMsg n).answerFault k id f)) ∧
     (s.recordBad part x r gva = none → s.code r.codeh = some c → c.isEnd r.taskix = false → r.isBc = false → r.cnt ≠ 0 →
       s.launches.Pairwise (fun a b => a.1 ≠ b.1) →
       Happens (.recordCreation n) s (fun t =>
         t.rdMem (pa + 0x40) 4 = l % 2 ^ 32 ∧ t.byte (pa + 7) = 1 ∧ (t.launch l).map (fun y => y.live) = some (x.live + 1) ∧
         (∀ a, a ≠ pa + 7 → (a < pa + 0x40 ∨ pa + 0x44 ≤ a) → t.byte a = s.byte a) ∧ t.msgs = dropNth s.msgs n ∧
         t.core k = (s.core k).updCmd id (fun y => { y with ready := true })))) ∧
  (∀ (s : State) (cl part : Nat),
     let v := s.reserveIn cl
     let ok := (v.entriesOf cl).filter (fun e => v.dispatchable e)
     (∀ l e, firstEntry l = some e → e ∈ l ∧ ∀ x ∈ l, entryBefore x e = false) ∧
     (∀ p crd ptr e k, v.clState cl = clActive → creditWin (partsOf ok) (fun p => (v.part p).wgt) (v.weightSum cl) (v.cluster cl).crd (v.cluster cl).ptr =
         some (p, crd, ptr) → firstEntry (ok.filter (fun e => e.part == p)) = some e → v.idleCore cl p = some k → e.kind = 0 →
       Happens (.dispatch cl) s (fun t =>
         let r := (v.takeEntry cl e).trec e.raddr
         k ∈ coresOf cl ∧ (v.core k).run = .idle ∧ e ∉ t.entriesOf cl ∧ (t.cluster cl).crd = crd ∧ (t.cluster cl).ptr = ptr ∧
         (t.core k).run = .task ∧ (t.core k).csr.taskid = BitVec.ofNat 32 r.taskid ∧ (t.core k).csr.partid = BitVec.ofNat 8 e.part ∧
         (t.core k).csr.status = 0 ∧ (t.core k).csr.safeix = 0xFFFF ∧ (t.core k).csr.safedist = 0 ∧
         (t.core k).rg 1 = BitVec.ofNat 64 r.arg ∧ (t.core k).rg 2 = BitVec.ofNat 64 (mget v.gvas e.raddr e.raddr) ∧
         (t.core k).rq 0 = BitVec.ofNat 64 r.coord ∧ (∀ n, ((t.core k).tok n).st = .free) ∧ (∀ n, n ≠ 0 → (t.core k).rp n = false))) ∧
     (∀ l ch, mget s.gangs part none = some (l, ch) → s.members l (s.gangAt l ch) ≠ [] → s.takeGang part = s) ∧
     (let g := s.takeGang part
      (g.heldGang part = none → exec (.gangDispatch part) s = .next g) ∧
      (∀ l ms, g.heldGang part = some (l, ms) →
       let u := g.reserve l ms
       (ms = [] ∨ (∃ m ∈ ms, u.reserved l m = none ∨ u.clState m.1 ≠ clActive) → exec (.gangDispatch part) s = .next u) ∧
       (ms ≠ [] → (∀ m ∈ ms, u.reserved l m ≠ none ∧ u.clState m.1 = clActive) →
         let t := ms.foldl (fun w m => match w.reserved l m with | some k => w.sendMember m.1 k m.2 | none => w) u
         exec (.gangDispatch part) s = .next { t with gangs := merase t.gangs part }))))

/-- R32, R175, R199, R211: an executor takes its oldest command that may start: it runs once every tile is at hand, and is parked otherwise; the
parked command that has waited longest gets frames for every missing tile or none, and no other one does then (log entry 46); one whose tiles and
grants have come starts. A fault found first ends the command. When a path's running command still occupies it, a free bit, is log entry 30. Each
completes, with a next state that its clause gives under conditions on the state and the operands alone: engineCommandTake, frameAllocation,
commandReplay. -/
def Obligations.CommandStarts : Prop :=
  ∀ (s : State) (k ex : Nat) (x : Cmd),
    let cl := clusterOf k
    let u := s.draw 1
    let needs := x.tileNeeds k s
    let runs (t : State) : Prop := ∃ y ∈ (t.core k).cmds, y.id = x.id ∧ y.st = .running ∧ y.tiles = needs.map (fun m => m.tile) ∧
      y.snap.map (fun e => e.1) = y.tiles
    let clear := ∀ j y, y ∈ (s.core j).cmds → y.fail = none
    (∀ m gd e, clear → s.oldest (if ex = 3 then coresOf cl else [k]) ex = some (k, x) → x.ins = .mzero gd e m → x ∈ (s.core k).cmds →
      Happens (.engineCommandTake k ex) s runs) ∧
    (clear → s.oldest (if ex = 3 then coresOf cl else [k]) ex = some (k, x) → (x.sem k).check u = none →
      (∃ m ∈ x.tileNeeds k u, s.have cl m = false) → Happens (.engineCommandTake k ex) s (fun t =>
        (t.core k).cmds = ((s.core k).updCmd x.id (fun y => { y with st := .parked, parkedAt := s.clock })).cmds ∧ t.clock = s.clock + 1)) ∧
    (∀ f, clear → s.oldest (if ex = 3 then coresOf cl else [k]) ex = some (k, x) → (x.sem k).check u = some f → u.pageMiss x.part f = false →
      exec (.engineCommandTake k ex) s = .next (u.failCmd k x.id f)) ∧
    (∀ j v, s.oldestParked j = some (k, x) → s.allocAll j needs = some v → exec (.frameAllocation j) s =
      .next (v.updCmd k x.id (fun y => { y with
        alloc := true, tiles := needs.map (fun m => m.tile), wtiles := (needs.filter (fun m => m.write)).map (fun m => m.tile) }))) ∧
    (∀ j, s.oldestParked j = some (k, x) → s.allocAll j needs = none → exec (.frameAllocation j) s = .next (s.fetchWants j)) ∧
    (∀ n gd e d q tp part, (s.core k).cmds[n]? = some x → x.ins = .mlda gd e d q tp part → x.st = .parked → x.alloc = true →
      x.tiles = needs.map (fun m => m.tile) → s.prqWaits (.cmd k x.id) = false → s.execBusy k x = false →
      (∀ m ∈ needs, (s.hit cl m.tile).isSome = true ∧ s.have cl m = true) → (x.sem k).check s = none → s.mayReach k x.part ((x.sem k).uses s) = true →
      Happens (.commandReplay k n) s runs)

/-- R205 to R207, R209, R213, R245: a home answers a miss from memory, or sends its owner an order to serve it; a miss that must be granted takes
the ownership with it once no cluster has it, no lease stands and no other request goes first. A fill for another device is answered with the
released version, its data and a lease. The owner's frame is read out; data that come make the frame CLEAN, or with a grant DIRTY at the next
version; and a fill that has waited beyond its tensor's lease setting for another owner, or for a home on another device, fails with LEASE_TIMEOUT;
that a request counts its time in ns of PTIME from its arrival, 100 cycles after it was sent, is log entry 86, and that a grant without data leaves
free data in the frame log entry 43. Each completes, with a next state that its clause gives under conditions on the state and the operands alone:
fillRequest, neighbourServe, fillAnswer, grantTimeout, remoteHomeTimeout. -/
def Obligations.Fills : Prop :=
  ∀ (s : State) (n cl ch sent : Nat) (t : Tile) (h : Home),
    let d := s.desc t.part t.tid
    (∀ g nd m, s.msg n = some (.fillReq cl t g nd sent) → s.prqWaits (.fill cl t) = false → s.waitsBefore n cl t g = false → s.homeAt cl t = .here ch →
      s.moving t = false → s.homeRec ch t = some h →
      (h.wown = noOwner → (g = true → h.leases = [] ∧ s.outranked ch n cl t sent = false) → cl < 96 →
        (h.loc ≠ 1 → nd = false → s.readTile (1024 + cl) d t = .ok m → s.mayTile (1024 + cl) d t = true → h.super = false →
          Happens (.fillRequest n) s (fun u =>
            u.msgs = dropNth s.msgs n ++ [.fillAns cl t h.rver g 0 d.shape false (some m)] ∧ (g = true → (u.homeRec ch t).map (fun y => y.wown) = some cl))) ∧
        (h.loc = 1 → h.ownc ≠ cl → Happens (.fillRequest n) s (fun u =>
          u.msgs = dropNth s.msgs n ++ [.serve h.ownc t (some cl) g] ∧ (g = true → (u.homeRec ch t).map (fun y => y.wown) = some cl)))) ∧
      (128 ≤ cl → h.loc ≠ 1 → h.super = false → h.leases.length < 4 → s.readTile (1024 + cl) d t = .ok m → Happens (.fillRequest n) s (fun u =>
        let e := s.dev.ptime.toNat + d.leaseNs
        u.msgs = dropNth s.msgs n ∧ u.out = s.out ++ [.fillReply (cl - 128) t (some (h.rver, e, m))] ∧
        (u.homeRec ch t).map (fun y => y.leases) = some (h.leases ++ [⟨cl - 128, e, false⟩])))) ∧
    (∀ owner g key, s.msg n = some (.serve owner t (some cl) g) → s.held owner t = some key → (s.frame owner key).st = .published →
      exec (.neighbourServe n) s = .next ((s.dropMsg n).setFrame owner key ((s.frame owner key).drain (.serve (some cl) g)))) ∧
    (∀ ver g le sh re dat key, s.msg n = some (.fillAns cl t ver g le sh re dat) →
      (setFrames t).find? (fun k => (s.frame cl k).tile == t &&
        ((s.frame cl k).st == FrSt.filling || (g && (s.frame cl k).st == FrSt.clean))) = some key →
      Happens (.fillAnswer n) s (fun u =>
        let f := u.frame cl key
        let m := dat.getD (freeFrame s.freeCtr)
        f.st = (if g then .dirty else .clean) ∧ f.ver = (if g then (ver + 1) % 65536 else ver) ∧ f.data = (if g then clearRecord d m else m) ∧
        f.lru = 0 ∧ f.lexp = le ∧ f.shape = sh ∧ f.redef = re ∧ u.msgs = dropNth s.msgs n)) ∧
    (∀ f, s.msg n = some (.fillFail cl t f) → exec (.fillAnswer n) s = .next ((s.dropMsg n).fillFailed cl t f)) ∧
    (∀ nd, s.msg n = some (.fillReq cl t true nd sent) → s.homeAt cl t = .here ch → s.homeRec ch t = some h → h.wown ≠ noOwner → h.wown ≠ cl →
      h.wown ≠ parkedOwner →
      (s.dev.ptime.toNat ≤ s.arrived sent + d.leaseNs → exec (.grantTimeout n) s = .next s) ∧
      (s.arrived sent + d.leaseNs < s.dev.ptime.toNat → exec (.grantTimeout n) s = .next ((s.dropMsg n).send (.fillFail cl t ⟨0x11, 0, t.q⟩)))) ∧
    (∀ g nd dev, s.msg n = some (.fillReq cl t g nd sent) → s.homeAt cl t = .away dev →
      (s.dev.ptime.toNat ≤ s.arrived sent + d.leaseNs → exec (.remoteHomeTimeout n) s = .next s) ∧
      (s.arrived sent + d.leaseNs < s.dev.ptime.toNat → exec (.remoteHomeTimeout n) s = .next ((s.dropMsg n).send (.fillFail cl t ⟨0x11, 0, t.q⟩))))

/-- R194, R195, R209, R219, R310: of the requests for the write ownership of a tile the one of the greatest age goes first, and among equals the one
that the home's pointer meets first, which moves on as it takes a tied one; a home grants the right to write a CLEAN frame of the released version
that nobody owns or leases, hands a parked owner's right over with the data of memory (log entry 44), makes a request wait for leases, and answers
RETRY otherwise; the granted frame is DIRTY at the next version, and one told to retry is INVALID. Ages count ns of PTIME (log entry 86). R214,
R245, R374, R375: a leased frame that no command uses is INVALID once its lease has expired, and its home forgets the lease 40 ns later, or when it
comes back; a home out of bound asks a holder for it when a grant waits, and a holder asked gives it back once no command uses the frame. Each
completes, with a next state that its clause gives under conditions on the state and the operands alone: grantRequest, writeGrant, retry,
leaseExpiry, homeLeaseExpiry, leaseReturn, leaseReturnRequest. -/
def Obligations.GrantsAndLeases : Prop :=
  (∀ (s : State) (n cl ch v sent : Nat) (t : Tile) (h : Home),
     let d := s.desc t.part t.tid
     let mv (x : State) : State := s.movePtr ch n cl t sent x
     (s.msg n = some (.grantReq cl t v sent) → s.prqWaits (.fill cl t) = false → s.waitsBefore n cl t true = false → s.homeAt cl t = .here ch →
       s.homeRec ch t = some h →
       (s.outranked ch n cl t sent = true → exec (.grantRequest n) s = .next s) ∧
       (s.outranked ch n cl t sent = false →
         (h.wown = noOwner → h.rver = v → h.leases = [] →
           exec (.grantRequest n) s = .next (mv (((s.putHome { h with wown := cl }).dropMsg n).send (.grantAns cl t)))) ∧
         (h.wown = noOwner → h.rver = v → h.leases ≠ [] → exec (.grantRequest n) s = .next s) ∧
         (h.wown ≠ parkedOwner → h.wown ≠ noOwner ∨ h.rver ≠ v →
           exec (.grantRequest n) s = .next (mv (((s.putHome h).dropMsg n).send (.retryAns cl t)))) ∧
         (∀ m, h.wown = parkedOwner → h.leases = [] → s.mayTile (1024 + cl) d t = true → s.readTile (1024 + cl) d t = .ok m →
           Happens (.grantRequest n) s (fun w =>
             w.msgs = dropNth s.msgs n ++ [.fillAns cl t h.rver true 0 d.shape false (some m)] ∧ (w.homeRec ch t).map (fun y => y.wown) = some cl)))) ∧
     (∀ key, s.msg n = some (.grantAns cl t) → s.held cl t = some key → (s.frame cl key).st = .clean → exec (.writeGrant n) s =
       .next ((s.dropMsg n).updFrame cl key (fun f =>
         { f with st := .dirty, ver := (f.ver + 1) % 65536, drn := false, wrote := [], data := clearRecord d f.data }))) ∧
     (∀ key, s.msg n = some (.retryAns cl t) → s.held cl t = some key → (s.frame cl key).st = .clean →
       Happens (.retry n) s (fun w => (w.frame cl key).st = .invalid ∧ w.mem = s.mem))) ∧
  (∀ (s : State) (cl key i n : Nat) (h : Home) (l : Lease),
     let f := s.frame cl key
     let without := { s with homes := modNth s.homes i (fun h => { h with leases := dropNth h.leases n }) }
     (f.lexp ≠ 0 → f.lexp ≤ s.dev.ptime.toNat → f.ref = 0 → f.st = .clean → .leaseRecall f.tile ∉ s.msgs → Happens (.leaseExpiry cl key) s (fun u =>
       (u.frame cl key).st = .invalid ∧ (u.frame cl key).lru = f.lru ∧ u = { s with clusters := u.clusters })) ∧
     (s.dev.ptime.toNat < f.lexp → .leaseRecall f.tile ∉ s.msgs → exec (.leaseExpiry cl key) s = .next s) ∧
     (f.lexp ≠ 0 → f.ref = 0 → f.st = .clean → .leaseRecall f.tile ∈ s.msgs → Happens (.leaseExpiry cl key) s (fun u =>
       (u.frame cl key).st = .invalid ∧ u.out = s.out ++ [.leaseBack cl f.tile] ∧ u.mem = s.mem)) ∧
     (s.homes[i]? = some h → h.leases[n]? = some l →
       (s.dev.inb = true → l.exp + 40 ≤ s.dev.ptime.toNat → exec (.homeLeaseExpiry i n) s = .next without) ∧
       (s.dev.ptime.toNat < l.exp + 40 → exec (.homeLeaseExpiry i n) s = .next s) ∧
       exec (.leaseReturn i n) s = .next without ∧
       (∀ c v w, s.dev.inb = false → l.asked = false → .grantReq c h.tile v w ∈ s.msgs → Happens (.leaseReturnRequest i n) s (fun u =>
         u.out = s.out ++ [.leaseAsk l.holder h.tile] ∧ ∃ g, u.homes[i]? = some g ∧ g.leases[n]? = some { l with asked := true }))))

/-- R194, R205, R218, R243, R253, R256: a home records a release of a resident tile, its new version, its location, which is memory once the frame
has gone, and that nobody owns it, and without a DIRTY frame that of one written back before; an acquire is answered once the released version has
reached the minimum, an older CLEAN frame of the cluster going then, and ends with LEASE_TIMEOUT when it waits beyond the lease setting, in ns of
PTIME (log entry 86); a reduction is applied to memory once nobody owns the tile or holds its released version. Each completes, with a next state
that its clause gives under conditions on the state and the operands alone: releaseAtHome, tacqAtHome, tacqTimeout, reductionAtHome. -/
def Obligations.ReleasesAndAcquires : Prop :=
  ∀ (s : State) (n k id ch : Nat) (t : Tile) (h : Home),
    let cl := clusterOf k
    (∀ ver, s.msg n = some (.release cl t k id true ver) → s.waitsBefore n cl t false = false → s.homeOf cl t = .here ch → s.homeRec ch t = some h →
      exec (.releaseAtHome n) s =
        .next (((s.putHome { h with rver := ver, loc := (s.holdsRelease cl t).toNat, ownc := cl, wown := noOwner, super := false, wrote := [] }).dropMsg n).answered k id)) ∧
    (∀ ver, s.msg n = some (.release cl t k id false ver) → s.waitsBefore n cl t false = false → s.homeOf cl t = .here ch → s.homeRec ch t = some h →
      (h.wown = cl → h.super = true → exec (.releaseAtHome n) s = .next (((s.putHome
        { h with rver := (h.rver + 1) % 65536, loc := 0, wown := noOwner, super := false, wrote := [] }).dropMsg n).answered k id)) ∧
      (h.wown ≠ cl ∨ h.super = false → exec (.releaseAtHome n) s = .next (((s.putHome h).dropMsg n).answered k id))) ∧
    (∀ f sent, s.msg n = some (.tacq k id t f sent) → s.isFilling cl t = false → s.isDraining cl t = false → s.homeAt cl t = .here ch →
      s.homeRec ch t = some h →
      (verGe h.rver f = true → s.held cl t = none → exec (.tacqAtHome n) s =
        .next ((((s.dropMsg n).draw 1).staleIf cl t.part (fun z => z.names t && verNewer f z.ver)).answered k id)) ∧
      (∀ key, verGe h.rver f = true → s.held cl t = some key → (s.frame cl key).st = .clean → verNewer f (s.frame cl key).ver = true →
        Happens (.tacqAtHome n) s (fun u => (u.frame cl key).st = .invalid)) ∧
      (verGe h.rver f = false → exec (.tacqAtHome n) s = .next (s.draw 1))) ∧
    (∀ f sent, s.msg n = some (.tacq k id t f sent) →
      (s.dev.ptime.toNat ≤ s.arrived sent + (s.desc t.part t.tid).leaseNs → exec (.tacqTimeout n) s = .next s) ∧
      (s.arrived sent + (s.desc t.part t.tid).leaseNs < s.dev.ptime.toNat →
        exec (.tacqTimeout n) s = .next ((s.dropMsg n).answerFault k id ⟨0x11, 0, t.q⟩))) ∧
    (∀ op m, s.msg n = some (.reduce k id t op m) → s.isDraining cl t = false → s.waitsBefore n cl t false = false → s.moving t = false →
      s.homeAt cl t = .here ch → s.homeRec ch t = some h → h.wown = noOwner → h.loc ≠ 1 →
      let d := match (s.core k).cmd id with | some x => x.desc s t.tid | none => s.desc t.part t.tid
      s.mayTile (1024 + cl) d t = true →
      exec (.reductionAtHome n) s =
        .next (((((s.putHome h).dropMsg n).passTile (1024 + cl) d t).reduceTile (1024 + cl) d t op m).answered k id))

/-- R194, R197, R205, R207, R210, R218, R304: a frame that no command writes is read out: for a serve or a grant it stays CLEAN with its data on
their way to memory, and to the cluster that asked; a victim begins to fill for its next tile; data that arrive are written under the descriptor in
force, and lost with a machine check once it is invalid; a machine check of a frame drops it, one of an idle core does no more than the records; the
partition of an HBM check's record comes with the event (log entry 75). Each completes, with a next state that its clause gives under conditions on
the state and the operands alone: readOutComplete, drainArrival, victimWriteBack, machineCheck. -/
def Obligations.DrainsAndChecks : Prop :=
  ∀ (s : State) (n cl key : Nat) (t : Tile) (sh ver : Nat) (re park : Bool) (m : SMap Byte) (wr : List (Nat × Nat)),
    let f := s.frame cl key
    let d := s.desc t.part t.tid
    let kept : Frame := { f with st := .clean, drn := true, why := .none, wrote := [] }
    let data : Msg := .drainData cl f.tile f.shape f.redef f.ver f.data f.wrote
    (s.beingWritten cl f.tile 768 0 ≠ [] → exec (.readOutComplete cl key) s = .next s) ∧
    (f.st = .draining → s.beingWritten cl f.tile 768 0 = [] →
      (f.why = .serve none false ∨ f.why = .grant → f.wasDirty = false → exec (.readOutComplete cl key) s =
        .next ((s.send data).setFrame cl key kept)) ∧
      (∀ c g, f.why = .serve (some c) g → f.wasDirty = false → Happens (.readOutComplete cl key) s (fun u =>
        u.msgs = s.msgs ++ [data, .fillAns c f.tile f.ver g 0 f.shape f.redef (some f.data)] ∧ u.frame cl key = kept)) ∧
      (∀ u, f.why = .victim → f.next = some u → f.wasDirty = true → exec (.readOutComplete cl key) s =
        .next ((s.send (.wbData cl f.tile f.shape f.redef f.ver f.data false f.wrote)).setFrame cl key
          (f.fillFor u (s.desc u.part u.tid).shape f.ref)))) ∧
    (s.prqWaits (.wb cl t) = false → s.waitsBefore n cl t false = false → d.v = true → d.shape = sh →
      s.tileFault (1024 + cl) t.part accW ((d.tileBytes t).filter (fun b => b.back)) = none →
      let w := ((s.dropMsg n).writeTile (1024 + cl) d t re m).passTile (1024 + cl) d t
      (s.msg n = some (.drainData cl t sh re ver m wr) → exec (.drainArrival n) s =
        .next (w.updHome t (fun h => if h.loc == 1 && h.ownc == cl then { h with loc := 0 } else h))) ∧
      (s.msg n = some (.wbData cl t sh re ver m park wr) → exec (.victimWriteBack n) s = .next (w.updHome t (fun h =>
        if h.wown == cl then { h with super := true, wown := if park then parkedOwner else cl, wrote := h.wrote ++ wr } else h)))) ∧
    (s.prqWaits (.wb cl t) = false → s.waitsBefore n cl t false = false → d.v = false → s.msg n = some (.wbData cl t sh re ver m park wr) →
      exec (.victimWriteBack n) s = .next (((s.dropMsg n).mcheck t.part 0xFFFF t.q 1 ver).lostFrame cl t true wr)) ∧
    (Happens (.machineCheck 1 cl key) s (fun u => (u.frame cl key).st = .invalid)) ∧
    (∀ x y, exec (.machineCheck 3 x y) s = .next (s.mcheck (y % 64) 0xFFFF x 3 0)) ∧
    (∀ k, (s.core k).run = .idle → exec (.machineCheck 5 k 0) s = .next (s.mcheck (s.core k).csr.partid.toNat k 0 5 0)) ∧
    (∀ k, (s.core k).run = .task → Happens (.machineCheck 5 k 0) s (fun u => (u.core k).run = .aborting))

/-- R233, R239, R246: at its home a release orders a drain of another core's release record, writes its value and takes the record; an acquire
drains another core's record and is held while a drain is open or an earlier access of its core to the word is (R236), and otherwise its home
replies with the word; a drain writes back the releaser's DIRTY lines of the region; and the value lands as the core's CLEAN and read-only lines of
the region go. R267: the new value of each operation on operands of n bytes, 4 or 8: ADD wraps, AND, OR and XOR are bitwise, MIN and MAX are signed,
MIN.U and MAX.U unsigned, SWAP stores, FADD rounds to nearest even, FMIN and FMAX are R40's, and CAS stores when it finds its compare value; a slice
applies it indivisibly and a returning one's destination receives the old value, and a reduction that finds its partition's share full waits; that
the slice then applies the partition's oldest entry, in one instant, is log entries 47 and 28. R271: a host atomic is done in host memory, or given
up with memory unchanged. Each completes, with a next state that its clause gives under conditions on the state and the operands alone: amo,
relAtHome, acqAtHome, acqReply, regionDrain, regionDrainComplete, amoAtSlice, hostAtomicCompletion, hostAtomicExhausted. -/
def Obligations.RegionAndAtomicEvents : Prop :=
  (∀ (s : State) (n k part word pa v : Nat),
     let r := s.recOf part word
     let drain : Msg := .drainOrder r part word
     (s.msg n = some (.rel k part word pa v) → (∀ m ∈ s.msgs.take n, ∀ a b, m ≠ .rel k part word a b) →
       s.hostBehind s.clock (.amo 0 pa 0 8 0 0 0 true 0) = false → s.mayInject part pa = true →
       Happens (.relAtHome n) s (fun t => t.recOf part word = k ∧ t.rdMem pa 8 = v % 2 ^ 64 ∧ (∀ a, a < pa ∨ pa + 8 ≤ a → t.byte a = s.byte a) ∧
         t.msgs = dropNth s.msgs n ++ (if r ≠ 0x3FF ∧ r ≠ k then [drain] else []))) ∧
     (s.msg n = some (.acq k part word pa) → (∀ m ∈ s.msgs.take n, ∀ a b, m ≠ .rel k part word a b) →
       (s.drainOpen part word = true → exec (.acqAtHome n) s = .next s) ∧
       (s.acqMayRead k pa = false → exec (.acqAtHome n) s = .next s) ∧
       (s.drainOpen part word = false → s.acqMayRead k pa = true → s.mayInject part pa = true → r ≠ 0x3FF → r ≠ k →
         Happens (.acqAtHome n) s (fun t => t.recOf part word = 0x3FF ∧ t.msgs = s.msgs ++ [drain])) ∧
       (s.drainOpen part word = false → s.acqMayRead k pa = true → s.mayInject part pa = true → r = 0x3FF ∨ r = k →
         Happens (.acqAtHome n) s (fun t => t.msgs = dropNth s.msgs n ++ [.acqReply k part word (s.rdMem pa 8)] ∧ t.mem = s.mem ∧ t.recs = s.recs))) ∧
     (s.msg n = some (.drainOrder k part word) → exec (.regionDrain n) s = .next (((s.eachLine k (fun l =>
       l.st == .dirty && s.regionLine k part word l) (fun s w => s.writeBackLine k w)).dropMsg n).send (.drainDone k part word))) ∧
     (s.msg n = some (.drainDone k part word) → exec (.regionDrainComplete n) s = .next (s.dropMsg n)) ∧
     (∀ l, s.msg n = some (.acqReply k part word v) → (s.core k).loads = [l] → l.acq = true →
       Happens (.acqReply n) s (fun t => t.msgs = dropNth s.msgs n ∧ (t.core k).loads = [] ∧
         (t.core k).regs = ((s.core k).write l.dest v none).regs ∧
         (t.core k).l0 = ((s.dropLines k (fun x => (x.st == .clean || x.st == .ro) && s.regionLine k part word x)).core k).l0))) ∧
  (∀ (s : State) (k i n : Nat),
     (∀ w old x cmp, (w = 4 ∨ w = 8) → old < 2 ^ (8 * w) → x < 2 ^ (8 * w) →
       let f := if w = 8 then 14 else 0
       let lt (a b : Nat) : Bool := (BitVec.ofNat (8 * w) a).slt (BitVec.ofNat (8 * w) b)
       amoNew 0 w old x cmp = (old + x) % 2 ^ (8 * w) ∧ amoNew 1 w old x cmp = old &&& x ∧ amoNew 2 w old x cmp = old ||| x ∧
       amoNew 3 w old x cmp = old ^^^ x ∧ amoNew 4 w old x cmp = (if lt x old then x else old) ∧
       amoNew 5 w old x cmp = (if lt old x then x else old) ∧ amoNew 6 w old x cmp = min old x ∧ amoNew 7 w old x cmp = max old x ∧
       amoNew 8 w old x cmp = x ∧ amoNew 9 w old x cmp = (fAdd f rne old x).1 ∧ amoNew 10 w old x cmp = (fMinMax f false old x).1 ∧
       amoNew 11 w old x cmp = (fMinMax f true old x).1 ∧ amoNew 16 w old x cmp = (if old = cmp then x else old)) ∧
     (∀ seq pa gva opc x cmp ret own, let o := MemOp.amo seq pa gva n opc x cmp ret own
       let part := own % 256
       (s.core k).mq[i]? = some o → s.mayPerform k o = true → s.behind (clusterOf k) none o = false → s.mayInject part pa = true →
       (ret = true ∨ s.shareFull part pa = false → Happens (.amoAtSlice k i) s (fun t =>
         t.rdMem pa n = amoNew opc n (s.rdMem pa n) x cmp % 2 ^ (8 * n) ∧ (∀ a, a < pa ∨ pa + n ≤ a → t.byte a = s.byte a) ∧
         (t.core k).mq = dropNth (s.core k).mq i ∧ (t.core k).loads = (if ret then fillLoads seq n (s.rdMem pa n) (s.core k).loads else (s.core k).loads) ∧
         (∀ j, j ≠ k → t.core j = s.core j))) ∧
       (ret = false → s.shareFull part pa = true → s.wqHeld part pa ≠ [] → exec (.amoAtSlice k i) s = .next (s.applyOldest part pa))) ∧
     (∀ pa opc x cmp, let o := MemOp.amo (s.core k).nextSeq pa 0 n opc x cmp true 0
       (s.core k).hostAt = .asked pa n opc x cmp →
       (s.mayPerform k o = true → s.behind (clusterOf k) none o = false → s.hostBehind s.clock o = false →
         s.mayInject (s.core k).csr.partid.toNat pa = true →
         Happens (.hostAtomicCompletion k) s (fun t => t.rdMem pa n = amoNew opc n (s.rdMem pa n) x cmp % 2 ^ (8 * n) ∧
           (∀ a, a < pa ∨ pa + n ≤ a → t.byte a = s.byte a) ∧ (t.core k).hostAt = .done (s.rdMem pa n))) ∧
       (opc ≠ 0 → opc ≠ 8 → opc ≠ 16 → Happens (.hostAtomicExhausted k) s (fun t => (t.core k).hostAt = .failed ∧ t.mem = s.mem))))

/-- R263 to R265, R281, R395: at its target a request is refused unless an enabled partition maps its page with the permission it needs; a read
answers the value, a store writes it, a fetch-and-add answers the old value and writes the sum. An answer completes the request of its core, a
refusal fails it with PERM, cause 6, and no answer in 20,000 ns, or a failed path, with FABRIC. A frame from the fabric carries a request. Each
completes, with a next state that its clause gives under conditions on the state and the operands alone: fabricRequestAtTarget, fabricReply,
fabricTimeout, fabricPathFailure, shunerFrameReceive. -/
def Obligations.FabricEvents : Prop :=
  ∀ (s : State) (n dev off v : Nat) (c : Option (Nat × Nat)),
    let at_ (kind : Nat) : Prop := s.msg n = some (.fabReq c dev kind off v) ∧
      (∀ m ∈ s.msgs.take n, ∀ k o x, m = .fabReq c dev k o x → o / 8 ≠ off / 8)
    let fits (kind : Nat) : Prop := paKind off = .localHbm ∧ s.mapped off (fabricAcc kind) = true
    let old := s.rdMem off 8
    let u (kind : Nat) : State := ((s.dropMsg n).closeLine off).servedFab c dev (((s.dropMsg n).mapper off (fabricAcc kind)).getD 0) off
    (∀ kind, at_ kind → ¬ fits kind → exec (.fabricRequestAtTarget n) s = .next ((s.dropMsg n).fabAnswer c dev 0 false)) ∧
    (at_ 0 → fits 0 → exec (.fabricRequestAtTarget n) s = .next ((u 0).fabAnswer c dev old true)) ∧
    (at_ 1 → fits 1 → exec (.fabricRequestAtTarget n) s = .next (((u 1).wrMem off 8 v).fabAnswer c dev 0 true)) ∧
    (at_ 2 → fits 2 → exec (.fabricRequestAtTarget n) s = .next (((u 2).wrMem off 8 (old + v)).fabAnswer c dev old true)) ∧
    (∀ k i x gd e d ga, (s.core k).cmds[i]? = some x → x.ins = .rld gd e d ga → x.st = .running → x.ready = false → x.fail = none → x.save = none →
      fabricDev (nth x.args 0 0) ≠ s.dev.fabid → k < 768 → (s.core k).run = .task → (s.core k).cmds.Pairwise (fun a b => a.id ≠ b.id) →
      ((s.core k).tok x.tp).latest = some x.id → (∀ y ∈ (s.core k).cmds, x.id ∉ y.deps ∧ y.fail = none) →
      let fails (f : FaultInfo) (t : State) : Prop := ((t.core k).tok x.tp).st = .error ∧ ((t.core k).tok x.tp).flt = some ⟨f, x.tp, false⟩ ∧
        (t.core k).regs = (s.core k).regs
      Happens (.fabricReply k i 1 v) s (fun t =>
        (t.core k).regs = ((s.core k).arrive (.g d x.hb) v).regs ∧ (t.core k).fly = ((s.core k).arrive (.g d x.hb) v).fly ∧
        ((t.core k).tok x.tp).st = .done) ∧
      Happens (.fabricReply k i 0 v) s (fails ⟨7, 6, 0⟩) ∧
      (x.sentAt + 20000 ≤ s.dev.ptime.toNat → Happens (.fabricTimeout k i) s (fails ⟨0x12, 0, 0⟩)) ∧
      (s.dev.ptime.toNat < x.sentAt + 20000 → exec (.fabricTimeout k i) s = .next s) ∧
      Happens (.fabricPathFailure k i) s (fails ⟨0x12, 0, 0⟩)) ∧
    (∀ src kind, kind < 7 → exec (.shunerFrameReceive 1 src kind off v) s = .next (s.send (.fabReq none src kind (off % 2 ^ 39) v))) ∧
    (∀ src, s.leased (tileOf v off) = true → exec (.shunerFrameReceive 1 src 8 off v) s = .next (s.send (.leaseRecall (tileOf v off)))) ∧
    (∀ crc src kind, crc ≠ 1 → exec (.shunerFrameReceive crc src kind off v) s = .next s)

/-- R301, R302, R359, R360, R385: an answer to a page request frees its entry, and lets what waits try again; cached translations are dropped by an
invalidation or their expiry; a bump of a function is queued and its GENRES BUSY, a fifth one behind a BUSY bump is dropped and said so; a bump of
one page adds one to its generation, and is held while the page held the new value less than 50 µs ago. That one from a function without a right to
it, or with a size of 3, is ignored is log entry 53. Each completes, with a next state that its clause gives under conditions on the state and the
operands alone: prqresp, priPageGroupResponse, atsInvalidation, translationCacheExpiry, genbump, generationBumpComplete, generationBumpHold. -/
def Obligations.TranslationEvents : Prop :=
  ∀ (s : State) (fn v n : Nat) (e : Prq) (b : Bump),
    (bitOf v 12 = true → s.prq.find? (fun x => x.ix == v % 4096) = some e → fn = 0 ∨ s.fnPart fn = some e.part →
      exec (.prqresp fn v) s = .next { s with prq := s.prq.filter (fun x => x.ix != e.ix) }) ∧
    (∀ h, s.prq.find? (fun x => x.ix == n) = some e → s.hostPage e.part e.stage e.page = some h → exec (.priPageGroupResponse n 1) s =
      .next { s with prq := s.prq.filter (fun x => x.ix != e.ix), absent := s.absent.filter (fun x => x != (e.part, h)) }) ∧
    (∀ part page, Happens (.atsInvalidation part page) s (fun t =>
      t = { s with xlats := t.xlats, absent := t.absent, freeCtr := t.freeCtr } ∧
      ∀ x, x ∈ t.xlats ↔ x ∈ s.xlats ∧ ¬ (x.part = part ∧ x.page = page ∧ paKind (x.target * 65536) = .host))) ∧
    (exec (.translationCacheExpiry n) s = .next { s with xlats := dropNth s.xlats n }) ∧
    (let stage := 1 + fld v 2 1
     fld v 0 2 ≠ 3 → (fn = 0 ↔ stage = 2) → (fn ≠ 0 → (s.fnPart fn).isSome = true) →
     let mine := (s.bumps.filter (fun x => x.fn == fn)).length
     (mine < 5 → Happens (.genbump fn v) s (fun t =>
       t.bumps = s.bumps ++ [⟨fn, stage, fld v 0 2, fld v 16 40 * 65536, false⟩] ∧ bitOf (t.genres fn) 31 = true)) ∧
     (5 ≤ mine → Happens (.genbump fn v) s (fun t => t.bumps = s.bumps ∧ bitOf (t.genres fn) 30 = true))) ∧
    (s.firstBump n = some b → s.genPlaced = true → ∀ page, s.bumpPages b = [page] →
      let a := s.dev.genbase + 2 * page + (b.stage - 1)
      (s.heldGen b.stage page = true →
        exec (.generationBumpComplete n) s = .next { s with bumps := modNth s.bumps n (fun x => { x with held := true }) } ∧
        exec (.generationBumpHold n) s = .next s) ∧
      (s.heldGen b.stage page = false →
        (b.held = false → Happens (.generationBumpComplete n) s (fun t =>
          t.rdMem a 1 = (s.rdMem a 1 + 1) % 256 ∧ (∀ x, x ≠ a → t.byte x = s.byte x) ∧ t.bumps = dropNth s.bumps n)) ∧
        (b.held = true → Happens (.generationBumpHold n) s (fun t =>
          t.rdMem a 1 = (s.rdMem a 1 + 1) % 256 ∧ (∀ x, x ≠ a → t.byte x = s.byte x) ∧ t.bumps = dropNth s.bumps n))))

/-- R387 to R391: a doorbell of a ring there is is taken when it is neither behind PIDX nor more than 2^RSZ ahead of CIDX, and sets DBERR otherwise;
the current command's record goes to the completion ring, whose phase bit is that of CPIDX, and raises the queue's vector, if the function has it,
when the ring was empty; a command its ring does not know, or with an operand out of range, is taken and ends with its status. Which status a
malformed command has is log entry 59. Each completes, with a next state that its clause gives under conditions on the state and the operands alone:
doorbell, ringCommandCompletion. -/
def Obligations.HostRings : Prop :=
  ∀ (s : State) (fn q v : Nat),
    let key := qkey fn q
    let x := s.qcb key
    let p := BitVec.ofNat 32 v
    let known := fn ≤ 256 ∧ q < 17
    (¬ known → exec (.doorbell fn q v) s = .next s) ∧
    (known → exec (.doorbell fn q v) s = .next (s.updQcb key (fun x =>
      if (x.pidx - x.cidx).toNat ≤ (p - x.cidx).toNat ∧ (p - x.cidx).toNat ≤ 2 ^ x.rsz then { x with pidx := p } else { x with dberr := true }))) ∧
    (∀ tag st f r, x.busy = some (tag, st, f, r) → st < 256 → Happens (.ringCommandCompletion fn q) s (fun t =>
      let a := hostPa (x.cbase + 32 * (x.cpidx.toNat % 2 ^ x.csz))
      t.bytes a 32 = toBytes 2 tag ++ toBytes 1 st ++ toBytes 1 (bitOf x.cpidx.toNat x.csz).toNat ++ toBytes 4 f ++ toBytes 8 r ++ toBytes 8 0 ++
        toBytes 8 s.dev.ptime.toNat ∧
      (∀ p, p < a ∨ a + 32 ≤ p → t.byte p = s.byte p) ∧ (t.qcb key).cpidx = x.cpidx + 1 ∧ (t.qcb key).busy = none ∧
      t.out = s.out ++ (if x.ccidx = x.cpidx ∧ x.vec < (if key / 17 = 0 then 2048 else 64) then [.msix (key / 17) x.vec] else []))) ∧
    (∀ b st, known → x.busy = none → s.ringHead key = some b → s.refusal key b = some st → Happens (.ringCommandCompletion fn q) s (fun t =>
      (t.qcb key).cidx = x.cidx + 1 ∧ (t.qcb key).cpidx = x.cpidx + 1 ∧ (t.qcb key).busy = none))

/-- R285, R353, R362, R388: LOAD checks the object, copies it and answers its handle, or the check that failed; UNLOAD removes an object no live
launch uses; DESC installs a descriptor that passes its checks; LAUNCH is refused with its status, waits for a ring's frames, or is admitted and
goes on without a record; COPY moves the bytes it read, and no other byte changes. LOAD and COPY wait while a bucket of the partition's holds one of
their requests (R274). The statuses of malformed or misplaced commands are log entry 59, the details of the checks of LOAD log entry 60, and where
the roots of a LAUNCH stand log entry 65. Each completes, with a next state that its clause gives under conditions on the state and the operands
alone: load, unload, descriptorCommand, launch, copy. -/
def Obligations.RingCommands : Prop :=
  ∀ (s : State) (fn q : Nat) (b : List Byte),
    let key := qkey fn q
    let part := (s.fnPart fn).getD 0
    let good (opc : Nat) : Option (List Byte) := s.goodOf fn q opc
    let ends (i : Instr) (u : State) (st f r : Nat) : Prop := exec i s = .next (u.taken key b (some (st, f, r)))
    let im : Image := ⟨hostPa (imgFld b 8 8), imgFld b 0x18 4⟩
    let dest := imgFld b 0x10 8
    let passes (as : List Nat) : Prop := ∀ a ∈ as, s.mayInject part a = true
    (∀ st o, good 1 = some b → s.checkCode im part dest = .error (st, o) → ends (.load fn q) s st o 0) ∧
    (∀ c as, good 1 = some b → s.checkCode im part dest = .ok c → s.guestAddrs part dest im.size (accR + accX) = .ok as →
      (passes (upFrom im.pa im.size ++ as) → Happens (.load fn q) s (fun t => t.code s.nextCode = some c ∧
        (t.qcb key).busy = some (imgFld b 2 2, 0, 0, s.nextCode) ∧ t.nextCode = s.nextCode + 1)) ∧
      (¬ passes (upFrom im.pa im.size ++ as) → exec (.load fn q) s = .next s)) ∧
    (∀ c, good 2 = some b → s.code (imgFld b 8 4) = some c → c.part = part →
      (s.launches.any (fun l => l.2.codeh == imgFld b 8 4 && !l.2.dropped) = true → ends (.unload fn q) s 0x27 0 0) ∧
      (s.launches.any (fun l => l.2.codeh == imgFld b 8 4 && !l.2.dropped) = false → Happens (.unload fn q) s (fun t =>
        t.code (imgFld b 8 4) = none ∧ (t.qcb key).busy = some (imgFld b 2 2, 0, 0, 0)))) ∧
    (good 3 = some b →
      let img := s.bytes (hostPa (imgFld b 0x10 8)) 128
      (descCheck img (imgFld b 8 4) ((s.part part).fld 0x58 4) = none → ends (.descriptorCommand fn q) (s.setDesc part (imgFld b 8 4) img) 0 0 0) ∧
      (∀ c e, descCheck img (imgFld b 8 4) ((s.part part).fld 0x58 4) = some (c, e) →
        ends (.descriptorCommand fn q) s (if c = 0x0D then 0x31 else 0x30) e 0)) ∧
    (good 4 = some b → s.takeLaunch fn q part b = none → exec (.launch fn q) s = .next s) ∧
    (∀ st f, good 4 = some b → s.takeLaunch fn q part b = some (.error (st, f)) → ends (.launch fn q) s st f 0) ∧
    (∀ t l x, good 4 = some b → s.takeLaunch fn q part b = some (.ok (t, l)) → t.launch l = some x → x.live ≠ 0 →
      exec (.launch fn q) s = .next (t.taken key b none)) ∧
    (∀ src dst : List Nat, good 5 = some b → s.copySide part (imgFld b 8 8) (imgFld b 0x18 8) accR (imgFld b 1 1 == 0) = .ok src →
      s.copySide part (imgFld b 0x10 8) (imgFld b 0x18 8) accW (imgFld b 1 1 == 1) = .ok dst →
      (passes (src ++ dst) → dst.Nodup → Happens (.copy fn q) s (fun t =>
        (∀ (i a d : Nat), src[i]? = some a → dst[i]? = some d → t.byte d = s.byte a) ∧ (∀ a, a ∉ dst → t.byte a = s.byte a) ∧
        (t.qcb key).busy = some (imgFld b 2 2, 0, 0, 0))) ∧
      (¬ passes (src ++ dst) → exec (.copy fn q) s = .next s)) ∧
    (∀ e, good 5 = some b → s.copySide part (imgFld b 8 8) (imgFld b 0x18 8) accR (imgFld b 1 1 == 0) = .error e →
      ends (.copy fn q) s 0x32 e.code 0)

/-- R311, R312: QSTART makes a STOPPED or SAVED queue ACTIVE. QSTOP takes an ACTIVE queue to DRAINING and waits while it has live launches, or, to
save it, running tasks; QSWAP starts the other queue as well. A queue in another state is left as it is. When a QSWAP of such a queue ends is log
entry 58. Each completes, with a next state that its clause gives under conditions on the state and the operands alone: qstart, qstopDrain,
qstopSave, qswap. -/
def Obligations.QueueControl : Prop :=
  ∀ (s : State) (fn q r : Nat) (b : List Byte), q < 16 → r < 16 →
    let key := qkey fn q
    let ctl := qkey fn 16
    let tag := imgFld b 2 2
    let live : Prop := s.launches.any (fun e => e.2.key == key && !e.2.dropped) = true
    let waits (t : State) (save : Bool) : Prop := (t.qcb key).qstate = 1 ∧ (t.qcb key).toSave = save ∧ (t.qcb key).waiting = some tag ∧
      (t.qcb ctl).busy = some (tag, 256, 0, 0) ∧ (t.qcb ctl).cidx = (s.qcb ctl).cidx + 1
    (s.goodOf fn 16 0x10 = some b → imgFld b 8 1 = q →
      ((s.qcb key).qstate = 2 ∨ (s.qcb key).qstate = 3 → (s.qcb key).saved = [] → Happens (.qstart fn q) s (fun t => (t.qcb key).qstate = 0 ∧
        (t.qcb ctl).busy = some (tag, 0, 0, 0))) ∧
      ((s.qcb key).qstate = 0 ∨ (s.qcb key).qstate = 1 → exec (.qstart fn q) s = .next (s.taken ctl b (some (0, 0, 0))))) ∧
    (s.goodOf fn 16 0x11 = some b → imgFld b 8 1 = q → imgFld b 0xA 1 = 0 →
      ((s.qcb key).qstate = 0 → (s.qcb key).toSave = false → live → Happens (.qstopDrain fn q) s (fun t => waits t false)) ∧
      ((s.qcb key).qstate ≠ 0 → exec (.qstopDrain fn q) s = .next (s.taken ctl b (some (0, 0, 0))))) ∧
    (s.goodOf fn 16 0x11 = some b → imgFld b 8 1 = q → imgFld b 0xA 1 = 1 →
      ((s.qcb key).qstate = 0 → (s.qcb key).runN ≠ 0 → Happens (.qstopSave fn q) s (fun t => waits t true)) ∧
      ((s.qcb key).qstate ≠ 0 → exec (.qstopSave fn q) s = .next (s.taken ctl b (some (0, 0, 0))))) ∧
    (s.goodOf fn 16 0x12 = some b → imgFld b 8 1 = q → imgFld b 9 1 = r → imgFld b 0xA 1 = 0 → s.vacating fn = false →
      ((s.qcb key).qstate = 0 → (s.qcb key).toSave = false → live → (s.qcb (qkey fn r)).qstate = 3 → (s.qcb (qkey fn r)).saved = [] →
        Happens (.qswap fn q r 0) s (fun t => waits t false ∧ (t.qcb (qkey fn r)).qstate = 0)) ∧
      ((s.qcb (qkey fn r)).qstate = 0 ∨ (s.qcb (qkey fn r)).qstate = 1 → exec (.qswap fn q r 0) s = .next (s.taken ctl b (some (0, 0, 0)))))

/-- R313 to R323: a vacate is refused with NO_PARTITION, PERM or BUSY, or with the limit its choices meet, and otherwise takes its frames and its
choices take effect; every 2,000 ns a queue that can no longer end in time moves down to checkpoint; a vacant target is reported with its outcomes;
and a resumed one returns to its queues' states. Omfin hears of each end. A vacate holds a lower frequency that is not in force yet (R324, R392).
The bound of a choice with queues still undecided counts their list frames (log entry 66). Each completes, with a next state that its clause gives
under conditions on the state and the operands alone: vacate, sageEvaluation, vacancy, resume. -/
def Obligations.Vacates : Prop :=
  ∀ (s : State) (n kind id qm dl drop part key st : Nat) (v : Vacate),
    let tells (i : Instr) (u : State) (op status field r : Nat) : Prop :=
      exec i s = .next (u.emit (.mctp op [status, field, r, s.dev.ptime.toNat]))
    let post := Instr.vacate 1 kind id qm dl drop
    let keys := s.targetQueues kind id qm
    let want : Plan := ⟨kind, part, dl, keys.map (fun k => (k, 3)), [], keys⟩
    (s.targetPart kind id = none → tells post s 0x13 7 0 0) ∧
    (s.targetPart kind id = some part → s.mayPost part 1 = false → tells post s 0x13 0x33 0 0) ∧
    (s.targetPart kind id = some part → s.mayPost part 1 = true → s.vacates.any (fun x => x.part == part && !x.done) = true →
      tells post s 0x13 0x13 0 0) ∧
    (s.targetPart kind id = some part → s.mayPost part 1 = true → s.vacates.any (fun x => x.part == part && !x.done) = false →
      (∀ e, s.choose keys want = .error e → tells post s 0x13 e.1 e.2 0) ∧
      (∀ p u fs, s.choose keys want = .ok p → s.popFrames part (s.planFrames p.queues) = some (u, fs) → exec post s =
        .next (p.queues.foldl (fun w x => w.applyChoice x.1 x.2 (drop == 1)) (State.holdLower { u with vacates := u.vacates ++ [
          { kind := kind, id := id, qmask := qm, part := part, deadline := dl, drop := drop == 1, tag := none,
            queues := p.queues.map (fun x => (x.1, x.2, (s.qcb x.1).snapshot)), frames := fs, lists := [],
            clusters := (s.part part).clusters.length, done := false, next := s.dev.ptime.toNat + 2000 }] }))) ∧
      (s.dev.opbusy = true → fld s.dev.opreq.toNat 16 16 < s.dev.opcur.1 →
        s.holdLower = { s with dev := { s.dev with ophold := true, opbusy := false } })) ∧
    (s.vacates[n]? = some v → v.done = false → v.kind ≠ 0 → v.queues = [(key, 0, st)] →
      let due : State := { s with vacates := modNth s.vacates n (fun x => { x with next := x.next + 2000 }) }
      (s.dev.ptime.toNat < v.next → exec (.sageEvaluation n) s = .next s) ∧
      (v.next ≤ s.dev.ptime.toNat → due.runFits v.plan key = true → due.fits (v.plan.with key 1) 2000 = true →
        exec (.sageEvaluation n) s = .next due) ∧
      (v.next ≤ s.dev.ptime.toNat → due.runFits v.plan key = false → (s.qcb key).disc = false →
        exec (.sageEvaluation n) s = .next (due.moveDown n key 1 v.drop))) ∧
    (s.vacates[n]? = some v → v.done = false →
      (s.vacant v = false → exec (.vacancy n) s = .next s) ∧
      (s.vacant v = true → v.tag = none → v.queues = [(key, 0, st)] → Happens (.vacancy n) s (fun t =>
        t.out = s.out ++ [.mctp 0x13 [0, 0, v.outcome, s.dev.ptime.toNat]] ∧ (t.vacates[n]?).map (fun x => x.done) = some true))) ∧
    (s.targetPart kind id = some part → s.mayPost part 1 = true → s.vacated kind id qm = none → tells (.resume 1 kind id qm) s 0x14 6 0 0) ∧
    (s.targetPart kind id = some part → s.mayPost part 1 = true → s.vacated kind id qm = some (n, v) → kind ≠ 0 → v.queues = [(key, 0, st)] →
      (st = 0 ∨ st = 3) → (s.qcb key).saved = [] → v.lists = [] → Happens (.resume 1 kind id qm) s (fun t =>
        (t.qcb key).qstate = st ∧ t.vacates = dropNth s.vacates n ∧ t.out = s.out ++ [.mctp 0x14 [0, 0, 0, s.dev.ptime.toNat]]))

/-- R386, R392, R393: OWNCLAIM is taken while there is no owner, HANDOVER from the owner alone; OPREQ is accepted at 320 to 420 mV, at 800 MHz or
more in steps of 25 and at most 1,800 + 10 (VMV − 350) MHz, held while a vacate is pending and it lowers the frequency, and sets OPERR otherwise; a
change raises the voltage before the frequency changes and lowers it after, in two steps; CLSTATE holds a cluster, and one returns to ACTIVE at its
wake. R365, R366, R384, R385, R387: the owner sets EN of a partition whose checks hold, clears it without live launches, saved tasks or vacates, and
a reset clears its fault ring's indices, its tiles, its ready queues and rings. A register write lands in the register at its offset: a queue's
PIDX, VEC and CCIDX, OPREQ, the fault ring's CIDX, FABID of the owner's. There are no functions beyond 256 (R383). How a write merges into a
register is log entry 68, what a partition reset clears log entry 73, and that the return to ACTIVE is an event of its own log entry 74. Each
completes, with a next state that its clause gives under conditions on the state and the operands alone: ownclaim, handover, opreq, clstate,
operatingPointSwitch, clusterWake, partitionEnable, partitionDisable, partitionReset, registerWrite. -/
def Obligations.DeviceRegisters : Prop :=
  (∀ (s : State) (w v : Nat),
     let dev (f : Dev → Dev) : State := { s with dev := f s.dev }
     let owns := w ≠ 0 ∧ fld s.dev.owner.toNat 56 8 = w
     let mhz := fld v 16 16
     let mv := fld v 0 16
     let ok := 320 ≤ mv ∧ mv ≤ 420 ∧ mhz % 25 = 0 ∧ 800 ≤ mhz ∧ mhz + 3500 ≤ 1800 + 10 * mv
     let hold := decide (mhz < s.dev.opcur.1) && s.vacates.any (fun x => !x.done)
     (w ≠ 0 → fld s.dev.owner.toNat 56 8 = 0 → fld v 56 8 = w → exec (.ownclaim w v) s = .next (dev (fun d => { d with owner := BitVec.ofNat 64 v }))) ∧
     (fld s.dev.owner.toNat 56 8 ≠ 0 ∨ fld v 56 8 ≠ w → exec (.ownclaim w v) s = .next s) ∧
     (owns → exec (.handover w v) s = .next (dev (fun d => { d with owner := BitVec.ofNat 64 v }))) ∧
     (¬ owns → exec (.handover w v) s = .next s ∧ exec (.opreq w v) s = .next s ∧ exec (.clstate w v) s = .next s) ∧
     (owns → v < 2 ^ 32 → ok → exec (.opreq w v) s = .next (dev (fun d =>
       { d with opreq := BitVec.ofNat 32 v, operr := false, ophold := hold, opbusy := !hold }))) ∧
     (owns → v < 2 ^ 32 → ¬ ok → exec (.opreq w v) s = .next (dev (fun d => { d with operr := true }))) ∧
     (let c := s.dev.opcur
      let r := (fld s.dev.opreq.toNat 16 16, fld s.dev.opreq.toNat 0 16)
      (s.dev.opbusy = false → exec .operatingPointSwitch s = .next s) ∧
      (s.dev.opbusy = true → c.2 < r.2 → exec .operatingPointSwitch s = .next (dev (fun d =>
        { d with opcur := (c.1, r.2), opbusy := decide (c.1 ≠ r.1) }))) ∧
      (s.dev.opbusy = true → r.2 ≤ c.2 → c.1 ≠ r.1 → exec .operatingPointSwitch s = .next (dev (fun d =>
        { d with opcur := (r.1, c.2), opbusy := decide (c.2 ≠ r.2) }))) ∧
      (s.dev.opbusy = true → r.2 ≤ c.2 → c.1 = r.1 → exec .operatingPointSwitch s = .next (dev (fun d => { d with opcur := r, opbusy := false })))) ∧
     (owns → (∃ cl, cl < 96 ∧ fld v (2 * cl) 2 = 2 ∧ s.clState cl ≠ 2 ∧ s.gateOk cl = false) →
       exec (.clstate w v) s = .next (dev (fun d => { d with clerr := true }))) ∧
     (owns → (∀ cl, cl < 96 → fld v (2 * cl) 2 ≠ 2) → Happens (.clstate w v) s (fun t => t.dev.clerr = false ∧ ∀ cl, cl < 96 →
       t.clState cl = if fld v (2 * cl) 2 = 1 then 1 else s.clState cl)) ∧
     (∀ cl, mget s.dev.wake cl 0 = 1 → Happens (.clusterWake cl) s (fun t => t.clState cl = 0 ∧ t.clocked cl = (!s.dev.trip && !s.refillDue && decide (cl < 96))))) ∧
  (∀ (s : State) (w part fn q v : Nat),
     let owns := w ≠ 0 ∧ fld s.dev.owner.toNat 56 8 = w
     let p := s.part part
     (owns → part < 48 → p.en = false → enableOk p (s.others part) = true → Happens (.partitionEnable w part) s (fun t =>
       (t.part part).en = true ∧ (∀ k, k ≠ part → t.part k = s.part k) ∧ t = { s with parts := t.parts })) ∧
     (¬ owns ∨ enableOk p (s.others part) = false → exec (.partitionEnable w part) s = .next s) ∧
     (owns → part < 48 → s.launches.any (fun l => l.2.part == part && !l.2.dropped) = false →
       (∀ k ∈ s.partQueues part, (s.qcb k).saved = []) → (∀ x ∈ s.vacates, x.part = part → x.done = true) → Happens (.partitionDisable w part) s (fun t =>
         (t.part part).en = false ∧ (∀ k, k ≠ part → t.part k = s.part k) ∧ t = { s with parts := t.parts })) ∧
     (owns → part < 48 → Happens (.partitionReset w part) s (fun t =>
       (t.part part).frqpidx = 0 ∧ (t.part part).frqcidx = 0 ∧ (t.part part).frqovf = 0 ∧
       (∀ cl k, (t.frame cl k).tile.part = part → (t.frame cl k).st = .invalid ∧ (t.frame cl k).ver = 0) ∧
       (∀ cl e, e ∈ (t.cluster cl).rdq → e.part ≠ part) ∧ ∀ cl prio, prio < 4 → t.ring (ringKey cl part prio) = [])) ∧
     (¬ owns → exec (.partitionDisable w part) s = .next s ∧ exec (.partitionReset w part) s = .next s) ∧
     (256 < fn → exec (.registerWrite w fn 0xC44 4 v) s = .next s) ∧
     (0 < fn → fn ≤ 256 → q < 17 → v < 2 ^ 32 →
       exec (.registerWrite w fn (64 * q + 32) 4 v) s = .next (s.updQcb (qkey fn q) (fun x => x.ring (BitVec.ofNat 32 v))) ∧
       exec (.registerWrite w fn (64 * q + 44) 4 v) s = .next (s.updQcb (qkey fn q) (fun x => { x with ccidx := BitVec.ofNat 32 v })) ∧
       (v < 2 ^ 16 →
         exec (.registerWrite w fn (64 * q + 53) 2 v) s = .next (s.updQcb (qkey fn q) (fun x => { x with vec := v }))) ∧
       (∀ k, s.fnPart fn = some k → exec (.registerWrite w fn 0xC44 4 v) s = .next (s.updPart k (fun x => { x with frqcidx := BitVec.ofNat 32 v })))) ∧
     (v < 2 ^ 32 → exec (.registerWrite w 0 0x20 4 v) s = exec (.opreq w v) s) ∧
     (owns → v < 2 ^ 16 → exec (.registerWrite w 0 0x90 2 v) s = .next { s with dev := { s.dev with fabid := v % 8192 } }))

/-- R372, R373, R377, R378: PTIME counts nanoseconds; a PTP offset sets it at the first lock and INB after four offsets in a row within 15 ns, and
125 ms without a Sync clear INB; a bucket gains 4 RATE bytes every 16 ns, up to BURST KiB; and a floor's segment closes, the 64 most recent being
kept. What a slew does is log entry 57, and from when the 16 ns count log entry 102. R12, R390, R394, R396: at 110 °C the device state is lost and
TRIP stands; a reset leaves every item of the device at its reset value, so neither the host's memory (log entry 69) nor the model's own counters; a
function-level reset ends its launches and clears its control blocks; and boot goes stage by stage until READY, or stops where a stage fails. That
the failing stage stands in BOOTSTAT and READY raises vector 0 is log entry 70. R397, R304: Omfin answers each SPDM request with a message; that a
request out of order is answered with an error, and what the messages hold, are the model's choices (log entries 63, 64). A corrected error is
counted and nothing else changes. Each completes, with a next state that its clause gives under conditions on the state and the operands alone:
ptimeAdvance, ptpMessage, ptpSyncTimeout, bucketRefill, floorSegmentClose, thermalSensorUpdate, hardThermalTrip, packageReset, powerOnReset,
functionLevelReset, bootStage, getVersion, getCapabilities, negotiateAlgorithms, getDigests, getCertificate, challenge, getMeasurements,
correctedError. -/
def Obligations.TimeResetsAndBoot : Prop :=
  (∀ (s : State) (neg o slew : Nat),
     let off : Int := if neg = 1 then -o else o
     let row := if o ≤ 15 then min (s.dev.inRow + 1) 4 else 0
     (exec .ptimeAdvance s = .next { s with dev := { s.dev with ptime := s.dev.ptime + 1 } }) ∧
     (slew ≤ 200 → Happens (.ptpMessage neg o slew) s (fun t =>
       t.dev.lock = true ∧ t.dev.offs = max (-32767) (min 32767 off) ∧ t.dev.inRow = row ∧ t.dev.inb = decide (row = 4) ∧
       t.dev.ptime = (if s.dev.lock then s.dev.ptime else BitVec.ofInt 64 (s.dev.ptime.toNat - off)) ∧ t = { s with dev := t.dev })) ∧
     (s.dev.sync + 125000000 ≤ s.dev.ptime.toNat →
       exec .ptpSyncTimeout s = .next { s with dev := { s.dev with inb := false, inRow := 0 } }) ∧
     (s.dev.ptime.toNat < s.dev.sync + 125000000 → exec .ptpSyncTimeout s = .next s) ∧
     (msorted s.buckets = true → 16 ≤ (s.dev.ptime - s.dev.refilled).toNat → Happens .bucketRefill s (fun t =>
       t = { s with buckets := t.buckets, dev := { s.dev with refilled := s.dev.refilled + 16 } } ∧ ∀ part i, i < 512 →
         t.bucket part i = min (s.bucket part i + (4 * (s.part part).rate i : Nat)) (((s.part part).burst i * 1024 : Nat) : Int))) ∧
     ((s.dev.ptime - s.dev.refilled).toNat < 16 → exec .bucketRefill s = .next s) ∧
     (Happens .floorSegmentClose s (fun t => t = { s with floors := t.floors } ∧
       ∀ part ch, t.floorBytes part ch = sum ((mget s.floors (256 * part + ch) []).take 64)))) ∧
  (∀ (s : State) (v fn : Nat),
     let dev (f : Dev → Dev) : State := { s with dev := f s.dev }
     let fresh : State := { State.reset with mem := s.mem.filter (fun c => paKind c.1 == .host), absent := s.absent, freeCtr := s.freeCtr, clock := s.clock, cur := s.cur, agenda := s.agenda, out := s.out }
     (exec (.thermalSensorUpdate v) s = .next (dev (fun d => { d with therm := BitVec.ofNat 16 v }))) ∧
     (880 ≤ s.dev.therm.toNat → Happens .hardThermalTrip s (fun t =>
       t = { fresh with dev := t.dev, out := t.out } ∧ t.dev = { Dev.reset with trip := true, therm := s.dev.therm, spdm := s.dev.spdm })) ∧
     (s.dev.therm.toNat < 880 → exec .hardThermalTrip s = .next s) ∧
     (exec .packageReset s = .next fresh) ∧ (exec .powerOnReset s = .next fresh) ∧
     (256 < fn → exec (.functionLevelReset fn) s = .next s) ∧
     (fn ≤ 256 → Happens (.functionLevelReset fn) s (fun t => (∀ e ∈ t.launches, e.2.fn ≠ fn) ∧ (∀ q, q < 17 → t.qcb (qkey fn q) = Qcb.reset) ∧
       (fn = 0 → fld s.dev.owner.toNat 56 8 = 1 → t.dev.owner = 0))) ∧
     (s.dev.bootfail = false → s.dev.ready = false →
       (v ≠ 1 → exec (.bootStage v) s = .next (dev (fun d => { d with boot := d.boot + 1, bootfail := true }))) ∧
       (s.dev.boot = 0 ∨ s.dev.boot = 1 → exec (.bootStage 1) s = .next (dev (fun d => { d with boot := d.boot + 1 }))) ∧
       (s.dev.boot = 2 → exec (.bootStage 1) s = .next (dev (fun d => { d with boot := 3, clstate := [], opcur := (1800, 350) }))) ∧
       (s.dev.boot = 3 → exec (.bootStage 1) s = .next ((dev (fun d => { d with boot := 4, ready := true })).emit (.msix 0 0)))) ∧
     (s.dev.bootfail = true ∨ s.dev.ready = true → exec (.bootStage v) s = .next s)) ∧
  (∀ (s : State) (x : Nat),
     let tells (i : Instr) (kind need : Nat) (ok : List Nat → Prop) : Prop :=
       (need ≤ s.dev.spdm → Happens i s (fun t => ∃ l, t.out = s.out ++ [.spdm kind l] ∧ ok l ∧
         t = { s with dev := { s.dev with spdm := t.dev.spdm }, out := t.out, freeCtr := t.freeCtr })) ∧
       (s.dev.spdm < need → Happens i s (fun t => t.out = s.out ++ [.spdm 0x7F [4]] ∧ t.dev = s.dev))
     let is (l m : List Nat) : Prop := m = l
     tells .getVersion 0x04 0 (is [0x12]) ∧ tells .getCapabilities 0x61 1 (is (secretOf 0 4)) ∧
     tells .negotiateAlgorithms 0x63 2 (is [25519, 512]) ∧ tells .getDigests 0x01 3 (is (secretOf 1 64)) ∧
     tells .getCertificate 0x02 3 (is (secretOf 2 1024)) ∧ tells (.challenge x) 0x03 3 (fun l => l.length = 65 ∧ l.head? = some x) ∧
     (1 ≤ x → x ≤ 4 → tells (.getMeasurements x) 0x60 3 (is (x :: secretOf (2 + x) 64))) ∧
     Happens (.correctedError 0 x) s (fun t => t = { s with pmcs := t.pmcs } ∧ ∀ e ∈ s.pmcs, e.1 / 8 = 768 + x % 128 →
       e.2.selects 0x2A (x / 128) = true → (e.1, e.2.add 1) ∈ t.pmcs))
end

