-- ==== Sys2Proof/Laws/Map.lean ====
section
/-! SUPPORT. Tables and byte strings: what a key reads as after a write, and the canonical form that every write keeps. -/

namespace Sys2Proof.Machine

/-! ## Canonical form -/

theorem msorted_cons {α : Type} {a : Nat} {x : α} {t : SMap α} :
    msorted ((a, x) :: t) = true ↔ (∀ b ∈ t, a < b.1) ∧ msorted t = true := by
  induction t generalizing a x with
  | nil => simp [msorted]
  | cons h t ih =>
    obtain ⟨b, y⟩ := h
    simp only [msorted, Bool.and_eq_true, Nat.blt_eq, List.mem_cons, forall_eq_or_imp]
    constructor
    · rintro ⟨h1, h2⟩
      exact ⟨⟨h1, fun c hc => lt_trans h1 ((ih.mp h2).1 c hc)⟩, h2⟩
    · rintro ⟨⟨h1, _⟩, h2⟩
      exact ⟨h1, h2⟩

theorem merase_mem {α : Type} {m : SMap α} {k : Nat} {e : Nat × α} : e ∈ merase m k ↔ e ∈ m ∧ e.1 ≠ k := by
  induction m with
  | nil => simp [merase]
  | cons h t ih =>
    obtain ⟨a, x⟩ := h
    by_cases hk : a = k
    · simp only [merase, hk, beq_self_eq_true, if_true, ih, List.mem_cons]
      constructor
      · rintro ⟨h1, h2⟩; exact ⟨.inr h1, h2⟩
      · rintro ⟨rfl | h1, h2⟩
        · exact absurd rfl h2
        · exact ⟨h1, h2⟩
    · simp only [merase, beq_iff_eq, hk, if_false, ih, List.mem_cons]
      constructor
      · rintro (rfl | ⟨h1, h2⟩)
        · exact ⟨.inl rfl, hk⟩
        · exact ⟨.inr h1, h2⟩
      · rintro ⟨rfl | h1, h2⟩
        · exact .inl rfl
        · exact .inr ⟨h1, h2⟩

theorem merase_sorted {α : Type} {m : SMap α} {k : Nat} (h : msorted m = true) : msorted (merase m k) = true := by
  induction m with
  | nil => rfl
  | cons e t ih =>
    obtain ⟨a, x⟩ := e
    have h' := msorted_cons.mp h
    by_cases hk : a = k
    · simpa [merase, hk] using ih h'.2
    · simp only [merase, beq_iff_eq, hk, if_false]
      exact msorted_cons.mpr ⟨fun b hb => h'.1 b (merase_mem.mp hb).1, ih h'.2⟩

theorem minsert_mem {α : Type} {m : SMap α} {k : Nat} {v : α} {e : Nat × α} : e ∈ minsert m k v ↔ e = (k, v) ∨ e ∈ m := by
  induction m with
  | nil => simp [minsert]
  | cons h t ih =>
    obtain ⟨a, x⟩ := h
    by_cases hk : k < a
    · simp [minsert, hk]
    · simp only [minsert, Nat.blt_eq, hk, if_false, List.mem_cons, ih]
      tauto

theorem minsert_sorted {α : Type} {m : SMap α} {k : Nat} {v : α} (h : msorted m = true) (hk : ∀ e ∈ m, e.1 ≠ k) :
    msorted (minsert m k v) = true := by
  induction m with
  | nil => rfl
  | cons e t ih =>
    obtain ⟨a, x⟩ := e
    have h' := msorted_cons.mp h
    by_cases hlt : k < a
    · simp only [minsert, Nat.blt_eq, hlt, if_true]
      refine msorted_cons.mpr ⟨?_, h⟩
      intro b hb
      rcases List.mem_cons.mp hb with rfl | hb
      · exact hlt
      · exact lt_trans hlt (h'.1 b hb)
    · simp only [minsert, Nat.blt_eq, hlt, if_false]
      refine msorted_cons.mpr ⟨?_, ih h'.2 (fun e he => hk e (List.mem_cons_of_mem _ he))⟩
      intro b hb
      rcases minsert_mem.mp hb with rfl | hb
      · have := hk (a, x) (List.mem_cons_self ..)
        simp only [ne_eq] at this
        omega
      · exact h'.1 b hb

theorem mput_sorted {α : Type} {m : SMap α} {k : Nat} {v : α} (h : msorted m = true) : msorted (mput m k v) = true :=
  minsert_sorted (merase_sorted h) (fun _ he => (merase_mem.mp he).2)

theorem mset_wf {m : SMap Byte} {k : Nat} {v : Byte} (h : Memory.wf m = true) : Memory.wf (mset m k v 0) = true := by
  simp only [Memory.wf, Bool.and_eq_true, List.all_eq_true] at *
  unfold mset
  split
  · exact ⟨merase_sorted h.1, fun e he => h.2 e (merase_mem.mp he).1⟩
  · rename_i hv
    refine ⟨mput_sorted h.1, fun e he => ?_⟩
    rcases minsert_mem.mp he with rfl | he
    · simpa using hv
    · exact h.2 e (merase_mem.mp he).1

theorem msorted_filter {α : Type} {m : SMap α} {f : Nat × α → Bool} (h : msorted m = true) : msorted (m.filter f) = true := by
  induction m with
  | nil => rfl
  | cons a t ih =>
    obtain ⟨k, x⟩ := a
    have h' := msorted_cons.mp h
    rw [List.filter_cons]
    split
    · exact msorted_cons.mpr ⟨fun b hb => h'.1 b (List.mem_filter.mp hb).1, ih h'.2⟩
    · exact ih h'.2

theorem filter_wf {m : SMap Byte} {f : Nat × Byte → Bool} (h : Memory.wf m = true) : Memory.wf (m.filter f) = true := by
  simp only [Memory.wf, Bool.and_eq_true, List.all_eq_true] at h ⊢
  exact ⟨msorted_filter h.1, fun x hx => h.2 x (List.mem_filter.mp hx).1⟩

theorem msetBytes_wf {m : SMap Byte} {k : Nat} {l : List Byte} (h : Memory.wf m = true) : Memory.wf (msetBytes m k l) = true := by
  induction l generalizing m k with
  | nil => exact h
  | cons b t ih => exact ih (mset_wf h)

/-! ## Reading after writing -/

theorem mget_merase_self {α : Type} {m : SMap α} {k : Nat} {d : α} : mget (merase m k) k d = d := by
  induction m with
  | nil => rfl
  | cons e t ih =>
    obtain ⟨a, x⟩ := e
    by_cases hk : a = k
    · simpa [merase, hk] using ih
    · simpa [merase, mget, hk] using ih
theorem mget_merase_of_ne {α : Type} {m : SMap α} {k j : Nat} {d : α} (h : j ≠ k) : mget (merase m k) j d = mget m j d := by
  induction m with
  | nil => rfl
  | cons e t ih =>
    obtain ⟨a, x⟩ := e
    by_cases hk : a = k
    · subst hk
      simpa [merase, mget, Ne.symm h] using ih
    · simp only [merase, beq_iff_eq, hk, if_false, mget, ih]
theorem mget_minsert_self {α : Type} {m : SMap α} {k : Nat} {v d : α} (hk : ∀ e ∈ m, e.1 ≠ k) : mget (minsert m k v) k d = v := by
  induction m with
  | nil => simp [minsert, mget]
  | cons e t ih =>
    obtain ⟨a, x⟩ := e
    have ha : a ≠ k := hk (a, x) (List.mem_cons_self ..)
    by_cases hlt : k < a
    · simp [minsert, hlt, mget]
    · simp only [minsert, Nat.blt_eq, hlt, if_false, mget, beq_iff_eq, ha]
      exact ih (fun e he => hk e (List.mem_cons_of_mem _ he))
theorem mget_minsert_of_ne {α : Type} {m : SMap α} {k j : Nat} {v d : α} (h : j ≠ k) : mget (minsert m k v) j d = mget m j d := by
  induction m with
  | nil => simp [minsert, mget, Ne.symm h]
  | cons e t ih =>
    obtain ⟨a, x⟩ := e
    by_cases hlt : k < a
    · simp [minsert, hlt, mget, Ne.symm h]
    · simp only [minsert, Nat.blt_eq, hlt, if_false, mget, ih]
/-- What was put at a key is read there. -/
@[simp] theorem mget_mput_self {α : Type} {m : SMap α} {k : Nat} {v d : α} : mget (mput m k v) k d = v :=
  mget_minsert_self (fun _ he => (merase_mem.mp he).2)
/-- Another key reads as before. -/
theorem mget_mput_of_ne {α : Type} {m : SMap α} {k j : Nat} {v d : α} (h : j ≠ k) : mget (mput m k v) j d = mget m j d := by
  rw [mput, mget_minsert_of_ne h, mget_merase_of_ne h]
@[simp] theorem mget_mset_self {α : Type} [DecidableEq α] {m : SMap α} {k : Nat} {v d : α} : mget (mset m k v d) k d = v := by
  unfold mset
  split
  · rename_i h; rw [h, mget_merase_self]
  · simp
theorem mget_mset_of_ne {α : Type} [DecidableEq α] {m : SMap α} {k j : Nat} {v d d' : α} (h : j ≠ k) :
    mget (mset m k v d) j d' = mget m j d' := by
  unfold mset
  split
  · exact mget_merase_of_ne h
  · exact mget_mput_of_ne h
/-- A byte outside the written string reads as before. -/
theorem mget_msetBytes_outside {m : SMap Byte} {k j : Nat} {l : List Byte} (h : j < k ∨ k + l.length ≤ j) :
    mget (msetBytes m k l) j 0 = mget m j 0 := by
  induction l generalizing m k with
  | nil => rfl
  | cons b t ih =>
    simp only [List.length_cons] at h
    rw [msetBytes, ih (by omega), mget_mset_of_ne (by omega)]
/-- Byte i of the written string is read where it was written. -/
theorem mget_msetBytes_inside {m : SMap Byte} {k i : Nat} {l : List Byte} (h : i < l.length) :
    mget (msetBytes m k l) (k + i) 0 = l[i] := by
  induction l generalizing m k i with
  | nil => simp at h
  | cons b t ih =>
    cases i with
    | zero => rw [msetBytes, mget_msetBytes_outside (by omega)]; simp
    | succ i =>
      have h' : i < t.length := by simpa using h
      have := ih (m := mset m k b 0) (k := k + 1) h'
      rw [msetBytes, show k + (i + 1) = k + 1 + i by omega, this]; rfl
/-- The string that was written is read back. -/
theorem mgetBytes_msetBytes {m : SMap Byte} {k : Nat} {l : List Byte} : mgetBytes (msetBytes m k l) k l.length = l := by
  induction l generalizing m k with
  | nil => rfl
  | cons b t ih =>
    simp only [List.length_cons, mgetBytes, msetBytes, ih, List.cons.injEq, and_true]
    rw [mget_msetBytes_outside (by omega), mget_mset_self]
theorem toBytes_length (n v : Nat) : (toBytes n v).length = n := by
  induction n generalizing v with
  | zero => rfl
  | succ n ih => simp [toBytes, ih]
/-- A number's bytes give it back (R6). -/
theorem ofBytes_toBytes (n v : Nat) : ofBytes (toBytes n v) = v % 256 ^ n := by
  induction n generalizing v with
  | zero => simp [toBytes, ofBytes, Nat.mod_one]
  | succ n ih =>
    have h : 256 ^ (n + 1) = 256 * 256 ^ n := by rw [pow_succ, mul_comm]
    rw [h, Nat.mod_mul]
    simp [toBytes, ofBytes, ih]

end Sys2Proof.Machine
end

