-- ==== Sys2Proof/Laws/Canon.lean ====
section
/-! SUPPORT. Memory's canonical form (Memory.wf) over states, answers, slot effects, commands and bundles: the predicates that the lemmas
of Laws/Canon1 to Laws/Canon5 speak of, and how they pass through pairs, options and folds. -/

namespace Sys2Proof.Machine

/-- The state's memory is in canonical form. -/
def State.Wf (s : State) : Prop := Memory.wf s.mem = true
/-- An optional answer, or one with a value, whose state is in canonical form. -/
def okO : Option State → Prop
  | none => True
  | some t => t.Wf
def okOP {α : Type} : Option (State × α) → Prop
  | none => True
  | some t => t.1.Wf
def okE {ε : Type} : Except ε State → Prop
  | .error _ => True
  | .ok t => t.Wf
def okEP {ε α : Type} : Except ε (State × α) → Prop
  | .error _ => True
  | .ok t => t.1.Wf
def okOEP {ε α : Type} : Option (Except ε (State × α)) → Prop
  | some (.ok t) => t.1.Wf
  | _ => True
def Res.Wf : Res → Prop
  | .next t => t.Wf
  | _ => True
/-- A slot effect that keeps the form. -/
def askWf : Option (State → State) → Prop
  | none => True
  | some f => ∀ s, s.Wf → (f s).Wf
def SlotEff.Wf (e : SlotEff) : Prop := (∀ s, s.Wf → (e.prep s).Wf) ∧ askWf e.ask ∧ (∀ s, s.Wf → (e.commit s).Wf)
/-- A command whose start and completion keep the form. -/
def CmdSem.Wf (e : CmdSem) : Prop := (∀ s, s.Wf → (e.effect s).1.Wf) ∧ (∀ s, s.Wf → (e.start s).Wf)
/-- A bundle whose slots keep the form. -/
def Bundle.Wf (b : Bundle) : Prop := ∀ r ∈ b.slots, ∀ s, (r.sem s).Wf
def Fetched.Wf : Fetched → Prop
  | .bundle _ b => b.Wf
  | _ => True
theorem mem_wf {s : State} (h : s.Wf) : Memory.wf s.mem = true := h
theorem next_wf {t : State} (h : t.Wf) : Res.Wf (.next t) := h
theorem okO_some {o : Option State} {t : State} (e : o = some t) (h : okO o) : t.Wf := by subst e; exact h
theorem okOP_some {α : Type} {o : Option (State × α)} {t : State} {a : α} (e : o = some (t, a)) (h : okOP o) : t.Wf := by subst e; exact h
theorem okOP_some' {α : Type} {o : Option (State × α)} {t : State × α} (e : o = some t) (h : okOP o) : t.1.Wf := by subst e; exact h
theorem okE_ok {ε : Type} {o : Except ε State} {t : State} (e : o = .ok t) (h : okE o) : t.Wf := by subst e; exact h
theorem okEP_ok {ε α : Type} {o : Except ε (State × α)} {t : State} {a : α} (e : o = .ok (t, a)) (h : okEP o) : t.Wf := by subst e; exact h
theorem okEP_ok' {ε α : Type} {o : Except ε (State × α)} {t : State × α} (e : o = .ok t) (h : okEP o) : t.1.Wf := by subst e; exact h
theorem pair_wf {α : Type} {p : State × α} {t : State} {a : α} (e : p = (t, a)) (h : p.1.Wf) : t.Wf := by subst e; exact h
theorem okO_mk {t : State} (h : t.Wf) : okO (some t) := h
theorem okOP_mk {α : Type} {t : State × α} (h : t.1.Wf) : okOP (some t) := h
theorem okE_mk {ε : Type} {t : State} (h : t.Wf) : okE (.ok t : Except ε State) := h
theorem okEP_mk {ε α : Type} {t : State × α} (h : t.1.Wf) : okEP (.ok t : Except ε (State × α)) := h
theorem okOEP_ok {ε α : Type} {o : Option (Except ε (State × α))} {t : State} {a : α} (e : o = some (.ok (t, a))) (h : okOEP o) : t.Wf := by
  subst e; exact h
theorem okOEP_mk {ε α : Type} {t : State × α} (h : t.1.Wf) : okOEP (some (.ok t) : Option (Except ε (State × α))) := h
theorem fst_wf {α : Type} {t : State} {a : α} (h : t.Wf) : State.Wf (t, a).1 := h
theorem foldl_wf {α : Type} {f : State → α → State} {l : List α} {s : State} (h0 : s.Wf) (h : ∀ s x, s.Wf → (f s x).Wf) :
    (l.foldl f s).Wf := by
  induction l generalizing s with
  | nil => exact h0
  | cons a t ih => exact ih (h _ _ h0)
theorem foldr_wf {α : Type} {f : α → State → State} {l : List α} {s : State} (h0 : s.Wf) (h : ∀ x s, s.Wf → (f x s).Wf) :
    (l.foldr f s).Wf := by
  induction l with
  | nil => exact h0
  | cons a t ih => exact h _ _ ih
theorem foldlP_wf {α β : Type} {f : State × β → α → State × β} {l : List α} {s : State × β} (h0 : s.1.Wf)
    (h : ∀ s x, s.1.Wf → (f s x).1.Wf) : (l.foldl f s).1.Wf := by
  induction l generalizing s with
  | nil => exact h0
  | cons a t ih => exact ih (h _ _ h0)
theorem foldlO_wf {α : Type} {f : Option State → α → Option State} {l : List α} {s : Option State} (h0 : okO s)
    (h : ∀ s x, okO s → okO (f s x)) : okO (l.foldl f s) := by
  induction l generalizing s with
  | nil => exact h0
  | cons a t ih => exact ih (h _ _ h0)
theorem foldlE_wf {α ε : Type} {f : Except ε State → α → Except ε State} {l : List α} {s : Except ε State} (h0 : okE s)
    (h : ∀ s x, okE s → okE (f s x)) : okE (l.foldl f s) := by
  induction l generalizing s with
  | nil => exact h0
  | cons a t ih => exact ih (h _ _ h0)
theorem mk_wf {a1 a2 a3 a4 m a6 a7 a8 a9 a10 a11 a12 a13 a14 a15 a16 a17 a18 a19 a20 a21 a22 a23 a24 a25 a26 a27 a28 a29 a30 a31 a32 a33 a34 a35}
    (h : Memory.wf m = true) :
    State.Wf (State.mk a1 a2 a3 a4 m a6 a7 a8 a9 a10 a11 a12 a13 a14 a15 a16 a17 a18 a19 a20 a21 a22 a23 a24 a25 a26 a27 a28 a29 a30 a31 a32 a33 a34 a35) := h
theorem askWf_some {f : State → State} (h : ∀ s, s.Wf → (f s).Wf) : askWf (some f) := h
theorem askWf_get {o : Option (State → State)} {f : State → State} {s : State} (e : o = some f) (h : askWf o) (h0 : s.Wf) : (f s).Wf := by
  subst e; exact h s h0
theorem eff_wf {e : SlotEff} (h : ∀ s, s.Wf → (e.prep s).Wf) (a : askWf e.ask) (g : ∀ s, s.Wf → (e.commit s).Wf) : e.Wf := ⟨h, a, g⟩
theorem effmk_wf {a b c p d k f} (h : ∀ s, s.Wf → (p s).Wf) (x : askWf k) (g : ∀ s, s.Wf → (f s).Wf) : SlotEff.Wf ⟨a, b, c, p, d, k, f⟩ := ⟨h, x, g⟩
theorem cmdmk_wf {a b c d e f g h i j k l} (h1 : ∀ s, s.Wf → (i s).1.Wf) (h2 : ∀ s, s.Wf → (k s).Wf) :
    CmdSem.Wf ⟨a, b, c, d, e, f, g, h, i, j, k, l⟩ := ⟨h1, h2⟩
theorem okO_getD {o : Option State} {s : State} (h : okO o) (h0 : s.Wf) : (o.getD s).Wf := by
  cases o with
  | none => exact h0
  | some t => exact h
theorem okOP_mapO {α : Type} {f : State → State × α} {o : Option State} (h : okO o) (g : ∀ s, s.Wf → (f s).1.Wf) : okOP (o.map f) := by
  cases o with
  | none => trivial
  | some t => exact g _ h
theorem okOP_mapP {α β : Type} {f : State × β → State × α} {o : Option (State × β)} (h : okOP o) (g : ∀ x, x.1.Wf → (f x).1.Wf) :
    okOP (o.map f) := by
  cases o with
  | none => trivial
  | some t => exact g _ h
theorem okE_wf {ε : Type} {t : State} (h : okE (.ok t : Except ε State)) : t.Wf := h
theorem okO_wf {t : State} (h : okO (some t)) : t.Wf := h
theorem id_wf : ∀ s : State, s.Wf → (id s).Wf := fun _ h => h
theorem SlotEff.prep_wf {e : SlotEff} {s : State} (h : e.Wf) (h0 : s.Wf) : (e.prep s).Wf := h.1 s h0
theorem SlotEff.commit_wf {e : SlotEff} {s : State} (h : e.Wf) (h0 : s.Wf) : (e.commit s).Wf := h.2.2 s h0
theorem CmdSem.effect_wf {e : CmdSem} {s : State} (h : e.Wf) (h0 : s.Wf) : (e.effect s).1.Wf := h.1 s h0
theorem CmdSem.start_wf {e : CmdSem} {s : State} (h : e.Wf) (h0 : s.Wf) : (e.start s).Wf := h.2 s h0
theorem coreEff_wf {k f} {s : State} (h : s.Wf) : (coreEff k f s).1.Wf := h

theorem State.reset_wf : State.reset.Wf := rfl

end Sys2Proof.Machine
end

