-- ==== Sys2Proof/Laws/Canon1.lean ====
section
/-! SUPPORT. Memory keeps its canonical form: the shared operations over cores, memory, tiles, queues and reports. One lemma per operation, named after it. -/

namespace Sys2Proof.Machine

theorem State.setCore_wf {s : State} {k : Nat} {c : Core} (h0 : s.Wf) : State.Wf (State.setCore s k c) := by
  unfold State.setCore
  repeat' first
    | with_reducible (refine mk_wf (mem_wf ?_); assumption)

theorem State.updCore_wf {s : State} {k : Nat} {f : Core → Core} (h0 : s.Wf) : State.Wf (State.updCore s k f) := by
  unfold State.updCore
  repeat' first
    | with_reducible assumption
    | with_reducible apply State.setCore_wf

theorem State.updMe_wf {s : State} {f : Core → Core} (h0 : s.Wf) : State.Wf (State.updMe s f) := by
  unfold State.updMe
  repeat' first
    | with_reducible assumption
    | with_reducible apply State.updCore_wf

theorem Bundle.retire_wf {b : Bundle} {s0 s : State} (h2 : s.Wf) : State.Wf (Bundle.retire b s0 s) := by
  exact State.updMe_wf h2

theorem Bundle.commit_wf {b : Bundle} {s : State} {effs : List (Slot × SlotEff)} (he : ∀ x ∈ effs, x.2.Wf) (h1 : s.Wf) : State.Wf (Bundle.commit b s effs) := by
  unfold Bundle.commit
  refine Bundle.retire_wf ?_
  have h2 : (s.updMe (fun c => { c with settle := false, stalled := false, xfer := .none })).Wf := State.updMe_wf h1
  generalize s.updMe (fun c => { c with settle := false, stalled := false, xfer := .none }) = t at h2
  induction effs generalizing t with
  | nil => exact h2
  | cons x l ih =>
    exact ih (fun y hy => he y (List.mem_cons_of_mem _ hy)) _ ((he x (List.mem_cons_self ..)).2.2 _ h2)

theorem SlotRun.view_wf {r : SlotRun} {s : State} (h1 : s.Wf) : State.Wf (SlotRun.view r s) := by
  unfold SlotRun.view
  repeat' first
    | with_reducible assumption
    | with_reducible apply State.updMe_wf
    | split

theorem SlotRun.advance_wf {r : SlotRun} {s : State} (h1 : s.Wf) : State.Wf (SlotRun.advance r s) := by
  unfold SlotRun.advance
  repeat' first
    | with_reducible assumption
    | with_reducible apply State.updMe_wf
    | split

theorem SlotRun.eff_wf {r : SlotRun} {s : State} (h : ∀ s, (r.sem s).Wf) : SlotEff.Wf (SlotRun.eff r s) := by
  unfold SlotRun.eff
  extract_lets v c adv dark e
  split
  · refine ⟨fun t ht => ?_, (h _).2.1, fun t ht => (h _).2.2 _ (SlotRun.advance_wf ht)⟩
    dsimp only
    split
    · exact ht
    · exact (h _).1 _ ht
  · exact ⟨id_wf, trivial, fun t ht => SlotRun.advance_wf ht⟩

theorem State.countEv_wf {s : State} {unit : Nat} {evt : Nat} {part : Nat} {n : Nat} (h0 : s.Wf) : State.Wf (State.countEv s unit evt part n) := by
  unfold State.countEv
  repeat' first
    | with_reducible (refine mk_wf (mem_wf ?_); assumption)

theorem State.countCore_wf {s : State} {k : Nat} {l : List (Nat × Nat)} (h0 : s.Wf) : State.Wf (State.countCore s k l) := by
  unfold State.countCore
  repeat' first
    | with_reducible assumption
    | intro _
    | with_reducible apply foldl_wf
    | with_reducible apply State.countEv_wf
    | split

theorem State.countTrap_wf {s : State} {c0 : Core} (h0 : s.Wf) : State.Wf (State.countTrap s c0) := by
  unfold State.countTrap
  repeat' first
    | with_reducible assumption
    | with_reducible apply State.countCore_wf

theorem State.countCommit_wf {s : State} {s0 : State} (h0 : s.Wf) : State.Wf (State.countCommit s s0) := by
  unfold State.countCommit
  repeat' first
    | with_reducible assumption
    | (extract_lets +onlyGivenNames x; clear_value x)
    | with_reducible apply State.countTrap_wf
    | with_reducible apply State.countCore_wf

theorem prepAll_wf {effs : List (Slot × SlotEff)} {s : State} (he : ∀ x ∈ effs, x.2.Wf) (h1 : s.Wf) : (effs.foldl (fun s x => x.2.prep s) s).Wf := by
  induction effs generalizing s with
  | nil => exact h1
  | cons x l ih => exact ih (fun y hy => he y (List.mem_cons_of_mem _ hy)) ((he x (List.mem_cons_self ..)).1 _ h1)

theorem asked_wf {effs : List (Slot × SlotEff)} {f : State → State} {s : State} (he : ∀ x ∈ effs, x.2.Wf)
    (h : effs.findSome? (fun x => x.2.ask) = some f) (h1 : s.Wf) : (f s).Wf := by
  obtain ⟨x, hx, h2⟩ := List.exists_of_findSome?_eq_some h
  exact askWf_get h2 (he x hx).2.1 h1

theorem Bundle.iterate_wf {b : Bundle} {s : State} (h0 : b.Wf) (h1 : s.Wf) : State.Wf (Bundle.iterate b s) := by
  have he : ∀ x ∈ b.slots.map (fun r => (r.slot, r.eff s)), x.2.Wf := by
    intro x hx
    obtain ⟨r, hr, rfl⟩ := List.mem_map.mp hx
    exact SlotRun.eff_wf (h0 r hr)
  unfold Bundle.iterate
  extract_lets effs
  have he' : ∀ x ∈ effs, x.2.Wf := he
  clear_value effs
  split
  · exact State.countTrap_wf (State.updMe_wf h1)
  · split
    · exact State.countTrap_wf (State.updMe_wf h1)
    · split
      · refine State.countCore_wf (State.updMe_wf ?_)
        exact prepAll_wf he' h1
      · split
        · exact State.countTrap_wf (State.updMe_wf h1)
        · split
          · rename_i f hf
            exact State.countCore_wf (State.updMe_wf (asked_wf he' hf h1))
          · exact State.countCore_wf (State.countCommit_wf (Bundle.commit_wf he' h1))

theorem Bundle.run_wf {b : Bundle} {s : State} (h0 : b.Wf) (h1 : s.Wf) : Res.Wf (Bundle.run b s) := by
  unfold Bundle.run
  extract_lets c
  split
  · trivial
  · split
    · exact State.updMe_wf h1
    · split
      · exact State.countTrap_wf (State.updMe_wf h1)
      · split
        · exact State.updMe_wf h1
        · exact Bundle.iterate_wf h0 h1

theorem State.updCluster_wf {s : State} {k : Nat} {f : Cluster → Cluster} (h0 : s.Wf) : State.Wf (State.updCluster s k f) := by
  unfold State.updCluster
  repeat' first
    | with_reducible (refine mk_wf (mem_wf ?_); assumption)

theorem State.setFrame_wf {s : State} {cl : Nat} {key : Nat} {f : Frame} (h0 : s.Wf) : State.Wf (State.setFrame s cl key f) := by
  unfold State.setFrame
  repeat' first
    | with_reducible assumption
    | with_reducible apply State.updCluster_wf

theorem State.updFrame_wf {s : State} {cl : Nat} {key : Nat} {f : Frame → Frame} (h0 : s.Wf) : State.Wf (State.updFrame s cl key f) := by
  unfold State.updFrame
  repeat' first
    | with_reducible assumption
    | with_reducible apply State.setFrame_wf

theorem State.putFrame_wf {s : State} {cl : Nat} {t : Tile} {data : SMap Byte} {wr : List (Nat × Nat)} (h0 : s.Wf) : State.Wf (State.putFrame s cl t data wr) := by
  unfold State.putFrame
  repeat' first
    | with_reducible assumption
    | with_reducible apply State.updFrame_wf
    | split

theorem State.staleIf_wf {s : State} {cl : Nat} {part : Nat} {f : ZRec → Bool} (h0 : s.Wf) : State.Wf (State.staleIf s cl part f) := by
  unfold State.staleIf
  repeat' first
    | with_reducible assumption
    | intro _
    | (extract_lets +onlyGivenNames x; refine (fun (_ : State.Wf x) => ?_) ?_; clear_value x; rotate_left; subst x)
    | with_reducible (refine mk_wf (mem_wf ?_); assumption)
    | with_reducible apply foldl_wf
    | with_reducible apply State.updCore_wf
    | split

theorem State.staleRect_wf {s : State} {cl : Nat} {t : Tile} {r0 : Nat} {rn : Nat} {e0 : Nat} {en : Nat} (h0 : s.Wf) : State.Wf (State.staleRect s cl t r0 rn e0 en) := by
  unfold State.staleRect
  repeat' first
    | with_reducible assumption
    | with_reducible apply State.staleIf_wf

theorem State.draw_wf {s : State} {n : Nat} (h0 : s.Wf) : State.Wf (State.draw s n) := by
  unfold State.draw
  repeat' first
    | with_reducible (refine mk_wf (mem_wf ?_); assumption)

theorem State.wrBytes_wf {s : State} {pa : Nat} {l : List Byte} (h0 : s.Wf) : State.Wf (State.wrBytes s pa l) := by
  exact msetBytes_wf h0

theorem State.closeLine_wf {s : State} {pa : Nat} (h0 : s.Wf) : State.Wf (State.closeLine s pa) := by
  unfold State.closeLine
  repeat' first
    | with_reducible assumption
    | with_reducible (refine mk_wf (mem_wf ?_); assumption)
    | with_reducible apply State.countEv_wf
    | split

theorem State.send_wf {s : State} {m : Msg} (h0 : s.Wf) : State.Wf (State.send s m) := by
  unfold State.send
  repeat' first
    | with_reducible (refine mk_wf (mem_wf ?_); assumption)

theorem State.emit_wf {s : State} {o : Out} (h0 : s.Wf) : State.Wf (State.emit s o) := by
  unfold State.emit
  repeat' first
    | with_reducible (refine mk_wf (mem_wf ?_); assumption)

theorem State.giveLease_wf {s : State} {cl : Nat} {f : Frame} (h0 : s.Wf) : State.Wf (State.giveLease s cl f) := by
  unfold State.giveLease
  repeat' first
    | with_reducible assumption
    | with_reducible apply State.emit_wf
    | split

theorem State.forget_wf {s : State} {cl : Nat} {t : Tile} (h0 : s.Wf) : State.Wf (State.forget s cl t) := by
  unfold State.forget
  repeat' first
    | with_reducible assumption
    | intro _
    | with_reducible apply foldl_wf
    | with_reducible apply State.updCore_wf

theorem State.dropFrame_wf {s : State} {cl : Nat} {key : Nat} (h0 : s.Wf) : State.Wf (State.dropFrame s cl key) := by
  unfold State.dropFrame
  repeat' first
    | with_reducible assumption
    | (extract_lets +onlyGivenNames x; refine (fun (_ : State.Wf x) => ?_) ?_; clear_value x; rotate_left; subst x)
    | (extract_lets +onlyGivenNames x; clear_value x)
    | with_reducible apply State.forget_wf
    | with_reducible apply State.updFrame_wf
    | with_reducible apply State.giveLease_wf
    | split

theorem State.allocate_wf {s : State} {cl : Nat} {t : Tile} {ref : Nat} {top : Nat} (h0 : s.Wf) : okOP (State.allocate s cl t ref top) := by
  unfold State.allocate
  repeat' first
    | with_reducible assumption
    | (show True; trivial)
    | intro _
    | (extract_lets +onlyGivenNames x; refine (fun (_ : State.Wf x) => ?_) ?_; clear_value x; rotate_left; subst x)
    | (extract_lets +onlyGivenNames x; refine (fun (hx : ∀ s, State.Wf s → okOP (x s)) => ?_) ?_; clear_value x; rotate_left; subst x)
    | (extract_lets +onlyGivenNames x; clear_value x)
    | with_reducible apply hx
    | with_reducible apply okOP_mk
    | with_reducible apply State.giveLease_wf
    | with_reducible apply State.setFrame_wf
    | with_reducible apply State.dropFrame_wf
    | (dsimp -zeta only)
    | split

theorem State.ask_wf {s : State} {cl : Nat} {n : Need} (h0 : s.Wf) : State.Wf (State.ask s cl n) := by
  unfold State.ask
  repeat' first
    | with_reducible assumption
    | with_reducible apply State.send_wf
    | split

theorem State.setDesc_wf {s : State} {part : Nat} {tid : Nat} {img : List Byte} (h0 : s.Wf) : State.Wf (State.setDesc s part tid img) := by
  unfold State.setDesc
  repeat' first
    | with_reducible assumption
    | (extract_lets +onlyGivenNames x; refine (fun (_ : State.Wf x) => ?_) ?_; clear_value x; rotate_left; subst x)
    | (extract_lets +onlyGivenNames x; clear_value x)
    | with_reducible (refine mk_wf (mem_wf ?_); assumption)
    | with_reducible apply State.wrBytes_wf
    | split

theorem State.setBucket_wf {s : State} {part : Nat} {i : Nat} {v : Int} (h0 : s.Wf) : State.Wf (State.setBucket s part i v) := by
  unfold State.setBucket
  repeat' first
    | with_reducible (refine mk_wf (mem_wf ?_); assumption)

theorem State.charge_wf {s : State} {part : Nat} {i : Nat} {n : Nat} (h0 : s.Wf) : State.Wf (State.charge s part i n) := by
  unfold State.charge
  repeat' first
    | with_reducible assumption
    | with_reducible apply State.setBucket_wf
    | split

theorem State.updCmd_wf {s : State} {k : Nat} {id : Nat} {f : Cmd → Cmd} (h0 : s.Wf) : State.Wf (State.updCmd s k id f) := by
  unfold State.updCmd
  repeat' first
    | with_reducible assumption
    | with_reducible apply State.updCore_wf

theorem State.addLoad_wf {s : State} {k : Nat} {d : Dest} {src : List LSrc} {sx : Nat} {mask : Option Nat} (h0 : s.Wf) : State.Wf (State.addLoad s k d src sx mask) := by
  unfold State.addLoad
  repeat' first
    | with_reducible assumption
    | with_reducible apply State.updCore_wf

theorem State.allocMissing_wf {s : State} {cl : Nat} {a : List Need} (h0 : s.Wf) : okO (State.allocMissing s cl a) := by
  induction a generalizing s with
  | nil =>
    unfold State.allocMissing
    repeat' first
      | with_reducible assumption
      | with_reducible apply okO_mk
  | cons y t ih =>
    unfold State.allocMissing
    repeat' first
      | with_reducible assumption
      | (show True; trivial)
      | with_reducible apply State.ask_wf
      | with_reducible apply State.allocate_wf
      | with_reducible apply ih
      | with_reducible (refine mk_wf (mem_wf ?_); refine okOP_some (by assumption) ?_)
      | split

theorem State.refUp_wf {s : State} {cl : Nat} {t : Tile} (h0 : s.Wf) : State.Wf (State.refUp s cl t) := by
  unfold State.refUp
  repeat' first
    | with_reducible assumption
    | with_reducible apply State.updFrame_wf
    | split

theorem State.needGrant_wf {s : State} {cl : Nat} {t : Tile} (h0 : s.Wf) : State.Wf (State.needGrant s cl t) := by
  unfold State.needGrant
  repeat' first
    | with_reducible assumption
    | (extract_lets +onlyGivenNames x; clear_value x)
    | with_reducible apply State.send_wf
    | with_reducible apply State.setFrame_wf
    | split

theorem State.allocAll_wf {s : State} {cl : Nat} {l : List Need} (h0 : s.Wf) : okO (State.allocAll s cl l) := by
  unfold State.allocAll
  repeat' first
    | with_reducible assumption
    | intro _
    | (extract_lets +onlyGivenNames x; refine (fun (_ : State.Wf x) => ?_) ?_; clear_value x; rotate_left; subst x)
    | (extract_lets +onlyGivenNames x; clear_value x)
    | with_reducible apply foldl_wf
    | with_reducible apply State.allocMissing_wf
    | with_reducible apply State.refUp_wf
    | with_reducible apply State.needGrant_wf
    | split

theorem State.applyMasked_wf {s : State} {pa : Nat} {mask : Nat} {a : Nat} {a' : List Byte} (h0 : s.Wf) : State.Wf (State.applyMasked s pa mask a a') := by
  induction a' generalizing s a with
  | nil =>
    unfold State.applyMasked
    repeat' first
      | with_reducible assumption
  | cons y t ih =>
    unfold State.applyMasked
    repeat' first
      | with_reducible assumption
      | with_reducible apply State.wrBytes_wf
      | with_reducible apply ih
      | split

theorem State.lookedUp_wf {s : State} {part : Nat} {pa : Nat} (h0 : s.Wf) : State.Wf (State.lookedUp s part pa) := by
  unfold State.lookedUp
  repeat' first
    | with_reducible assumption
    | with_reducible apply State.draw_wf
    | with_reducible apply State.countEv_wf
    | split

theorem State.countFloor_wf {s : State} {part : Nat} {ch : Nat} {n : Nat} (h0 : s.Wf) : State.Wf (State.countFloor s part ch n) := by
  unfold State.countFloor
  repeat' first
    | (extract_lets +onlyGivenNames x; clear_value x)
    | with_reducible (refine mk_wf (mem_wf ?_); assumption)
    | split

theorem State.passed_wf {s : State} {part : Nat} {pa : Nat} {n : Nat} (h0 : s.Wf) : State.Wf (State.passed s part pa n) := by
  unfold State.passed
  repeat' first
    | with_reducible assumption
    | (extract_lets +onlyGivenNames x; refine (fun (_ : State.Wf x) => ?_) ?_; clear_value x; rotate_left; subst x)
    | with_reducible apply State.charge_wf
    | with_reducible apply State.countFloor_wf
    | split

theorem State.served_wf {s : State} {part : Nat} {pa : Nat} {n : Nat} (h0 : s.Wf) : State.Wf (State.served s part pa n) := by
  unfold State.served
  repeat' first
    | with_reducible assumption
    | with_reducible apply State.lookedUp_wf
    | with_reducible apply State.passed_wf

theorem State.writeBackLine_wf {s : State} {k : Nat} {key : Nat} (h0 : s.Wf) : State.Wf (State.writeBackLine s k key) := by
  unfold State.writeBackLine
  repeat' first
    | with_reducible assumption
    | (extract_lets +onlyGivenNames x; clear_value x)
    | with_reducible apply State.updCore_wf
    | with_reducible apply State.applyMasked_wf
    | with_reducible apply State.served_wf
    | with_reducible apply State.closeLine_wf
    | split

theorem State.updPart_wf {s : State} {p : Nat} {f : Part → Part} (h0 : s.Wf) : State.Wf (State.updPart s p f) := by
  unfold State.updPart
  repeat' first
    | with_reducible (refine mk_wf (mem_wf ?_); assumption)

theorem State.msix_wf {s : State} {fn : Nat} {vec : Nat} (h0 : s.Wf) : State.Wf (State.msix s fn vec) := by
  unfold State.msix
  repeat' first
    | with_reducible assumption
    | with_reducible apply State.emit_wf
    | split

theorem State.frqPost_wf {s : State} {r : FrqRec} (h0 : s.Wf) : State.Wf (State.frqPost s r) := by
  unfold State.frqPost
  repeat' first
    | with_reducible assumption
    | (extract_lets +onlyGivenNames x; refine (fun (_ : State.Wf x) => ?_) ?_; clear_value x; rotate_left; subst x)
    | (extract_lets +onlyGivenNames x; clear_value x)
    | with_reducible apply State.updPart_wf
    | with_reducible apply State.wrBytes_wf
    | with_reducible apply State.msix_wf
    | split

theorem State.frqPostHv_wf {s : State} {r : FrqRec} (h0 : s.Wf) : State.Wf (State.frqPostHv s r) := by
  unfold State.frqPostHv
  repeat' first
    | with_reducible assumption
    | (extract_lets +onlyGivenNames x; refine (fun (_ : State.Wf x) => ?_) ?_; clear_value x; rotate_left; subst x)
    | (extract_lets +onlyGivenNames x; clear_value x)
    | with_reducible (refine mk_wf (mem_wf ?_); assumption)
    | with_reducible apply State.wrBytes_wf
    | with_reducible apply State.msix_wf
    | split

theorem State.pageRequest_wf {s : State} {part : Nat} {f : FaultInfo} {w : Waiter} {at_ : Nat} (h0 : s.Wf) : State.Wf (State.pageRequest s part f w at_) := by
  unfold State.pageRequest
  repeat' first
    | with_reducible assumption
    | (extract_lets +onlyGivenNames x; refine (fun (_ : State.Wf x) => ?_) ?_; clear_value x; rotate_left; subst x)
    | (extract_lets +onlyGivenNames x; clear_value x)
    | with_reducible (refine mk_wf (mem_wf ?_); assumption)
    | with_reducible apply State.frqPost_wf
    | with_reducible apply State.frqPostHv_wf
    | with_reducible apply State.emit_wf
    | (dsimp -zeta only)
    | split

theorem State.dropMsg_wf {s : State} {n : Nat} (h0 : s.Wf) : State.Wf (State.dropMsg s n) := by
  unfold State.dropMsg
  repeat' first
    | with_reducible (refine mk_wf (mem_wf ?_); assumption)

theorem State.chargeAll_wf {s : State} {part : Nat} {who : Nat} {l : List Nat} (h0 : s.Wf) : State.Wf (State.chargeAll s part who l) := by
  unfold State.chargeAll
  repeat' first
    | with_reducible assumption
    | intro _
    | with_reducible apply foldl_wf
    | with_reducible apply State.charge_wf

theorem State.servedAll_wf {s : State} {part : Nat} {l : List Nat} (h0 : s.Wf) : State.Wf (State.servedAll s part l) := by
  unfold State.servedAll
  repeat' first
    | with_reducible assumption
    | intro _
    | with_reducible apply foldlP_wf
    | with_reducible apply State.passed_wf
    | with_reducible apply State.served_wf
    | (dsimp -zeta only)
    | split

theorem State.passTile_wf {s : State} {who : Nat} {d : Desc} {t : Tile} (h0 : s.Wf) : State.Wf (State.passTile s who d t) := by
  unfold State.passTile
  repeat' first
    | with_reducible assumption
    | (extract_lets +onlyGivenNames x; clear_value x)
    | with_reducible apply State.chargeAll_wf
    | with_reducible apply State.servedAll_wf

theorem State.closeTile_wf {s : State} {who : Nat} {d : Desc} {t : Tile} (h0 : s.Wf) : State.Wf (State.closeTile s who d t) := by
  unfold State.closeTile
  repeat' first
    | with_reducible assumption
    | intro _
    | with_reducible apply foldl_wf
    | with_reducible apply State.closeLine_wf
    | split

theorem State.mcheck_wf {s : State} {part : Nat} {core : Nat} {addr : Nat} {unit : Nat} {ver : Nat} (h0 : s.Wf) : State.Wf (State.mcheck s part core addr unit ver) := by
  unfold State.mcheck
  repeat' first
    | with_reducible assumption
    | (extract_lets +onlyGivenNames x; clear_value x)
    | with_reducible apply State.frqPostHv_wf
    | with_reducible apply State.frqPost_wf

theorem State.refDown_wf {s : State} {cl : Nat} {t : Tile} (h0 : s.Wf) : State.Wf (State.refDown s cl t) := by
  unfold State.refDown
  repeat' first
    | with_reducible assumption
    | with_reducible apply State.updFrame_wf
    | split

theorem State.wrMem_wf {s : State} {pa : Nat} {n : Nat} {v : Nat} (h0 : s.Wf) : State.Wf (State.wrMem s pa n v) := by
  unfold State.wrMem
  repeat' first
    | with_reducible assumption
    | with_reducible apply State.wrBytes_wf

theorem State.detachedEnd_wf {s : State} {a : Nat} {x : Cmd} {fl : Nat} {last : Bool} (h0 : s.Wf) : State.Wf (State.detachedEnd s a x fl last) := by
  unfold State.detachedEnd
  repeat' first
    | with_reducible assumption
    | (extract_lets +onlyGivenNames x; refine (fun (_ : State.Wf x) => ?_) ?_; clear_value x; rotate_left; subst x)
    | with_reducible apply State.wrBytes_wf
    | with_reducible apply State.wrMem_wf
    | split

theorem State.endCmd_wf {s : State} {k : Nat} {id : Nat} {fl : Nat} (h0 : s.Wf) : State.Wf (State.endCmd s k id fl) := by
  unfold State.endCmd
  repeat' first
    | with_reducible assumption
    | intro _
    | (extract_lets +onlyGivenNames x; refine (fun (_ : State.Wf x) => ?_) ?_; clear_value x; rotate_left; subst x)
    | (extract_lets +onlyGivenNames x; clear_value x)
    | with_reducible apply foldl_wf
    | with_reducible apply State.refDown_wf
    | with_reducible apply State.updCore_wf
    | with_reducible apply State.detachedEnd_wf
    | split

theorem State.cascade_wf {s : State} {k : Nat} {a : Nat} (h0 : s.Wf) : State.Wf (State.cascade s k a) := by
  induction a generalizing s with
  | zero =>
    unfold State.cascade
    repeat' first
      | with_reducible assumption
  | succ n ih =>
    unfold State.cascade
    repeat' first
      | with_reducible assumption
      | with_reducible apply State.endCmd_wf
      | with_reducible apply ih
      | split

theorem State.finish_wf {s : State} {k : Nat} {id : Nat} {fl : Nat} (h0 : s.Wf) : State.Wf (State.finish s k id fl) := by
  unfold State.finish
  repeat' first
    | with_reducible assumption
    | with_reducible apply State.cascade_wf
    | with_reducible apply State.endCmd_wf

theorem State.failCmd_wf {s : State} {k : Nat} {id : Nat} {f : FaultInfo} (h0 : s.Wf) : State.Wf (State.failCmd s k id f) := by
  unfold State.failCmd
  repeat' first
    | with_reducible assumption
    | with_reducible apply State.finish_wf
    | with_reducible apply State.updCmd_wf

theorem State.rebindCore_wf {s : State} {pages : List Nat} {k : Nat} (h0 : s.Wf) : State.Wf (State.rebindCore s pages k) := by
  unfold State.rebindCore
  repeat' first
    | with_reducible assumption
    | (extract_lets +onlyGivenNames x; clear_value x)
    | with_reducible apply State.updCore_wf

theorem State.rebindMsg_wf {s : State} {pages : List Nat} {n : Nat} (h0 : s.Wf) : State.Wf (State.rebindMsg s pages n) := by
  unfold State.rebindMsg
  repeat' first
    | with_reducible assumption
    | with_reducible (refine mk_wf (mem_wf ?_); assumption)
    | with_reducible apply State.updCore_wf
    | split

theorem State.rebindAll_wf {s : State} {pages : List Nat} (h0 : s.Wf) : State.Wf (State.rebindAll s pages) := by
  unfold State.rebindAll
  extract_lets t
  have ht : t.Wf := foldl_wf h0 (fun _ _ h => State.rebindCore_wf h)
  exact foldr_wf ht (fun _ _ h => State.rebindMsg_wf h)

theorem State.applyBytes_wf {s : State} {pa : Nat} {l : List Byte} (h0 : s.Wf) : State.Wf (State.applyBytes s pa l) := by
  unfold State.applyBytes
  repeat' first
    | with_reducible assumption
    | with_reducible apply State.wrBytes_wf
    | with_reducible apply State.closeLine_wf

theorem State.arrive_wf {s : State} {k : Nat} {i : Nat} (h0 : s.Wf) : State.Wf (State.arrive s k i) := by
  unfold State.arrive
  repeat' first
    | with_reducible assumption
    | (extract_lets +onlyGivenNames x; clear_value x)
    | with_reducible apply State.setCore_wf
    | split

theorem State.eachLine_wf {s : State} {k : Nat} {f : L0Line → Bool} {g : State → Nat → State} (h0 : s.Wf) (h3 : ∀ y0 y1, y0.Wf → State.Wf (g y0 y1)) : State.Wf (State.eachLine s k f g) := by
  unfold State.eachLine
  repeat' first
    | with_reducible assumption
    | intro _
    | with_reducible apply foldl_wf
    | with_reducible apply h3
    | split

theorem State.dropLines_wf {s : State} {k : Nat} {f : L0Line → Bool} (h0 : s.Wf) : State.Wf (State.dropLines s k f) := by
  unfold State.dropLines
  repeat' first
    | with_reducible assumption
    | intro _
    | with_reducible apply State.eachLine_wf
    | with_reducible apply State.updCore_wf

theorem State.unpark_wf {s : State} {k : Nat} {x : Cmd} (h0 : s.Wf) : State.Wf (State.unpark s k x) := by
  unfold State.unpark
  repeat' first
    | with_reducible assumption
    | intro _
    | with_reducible apply foldl_wf
    | with_reducible apply State.updCmd_wf
    | with_reducible apply State.refDown_wf

theorem State.unparkTile_wf {s : State} {cl : Nat} {t : Tile} (h0 : s.Wf) : State.Wf (State.unparkTile s cl t) := by
  unfold State.unparkTile
  repeat' first
    | with_reducible assumption
    | intro _
    | with_reducible apply foldl_wf
    | with_reducible apply State.unpark_wf

theorem State.flushL0_wf {s : State} {k : Nat} (h0 : s.Wf) : State.Wf (State.flushL0 s k) := by
  unfold State.flushL0
  repeat' first
    | with_reducible assumption
    | intro _
    | with_reducible apply State.eachLine_wf
    | with_reducible apply State.writeBackLine_wf

theorem State.enqueue_wf {s : State} {c : Core} {i : Instr} {e : Edge} {args : List Nat} {hb : Bool} (h0 : s.Wf) : State.Wf (State.enqueue s c i e args hb) := by
  unfold State.enqueue
  repeat' first
    | with_reducible assumption
    | (extract_lets +onlyGivenNames x; refine (fun (_ : State.Wf x) => ?_) ?_; clear_value x; rotate_left; subst x)
    | (extract_lets +onlyGivenNames x; clear_value x)
    | with_reducible (refine mk_wf (mem_wf ?_); assumption)
    | with_reducible apply State.updMe_wf

theorem State.failTile_wf {s : State} {cl : Nat} {t : Tile} {f : FaultInfo} (h0 : s.Wf) : State.Wf (State.failTile s cl t f) := by
  unfold State.failTile
  repeat' first
    | with_reducible assumption
    | intro _
    | (extract_lets +onlyGivenNames x; refine (fun (_ : State.Wf x) => ?_) ?_; clear_value x; rotate_left; subst x)
    | (extract_lets +onlyGivenNames x; clear_value x)
    | with_reducible apply foldl_wf
    | with_reducible apply State.failCmd_wf
    | with_reducible apply State.updCore_wf

theorem State.fillLine_wf {s : State} {k : Nat} {pa : Nat} {st : L0St} (h0 : s.Wf) : State.Wf (State.fillLine s k pa st) := by
  unfold State.fillLine
  repeat' first
    | with_reducible assumption
    | (extract_lets +onlyGivenNames x; refine (fun (_ : State.Wf x) => ?_) ?_; clear_value x; rotate_left; subst x)
    | (extract_lets +onlyGivenNames x; clear_value x)
    | with_reducible apply State.countCore_wf
    | with_reducible apply State.served_wf
    | with_reducible apply State.closeLine_wf
    | with_reducible apply State.writeBackLine_wf
    | with_reducible apply State.setCore_wf

theorem State.keepXlate_wf {s : State} {who : Nat} {part : Nat} {gva : Nat} (h0 : s.Wf) : State.Wf (State.keepXlate s who part gva) := by
  unfold State.keepXlate
  repeat' first
    | with_reducible assumption
    | with_reducible (refine mk_wf (mem_wf ?_); assumption)
    | split

theorem State.writeTile_wf {s : State} {who : Nat} {d : Desc} {t : Tile} {redef : Bool} {data : SMap Byte} (h0 : s.Wf) : State.Wf (State.writeTile s who d t redef data) := by
  unfold State.writeTile
  repeat' first
    | with_reducible assumption
    | intro _
    | (extract_lets +onlyGivenNames x; refine (fun (_ : State.Wf x) => ?_) ?_; clear_value x; rotate_left; subst x)
    | (extract_lets +onlyGivenNames x; clear_value x)
    | with_reducible apply foldl_wf
    | with_reducible apply State.wrBytes_wf
    | with_reducible apply State.closeTile_wf
    | with_reducible apply State.draw_wf
    | split

theorem State.needRegionLine_wf {s : State} {k : Nat} {pa : Nat} (h0 : s.Wf) : State.Wf (State.needRegionLine s k pa) := by
  unfold State.needRegionLine
  repeat' first
    | with_reducible assumption
    | with_reducible apply State.fillLine_wf
    | with_reducible apply State.updCore_wf
    | split

theorem State.reXlate_wf {s : State} {who : Nat} {part : Nat} {gva : Nat} (h0 : s.Wf) : State.Wf (State.reXlate s who part gva) := by
  unfold State.reXlate
  repeat' first
    | with_reducible assumption
    | with_reducible (refine mk_wf (mem_wf ?_); assumption)
    | with_reducible apply State.keepXlate_wf
    | with_reducible apply State.countEv_wf
    | split

theorem State.loadAt_wf {s : State} {k : Nat} {part : Nat} {gva : Nat} {pa : Nat} {n : Nat} (h0 : s.Wf) : State.Wf (State.loadAt s k part gva pa n).1 := by
  unfold State.loadAt
  repeat' first
    | with_reducible assumption
    | intro _
    | (extract_lets +onlyGivenNames x; refine (fun (_ : State.Wf x) => ?_) ?_; clear_value x; rotate_left; subst x)
    | with_reducible apply foldlP_wf
    | with_reducible apply State.needRegionLine_wf
    | with_reducible apply State.reXlate_wf
    | split

theorem State.loadX_wf {s : State} {k : Nat} {part : Nat} {gva : Nat} {pa : Nat} {n : Nat} (h0 : s.Wf) : State.Wf (State.loadX s k part gva pa n).1 := by
  unfold State.loadX
  repeat' first
    | with_reducible assumption
    | (extract_lets +onlyGivenNames x; refine (fun (_ : State.Wf x) => ?_) ?_; clear_value x; rotate_left; subst x)
    | with_reducible apply State.reXlate_wf
    | with_reducible apply State.updCore_wf
    | with_reducible apply State.fillLine_wf
    | split

theorem State.markTorn_wf {s : State} {cl : Nat} {t : Tile} {wr : List (Nat × Nat)} {k : Nat} {id : Nat} (h0 : s.Wf) : State.Wf (State.markTorn s cl t wr k id) := by
  unfold State.markTorn
  repeat' first
    | with_reducible assumption
    | intro _
    | (extract_lets +onlyGivenNames x; clear_value x)
    | with_reducible apply foldl_wf
    | with_reducible apply State.draw_wf
    | with_reducible apply State.updCore_wf
    | split

theorem State.pursue_wf {s : State} {cl : Nat} {n : Need} (h0 : s.Wf) : State.Wf (State.pursue s cl n) := by
  unfold State.pursue
  repeat' first
    | with_reducible assumption
    | (extract_lets +onlyGivenNames x; refine (fun (_ : State.Wf x) => ?_) ?_; clear_value x; rotate_left; subst x)
    | with_reducible apply State.updFrame_wf
    | with_reducible apply State.needGrant_wf
    | with_reducible apply State.allocate_wf
    | with_reducible apply State.ask_wf
    | with_reducible (refine mk_wf (mem_wf ?_); refine okOP_some (by assumption) ?_)
    | split

theorem State.refill_wf {s : State} {part : Nat} {i : Nat} (h0 : s.Wf) : State.Wf (State.refill s part i) := by
  unfold State.refill
  repeat' first
    | with_reducible assumption
    | with_reducible apply State.setBucket_wf

theorem State.staleStore_wf {s : State} {cl : Nat} {part : Nat} {pa : Nat} {n : Nat} (h0 : s.Wf) : State.Wf (State.staleStore s cl part pa n) := by
  unfold State.staleStore
  repeat' first
    | with_reducible assumption
    | with_reducible apply State.staleIf_wf

theorem State.touchFrame_wf {s : State} {cl : Nat} {key : Nat} (h0 : s.Wf) : State.Wf (State.touchFrame s cl key) := by
  unfold State.touchFrame
  repeat' first
    | with_reducible assumption
    | intro _
    | (extract_lets +onlyGivenNames x; clear_value x)
    | with_reducible apply foldl_wf
    | with_reducible apply State.setFrame_wf
    | split

theorem State.storeRegion_wf {s : State} {k : Nat} {pa : Nat} {l : List Byte} (h0 : s.Wf) : State.Wf (State.storeRegion s k pa l) := by
  unfold State.storeRegion
  repeat' first
    | with_reducible assumption
    | (extract_lets +onlyGivenNames x; refine (fun (_ : State.Wf x) => ?_) ?_; clear_value x; rotate_left; subst x)
    | with_reducible apply State.needRegionLine_wf
    | with_reducible apply State.updCore_wf

theorem State.storePort_wf {s : State} {k : Nat} {pa : Nat} {gva : Nat} {l : List Byte} (h0 : s.Wf) : State.Wf (State.storePort s k pa gva l) := by
  unfold State.storePort
  repeat' first
    | with_reducible assumption
    | with_reducible apply State.updCore_wf

theorem State.storeAt_wf {s : State} {k : Nat} {part : Nat} {gva : Nat} {pa : Nat} {l : List Byte} (h0 : s.Wf) : State.Wf (State.storeAt s k part gva pa l) := by
  unfold State.storeAt
  repeat' first
    | with_reducible assumption
    | intro _
    | (extract_lets +onlyGivenNames x; clear_value x)
    | with_reducible apply foldl_wf
    | with_reducible apply State.storeRegion_wf
    | with_reducible apply State.storePort_wf
    | with_reducible apply State.reXlate_wf
    | split

theorem faults_wf {code : Nat} {cause : Nat} {addr : Nat}  : SlotEff.Wf (faults code cause addr) := by
  unfold faults
  repeat' first
    | with_reducible assumption
    | (show True; trivial)
    | intro _
    | with_reducible apply id_wf
    | with_reducible apply effmk_wf

theorem onCore_wf {f : Core → Core}  : SlotEff.Wf (onCore f) := by
  unfold onCore
  repeat' first
    | with_reducible assumption
    | (show True; trivial)
    | intro _
    | with_reducible apply id_wf
    | with_reducible apply State.updMe_wf
    | with_reducible apply effmk_wf

theorem engineSlot_wf {s : State} {i : Instr} {e : Edge} {args : List Nat} {hb : Bool}  : SlotEff.Wf (engineSlot s i e args hb) := by
  unfold engineSlot
  repeat' first
    | with_reducible assumption
    | (show True; trivial)
    | intro _
    | (extract_lets +onlyGivenNames x; clear_value x)
    | with_reducible apply id_wf
    | with_reducible apply faults_wf
    | with_reducible apply State.enqueue_wf
    | split
    | with_reducible apply effmk_wf

theorem runSole_wf {i : Instr} {sem : State → SlotEff} {s : State} (h : ∀ s, (sem s).Wf) (h1 : s.Wf) : Res.Wf (runSole i sem s) := by
  refine Bundle.run_wf ?_ h1
  intro r hr
  obtain rfl : r = presentSlot i.slot i sem := by simpa [soleBundle] using hr
  exact h

theorem result_wf {d : Dest} {val : Nat} {lat : Nat}  : SlotEff.Wf (result d val lat) := by
  unfold result
  repeat' first
    | with_reducible apply onCore_wf

theorem resultFl_wf {d : Dest} {r : Nat × Nat} {lat : Nat}  : SlotEff.Wf (resultFl d r lat) := by
  unfold resultFl
  repeat' first
    | with_reducible apply onCore_wf

end Sys2Proof.Machine
end

