-- ==== Sys2Proof/Laws/Canon2.lean ====
section
/-! SUPPORT. Memory keeps its canonical form: the slot instructions that run at issue. One lemma per operation, named after it. -/

namespace Sys2Proof.Machine

theorem State.accessing_wf {s : State} {a : Nat} {n : Nat} {acc : Nat} {f : Nat → SlotEff} (h4 : ∀ y0, SlotEff.Wf (f y0)) : SlotEff.Wf (State.accessing s a n acc f) := by
  unfold State.accessing
  repeat' first
    | with_reducible assumption
    | (show True; trivial)
    | intro _
    | with_reducible apply id_wf
    | with_reducible apply h4
    | split
    | with_reducible apply effmk_wf

theorem State.evictLine_wf {s : State} {k : Nat} {pa : Nat} (h0 : s.Wf) : State.Wf (State.evictLine s k pa) := by
  unfold State.evictLine
  repeat' first
    | with_reducible assumption
    | with_reducible apply State.updCore_wf
    | with_reducible apply State.writeBackLine_wf
    | split

theorem State.amoOut_wf {s : State} {pa : Nat} {gva : Nat} {n : Nat} {opc : Nat} {x : Nat} {cmp : Nat} {dests : List Dest} (h0 : s.Wf) : State.Wf (State.amoOut s pa gva n opc x cmp dests) := by
  unfold State.amoOut
  repeat' first
    | with_reducible assumption
    | with_reducible apply State.updMe_wf
    | with_reducible apply State.evictLine_wf

theorem State.applyOldest_wf {s : State} {part : Nat} {pa : Nat} (h0 : s.Wf) : State.Wf (State.applyOldest s part pa) := by
  unfold State.applyOldest
  repeat' first
    | with_reducible assumption
    | with_reducible (refine mk_wf (mem_wf ?_); assumption)
    | split

theorem State.joinLine_wf {s : State} {part : Nat} {pa : Nat} (h0 : s.Wf) : State.Wf (State.joinLine s part pa) := by
  unfold State.joinLine
  repeat' first
    | with_reducible assumption
    | (extract_lets +onlyGivenNames x; refine (fun (_ : State.Wf x) => ?_) ?_; clear_value x; rotate_left; subst x)
    | with_reducible (refine mk_wf (mem_wf ?_); assumption)
    | with_reducible apply State.countEv_wf
    | with_reducible apply State.applyOldest_wf
    | split

theorem State.applyAmo_wf {s : State} {part : Nat} {pa : Nat} {n : Nat} {opc : Nat} {x : Nat} {cmp : Nat} {ret : Bool} (h0 : s.Wf) : State.Wf (State.applyAmo s part pa n opc x cmp ret).1 := by
  unfold State.applyAmo
  repeat' first
    | with_reducible assumption
    | (extract_lets +onlyGivenNames x; refine (fun (_ : State.Wf x) => ?_) ?_; clear_value x; rotate_left; subst x)
    | (extract_lets +onlyGivenNames x; clear_value x)
    | with_reducible apply State.closeLine_wf
    | with_reducible apply State.joinLine_wf
    | with_reducible apply State.wrMem_wf
    | split

theorem State.dropOp_wf {s : State} {k : Nat} {n : Nat} (h0 : s.Wf) : State.Wf (State.dropOp s k n) := by
  unfold State.dropOp
  repeat' first
    | with_reducible assumption
    | with_reducible apply State.updCore_wf

theorem State.setOp_wf {s : State} {k : Nat} {n : Nat} {o : MemOp} (h0 : s.Wf) : State.Wf (State.setOp s k n o) := by
  unfold State.setOp
  repeat' first
    | with_reducible assumption
    | with_reducible apply State.updCore_wf

theorem State.setRec_wf {s : State} {part : Nat} {word : Nat} {v : Nat} (h0 : s.Wf) : State.Wf (State.setRec s part word v) := by
  unfold State.setRec
  repeat' first
    | with_reducible (refine mk_wf (mem_wf ?_); assumption)

theorem State.storeBytes_wf {s : State} {a : Nat} {pa : Nat} {l : List Byte} (h0 : s.Wf) : State.Wf (State.storeBytes s a pa l) := by
  unfold State.storeBytes
  repeat' first
    | with_reducible assumption
    | (extract_lets +onlyGivenNames x; clear_value x)
    | with_reducible apply State.staleStore_wf
    | with_reducible apply State.storeAt_wf

theorem State.syncWord_wf {s : State} {a : Nat} {acc : Nat} {f : Nat → SlotEff} (h3 : ∀ y0, SlotEff.Wf (f y0)) : SlotEff.Wf (State.syncWord s a acc f) := by
  unfold State.syncWord
  repeat' first
    | intro _
    | with_reducible apply State.accessing_wf
    | with_reducible apply faults_wf
    | with_reducible apply h3
    | split

theorem State.writeWindow_wf {s : State} {cl : Nat} {ds : Desc} {tl : Tile} {wd : Window} {v : Nat} (h0 : s.Wf) : State.Wf (State.writeWindow s cl ds tl wd v) := by
  unfold State.writeWindow
  repeat' first
    | with_reducible assumption
    | (extract_lets +onlyGivenNames x; refine (fun (_ : State.Wf x) => ?_) ?_; clear_value x; rotate_left; subst x)
    | (extract_lets +onlyGivenNames x; clear_value x)
    | with_reducible apply State.markTorn_wf
    | with_reducible apply State.putFrame_wf
    | with_reducible apply State.staleRect_wf
    | split

theorem acqHome_wf {n : Nat} {s : State} (h1 : s.Wf) : State.Wf (acqHome n s) := by
  unfold acqHome
  repeat' first
    | with_reducible assumption
    | (extract_lets +onlyGivenNames x; clear_value x)
    | with_reducible apply State.send_wf
    | with_reducible apply State.setRec_wf
    | with_reducible apply State.served_wf
    | with_reducible apply State.closeLine_wf
    | with_reducible apply State.dropMsg_wf
    | split

theorem acqReply_wf {n : Nat} {s : State} (h1 : s.Wf) : State.Wf (acqReply n s) := by
  unfold acqReply
  repeat' first
    | with_reducible assumption
    | (extract_lets +onlyGivenNames x; refine (fun (_ : State.Wf x) => ?_) ?_; clear_value x; rotate_left; subst x)
    | with_reducible apply State.dropLines_wf
    | with_reducible apply State.updCore_wf
    | with_reducible apply State.dropMsg_wf
    | split

theorem atSlice_wf {k : Nat} {n : Nat} {s : State} (h2 : s.Wf) : State.Wf (atSlice k n s) := by
  unfold atSlice
  repeat' first
    | with_reducible assumption
    | (extract_lets +onlyGivenNames x; refine (fun (_ : State.Wf x.1) => ?_) ?_; clear_value x; rotate_left; subst x)
    | (extract_lets +onlyGivenNames x; clear_value x)
    | with_reducible apply State.applyOldest_wf
    | with_reducible apply State.applyAmo_wf
    | with_reducible apply State.served_wf
    | with_reducible apply State.updCore_wf
    | split

theorem atomic_wf {s : State} {a : Nat} {n : Nat} {opc : Nat} {x : Nat} {cmp : Nat} {dests : List Dest}  : SlotEff.Wf (atomic s a n opc x cmp dests) := by
  unfold atomic
  repeat' first
    | with_reducible assumption
    | (show True; trivial)
    | intro _
    | with_reducible apply id_wf
    | with_reducible apply onCore_wf
    | with_reducible apply faults_wf
    | with_reducible apply State.accessing_wf
    | with_reducible apply State.updMe_wf
    | with_reducible apply State.amoOut_wf
    | split
    | with_reducible apply effmk_wf

theorem csrOp_wf {n : Nat} {a : Nat} {f : Nat → Nat → Nat} {s : State}  : SlotEff.Wf (csrOp n a f s) := by
  unfold csrOp
  repeat' first
    | (extract_lets +onlyGivenNames x; clear_value x)
    | with_reducible apply faults_wf
    | with_reducible apply onCore_wf
    | split

theorem drainMarker_wf {s : State} (h0 : s.Wf) : State.Wf (drainMarker s) := by
  unfold drainMarker
  repeat' first
    | with_reducible (refine mk_wf (mem_wf ?_); assumption)

theorem transfer_wf {x : Xfer}  : SlotEff.Wf (transfer x) := by
  unfold transfer
  repeat' first
    | with_reducible apply onCore_wf

theorem semBr_wf {d : Nat} {x : Option Nat} {s : State}  : SlotEff.Wf (semBr d x s) := by
  unfold semBr
  repeat' first
    | with_reducible apply transfer_wf

theorem semBri_wf {a : Nat} {s : State}  : SlotEff.Wf (semBri a s) := by
  unfold semBri
  repeat' first
    | with_reducible apply transfer_wf

theorem semCall_wf {d : Nat} {x : Option Nat} {s : State}  : SlotEff.Wf (semCall d x s) := by
  unfold semCall
  repeat' first
    | with_reducible apply transfer_wf

theorem semCalli_wf {d : Nat} {a : Nat} {s : State}  : SlotEff.Wf (semCalli d a s) := by
  unfold semCalli
  repeat' first
    | with_reducible apply transfer_wf

theorem semRet_wf {a : Nat} {s : State}  : SlotEff.Wf (semRet a s) := by
  unfold semRet
  repeat' first
    | with_reducible apply transfer_wf

theorem semLoop_wf {a : Nat} {o : Nat} {x : Option Nat} {s : State}  : SlotEff.Wf (semLoop a o x s) := by
  unfold semLoop
  repeat' first
    | with_reducible apply transfer_wf

theorem semLoopi_wf {n : Nat} {o : Nat} {x : Option Nat} {s : State}  : SlotEff.Wf (semLoopi n o x s) := by
  unfold semLoopi
  repeat' first
    | with_reducible apply transfer_wf

theorem semSafe_wf {i : Nat} {x : Option Nat} {s : State}  : SlotEff.Wf (semSafe i x s) := by
  unfold semSafe
  repeat' first
    | with_reducible apply faults_wf
    | with_reducible apply onCore_wf
    | split

theorem semDone_wf {_s : State}  : SlotEff.Wf (semDone _s) := by
  unfold semDone
  repeat' first
    | with_reducible apply transfer_wf

theorem waitOn_wf {l : List Nat} {s : State}  : SlotEff.Wf (waitOn l s) := by
  unfold waitOn
  repeat' first
    | with_reducible assumption
    | (show True; trivial)
    | intro _
    | (extract_lets +onlyGivenNames x; clear_value x)
    | with_reducible apply id_wf
    | with_reducible apply faults_wf
    | with_reducible apply State.updMe_wf
    | split
    | with_reducible apply effmk_wf

theorem semWaitk_wf {a : Nat} {s : State}  : SlotEff.Wf (semWaitk a s) := by
  unfold semWaitk
  repeat' first
    | with_reducible apply waitOn_wf

theorem semWaitkRange_wf {a : Nat} {b : Nat} {s : State}  : SlotEff.Wf (semWaitkRange a b s) := by
  unfold semWaitkRange
  repeat' first
    | with_reducible apply waitOn_wf

theorem pRes_wf {c : Core} {d : Nat} {b : Bool}  : SlotEff.Wf (pRes c d b) := by
  unfold pRes
  repeat' first
    | with_reducible apply result_wf

theorem semPollk_wf {d : Nat} {a : Nat} {s : State}  : SlotEff.Wf (semPollk d a s) := by
  unfold semPollk
  repeat' first
    | with_reducible apply faults_wf
    | with_reducible apply pRes_wf
    | split

theorem semPollkErr_wf {d : Nat} {a : Nat} {s : State}  : SlotEff.Wf (semPollkErr d a s) := by
  unfold semPollkErr
  repeat' first
    | with_reducible apply faults_wf
    | with_reducible apply pRes_wf
    | split

theorem semFenceCore_wf {s : State}  : SlotEff.Wf (semFenceCore s) := by
  unfold semFenceCore
  repeat' first
    | with_reducible assumption
    | (show True; trivial)
    | intro _
    | with_reducible apply id_wf
    | with_reducible apply effmk_wf

theorem semFenceCluster_wf {s : State}  : SlotEff.Wf (semFenceCluster s) := by
  unfold semFenceCluster
  repeat' first
    | with_reducible assumption
    | (show True; trivial)
    | intro _
    | with_reducible apply id_wf
    | with_reducible apply effmk_wf

theorem semFenceDevice_wf {s : State}  : SlotEff.Wf (semFenceDevice s) := by
  unfold semFenceDevice
  repeat' first
    | with_reducible assumption
    | (show True; trivial)
    | intro _
    | with_reducible apply id_wf
    | with_reducible apply drainMarker_wf
    | with_reducible apply effmk_wf

theorem semFenceSys_wf {s : State}  : SlotEff.Wf (semFenceSys s) := by
  unfold semFenceSys
  repeat' first
    | with_reducible assumption
    | (show True; trivial)
    | intro _
    | with_reducible apply id_wf
    | with_reducible apply drainMarker_wf
    | with_reducible apply effmk_wf

theorem semTrap_wf {n : Nat} {x : Option Nat} {s : State}  : SlotEff.Wf (semTrap n x s) := by
  unfold semTrap
  repeat' first
    | with_reducible apply faults_wf
    | with_reducible apply transfer_wf
    | split

theorem semSysc_wf {a : Nat} {i : Nat} {x : Option Nat} {s : State}  : SlotEff.Wf (semSysc a i x s) := by
  unfold semSysc
  repeat' first
    | with_reducible assumption
    | (show True; trivial)
    | intro _
    | (extract_lets +onlyGivenNames x; clear_value x)
    | with_reducible apply id_wf
    | with_reducible apply State.frqPost_wf
    | with_reducible apply effmk_wf

theorem semEret_wf {s : State}  : SlotEff.Wf (semEret s) := by
  unfold semEret
  repeat' first
    | with_reducible apply transfer_wf
    | with_reducible apply faults_wf
    | split

theorem gRes_wf {c : Core} {d : Nat} {v : W64}  : SlotEff.Wf (gRes c d v) := by
  unfold gRes
  repeat' first
    | with_reducible apply result_wf

theorem semCsrr_wf {d : Nat} {n : Nat} {s : State}  : SlotEff.Wf (semCsrr d n s) := by
  unfold semCsrr
  repeat' first
    | with_reducible apply faults_wf
    | with_reducible apply gRes_wf
    | split

theorem semCsrw_wf {a : Nat} {n : Nat} {s : State}  : SlotEff.Wf (semCsrw a n s) := by
  unfold semCsrw
  repeat' first
    | with_reducible apply csrOp_wf

theorem semCsrs_wf {a : Nat} {n : Nat} {s : State}  : SlotEff.Wf (semCsrs a n s) := by
  unfold semCsrs
  repeat' first
    | with_reducible apply csrOp_wf

theorem semCsrc_wf {a : Nat} {n : Nat} {s : State}  : SlotEff.Wf (semCsrc a n s) := by
  unfold semCsrc
  repeat' first
    | with_reducible apply csrOp_wf

theorem semAdd_wf {d : Nat} {a : Nat} {b : Nat} {s : State}  : SlotEff.Wf (semAdd d a b s) := by
  unfold semAdd
  repeat' first
    | with_reducible apply gRes_wf

theorem semSub_wf {d : Nat} {a : Nat} {b : Nat} {s : State}  : SlotEff.Wf (semSub d a b s) := by
  unfold semSub
  repeat' first
    | with_reducible apply gRes_wf

theorem semAddi_wf {d : Nat} {a : Nat} {i : Nat} {x : Option Nat} {s : State}  : SlotEff.Wf (semAddi d a i x s) := by
  unfold semAddi
  repeat' first
    | with_reducible apply gRes_wf

theorem gResLat_wf {c : Core} {d : Nat} {v : W64} {lat : Nat}  : SlotEff.Wf (gResLat c d v lat) := by
  unfold gResLat
  repeat' first
    | with_reducible apply result_wf

theorem semMul_wf {d : Nat} {a : Nat} {b : Nat} {s : State}  : SlotEff.Wf (semMul d a b s) := by
  unfold semMul
  repeat' first
    | with_reducible apply gResLat_wf

theorem semMulh_wf {d : Nat} {a : Nat} {b : Nat} {s : State}  : SlotEff.Wf (semMulh d a b s) := by
  unfold semMulh
  repeat' first
    | with_reducible apply gResLat_wf

theorem semMulhU_wf {d : Nat} {a : Nat} {b : Nat} {s : State}  : SlotEff.Wf (semMulhU d a b s) := by
  unfold semMulhU
  repeat' first
    | with_reducible apply gResLat_wf

theorem semDiv_wf {d : Nat} {a : Nat} {b : Nat} {s : State}  : SlotEff.Wf (semDiv d a b s) := by
  unfold semDiv
  repeat' first
    | with_reducible apply gResLat_wf

theorem semDivU_wf {d : Nat} {a : Nat} {b : Nat} {s : State}  : SlotEff.Wf (semDivU d a b s) := by
  unfold semDivU
  repeat' first
    | with_reducible apply gResLat_wf

theorem semRem_wf {d : Nat} {a : Nat} {b : Nat} {s : State}  : SlotEff.Wf (semRem d a b s) := by
  unfold semRem
  repeat' first
    | with_reducible apply gResLat_wf

theorem semRemU_wf {d : Nat} {a : Nat} {b : Nat} {s : State}  : SlotEff.Wf (semRemU d a b s) := by
  unfold semRemU
  repeat' first
    | with_reducible apply gResLat_wf

theorem semAnd_wf {d : Nat} {a : Nat} {b : Nat} {s : State}  : SlotEff.Wf (semAnd d a b s) := by
  unfold semAnd
  repeat' first
    | with_reducible apply gRes_wf

theorem semOr_wf {d : Nat} {a : Nat} {b : Nat} {s : State}  : SlotEff.Wf (semOr d a b s) := by
  unfold semOr
  repeat' first
    | with_reducible apply gRes_wf

theorem semXor_wf {d : Nat} {a : Nat} {b : Nat} {s : State}  : SlotEff.Wf (semXor d a b s) := by
  unfold semXor
  repeat' first
    | with_reducible apply gRes_wf

theorem semAndi_wf {d : Nat} {a : Nat} {i : Nat} {x : Option Nat} {s : State}  : SlotEff.Wf (semAndi d a i x s) := by
  unfold semAndi
  repeat' first
    | with_reducible apply gRes_wf

theorem semOri_wf {d : Nat} {a : Nat} {i : Nat} {x : Option Nat} {s : State}  : SlotEff.Wf (semOri d a i x s) := by
  unfold semOri
  repeat' first
    | with_reducible apply gRes_wf

theorem semXori_wf {d : Nat} {a : Nat} {i : Nat} {x : Option Nat} {s : State}  : SlotEff.Wf (semXori d a i x s) := by
  unfold semXori
  repeat' first
    | with_reducible apply gRes_wf

theorem semShl_wf {d : Nat} {a : Nat} {b : Nat} {s : State}  : SlotEff.Wf (semShl d a b s) := by
  unfold semShl
  repeat' first
    | with_reducible apply gRes_wf

theorem semShr_wf {d : Nat} {a : Nat} {b : Nat} {s : State}  : SlotEff.Wf (semShr d a b s) := by
  unfold semShr
  repeat' first
    | with_reducible apply gRes_wf

theorem semShrA_wf {d : Nat} {a : Nat} {b : Nat} {s : State}  : SlotEff.Wf (semShrA d a b s) := by
  unfold semShrA
  repeat' first
    | with_reducible apply gRes_wf

theorem semShli_wf {d : Nat} {a : Nat} {n : Nat} {s : State}  : SlotEff.Wf (semShli d a n s) := by
  unfold semShli
  repeat' first
    | with_reducible apply gRes_wf

theorem semShri_wf {d : Nat} {a : Nat} {n : Nat} {s : State}  : SlotEff.Wf (semShri d a n s) := by
  unfold semShri
  repeat' first
    | with_reducible apply gRes_wf

theorem semShriA_wf {d : Nat} {a : Nat} {n : Nat} {s : State}  : SlotEff.Wf (semShriA d a n s) := by
  unfold semShriA
  repeat' first
    | with_reducible apply gRes_wf

theorem semBfx_wf {d : Nat} {a : Nat} {sx : Nat} {wm1 : Nat} {lsb : Nat} {s : State}  : SlotEff.Wf (semBfx d a sx wm1 lsb s) := by
  unfold semBfx
  repeat' first
    | (extract_lets +onlyGivenNames x; clear_value x)
    | with_reducible apply gRes_wf

theorem semBfi_wf {d : Nat} {a : Nat} {wm1 : Nat} {lsb : Nat} {s : State}  : SlotEff.Wf (semBfi d a wm1 lsb s) := by
  unfold semBfi
  repeat' first
    | with_reducible apply gRes_wf

theorem semSethi_wf {d : Nat} {a : Nat} {i : Nat} {x : Option Nat} {s : State}  : SlotEff.Wf (semSethi d a i x s) := by
  unfold semSethi
  repeat' first
    | with_reducible apply gRes_wf

theorem semBitcPop_wf {d : Nat} {a : Nat} {s : State}  : SlotEff.Wf (semBitcPop d a s) := by
  unfold semBitcPop
  repeat' first
    | with_reducible apply gRes_wf

theorem semBitcClz_wf {d : Nat} {a : Nat} {s : State}  : SlotEff.Wf (semBitcClz d a s) := by
  unfold semBitcClz
  repeat' first
    | with_reducible apply gRes_wf

theorem semBitcCtz_wf {d : Nat} {a : Nat} {s : State}  : SlotEff.Wf (semBitcCtz d a s) := by
  unfold semBitcCtz
  repeat' first
    | with_reducible apply gRes_wf

theorem semMin_wf {d : Nat} {a : Nat} {b : Nat} {s : State}  : SlotEff.Wf (semMin d a b s) := by
  unfold semMin
  repeat' first
    | with_reducible apply gRes_wf

theorem semMinU_wf {d : Nat} {a : Nat} {b : Nat} {s : State}  : SlotEff.Wf (semMinU d a b s) := by
  unfold semMinU
  repeat' first
    | with_reducible apply gRes_wf

theorem semMax_wf {d : Nat} {a : Nat} {b : Nat} {s : State}  : SlotEff.Wf (semMax d a b s) := by
  unfold semMax
  repeat' first
    | with_reducible apply gRes_wf

theorem semMaxU_wf {d : Nat} {a : Nat} {b : Nat} {s : State}  : SlotEff.Wf (semMaxU d a b s) := by
  unfold semMaxU
  repeat' first
    | with_reducible apply gRes_wf

theorem semCmpeq_wf {d : Nat} {a : Nat} {b : Nat} {s : State}  : SlotEff.Wf (semCmpeq d a b s) := by
  unfold semCmpeq
  repeat' first
    | with_reducible apply pRes_wf

theorem semCmpne_wf {d : Nat} {a : Nat} {b : Nat} {s : State}  : SlotEff.Wf (semCmpne d a b s) := by
  unfold semCmpne
  repeat' first
    | with_reducible apply pRes_wf

theorem semCmplt_wf {d : Nat} {a : Nat} {b : Nat} {s : State}  : SlotEff.Wf (semCmplt d a b s) := by
  unfold semCmplt
  repeat' first
    | with_reducible apply pRes_wf

theorem semCmpltu_wf {d : Nat} {a : Nat} {b : Nat} {s : State}  : SlotEff.Wf (semCmpltu d a b s) := by
  unfold semCmpltu
  repeat' first
    | with_reducible apply pRes_wf

theorem semCmple_wf {d : Nat} {a : Nat} {b : Nat} {s : State}  : SlotEff.Wf (semCmple d a b s) := by
  unfold semCmple
  repeat' first
    | with_reducible apply pRes_wf

theorem semCmpleu_wf {d : Nat} {a : Nat} {b : Nat} {s : State}  : SlotEff.Wf (semCmpleu d a b s) := by
  unfold semCmpleu
  repeat' first
    | with_reducible apply pRes_wf

theorem semCmpeqi_wf {d : Nat} {a : Nat} {i : Nat} {x : Option Nat} {s : State}  : SlotEff.Wf (semCmpeqi d a i x s) := by
  unfold semCmpeqi
  repeat' first
    | with_reducible apply pRes_wf

theorem semCmplti_wf {d : Nat} {a : Nat} {i : Nat} {x : Option Nat} {s : State}  : SlotEff.Wf (semCmplti d a i x s) := by
  unfold semCmplti
  repeat' first
    | with_reducible apply pRes_wf

theorem semPand_wf {d : Nat} {a : Nat} {b : Nat} {s : State}  : SlotEff.Wf (semPand d a b s) := by
  unfold semPand
  repeat' first
    | with_reducible apply pRes_wf

theorem semPor_wf {d : Nat} {a : Nat} {b : Nat} {s : State}  : SlotEff.Wf (semPor d a b s) := by
  unfold semPor
  repeat' first
    | with_reducible apply pRes_wf

theorem semPxor_wf {d : Nat} {a : Nat} {b : Nat} {s : State}  : SlotEff.Wf (semPxor d a b s) := by
  unfold semPxor
  repeat' first
    | with_reducible apply pRes_wf

theorem semPandn_wf {d : Nat} {a : Nat} {b : Nat} {s : State}  : SlotEff.Wf (semPandn d a b s) := by
  unfold semPandn
  repeat' first
    | with_reducible apply pRes_wf

theorem semPmov_wf {d : Nat} {a : Nat} {s : State}  : SlotEff.Wf (semPmov d a s) := by
  unfold semPmov
  repeat' first
    | with_reducible apply pRes_wf

theorem semPmovPreds_wf {d : Nat} {s : State}  : SlotEff.Wf (semPmovPreds d s) := by
  unfold semPmovPreds
  repeat' first
    | with_reducible apply gRes_wf

theorem semPmovFromG_wf {d : Nat} {a : Nat} {s : State}  : SlotEff.Wf (semPmovFromG d a s) := by
  unfold semPmovFromG
  repeat' first
    | with_reducible apply pRes_wf

theorem semJmovToJ_wf {d : Nat} {a : Nat} {s : State}  : SlotEff.Wf (semJmovToJ d a s) := by
  unfold semJmovToJ
  repeat' first
    | with_reducible apply result_wf

theorem semJmovToG_wf {d : Nat} {a : Nat} {s : State}  : SlotEff.Wf (semJmovToG d a s) := by
  unfold semJmovToG
  repeat' first
    | with_reducible apply gRes_wf

theorem semEmovToE_wf {d : Nat} {a : Nat} {s : State}  : SlotEff.Wf (semEmovToE d a s) := by
  unfold semEmovToE
  repeat' first
    | with_reducible apply result_wf

theorem semEmovToG_wf {d : Nat} {a : Nat} {s : State}  : SlotEff.Wf (semEmovToG d a s) := by
  unfold semEmovToG
  repeat' first
    | with_reducible apply gRes_wf

theorem semEmovE_wf {d : Nat} {a : Nat} {s : State}  : SlotEff.Wf (semEmovE d a s) := by
  unfold semEmovE
  repeat' first
    | with_reducible apply result_wf

theorem semQset_wf {d : Nat} {a : Nat} {s : State}  : SlotEff.Wf (semQset d a s) := by
  unfold semQset
  repeat' first
    | with_reducible apply result_wf

theorem semQsetTid_wf {d : Nat} {a : Nat} {s : State}  : SlotEff.Wf (semQsetTid d a s) := by
  unfold semQsetTid
  repeat' first
    | with_reducible apply result_wf

theorem semQsetC_wf {d : Nat} {a : Nat} {b : Nat} {s : State}  : SlotEff.Wf (semQsetC d a b s) := by
  unfold semQsetC
  repeat' first
    | with_reducible apply result_wf

theorem semQget_wf {d : Nat} {a : Nat} {s : State}  : SlotEff.Wf (semQget d a s) := by
  unfold semQget
  repeat' first
    | with_reducible apply gRes_wf

theorem semQgetTid_wf {d : Nat} {a : Nat} {s : State}  : SlotEff.Wf (semQgetTid d a s) := by
  unfold semQgetTid
  repeat' first
    | with_reducible apply gRes_wf

theorem semQgetC_wf {d : Nat} {a : Nat} {b : Nat} {s : State}  : SlotEff.Wf (semQgetC d a b s) := by
  unfold semQgetC
  repeat' first
    | with_reducible apply gRes_wf

theorem semQadd_wf {d : Nat} {a : Nat} {c : Nat} {n : Nat} {x : Option Nat} {s : State}  : SlotEff.Wf (semQadd d a c n x s) := by
  unfold semQadd
  repeat' first
    | (extract_lets +onlyGivenNames x; clear_value x)
    | with_reducible apply result_wf

theorem semQmov_wf {d : Nat} {a : Nat} {s : State}  : SlotEff.Wf (semQmov d a s) := by
  unfold semQmov
  repeat' first
    | with_reducible apply result_wf

theorem semFadd_wf {d : Nat} {a : Nat} {b : Nat} {f : Nat} {x : Option Nat} {s : State}  : SlotEff.Wf (semFadd d a b f x s) := by
  unfold semFadd
  repeat' first
    | with_reducible apply resultFl_wf

theorem semFsub_wf {d : Nat} {a : Nat} {b : Nat} {f : Nat} {x : Option Nat} {s : State}  : SlotEff.Wf (semFsub d a b f x s) := by
  unfold semFsub
  repeat' first
    | with_reducible apply resultFl_wf

theorem semFmul_wf {d : Nat} {a : Nat} {b : Nat} {f : Nat} {x : Option Nat} {s : State}  : SlotEff.Wf (semFmul d a b f x s) := by
  unfold semFmul
  repeat' first
    | with_reducible apply resultFl_wf

theorem semFma_wf {d : Nat} {a : Nat} {b : Nat} {f : Nat} {c : Nat} {rm : Nat} {s : State}  : SlotEff.Wf (semFma d a b f c rm s) := by
  unfold semFma
  repeat' first
    | with_reducible apply resultFl_wf

theorem semFdiv_wf {d : Nat} {a : Nat} {b : Nat} {f : Nat} {x : Option Nat} {s : State}  : SlotEff.Wf (semFdiv d a b f x s) := by
  unfold semFdiv
  repeat' first
    | with_reducible apply resultFl_wf

theorem semFsqrt_wf {d : Nat} {a : Nat} {f : Nat} {x : Option Nat} {s : State}  : SlotEff.Wf (semFsqrt d a f x s) := by
  unfold semFsqrt
  repeat' first
    | with_reducible apply resultFl_wf

theorem semFmin_wf {d : Nat} {a : Nat} {b : Nat} {f : Nat} {s : State}  : SlotEff.Wf (semFmin d a b f s) := by
  unfold semFmin
  repeat' first
    | with_reducible apply resultFl_wf

theorem semFmax_wf {d : Nat} {a : Nat} {b : Nat} {f : Nat} {s : State}  : SlotEff.Wf (semFmax d a b f s) := by
  unfold semFmax
  repeat' first
    | with_reducible apply resultFl_wf

theorem semFcmp_wf {d : Nat} {a : Nat} {b : Nat} {f : Nat} {cond : Nat} {s : State}  : SlotEff.Wf (semFcmp d a b f cond s) := by
  unfold semFcmp
  repeat' first
    | (extract_lets +onlyGivenNames x; clear_value x)
    | with_reducible apply resultFl_wf

theorem semFcvtFp_wf {d : Nat} {a : Nat} {src : Nat} {dst : Nat} {rm : Nat} {s : State}  : SlotEff.Wf (semFcvtFp d a src dst rm s) := by
  unfold semFcvtFp
  repeat' first
    | with_reducible apply resultFl_wf

theorem semFcvtFromI64_wf {d : Nat} {a : Nat} {f : Nat} {dst : Nat} {rm : Nat} {s : State}  : SlotEff.Wf (semFcvtFromI64 d a f dst rm s) := by
  unfold semFcvtFromI64
  repeat' first
    | with_reducible apply resultFl_wf

theorem semFcvtToI64_wf {d : Nat} {a : Nat} {f : Nat} {src : Nat} {rm : Nat} {s : State}  : SlotEff.Wf (semFcvtToI64 d a f src rm s) := by
  unfold semFcvtToI64
  repeat' first
    | (extract_lets +onlyGivenNames x; clear_value x)
    | with_reducible apply resultFl_wf

theorem semFcvtToU64_wf {d : Nat} {a : Nat} {f : Nat} {src : Nat} {rm : Nat} {s : State}  : SlotEff.Wf (semFcvtToU64 d a f src rm s) := by
  unfold semFcvtToU64
  repeat' first
    | (extract_lets +onlyGivenNames x; clear_value x)
    | with_reducible apply resultFl_wf

theorem semFclass_wf {d : Nat} {a : Nat} {f : Nat} {s : State}  : SlotEff.Wf (semFclass d a f s) := by
  unfold semFclass
  repeat' first
    | with_reducible apply gResLat_wf

theorem vPut_wf {d : Nat} {w : Nat} {lat : Nat} {l : List (Option Nat)} {fl : Nat}  : SlotEff.Wf (vPut d w lat l fl) := by
  unfold vPut
  repeat' first
    | (extract_lets +onlyGivenNames x; clear_value x)
    | with_reducible apply onCore_wf

theorem vMap_wf {o : VOp} {mask : Nat} {w : Nat} {lat : Nat} {f : Nat → Nat × Nat}  : SlotEff.Wf (vMap o mask w lat f) := by
  unfold vMap
  repeat' first
    | (extract_lets +onlyGivenNames x; clear_value x)
    | with_reducible apply vPut_wf

theorem vArith_wf {o : VOp} {c : Core} {ff : Nat → Nat → Nat → Nat → Nat × Nat} {fi : Int → Int → Int → Int}  : SlotEff.Wf (vArith o c ff fi) := by
  unfold vArith
  repeat' first
    | (extract_lets +onlyGivenNames x; clear_value x)
    | with_reducible apply vMap_wf

theorem semVadd_wf {o : VOp} {s : State}  : SlotEff.Wf (semVadd o s) := by
  unfold semVadd
  repeat' first
    | with_reducible apply vArith_wf

theorem semVsub_wf {o : VOp} {s : State}  : SlotEff.Wf (semVsub o s) := by
  unfold semVsub
  repeat' first
    | with_reducible apply vArith_wf

theorem semVmul_wf {o : VOp} {s : State}  : SlotEff.Wf (semVmul o s) := by
  unfold semVmul
  repeat' first
    | with_reducible apply vArith_wf

theorem semVfma_wf {o : VOp} {s : State}  : SlotEff.Wf (semVfma o s) := by
  unfold semVfma
  repeat' first
    | with_reducible apply vArith_wf

theorem semVmin_wf {o : VOp} {s : State}  : SlotEff.Wf (semVmin o s) := by
  unfold semVmin
  repeat' first
    | with_reducible apply vArith_wf

theorem semVmax_wf {o : VOp} {s : State}  : SlotEff.Wf (semVmax o s) := by
  unfold semVmax
  repeat' first
    | with_reducible apply vArith_wf

theorem semVabs_wf {o : VOp} {s : State}  : SlotEff.Wf (semVabs o s) := by
  unfold semVabs
  repeat' first
    | with_reducible apply vArith_wf

theorem semVneg_wf {o : VOp} {s : State}  : SlotEff.Wf (semVneg o s) := by
  unfold semVneg
  repeat' first
    | with_reducible apply vArith_wf

theorem vLogic_wf {o : VOp} {c : Core} {f : Nat → Nat → Nat}  : SlotEff.Wf (vLogic o c f) := by
  unfold vLogic
  repeat' first
    | with_reducible apply vMap_wf

theorem semVand_wf {o : VOp} {s : State}  : SlotEff.Wf (semVand o s) := by
  unfold semVand
  repeat' first
    | with_reducible apply vLogic_wf

theorem semVor_wf {o : VOp} {s : State}  : SlotEff.Wf (semVor o s) := by
  unfold semVor
  repeat' first
    | with_reducible apply vLogic_wf

theorem semVxor_wf {o : VOp} {s : State}  : SlotEff.Wf (semVxor o s) := by
  unfold semVxor
  repeat' first
    | with_reducible apply vLogic_wf

theorem vShift_wf {o : VOp} {c : Core} {f : LaneTy → Nat → Nat → Nat}  : SlotEff.Wf (vShift o c f) := by
  unfold vShift
  repeat' first
    | (extract_lets +onlyGivenNames x; clear_value x)
    | with_reducible apply vMap_wf

theorem semVshl_wf {o : VOp} {s : State}  : SlotEff.Wf (semVshl o s) := by
  unfold semVshl
  repeat' first
    | with_reducible apply vShift_wf

theorem semVshr_wf {o : VOp} {s : State}  : SlotEff.Wf (semVshr o s) := by
  unfold semVshr
  repeat' first
    | with_reducible apply vShift_wf

theorem semVcmp_wf {o : VOp} {s : State}  : SlotEff.Wf (semVcmp o s) := by
  unfold semVcmp
  repeat' first
    | (extract_lets +onlyGivenNames x; clear_value x)
    | with_reducible apply onCore_wf

theorem semVsel_wf {o : VOp} {s : State}  : SlotEff.Wf (semVsel o s) := by
  unfold semVsel
  repeat' first
    | (extract_lets +onlyGivenNames x; clear_value x)
    | with_reducible apply vPut_wf

theorem semVperm_wf {o : VOp} {s : State}  : SlotEff.Wf (semVperm o s) := by
  unfold semVperm
  repeat' first
    | (extract_lets +onlyGivenNames x; clear_value x)
    | with_reducible apply vMap_wf

theorem semVslide_wf {o : VOp} {s : State}  : SlotEff.Wf (semVslide o s) := by
  unfold semVslide
  repeat' first
    | (extract_lets +onlyGivenNames x; clear_value x)
    | with_reducible apply vMap_wf

theorem semVpack_wf {o : VOp} {s : State}  : SlotEff.Wf (semVpack o s) := by
  unfold semVpack
  repeat' first
    | (extract_lets +onlyGivenNames x; clear_value x)
    | with_reducible apply vMap_wf

theorem semVunpk_wf {o : VOp} {s : State}  : SlotEff.Wf (semVunpk o s) := by
  unfold semVunpk
  repeat' first
    | (extract_lets +onlyGivenNames x; clear_value x)
    | with_reducible apply vMap_wf

theorem semVbcast_wf {o : VOp} {s : State}  : SlotEff.Wf (semVbcast o s) := by
  unfold semVbcast
  repeat' first
    | (extract_lets +onlyGivenNames x; clear_value x)
    | with_reducible apply vMap_wf

theorem semVext_wf {o : VOp} {s : State}  : SlotEff.Wf (semVext o s) := by
  unfold semVext
  repeat' first
    | (extract_lets +onlyGivenNames x; clear_value x)
    | with_reducible apply gResLat_wf

theorem semVcvt_wf {o : VOp} {s : State}  : SlotEff.Wf (semVcvt o s) := by
  unfold semVcvt
  repeat' first
    | (extract_lets +onlyGivenNames x; clear_value x)
    | with_reducible apply vPut_wf

theorem semVqnt_wf {o : VOp} {s : State}  : SlotEff.Wf (semVqnt o s) := by
  unfold semVqnt
  repeat' first
    | (extract_lets +onlyGivenNames x; clear_value x)
    | with_reducible apply onCore_wf

theorem semVdq_wf {o : VOp} {s : State}  : SlotEff.Wf (semVdq o s) := by
  unfold semVdq
  repeat' first
    | with_reducible assumption
    | (show True; trivial)
    | intro _
    | (extract_lets +onlyGivenNames x; clear_value x)
    | with_reducible apply id_wf
    | with_reducible apply faults_wf
    | with_reducible apply vMap_wf
    | split
    | with_reducible apply effmk_wf

theorem semVamax_wf {o : VOp} {s : State}  : SlotEff.Wf (semVamax o s) := by
  unfold semVamax
  repeat' first
    | (extract_lets +onlyGivenNames x; clear_value x)
    | with_reducible apply vPut_wf

theorem semVspec_wf {o : VOp} {s : State}  : SlotEff.Wf (semVspec o s) := by
  unfold semVspec
  repeat' first
    | (extract_lets +onlyGivenNames x; clear_value x)
    | with_reducible apply vMap_wf

theorem semVred_wf {o : VOp} {s : State}  : SlotEff.Wf (semVred o s) := by
  unfold semVred
  repeat' first
    | (extract_lets +onlyGivenNames x; clear_value x)
    | with_reducible apply vPut_wf

theorem semVscan_wf {o : VOp} {s : State}  : SlotEff.Wf (semVscan o s) := by
  unfold semVscan
  repeat' first
    | (extract_lets +onlyGivenNames x; clear_value x)
    | with_reducible apply vPut_wf

theorem semVmatch_wf {o : VOp} {s : State}  : SlotEff.Wf (semVmatch o s) := by
  unfold semVmatch
  repeat' first
    | (extract_lets +onlyGivenNames x; clear_value x)
    | with_reducible apply onCore_wf

theorem kPut_wf {d : Nat} {val : Nat} {mask : Option Nat} {lat : Nat}  : SlotEff.Wf (kPut d val mask lat) := by
  unfold kPut
  repeat' first
    | with_reducible apply onCore_wf

theorem semKlog_wf {o : VOp} {s : State}  : SlotEff.Wf (semKlog o s) := by
  unfold semKlog
  repeat' first
    | (extract_lets +onlyGivenNames x; clear_value x)
    | with_reducible apply kPut_wf

theorem semKmov_wf {o : VOp} {s : State}  : SlotEff.Wf (semKmov o s) := by
  unfold semKmov
  repeat' first
    | (extract_lets +onlyGivenNames x; clear_value x)
    | with_reducible apply kPut_wf
    | with_reducible apply vPut_wf
    | split

theorem semVmov_wf {o : VOp} {s : State}  : SlotEff.Wf (semVmov o s) := by
  unfold semVmov
  repeat' first
    | with_reducible apply vMap_wf

theorem semIdle_wf {_s : State}  : SlotEff.Wf (semIdle _s) := by
  unfold semIdle
  repeat' first
    | with_reducible assumption
    | (show True; trivial)
    | intro _
    | with_reducible apply id_wf
    | with_reducible apply effmk_wf

theorem loadTo_wf {s : State} {d : Dest} {a : Nat} {n : Nat} {sx : Nat}  : SlotEff.Wf (loadTo s d a n sx) := by
  unfold loadTo
  repeat' first
    | with_reducible assumption
    | (show True; trivial)
    | intro _
    | (extract_lets +onlyGivenNames x; refine (fun (_ : State.Wf x.1) => ?_) ?_; clear_value x; rotate_left; subst x)
    | with_reducible apply id_wf
    | with_reducible apply State.accessing_wf
    | with_reducible apply State.loadAt_wf
    | with_reducible apply State.addLoad_wf
    | with_reducible apply effmk_wf

theorem loadG_wf {t : Nat} {b : Nat} {d : Nat} {x : Option Nat} {n : Nat} {sx : Nat} {s : State}  : SlotEff.Wf (loadG t b d x n sx s) := by
  unfold loadG
  repeat' first
    | with_reducible apply loadTo_wf

theorem semLdB_wf {t : Nat} {b : Nat} {d : Nat} {x : Option Nat} {s : State}  : SlotEff.Wf (semLdB t b d x s) := by
  unfold semLdB
  repeat' first
    | with_reducible apply loadG_wf

theorem semLdBs_wf {t : Nat} {b : Nat} {d : Nat} {x : Option Nat} {s : State}  : SlotEff.Wf (semLdBs t b d x s) := by
  unfold semLdBs
  repeat' first
    | with_reducible apply loadG_wf

theorem semLdH_wf {t : Nat} {b : Nat} {d : Nat} {x : Option Nat} {s : State}  : SlotEff.Wf (semLdH t b d x s) := by
  unfold semLdH
  repeat' first
    | with_reducible apply loadG_wf

theorem semLdHs_wf {t : Nat} {b : Nat} {d : Nat} {x : Option Nat} {s : State}  : SlotEff.Wf (semLdHs t b d x s) := by
  unfold semLdHs
  repeat' first
    | with_reducible apply loadG_wf

theorem semLdW_wf {t : Nat} {b : Nat} {d : Nat} {x : Option Nat} {s : State}  : SlotEff.Wf (semLdW t b d x s) := by
  unfold semLdW
  repeat' first
    | with_reducible apply loadG_wf

theorem semLdWs_wf {t : Nat} {b : Nat} {d : Nat} {x : Option Nat} {s : State}  : SlotEff.Wf (semLdWs t b d x s) := by
  unfold semLdWs
  repeat' first
    | with_reducible apply loadG_wf

theorem semLdD_wf {t : Nat} {b : Nat} {d : Nat} {x : Option Nat} {s : State}  : SlotEff.Wf (semLdD t b d x s) := by
  unfold semLdD
  repeat' first
    | with_reducible apply loadG_wf

theorem storeFrom_wf {s : State} {a : Nat} {l : List Byte}  : SlotEff.Wf (storeFrom s a l) := by
  unfold storeFrom
  repeat' first
    | with_reducible assumption
    | (show True; trivial)
    | intro _
    | with_reducible apply id_wf
    | with_reducible apply State.accessing_wf
    | with_reducible apply State.storeBytes_wf
    | with_reducible apply effmk_wf

theorem storeG_wf {t : Nat} {b : Nat} {d : Nat} {x : Option Nat} {n : Nat} {s : State}  : SlotEff.Wf (storeG t b d x n s) := by
  unfold storeG
  repeat' first
    | with_reducible apply storeFrom_wf

theorem semStB_wf {t : Nat} {b : Nat} {d : Nat} {x : Option Nat} {s : State}  : SlotEff.Wf (semStB t b d x s) := by
  unfold semStB
  repeat' first
    | with_reducible apply storeG_wf

theorem semStH_wf {t : Nat} {b : Nat} {d : Nat} {x : Option Nat} {s : State}  : SlotEff.Wf (semStH t b d x s) := by
  unfold semStH
  repeat' first
    | with_reducible apply storeG_wf

theorem semStW_wf {t : Nat} {b : Nat} {d : Nat} {x : Option Nat} {s : State}  : SlotEff.Wf (semStW t b d x s) := by
  unfold semStW
  repeat' first
    | with_reducible apply storeG_wf

theorem semStD_wf {t : Nat} {b : Nat} {d : Nat} {x : Option Nat} {s : State}  : SlotEff.Wf (semStD t b d x s) := by
  unfold semStD
  repeat' first
    | with_reducible apply storeG_wf

theorem semLdv_wf {t : Nat} {b : Nat} {d : Nat} {x : Option Nat} {s : State}  : SlotEff.Wf (semLdv t b d x s) := by
  unfold semLdv
  repeat' first
    | with_reducible apply loadTo_wf

theorem semStv_wf {t : Nat} {b : Nat} {d : Nat} {x : Option Nat} {s : State}  : SlotEff.Wf (semStv t b d x s) := by
  unfold semStv
  repeat' first
    | with_reducible apply storeFrom_wf

theorem gathLanes_wf {s : State} {n : Nat} {a : List Nat} {a' : List (Nat × Nat)} (h0 : s.Wf) : State.Wf (gathLanes s n a a').1 := by
  induction a generalizing s a' with
  | nil =>
    unfold gathLanes
    repeat' first
      | with_reducible assumption
  | cons y t ih =>
    unfold gathLanes
    repeat' first
      | with_reducible assumption
      | (extract_lets +onlyGivenNames x; refine (fun (_ : State.Wf x.1) => ?_) ?_; clear_value x; rotate_left; subst x)
      | with_reducible apply State.loadAt_wf
      | with_reducible apply ih
      | split

theorem semGath_wf {t : Nat} {b : Nat} {vx : Nat} {k : Nat} {es : Nat} {sc : Nat} {s : State}  : SlotEff.Wf (semGath t b vx k es sc s) := by
  unfold semGath
  repeat' first
    | with_reducible assumption
    | (show True; trivial)
    | intro _
    | (extract_lets +onlyGivenNames x; refine (fun (_ : State.Wf x.1) => ?_) ?_; clear_value x; rotate_left; subst x)
    | (extract_lets +onlyGivenNames x; clear_value x)
    | with_reducible apply id_wf
    | with_reducible apply gathLanes_wf
    | with_reducible apply State.addLoad_wf
    | split
    | with_reducible apply effmk_wf

theorem semScat_wf {t : Nat} {b : Nat} {vx : Nat} {k : Nat} {es : Nat} {sc : Nat} {s : State}  : SlotEff.Wf (semScat t b vx k es sc s) := by
  unfold semScat
  repeat' first
    | with_reducible assumption
    | (show True; trivial)
    | intro _
    | (extract_lets +onlyGivenNames x; clear_value x)
    | with_reducible apply id_wf
    | with_reducible apply foldl_wf
    | with_reducible apply State.storeBytes_wf
    | split
    | with_reducible apply effmk_wf

theorem semLdx_wf {t : Nat} {b : Nat} {d : Nat} {x : Option Nat} {s : State}  : SlotEff.Wf (semLdx t b d x s) := by
  unfold semLdx
  repeat' first
    | with_reducible assumption
    | (show True; trivial)
    | intro _
    | (extract_lets +onlyGivenNames x; refine (fun (_ : State.Wf x.1) => ?_) ?_; clear_value x; rotate_left; subst x)
    | (extract_lets +onlyGivenNames x; clear_value x)
    | with_reducible apply id_wf
    | with_reducible apply State.accessing_wf
    | with_reducible apply State.loadX_wf
    | with_reducible apply State.addLoad_wf
    | with_reducible apply effmk_wf

theorem semLdxinv_wf {b : Nat} {d : Nat} {x : Option Nat} {s : State}  : SlotEff.Wf (semLdxinv b d x s) := by
  unfold semLdxinv
  repeat' first
    | with_reducible assumption
    | (show True; trivial)
    | intro _
    | with_reducible apply id_wf
    | with_reducible apply onCore_wf
    | split
    | with_reducible apply effmk_wf

theorem semLdxinvAll_wf {_s : State}  : SlotEff.Wf (semLdxinvAll _s) := by
  unfold semLdxinvAll
  repeat' first
    | with_reducible assumption
    | (show True; trivial)
    | intro _
    | with_reducible apply id_wf
    | with_reducible apply State.dropLines_wf
    | with_reducible apply effmk_wf

theorem semSld_wf {t : Nat} {b : Nat} {d : Nat} {x : Option Nat} {s : State}  : SlotEff.Wf (semSld t b d x s) := by
  unfold semSld
  repeat' first
    | with_reducible assumption
    | (show True; trivial)
    | intro _
    | (extract_lets +onlyGivenNames x; refine (fun (_ : State.Wf x.1) => ?_) ?_; clear_value x; rotate_left; subst x)
    | (extract_lets +onlyGivenNames x; clear_value x)
    | with_reducible apply id_wf
    | with_reducible apply State.accessing_wf
    | with_reducible apply State.loadAt_wf
    | with_reducible apply State.updMe_wf
    | with_reducible apply effmk_wf

theorem semPref_wf {b : Nat} {d : Nat} {x : Option Nat} {s : State}  : SlotEff.Wf (semPref b d x s) := by
  unfold semPref
  repeat' first
    | with_reducible assumption
    | (show True; trivial)
    | intro _
    | (extract_lets +onlyGivenNames x; clear_value x)
    | with_reducible apply id_wf
    | with_reducible apply State.updMe_wf
    | with_reducible apply State.fillLine_wf
    | split
    | with_reducible apply effmk_wf

theorem semPrefLlc_wf {_b : Nat} {_d : Nat} {_x : Option Nat} {_s : State}  : SlotEff.Wf (semPrefLlc _b _d _x _s) := by
  unfold semPrefLlc
  repeat' first
    | with_reducible assumption
    | (show True; trivial)
    | intro _
    | with_reducible apply id_wf
    | with_reducible apply effmk_wf

theorem semAcq_wf {t : Nat} {b : Nat} {d : Nat} {x : Option Nat} {s : State}  : SlotEff.Wf (semAcq t b d x s) := by
  unfold semAcq
  repeat' first
    | with_reducible assumption
    | (show True; trivial)
    | intro _
    | (extract_lets +onlyGivenNames x; clear_value x)
    | with_reducible apply id_wf
    | with_reducible apply State.syncWord_wf
    | with_reducible apply State.send_wf
    | with_reducible apply State.updMe_wf
    | with_reducible apply effmk_wf

theorem semRel_wf {t : Nat} {b : Nat} {d : Nat} {x : Option Nat} {s : State}  : SlotEff.Wf (semRel t b d x s) := by
  unfold semRel
  repeat' first
    | with_reducible assumption
    | (show True; trivial)
    | intro _
    | (extract_lets +onlyGivenNames x; clear_value x)
    | with_reducible apply id_wf
    | with_reducible apply State.syncWord_wf
    | with_reducible apply State.send_wf
    | with_reducible apply effmk_wf

theorem frameAccess_wf {s : State} {b d : Nat} {x : Option Nat} {write : Bool} {f : Desc → Tile → Window → State → State} (hf : ∀ ds t w s, s.Wf → (f ds t w s).Wf) : SlotEff.Wf (frameAccess s b d x write f) := by
  unfold frameAccess
  extract_lets t ds need cl
  split
  · exact ⟨id_wf, trivial, id_wf⟩
  · split
    · exact ⟨id_wf, trivial, id_wf⟩
    · split
      · exact ⟨id_wf, trivial, id_wf⟩
      · exact ⟨fun s h => State.updMe_wf (State.pursue_wf h), trivial, fun s h => hf _ _ _ _ (State.updMe_wf h)⟩

theorem semTrd_wf {t b d : Nat} {x : Option Nat} {s : State} : SlotEff.Wf (semTrd t b d x s) := by
  exact frameAccess_wf (fun _ _ _ _ h => State.draw_wf (State.addLoad_wf h))

theorem semTwr_wf {t b d : Nat} {x : Option Nat} {s : State} : SlotEff.Wf (semTwr t b d x s) := by
  unfold semTwr
  exact frameAccess_wf (fun _ _ _ _ h => State.writeWindow_wf h)

theorem semAmo_wf {t : Nat} {b : Nat} {d : Nat} {opc : Nat} {sz : Nat} {r : Nat} {s : State}  : SlotEff.Wf (semAmo t b d opc sz r s) := by
  unfold semAmo
  repeat' first
    | (extract_lets +onlyGivenNames x; clear_value x)
    | with_reducible apply atomic_wf

theorem semCas_wf {t : Nat} {b : Nat} {d : Nat} {sz : Nat} {r : Nat} {c : Nat} {s : State}  : SlotEff.Wf (semCas t b d sz r c s) := by
  unfold semCas
  repeat' first
    | (extract_lets +onlyGivenNames x; clear_value x)
    | with_reducible apply atomic_wf

theorem semIdleL_wf {_s : State}  : SlotEff.Wf (semIdleL _s) := by
  unfold semIdleL
  repeat' first
    | with_reducible assumption
    | (show True; trivial)
    | intro _
    | with_reducible apply id_wf
    | with_reducible apply effmk_wf

theorem loadArrives_wf {k : Nat} {n : Nat} {s : State} (h2 : s.Wf) : State.Wf (loadArrives k n s) := by
  unfold loadArrives
  repeat' first
    | with_reducible assumption
    | intro _
    | (extract_lets +onlyGivenNames x; clear_value x)
    | with_reducible apply foldl_wf
    | with_reducible apply State.arrive_wf
    | with_reducible apply State.servedAll_wf
    | with_reducible apply State.closeLine_wf
    | split

theorem execLoadDataArrival_wf {core : Nat} {n : Nat} {s : State} (h2 : s.Wf) : Res.Wf (execLoadDataArrival core n s) := by
  unfold execLoadDataArrival
  repeat' first
    | with_reducible assumption
    | with_reducible apply next_wf
    | with_reducible apply loadArrives_wf

theorem storePerformed_wf {k : Nat} {n : Nat} {s : State} (h2 : s.Wf) : State.Wf (storePerformed k n s) := by
  unfold storePerformed
  repeat' first
    | with_reducible assumption
    | intro _
    | (extract_lets +onlyGivenNames x; refine (fun (_ : State.Wf x) => ?_) ?_; clear_value x; rotate_left; subst x)
    | (extract_lets +onlyGivenNames x; refine (fun (hx : ∀ f, State.Wf (x f)) => ?_) ?_; clear_value x; rotate_left; subst x)
    | (extract_lets +onlyGivenNames x; clear_value x)
    | with_reducible apply hx
    | with_reducible (refine mk_wf (mem_wf ?_); assumption)
    | with_reducible apply State.setOp_wf
    | with_reducible apply State.served_wf
    | with_reducible apply State.dropOp_wf
    | with_reducible apply State.applyBytes_wf
    | (dsimp -zeta only)
    | split

theorem execStorePerformed_wf {core : Nat} {n : Nat} {s : State} (h2 : s.Wf) : Res.Wf (execStorePerformed core n s) := by
  unfold execStorePerformed
  repeat' first
    | with_reducible assumption
    | with_reducible apply next_wf
    | with_reducible apply storePerformed_wf

theorem relHome_wf {n : Nat} {s : State} (h1 : s.Wf) : State.Wf (relHome n s) := by
  unfold relHome
  repeat' first
    | with_reducible assumption
    | (extract_lets +onlyGivenNames x; refine (fun (_ : State.Wf x) => ?_) ?_; clear_value x; rotate_left; subst x)
    | (extract_lets +onlyGivenNames x; clear_value x)
    | with_reducible apply State.dropMsg_wf
    | with_reducible apply State.send_wf
    | with_reducible apply State.setRec_wf
    | with_reducible apply State.wrMem_wf
    | with_reducible apply State.served_wf
    | with_reducible apply State.closeLine_wf
    | split

theorem execRelAtHome_wf {n : Nat} {s : State} (h1 : s.Wf) : Res.Wf (execRelAtHome n s) := by
  unfold execRelAtHome
  repeat' first
    | with_reducible assumption
    | with_reducible apply next_wf
    | with_reducible apply relHome_wf

theorem execAcqAtHome_wf {n : Nat} {s : State} (h1 : s.Wf) : Res.Wf (execAcqAtHome n s) := by
  unfold execAcqAtHome
  repeat' first
    | with_reducible assumption
    | with_reducible apply next_wf
    | with_reducible apply acqHome_wf

theorem regionDrain_wf {n : Nat} {s : State} (h1 : s.Wf) : State.Wf (regionDrain n s) := by
  unfold regionDrain
  repeat' first
    | with_reducible assumption
    | intro _
    | with_reducible apply State.send_wf
    | with_reducible apply State.dropMsg_wf
    | with_reducible apply State.eachLine_wf
    | with_reducible apply State.writeBackLine_wf
    | split

theorem execRegionDrain_wf {n : Nat} {s : State} (h1 : s.Wf) : Res.Wf (execRegionDrain n s) := by
  unfold execRegionDrain
  repeat' first
    | with_reducible assumption
    | with_reducible apply next_wf
    | with_reducible apply regionDrain_wf

theorem regionDrainDone_wf {n : Nat} {s : State} (h1 : s.Wf) : State.Wf (regionDrainDone n s) := by
  unfold regionDrainDone
  repeat' first
    | with_reducible assumption
    | with_reducible apply State.dropMsg_wf
    | split

theorem execRegionDrainComplete_wf {n : Nat} {s : State} (h1 : s.Wf) : Res.Wf (execRegionDrainComplete n s) := by
  unfold execRegionDrainComplete
  repeat' first
    | with_reducible assumption
    | with_reducible apply next_wf
    | with_reducible apply regionDrainDone_wf

theorem execAcqReply_wf {n : Nat} {s : State} (h1 : s.Wf) : Res.Wf (execAcqReply n s) := by
  unfold execAcqReply
  repeat' first
    | with_reducible assumption
    | with_reducible apply next_wf
    | with_reducible apply acqReply_wf

theorem execAmoAtSlice_wf {core : Nat} {n : Nat} {s : State} (h2 : s.Wf) : Res.Wf (execAmoAtSlice core n s) := by
  unfold execAmoAtSlice
  repeat' first
    | with_reducible assumption
    | with_reducible apply next_wf
    | with_reducible apply atSlice_wf

theorem hostDone_wf {k : Nat} {s : State} (h1 : s.Wf) : State.Wf (hostDone k s) := by
  unfold hostDone
  repeat' first
    | with_reducible assumption
    | (extract_lets +onlyGivenNames x; clear_value x)
    | with_reducible apply State.updCore_wf
    | with_reducible apply State.wrMem_wf
    | with_reducible apply State.served_wf
    | split

theorem execHostAtomicCompletion_wf {core : Nat} {s : State} (h1 : s.Wf) : Res.Wf (execHostAtomicCompletion core s) := by
  unfold execHostAtomicCompletion
  repeat' first
    | with_reducible assumption
    | with_reducible apply next_wf
    | with_reducible apply hostDone_wf

theorem hostGivesUp_wf {k : Nat} {s : State} (h1 : s.Wf) : State.Wf (hostGivesUp k s) := by
  unfold hostGivesUp
  repeat' first
    | with_reducible assumption
    | with_reducible apply State.updCore_wf
    | split

theorem execHostAtomicExhausted_wf {core : Nat} {s : State} (h1 : s.Wf) : Res.Wf (execHostAtomicExhausted core s) := by
  unfold execHostAtomicExhausted
  repeat' first
    | with_reducible assumption
    | with_reducible apply next_wf
    | with_reducible apply hostGivesUp_wf

end Sys2Proof.Machine
end

