-- ==== Sys2Proof/Laws/Canon3.lean ====
section
/-! SUPPORT. Memory keeps its canonical form: the engine commands, their starts and completions. One lemma per operation, named after it. -/

namespace Sys2Proof.Machine

theorem mmaSem_wf {d : Nat} {qa : Nat} {sa : Nat} {ta : Nat} {tb : Nat} {z : Nat} {kb0 : Nat} {kbn : Nat} {pa : Nat} {pb : Nat} {k : Nat} {x : Cmd}  : CmdSem.Wf (mmaSem d qa sa ta tb z kb0 kbn pa pb k x) := by
  unfold mmaSem
  repeat' first
    | with_reducible assumption
    | intro _
    | (extract_lets +onlyGivenNames x; clear_value x)
    | with_reducible apply id_wf
    | with_reducible apply coreEff_wf
    | (dsimp -zeta only)
    | split
    | with_reducible apply cmdmk_wf

theorem mzeroSem_wf {mask : Nat} {k : Nat}  : CmdSem.Wf (mzeroSem mask k) := by
  unfold mzeroSem
  repeat' first
    | with_reducible assumption
    | intro _
    | with_reducible apply id_wf
    | with_reducible apply coreEff_wf
    | with_reducible apply cmdmk_wf

theorem mldaSem_wf {d : Nat} {tr : Nat} {part : Nat} {k : Nat} {x : Cmd}  : CmdSem.Wf (mldaSem d tr part k x) := by
  unfold mldaSem
  repeat' first
    | with_reducible assumption
    | intro _
    | (extract_lets +onlyGivenNames x; clear_value x)
    | with_reducible apply id_wf
    | with_reducible apply coreEff_wf
    | split
    | with_reducible apply cmdmk_wf

theorem mstaSem_wf {a : Nat} {tr : Nat} {part : Nat} {rm : Nat} {dist : Nat} {k : Nat} {x : Cmd}  : CmdSem.Wf (mstaSem a tr part rm dist k x) := by
  unfold mstaSem
  repeat' first
    | with_reducible assumption
    | intro _
    | (extract_lets +onlyGivenNames x; refine (fun (_ : State.Wf x) => ?_) ?_; clear_value x; rotate_left; subst x)
    | (extract_lets +onlyGivenNames x; clear_value x)
    | with_reducible apply id_wf
    | with_reducible apply State.putFrame_wf
    | with_reducible apply State.staleRect_wf
    | split
    | with_reducible apply cmdmk_wf

theorem constSem_wf {d : Nat} {g : Nat} {keep : Nat → Nat → Bool} {k : Nat}  : CmdSem.Wf (constSem d g keep k) := by
  unfold constSem
  repeat' first
    | with_reducible assumption
    | intro _
    | (extract_lets +onlyGivenNames x; clear_value x)
    | with_reducible apply id_wf
    | with_reducible apply coreEff_wf
    | with_reducible apply cmdmk_wf

theorem mulSem_wf {d : Nat} {g : Nat} {k : Nat}  : CmdSem.Wf (mulSem d g k) := by
  unfold mulSem
  repeat' first
    | with_reducible assumption
    | intro _
    | with_reducible apply id_wf
    | with_reducible apply coreEff_wf
    | with_reducible apply cmdmk_wf

theorem State.build_wf {s : State} {k : Nat} {x : Cmd} {z : Nat} {o : Opnd} {rec : ZRec} (h0 : s.Wf) : State.Wf (State.build s k x z o rec).1 := by
  unfold State.build
  repeat' first
    | with_reducible assumption
    | (extract_lets +onlyGivenNames x; clear_value x)
    | with_reducible apply State.setCore_wf

theorem tbuildSem_wf {z : Nat} {p : Nat} {kb : Nat} {mode : Nat} {w : Nat} {k : Nat} {x : Cmd}  : CmdSem.Wf (tbuildSem z p kb mode w k x) := by
  unfold tbuildSem
  repeat' first
    | with_reducible assumption
    | intro _
    | (extract_lets +onlyGivenNames x; refine (fun (_ : State.Wf x.1) => ?_) ?_; clear_value x; rotate_left; subst x)
    | (extract_lets +onlyGivenNames x; clear_value x)
    | with_reducible apply id_wf
    | with_reducible apply State.build_wf
    | with_reducible apply cmdmk_wf

theorem tlookSem_wf {d : Nat} {z : Nat} {wkb : Nat} {cst : Nat} {cnm1 : Nat} {pm : Nat} {k : Nat} {r : Bool} {x : Cmd}  : CmdSem.Wf (tlookSem d z wkb cst cnm1 pm k r x) := by
  unfold tlookSem
  repeat' first
    | with_reducible assumption
    | intro _
    | (extract_lets +onlyGivenNames x; refine (fun (_ : State.Wf x) => ?_) ?_; clear_value x; rotate_left; subst x)
    | (extract_lets +onlyGivenNames x; refine (fun (_ : State.Wf x.1) => ?_) ?_; clear_value x; rotate_left; subst x)
    | (extract_lets +onlyGivenNames x; clear_value x)
    | with_reducible apply id_wf
    | with_reducible apply State.build_wf
    | with_reducible apply State.setCore_wf
    | split
    | with_reducible apply cmdmk_wf

theorem State.engWrite_wf {s : State} {k : Nat} {part : Nat} {gva : Nat} {l : List Byte} (h0 : s.Wf) : State.Wf (State.engWrite s k part gva l) := by
  unfold State.engWrite
  repeat' first
    | with_reducible assumption
    | intro _
    | with_reducible apply foldl_wf
    | with_reducible apply State.wrBytes_wf
    | with_reducible apply State.closeLine_wf
    | split

theorem zsaveSem_wf {z : Nat} {f : Nat} {k : Nat} {x : Cmd}  : CmdSem.Wf (zsaveSem z f k x) := by
  unfold zsaveSem
  repeat' first
    | with_reducible assumption
    | intro _
    | (extract_lets +onlyGivenNames x; refine (fun (_ : State.Wf x) => ?_) ?_; clear_value x; rotate_left; subst x)
    | (extract_lets +onlyGivenNames x; clear_value x)
    | with_reducible apply id_wf
    | with_reducible apply State.draw_wf
    | with_reducible apply State.putFrame_wf
    | with_reducible apply State.staleRect_wf
    | with_reducible apply State.engWrite_wf
    | (dsimp -zeta only)
    | split
    | with_reducible apply cmdmk_wf

theorem zloadSem_wf {z : Nat} {f : Nat} {k : Nat} {x : Cmd}  : CmdSem.Wf (zloadSem z f k x) := by
  unfold zloadSem
  repeat' first
    | with_reducible assumption
    | intro _
    | (extract_lets +onlyGivenNames x; clear_value x)
    | with_reducible apply id_wf
    | with_reducible apply State.updCore_wf
    | split
    | with_reducible apply cmdmk_wf

theorem zinvSem_wf {mask : Nat} {k : Nat}  : CmdSem.Wf (zinvSem mask k) := by
  unfold zinvSem
  repeat' first
    | with_reducible assumption
    | intro _
    | with_reducible apply id_wf
    | with_reducible apply coreEff_wf
    | with_reducible apply cmdmk_wf

theorem cbldSem_wf {w : Nat} {cnt : Nat} {k : Nat} {x : Cmd}  : CmdSem.Wf (cbldSem w cnt k x) := by
  unfold cbldSem
  repeat' first
    | with_reducible assumption
    | intro _
    | (extract_lets +onlyGivenNames x; clear_value x)
    | with_reducible apply id_wf
    | with_reducible apply coreEff_wf
    | split
    | with_reducible apply cmdmk_wf

theorem mSem_wf {i : Instr} {k : Nat} {x : Cmd}  : CmdSem.Wf (mSem i k x) := by
  unfold mSem
  repeat' first
    | with_reducible assumption
    | intro _
    | (extract_lets +onlyGivenNames x; clear_value x)
    | with_reducible apply id_wf
    | with_reducible apply mmaSem_wf
    | with_reducible apply mzeroSem_wf
    | with_reducible apply mldaSem_wf
    | with_reducible apply mstaSem_wf
    | with_reducible apply constSem_wf
    | with_reducible apply mulSem_wf
    | with_reducible apply tbuildSem_wf
    | with_reducible apply tlookSem_wf
    | with_reducible apply zsaveSem_wf
    | with_reducible apply zloadSem_wf
    | with_reducible apply zinvSem_wf
    | with_reducible apply cbldSem_wf
    | split
    | with_reducible apply cmdmk_wf

theorem State.addPin_wf {s : State} {k : Nat} {t : Tile} (h0 : s.Wf) : State.Wf (State.addPin s k t) := by
  unfold State.addPin
  repeat' first
    | with_reducible assumption
    | with_reducible apply State.updCore_wf
    | with_reducible apply State.updFrame_wf
    | split

theorem State.dropPin_wf {s : State} {k : Nat} {t : Tile} (h0 : s.Wf) : State.Wf (State.dropPin s k t) := by
  unfold State.dropPin
  repeat' first
    | with_reducible assumption
    | (extract_lets +onlyGivenNames x; refine (fun (_ : State.Wf x) => ?_) ?_; clear_value x; rotate_left; subst x)
    | (extract_lets +onlyGivenNames x; clear_value x)
    | with_reducible apply State.updCore_wf
    | with_reducible apply State.updFrame_wf
    | split

theorem State.applyHints_wf {s : State} {k : Nat} {x : Cmd} {t : Tile} {set : Nat} {clr : Nat} (h0 : s.Wf) : State.Wf (State.applyHints s k x t set clr).1 := by
  unfold State.applyHints
  repeat' first
    | with_reducible assumption
    | (extract_lets +onlyGivenNames x; refine (fun (_ : State.Wf x) => ?_) ?_; clear_value x; rotate_left; subst x)
    | (extract_lets +onlyGivenNames x; clear_value x)
    | with_reducible apply State.updFrame_wf
    | with_reducible apply State.addPin_wf
    | with_reducible apply State.dropPin_wf
    | (dsimp -zeta only)
    | split

theorem tfetchSem_wf {hint : Nat} {k : Nat} {x : Cmd}  : CmdSem.Wf (tfetchSem hint k x) := by
  unfold tfetchSem
  repeat' first
    | with_reducible assumption
    | intro _
    | (extract_lets +onlyGivenNames x; clear_value x)
    | with_reducible apply id_wf
    | with_reducible apply State.applyHints_wf
    | split
    | with_reducible apply cmdmk_wf

theorem thintSem_wf {set : Nat} {clr : Nat} {k : Nat} {x : Cmd}  : CmdSem.Wf (thintSem set clr k x) := by
  unfold thintSem
  repeat' first
    | with_reducible assumption
    | intro _
    | (extract_lets +onlyGivenNames x; clear_value x)
    | with_reducible apply id_wf
    | with_reducible apply State.applyHints_wf
    | split
    | with_reducible apply cmdmk_wf

theorem State.invTile_wf {s : State} {k : Nat} {id : Nat} {t : Tile} (h0 : s.Wf) : State.Wf (State.invTile s k id t) := by
  unfold State.invTile
  repeat' first
    | with_reducible assumption
    | intro _
    | (extract_lets +onlyGivenNames x; refine (fun (_ : State.Wf x) => ?_) ?_; clear_value x; rotate_left; subst x)
    | (extract_lets +onlyGivenNames x; clear_value x)
    | with_reducible (refine mk_wf (mem_wf ?_); assumption)
    | with_reducible apply foldl_wf
    | with_reducible apply State.dropPin_wf
    | with_reducible apply State.setFrame_wf
    | with_reducible apply State.send_wf
    | with_reducible apply State.giveLease_wf
    | with_reducible apply State.dropFrame_wf
    | split

theorem tinvSem_wf {ax : Nat} {nm1 : Nat} {k : Nat} {x : Cmd}  : CmdSem.Wf (tinvSem ax nm1 k x) := by
  unfold tinvSem
  repeat' first
    | with_reducible assumption
    | intro _
    | (extract_lets +onlyGivenNames x; clear_value x)
    | with_reducible apply foldl_wf
    | with_reducible apply State.invTile_wf
    | with_reducible apply cmdmk_wf

theorem State.putTile_wf {s : State} {k : Nat} {x : Cmd} {t : Tile} {m : SMap Byte} (h0 : s.Wf) : State.Wf (State.putTile s k x t m) := by
  unfold State.putTile
  repeat' first
    | with_reducible assumption
    | (extract_lets +onlyGivenNames x; clear_value x)
    | with_reducible apply State.staleRect_wf
    | with_reducible apply State.putFrame_wf

theorem tcopySem_wf {tr : Nat} {k : Nat} {x : Cmd}  : CmdSem.Wf (tcopySem tr k x) := by
  unfold tcopySem
  repeat' first
    | with_reducible assumption
    | intro _
    | (extract_lets +onlyGivenNames x; clear_value x)
    | with_reducible apply id_wf
    | with_reducible apply State.putTile_wf
    | split
    | with_reducible apply cmdmk_wf

theorem tcopyMemSem_wf {k : Nat} {x : Cmd}  : CmdSem.Wf (tcopyMemSem k x) := by
  unfold tcopyMemSem
  repeat' first
    | with_reducible assumption
    | intro _
    | (extract_lets +onlyGivenNames x; clear_value x)
    | with_reducible apply id_wf
    | with_reducible apply State.engWrite_wf
    | (dsimp -zeta only)
    | split
    | with_reducible apply cmdmk_wf

theorem tredSem_wf {op : Nat} {k : Nat} {x : Cmd}  : CmdSem.Wf (tredSem op k x) := by
  unfold tredSem
  repeat' first
    | with_reducible assumption
    | intro _
    | (extract_lets +onlyGivenNames x; refine (fun (_ : State.Wf x) => ?_) ?_; clear_value x; rotate_left; subst x)
    | (extract_lets +onlyGivenNames x; clear_value x)
    | with_reducible (refine mk_wf (mem_wf ?_); assumption)
    | with_reducible apply State.staleIf_wf
    | with_reducible apply State.setFrame_wf
    | with_reducible apply State.send_wf
    | with_reducible apply State.dropFrame_wf
    | split
    | with_reducible apply cmdmk_wf

theorem tgathSem_wf {nm1 : Nat} {k : Nat} {x : Cmd}  : CmdSem.Wf (tgathSem nm1 k x) := by
  unfold tgathSem
  repeat' first
    | with_reducible assumption
    | intro _
    | (extract_lets +onlyGivenNames x; clear_value x)
    | with_reducible apply id_wf
    | with_reducible apply State.staleRect_wf
    | with_reducible apply State.putFrame_wf
    | (dsimp -zeta only)
    | split
    | with_reducible apply cmdmk_wf

theorem tscatSem_wf {nm1 : Nat} {k : Nat} {x : Cmd}  : CmdSem.Wf (tscatSem nm1 k x) := by
  unfold tscatSem
  repeat' first
    | with_reducible assumption
    | intro _
    | (extract_lets +onlyGivenNames x; clear_value x)
    | with_reducible apply id_wf
    | with_reducible apply foldl_wf
    | with_reducible apply State.staleRect_wf
    | with_reducible apply State.putFrame_wf
    | split
    | with_reducible apply cmdmk_wf

theorem tacqSem_wf {ver : Nat} {k : Nat} {x : Cmd}  : CmdSem.Wf (tacqSem ver k x) := by
  unfold tacqSem
  repeat' first
    | with_reducible assumption
    | intro _
    | (extract_lets +onlyGivenNames x; clear_value x)
    | with_reducible apply State.send_wf
    | with_reducible apply cmdmk_wf

theorem trelSem_wf {k : Nat} {x : Cmd}  : CmdSem.Wf (trelSem k x) := by
  unfold trelSem
  repeat' first
    | with_reducible assumption
    | intro _
    | (extract_lets +onlyGivenNames x; clear_value x)
    | with_reducible apply State.send_wf
    | with_reducible apply State.updFrame_wf
    | split
    | with_reducible apply cmdmk_wf

theorem State.prefetch_wf {s : State} {k : Nat} {t : Tile} {hints : Nat} (h0 : s.Wf) : State.Wf (State.prefetch s k t hints) := by
  unfold State.prefetch
  repeat' first
    | with_reducible assumption
    | (extract_lets +onlyGivenNames x; clear_value x)
    | with_reducible apply State.countEv_wf
    | with_reducible apply State.allocate_wf
    | with_reducible apply State.ask_wf
    | with_reducible apply State.updFrame_wf
    | with_reducible (refine mk_wf (mem_wf ?_); refine okOP_some (by assumption) ?_)
    | split

theorem State.lookAhead_wf {s : State} {k : Nat} {part : Nat} {it : Itin} (h0 : s.Wf) : State.Wf (State.lookAhead s k part it) := by
  unfold State.lookAhead
  repeat' first
    | with_reducible assumption
    | intro _
    | with_reducible apply foldl_wf
    | with_reducible apply State.prefetch_wf
    | split

theorem itinSem_wf {sl : Nat} {ix : Nat} {dm1 : Nat} {k : Nat} {x : Cmd}  : CmdSem.Wf (itinSem sl ix dm1 k x) := by
  unfold itinSem
  repeat' first
    | with_reducible assumption
    | intro _
    | (extract_lets +onlyGivenNames x; clear_value x)
    | with_reducible apply id_wf
    | with_reducible apply State.lookAhead_wf
    | with_reducible apply State.updCore_wf
    | split
    | with_reducible apply cmdmk_wf

theorem itstepSem_wf {sl : Nat} {q : Nat} {k : Nat} {x : Cmd}  : CmdSem.Wf (itstepSem sl q k x) := by
  unfold itstepSem
  repeat' first
    | with_reducible assumption
    | intro _
    | (extract_lets +onlyGivenNames x; refine (fun (hx : ∀ s b, State.Wf s → State.Wf (x s b)) => ?_) ?_; clear_value x; rotate_left; subst x)
    | (extract_lets +onlyGivenNames x; clear_value x)
    | with_reducible apply hx
    | with_reducible apply id_wf
    | with_reducible apply State.updCore_wf
    | with_reducible apply State.lookAhead_wf
    | split
    | with_reducible apply cmdmk_wf

theorem State.updChan_wf {s : State} {launch : Nat} {ch : Nat} {f : Chan → Chan} (h0 : s.Wf) : State.Wf (State.updChan s launch ch f) := by
  unfold State.updChan
  repeat' first
    | with_reducible (refine mk_wf (mem_wf ?_); assumption)

theorem chsendSem_wf {ch : Nat} {k : Nat} {x : Cmd}  : CmdSem.Wf (chsendSem ch k x) := by
  unfold chsendSem
  repeat' first
    | with_reducible assumption
    | intro _
    | (extract_lets +onlyGivenNames x; clear_value x)
    | with_reducible apply id_wf
    | with_reducible apply State.updChan_wf
    | with_reducible apply cmdmk_wf

theorem chrecvSem_wf {ch : Nat} {k : Nat} {x : Cmd}  : CmdSem.Wf (chrecvSem ch k x) := by
  unfold chrecvSem
  repeat' first
    | with_reducible assumption
    | intro _
    | (extract_lets +onlyGivenNames x; clear_value x)
    | with_reducible apply id_wf
    | with_reducible apply State.putTile_wf
    | with_reducible apply State.updChan_wf
    | split
    | with_reducible apply cmdmk_wf

theorem descSem_wf {k : Nat} {x : Cmd}  : CmdSem.Wf (descSem k x) := by
  unfold descSem
  repeat' first
    | with_reducible assumption
    | intro _
    | (extract_lets +onlyGivenNames x; clear_value x)
    | with_reducible apply id_wf
    | with_reducible apply State.setDesc_wf
    | split
    | with_reducible apply cmdmk_wf

theorem fabricSem_wf {kind : Nat} {k : Nat} {x : Cmd} {d : Option Nat}  : CmdSem.Wf (fabricSem kind k x d) := by
  unfold fabricSem
  repeat' first
    | with_reducible assumption
    | intro _
    | (extract_lets +onlyGivenNames x; refine (fun (_ : State.Wf x) => ?_) ?_; clear_value x; rotate_left; subst x)
    | (extract_lets +onlyGivenNames x; clear_value x)
    | with_reducible apply State.updCore_wf
    | with_reducible apply State.charge_wf
    | with_reducible apply State.send_wf
    | with_reducible apply State.emit_wf
    | with_reducible apply State.updCmd_wf
    | split
    | with_reducible apply cmdmk_wf

theorem tspawnSem_wf {k : Nat} {x : Cmd}  : CmdSem.Wf (tspawnSem k x) := by
  unfold tspawnSem
  repeat' first
    | with_reducible assumption
    | intro _
    | (extract_lets +onlyGivenNames x; clear_value x)
    | with_reducible apply State.send_wf
    | with_reducible apply cmdmk_wf

theorem tdecSem_wf {k : Nat} {x : Cmd}  : CmdSem.Wf (tdecSem k x) := by
  unfold tdecSem
  repeat' first
    | with_reducible assumption
    | intro _
    | (extract_lets +onlyGivenNames x; clear_value x)
    | with_reducible apply State.send_wf
    | with_reducible apply cmdmk_wf

theorem tdecbSem_wf {k : Nat} {x : Cmd}  : CmdSem.Wf (tdecbSem k x) := by
  unfold tdecbSem
  repeat' first
    | with_reducible assumption
    | intro _
    | (extract_lets +onlyGivenNames x; clear_value x)
    | with_reducible apply State.send_wf
    | with_reducible apply cmdmk_wf

theorem State.release_wf {s : State} {n : Nat} (h0 : s.Wf) : State.Wf (State.release s n) := by
  unfold State.release
  repeat' first
    | with_reducible assumption
    | intro _
    | (extract_lets +onlyGivenNames x; refine (fun (_ : State.Wf x) => ?_) ?_; clear_value x; rotate_left; subst x)
    | (extract_lets +onlyGivenNames x; clear_value x)
    | with_reducible (refine mk_wf (mem_wf ?_); assumption)
    | with_reducible apply foldl_wf
    | with_reducible apply State.send_wf

theorem tdecbArmSem_wf {x : Cmd}  : CmdSem.Wf (tdecbArmSem x) := by
  unfold tdecbArmSem
  repeat' first
    | with_reducible assumption
    | intro _
    | (extract_lets +onlyGivenNames x; refine (fun (_ : State.Wf x) => ?_) ?_; clear_value x; rotate_left; subst x)
    | (extract_lets +onlyGivenNames x; clear_value x)
    | with_reducible (refine mk_wf (mem_wf ?_); assumption)
    | with_reducible apply id_wf
    | with_reducible apply State.release_wf
    | split
    | with_reducible apply cmdmk_wf

theorem xSem_wf {i : Instr} {k : Nat} {x : Cmd}  : CmdSem.Wf (xSem i k x) := by
  unfold xSem
  repeat' first
    | with_reducible assumption
    | intro _
    | with_reducible apply id_wf
    | with_reducible apply tfetchSem_wf
    | with_reducible apply thintSem_wf
    | with_reducible apply tinvSem_wf
    | with_reducible apply tcopySem_wf
    | with_reducible apply tcopyMemSem_wf
    | with_reducible apply tredSem_wf
    | with_reducible apply tgathSem_wf
    | with_reducible apply tscatSem_wf
    | with_reducible apply tacqSem_wf
    | with_reducible apply trelSem_wf
    | with_reducible apply itinSem_wf
    | with_reducible apply itstepSem_wf
    | with_reducible apply chsendSem_wf
    | with_reducible apply chrecvSem_wf
    | with_reducible apply descSem_wf
    | with_reducible apply fabricSem_wf
    | with_reducible apply tspawnSem_wf
    | with_reducible apply tdecSem_wf
    | with_reducible apply tdecbSem_wf
    | with_reducible apply tdecbArmSem_wf
    | split
    | with_reducible apply cmdmk_wf

theorem Cmd.sem_wf {x : Cmd} {k : Nat}  : CmdSem.Wf (Cmd.sem x k) := by
  unfold Cmd.sem
  repeat' first
    | with_reducible apply mSem_wf
    | with_reducible apply xSem_wf
    | split

theorem State.cmdFault_wf {s : State} {k : Nat} {x : Cmd} {f : FaultInfo} (h0 : s.Wf) : State.Wf (State.cmdFault s k x f) := by
  unfold State.cmdFault
  repeat' first
    | with_reducible assumption
    | with_reducible apply State.pageRequest_wf
    | with_reducible apply State.failCmd_wf
    | split

theorem State.dropPins_wf {s : State} {k : Nat} (h0 : s.Wf) : State.Wf (State.dropPins s k) := by
  unfold State.dropPins
  repeat' first
    | with_reducible assumption
    | intro _
    | (extract_lets +onlyGivenNames x; refine (fun (_ : State.Wf x) => ?_) ?_; clear_value x; rotate_left; subst x)
    | (extract_lets +onlyGivenNames x; clear_value x)
    | with_reducible apply foldl_wf
    | with_reducible apply State.updCore_wf
    | with_reducible apply State.updCluster_wf
    | with_reducible apply State.dropPin_wf

theorem State.fetchWants_wf {s : State} {cl : Nat} (h0 : s.Wf) : State.Wf (State.fetchWants s cl) := by
  unfold State.fetchWants
  repeat' first
    | with_reducible assumption
    | intro _
    | with_reducible apply foldl_wf
    | with_reducible apply State.updCore_wf
    | with_reducible apply State.allocate_wf
    | with_reducible apply State.ask_wf
    | with_reducible (refine mk_wf (mem_wf ?_); refine okOP_some (by assumption) ?_)
    | split

theorem State.mapOne_wf {s : State} (h0 : s.Wf) : State.Wf (State.mapOne s) := by
  unfold State.mapOne
  repeat' first
    | with_reducible assumption
    | (extract_lets +onlyGivenNames x; refine (fun (_ : State.Wf x) => ?_) ?_; clear_value x; rotate_left; subst x)
    | (extract_lets +onlyGivenNames x; clear_value x)
    | with_reducible (refine mk_wf (mem_wf ?_); assumption)
    | with_reducible apply State.wrMem_wf
    | with_reducible apply State.updPart_wf

theorem State.passBytes_wf {s : State} {k : Nat} {part : Nat} {l : List (Nat × Nat × Nat)} (h0 : s.Wf) : State.Wf (State.passBytes s k part l) := by
  unfold State.passBytes
  repeat' first
    | with_reducible assumption
    | intro _
    | with_reducible apply foldl_wf
    | with_reducible apply State.servedAll_wf
    | with_reducible apply State.closeLine_wf

theorem State.placeWord_wf {s : State} {nbits : Nat} {w : Nat} (h0 : s.Wf) : State.Wf (State.placeWord s nbits w) := by
  unfold State.placeWord
  repeat' first
    | with_reducible assumption
    | (extract_lets +onlyGivenNames x; refine (fun (_ : State.Wf x) => ?_) ?_; clear_value x; rotate_left; subst x)
    | (extract_lets +onlyGivenNames x; clear_value x)
    | with_reducible (refine mk_wf (mem_wf ?_); assumption)
    | with_reducible apply State.wrBytes_wf
    | with_reducible apply State.mapOne_wf
    | with_reducible apply State.updMe_wf
    | split

theorem State.startCmd_wf {s : State} {k : Nat} {x : Cmd} (h0 : s.Wf) : State.Wf (State.startCmd s k x) := by
  unfold State.startCmd
  extract_lets cl sem needs also s1 s2 snap res wr torn s3 imgs s4
  split
  · exact State.cmdFault_wf h0
  · have h1 : s1.Wf := by
      refine foldl_wf ?_ (fun _ _ h => State.refUp_wf h)
      split
      · exact h0
      · exact foldl_wf h0 (fun _ _ h => State.refUp_wf h)
    clear_value s1
    have h2 : s2.Wf := by
      refine foldl_wf h1 (fun _ _ h => ?_)
      split
      · exact State.touchFrame_wf h
      · exact h
    have h4 : s4.Wf := State.updCmd_wf (State.passBytes_wf h2)
    exact CmdSem.start_wf Cmd.sem_wf (foldl_wf (State.draw_wf h4) (fun _ _ h => State.markTorn_wf h))

theorem State.takeCmd_wf {s : State} {k : Nat} {x : Cmd} (h0 : s.Wf) : State.Wf (State.takeCmd s k x) := by
  unfold State.takeCmd
  repeat' first
    | with_reducible assumption
    | (extract_lets +onlyGivenNames x; refine (fun (_ : State.Wf x) => ?_) ?_; clear_value x; rotate_left; subst x)
    | (extract_lets +onlyGivenNames x; clear_value x)
    | with_reducible (refine mk_wf (mem_wf ?_); assumption)
    | with_reducible apply State.cmdFault_wf
    | with_reducible apply State.countEv_wf
    | with_reducible apply State.startCmd_wf
    | with_reducible apply State.countCore_wf
    | with_reducible apply State.updCmd_wf
    | split

theorem complete_wf {k n : Nat} {s : State} (h2 : s.Wf) : State.Wf (complete k n s) := by
  unfold complete
  split
  · exact h2
  · split
    · exact h2
    · split
      · exact State.finish_wf h2
      · extract_lets r t
        have hr : r.1.Wf := CmdSem.effect_wf Cmd.sem_wf (State.countCore_wf h2)
        have ht : t.Wf := by
          show State.Wf (if _ then _ else _)
          split
          · exact State.updCore_wf hr
          · exact hr
        clear_value t r
        split
        · exact State.failCmd_wf ht
        · exact State.finish_wf ht

theorem engineTake_wf {k : Nat} {ex : Nat} {s : State} (h2 : s.Wf) : State.Wf (engineTake k ex s) := by
  unfold engineTake
  repeat' first
    | with_reducible assumption
    | (extract_lets +onlyGivenNames x; refine (fun (_ : State.Wf x) => ?_) ?_; clear_value x; rotate_left; subst x)
    | with_reducible apply State.cascade_wf
    | with_reducible apply State.draw_wf
    | with_reducible apply State.takeCmd_wf
    | split

theorem semZchk_wf {d : Nat} {a : Nat} {s : State}  : SlotEff.Wf (semZchk d a s) := by
  unfold semZchk
  repeat' first
    | with_reducible apply pRes_wf

theorem semZchkM_wf {d : Nat} {a : Nat} {b : Nat} {s : State}  : SlotEff.Wf (semZchkM d a b s) := by
  unfold semZchkM
  repeat' first
    | (extract_lets +onlyGivenNames x; clear_value x)
    | with_reducible apply pRes_wf

theorem semMma_wf {e : Edge} {d : Nat} {qa : Nat} {qb : Nat} {sa : Nat} {ta : Nat} {tb : Nat} {z : Nat} {kb0 : Nat} {kbn : Nat} {pa : Nat} {pb : Nat} {s : State}  : SlotEff.Wf (semMma e d qa qb sa ta tb z kb0 kbn pa pb s) := by
  unfold semMma
  repeat' first
    | with_reducible apply engineSlot_wf

theorem semMzero_wf {e : Edge} {mask : Nat} {s : State}  : SlotEff.Wf (semMzero e mask s) := by
  unfold semMzero
  repeat' first
    | with_reducible apply engineSlot_wf

theorem semMlda_wf {e : Edge} {d : Nat} {q : Nat} {t : Nat} {part : Nat} {s : State}  : SlotEff.Wf (semMlda e d q t part s) := by
  unfold semMlda
  repeat' first
    | with_reducible apply engineSlot_wf

theorem semMsta_wf {e : Edge} {d : Nat} {q : Nat} {t : Nat} {part : Nat} {rm : Nat} {dist : Nat} {s : State}  : SlotEff.Wf (semMsta e d q t part rm dist s) := by
  unfold semMsta
  repeat' first
    | with_reducible apply engineSlot_wf

theorem semMsclFill_wf {e : Edge} {d : Nat} {gs : Nat} {s : State}  : SlotEff.Wf (semMsclFill e d gs s) := by
  unfold semMsclFill
  repeat' first
    | with_reducible apply engineSlot_wf

theorem semMsclDiag_wf {e : Edge} {d : Nat} {gs : Nat} {s : State}  : SlotEff.Wf (semMsclDiag e d gs s) := by
  unfold semMsclDiag
  repeat' first
    | with_reducible apply engineSlot_wf

theorem semMsclMul_wf {e : Edge} {d : Nat} {gs : Nat} {s : State}  : SlotEff.Wf (semMsclMul e d gs s) := by
  unfold semMsclMul
  repeat' first
    | with_reducible apply engineSlot_wf

theorem semMtriLi_wf {e : Edge} {d : Nat} {gs : Nat} {one : Nat} {s : State}  : SlotEff.Wf (semMtriLi e d gs one s) := by
  unfold semMtriLi
  repeat' first
    | with_reducible apply engineSlot_wf

theorem semMtriLs_wf {e : Edge} {d : Nat} {gs : Nat} {one : Nat} {s : State}  : SlotEff.Wf (semMtriLs e d gs one s) := by
  unfold semMtriLs
  repeat' first
    | with_reducible apply engineSlot_wf

theorem semMtriUi_wf {e : Edge} {d : Nat} {gs : Nat} {one : Nat} {s : State}  : SlotEff.Wf (semMtriUi e d gs one s) := by
  unfold semMtriUi
  repeat' first
    | with_reducible apply engineSlot_wf

theorem semMtriUs_wf {e : Edge} {d : Nat} {gs : Nat} {one : Nat} {s : State}  : SlotEff.Wf (semMtriUs e d gs one s) := by
  unfold semMtriUs
  repeat' first
    | with_reducible apply engineSlot_wf

theorem semTbuild_wf {e : Edge} {z : Nat} {q : Nat} {p : Nat} {kb : Nat} {mode : Nat} {w : Nat} {s : State}  : SlotEff.Wf (semTbuild e z q p kb mode w s) := by
  unfold semTbuild
  repeat' first
    | with_reducible apply engineSlot_wf

theorem semTlook_wf {e : Edge} {d : Nat} {z : Nat} {q : Nat} {wkb : Nat} {cst : Nat} {cnm1 : Nat} {pm : Nat} {s : State}  : SlotEff.Wf (semTlook e d z q wkb cst cnm1 pm s) := by
  unfold semTlook
  repeat' first
    | with_reducible apply engineSlot_wf

theorem semTlookR_wf {e : Edge} {d : Nat} {z : Nat} {q : Nat} {wkb : Nat} {cst : Nat} {cnm1 : Nat} {pm : Nat} {s : State}  : SlotEff.Wf (semTlookR e d z q wkb cst cnm1 pm s) := by
  unfold semTlookR
  repeat' first
    | with_reducible apply engineSlot_wf

theorem semZsave_wf {e : Edge} {z : Nat} {f : Nat} {q : Nat} {gs : Nat} {s : State}  : SlotEff.Wf (semZsave e z f q gs s) := by
  unfold semZsave
  repeat' first
    | with_reducible apply engineSlot_wf

theorem semZload_wf {e : Edge} {z : Nat} {f : Nat} {q : Nat} {gs : Nat} {s : State}  : SlotEff.Wf (semZload e z f q gs s) := by
  unfold semZload
  repeat' first
    | with_reducible apply engineSlot_wf

theorem semZinv_wf {e : Edge} {mask : Nat} {s : State}  : SlotEff.Wf (semZinv e mask s) := by
  unfold semZinv
  repeat' first
    | with_reducible apply engineSlot_wf

theorem semCbld_wf {e : Edge} {w : Nat} {gs : Nat} {cnt : Nat} {s : State}  : SlotEff.Wf (semCbld e w gs cnt s) := by
  unfold semCbld
  repeat' first
    | with_reducible apply engineSlot_wf

theorem semTfetch_wf {e : Edge} {q : Nat} {hint : Nat} {s : State}  : SlotEff.Wf (semTfetch e q hint s) := by
  unfold semTfetch
  repeat' first
    | with_reducible apply engineSlot_wf

theorem semThint_wf {e : Edge} {q : Nat} {set : Nat} {clr : Nat} {s : State}  : SlotEff.Wf (semThint e q set clr s) := by
  unfold semThint
  repeat' first
    | with_reducible apply engineSlot_wf

theorem semTinv_wf {e : Edge} {q : Nat} {ax : Nat} {nm1 : Nat} {s : State}  : SlotEff.Wf (semTinv e q ax nm1 s) := by
  unfold semTinv
  repeat' first
    | with_reducible apply engineSlot_wf

theorem semTcopy_wf {e : Edge} {qs : Nat} {qd : Nat} {t : Nat} {s : State}  : SlotEff.Wf (semTcopy e qs qd t s) := by
  unfold semTcopy
  repeat' first
    | with_reducible apply engineSlot_wf

theorem semTcopyMem_wf {e : Edge} {qs : Nat} {t : Nat} {gs : Nat} {s : State}  : SlotEff.Wf (semTcopyMem e qs t gs s) := by
  unfold semTcopyMem
  repeat' first
    | with_reducible apply engineSlot_wf

theorem semTred_wf {e : Edge} {qs : Nat} {qd : Nat} {opr : Nat} {s : State}  : SlotEff.Wf (semTred e qs qd opr s) := by
  unfold semTred
  repeat' first
    | with_reducible apply engineSlot_wf

theorem semTgath_wf {e : Edge} {qd : Nat} {qs : Nat} {gs : Nat} {nm1 : Nat} {s : State}  : SlotEff.Wf (semTgath e qd qs gs nm1 s) := by
  unfold semTgath
  repeat' first
    | with_reducible apply engineSlot_wf

theorem semTscat_wf {e : Edge} {qs : Nat} {qd : Nat} {gs : Nat} {nm1 : Nat} {s : State}  : SlotEff.Wf (semTscat e qs qd gs nm1 s) := by
  unfold semTscat
  repeat' first
    | with_reducible apply engineSlot_wf

theorem semTacq_wf {e : Edge} {q : Nat} {ver : Nat} {s : State}  : SlotEff.Wf (semTacq e q ver s) := by
  unfold semTacq
  repeat' first
    | with_reducible apply engineSlot_wf

theorem semTrel_wf {e : Edge} {q : Nat} {s : State}  : SlotEff.Wf (semTrel e q s) := by
  unfold semTrel
  repeat' first
    | with_reducible apply engineSlot_wf

theorem semItin_wf {e : Edge} {s0 : Nat} {ix : Nat} {dm1 : Nat} {s : State}  : SlotEff.Wf (semItin e s0 ix dm1 s) := by
  unfold semItin
  repeat' first
    | with_reducible apply engineSlot_wf

theorem semItstep_wf {e : Edge} {s0 : Nat} {q : Nat} {s : State}  : SlotEff.Wf (semItstep e s0 q s) := by
  unfold semItstep
  repeat' first
    | with_reducible apply engineSlot_wf

theorem semChsend_wf {e : Edge} {ch : Nat} {q : Nat} {s : State}  : SlotEff.Wf (semChsend e ch q s) := by
  unfold semChsend
  repeat' first
    | with_reducible apply engineSlot_wf

theorem semChrecv_wf {e : Edge} {ch : Nat} {q : Nat} {s : State}  : SlotEff.Wf (semChrecv e ch q s) := by
  unfold semChrecv
  repeat' first
    | with_reducible apply engineSlot_wf

theorem semDesc_wf {e : Edge} {gt : Nat} {ga : Nat} {s : State}  : SlotEff.Wf (semDesc e gt ga s) := by
  unfold semDesc
  repeat' first
    | with_reducible apply engineSlot_wf

theorem fabricSlot_wf {s : State} {i : Instr} {e : Edge} {a val : Nat} {hb : Bool} : SlotEff.Wf (fabricSlot s i e a val hb) := by
  unfold fabricSlot
  extract_lets c part
  split
  · exact ⟨engineSlot_wf.1, engineSlot_wf.2.1, engineSlot_wf.2.2⟩
  · split
    · exact ⟨engineSlot_wf.1, engineSlot_wf.2.1, engineSlot_wf.2.2⟩
    · split
      · exact ⟨engineSlot_wf.1, engineSlot_wf.2.1, fun s h => engineSlot_wf.2.2 _ (State.reXlate_wf h)⟩
      · exact ⟨engineSlot_wf.1, engineSlot_wf.2.1, engineSlot_wf.2.2⟩

theorem semRld_wf {e : Edge} {d : Nat} {ga : Nat} {s : State}  : SlotEff.Wf (semRld e d ga s) := by
  unfold semRld
  repeat' first
    | with_reducible apply fabricSlot_wf

theorem semRst_wf {e : Edge} {ga : Nat} {gs : Nat} {s : State}  : SlotEff.Wf (semRst e ga gs s) := by
  unfold semRst
  repeat' first
    | with_reducible apply fabricSlot_wf

theorem semRfaa_wf {e : Edge} {d : Nat} {ga : Nat} {gs : Nat} {s : State}  : SlotEff.Wf (semRfaa e d ga gs s) := by
  unfold semRfaa
  repeat' first
    | with_reducible apply fabricSlot_wf

theorem semRtdec_wf {e : Edge} {ga : Nat} {s : State}  : SlotEff.Wf (semRtdec e ga s) := by
  unfold semRtdec
  repeat' first
    | with_reducible apply fabricSlot_wf

theorem semRfence_wf {e : Edge} {ga : Nat} {s : State}  : SlotEff.Wf (semRfence e ga s) := by
  unfold semRfence
  repeat' first
    | with_reducible apply fabricSlot_wf

theorem semRfenceFStore_wf {e : Edge} {ga : Nat} {gs : Nat} {s : State}  : SlotEff.Wf (semRfenceFStore e ga gs s) := by
  unfold semRfenceFStore
  repeat' first
    | with_reducible apply fabricSlot_wf

theorem semRfenceFDec_wf {e : Edge} {ga : Nat} {s : State}  : SlotEff.Wf (semRfenceFDec e ga s) := by
  unfold semRfenceFDec
  repeat' first
    | with_reducible apply fabricSlot_wf

theorem semTspawn_wf {e : Edge} {ga : Nat} {s : State}  : SlotEff.Wf (semTspawn e ga s) := by
  unfold semTspawn
  repeat' first
    | with_reducible apply engineSlot_wf

theorem semTdec_wf {e : Edge} {ga : Nat} {s : State}  : SlotEff.Wf (semTdec e ga s) := by
  unfold semTdec
  repeat' first
    | with_reducible apply engineSlot_wf

theorem semTdecb_wf {e : Edge} {ga : Nat} {s : State}  : SlotEff.Wf (semTdecb e ga s) := by
  unfold semTdecb
  repeat' first
    | with_reducible apply engineSlot_wf

theorem semTdecbArm_wf {e : Edge} {ga : Nat} {gs : Nat} {s : State}  : SlotEff.Wf (semTdecbArm e ga gs s) := by
  unfold semTdecbArm
  repeat' first
    | with_reducible apply engineSlot_wf

theorem semOfC_wf {i : Instr} {a : State}  : SlotEff.Wf (semOfC i a) := by
  unfold semOfC
  repeat' first
    | with_reducible assumption
    | (show True; trivial)
    | intro _
    | with_reducible apply id_wf
    | with_reducible apply semBr_wf
    | with_reducible apply semBri_wf
    | with_reducible apply semCall_wf
    | with_reducible apply semCalli_wf
    | with_reducible apply semRet_wf
    | with_reducible apply semLoop_wf
    | with_reducible apply semLoopi_wf
    | with_reducible apply semSafe_wf
    | with_reducible apply semDone_wf
    | with_reducible apply semWaitk_wf
    | with_reducible apply semWaitkRange_wf
    | with_reducible apply semPollk_wf
    | with_reducible apply semPollkErr_wf
    | with_reducible apply semFenceCore_wf
    | with_reducible apply semFenceCluster_wf
    | with_reducible apply semFenceDevice_wf
    | with_reducible apply semFenceSys_wf
    | with_reducible apply semTrap_wf
    | with_reducible apply semSysc_wf
    | with_reducible apply semEret_wf
    | with_reducible apply semCsrr_wf
    | with_reducible apply semCsrw_wf
    | with_reducible apply semCsrs_wf
    | with_reducible apply semCsrc_wf
    | (dsimp -zeta only)
    | split
    | with_reducible apply effmk_wf

theorem semOfI_wf {i : Instr} {a : State}  : SlotEff.Wf (semOfI i a) := by
  unfold semOfI
  repeat' first
    | with_reducible assumption
    | (show True; trivial)
    | intro _
    | with_reducible apply id_wf
    | with_reducible apply semAdd_wf
    | with_reducible apply semSub_wf
    | with_reducible apply semAddi_wf
    | with_reducible apply semMul_wf
    | with_reducible apply semMulh_wf
    | with_reducible apply semMulhU_wf
    | with_reducible apply semDiv_wf
    | with_reducible apply semDivU_wf
    | with_reducible apply semRem_wf
    | with_reducible apply semRemU_wf
    | with_reducible apply semAnd_wf
    | with_reducible apply semOr_wf
    | with_reducible apply semXor_wf
    | with_reducible apply semAndi_wf
    | with_reducible apply semOri_wf
    | with_reducible apply semXori_wf
    | with_reducible apply semShl_wf
    | with_reducible apply semShr_wf
    | with_reducible apply semShrA_wf
    | with_reducible apply semShli_wf
    | with_reducible apply semShri_wf
    | with_reducible apply semShriA_wf
    | with_reducible apply semBfx_wf
    | with_reducible apply semBfi_wf
    | with_reducible apply semSethi_wf
    | with_reducible apply semBitcPop_wf
    | with_reducible apply semBitcClz_wf
    | with_reducible apply semBitcCtz_wf
    | with_reducible apply semMin_wf
    | with_reducible apply semMinU_wf
    | with_reducible apply semMax_wf
    | with_reducible apply semMaxU_wf
    | with_reducible apply semCmpeq_wf
    | with_reducible apply semCmpne_wf
    | with_reducible apply semCmplt_wf
    | with_reducible apply semCmpltu_wf
    | with_reducible apply semCmple_wf
    | with_reducible apply semCmpleu_wf
    | with_reducible apply semCmpeqi_wf
    | with_reducible apply semCmplti_wf
    | with_reducible apply semPand_wf
    | with_reducible apply semPor_wf
    | with_reducible apply semPxor_wf
    | with_reducible apply semPandn_wf
    | with_reducible apply semPmov_wf
    | with_reducible apply semPmovPreds_wf
    | with_reducible apply semPmovFromG_wf
    | with_reducible apply semJmovToJ_wf
    | with_reducible apply semJmovToG_wf
    | with_reducible apply semEmovToE_wf
    | with_reducible apply semEmovToG_wf
    | with_reducible apply semEmovE_wf
    | with_reducible apply semQset_wf
    | with_reducible apply semQsetTid_wf
    | with_reducible apply semQsetC_wf
    | with_reducible apply semQget_wf
    | with_reducible apply semQgetTid_wf
    | with_reducible apply semQgetC_wf
    | with_reducible apply semQadd_wf
    | with_reducible apply semQmov_wf
    | with_reducible apply semFadd_wf
    | with_reducible apply semFsub_wf
    | with_reducible apply semFmul_wf
    | with_reducible apply semFma_wf
    | with_reducible apply semFdiv_wf
    | with_reducible apply semFsqrt_wf
    | with_reducible apply semFmin_wf
    | with_reducible apply semFmax_wf
    | with_reducible apply semFcmp_wf
    | with_reducible apply semFcvtFp_wf
    | with_reducible apply semFcvtFromI64_wf
    | with_reducible apply semFcvtToI64_wf
    | with_reducible apply semFcvtToU64_wf
    | with_reducible apply semFclass_wf
    | with_reducible apply semZchk_wf
    | with_reducible apply semZchkM_wf
    | (dsimp -zeta only)
    | split
    | with_reducible apply effmk_wf

theorem semOfV_wf {i : Instr} {a : State}  : SlotEff.Wf (semOfV i a) := by
  unfold semOfV
  repeat' first
    | with_reducible assumption
    | (show True; trivial)
    | intro _
    | with_reducible apply id_wf
    | with_reducible apply semVadd_wf
    | with_reducible apply semVsub_wf
    | with_reducible apply semVmul_wf
    | with_reducible apply semVfma_wf
    | with_reducible apply semVmin_wf
    | with_reducible apply semVmax_wf
    | with_reducible apply semVabs_wf
    | with_reducible apply semVneg_wf
    | with_reducible apply semVand_wf
    | with_reducible apply semVor_wf
    | with_reducible apply semVxor_wf
    | with_reducible apply semVshl_wf
    | with_reducible apply semVshr_wf
    | with_reducible apply semVcmp_wf
    | with_reducible apply semVsel_wf
    | with_reducible apply semVperm_wf
    | with_reducible apply semVslide_wf
    | with_reducible apply semVpack_wf
    | with_reducible apply semVunpk_wf
    | with_reducible apply semVbcast_wf
    | with_reducible apply semVext_wf
    | with_reducible apply semVcvt_wf
    | with_reducible apply semVqnt_wf
    | with_reducible apply semVdq_wf
    | with_reducible apply semVamax_wf
    | with_reducible apply semVspec_wf
    | with_reducible apply semVred_wf
    | with_reducible apply semVscan_wf
    | with_reducible apply semVmatch_wf
    | with_reducible apply semKlog_wf
    | with_reducible apply semKmov_wf
    | with_reducible apply semVmov_wf
    | with_reducible apply semIdle_wf
    | (dsimp -zeta only)
    | split
    | with_reducible apply effmk_wf

theorem semOfM_wf {i : Instr} {a : State}  : SlotEff.Wf (semOfM i a) := by
  unfold semOfM
  repeat' first
    | with_reducible assumption
    | (show True; trivial)
    | intro _
    | with_reducible apply id_wf
    | with_reducible apply semMma_wf
    | with_reducible apply semMzero_wf
    | with_reducible apply semMlda_wf
    | with_reducible apply semMsta_wf
    | with_reducible apply semMsclFill_wf
    | with_reducible apply semMsclDiag_wf
    | with_reducible apply semMsclMul_wf
    | with_reducible apply semMtriLi_wf
    | with_reducible apply semMtriLs_wf
    | with_reducible apply semMtriUi_wf
    | with_reducible apply semMtriUs_wf
    | with_reducible apply semTbuild_wf
    | with_reducible apply semTlook_wf
    | with_reducible apply semTlookR_wf
    | with_reducible apply semZsave_wf
    | with_reducible apply semZload_wf
    | with_reducible apply semZinv_wf
    | with_reducible apply semCbld_wf
    | (dsimp -zeta only)
    | split
    | with_reducible apply effmk_wf

theorem semOfX_wf {i : Instr} {a : State}  : SlotEff.Wf (semOfX i a) := by
  unfold semOfX
  repeat' first
    | with_reducible assumption
    | (show True; trivial)
    | intro _
    | with_reducible apply id_wf
    | with_reducible apply semTfetch_wf
    | with_reducible apply semThint_wf
    | with_reducible apply semTinv_wf
    | with_reducible apply semTcopy_wf
    | with_reducible apply semTcopyMem_wf
    | with_reducible apply semTred_wf
    | with_reducible apply semTgath_wf
    | with_reducible apply semTscat_wf
    | with_reducible apply semTacq_wf
    | with_reducible apply semTrel_wf
    | with_reducible apply semItin_wf
    | with_reducible apply semItstep_wf
    | with_reducible apply semChsend_wf
    | with_reducible apply semChrecv_wf
    | with_reducible apply semDesc_wf
    | with_reducible apply semRld_wf
    | with_reducible apply semRst_wf
    | with_reducible apply semRfaa_wf
    | with_reducible apply semRtdec_wf
    | with_reducible apply semRfence_wf
    | with_reducible apply semRfenceFStore_wf
    | with_reducible apply semRfenceFDec_wf
    | with_reducible apply semTspawn_wf
    | with_reducible apply semTdec_wf
    | with_reducible apply semTdecb_wf
    | with_reducible apply semTdecbArm_wf
    | (dsimp -zeta only)
    | split
    | with_reducible apply effmk_wf

theorem semOfL_wf {i : Instr} {a : State}  : SlotEff.Wf (semOfL i a) := by
  unfold semOfL
  repeat' first
    | with_reducible assumption
    | (show True; trivial)
    | intro _
    | with_reducible apply id_wf
    | with_reducible apply semLdB_wf
    | with_reducible apply semLdBs_wf
    | with_reducible apply semLdH_wf
    | with_reducible apply semLdHs_wf
    | with_reducible apply semLdW_wf
    | with_reducible apply semLdWs_wf
    | with_reducible apply semLdD_wf
    | with_reducible apply semStB_wf
    | with_reducible apply semStH_wf
    | with_reducible apply semStW_wf
    | with_reducible apply semStD_wf
    | with_reducible apply semLdv_wf
    | with_reducible apply semStv_wf
    | with_reducible apply semGath_wf
    | with_reducible apply semScat_wf
    | with_reducible apply semLdx_wf
    | with_reducible apply semLdxinv_wf
    | with_reducible apply semLdxinvAll_wf
    | with_reducible apply semSld_wf
    | with_reducible apply semPref_wf
    | with_reducible apply semPrefLlc_wf
    | with_reducible apply semAcq_wf
    | with_reducible apply semRel_wf
    | with_reducible apply semTrd_wf
    | with_reducible apply semTwr_wf
    | with_reducible apply semAmo_wf
    | with_reducible apply semCas_wf
    | with_reducible apply semIdleL_wf
    | (dsimp -zeta only)
    | split
    | with_reducible apply effmk_wf

theorem semOf_wf {i : Instr} {s : State} : SlotEff.Wf (semOf i s) := by
  unfold semOf
  rcases i.cls with _ | _ | _
  · exact ⟨id_wf, trivial, id_wf⟩
  · exact semOfC_wf
  · exact semOfI_wf
  · exact semOfV_wf
  · exact semOfM_wf
  · exact semOfX_wf
  · exact semOfL_wf

theorem readBundle_wf {s : State} {a hw : Nat} {ws : List Nat} : Fetched.Wf (readBundle s a hw ws) := by
  unfold readBundle
  extract_lets c h r item b badSlots
  split
  · trivial
  · split
    · intro x hx t
      have hx' : x ∈ effective c h r.1 := hx
      simp only [effective, List.mem_flatMap, List.mem_filter, List.mem_append, List.mem_filterMap] at hx'
      obtain ⟨sl, -, ⟨⟨q, -, hq⟩ | ⟨q, -, hq⟩, -⟩⟩ := hx'
      · obtain ⟨i, -, rfl⟩ := Option.map_eq_some_iff.mp hq
        exact semOf_wf
      · obtain ⟨i, -, rfl⟩ := Option.map_eq_some_iff.mp hq
        exact semOf_wf
    · trivial

theorem fetchBundle_wf {s : State} : Fetched.Wf (fetchBundle s) := by
  unfold fetchBundle
  extract_lets c p a ws
  split
  · trivial
  · split
    · trivial
    · split
      · trivial
      · split
        · split <;> trivial
        · split
          · trivial
          · exact readBundle_wf

theorem runFetched_wf {f : Fetched} {s : State} (hf : f.Wf) (h1 : s.Wf) : Res.Wf (runFetched f s) := by
  unfold runFetched
  split
  · exact State.updMe_wf h1
  · exact State.countTrap_wf (State.updMe_wf h1)
  · exact Bundle.run_wf hf (State.updMe_wf h1)

theorem issue_wf {s : State} (h0 : s.Wf) : Res.Wf (issue s) := by
  unfold issue
  split
  · exact State.updMe_wf h0
  · exact runFetched_wf fetchBundle_wf h0

theorem execEngineCommandTake_wf {core : Nat} {ex : Nat} {s : State} (h2 : s.Wf) : Res.Wf (execEngineCommandTake core ex s) := by
  unfold execEngineCommandTake
  repeat' first
    | with_reducible assumption
    | with_reducible apply next_wf
    | with_reducible apply engineTake_wf

theorem frameAlloc_wf {cl : Nat} {s : State} (h1 : s.Wf) : State.Wf (frameAlloc cl s) := by
  unfold frameAlloc
  repeat' first
    | with_reducible assumption
    | (extract_lets +onlyGivenNames x; clear_value x)
    | with_reducible apply State.fetchWants_wf
    | with_reducible apply State.allocAll_wf
    | with_reducible apply State.updCmd_wf
    | split
    | with_reducible refine okO_some (by with_reducible assumption) ?_

theorem execFrameAllocation_wf {cluster : Nat} {s : State} (h1 : s.Wf) : Res.Wf (execFrameAllocation cluster s) := by
  unfold execFrameAllocation
  repeat' first
    | with_reducible assumption
    | with_reducible apply next_wf
    | with_reducible apply frameAlloc_wf

theorem replay_wf {k : Nat} {n : Nat} {s : State} (h2 : s.Wf) : State.Wf (replay k n s) := by
  unfold replay
  repeat' first
    | with_reducible assumption
    | intro _
    | (extract_lets +onlyGivenNames x; clear_value x)
    | with_reducible apply foldl_wf
    | with_reducible apply State.draw_wf
    | with_reducible apply State.unpark_wf
    | with_reducible apply State.needGrant_wf
    | with_reducible apply State.cmdFault_wf
    | with_reducible apply State.startCmd_wf
    | split

theorem execCommandReplay_wf {core : Nat} {n : Nat} {s : State} (h2 : s.Wf) : Res.Wf (execCommandReplay core n s) := by
  unfold execCommandReplay
  repeat' first
    | with_reducible assumption
    | with_reducible apply next_wf
    | with_reducible apply replay_wf

theorem execEngineCommandCompletion_wf {core : Nat} {n : Nat} {s : State} (h2 : s.Wf) : Res.Wf (execEngineCommandCompletion core n s) := by
  unfold execEngineCommandCompletion
  repeat' first
    | with_reducible assumption
    | with_reducible apply next_wf
    | with_reducible apply complete_wf

end Sys2Proof.Machine
end

