-- ==== Sys2Proof/Laws/Canon4.lean ====
section
/-! SUPPORT. Memory keeps its canonical form: homes, tasks, saves and pages. One lemma per operation, named after it. -/

namespace Sys2Proof.Machine

theorem State.putHome_wf {s : State} {h : Home} (h0 : s.Wf) : State.Wf (State.putHome s h) := by
  unfold State.putHome
  repeat' first
    | with_reducible (refine mk_wf (mem_wf ?_); assumption)

theorem State.answerDevice_wf {s : State} {n : Nat} {cl : Nat} {t : Tile} {h : Home} (h0 : s.Wf) : State.Wf (State.answerDevice s n cl t h) := by
  unfold State.answerDevice
  repeat' first
    | with_reducible assumption
    | (extract_lets +onlyGivenNames x; refine (fun (_ : State.Wf x) => ?_) ?_; clear_value x; rotate_left; subst x)
    | (extract_lets +onlyGivenNames x; clear_value x)
    | with_reducible apply State.send_wf
    | with_reducible apply State.pageRequest_wf
    | with_reducible apply State.emit_wf
    | with_reducible apply State.dropMsg_wf
    | with_reducible apply State.charge_wf
    | with_reducible apply State.passTile_wf
    | with_reducible apply State.closeTile_wf
    | with_reducible apply State.draw_wf
    | with_reducible apply State.putHome_wf
    | split

theorem State.answerFault_wf {s : State} {k : Nat} {id : Nat} {f : FaultInfo} (h0 : s.Wf) : State.Wf (State.answerFault s k id f) := by
  unfold State.answerFault
  repeat' first
    | with_reducible assumption
    | with_reducible apply State.updCmd_wf

theorem State.refuseFill_wf {s : State} {n : Nat} {cl : Nat} {t : Tile} {f : FaultInfo} (h0 : s.Wf) : State.Wf (State.refuseFill s n cl t f) := by
  unfold State.refuseFill
  repeat' first
    | with_reducible assumption
    | with_reducible apply State.send_wf
    | with_reducible apply State.dropMsg_wf

theorem State.fillFault_wf {s : State} {n : Nat} {cl : Nat} {t : Tile} {f : FaultInfo} (h0 : s.Wf) : State.Wf (State.fillFault s n cl t f) := by
  unfold State.fillFault
  repeat' first
    | with_reducible assumption
    | with_reducible apply State.pageRequest_wf
    | with_reducible apply State.refuseFill_wf
    | split

theorem State.answerFill_wf {s : State} {n : Nat} {cl : Nat} {t : Tile} {h : Home} {grant : Bool} {nodata : Bool} (h0 : s.Wf) : State.Wf (State.answerFill s n cl t h grant nodata) := by
  unfold State.answerFill
  repeat' first
    | with_reducible assumption
    | (extract_lets +onlyGivenNames x; refine (fun (_ : State.Wf x) => ?_) ?_; clear_value x; rotate_left; subst x)
    | (extract_lets +onlyGivenNames x; clear_value x)
    | with_reducible apply State.putHome_wf
    | with_reducible apply State.send_wf
    | with_reducible apply State.dropMsg_wf
    | with_reducible apply State.fillFault_wf
    | with_reducible apply State.draw_wf
    | with_reducible apply State.countEv_wf
    | with_reducible apply State.passTile_wf
    | with_reducible apply State.closeTile_wf
    | split

theorem State.updHome_wf {s : State} {t : Tile} {f : Home → Home} (h0 : s.Wf) : State.Wf (State.updHome s t f) := by
  unfold State.updHome
  repeat' first
    | with_reducible assumption
    | intro _
    | with_reducible apply foldl_wf
    | with_reducible apply State.putHome_wf

theorem State.loseBits_wf {s : State} {who : Nat} {t : Tile} {wr : List (Nat × Nat)} (h0 : s.Wf) : State.Wf (State.loseBits s who t wr) := by
  unfold State.loseBits
  repeat' first
    | with_reducible assumption
    | intro _
    | (extract_lets +onlyGivenNames x; clear_value x)
    | with_reducible apply foldl_wf
    | with_reducible apply State.draw_wf
    | with_reducible apply State.wrBytes_wf
    | split

theorem State.lostFrame_wf {s : State} {cl : Nat} {t : Tile} {dirty : Bool} {wr : List (Nat × Nat)} (h0 : s.Wf) : State.Wf (State.lostFrame s cl t dirty wr) := by
  unfold State.lostFrame
  repeat' first
    | with_reducible assumption
    | with_reducible apply State.updHome_wf
    | with_reducible apply State.loseBits_wf

theorem State.refuseWaiter_wf {s : State} {addr : Nat} {w : Waiter} (h0 : s.Wf) : State.Wf (State.refuseWaiter s addr w) := by
  unfold State.refuseWaiter
  repeat' first
    | with_reducible assumption
    | (extract_lets +onlyGivenNames x; clear_value x)
    | with_reducible apply State.refuseFill_wf
    | with_reducible apply State.lostFrame_wf
    | with_reducible apply State.mcheck_wf
    | with_reducible apply State.dropMsg_wf
    | with_reducible apply State.failCmd_wf
    | split

theorem State.answerPage_wf {s : State} {e : Prq} {ok : Bool} (h0 : s.Wf) : State.Wf (State.answerPage s e ok) := by
  unfold State.answerPage
  repeat' first
    | with_reducible assumption
    | intro _
    | (extract_lets +onlyGivenNames x; refine (fun (_ : State.Wf x) => ?_) ?_; clear_value x; rotate_left; subst x)
    | with_reducible (refine mk_wf (mem_wf ?_); assumption)
    | with_reducible apply foldl_wf
    | with_reducible apply State.refuseWaiter_wf
    | split

theorem State.answered_wf {s : State} {k : Nat} {id : Nat} (h0 : s.Wf) : State.Wf (State.answered s k id) := by
  unfold State.answered
  repeat' first
    | with_reducible assumption
    | with_reducible apply State.updCmd_wf

theorem State.bumpPage_wf {s : State} {stage : Nat} {page : Nat} (h0 : s.Wf) : State.Wf (State.bumpPage s stage page) := by
  unfold State.bumpPage
  repeat' first
    | with_reducible assumption
    | (extract_lets +onlyGivenNames x; refine (fun (_ : State.Wf x) => ?_) ?_; clear_value x; rotate_left; subst x)
    | (extract_lets +onlyGivenNames x; clear_value x)
    | with_reducible (refine mk_wf (mem_wf ?_); assumption)
    | with_reducible apply State.wrMem_wf
    | split

theorem State.setGenres_wf {s : State} {fn : Nat} {v : Nat} (h0 : s.Wf) : State.Wf (State.setGenres s fn v) := by
  unfold State.setGenres
  repeat' first
    | (extract_lets +onlyGivenNames x; clear_value x)
    | with_reducible (refine mk_wf (mem_wf ?_); assumption)

theorem State.applyBump_wf {s : State} {n : Nat} {b : Bump} (h0 : s.Wf) : State.Wf (State.applyBump s n b) := by
  unfold State.applyBump
  repeat' first
    | with_reducible assumption
    | intro _
    | (extract_lets +onlyGivenNames x; refine (fun (_ : State.Wf x) => ?_) ?_; clear_value x; rotate_left; subst x)
    | (extract_lets +onlyGivenNames x; clear_value x)
    | with_reducible (refine mk_wf (mem_wf ?_); assumption)
    | with_reducible apply foldl_wf
    | with_reducible apply State.bumpPage_wf
    | with_reducible apply State.rebindAll_wf
    | with_reducible apply State.setGenres_wf

theorem State.updQcb_wf {s : State} {key : Nat} {f : Qcb → Qcb} (h0 : s.Wf) : State.Wf (State.updQcb s key f) := by
  unfold State.updQcb
  repeat' first
    | with_reducible (refine mk_wf (mem_wf ?_); assumption)

theorem State.post_wf {s : State} {key : Nat} {tag : Nat} {status : Nat} {field : Nat} {result : Nat} {wit : Nat} (h0 : s.Wf) : State.Wf (State.post s key tag status field result wit) := by
  unfold State.post
  repeat' first
    | with_reducible assumption
    | (extract_lets +onlyGivenNames x; refine (fun (_ : State.Wf x) => ?_) ?_; clear_value x; rotate_left; subst x)
    | (extract_lets +onlyGivenNames x; clear_value x)
    | with_reducible apply State.wrBytes_wf
    | with_reducible apply State.updQcb_wf
    | with_reducible apply State.msix_wf
    | split

theorem State.waited_wf {s : State} {key : Nat} (h0 : s.Wf) : State.Wf (State.waited s key) := by
  unfold State.waited
  repeat' first
    | with_reducible assumption
    | with_reducible apply State.updQcb_wf
    | with_reducible apply State.post_wf
    | split

theorem State.queueStopped_wf {s : State} {key : Nat} (h0 : s.Wf) : State.Wf (State.queueStopped s key) := by
  unfold State.queueStopped
  repeat' first
    | with_reducible assumption
    | (extract_lets +onlyGivenNames x; clear_value x)
    | with_reducible apply State.waited_wf
    | with_reducible apply State.updQcb_wf
    | split

theorem State.setRings_wf {s : State} {r : SMap (List RdqE)} (h0 : s.Wf) : State.Wf (State.setRings s r) := by
  unfold State.setRings
  repeat' first
    | with_reducible assumption
    | intro _
    | with_reducible (refine mk_wf (mem_wf ?_); assumption)
    | with_reducible apply foldl_wf
    | with_reducible apply State.wrBytes_wf
    | split

theorem State.queueSaved_wf {s : State} {key : Nat} (h0 : s.Wf) : State.Wf (State.queueSaved s key) := by
  unfold State.queueSaved
  repeat' first
    | with_reducible assumption
    | (extract_lets +onlyGivenNames x; refine (fun (_ : State.Wf x) => ?_) ?_; clear_value x; rotate_left; subst x)
    | (extract_lets +onlyGivenNames x; clear_value x)
    | with_reducible apply State.updQcb_wf
    | with_reducible apply State.waited_wf
    | split

theorem State.updLaunch_wf {s : State} {l : Nat} {f : Launch → Launch} (h0 : s.Wf) : State.Wf (State.updLaunch s l f) := by
  unfold State.updLaunch
  repeat' first
    | with_reducible (refine mk_wf (mem_wf ?_); assumption)

theorem State.freeRings_wf {s : State} {l : Nat} (h0 : s.Wf) : State.Wf (State.freeRings s l) := by
  unfold State.freeRings
  repeat' first
    | with_reducible assumption
    | intro _
    | (extract_lets +onlyGivenNames x; clear_value x)
    | with_reducible apply foldl_wf
    | with_reducible apply State.updCluster_wf
    | with_reducible apply State.updFrame_wf
    | split

theorem State.setRecState_wf {s : State} {pa : Nat} {st : Nat} (h0 : s.Wf) : State.Wf (State.setRecState s pa st) := by
  unfold State.setRecState
  repeat' first
    | with_reducible assumption
    | with_reducible apply State.wrMem_wf

theorem State.freshCore_wf {s : State} {k : Nat} {part : Nat} {zero : Bool} (h0 : s.Wf) : State.Wf (State.freshCore s k part zero) := by
  unfold State.freshCore
  repeat' first
    | with_reducible assumption
    | (extract_lets +onlyGivenNames x; refine (fun (_ : State.Wf x) => ?_) ?_; clear_value x; rotate_left; subst x)
    | (extract_lets +onlyGivenNames x; clear_value x)
    | with_reducible apply State.dropLines_wf
    | with_reducible apply State.draw_wf
    | with_reducible apply State.updCore_wf

theorem State.beginTask_wf {s : State} {k : Nat} {part : Nat} {pa : Nat} (h0 : s.Wf) : State.Wf (State.beginTask s k part pa) := by
  unfold State.beginTask
  repeat' first
    | with_reducible assumption
    | (extract_lets +onlyGivenNames x; refine (fun (_ : State.Wf x) => ?_) ?_; clear_value x; rotate_left; subst x)
    | (extract_lets +onlyGivenNames x; clear_value x)
    | with_reducible apply State.freshCore_wf
    | with_reducible apply State.updCore_wf

theorem State.ringFrame_wf {s : State} {cl : Nat} {key : Nat} (h0 : s.Wf) : State.Wf (State.ringFrame s cl key) := by
  unfold State.ringFrame
  repeat' first
    | with_reducible assumption
    | (extract_lets +onlyGivenNames x; clear_value x)
    | with_reducible apply State.setFrame_wf
    | with_reducible apply State.giveLease_wf
    | with_reducible apply State.updFrame_wf
    | with_reducible apply State.dropFrame_wf
    | split

theorem State.ringFrames_wf {s : State} {cl : Nat} {a : Nat} {a' : Nat} {a'' : Nat} {a''' : List Nat} (h0 : s.Wf) : okOP (State.ringFrames s cl a a' a'' a''') := by
  induction a generalizing s a' a'' a''' with
  | zero =>
    unfold State.ringFrames
    repeat' first
      | with_reducible assumption
      | with_reducible apply okOP_mk
  | succ n ih =>
    unfold State.ringFrames
    repeat' first
      | with_reducible assumption
      | (show True; trivial)
      | (extract_lets +onlyGivenNames x; clear_value x)
      | with_reducible apply okOP_mk
      | with_reducible apply State.ringFrame_wf
      | with_reducible apply ih
      | split

theorem State.makeRings_wf {s : State} {c : Code} {l : Nat} {cl : Nat} {taskix : Nat} (h0 : s.Wf) : okE (State.makeRings s c l cl taskix) := by
  unfold State.makeRings
  repeat' first
    | with_reducible assumption
    | (show True; trivial)
    | intro _
    | with_reducible apply okE_mk
    | with_reducible apply foldlE_wf
    | with_reducible apply State.ringFrames_wf
    | with_reducible apply State.updCluster_wf
    | with_reducible exact okE_wf (by assumption)
    | with_reducible (refine mk_wf (mem_wf ?_); refine okOP_some (by assumption) ?_)
    | split

theorem State.updQueueOf_wf {s : State} {l : Nat} {f : Qcb → Qcb} (h0 : s.Wf) : State.Wf (State.updQueueOf s l f) := by
  unfold State.updQueueOf
  repeat' first
    | with_reducible assumption
    | with_reducible apply State.updQcb_wf
    | split

theorem State.room_wf {s : State} {cl : Nat} {e : RdqE} (h0 : s.Wf) : okO (State.room s cl e) := by
  unfold State.room
  repeat' first
    | with_reducible assumption
    | (show True; trivial)
    | (extract_lets +onlyGivenNames x; clear_value x)
    | with_reducible apply okO_mk
    | with_reducible apply State.updCluster_wf
    | with_reducible apply State.countEv_wf
    | with_reducible apply State.setRings_wf
    | split

theorem State.enter_wf {s : State} {cl : Nat} {e : RdqE} (h0 : s.Wf) : State.Wf (State.enter s cl e) := by
  unfold State.enter
  repeat' first
    | with_reducible assumption
    | with_reducible apply State.send_wf
    | with_reducible apply State.room_wf
    | split
    | with_reducible refine okO_some (by with_reducible assumption) ?_

theorem State.placeAt_wf {s : State} {cl : Nat} {e : RdqE} (h0 : s.Wf) : State.Wf (State.placeAt s cl e) := by
  unfold State.placeAt
  repeat' first
    | with_reducible assumption
    | (extract_lets +onlyGivenNames x; refine (fun (_ : State.Wf x) => ?_) ?_; clear_value x; rotate_left; subst x)
    | with_reducible (refine mk_wf (mem_wf ?_); assumption)
    | with_reducible apply State.enter_wf

theorem State.placeFor_wf {s : State} {l : Nat} {cl : Nat} {e : RdqE} (h0 : s.Wf) : State.Wf (State.placeFor s l cl e) := by
  unfold State.placeFor
  repeat' first
    | with_reducible assumption
    | with_reducible apply State.placeAt_wf
    | with_reducible apply State.updQcb_wf
    | split

theorem State.register_wf {s : State} {l : Nat} {cl : Nat} {e : RdqE} (h0 : s.Wf) : State.Wf (State.register s l cl e) := by
  unfold State.register
  repeat' first
    | with_reducible assumption
    | (extract_lets +onlyGivenNames x; refine (fun (_ : State.Wf x) => ?_) ?_; clear_value x; rotate_left; subst x)
    | (extract_lets +onlyGivenNames x; clear_value x)
    | with_reducible (refine mk_wf (mem_wf ?_); assumption)
    | with_reducible apply State.placeFor_wf

theorem State.placeRec_wf {s : State} {pa : Nat} (h0 : s.Wf) : State.Wf (State.placeRec s pa) := by
  unfold State.placeRec
  repeat' first
    | with_reducible assumption
    | (extract_lets +onlyGivenNames x; clear_value x)
    | with_reducible apply State.updQueueOf_wf
    | with_reducible apply State.placeFor_wf
    | with_reducible apply State.setRecState_wf
    | split

theorem State.create_wf {s : State} {pa : Nat} {gva : Nat} {part : Nat} {launch : Nat} (h0 : s.Wf) : okE (State.create s pa gva part launch) := by
  unfold State.create
  repeat' first
    | with_reducible assumption
    | (show True; trivial)
    | (extract_lets +onlyGivenNames x; refine (fun (_ : State.Wf x) => ?_) ?_; clear_value x; rotate_left; subst x)
    | (extract_lets +onlyGivenNames x; clear_value x)
    | with_reducible (refine mk_wf (mem_wf ?_); assumption)
    | with_reducible apply okE_mk
    | with_reducible apply State.makeRings_wf
    | with_reducible apply State.updLaunch_wf
    | with_reducible apply State.wrMem_wf
    | with_reducible apply State.updQueueOf_wf
    | with_reducible apply State.register_wf
    | with_reducible apply State.setRecState_wf
    | with_reducible apply State.placeRec_wf
    | split
    | with_reducible refine okE_ok (by with_reducible assumption) ?_

theorem State.succSkip_wf {s : State} {k : Nat} {part : Nat} {entry : Nat} {rec : Nat} {taskid : Nat} {launch : Nat} {f : FaultInfo} (h0 : s.Wf) : State.Wf (State.succSkip s k part entry rec taskid launch f) := by
  unfold State.succSkip
  repeat' first
    | with_reducible assumption
    | with_reducible apply State.frqPost_wf

theorem State.decAnswer_wf {s : State} {src : DecSrc} {f : Option FaultInfo} (h0 : s.Wf) : State.Wf (State.decAnswer s src f) := by
  unfold State.decAnswer
  repeat' first
    | with_reducible assumption
    | with_reducible apply State.answered_wf
    | with_reducible apply State.answerFault_wf
    | with_reducible apply State.succSkip_wf
    | with_reducible apply State.emit_wf
    | split

theorem State.decCtr_wf {s : State} {n : Nat} {src : DecSrc} (h0 : s.Wf) : State.Wf (State.decCtr s n src) := by
  unfold State.decCtr
  repeat' first
    | with_reducible assumption
    | (extract_lets +onlyGivenNames x; refine (fun (_ : State.Wf x) => ?_) ?_; clear_value x; rotate_left; subst x)
    | (extract_lets +onlyGivenNames x; clear_value x)
    | with_reducible (refine mk_wf (mem_wf ?_); assumption)
    | with_reducible apply State.decAnswer_wf
    | with_reducible apply State.release_wf
    | split

theorem State.decRec_wf {s : State} {pa : Nat} {src : DecSrc} (h0 : s.Wf) : State.Wf (State.decRec s pa src) := by
  unfold State.decRec
  repeat' first
    | with_reducible assumption
    | (extract_lets +onlyGivenNames x; refine (fun (_ : State.Wf x) => ?_) ?_; clear_value x; rotate_left; subst x)
    | (extract_lets +onlyGivenNames x; clear_value x)
    | with_reducible apply State.decAnswer_wf
    | with_reducible apply State.wrMem_wf
    | with_reducible apply State.placeRec_wf
    | split

theorem State.pushFrame_wf {s : State} {part : Nat} {a : Nat} (h0 : s.Wf) : State.Wf (State.pushFrame s part a) := by
  unfold State.pushFrame
  repeat' first
    | with_reducible assumption
    | (extract_lets +onlyGivenNames x; clear_value x)
    | with_reducible apply State.updPart_wf
    | with_reducible apply State.wrMem_wf

theorem State.pushFrames_wf {s : State} {part : Nat} {l : List Nat} (h0 : s.Wf) : State.Wf (State.pushFrames s part l) := by
  unfold State.pushFrames
  repeat' first
    | with_reducible assumption
    | intro _
    | with_reducible apply foldl_wf
    | with_reducible apply State.pushFrame_wf

theorem State.takeSaved_wf {s : State} {hdr : Nat} (h0 : s.Wf) : State.Wf (State.takeSaved s hdr) := by
  unfold State.takeSaved
  repeat' first
    | with_reducible assumption
    | intro _
    | (extract_lets +onlyGivenNames x; refine (fun (_ : State.Wf x) => ?_) ?_; clear_value x; rotate_left; subst x)
    | with_reducible (refine mk_wf (mem_wf ?_); assumption)
    | with_reducible apply foldl_wf
    | with_reducible apply State.updFrame_wf
    | split

theorem State.dropAcqs_wf {s : State} {k : Nat} (h0 : s.Wf) : State.Wf (State.dropAcqs s k) := by
  unfold State.dropAcqs
  repeat' first
    | with_reducible (refine mk_wf (mem_wf ?_); assumption)

theorem State.dropClean_wf {s : State} {t : Tile} (h0 : s.Wf) : State.Wf (State.dropClean s t) := by
  unfold State.dropClean
  repeat' first
    | with_reducible assumption
    | intro _
    | with_reducible apply foldl_wf
    | with_reducible apply State.unparkTile_wf
    | with_reducible apply State.dropFrame_wf
    | split

theorem State.dropPaging_wf {s : State} {k : Nat} (h0 : s.Wf) : State.Wf (State.dropPaging s k) := by
  unfold State.dropPaging
  repeat' first
    | with_reducible assumption
    | intro _
    | (extract_lets +onlyGivenNames x; clear_value x)
    | with_reducible apply foldl_wf
    | with_reducible apply State.failCmd_wf

theorem State.toIdle_wf {s : State} {k : Nat} (h0 : s.Wf) : State.Wf (State.toIdle s k) := by
  unfold State.toIdle
  repeat' first
    | with_reducible assumption
    | with_reducible apply State.updCore_wf

theorem State.endAbort_wf {s : State} {k : Nat} (h0 : s.Wf) : State.Wf (State.endAbort s k) := by
  unfold State.endAbort
  repeat' first
    | with_reducible assumption
    | (extract_lets +onlyGivenNames x; refine (fun (_ : State.Wf x) => ?_) ?_; clear_value x; rotate_left; subst x)
    | (extract_lets +onlyGivenNames x; clear_value x)
    | with_reducible apply State.dropPins_wf
    | with_reducible apply State.flushL0_wf
    | with_reducible apply State.dropAcqs_wf
    | with_reducible apply State.frqPost_wf
    | with_reducible apply State.toIdle_wf
    | with_reducible apply State.updQueueOf_wf
    | with_reducible apply State.queueSaved_wf
    | split

theorem State.endLaunch_wf {s : State} {l : Nat} {status : Nat} (h0 : s.Wf) : State.Wf (State.endLaunch s l status) := by
  unfold State.endLaunch
  repeat' first
    | with_reducible assumption
    | (extract_lets +onlyGivenNames x; refine (fun (_ : State.Wf x) => ?_) ?_; clear_value x; rotate_left; subst x)
    | with_reducible (refine mk_wf (mem_wf ?_); assumption)
    | with_reducible apply State.post_wf
    | with_reducible apply State.freeRings_wf
    | with_reducible apply State.queueStopped_wf
    | split

theorem State.endRecall_wf {s : State} {t : Tile} (h0 : s.Wf) : State.Wf (State.endRecall s t) := by
  unfold State.endRecall
  repeat' first
    | with_reducible assumption
    | with_reducible (refine mk_wf (mem_wf ?_); assumption)
    | split

theorem State.popFrame_wf {s : State} {part : Nat} (h0 : s.Wf) : okOP (State.popFrame s part) := by
  unfold State.popFrame
  repeat' first
    | with_reducible assumption
    | (show True; trivial)
    | (extract_lets +onlyGivenNames x; clear_value x)
    | with_reducible apply okOP_mk
    | with_reducible apply State.updPart_wf
    | split

theorem State.popFrames_wf {s : State} {part : Nat} {a : Nat} (h0 : s.Wf) : okOP (State.popFrames s part a) := by
  induction a generalizing s with
  | zero =>
    unfold State.popFrames
    repeat' first
      | with_reducible assumption
      | with_reducible apply okOP_mk
  | succ n ih =>
    unfold State.popFrames
    repeat' first
      | with_reducible assumption
      | (show True; trivial)
      | with_reducible apply okOP_mk
      | with_reducible apply State.popFrame_wf
      | with_reducible apply ih
      | with_reducible (refine mk_wf (mem_wf ?_); refine okOP_some (by assumption) ?_)
      | split

theorem State.fabAnswer_wf {s : State} {core : Option (Nat × Nat)} {dev : Nat} {v : Nat} {ok : Bool} (h0 : s.Wf) : State.Wf (State.fabAnswer s core dev v ok) := by
  unfold State.fabAnswer
  repeat' first
    | with_reducible assumption
    | with_reducible apply State.updCmd_wf
    | with_reducible apply State.answerFault_wf
    | with_reducible apply State.emit_wf
    | split

theorem State.fabDec_wf {s : State} {core : Option (Nat × Nat)} {dev : Nat} {off : Nat} (h0 : s.Wf) : State.Wf (State.fabDec s core dev off) := by
  unfold State.fabDec
  repeat' first
    | with_reducible assumption
    | with_reducible apply State.decRec_wf

theorem State.fillFailed_wf {s : State} {cl : Nat} {t : Tile} {f : FaultInfo} (h0 : s.Wf) : State.Wf (State.fillFailed s cl t f) := by
  unfold State.fillFailed
  repeat' first
    | with_reducible assumption
    | (extract_lets +onlyGivenNames x; refine (fun (_ : State.Wf x) => ?_) ?_; clear_value x; rotate_left; subst x)
    | with_reducible apply State.send_wf
    | with_reducible apply State.countEv_wf
    | with_reducible apply State.failTile_wf
    | with_reducible apply State.updFrame_wf
    | with_reducible apply State.dropFrame_wf
    | split

theorem State.fillHints_wf {s : State} {cl : Nat} {key : Nat} (h0 : s.Wf) : State.Wf (State.fillHints s cl key) := by
  unfold State.fillHints
  repeat' first
    | with_reducible assumption
    | (extract_lets +onlyGivenNames x; refine (fun (_ : State.Wf x) => ?_) ?_; clear_value x; rotate_left; subst x)
    | (extract_lets +onlyGivenNames x; clear_value x)
    | with_reducible apply State.setFrame_wf
    | with_reducible apply State.addPin_wf
    | split

theorem State.loseFrame_wf {s : State} {cl : Nat} {key : Nat} (h0 : s.Wf) : State.Wf (State.loseFrame s cl key) := by
  unfold State.loseFrame
  repeat' first
    | with_reducible assumption
    | (extract_lets +onlyGivenNames x; clear_value x)
    | with_reducible apply State.updFrame_wf
    | with_reducible apply State.forget_wf
    | split

theorem readOut_wf {cl : Nat} {key : Nat} {s : State} (h2 : s.Wf) : State.Wf (readOut cl key s) := by
  unfold readOut
  repeat' first
    | with_reducible assumption
    | intro _
    | (extract_lets +onlyGivenNames x; refine (fun (_ : State.Wf x) => ?_) ?_; clear_value x; rotate_left; subst x)
    | (extract_lets +onlyGivenNames x; refine (fun (hx : ∀ s b, State.Wf s → State.Wf (x s b)) => ?_) ?_; clear_value x; rotate_left; subst x)
    | (extract_lets +onlyGivenNames x; clear_value x)
    | with_reducible apply hx
    | with_reducible apply State.send_wf
    | with_reducible apply State.setFrame_wf
    | with_reducible apply State.countEv_wf
    | with_reducible apply State.staleIf_wf
    | with_reducible apply State.loseFrame_wf
    | (dsimp -zeta only)
    | split

theorem State.landData_wf {s : State} {n : Nat} {cl : Nat} {t : Tile} {shape : Nat} {redef : Bool} {ver : Nat} {data : SMap Byte} {dirty : Bool} {wr : List (Nat × Nat)} {home : Home → Home} (h0 : s.Wf) : State.Wf (State.landData s n cl t shape redef ver data dirty wr home) := by
  unfold State.landData
  repeat' first
    | with_reducible assumption
    | intro _
    | (extract_lets +onlyGivenNames x; refine (fun (hx : ∀ s, State.Wf s → State.Wf (x s)) => ?_) ?_; clear_value x; rotate_left; subst x)
    | (extract_lets +onlyGivenNames x; clear_value x)
    | with_reducible apply hx
    | with_reducible apply State.lostFrame_wf
    | with_reducible apply State.mcheck_wf
    | with_reducible apply State.dropMsg_wf
    | with_reducible apply State.pageRequest_wf
    | with_reducible apply State.updHome_wf
    | with_reducible apply State.passTile_wf
    | with_reducible apply State.writeTile_wf
    | split

theorem State.loseWork_wf {s : State} {k : Nat} (h0 : s.Wf) : State.Wf (State.loseWork s k) := by
  unfold State.loseWork
  repeat' first
    | with_reducible assumption
    | intro _
    | (extract_lets +onlyGivenNames x; refine (fun (_ : State.Wf x) => ?_) ?_; clear_value x; rotate_left; subst x)
    | with_reducible apply foldl_wf
    | with_reducible apply State.refDown_wf
    | with_reducible apply State.dropAcqs_wf
    | with_reducible apply State.updCore_wf

theorem State.movePtr_wf {s : State} {ch : Nat} {n : Nat} {cl : Nat} {t : Tile} {sent : Nat} {u : State} (h0 : s.Wf) (h6 : u.Wf) : State.Wf (State.movePtr s ch n cl t sent u) := by
  unfold State.movePtr
  repeat' first
    | with_reducible assumption
    | with_reducible (refine mk_wf (mem_wf ?_); assumption)
    | split

theorem State.sweep_wf {s : State} {ch : Nat} {t : Tile} (h0 : s.Wf) : State.Wf (State.sweep s ch t) := by
  unfold State.sweep
  repeat' first
    | with_reducible assumption
    | intro _
    | (extract_lets +onlyGivenNames x; clear_value x)
    | with_reducible apply foldl_wf
    | with_reducible apply State.wrMem_wf
    | split

theorem State.recall_wf {s : State} {ch : Nat} (h0 : s.Wf) : State.Wf (State.recall s ch) := by
  unfold State.recall
  repeat' first
    | with_reducible assumption
    | (extract_lets +onlyGivenNames x; refine (fun (_ : State.Wf x) => ?_) ?_; clear_value x; rotate_left; subst x)
    | with_reducible (refine mk_wf (mem_wf ?_); assumption)
    | with_reducible apply State.sweep_wf
    | with_reducible apply State.send_wf
    | with_reducible apply State.dropClean_wf
    | with_reducible apply State.wrMem_wf
    | with_reducible apply State.countEv_wf
    | split

theorem State.reduceEl_wf {s : State} {who : Nat} {part : Nat} {gva : Nat} {op : Nat} {fmt : Nat} {x : Nat} (h0 : s.Wf) : State.Wf (State.reduceEl s who part gva op fmt x) := by
  unfold State.reduceEl
  repeat' first
    | with_reducible assumption
    | (extract_lets +onlyGivenNames x; clear_value x)
    | with_reducible apply State.wrMem_wf
    | with_reducible apply State.joinLine_wf
    | split

theorem State.reduceTile_wf {s : State} {who : Nat} {d : Desc} {t : Tile} {op : Nat} {m : SMap Byte} (h0 : s.Wf) : State.Wf (State.reduceTile s who d t op m) := by
  unfold State.reduceTile
  repeat' first
    | with_reducible assumption
    | intro _
    | with_reducible apply foldl_wf
    | with_reducible apply State.reduceEl_wf
    | split

theorem State.reserve_wf {s : State} {l : Nat} {ms : List (Nat × RdqE)} (h0 : s.Wf) : State.Wf (State.reserve s l ms) := by
  unfold State.reserve
  repeat' first
    | with_reducible assumption
    | intro _
    | with_reducible apply foldl_wf
    | with_reducible apply State.updCore_wf
    | split

theorem State.reserveIn_wf {s : State} {cl : Nat} (h0 : s.Wf) : State.Wf (State.reserveIn s cl) := by
  unfold State.reserveIn
  repeat' first
    | with_reducible assumption
    | intro _
    | with_reducible apply foldl_wf
    | with_reducible apply State.reserve_wf
    | split

theorem State.restorePin_wf {s : State} {k : Nat} {t : Tile} (h0 : s.Wf) : State.Wf (State.restorePin s k t) := by
  unfold State.restorePin
  repeat' first
    | with_reducible assumption
    | (extract_lets +onlyGivenNames x; refine (fun (_ : State.Wf x) => ?_) ?_; clear_value x; rotate_left; subst x)
    | (extract_lets +onlyGivenNames x; clear_value x)
    | with_reducible apply State.updCore_wf
    | with_reducible apply State.updFrame_wf
    | with_reducible apply State.allocate_wf
    | with_reducible apply State.ask_wf
    | with_reducible (refine mk_wf (mem_wf ?_); refine okOP_some (by assumption) ?_)
    | split

theorem State.resumeTask_wf {s : State} {k : Nat} {part : Nat} {hdr : Nat} (h0 : s.Wf) : State.Wf (State.resumeTask s k part hdr) := by
  unfold State.resumeTask
  repeat' first
    | with_reducible assumption
    | intro _
    | (extract_lets +onlyGivenNames x; refine (fun (_ : State.Wf x) => ?_) ?_; clear_value x; rotate_left; subst x)
    | (extract_lets +onlyGivenNames x; clear_value x)
    | with_reducible (refine mk_wf (mem_wf ?_); assumption)
    | with_reducible apply foldl_wf
    | with_reducible apply State.freshCore_wf
    | with_reducible apply State.updCore_wf
    | with_reducible apply State.draw_wf
    | with_reducible apply State.pushFrames_wf
    | with_reducible apply State.takeSaved_wf
    | with_reducible apply State.restorePin_wf

theorem State.saveFrames_wf {s : State} {k : Nat} {n : Nat} (h0 : s.Wf) : okOP (State.saveFrames s k n) := by
  unfold State.saveFrames
  repeat' first
    | with_reducible assumption
    | (show True; trivial)
    | with_reducible (refine mk_wf (mem_wf ?_); assumption)
    | with_reducible apply okOP_mk
    | with_reducible apply State.popFrames_wf
    | split

theorem State.saveTask_wf {s : State} {k : Nat} {key : Nat} {full : Bool} {don : Bool} {l : LiveSet} {hdr : Nat} {frames : List Nat} (h0 : s.Wf) : State.Wf (State.saveTask s k key full don l hdr frames) := by
  unfold State.saveTask
  repeat' first
    | with_reducible assumption
    | intro _
    | (extract_lets +onlyGivenNames x; refine (fun (_ : State.Wf x) => ?_) ?_; clear_value x; rotate_left; subst x)
    | (extract_lets +onlyGivenNames x; clear_value x)
    | with_reducible (refine mk_wf (mem_wf ?_); assumption)
    | with_reducible apply foldl_wf
    | with_reducible apply State.dropLines_wf
    | with_reducible apply State.flushL0_wf
    | with_reducible apply State.refDown_wf
    | with_reducible apply State.draw_wf
    | with_reducible apply State.wrBytes_wf
    | with_reducible apply State.dropPin_wf
    | with_reducible apply State.updCore_wf
    | with_reducible apply State.updQcb_wf
    | with_reducible apply State.queueSaved_wf
    | with_reducible apply State.toIdle_wf

theorem State.takeEntry_wf {s : State} {cl : Nat} {e : RdqE} (h0 : s.Wf) : State.Wf (State.takeEntry s cl e) := by
  unfold State.takeEntry
  repeat' first
    | with_reducible assumption
    | with_reducible apply State.setRings_wf
    | with_reducible apply State.updCluster_wf

theorem State.sendTo_wf {s : State} {cl : Nat} {k : Nat} {e : RdqE} (h0 : s.Wf) : State.Wf (State.sendTo s cl k e) := by
  unfold State.sendTo
  repeat' first
    | with_reducible assumption
    | (extract_lets +onlyGivenNames x; refine (fun (_ : State.Wf x) => ?_) ?_; clear_value x; rotate_left; subst x)
    | (extract_lets +onlyGivenNames x; clear_value x)
    | with_reducible apply State.countEv_wf
    | with_reducible apply State.takeEntry_wf
    | with_reducible apply State.updQueueOf_wf
    | with_reducible apply State.resumeTask_wf
    | with_reducible apply State.beginTask_wf
    | split

theorem State.sendMember_wf {s : State} {cl : Nat} {k : Nat} {e : RdqE} (h0 : s.Wf) : State.Wf (State.sendMember s cl k e) := by
  unfold State.sendMember
  repeat' first
    | with_reducible assumption
    | (extract_lets +onlyGivenNames x; clear_value x)
    | with_reducible apply State.sendTo_wf
    | with_reducible apply State.updCluster_wf

theorem State.servedFab_wf {s : State} {core : Option (Nat × Nat)} {dev : Nat} {part : Nat} {off : Nat} (h0 : s.Wf) : State.Wf (State.servedFab s core dev part off) := by
  unfold State.servedFab
  repeat' first
    | with_reducible assumption
    | with_reducible apply State.lookedUp_wf
    | with_reducible apply State.countFloor_wf
    | with_reducible apply State.charge_wf
    | with_reducible apply State.served_wf
    | split

theorem State.setLeases_wf {s : State} {i : Nat} {f : List Lease → List Lease} (h0 : s.Wf) : State.Wf (State.setLeases s i f) := by
  unfold State.setLeases
  repeat' first
    | with_reducible (refine mk_wf (mem_wf ?_); assumption)

theorem State.succReply_wf {s : State} {n : Nat} {f : Option FaultInfo} (h0 : s.Wf) : State.Wf (State.succReply s n f) := by
  unfold State.succReply
  repeat' first
    | with_reducible assumption
    | with_reducible apply State.decAnswer_wf
    | with_reducible apply State.dropMsg_wf
    | split

theorem State.successor_wf {s : State} {k : Nat} {part : Nat} {entry : Nat} (h0 : s.Wf) : State.Wf (State.successor s k part entry) := by
  unfold State.successor
  repeat' first
    | with_reducible assumption
    | intro _
    | (extract_lets +onlyGivenNames x; refine (fun (_ : State.Wf x) => ?_) ?_; clear_value x; rotate_left; subst x)
    | (extract_lets +onlyGivenNames x; refine (fun (hx : ∀ s b, State.Wf s → State.Wf (x s b)) => ?_) ?_; clear_value x; rotate_left; subst x)
    | (extract_lets +onlyGivenNames x; clear_value x)
    | with_reducible apply hx
    | with_reducible apply State.decAnswer_wf
    | with_reducible apply State.send_wf
    | with_reducible apply State.emit_wf
    | with_reducible apply State.charge_wf
    | split

theorem State.swept_wf {s : State} {cl : Nat} {t : Tile} (h0 : s.Wf) : State.Wf (State.swept s cl t) := by
  unfold State.swept
  repeat' first
    | with_reducible assumption
    | with_reducible apply State.sweep_wf
    | split

theorem State.takeGang_wf {s : State} {part : Nat} (h0 : s.Wf) : State.Wf (State.takeGang s part) := by
  unfold State.takeGang
  repeat' first
    | with_reducible assumption
    | (extract_lets +onlyGivenNames x; clear_value x)
    | with_reducible (refine mk_wf (mem_wf ?_); assumption)
    | split

theorem State.useHome_wf {s : State} {ch : Nat} {t : Tile} (h0 : s.Wf) : State.Wf (State.useHome s ch t).1 := by
  unfold State.useHome
  repeat' first
    | with_reducible assumption
    | (extract_lets +onlyGivenNames x; refine (fun (_ : State.Wf x) => ?_) ?_; clear_value x; rotate_left; subst x)
    | (extract_lets +onlyGivenNames x; clear_value x)
    | with_reducible apply State.recall_wf
    | with_reducible apply State.sweep_wf
    | with_reducible apply State.wrMem_wf
    | with_reducible apply State.draw_wf
    | with_reducible apply State.putHome_wf
    | split

theorem prqresp_wf {fn : Nat} {v : Nat} {s : State} (h2 : s.Wf) : State.Wf (prqresp fn v s) := by
  unfold prqresp
  repeat' first
    | with_reducible assumption
    | with_reducible apply State.answerPage_wf
    | split

theorem genbump_wf {fn : Nat} {v : Nat} {s : State} (h2 : s.Wf) : State.Wf (genbump fn v s) := by
  unfold genbump
  repeat' first
    | with_reducible assumption
    | (extract_lets +onlyGivenNames x; clear_value x)
    | with_reducible (refine mk_wf (mem_wf ?_); assumption)
    | with_reducible apply State.setGenres_wf
    | split

theorem atsInvalidation_wf {part : Nat} {page : Nat} {s : State} (h2 : s.Wf) : State.Wf (atsInvalidation part page s) := by
  unfold atsInvalidation
  repeat' first
    | with_reducible assumption
    | (extract_lets +onlyGivenNames x; refine (fun (_ : State.Wf x) => ?_) ?_; clear_value x; rotate_left; subst x)
    | with_reducible (refine mk_wf (mem_wf ?_); assumption)
    | with_reducible apply State.draw_wf
    | split

theorem bumpComplete_wf {n : Nat} {s : State} (h1 : s.Wf) : State.Wf (bumpComplete n s) := by
  unfold bumpComplete
  repeat' first
    | with_reducible assumption
    | with_reducible (refine mk_wf (mem_wf ?_); assumption)
    | with_reducible apply State.applyBump_wf
    | split

theorem bumpHold_wf {n : Nat} {s : State} (h1 : s.Wf) : State.Wf (bumpHold n s) := by
  unfold bumpHold
  repeat' first
    | with_reducible assumption
    | with_reducible apply State.applyBump_wf
    | split

theorem doneStep_wf {k : Nat} {s : State} (h1 : s.Wf) : State.Wf (doneStep k s) := by
  unfold doneStep
  repeat' first
    | with_reducible assumption
    | with_reducible apply State.countCore_wf
    | (extract_lets +onlyGivenNames x; clear_value x)
    | with_reducible apply State.updCore_wf
    | split

theorem saveStep_wf {k : Nat} {full : Bool} {don : Bool} {told : Bool} {s : State} (h4 : s.Wf) : State.Wf (saveStep k full don told s) := by
  unfold saveStep
  repeat' first
    | with_reducible assumption
    | (extract_lets +onlyGivenNames x; refine (fun (_ : State.Wf x) => ?_) ?_; clear_value x; rotate_left; subst x)
    | (extract_lets +onlyGivenNames x; clear_value x)
    | with_reducible apply State.dropPaging_wf
    | with_reducible apply State.toIdle_wf
    | with_reducible apply State.dropPins_wf
    | with_reducible apply State.dropLines_wf
    | with_reducible apply State.flushL0_wf
    | with_reducible apply State.saveFrames_wf
    | with_reducible apply State.saveTask_wf
    | with_reducible apply State.updCore_wf
    | with_reducible apply State.frqPostHv_wf
    | with_reducible (refine mk_wf (mem_wf ?_); refine okOP_some (by assumption) ?_)
    | split

theorem discardStep_wf {k : Nat} {s : State} (h1 : s.Wf) : State.Wf (discardStep k s) := by
  unfold discardStep
  repeat' first
    | with_reducible assumption
    | (extract_lets +onlyGivenNames x; refine (fun (_ : State.Wf x) => ?_) ?_; clear_value x; rotate_left; subst x)
    | (extract_lets +onlyGivenNames x; clear_value x)
    | with_reducible (refine mk_wf (mem_wf ?_); assumption)
    | with_reducible apply State.loseWork_wf
    | with_reducible apply State.updCore_wf
    | with_reducible apply State.toIdle_wf
    | with_reducible apply State.dropPins_wf
    | with_reducible apply State.dropLines_wf
    | with_reducible apply State.flushL0_wf
    | with_reducible apply State.queueSaved_wf
    | with_reducible apply State.updQcb_wf
    | split

theorem resumeStep_wf {k : Nat} {don : Bool} {cmds : List (Instr × Nat)} {s : State} (h3 : s.Wf) : State.Wf (resumeStep k don cmds s) := by
  unfold resumeStep
  repeat' first
    | with_reducible assumption
    | (extract_lets +onlyGivenNames x; refine (fun (_ : State.Wf x) => ?_) ?_; clear_value x; rotate_left; subst x)
    | with_reducible (refine mk_wf (mem_wf ?_); assumption)
    | with_reducible apply State.updCore_wf
    | with_reducible apply State.enqueue_wf
    | split

theorem coreTurn_wf {k : Nat} {s : State} (h1 : s.Wf) : State.Wf (coreTurn k s) := by
  unfold coreTurn
  repeat' first
    | with_reducible assumption
    | with_reducible apply doneStep_wf
    | with_reducible apply State.endAbort_wf
    | with_reducible apply State.updCore_wf
    | with_reducible apply saveStep_wf
    | with_reducible apply discardStep_wf
    | with_reducible apply resumeStep_wf
    | split

theorem decrement_wf {n : Nat} {s : State} (h1 : s.Wf) : State.Wf (decrement n s) := by
  unfold decrement
  repeat' first
    | with_reducible assumption
    | with_reducible apply State.decRec_wf
    | with_reducible apply State.dropMsg_wf
    | with_reducible apply State.decCtr_wf
    | split

theorem dispatch_wf {cl : Nat} {s : State} (h1 : s.Wf) : State.Wf (dispatch cl s) := by
  unfold dispatch
  repeat' first
    | with_reducible assumption
    | (extract_lets +onlyGivenNames x; refine (fun (_ : State.Wf x) => ?_) ?_; clear_value x; rotate_left; subst x)
    | (extract_lets +onlyGivenNames x; clear_value x)
    | with_reducible apply State.reserveIn_wf
    | with_reducible apply State.sendTo_wf
    | with_reducible apply State.updCluster_wf
    | split

theorem drainArrival_wf {n : Nat} {s : State} (h1 : s.Wf) : State.Wf (drainArrival n s) := by
  unfold drainArrival
  repeat' first
    | with_reducible assumption
    | with_reducible apply State.landData_wf
    | split

theorem forcedSave_wf {k : Nat} {s : State} (h1 : s.Wf) : State.Wf (forcedSave k s) := by
  unfold forcedSave
  repeat' first
    | with_reducible assumption
    | (extract_lets +onlyGivenNames x; clear_value x)
    | with_reducible apply State.updCore_wf
    | split

theorem handlerWatchdog_wf {k : Nat} {s : State} (h1 : s.Wf) : State.Wf (handlerWatchdog k s) := by
  unfold handlerWatchdog
  repeat' first
    | with_reducible assumption
    | (extract_lets +onlyGivenNames x; clear_value x)
    | with_reducible apply State.updCore_wf
    | split

theorem execHandlerWatchdog_wf {core : Nat} {s : State} (h1 : s.Wf) : Res.Wf (execHandlerWatchdog core s) := by
  unfold execHandlerWatchdog
  repeat' first
    | with_reducible assumption
    | with_reducible apply next_wf
    | with_reducible apply handlerWatchdog_wf

theorem taskEnd_wf {k : Nat} {s : State} (h1 : s.Wf) : State.Wf (taskEnd k s) := by
  unfold taskEnd
  repeat' first
    | with_reducible assumption
    | intro _
    | (extract_lets +onlyGivenNames x; refine (fun (_ : State.Wf x) => ?_) ?_; clear_value x; rotate_left; subst x)
    | (extract_lets +onlyGivenNames x; clear_value x)
    | with_reducible apply foldl_wf
    | with_reducible apply State.setRecState_wf
    | with_reducible apply State.flushL0_wf
    | with_reducible apply State.updLaunch_wf
    | with_reducible apply State.successor_wf
    | with_reducible apply State.updQueueOf_wf
    | with_reducible apply State.toIdle_wf
    | with_reducible apply State.dropPins_wf
    | with_reducible apply State.queueSaved_wf
    | with_reducible apply State.endLaunch_wf
    | split

theorem execTaskEnd_wf {core : Nat} {s : State} (h1 : s.Wf) : Res.Wf (execTaskEnd core s) := by
  unfold execTaskEnd
  repeat' first
    | with_reducible assumption
    | with_reducible apply next_wf
    | with_reducible apply taskEnd_wf

theorem execDecrement_wf {n : Nat} {s : State} (h1 : s.Wf) : Res.Wf (execDecrement n s) := by
  unfold execDecrement
  repeat' first
    | with_reducible assumption
    | with_reducible apply next_wf
    | with_reducible apply decrement_wf

theorem releaseArrival_wf {n : Nat} {s : State} (h1 : s.Wf) : State.Wf (releaseArrival n s) := by
  unfold releaseArrival
  repeat' first
    | with_reducible assumption
    | (extract_lets +onlyGivenNames x; refine (fun (_ : State.Wf x) => ?_) ?_; clear_value x; rotate_left; subst x)
    | (extract_lets +onlyGivenNames x; clear_value x)
    | with_reducible (refine mk_wf (mem_wf ?_); assumption)
    | with_reducible apply State.updCluster_wf
    | with_reducible apply State.dropMsg_wf
    | with_reducible apply State.setRings_wf
    | split

theorem execReleaseArrival_wf {n : Nat} {s : State} (h1 : s.Wf) : Res.Wf (execReleaseArrival n s) := by
  unfold execReleaseArrival
  repeat' first
    | with_reducible assumption
    | with_reducible apply next_wf
    | with_reducible apply releaseArrival_wf

theorem recordCreation_wf {n : Nat} {s : State} (h1 : s.Wf) : State.Wf (recordCreation n s) := by
  unfold recordCreation
  repeat' first
    | with_reducible assumption
    | with_reducible apply State.answered_wf
    | with_reducible apply State.dropMsg_wf
    | with_reducible apply State.answerFault_wf
    | with_reducible apply State.create_wf
    | split
    | with_reducible refine okE_ok (by with_reducible assumption) ?_

theorem execRecordCreation_wf {n : Nat} {s : State} (h1 : s.Wf) : Res.Wf (execRecordCreation n s) := by
  unfold execRecordCreation
  repeat' first
    | with_reducible assumption
    | with_reducible apply next_wf
    | with_reducible apply recordCreation_wf

theorem overflowPlace_wf {n : Nat} {s : State} (h1 : s.Wf) : State.Wf (overflowPlace n s) := by
  unfold overflowPlace
  repeat' first
    | with_reducible assumption
    | with_reducible apply okO_getD
    | with_reducible apply State.room_wf
    | with_reducible apply State.dropMsg_wf
    | split

theorem execOverflowRingPlacement_wf {n : Nat} {s : State} (h1 : s.Wf) : Res.Wf (execOverflowRingPlacement n s) := by
  unfold execOverflowRingPlacement
  repeat' first
    | with_reducible assumption
    | with_reducible apply next_wf
    | with_reducible apply overflowPlace_wf

theorem rdqRefill_wf {cl : Nat} {part : Nat} {prio : Nat} {s : State} (h3 : s.Wf) : State.Wf (rdqRefill cl part prio s) := by
  unfold rdqRefill
  repeat' first
    | with_reducible assumption
    | (extract_lets +onlyGivenNames x; clear_value x)
    | with_reducible apply State.setRings_wf
    | with_reducible apply State.updCluster_wf
    | split

theorem execRdqRefill_wf {cluster : Nat} {part : Nat} {prio : Nat} {s : State} (h3 : s.Wf) : Res.Wf (execRdqRefill cluster part prio s) := by
  unfold execRdqRefill
  repeat' first
    | with_reducible assumption
    | with_reducible apply next_wf
    | with_reducible apply rdqRefill_wf

theorem loadReport_wf {cl : Nat} {s : State} (h1 : s.Wf) : State.Wf (loadReport cl s) := by
  unfold loadReport
  repeat' first
    | with_reducible assumption
    | (extract_lets +onlyGivenNames x; clear_value x)
    | with_reducible apply State.updCluster_wf

theorem execRdqLoadReport_wf {cluster : Nat} {s : State} (h1 : s.Wf) : Res.Wf (execRdqLoadReport cluster s) := by
  unfold execRdqLoadReport
  repeat' first
    | with_reducible assumption
    | with_reducible apply next_wf
    | with_reducible apply loadReport_wf

theorem execDispatch_wf {cluster : Nat} {s : State} (h1 : s.Wf) : Res.Wf (execDispatch cluster s) := by
  unfold execDispatch
  repeat' first
    | with_reducible assumption
    | with_reducible apply next_wf
    | with_reducible apply dispatch_wf

theorem gangDispatch_wf {part : Nat} {s : State} (h1 : s.Wf) : State.Wf (gangDispatch part s) := by
  unfold gangDispatch
  repeat' first
    | with_reducible assumption
    | intro _
    | (extract_lets +onlyGivenNames x; refine (fun (_ : State.Wf x) => ?_) ?_; clear_value x; rotate_left; subst x)
    | with_reducible (refine mk_wf (mem_wf ?_); assumption)
    | with_reducible apply foldl_wf
    | with_reducible apply State.takeGang_wf
    | with_reducible apply State.reserve_wf
    | with_reducible apply State.sendMember_wf
    | split

theorem execGangDispatch_wf {part : Nat} {s : State} (h1 : s.Wf) : Res.Wf (execGangDispatch part s) := by
  unfold execGangDispatch
  repeat' first
    | with_reducible assumption
    | with_reducible apply next_wf
    | with_reducible apply gangDispatch_wf

theorem fillRequest_wf {n : Nat} {s : State} (h1 : s.Wf) : State.Wf (fillRequest n s) := by
  unfold fillRequest
  repeat' first
    | with_reducible assumption
    | (extract_lets +onlyGivenNames x; refine (fun (_ : State.Wf x) => ?_) ?_; clear_value x; rotate_left; subst x)
    | (extract_lets +onlyGivenNames x; clear_value x)
    | with_reducible apply State.emit_wf
    | with_reducible apply State.dropMsg_wf
    | with_reducible apply State.fillFault_wf
    | with_reducible apply State.refuseFill_wf
    | with_reducible apply State.draw_wf
    | with_reducible apply State.passTile_wf
    | with_reducible apply State.putHome_wf
    | with_reducible apply State.send_wf
    | with_reducible apply State.countEv_wf
    | with_reducible apply State.useHome_wf
    | with_reducible apply State.answerDevice_wf
    | with_reducible apply State.answerFill_wf
    | with_reducible apply State.movePtr_wf
    | split
    | with_reducible refine pair_wf (by with_reducible assumption) ?_

theorem execFillRequest_wf {n : Nat} {s : State} (h1 : s.Wf) : Res.Wf (execFillRequest n s) := by
  unfold execFillRequest
  repeat' first
    | with_reducible assumption
    | with_reducible apply next_wf
    | with_reducible apply fillRequest_wf

theorem neighbourServe_wf {n : Nat} {s : State} (h1 : s.Wf) : State.Wf (neighbourServe n s) := by
  unfold neighbourServe
  repeat' first
    | with_reducible assumption
    | (extract_lets +onlyGivenNames x; refine (fun (_ : State.Wf x) => ?_) ?_; clear_value x; rotate_left; subst x)
    | (extract_lets +onlyGivenNames x; clear_value x)
    | with_reducible apply State.dropMsg_wf
    | with_reducible apply State.send_wf
    | with_reducible apply State.setFrame_wf
    | split

theorem execNeighbourServe_wf {n : Nat} {s : State} (h1 : s.Wf) : Res.Wf (execNeighbourServe n s) := by
  unfold execNeighbourServe
  repeat' first
    | with_reducible assumption
    | with_reducible apply next_wf
    | with_reducible apply neighbourServe_wf

theorem fillAnswer_wf {n : Nat} {s : State} (h1 : s.Wf) : State.Wf (fillAnswer n s) := by
  unfold fillAnswer
  repeat' first
    | with_reducible assumption
    | (extract_lets +onlyGivenNames x; refine (fun (_ : State.Wf x) => ?_) ?_; clear_value x; rotate_left; subst x)
    | (extract_lets +onlyGivenNames x; clear_value x)
    | with_reducible apply State.fillFailed_wf
    | with_reducible apply State.dropMsg_wf
    | with_reducible apply State.draw_wf
    | with_reducible apply State.updFrame_wf
    | with_reducible apply State.fillHints_wf
    | with_reducible apply State.staleIf_wf
    | with_reducible apply State.touchFrame_wf
    | split

theorem execFillAnswer_wf {n : Nat} {s : State} (h1 : s.Wf) : Res.Wf (execFillAnswer n s) := by
  unfold execFillAnswer
  repeat' first
    | with_reducible assumption
    | with_reducible apply next_wf
    | with_reducible apply fillAnswer_wf

theorem grantRequest_wf {n : Nat} {s : State} (h1 : s.Wf) : State.Wf (grantRequest n s) := by
  unfold grantRequest
  repeat' first
    | with_reducible assumption
    | (extract_lets +onlyGivenNames x; clear_value x)
    | with_reducible apply State.fillFault_wf
    | with_reducible apply State.draw_wf
    | with_reducible apply State.send_wf
    | with_reducible apply State.dropMsg_wf
    | with_reducible apply State.putHome_wf
    | with_reducible apply State.movePtr_wf
    | with_reducible apply State.useHome_wf
    | with_reducible apply State.answerFill_wf
    | split
    | with_reducible refine pair_wf (by with_reducible assumption) ?_

theorem execGrantRequest_wf {n : Nat} {s : State} (h1 : s.Wf) : Res.Wf (execGrantRequest n s) := by
  unfold execGrantRequest
  repeat' first
    | with_reducible assumption
    | with_reducible apply next_wf
    | with_reducible apply grantRequest_wf

theorem writeGrant_wf {n : Nat} {s : State} (h1 : s.Wf) : State.Wf (writeGrant n s) := by
  unfold writeGrant
  repeat' first
    | with_reducible assumption
    | (extract_lets +onlyGivenNames x; refine (fun (_ : State.Wf x) => ?_) ?_; clear_value x; rotate_left; subst x)
    | (extract_lets +onlyGivenNames x; clear_value x)
    | with_reducible apply State.dropMsg_wf
    | with_reducible apply State.updFrame_wf
    | split

theorem execWriteGrant_wf {n : Nat} {s : State} (h1 : s.Wf) : Res.Wf (execWriteGrant n s) := by
  unfold execWriteGrant
  repeat' first
    | with_reducible assumption
    | with_reducible apply next_wf
    | with_reducible apply writeGrant_wf

theorem retry_wf {n : Nat} {s : State} (h1 : s.Wf) : State.Wf (retry n s) := by
  unfold retry
  repeat' first
    | with_reducible assumption
    | (extract_lets +onlyGivenNames x; refine (fun (_ : State.Wf x) => ?_) ?_; clear_value x; rotate_left; subst x)
    | with_reducible apply State.countEv_wf
    | with_reducible apply State.dropMsg_wf
    | with_reducible apply State.dropFrame_wf
    | with_reducible apply State.unparkTile_wf
    | split

theorem execRetry_wf {n : Nat} {s : State} (h1 : s.Wf) : Res.Wf (execRetry n s) := by
  unfold execRetry
  repeat' first
    | with_reducible assumption
    | with_reducible apply next_wf
    | with_reducible apply retry_wf

theorem grantTimeout_wf {n : Nat} {s : State} (h1 : s.Wf) : State.Wf (grantTimeout n s) := by
  unfold grantTimeout
  repeat' first
    | with_reducible assumption
    | (extract_lets +onlyGivenNames x; clear_value x)
    | with_reducible apply State.refuseFill_wf
    | split

theorem execGrantTimeout_wf {n : Nat} {s : State} (h1 : s.Wf) : Res.Wf (execGrantTimeout n s) := by
  unfold execGrantTimeout
  repeat' first
    | with_reducible assumption
    | with_reducible apply next_wf
    | with_reducible apply grantTimeout_wf

theorem releaseAtHome_wf {n : Nat} {s : State} (h1 : s.Wf) : State.Wf (releaseAtHome n s) := by
  unfold releaseAtHome
  repeat' first
    | with_reducible assumption
    | (extract_lets +onlyGivenNames x; refine (fun (_ : State.Wf x) => ?_) ?_; clear_value x; rotate_left; subst x)
    | (extract_lets +onlyGivenNames x; clear_value x)
    | with_reducible (refine mk_wf (mem_wf ?_); assumption)
    | with_reducible apply State.useHome_wf
    | with_reducible apply State.answered_wf
    | with_reducible apply State.dropMsg_wf
    | with_reducible apply State.putHome_wf
    | split
    | with_reducible refine pair_wf (by with_reducible assumption) ?_

theorem execReleaseAtHome_wf {n : Nat} {s : State} (h1 : s.Wf) : Res.Wf (execReleaseAtHome n s) := by
  unfold execReleaseAtHome
  repeat' first
    | with_reducible assumption
    | with_reducible apply next_wf
    | with_reducible apply releaseAtHome_wf

theorem execReadOutComplete_wf {cluster : Nat} {frame : Nat} {s : State} (h2 : s.Wf) : Res.Wf (execReadOutComplete cluster frame s) := by
  unfold execReadOutComplete
  repeat' first
    | with_reducible assumption
    | with_reducible apply next_wf
    | with_reducible apply readOut_wf

theorem execDrainArrival_wf {n : Nat} {s : State} (h1 : s.Wf) : Res.Wf (execDrainArrival n s) := by
  unfold execDrainArrival
  repeat' first
    | with_reducible assumption
    | with_reducible apply next_wf
    | with_reducible apply drainArrival_wf

theorem victimWriteBack_wf {n : Nat} {s : State} (h1 : s.Wf) : State.Wf (victimWriteBack n s) := by
  unfold victimWriteBack
  repeat' first
    | with_reducible assumption
    | with_reducible apply State.landData_wf
    | split

theorem execVictimWriteBack_wf {n : Nat} {s : State} (h1 : s.Wf) : Res.Wf (execVictimWriteBack n s) := by
  unfold execVictimWriteBack
  repeat' first
    | with_reducible assumption
    | with_reducible apply next_wf
    | with_reducible apply victimWriteBack_wf

theorem tacqAtHome_wf {n : Nat} {s : State} (h1 : s.Wf) : State.Wf (tacqAtHome n s) := by
  unfold tacqAtHome
  repeat' first
    | with_reducible assumption
    | (extract_lets +onlyGivenNames x; refine (fun (_ : State.Wf x) => ?_) ?_; clear_value x; rotate_left; subst x)
    | (extract_lets +onlyGivenNames x; clear_value x)
    | with_reducible apply State.swept_wf
    | with_reducible apply State.draw_wf
    | with_reducible apply State.dropMsg_wf
    | with_reducible apply State.unparkTile_wf
    | with_reducible apply State.dropFrame_wf
    | with_reducible apply State.answered_wf
    | with_reducible apply State.staleIf_wf
    | split

theorem execTacqAtHome_wf {n : Nat} {s : State} (h1 : s.Wf) : Res.Wf (execTacqAtHome n s) := by
  unfold execTacqAtHome
  repeat' first
    | with_reducible assumption
    | with_reducible apply next_wf
    | with_reducible apply tacqAtHome_wf

theorem tacqTimeout_wf {n : Nat} {s : State} (h1 : s.Wf) : State.Wf (tacqTimeout n s) := by
  unfold tacqTimeout
  repeat' first
    | with_reducible assumption
    | with_reducible apply State.answerFault_wf
    | with_reducible apply State.dropMsg_wf
    | split

theorem execTacqTimeout_wf {n : Nat} {s : State} (h1 : s.Wf) : Res.Wf (execTacqTimeout n s) := by
  unfold execTacqTimeout
  repeat' first
    | with_reducible assumption
    | with_reducible apply next_wf
    | with_reducible apply tacqTimeout_wf

theorem remoteTimeout_wf {n : Nat} {s : State} (h1 : s.Wf) : State.Wf (remoteTimeout n s) := by
  unfold remoteTimeout
  repeat' first
    | with_reducible assumption
    | with_reducible apply State.refuseFill_wf
    | split

theorem execRemoteHomeTimeout_wf {n : Nat} {s : State} (h1 : s.Wf) : Res.Wf (execRemoteHomeTimeout n s) := by
  unfold execRemoteHomeTimeout
  repeat' first
    | with_reducible assumption
    | with_reducible apply next_wf
    | with_reducible apply remoteTimeout_wf

theorem leaseExpiry_wf {cl : Nat} {key : Nat} {s : State} (h2 : s.Wf) : State.Wf (leaseExpiry cl key s) := by
  unfold leaseExpiry
  repeat' first
    | with_reducible assumption
    | (extract_lets +onlyGivenNames x; clear_value x)
    | with_reducible apply State.setFrame_wf
    | with_reducible apply State.endRecall_wf
    | with_reducible apply State.dropFrame_wf
    | split

theorem execLeaseExpiry_wf {cluster : Nat} {frame : Nat} {s : State} (h2 : s.Wf) : Res.Wf (execLeaseExpiry cluster frame s) := by
  unfold execLeaseExpiry
  repeat' first
    | with_reducible assumption
    | with_reducible apply next_wf
    | with_reducible apply leaseExpiry_wf

theorem homeLeaseExpiry_wf {i : Nat} {n : Nat} {s : State} (h2 : s.Wf) : State.Wf (homeLeaseExpiry i n s) := by
  unfold homeLeaseExpiry
  repeat' first
    | with_reducible assumption
    | with_reducible apply State.setLeases_wf
    | split

theorem execHomeLeaseExpiry_wf {home : Nat} {n : Nat} {s : State} (h2 : s.Wf) : Res.Wf (execHomeLeaseExpiry home n s) := by
  unfold execHomeLeaseExpiry
  repeat' first
    | with_reducible assumption
    | with_reducible apply next_wf
    | with_reducible apply homeLeaseExpiry_wf

theorem leaseReturn_wf {i : Nat} {n : Nat} {s : State} (h2 : s.Wf) : State.Wf (leaseReturn i n s) := by
  unfold leaseReturn
  repeat' first
    | with_reducible assumption
    | with_reducible apply State.setLeases_wf
    | split

theorem execLeaseReturn_wf {home : Nat} {n : Nat} {s : State} (h2 : s.Wf) : Res.Wf (execLeaseReturn home n s) := by
  unfold execLeaseReturn
  repeat' first
    | with_reducible assumption
    | with_reducible apply next_wf
    | with_reducible apply leaseReturn_wf

theorem reductionAtHome_wf {n : Nat} {s : State} (h1 : s.Wf) : State.Wf (reductionAtHome n s) := by
  unfold reductionAtHome
  repeat' first
    | with_reducible assumption
    | (extract_lets +onlyGivenNames x; clear_value x)
    | with_reducible apply State.useHome_wf
    | with_reducible apply State.send_wf
    | with_reducible apply State.answered_wf
    | with_reducible apply State.reduceTile_wf
    | with_reducible apply State.passTile_wf
    | with_reducible apply State.dropMsg_wf
    | with_reducible apply State.putHome_wf
    | split
    | with_reducible refine pair_wf (by with_reducible assumption) ?_

theorem execReductionAtHome_wf {n : Nat} {s : State} (h1 : s.Wf) : Res.Wf (execReductionAtHome n s) := by
  unfold execReductionAtHome
  repeat' first
    | with_reducible assumption
    | with_reducible apply next_wf
    | with_reducible apply reductionAtHome_wf

theorem machineCheck_wf {unit : Nat} {x : Nat} {y : Nat} {s : State} (h3 : s.Wf) : State.Wf (machineCheck unit x y s) := by
  unfold machineCheck
  repeat' first
    | with_reducible assumption
    | (extract_lets +onlyGivenNames x; refine (fun (_ : State.Wf x) => ?_) ?_; clear_value x; rotate_left; subst x)
    | (extract_lets +onlyGivenNames x; clear_value x)
    | with_reducible apply State.mcheck_wf
    | with_reducible apply State.lostFrame_wf
    | with_reducible apply State.send_wf
    | with_reducible apply State.staleIf_wf
    | with_reducible apply State.dropFrame_wf
    | with_reducible apply State.unparkTile_wf
    | with_reducible apply State.draw_wf
    | with_reducible apply State.wrBytes_wf
    | with_reducible apply State.updCore_wf
    | split

theorem execMachineCheck_wf {unit : Nat} {x : Nat} {y : Nat} {s : State} (h3 : s.Wf) : Res.Wf (execMachineCheck unit x y s) := by
  unfold execMachineCheck
  repeat' first
    | with_reducible assumption
    | with_reducible apply next_wf
    | with_reducible apply machineCheck_wf

theorem fabricAtTarget_wf {n : Nat} {s : State} (h1 : s.Wf) : State.Wf (fabricAtTarget n s) := by
  unfold fabricAtTarget
  repeat' first
    | with_reducible assumption
    | (extract_lets +onlyGivenNames x; refine (fun (_ : State.Wf x) => ?_) ?_; clear_value x; rotate_left; subst x)
    | (extract_lets +onlyGivenNames x; clear_value x)
    | with_reducible apply State.dropMsg_wf
    | with_reducible apply State.fabAnswer_wf
    | with_reducible apply State.servedFab_wf
    | with_reducible apply State.closeLine_wf
    | with_reducible apply State.wrMem_wf
    | with_reducible apply State.fabDec_wf
    | with_reducible apply State.decAnswer_wf
    | with_reducible apply State.decRec_wf
    | with_reducible apply State.served_wf
    | split

theorem execFabricRequestAtTarget_wf {n : Nat} {s : State} (h1 : s.Wf) : Res.Wf (execFabricRequestAtTarget n s) := by
  unfold execFabricRequestAtTarget
  repeat' first
    | with_reducible assumption
    | with_reducible apply next_wf
    | with_reducible apply fabricAtTarget_wf

theorem fabricReply_wf {k : Nat} {n : Nat} {ok : Nat} {v : Nat} {s : State} (h4 : s.Wf) : State.Wf (fabricReply k n ok v s) := by
  unfold fabricReply
  repeat' first
    | with_reducible assumption
    | (extract_lets +onlyGivenNames x; refine (fun (_ : State.Wf x) => ?_) ?_; clear_value x; rotate_left; subst x)
    | (extract_lets +onlyGivenNames x; clear_value x)
    | with_reducible apply State.succReply_wf
    | with_reducible apply State.charge_wf
    | with_reducible apply complete_wf
    | with_reducible apply State.updCmd_wf
    | with_reducible apply State.answerFault_wf
    | split

theorem execFabricReply_wf {core : Nat} {n : Nat} {ok : Nat} {v : Nat} {s : State} (h4 : s.Wf) : Res.Wf (execFabricReply core n ok v s) := by
  unfold execFabricReply
  repeat' first
    | with_reducible assumption
    | with_reducible apply next_wf
    | with_reducible apply fabricReply_wf

theorem fabricFails_wf {k : Nat} {n : Nat} {s : State} (h2 : s.Wf) : State.Wf (fabricFails k n s) := by
  unfold fabricFails
  repeat' first
    | with_reducible assumption
    | with_reducible apply State.succReply_wf
    | with_reducible apply complete_wf
    | with_reducible apply State.answerFault_wf
    | split

theorem fabricTimeout_wf {k : Nat} {n : Nat} {s : State} (h2 : s.Wf) : State.Wf (fabricTimeout k n s) := by
  unfold fabricTimeout
  repeat' first
    | with_reducible assumption
    | with_reducible apply fabricFails_wf
    | split

theorem execFabricTimeout_wf {core : Nat} {n : Nat} {s : State} (h2 : s.Wf) : Res.Wf (execFabricTimeout core n s) := by
  unfold execFabricTimeout
  repeat' first
    | with_reducible assumption
    | with_reducible apply next_wf
    | with_reducible apply fabricTimeout_wf

theorem execPreemptionOrder_wf {core : Nat} {s : State} (h1 : s.Wf) : Res.Wf (execPreemptionOrder core s) := by
  unfold execPreemptionOrder
  repeat' first
    | with_reducible assumption
    | with_reducible apply next_wf
    | with_reducible apply State.updCore_wf

theorem execForcedSave_wf {core : Nat} {s : State} (h1 : s.Wf) : Res.Wf (execForcedSave core s) := by
  unfold execForcedSave
  repeat' first
    | with_reducible assumption
    | with_reducible apply next_wf
    | with_reducible apply forcedSave_wf

theorem execPrqresp_wf {fn : Nat} {v : Nat} {s : State} (h2 : s.Wf) : Res.Wf (execPrqresp fn v s) := by
  unfold execPrqresp
  repeat' first
    | with_reducible assumption
    | with_reducible apply next_wf
    | with_reducible apply prqresp_wf

theorem priResponse_wf {n : Nat} {ok : Nat} {s : State} (h2 : s.Wf) : State.Wf (priResponse n ok s) := by
  unfold priResponse
  repeat' first
    | with_reducible assumption
    | with_reducible (refine mk_wf (mem_wf ?_); assumption)
    | with_reducible apply State.answerPage_wf
    | split

theorem execPriPageGroupResponse_wf {n : Nat} {ok : Nat} {s : State} (h2 : s.Wf) : Res.Wf (execPriPageGroupResponse n ok s) := by
  unfold execPriPageGroupResponse
  repeat' first
    | with_reducible assumption
    | with_reducible apply next_wf
    | with_reducible apply priResponse_wf

theorem execAtsInvalidation_wf {part : Nat} {page : Nat} {s : State} (h2 : s.Wf) : Res.Wf (execAtsInvalidation part page s) := by
  unfold execAtsInvalidation
  repeat' first
    | with_reducible assumption
    | with_reducible apply next_wf
    | with_reducible apply atsInvalidation_wf

theorem execGenbump_wf {fn : Nat} {v : Nat} {s : State} (h2 : s.Wf) : Res.Wf (execGenbump fn v s) := by
  unfold execGenbump
  repeat' first
    | with_reducible assumption
    | with_reducible apply next_wf
    | with_reducible apply genbump_wf

theorem execGenerationBumpComplete_wf {n : Nat} {s : State} (h1 : s.Wf) : Res.Wf (execGenerationBumpComplete n s) := by
  unfold execGenerationBumpComplete
  repeat' first
    | with_reducible assumption
    | with_reducible apply next_wf
    | with_reducible apply bumpComplete_wf

theorem execGenerationBumpHold_wf {n : Nat} {s : State} (h1 : s.Wf) : Res.Wf (execGenerationBumpHold n s) := by
  unfold execGenerationBumpHold
  repeat' first
    | with_reducible assumption
    | with_reducible apply next_wf
    | with_reducible apply bumpHold_wf

theorem execTranslationCacheExpiry_wf {n : Nat} {s : State} (h1 : s.Wf) : Res.Wf (execTranslationCacheExpiry n s) := by
  unfold execTranslationCacheExpiry
  repeat' first
    | with_reducible (refine mk_wf (mem_wf ?_); assumption)
    | with_reducible apply next_wf

theorem pathFailure_wf {k : Nat} {n : Nat} {s : State} (h2 : s.Wf) : State.Wf (pathFailure k n s) := by
  unfold pathFailure
  repeat' first
    | with_reducible assumption
    | with_reducible apply fabricFails_wf
    | with_reducible apply State.refuseFill_wf
    | split

theorem execFabricPathFailure_wf {core : Nat} {n : Nat} {s : State} (h2 : s.Wf) : Res.Wf (execFabricPathFailure core n s) := by
  unfold execFabricPathFailure
  repeat' first
    | with_reducible assumption
    | with_reducible apply next_wf
    | with_reducible apply pathFailure_wf

theorem leaseAsk_wf {i : Nat} {n : Nat} {s : State} (h2 : s.Wf) : State.Wf (leaseAsk i n s) := by
  unfold leaseAsk
  repeat' first
    | with_reducible assumption
    | with_reducible apply State.emit_wf
    | with_reducible apply State.setLeases_wf
    | split

theorem execLeaseReturnRequest_wf {home : Nat} {n : Nat} {s : State} (h2 : s.Wf) : Res.Wf (execLeaseReturnRequest home n s) := by
  unfold execLeaseReturnRequest
  repeat' first
    | with_reducible assumption
    | with_reducible apply next_wf
    | with_reducible apply leaseAsk_wf

end Sys2Proof.Machine
end

