-- ==== Sys2Proof/Laws/Canon5.lean ====
section
/-! SUPPORT. Memory keeps its canonical form: rings, gangs, Sage, the registers of the device and a core's move. One lemma per operation, named after it. -/

namespace Sys2Proof.Machine

theorem writeRegs_nil_wf {off size v : Nat} {s : State} (h : s.Wf) : State.Wf (writeRegs off size v [] s) := by
  exact h

theorem writeRegs_trigger_wf {off size v o m a b : Nat} {s : State} {act : Nat → State → State} {l : List WReg}
    (hp : ∀ x s, s.Wf → (act x s).Wf) (hl : ∀ s, s.Wf → (writeRegs off size v l s).Wf) (h : s.Wf) :
    State.Wf (writeRegs off size v (trigger a b o m act :: l) s) := by
  refine hl _ ?_
  dsimp only
  split
  · unfold trigger
    dsimp only
    split
    · exact hp _ _ h
    · exact h
  · exact h

theorem writeRegs_cons_wf {off size v o n old : Nat} {s : State} {put : Nat → State → State} {l : List WReg}
    (hp : ∀ x s, s.Wf → (put x s).Wf) (hl : ∀ s, s.Wf → (writeRegs off size v l s).Wf) (h : s.Wf) :
    State.Wf (writeRegs off size v (⟨o, n, old, put⟩ :: l) s) := by
  refine hl _ ?_
  dsimp only
  split
  · exact hp _ _ h
  · exact h

theorem writeRegs_append_wf {off size v : Nat} {s : State} {k l : List WReg}
    (hk : ∀ s, s.Wf → (writeRegs off size v k s).Wf) (hl : ∀ s, s.Wf → (writeRegs off size v l s).Wf) (h : s.Wf) :
    State.Wf (writeRegs off size v (k ++ l) s) := by
  unfold writeRegs
  rw [List.foldl_append]
  exact hl _ (hk _ h)

theorem State.addRegion_wf {s : State} {part : Nat} {ix : Nat} {r : List Byte} (h0 : s.Wf) : State.Wf (State.addRegion s part ix r) := by
  unfold State.addRegion
  repeat' first
    | with_reducible assumption
    | (extract_lets +onlyGivenNames x; refine (fun (_ : State.Wf x) => ?_) ?_; clear_value x; rotate_left; subst x)
    | with_reducible (refine mk_wf (mem_wf ?_); assumption)
    | with_reducible apply State.wrBytes_wf

theorem State.addRegions_wf {s : State} {im : Image} {part : Nat} (h0 : s.Wf) : State.Wf (State.addRegions s im part) := by
  unfold State.addRegions
  repeat' first
    | with_reducible assumption
    | intro _
    | (extract_lets +onlyGivenNames x; clear_value x)
    | with_reducible apply foldl_wf
    | with_reducible apply State.addRegion_wf

theorem State.pullEntries_wf {s : State} {key : Nat} (h0 : s.Wf) : State.Wf (State.pullEntries s key).1 := by
  unfold State.pullEntries
  repeat' first
    | with_reducible assumption
    | (extract_lets +onlyGivenNames x; refine (fun (_ : State.Wf x) => ?_) ?_; clear_value x; rotate_left; subst x)
    | (extract_lets +onlyGivenNames x; clear_value x)
    | with_reducible (refine mk_wf (mem_wf ?_); assumption)
    | with_reducible apply State.setRings_wf

theorem State.unreserve_wf {s : State} {key : Nat} (h0 : s.Wf) : State.Wf (State.unreserve s key) := by
  unfold State.unreserve
  repeat' first
    | with_reducible (refine mk_wf (mem_wf ?_); assumption)

theorem State.saveQueue_wf {s : State} {key : Nat} (h0 : s.Wf) : State.Wf (State.saveQueue s key) := by
  unfold State.saveQueue
  repeat' first
    | with_reducible assumption
    | intro _
    | (extract_lets +onlyGivenNames x; refine (fun (_ : State.Wf x) => ?_) ?_; clear_value x; rotate_left; subst x)
    | (extract_lets +onlyGivenNames x; refine (fun (_ : State.Wf x.1) => ?_) ?_; clear_value x; rotate_left; subst x)
    | with_reducible apply foldl_wf
    | with_reducible apply State.pullEntries_wf
    | with_reducible apply State.updQcb_wf
    | with_reducible apply State.unreserve_wf
    | with_reducible apply State.queueSaved_wf
    | with_reducible apply State.updCore_wf

theorem State.dropLaunches_wf {s : State} {key : Nat} (h0 : s.Wf) : State.Wf (State.dropLaunches s key) := by
  unfold State.dropLaunches
  repeat' first
    | with_reducible assumption
    | intro _
    | (extract_lets +onlyGivenNames x; refine (fun (_ : State.Wf x) => ?_) ?_; clear_value x; rotate_left; subst x)
    | (extract_lets +onlyGivenNames x; clear_value x)
    | with_reducible apply foldl_wf
    | with_reducible apply State.updLaunch_wf
    | with_reducible apply State.freeRings_wf
    | with_reducible apply State.post_wf
    | with_reducible apply State.updQcb_wf

theorem State.endRecords_wf {s : State} {es : List (Nat × RdqE)} {ks : List Nat} (h0 : s.Wf) : State.Wf (State.endRecords s es ks) := by
  unfold State.endRecords
  repeat' first
    | with_reducible assumption
    | intro _
    | (extract_lets +onlyGivenNames x; refine (fun (_ : State.Wf x) => ?_) ?_; clear_value x; rotate_left; subst x)
    | with_reducible apply foldl_wf
    | with_reducible apply State.setRecState_wf

theorem State.discardQueue_wf {s : State} {key : Nat} {drop : Bool} {all : Bool} (h0 : s.Wf) : State.Wf (State.discardQueue s key drop all) := by
  unfold State.discardQueue
  repeat' first
    | with_reducible assumption
    | intro _
    | (extract_lets +onlyGivenNames x; refine (fun (_ : State.Wf x) => ?_) ?_; clear_value x; rotate_left; subst x)
    | (extract_lets +onlyGivenNames x; refine (fun (_ : State.Wf x.1) => ?_) ?_; clear_value x; rotate_left; subst x)
    | (extract_lets +onlyGivenNames x; clear_value x)
    | with_reducible apply foldl_wf
    | with_reducible apply State.pullEntries_wf
    | with_reducible apply State.unreserve_wf
    | with_reducible apply State.updQcb_wf
    | with_reducible apply State.dropLaunches_wf
    | with_reducible apply State.endRecords_wf
    | with_reducible apply State.updCore_wf
    | with_reducible apply State.queueSaved_wf
    | split

theorem State.applyChoice_wf {s : State} {key : Nat} {c : Nat} {drop : Bool} (h0 : s.Wf) : State.Wf (State.applyChoice s key c drop) := by
  unfold State.applyChoice
  repeat' first
    | with_reducible assumption
    | with_reducible apply State.queueStopped_wf
    | with_reducible apply State.updQcb_wf
    | with_reducible apply State.saveQueue_wf
    | with_reducible apply State.discardQueue_wf
    | split

theorem State.clearFrame_wf {s : State} {cl : Nat} {key : Nat} (h0 : s.Wf) : State.Wf (State.clearFrame s cl key) := by
  unfold State.clearFrame
  repeat' first
    | with_reducible assumption
    | (extract_lets +onlyGivenNames x; clear_value x)
    | with_reducible apply State.dropFrame_wf
    | with_reducible apply State.unparkTile_wf
    | with_reducible apply State.setFrame_wf
    | split

theorem State.clearRegion_wf {s : State} {part : Nat} {ix : Nat} (h0 : s.Wf) : State.Wf (State.clearRegion s part ix) := by
  unfold State.clearRegion
  repeat' first
    | with_reducible assumption
    | (extract_lets +onlyGivenNames x; refine (fun (_ : State.Wf x) => ?_) ?_; clear_value x; rotate_left; subst x)
    | with_reducible (refine mk_wf (mem_wf ?_); assumption)
    | with_reducible apply State.wrBytes_wf
    | split

theorem State.clearTarget_wf {s : State} {v : Vacate} (h0 : s.Wf) : State.Wf (State.clearTarget s v) := by
  unfold State.clearTarget
  repeat' first
    | with_reducible assumption
    | intro _
    | with_reducible apply foldl_wf
    | with_reducible apply State.clearFrame_wf
    | split

theorem State.cleared_wf {s : State} (h0 : s.Wf) : State.Wf (State.cleared s) := by
  exact filter_wf h0

theorem State.forgetSaved_wf {s : State} {part : Nat} {hdr : Nat} (h0 : s.Wf) : State.Wf (State.forgetSaved s part hdr) := by
  unfold State.forgetSaved
  repeat' first
    | (extract_lets +onlyGivenNames x; clear_value x)
    | with_reducible (refine mk_wf (mem_wf ?_); assumption)
    | with_reducible apply State.pushFrames_wf
    | with_reducible apply State.takeSaved_wf

theorem State.replaceEntry_wf {s : State} {x : Nat × RdqE} (h0 : s.Wf) : State.Wf (State.replaceEntry s x) := by
  unfold State.replaceEntry
  repeat' first
    | with_reducible assumption
    | (extract_lets +onlyGivenNames x; clear_value x)
    | with_reducible apply State.updQcb_wf
    | with_reducible apply State.forgetSaved_wf
    | with_reducible apply State.register_wf
    | with_reducible apply State.placeFor_wf
    | split

theorem State.restoreQueue_wf {s : State} {v : Vacate} {q : Nat × Nat × Nat} (h0 : s.Wf) : State.Wf (State.restoreQueue s v q) := by
  unfold State.restoreQueue
  repeat' first
    | with_reducible assumption
    | intro _
    | (extract_lets +onlyGivenNames x; refine (fun (_ : State.Wf x) => ?_) ?_; clear_value x; rotate_left; subst x)
    | (extract_lets +onlyGivenNames x; clear_value x)
    | with_reducible apply foldl_wf
    | with_reducible apply State.updQcb_wf
    | with_reducible apply State.replaceEntry_wf
    | with_reducible apply State.queueStopped_wf
    | with_reducible apply State.pushFrames_wf
    | split

theorem State.resumeTarget_wf {s : State} {n : Nat} {v : Vacate} (h0 : s.Wf) : State.Wf (State.resumeTarget s n v) := by
  unfold State.resumeTarget
  repeat' first
    | with_reducible assumption
    | intro _
    | (extract_lets +onlyGivenNames x; refine (fun (_ : State.Wf x) => ?_) ?_; clear_value x; rotate_left; subst x)
    | with_reducible (refine mk_wf (mem_wf ?_); assumption)
    | with_reducible apply foldl_wf
    | with_reducible apply State.restoreQueue_wf

theorem State.doResume_wf {s : State} {poster : Nat} {kind : Nat} {id : Nat} {qmask : Nat} (h0 : s.Wf) : State.Wf (State.doResume s poster kind id qmask).1 := by
  unfold State.doResume
  repeat' first
    | with_reducible assumption
    | with_reducible apply State.resumeTarget_wf
    | split

theorem State.updVacate_wf {s : State} {n : Nat} {f : Vacate → Vacate} (h0 : s.Wf) : State.Wf (State.updVacate s n f) := by
  unfold State.updVacate
  repeat' first
    | with_reducible (refine mk_wf (mem_wf ?_); assumption)

theorem State.moveDown_wf {s : State} {n : Nat} {key : Nat} {c : Nat} {drop : Bool} (h0 : s.Wf) : State.Wf (State.moveDown s n key c drop) := by
  unfold State.moveDown
  repeat' first
    | with_reducible assumption
    | with_reducible apply okOP_mk
    | with_reducible apply State.popFrames_wf
    | with_reducible apply State.applyChoice_wf
    | with_reducible apply State.updVacate_wf
    | with_reducible (refine mk_wf (mem_wf ?_); refine okOP_some (by assumption) ?_)
    | split

theorem State.evalQueue_wf {s : State} {n : Nat} {q : Nat × Nat × Nat} (h0 : s.Wf) : State.Wf (State.evalQueue s n q) := by
  unfold State.evalQueue
  repeat' first
    | with_reducible assumption
    | (extract_lets +onlyGivenNames x; clear_value x)
    | with_reducible apply State.moveDown_wf
    | split

theorem State.gate_wf {s : State} {cl : Nat} (h0 : s.Wf) : State.Wf (State.gate s cl) := by
  unfold State.gate
  repeat' first
    | with_reducible assumption
    | intro _
    | (extract_lets +onlyGivenNames x; refine (fun (_ : State.Wf x) => ?_) ?_; clear_value x; rotate_left; subst x)
    | with_reducible apply foldl_wf
    | with_reducible apply readOut_wf
    | with_reducible apply State.dropFrame_wf
    | with_reducible apply State.updCore_wf
    | split

theorem State.holdLower_wf {s : State} (h0 : s.Wf) : State.Wf (State.holdLower s) := by
  unfold State.holdLower
  repeat' first
    | with_reducible assumption
    | (extract_lets +onlyGivenNames x; clear_value x)
    | with_reducible (refine mk_wf (mem_wf ?_); assumption)
    | split

theorem State.mapBytes_wf {s : State} {a : Nat} {n : Nat} {f : Nat → Bool} {g : Byte → Byte} (h0 : s.Wf) : State.Wf (State.mapBytes s a n f g) := by
  unfold State.mapBytes
  repeat' first
    | with_reducible assumption
    | intro _
    | with_reducible apply foldl_wf
    | with_reducible apply State.wrBytes_wf

theorem State.moveBytes_wf {s : State} {part : Nat} {src : List Nat} {dst : List Nat} (h0 : s.Wf) : okO (State.moveBytes s part src dst) := by
  unfold State.moveBytes
  repeat' first
    | with_reducible assumption
    | (show True; trivial)
    | intro _
    | (extract_lets +onlyGivenNames x; refine (fun (_ : State.Wf x) => ?_) ?_; clear_value x; rotate_left; subst x)
    | (extract_lets +onlyGivenNames x; clear_value x)
    | with_reducible apply okO_mk
    | with_reducible apply foldl_wf
    | with_reducible apply State.servedAll_wf
    | with_reducible apply State.closeLine_wf
    | with_reducible apply State.wrBytes_wf
    | split

theorem State.postVacate_wf {s : State} {poster : Nat} {kind : Nat} {id : Nat} {qmask : Nat} {deadline : Nat} {drop : Bool} {tag : Option Nat} (h0 : s.Wf) : okE (State.postVacate s poster kind id qmask deadline drop tag) := by
  unfold State.postVacate
  repeat' first
    | with_reducible assumption
    | (show True; trivial)
    | intro _
    | (extract_lets +onlyGivenNames x; clear_value x)
    | with_reducible apply okE_mk
    | with_reducible apply foldl_wf
    | with_reducible apply State.popFrames_wf
    | with_reducible apply State.applyChoice_wf
    | with_reducible apply State.holdLower_wf
    | with_reducible (refine mk_wf (mem_wf ?_); refine okOP_some (by assumption) ?_)
    | split

theorem State.releaseHeld_wf {s : State} (h0 : s.Wf) : State.Wf (State.releaseHeld s) := by
  unfold State.releaseHeld
  repeat' first
    | with_reducible assumption
    | (extract_lets +onlyGivenNames x; clear_value x)
    | with_reducible (refine mk_wf (mem_wf ?_); assumption)
    | split

theorem State.remoteFill_wf {s : State} {src : Nat} {part : Nat} {q : Nat} (h0 : s.Wf) : State.Wf (State.remoteFill s src part q) := by
  unfold State.remoteFill
  repeat' first
    | with_reducible assumption
    | with_reducible apply State.send_wf

theorem State.taken_wf {s : State} {key : Nat} {b : List Byte} {r : Option (Nat × Nat × Nat)} (h0 : s.Wf) : State.Wf (State.taken s key b r) := by
  unfold State.taken
  repeat' first
    | with_reducible assumption
    | with_reducible apply State.updQcb_wf

theorem State.ringDo_wf {s : State} {fn : Nat} {q : Nat} {opc : Nat} {f : List Byte → State → State × Nat × Nat × Nat} (h0 : s.Wf) (h4 : ∀ y0 y1, y1.Wf → State.Wf (f y0 y1).1) : State.Wf (State.ringDo s fn q opc f) := by
  unfold State.ringDo
  repeat' first
    | with_reducible assumption
    | with_reducible apply State.taken_wf
    | with_reducible apply h4
    | split

theorem State.ringMay_wf {s : State} {fn : Nat} {q : Nat} {opc : Nat} {f : List Byte → State → Option (State × Nat × Nat × Nat)} (h0 : s.Wf) (h4 : ∀ y0 y1, y1.Wf → okOP (f y0 y1)) : State.Wf (State.ringMay s fn q opc f) := by
  unfold State.ringMay
  repeat' first
    | with_reducible assumption
    | with_reducible apply State.taken_wf
    | with_reducible apply h4
    | with_reducible (refine mk_wf (mem_wf ?_); refine okOP_some (by assumption) ?_)
    | split

theorem State.roots_wf {s : State} {part : Nat} {l : Nat} {base : Nat} {a : Nat} {a' : Nat} (h0 : s.Wf) : okOP (State.roots s part l base a a') := by
  induction a generalizing s a' with
  | zero =>
    unfold State.roots
    repeat' first
      | with_reducible assumption
      | with_reducible apply okOP_mk
  | succ n ih =>
    unfold State.roots
    repeat' first
      | with_reducible assumption
      | (show True; trivial)
      | intro _
      | (extract_lets +onlyGivenNames x; refine (fun (hx : ∀ s b c, State.Wf s → okOP (x s b c)) => ?_) ?_; clear_value x; rotate_left; subst x)
      | (extract_lets +onlyGivenNames x; clear_value x)
      | with_reducible apply hx
      | with_reducible apply okOP_mk
      | with_reducible apply okOP_mapP
      | with_reducible apply State.create_wf
      | with_reducible apply ih
      | split
      | with_reducible refine okE_ok (by with_reducible assumption) ?_

theorem State.updDev_wf {s : State} {f : Dev → Dev} (h0 : s.Wf) : State.Wf (State.updDev s f) := by
  unfold State.updDev
  repeat' first
    | with_reducible (refine mk_wf (mem_wf ?_); assumption)

theorem State.setCl_wf {s : State} {cl : Nat} {v : Nat} (h0 : s.Wf) : State.Wf (State.setCl s cl v) := by
  unfold State.setCl
  repeat' first
    | with_reducible assumption
    | (extract_lets +onlyGivenNames x; refine (fun (_ : State.Wf x) => ?_) ?_; clear_value x; rotate_left; subst x)
    | with_reducible apply State.updDev_wf
    | with_reducible apply State.gate_wf
    | split

theorem State.spdm_wf {s : State} {kind : Nat} {need : Nat} {vals : List Nat} {level : Nat} (h0 : s.Wf) : State.Wf (State.spdm s kind need vals level) := by
  unfold State.spdm
  repeat' first
    | with_reducible assumption
    | with_reducible apply State.emit_wf
    | with_reducible apply State.updDev_wf
    | split

theorem State.startQueue_wf {s : State} {key : Nat} (h0 : s.Wf) : State.Wf (State.startQueue s key) := by
  unfold State.startQueue
  repeat' first
    | with_reducible assumption
    | intro _
    | (extract_lets +onlyGivenNames x; clear_value x)
    | with_reducible apply foldl_wf
    | with_reducible apply State.pushFrames_wf
    | with_reducible apply State.replaceEntry_wf
    | with_reducible apply State.updQcb_wf
    | split

theorem State.stopQueue_wf {s : State} {key : Nat} {mode : Nat} (h0 : s.Wf) : State.Wf (State.stopQueue s key mode) := by
  unfold State.stopQueue
  repeat' first
    | with_reducible assumption
    | with_reducible apply State.queueStopped_wf
    | with_reducible apply State.updQcb_wf
    | with_reducible apply State.saveQueue_wf
    | split

theorem State.stopCmd_wf {s : State} {fn : Nat} {q : Nat} {mode : Nat} {b : List Byte} {next : State → State} (h0 : s.Wf) (h5 : ∀ y0, y0.Wf → State.Wf (next y0)) : State.Wf (State.stopCmd s fn q mode b next) := by
  unfold State.stopCmd
  repeat' first
    | with_reducible assumption
    | (extract_lets +onlyGivenNames x; refine (fun (_ : State.Wf x) => ?_) ?_; clear_value x; rotate_left; subst x)
    | (extract_lets +onlyGivenNames x; clear_value x)
    | with_reducible apply State.taken_wf
    | with_reducible apply State.updQcb_wf
    | with_reducible apply State.stopQueue_wf
    | with_reducible apply h5
    | split

theorem State.takeLaunch_wf {s : State} {fn : Nat} {q : Nat} {part : Nat} {b : List Byte} (h0 : s.Wf) : okOEP (State.takeLaunch s fn q part b) := by
  unfold State.takeLaunch
  repeat' first
    | with_reducible assumption
    | (show True; trivial)
    | (extract_lets +onlyGivenNames x; refine (fun (_ : State.Wf x) => ?_) ?_; clear_value x; rotate_left; subst x)
    | (extract_lets +onlyGivenNames x; clear_value x)
    | with_reducible (refine mk_wf (mem_wf ?_); assumption)
    | with_reducible apply okOEP_mk
    | with_reducible apply State.roots_wf
    | with_reducible (refine mk_wf (mem_wf ?_); refine okOP_some (by assumption) ?_)
    | split

theorem State.tellOmfin_wf {s : State} {op : Nat} {status : Nat} {field : Nat} {result : Nat} (h0 : s.Wf) : State.Wf (State.tellOmfin s op status field result) := by
  unfold State.tellOmfin
  repeat' first
    | with_reducible assumption
    | with_reducible apply State.emit_wf

theorem State.writeQcb_wf {s : State} {key : Nat} {off : Nat} {size : Nat} {v : Nat} (h0 : s.Wf) : State.Wf (State.writeQcb s key off size v) := by
  unfold State.writeQcb
  repeat' first
    | with_reducible assumption
    | with_reducible apply State.updQcb_wf

theorem State.writeBlock_wf {s : State} {fn : Nat} {off : Nat} {size : Nat} {v : Nat} (h0 : s.Wf) : State.Wf (State.writeBlock s fn off size v) := by
  unfold State.writeBlock
  repeat' first
    | with_reducible assumption
    | intro _
    | with_reducible apply State.writeQcb_wf
    | with_reducible apply prqresp_wf
    | with_reducible apply genbump_wf
    | with_reducible apply State.updDev_wf
    | with_reducible apply State.updPart_wf
    | with_reducible apply writeRegs_trigger_wf
    | with_reducible apply writeRegs_cons_wf
    | with_reducible apply writeRegs_append_wf
    | with_reducible apply writeRegs_nil_wf
    | split

theorem State.writeList_wf {s : State} {es : List (Nat × RdqE)} {fs : List Nat} (h0 : s.Wf) : State.Wf (State.writeList s es fs) := by
  unfold State.writeList
  repeat' first
    | with_reducible assumption
    | intro _
    | (extract_lets +onlyGivenNames x; clear_value x)
    | with_reducible apply foldl_wf
    | with_reducible apply State.wrBytes_wf

theorem State.writeLists_wf {s : State} {n : Nat} {v : Vacate} (h0 : s.Wf) : State.Wf (State.writeLists s n v) := by
  unfold State.writeLists
  repeat' first
    | with_reducible assumption
    | intro _
    | (extract_lets +onlyGivenNames x; clear_value x)
    | with_reducible apply foldl_wf
    | with_reducible apply State.updVacate_wf
    | with_reducible apply State.writeList_wf
    | split

theorem State.writePmc_wf {s : State} {off : Nat} {size : Nat} {v : Nat} (h0 : s.Wf) : State.Wf (State.writePmc s off size v) := by
  unfold State.writePmc
  repeat' first
    | with_reducible assumption
    | intro _
    | (extract_lets +onlyGivenNames x; refine (fun (hx : ∀ s b, State.Wf s → State.Wf (x s b)) => ?_) ?_; clear_value x; rotate_left; subst x)
    | (extract_lets +onlyGivenNames x; clear_value x)
    | with_reducible apply hx
    | with_reducible (refine mk_wf (mem_wf ?_); assumption)
    | with_reducible apply writeRegs_cons_wf
    | with_reducible apply writeRegs_nil_wf

theorem partitionDisable_wf {writer : Nat} {part : Nat} {s : State} (h2 : s.Wf) : State.Wf (partitionDisable writer part s) := by
  unfold partitionDisable
  repeat' first
    | with_reducible assumption
    | with_reducible apply State.updPart_wf
    | split

theorem partitionEnable_wf {writer : Nat} {part : Nat} {s : State} (h2 : s.Wf) : State.Wf (partitionEnable writer part s) := by
  unfold partitionEnable
  repeat' first
    | with_reducible assumption
    | (extract_lets +onlyGivenNames x; clear_value x)
    | with_reducible apply State.updPart_wf
    | split

theorem State.writeTable_wf {s : State} {writer : Nat} {part : Nat} {off : Nat} {size : Nat} {v : Nat} (h0 : s.Wf) : State.Wf (State.writeTable s writer part off size v) := by
  unfold State.writeTable
  repeat' first
    | with_reducible assumption
    | intro _
    | (extract_lets +onlyGivenNames x; refine (fun (_ : State.Wf x) => ?_) ?_; clear_value x; rotate_left; subst x)
    | (extract_lets +onlyGivenNames x; clear_value x)
    | with_reducible apply foldl_wf
    | with_reducible apply State.updPart_wf
    | with_reducible apply State.setBucket_wf
    | with_reducible apply partitionDisable_wf
    | with_reducible apply partitionEnable_wf
    | split

theorem ownclaim_wf {writer : Nat} {v : Nat} {s : State} (h2 : s.Wf) : State.Wf (ownclaim writer v s) := by
  unfold ownclaim
  repeat' first
    | with_reducible assumption
    | with_reducible apply State.updDev_wf
    | split

theorem handover_wf {writer : Nat} {v : Nat} {s : State} (h2 : s.Wf) : State.Wf (handover writer v s) := by
  unfold handover
  repeat' first
    | with_reducible assumption
    | with_reducible apply State.updDev_wf
    | split

theorem opreq_wf {writer : Nat} {v : Nat} {s : State} (h2 : s.Wf) : State.Wf (opreq writer v s) := by
  unfold opreq
  repeat' first
    | with_reducible assumption
    | (extract_lets +onlyGivenNames x; clear_value x)
    | with_reducible apply State.updDev_wf
    | split

theorem clstate_wf {writer : Nat} {v : Nat} {s : State} (h2 : s.Wf) : State.Wf (clstate writer v s) := by
  unfold clstate
  repeat' first
    | with_reducible assumption
    | intro _
    | with_reducible apply foldl_wf
    | with_reducible apply State.updDev_wf
    | with_reducible apply State.setCl_wf
    | split

theorem State.writePf_wf {s : State} {writer : Nat} {off : Nat} {size : Nat} {v : Nat} (h0 : s.Wf) : State.Wf (State.writePf s writer off size v) := by
  unfold State.writePf
  repeat' first
    | with_reducible assumption
    | intro _
    | (extract_lets +onlyGivenNames x; refine (fun (hx : ∀ s b, State.Wf s → State.Wf (x s b)) => ?_) ?_; clear_value x; rotate_left; subst x)
    | (extract_lets +onlyGivenNames x; clear_value x)
    | with_reducible apply hx
    | with_reducible apply foldl_wf
    | with_reducible apply State.updDev_wf
    | with_reducible apply State.writeBlock_wf
    | with_reducible apply State.writePmc_wf
    | with_reducible apply State.writeTable_wf
    | with_reducible apply ownclaim_wf
    | with_reducible apply handover_wf
    | with_reducible apply opreq_wf
    | with_reducible apply clstate_wf
    | with_reducible apply writeRegs_trigger_wf
    | with_reducible apply writeRegs_cons_wf
    | with_reducible apply writeRegs_nil_wf
    | (dsimp -zeta only)
    | split

theorem bootStage_wf {ok : Nat} {s : State} (h1 : s.Wf) : State.Wf (bootStage ok s) := by
  unfold bootStage
  repeat' first
    | with_reducible assumption
    | with_reducible apply State.updDev_wf
    | with_reducible apply State.msix_wf
    | split

theorem bucketRefill_wf {s : State} (h0 : s.Wf) : State.Wf (bucketRefill s) := by
  unfold bucketRefill
  repeat' first
    | with_reducible assumption
    | intro _
    | with_reducible apply foldl_wf
    | with_reducible apply State.refill_wf
    | with_reducible apply State.updDev_wf
    | split

theorem clusterWake_wf {cl : Nat} {s : State} (h1 : s.Wf) : State.Wf (clusterWake cl s) := by
  unfold clusterWake
  repeat' first
    | with_reducible assumption
    | with_reducible apply State.updDev_wf
    | split

theorem copyCmd_wf {fn : Nat} {q : Nat} {s : State} (h2 : s.Wf) : State.Wf (copyCmd fn q s) := by
  unfold copyCmd
  repeat' first
    | with_reducible assumption
    | intro _
    | (extract_lets +onlyGivenNames x; clear_value x)
    | with_reducible apply okOP_mk
    | with_reducible apply okOP_mapO
    | with_reducible apply State.ringMay_wf
    | with_reducible apply State.moveBytes_wf
    | split

theorem descriptorCmd_wf {fn : Nat} {q : Nat} {s : State} (h2 : s.Wf) : State.Wf (descriptorCmd fn q s) := by
  unfold descriptorCmd
  repeat' first
    | with_reducible assumption
    | intro _
    | (extract_lets +onlyGivenNames x; clear_value x)
    | with_reducible apply State.ringDo_wf
    | with_reducible apply State.setDesc_wf
    | split

theorem doorbell_wf {fn : Nat} {q : Nat} {v : Nat} {s : State} (h3 : s.Wf) : State.Wf (doorbell fn q v s) := by
  unfold doorbell
  repeat' first
    | with_reducible assumption
    | with_reducible apply State.updQcb_wf
    | split

theorem turn_wf {s : State} (h0 : s.Wf) : Res.Wf (turn s) := by
  unfold turn
  split
  · split
    · exact forcedSave_wf h0
    · split
      · exact handlerWatchdog_wf h0
      · exact issue_wf h0
  · show State.Wf (if _ then _ else _)
    split
    · exact forcedSave_wf h0
    · exact coreTurn_wf h0
  · exact coreTurn_wf h0

theorem execStalledBundleCommit_wf {core : Nat} {s : State} (h1 : s.Wf) : Res.Wf (execStalledBundleCommit core s) := by
  unfold execStalledBundleCommit
  extract_lets t
  split
  · exact turn_wf h1
  · exact h1

theorem safeDistance_wf {s : State} (h0 : s.Wf) : State.Wf (safeDistance s) := by
  unfold safeDistance
  repeat' first
    | with_reducible assumption
    | with_reducible apply State.updMe_wf
    | split

theorem execSafeDistanceWatchdog_wf {core : Nat} {s : State} (h1 : s.Wf) : Res.Wf (execSafeDistanceWatchdog core s) := by
  unfold execSafeDistanceWatchdog
  repeat' first
    | with_reducible (refine mk_wf (mem_wf ?_); assumption)
    | with_reducible apply next_wf
    | with_reducible apply safeDistance_wf

theorem frameReceive_wf {crc : Nat} {src : Nat} {kind : Nat} {a : Nat} {v : Nat} {s : State} (h5 : s.Wf) : State.Wf (frameReceive crc src kind a v s) := by
  unfold frameReceive
  repeat' first
    | with_reducible assumption
    | with_reducible apply State.remoteFill_wf
    | with_reducible apply State.send_wf
    | with_reducible apply State.emit_wf
    | with_reducible apply State.writePf_wf
    | split

theorem execShunerFrameReceive_wf {crc : Nat} {src : Nat} {kind : Nat} {a : Nat} {v : Nat} {s : State} (h5 : s.Wf) : Res.Wf (execShunerFrameReceive crc src kind a v s) := by
  unfold execShunerFrameReceive
  repeat' first
    | with_reducible assumption
    | with_reducible apply next_wf
    | with_reducible apply frameReceive_wf

theorem vacate_wf {poster : Nat} {kind : Nat} {id : Nat} {qmask : Nat} {deadline : Nat} {drop : Nat} {s : State} (h6 : s.Wf) : State.Wf (vacate poster kind id qmask deadline drop s) := by
  unfold vacate
  repeat' first
    | with_reducible assumption
    | (extract_lets +onlyGivenNames x; clear_value x)
    | with_reducible apply State.postVacate_wf
    | with_reducible apply State.taken_wf
    | with_reducible apply State.tellOmfin_wf
    | split
    | with_reducible refine okE_ok (by with_reducible assumption) ?_

theorem execVacate_wf {poster : Nat} {kind : Nat} {id : Nat} {qmask : Nat} {deadline : Nat} {drop : Nat} {s : State} (h6 : s.Wf) : Res.Wf (execVacate poster kind id qmask deadline drop s) := by
  unfold execVacate
  repeat' first
    | with_reducible assumption
    | with_reducible apply next_wf
    | with_reducible apply vacate_wf

theorem sageEvaluation_wf {n : Nat} {s : State} (h1 : s.Wf) : State.Wf (sageEvaluation n s) := by
  unfold sageEvaluation
  repeat' first
    | with_reducible assumption
    | intro _
    | (extract_lets +onlyGivenNames x; refine (fun (_ : State.Wf x) => ?_) ?_; clear_value x; rotate_left; subst x)
    | with_reducible apply foldl_wf
    | with_reducible apply State.evalQueue_wf
    | with_reducible apply State.updVacate_wf
    | with_reducible apply State.clearTarget_wf
    | split

theorem execSageEvaluation_wf {n : Nat} {s : State} (h1 : s.Wf) : Res.Wf (execSageEvaluation n s) := by
  unfold execSageEvaluation
  repeat' first
    | with_reducible assumption
    | with_reducible apply next_wf
    | with_reducible apply sageEvaluation_wf

theorem vacancy_wf {n : Nat} {s : State} (h1 : s.Wf) : State.Wf (vacancy n s) := by
  unfold vacancy
  repeat' first
    | with_reducible assumption
    | (extract_lets +onlyGivenNames x; refine (fun (_ : State.Wf x) => ?_) ?_; clear_value x; rotate_left; subst x)
    | (extract_lets +onlyGivenNames x; clear_value x)
    | with_reducible apply State.writeLists_wf
    | with_reducible apply State.releaseHeld_wf
    | with_reducible apply State.updVacate_wf
    | with_reducible apply State.pushFrames_wf
    | with_reducible apply State.updQcb_wf
    | with_reducible apply State.post_wf
    | with_reducible apply State.tellOmfin_wf
    | split

theorem execVacancy_wf {n : Nat} {s : State} (h1 : s.Wf) : Res.Wf (execVacancy n s) := by
  unfold execVacancy
  repeat' first
    | with_reducible assumption
    | with_reducible apply next_wf
    | with_reducible apply vacancy_wf

theorem resume_wf {poster : Nat} {kind : Nat} {id : Nat} {qmask : Nat} {s : State} (h4 : s.Wf) : State.Wf (resume poster kind id qmask s) := by
  unfold resume
  repeat' first
    | with_reducible assumption
    | (extract_lets +onlyGivenNames x; refine (fun (_ : State.Wf x.1) => ?_) ?_; clear_value x; rotate_left; subst x)
    | (extract_lets +onlyGivenNames x; clear_value x)
    | with_reducible apply State.doResume_wf
    | with_reducible apply State.taken_wf
    | with_reducible apply State.tellOmfin_wf
    | split

theorem execResume_wf {poster : Nat} {kind : Nat} {id : Nat} {qmask : Nat} {s : State} (h4 : s.Wf) : Res.Wf (execResume poster kind id qmask s) := by
  unfold execResume
  repeat' first
    | with_reducible assumption
    | with_reducible apply next_wf
    | with_reducible apply resume_wf

theorem qstart_wf {fn : Nat} {q : Nat} {s : State} (h2 : s.Wf) : State.Wf (qstart fn q s) := by
  unfold qstart
  repeat' first
    | with_reducible assumption
    | with_reducible apply State.taken_wf
    | with_reducible apply State.startQueue_wf
    | split

theorem execQstart_wf {fn : Nat} {q : Nat} {s : State} (h2 : s.Wf) : Res.Wf (execQstart fn q s) := by
  unfold execQstart
  repeat' first
    | with_reducible assumption
    | with_reducible apply next_wf
    | with_reducible apply qstart_wf

theorem qstop_wf {fn : Nat} {q : Nat} {mode : Nat} {s : State} (h3 : s.Wf) : State.Wf (qstop fn q mode s) := by
  unfold qstop
  repeat' first
    | with_reducible assumption
    | intro _
    | with_reducible apply id_wf
    | with_reducible apply State.stopCmd_wf
    | split

theorem execQstopDrain_wf {fn : Nat} {q : Nat} {s : State} (h2 : s.Wf) : Res.Wf (execQstopDrain fn q s) := by
  unfold execQstopDrain
  repeat' first
    | with_reducible assumption
    | with_reducible apply next_wf
    | with_reducible apply qstop_wf

theorem execQstopSave_wf {fn : Nat} {q : Nat} {s : State} (h2 : s.Wf) : Res.Wf (execQstopSave fn q s) := by
  unfold execQstopSave
  repeat' first
    | with_reducible assumption
    | with_reducible apply next_wf
    | with_reducible apply qstop_wf

theorem qswap_wf {fn : Nat} {q : Nat} {q2 : Nat} {mode : Nat} {s : State} (h4 : s.Wf) : State.Wf (qswap fn q q2 mode s) := by
  unfold qswap
  repeat' first
    | with_reducible assumption
    | intro _
    | (extract_lets +onlyGivenNames x; clear_value x)
    | with_reducible apply State.stopCmd_wf
    | with_reducible apply State.startQueue_wf
    | with_reducible apply State.taken_wf
    | split

theorem execQswap_wf {fn : Nat} {q : Nat} {q2 : Nat} {mode : Nat} {s : State} (h4 : s.Wf) : Res.Wf (execQswap fn q q2 mode s) := by
  unfold execQswap
  repeat' first
    | with_reducible assumption
    | with_reducible apply next_wf
    | with_reducible apply qswap_wf

theorem loadCmd_wf {fn : Nat} {q : Nat} {s : State} (h2 : s.Wf) : State.Wf (loadCmd fn q s) := by
  unfold loadCmd
  repeat' first
    | with_reducible assumption
    | (show True; trivial)
    | intro _
    | (extract_lets +onlyGivenNames x; refine (fun (_ : State.Wf x) => ?_) ?_; clear_value x; rotate_left; subst x)
    | (extract_lets +onlyGivenNames x; clear_value x)
    | with_reducible (refine mk_wf (mem_wf ?_); assumption)
    | with_reducible apply okOP_mk
    | with_reducible apply State.ringMay_wf
    | with_reducible apply State.moveBytes_wf
    | with_reducible apply State.addRegions_wf
    | split
    | with_reducible refine okO_some (by with_reducible assumption) ?_

theorem execLoad_wf {fn : Nat} {q : Nat} {s : State} (h2 : s.Wf) : Res.Wf (execLoad fn q s) := by
  unfold execLoad
  repeat' first
    | with_reducible assumption
    | with_reducible apply next_wf
    | with_reducible apply loadCmd_wf

theorem unloadCmd_wf {fn : Nat} {q : Nat} {s : State} (h2 : s.Wf) : State.Wf (unloadCmd fn q s) := by
  unfold unloadCmd
  repeat' first
    | with_reducible assumption
    | intro _
    | (extract_lets +onlyGivenNames x; refine (fun (_ : State.Wf x) => ?_) ?_; clear_value x; rotate_left; subst x)
    | (extract_lets +onlyGivenNames x; clear_value x)
    | with_reducible (refine mk_wf (mem_wf ?_); assumption)
    | with_reducible apply foldl_wf
    | with_reducible apply State.ringDo_wf
    | with_reducible apply State.clearRegion_wf
    | split

theorem execUnload_wf {fn : Nat} {q : Nat} {s : State} (h2 : s.Wf) : Res.Wf (execUnload fn q s) := by
  unfold execUnload
  repeat' first
    | with_reducible assumption
    | with_reducible apply next_wf
    | with_reducible apply unloadCmd_wf

theorem execDescriptorCommand_wf {fn : Nat} {q : Nat} {s : State} (h2 : s.Wf) : Res.Wf (execDescriptorCommand fn q s) := by
  unfold execDescriptorCommand
  repeat' first
    | with_reducible assumption
    | with_reducible apply next_wf
    | with_reducible apply descriptorCmd_wf

theorem launchCmd_wf {fn : Nat} {q : Nat} {s : State} (h2 : s.Wf) : State.Wf (launchCmd fn q s) := by
  unfold launchCmd
  repeat' first
    | with_reducible assumption
    | (extract_lets +onlyGivenNames x; refine (fun (_ : State.Wf x) => ?_) ?_; clear_value x; rotate_left; subst x)
    | (extract_lets +onlyGivenNames x; clear_value x)
    | with_reducible apply State.takeLaunch_wf
    | with_reducible apply State.taken_wf
    | with_reducible apply State.endLaunch_wf
    | with_reducible refine okOEP_ok (by with_reducible assumption) ?_
    | split

theorem execLaunch_wf {fn : Nat} {q : Nat} {s : State} (h2 : s.Wf) : Res.Wf (execLaunch fn q s) := by
  unfold execLaunch
  repeat' first
    | with_reducible assumption
    | with_reducible apply next_wf
    | with_reducible apply launchCmd_wf

theorem execCopy_wf {fn : Nat} {q : Nat} {s : State} (h2 : s.Wf) : Res.Wf (execCopy fn q s) := by
  unfold execCopy
  repeat' first
    | with_reducible assumption
    | with_reducible apply next_wf
    | with_reducible apply copyCmd_wf

theorem execDoorbell_wf {fn : Nat} {q : Nat} {v : Nat} {s : State} (h3 : s.Wf) : Res.Wf (execDoorbell fn q v s) := by
  unfold execDoorbell
  repeat' first
    | with_reducible assumption
    | with_reducible apply next_wf
    | with_reducible apply doorbell_wf

theorem execOwnclaim_wf {writer : Nat} {v : Nat} {s : State} (h2 : s.Wf) : Res.Wf (execOwnclaim writer v s) := by
  unfold execOwnclaim
  repeat' first
    | with_reducible assumption
    | with_reducible apply next_wf
    | with_reducible apply ownclaim_wf

theorem execHandover_wf {writer : Nat} {v : Nat} {s : State} (h2 : s.Wf) : Res.Wf (execHandover writer v s) := by
  unfold execHandover
  repeat' first
    | with_reducible assumption
    | with_reducible apply next_wf
    | with_reducible apply handover_wf

theorem execOpreq_wf {writer : Nat} {v : Nat} {s : State} (h2 : s.Wf) : Res.Wf (execOpreq writer v s) := by
  unfold execOpreq
  repeat' first
    | with_reducible assumption
    | with_reducible apply next_wf
    | with_reducible apply opreq_wf

theorem opSwitch_wf {s : State} (h0 : s.Wf) : State.Wf (opSwitch s) := by
  unfold opSwitch
  repeat' first
    | with_reducible assumption
    | with_reducible apply State.updDev_wf
    | split

theorem execOperatingPointSwitch_wf {s : State} (h0 : s.Wf) : Res.Wf (execOperatingPointSwitch s) := by
  unfold execOperatingPointSwitch
  repeat' first
    | with_reducible assumption
    | with_reducible apply next_wf
    | with_reducible apply opSwitch_wf

theorem execClstate_wf {writer : Nat} {v : Nat} {s : State} (h2 : s.Wf) : Res.Wf (execClstate writer v s) := by
  unfold execClstate
  repeat' first
    | with_reducible assumption
    | with_reducible apply next_wf
    | with_reducible apply clstate_wf

theorem execClusterWake_wf {cluster : Nat} {s : State} (h1 : s.Wf) : Res.Wf (execClusterWake cluster s) := by
  unfold execClusterWake
  repeat' first
    | with_reducible assumption
    | with_reducible apply next_wf
    | with_reducible apply clusterWake_wf

theorem execPartitionEnable_wf {writer : Nat} {part : Nat} {s : State} (h2 : s.Wf) : Res.Wf (execPartitionEnable writer part s) := by
  unfold execPartitionEnable
  repeat' first
    | with_reducible assumption
    | with_reducible apply next_wf
    | with_reducible apply partitionEnable_wf

theorem execPartitionDisable_wf {writer : Nat} {part : Nat} {s : State} (h2 : s.Wf) : Res.Wf (execPartitionDisable writer part s) := by
  unfold execPartitionDisable
  repeat' first
    | with_reducible assumption
    | with_reducible apply next_wf
    | with_reducible apply partitionDisable_wf

theorem partitionReset_wf {writer : Nat} {part : Nat} {s : State} (h2 : s.Wf) : State.Wf (partitionReset writer part s) := by
  unfold partitionReset
  repeat' first
    | with_reducible assumption
    | (extract_lets +onlyGivenNames x; refine (fun (_ : State.Wf x) => ?_) ?_; clear_value x; rotate_left; subst x)
    | (extract_lets +onlyGivenNames x; clear_value x)
    | with_reducible (refine mk_wf (mem_wf ?_); assumption)
    | with_reducible apply State.mapBytes_wf
    | with_reducible apply State.setRings_wf
    | with_reducible apply State.updPart_wf
    | split

theorem execPartitionReset_wf {writer : Nat} {part : Nat} {s : State} (h2 : s.Wf) : Res.Wf (execPartitionReset writer part s) := by
  unfold execPartitionReset
  repeat' first
    | with_reducible assumption
    | with_reducible apply next_wf
    | with_reducible apply partitionReset_wf

theorem ptpMessage_wf {neg : Nat} {offs : Nat} {slew : Nat} {s : State} (h3 : s.Wf) : State.Wf (ptpMessage neg offs slew s) := by
  unfold ptpMessage
  repeat' first
    | with_reducible assumption
    | (extract_lets +onlyGivenNames x; clear_value x)
    | with_reducible apply State.updDev_wf
    | split

theorem execPtpMessage_wf {neg : Nat} {offs : Nat} {slew : Nat} {s : State} (h3 : s.Wf) : Res.Wf (execPtpMessage neg offs slew s) := by
  unfold execPtpMessage
  repeat' first
    | with_reducible assumption
    | with_reducible apply next_wf
    | with_reducible apply ptpMessage_wf

theorem ptpTimeout_wf {s : State} (h0 : s.Wf) : State.Wf (ptpTimeout s) := by
  unfold ptpTimeout
  repeat' first
    | with_reducible assumption
    | with_reducible apply State.updDev_wf
    | split

theorem execPtpSyncTimeout_wf {s : State} (h0 : s.Wf) : Res.Wf (execPtpSyncTimeout s) := by
  unfold execPtpSyncTimeout
  repeat' first
    | with_reducible assumption
    | with_reducible apply next_wf
    | with_reducible apply ptpTimeout_wf

theorem execBucketRefill_wf {s : State} (h0 : s.Wf) : Res.Wf (execBucketRefill s) := by
  unfold execBucketRefill
  repeat' first
    | with_reducible assumption
    | with_reducible apply next_wf
    | with_reducible apply bucketRefill_wf

theorem execFloorSegmentClose_wf {s : State} (h0 : s.Wf) : Res.Wf (execFloorSegmentClose s) := by
  unfold execFloorSegmentClose
  repeat' first
    | with_reducible (refine mk_wf (mem_wf ?_); assumption)
    | with_reducible apply next_wf

theorem thermalTrip_wf {s : State} (h0 : s.Wf) : State.Wf (thermalTrip s) := by
  unfold thermalTrip
  repeat' first
    | with_reducible assumption
    | with_reducible apply State.emit_wf
    | with_reducible apply State.msix_wf
    | with_reducible apply State.updDev_wf
    | with_reducible apply State.cleared_wf
    | split

theorem execHardThermalTrip_wf {s : State} (h0 : s.Wf) : Res.Wf (execHardThermalTrip s) := by
  unfold execHardThermalTrip
  repeat' first
    | with_reducible assumption
    | with_reducible apply next_wf
    | with_reducible apply thermalTrip_wf

theorem execPackageReset_wf {s : State} (h0 : s.Wf) : Res.Wf (execPackageReset s) := by
  unfold execPackageReset
  repeat' first
    | with_reducible assumption
    | with_reducible apply next_wf
    | with_reducible apply State.cleared_wf

theorem execPowerOnReset_wf {s : State} (h0 : s.Wf) : Res.Wf (execPowerOnReset s) := by
  unfold execPowerOnReset
  repeat' first
    | with_reducible assumption
    | with_reducible apply next_wf
    | with_reducible apply State.cleared_wf

theorem flr_wf {fn : Nat} {s : State} (h1 : s.Wf) : State.Wf (flr fn s) := by
  unfold flr
  repeat' first
    | with_reducible assumption
    | intro _
    | (extract_lets +onlyGivenNames x; refine (fun (_ : State.Wf x) => ?_) ?_; clear_value x; rotate_left; subst x)
    | (extract_lets +onlyGivenNames x; clear_value x)
    | with_reducible (refine mk_wf (mem_wf ?_); assumption)
    | with_reducible apply foldl_wf
    | with_reducible apply State.discardQueue_wf
    | with_reducible apply State.updDev_wf
    | split

theorem execFunctionLevelReset_wf {fn : Nat} {s : State} (h1 : s.Wf) : Res.Wf (execFunctionLevelReset fn s) := by
  unfold execFunctionLevelReset
  repeat' first
    | with_reducible assumption
    | with_reducible apply next_wf
    | with_reducible apply flr_wf

theorem execBootStage_wf {ok : Nat} {s : State} (h1 : s.Wf) : Res.Wf (execBootStage ok s) := by
  unfold execBootStage
  repeat' first
    | with_reducible assumption
    | with_reducible apply next_wf
    | with_reducible apply bootStage_wf

theorem execGetVersion_wf {s : State} (h0 : s.Wf) : Res.Wf (execGetVersion s) := by
  unfold execGetVersion
  repeat' first
    | with_reducible assumption
    | with_reducible apply next_wf
    | with_reducible apply State.spdm_wf

theorem execGetCapabilities_wf {s : State} (h0 : s.Wf) : Res.Wf (execGetCapabilities s) := by
  unfold execGetCapabilities
  repeat' first
    | with_reducible assumption
    | with_reducible apply next_wf
    | with_reducible apply State.spdm_wf

theorem execNegotiateAlgorithms_wf {s : State} (h0 : s.Wf) : Res.Wf (execNegotiateAlgorithms s) := by
  unfold execNegotiateAlgorithms
  repeat' first
    | with_reducible assumption
    | with_reducible apply next_wf
    | with_reducible apply State.spdm_wf

theorem execGetDigests_wf {s : State} (h0 : s.Wf) : Res.Wf (execGetDigests s) := by
  unfold execGetDigests
  repeat' first
    | with_reducible assumption
    | with_reducible apply next_wf
    | with_reducible apply State.spdm_wf

theorem execGetCertificate_wf {s : State} (h0 : s.Wf) : Res.Wf (execGetCertificate s) := by
  unfold execGetCertificate
  repeat' first
    | with_reducible assumption
    | with_reducible apply next_wf
    | with_reducible apply State.spdm_wf

theorem execChallenge_wf {nonce : Nat} {s : State} (h1 : s.Wf) : Res.Wf (execChallenge nonce s) := by
  unfold execChallenge
  repeat' first
    | with_reducible assumption
    | with_reducible apply next_wf
    | with_reducible apply State.draw_wf
    | with_reducible apply State.spdm_wf

theorem execGetMeasurements_wf {ix : Nat} {s : State} (h1 : s.Wf) : Res.Wf (execGetMeasurements ix s) := by
  unfold execGetMeasurements
  repeat' first
    | with_reducible assumption
    | with_reducible apply next_wf
    | with_reducible apply State.spdm_wf

theorem registerWrite_wf {writer : Nat} {fn : Nat} {off : Nat} {size : Nat} {v : Nat} {s : State} (h5 : s.Wf) : State.Wf (registerWrite writer fn off size v s) := by
  unfold registerWrite
  repeat' first
    | with_reducible assumption
    | with_reducible apply State.writePf_wf
    | with_reducible apply State.writeBlock_wf
    | split

theorem execRegisterWrite_wf {writer : Nat} {fn : Nat} {off : Nat} {size : Nat} {v : Nat} {s : State} (h5 : s.Wf) : Res.Wf (execRegisterWrite writer fn off size v s) := by
  unfold execRegisterWrite
  repeat' first
    | with_reducible assumption
    | with_reducible apply next_wf
    | with_reducible apply registerWrite_wf

theorem execEmptyBundle_wf {rep sticky sv0 sv1 sl : Nat} {s : State} (h5 : s.Wf) : Res.Wf (execEmptyBundle rep sticky sv0 sv1 sl s) := by
  unfold execEmptyBundle
  split
  · trivial
  · exact runFetched_wf readBundle_wf h5

theorem execCorrectedError_wf {unit : Nat} {x : Nat} {s : State} (h2 : s.Wf) : Res.Wf (execCorrectedError unit x s) := by
  unfold execCorrectedError
  repeat' first
    | with_reducible assumption
    | with_reducible apply next_wf
    | with_reducible apply State.countEv_wf
    | split

theorem execThermalSensorUpdate_wf {v : Nat} {s : State} (h1 : s.Wf) : Res.Wf (execThermalSensorUpdate v s) := by
  unfold execThermalSensorUpdate
  repeat' first
    | with_reducible assumption
    | with_reducible apply next_wf
    | with_reducible apply State.updDev_wf

theorem execPtimeAdvance_wf {s : State} (h0 : s.Wf) : Res.Wf (execPtimeAdvance s) := by
  unfold execPtimeAdvance
  repeat' first
    | with_reducible assumption
    | with_reducible apply next_wf
    | with_reducible apply State.updDev_wf

theorem ringComplete_wf {fn : Nat} {q : Nat} {s : State} (h2 : s.Wf) : State.Wf (ringComplete fn q s) := by
  unfold ringComplete
  repeat' first
    | with_reducible assumption
    | (extract_lets +onlyGivenNames x; clear_value x)
    | with_reducible apply State.updQcb_wf
    | with_reducible apply State.post_wf
    | with_reducible apply State.taken_wf
    | split

theorem execRingCommandCompletion_wf {fn : Nat} {q : Nat} {s : State} (h2 : s.Wf) : Res.Wf (execRingCommandCompletion fn q s) := by
  unfold execRingCommandCompletion
  repeat' first
    | with_reducible assumption
    | with_reducible apply next_wf
    | with_reducible apply ringComplete_wf

theorem runCore_wf {k : Nat} {s : State} (h1 : s.Wf) : Res.Wf (runCore k s) := by
  unfold runCore
  extract_lets t
  split
  · exact turn_wf h1
  · exact h1

end Sys2Proof.Machine
end

