-- ==== Sys2Proof/Laws/State.lean ====
section
/-! SUPPORT. What each update of the state leaves in each field, and the reads of cores, clusters and partitions after updates. -/

namespace Sys2Proof.Machine

@[simp] theorem State.setCore_clusters (s : State) (k : Nat) (c : Core) : (s.setCore k c).clusters = s.clusters := rfl
@[simp] theorem State.setCore_homes (s : State) (k : Nat) (c : Core) : (s.setCore k c).homes = s.homes := rfl
@[simp] theorem State.setCore_msgs (s : State) (k : Nat) (c : Core) : (s.setCore k c).msgs = s.msgs := rfl
@[simp] theorem State.setCore_mem (s : State) (k : Nat) (c : Core) : (s.setCore k c).mem = s.mem := rfl
@[simp] theorem State.setCore_recs (s : State) (k : Nat) (c : Core) : (s.setCore k c).recs = s.recs := rfl
@[simp] theorem State.setCore_wq (s : State) (k : Nat) (c : Core) : (s.setCore k c).wq = s.wq := rfl
@[simp] theorem State.setCore_parts (s : State) (k : Nat) (c : Core) : (s.setCore k c).parts = s.parts := rfl
@[simp] theorem State.setCore_bcs (s : State) (k : Nat) (c : Core) : (s.setCore k c).bcs = s.bcs := rfl
@[simp] theorem State.setCore_launches (s : State) (k : Nat) (c : Core) : (s.setCore k c).launches = s.launches := rfl
@[simp] theorem State.setCore_nextLaunch (s : State) (k : Nat) (c : Core) : (s.setCore k c).nextLaunch = s.nextLaunch := rfl
@[simp] theorem State.setCore_codes (s : State) (k : Nat) (c : Core) : (s.setCore k c).codes = s.codes := rfl
@[simp] theorem State.setCore_nextCode (s : State) (k : Nat) (c : Core) : (s.setCore k c).nextCode = s.nextCode := rfl
@[simp] theorem State.setCore_rings (s : State) (k : Nat) (c : Core) : (s.setCore k c).rings = s.rings := rfl
@[simp] theorem State.setCore_gangs (s : State) (k : Nat) (c : Core) : (s.setCore k c).gangs = s.gangs := rfl
@[simp] theorem State.setCore_gvas (s : State) (k : Nat) (c : Core) : (s.setCore k c).gvas = s.gvas := rfl
@[simp] theorem State.setCore_prq (s : State) (k : Nat) (c : Core) : (s.setCore k c).prq = s.prq := rfl
@[simp] theorem State.setCore_qcbs (s : State) (k : Nat) (c : Core) : (s.setCore k c).qcbs = s.qcbs := rfl
@[simp] theorem State.setCore_vacates (s : State) (k : Nat) (c : Core) : (s.setCore k c).vacates = s.vacates := rfl
@[simp] theorem State.setCore_savedZ (s : State) (k : Nat) (c : Core) : (s.setCore k c).savedZ = s.savedZ := rfl
@[simp] theorem State.setCore_savedT (s : State) (k : Nat) (c : Core) : (s.setCore k c).savedT = s.savedT := rfl
@[simp] theorem State.setCore_hptr (s : State) (k : Nat) (c : Core) : (s.setCore k c).hptr = s.hptr := rfl
@[simp] theorem State.setCore_bumps (s : State) (k : Nat) (c : Core) : (s.setCore k c).bumps = s.bumps := rfl
@[simp] theorem State.setCore_hist (s : State) (k : Nat) (c : Core) : (s.setCore k c).hist = s.hist := rfl
@[simp] theorem State.setCore_xlats (s : State) (k : Nat) (c : Core) : (s.setCore k c).xlats = s.xlats := rfl
@[simp] theorem State.setCore_absent (s : State) (k : Nat) (c : Core) : (s.setCore k c).absent = s.absent := rfl
@[simp] theorem State.setCore_buckets (s : State) (k : Nat) (c : Core) : (s.setCore k c).buckets = s.buckets := rfl
@[simp] theorem State.setCore_floors (s : State) (k : Nat) (c : Core) : (s.setCore k c).floors = s.floors := rfl
@[simp] theorem State.setCore_pmcs (s : State) (k : Nat) (c : Core) : (s.setCore k c).pmcs = s.pmcs := rfl
@[simp] theorem State.setCore_dev (s : State) (k : Nat) (c : Core) : (s.setCore k c).dev = s.dev := rfl
@[simp] theorem State.setCore_out (s : State) (k : Nat) (c : Core) : (s.setCore k c).out = s.out := rfl
@[simp] theorem State.setCore_freeCtr (s : State) (k : Nat) (c : Core) : (s.setCore k c).freeCtr = s.freeCtr := rfl
@[simp] theorem State.setCore_clock (s : State) (k : Nat) (c : Core) : (s.setCore k c).clock = s.clock := rfl
@[simp] theorem State.setCore_cur (s : State) (k : Nat) (c : Core) : (s.setCore k c).cur = s.cur := rfl
@[simp] theorem State.setCore_agenda (s : State) (k : Nat) (c : Core) : (s.setCore k c).agenda = s.agenda := rfl

@[simp] theorem State.updCore_clusters (s : State) (k : Nat) (f : Core → Core) : (s.updCore k f).clusters = s.clusters := rfl
@[simp] theorem State.updCore_homes (s : State) (k : Nat) (f : Core → Core) : (s.updCore k f).homes = s.homes := rfl
@[simp] theorem State.updCore_msgs (s : State) (k : Nat) (f : Core → Core) : (s.updCore k f).msgs = s.msgs := rfl
@[simp] theorem State.updCore_mem (s : State) (k : Nat) (f : Core → Core) : (s.updCore k f).mem = s.mem := rfl
@[simp] theorem State.updCore_recs (s : State) (k : Nat) (f : Core → Core) : (s.updCore k f).recs = s.recs := rfl
@[simp] theorem State.updCore_wq (s : State) (k : Nat) (f : Core → Core) : (s.updCore k f).wq = s.wq := rfl
@[simp] theorem State.updCore_parts (s : State) (k : Nat) (f : Core → Core) : (s.updCore k f).parts = s.parts := rfl
@[simp] theorem State.updCore_bcs (s : State) (k : Nat) (f : Core → Core) : (s.updCore k f).bcs = s.bcs := rfl
@[simp] theorem State.updCore_launches (s : State) (k : Nat) (f : Core → Core) : (s.updCore k f).launches = s.launches := rfl
@[simp] theorem State.updCore_nextLaunch (s : State) (k : Nat) (f : Core → Core) : (s.updCore k f).nextLaunch = s.nextLaunch := rfl
@[simp] theorem State.updCore_codes (s : State) (k : Nat) (f : Core → Core) : (s.updCore k f).codes = s.codes := rfl
@[simp] theorem State.updCore_nextCode (s : State) (k : Nat) (f : Core → Core) : (s.updCore k f).nextCode = s.nextCode := rfl
@[simp] theorem State.updCore_rings (s : State) (k : Nat) (f : Core → Core) : (s.updCore k f).rings = s.rings := rfl
@[simp] theorem State.updCore_gangs (s : State) (k : Nat) (f : Core → Core) : (s.updCore k f).gangs = s.gangs := rfl
@[simp] theorem State.updCore_gvas (s : State) (k : Nat) (f : Core → Core) : (s.updCore k f).gvas = s.gvas := rfl
@[simp] theorem State.updCore_prq (s : State) (k : Nat) (f : Core → Core) : (s.updCore k f).prq = s.prq := rfl
@[simp] theorem State.updCore_qcbs (s : State) (k : Nat) (f : Core → Core) : (s.updCore k f).qcbs = s.qcbs := rfl
@[simp] theorem State.updCore_vacates (s : State) (k : Nat) (f : Core → Core) : (s.updCore k f).vacates = s.vacates := rfl
@[simp] theorem State.updCore_savedZ (s : State) (k : Nat) (f : Core → Core) : (s.updCore k f).savedZ = s.savedZ := rfl
@[simp] theorem State.updCore_savedT (s : State) (k : Nat) (f : Core → Core) : (s.updCore k f).savedT = s.savedT := rfl
@[simp] theorem State.updCore_hptr (s : State) (k : Nat) (f : Core → Core) : (s.updCore k f).hptr = s.hptr := rfl
@[simp] theorem State.updCore_bumps (s : State) (k : Nat) (f : Core → Core) : (s.updCore k f).bumps = s.bumps := rfl
@[simp] theorem State.updCore_hist (s : State) (k : Nat) (f : Core → Core) : (s.updCore k f).hist = s.hist := rfl
@[simp] theorem State.updCore_xlats (s : State) (k : Nat) (f : Core → Core) : (s.updCore k f).xlats = s.xlats := rfl
@[simp] theorem State.updCore_absent (s : State) (k : Nat) (f : Core → Core) : (s.updCore k f).absent = s.absent := rfl
@[simp] theorem State.updCore_buckets (s : State) (k : Nat) (f : Core → Core) : (s.updCore k f).buckets = s.buckets := rfl
@[simp] theorem State.updCore_floors (s : State) (k : Nat) (f : Core → Core) : (s.updCore k f).floors = s.floors := rfl
@[simp] theorem State.updCore_pmcs (s : State) (k : Nat) (f : Core → Core) : (s.updCore k f).pmcs = s.pmcs := rfl
@[simp] theorem State.updCore_dev (s : State) (k : Nat) (f : Core → Core) : (s.updCore k f).dev = s.dev := rfl
@[simp] theorem State.updCore_out (s : State) (k : Nat) (f : Core → Core) : (s.updCore k f).out = s.out := rfl
@[simp] theorem State.updCore_freeCtr (s : State) (k : Nat) (f : Core → Core) : (s.updCore k f).freeCtr = s.freeCtr := rfl
@[simp] theorem State.updCore_clock (s : State) (k : Nat) (f : Core → Core) : (s.updCore k f).clock = s.clock := rfl
@[simp] theorem State.updCore_cur (s : State) (k : Nat) (f : Core → Core) : (s.updCore k f).cur = s.cur := rfl
@[simp] theorem State.updCore_agenda (s : State) (k : Nat) (f : Core → Core) : (s.updCore k f).agenda = s.agenda := rfl

@[simp] theorem State.updMe_clusters (s : State) (f : Core → Core) : (s.updMe f).clusters = s.clusters := rfl
@[simp] theorem State.updMe_homes (s : State) (f : Core → Core) : (s.updMe f).homes = s.homes := rfl
@[simp] theorem State.updMe_msgs (s : State) (f : Core → Core) : (s.updMe f).msgs = s.msgs := rfl
@[simp] theorem State.updMe_mem (s : State) (f : Core → Core) : (s.updMe f).mem = s.mem := rfl
@[simp] theorem State.updMe_recs (s : State) (f : Core → Core) : (s.updMe f).recs = s.recs := rfl
@[simp] theorem State.updMe_wq (s : State) (f : Core → Core) : (s.updMe f).wq = s.wq := rfl
@[simp] theorem State.updMe_parts (s : State) (f : Core → Core) : (s.updMe f).parts = s.parts := rfl
@[simp] theorem State.updMe_bcs (s : State) (f : Core → Core) : (s.updMe f).bcs = s.bcs := rfl
@[simp] theorem State.updMe_launches (s : State) (f : Core → Core) : (s.updMe f).launches = s.launches := rfl
@[simp] theorem State.updMe_nextLaunch (s : State) (f : Core → Core) : (s.updMe f).nextLaunch = s.nextLaunch := rfl
@[simp] theorem State.updMe_codes (s : State) (f : Core → Core) : (s.updMe f).codes = s.codes := rfl
@[simp] theorem State.updMe_nextCode (s : State) (f : Core → Core) : (s.updMe f).nextCode = s.nextCode := rfl
@[simp] theorem State.updMe_rings (s : State) (f : Core → Core) : (s.updMe f).rings = s.rings := rfl
@[simp] theorem State.updMe_gangs (s : State) (f : Core → Core) : (s.updMe f).gangs = s.gangs := rfl
@[simp] theorem State.updMe_gvas (s : State) (f : Core → Core) : (s.updMe f).gvas = s.gvas := rfl
@[simp] theorem State.updMe_prq (s : State) (f : Core → Core) : (s.updMe f).prq = s.prq := rfl
@[simp] theorem State.updMe_qcbs (s : State) (f : Core → Core) : (s.updMe f).qcbs = s.qcbs := rfl
@[simp] theorem State.updMe_vacates (s : State) (f : Core → Core) : (s.updMe f).vacates = s.vacates := rfl
@[simp] theorem State.updMe_savedZ (s : State) (f : Core → Core) : (s.updMe f).savedZ = s.savedZ := rfl
@[simp] theorem State.updMe_savedT (s : State) (f : Core → Core) : (s.updMe f).savedT = s.savedT := rfl
@[simp] theorem State.updMe_hptr (s : State) (f : Core → Core) : (s.updMe f).hptr = s.hptr := rfl
@[simp] theorem State.updMe_bumps (s : State) (f : Core → Core) : (s.updMe f).bumps = s.bumps := rfl
@[simp] theorem State.updMe_hist (s : State) (f : Core → Core) : (s.updMe f).hist = s.hist := rfl
@[simp] theorem State.updMe_xlats (s : State) (f : Core → Core) : (s.updMe f).xlats = s.xlats := rfl
@[simp] theorem State.updMe_absent (s : State) (f : Core → Core) : (s.updMe f).absent = s.absent := rfl
@[simp] theorem State.updMe_buckets (s : State) (f : Core → Core) : (s.updMe f).buckets = s.buckets := rfl
@[simp] theorem State.updMe_floors (s : State) (f : Core → Core) : (s.updMe f).floors = s.floors := rfl
@[simp] theorem State.updMe_pmcs (s : State) (f : Core → Core) : (s.updMe f).pmcs = s.pmcs := rfl
@[simp] theorem State.updMe_dev (s : State) (f : Core → Core) : (s.updMe f).dev = s.dev := rfl
@[simp] theorem State.updMe_out (s : State) (f : Core → Core) : (s.updMe f).out = s.out := rfl
@[simp] theorem State.updMe_freeCtr (s : State) (f : Core → Core) : (s.updMe f).freeCtr = s.freeCtr := rfl
@[simp] theorem State.updMe_clock (s : State) (f : Core → Core) : (s.updMe f).clock = s.clock := rfl
@[simp] theorem State.updMe_cur (s : State) (f : Core → Core) : (s.updMe f).cur = s.cur := rfl
@[simp] theorem State.updMe_agenda (s : State) (f : Core → Core) : (s.updMe f).agenda = s.agenda := rfl

@[simp] theorem State.updCluster_cores (s : State) (k : Nat) (f : Cluster → Cluster) : (s.updCluster k f).cores = s.cores := rfl
@[simp] theorem State.updCluster_homes (s : State) (k : Nat) (f : Cluster → Cluster) : (s.updCluster k f).homes = s.homes := rfl
@[simp] theorem State.updCluster_msgs (s : State) (k : Nat) (f : Cluster → Cluster) : (s.updCluster k f).msgs = s.msgs := rfl
@[simp] theorem State.updCluster_mem (s : State) (k : Nat) (f : Cluster → Cluster) : (s.updCluster k f).mem = s.mem := rfl
@[simp] theorem State.updCluster_recs (s : State) (k : Nat) (f : Cluster → Cluster) : (s.updCluster k f).recs = s.recs := rfl
@[simp] theorem State.updCluster_wq (s : State) (k : Nat) (f : Cluster → Cluster) : (s.updCluster k f).wq = s.wq := rfl
@[simp] theorem State.updCluster_parts (s : State) (k : Nat) (f : Cluster → Cluster) : (s.updCluster k f).parts = s.parts := rfl
@[simp] theorem State.updCluster_bcs (s : State) (k : Nat) (f : Cluster → Cluster) : (s.updCluster k f).bcs = s.bcs := rfl
@[simp] theorem State.updCluster_launches (s : State) (k : Nat) (f : Cluster → Cluster) : (s.updCluster k f).launches = s.launches := rfl
@[simp] theorem State.updCluster_nextLaunch (s : State) (k : Nat) (f : Cluster → Cluster) : (s.updCluster k f).nextLaunch = s.nextLaunch := rfl
@[simp] theorem State.updCluster_codes (s : State) (k : Nat) (f : Cluster → Cluster) : (s.updCluster k f).codes = s.codes := rfl
@[simp] theorem State.updCluster_nextCode (s : State) (k : Nat) (f : Cluster → Cluster) : (s.updCluster k f).nextCode = s.nextCode := rfl
@[simp] theorem State.updCluster_rings (s : State) (k : Nat) (f : Cluster → Cluster) : (s.updCluster k f).rings = s.rings := rfl
@[simp] theorem State.updCluster_gangs (s : State) (k : Nat) (f : Cluster → Cluster) : (s.updCluster k f).gangs = s.gangs := rfl
@[simp] theorem State.updCluster_gvas (s : State) (k : Nat) (f : Cluster → Cluster) : (s.updCluster k f).gvas = s.gvas := rfl
@[simp] theorem State.updCluster_prq (s : State) (k : Nat) (f : Cluster → Cluster) : (s.updCluster k f).prq = s.prq := rfl
@[simp] theorem State.updCluster_qcbs (s : State) (k : Nat) (f : Cluster → Cluster) : (s.updCluster k f).qcbs = s.qcbs := rfl
@[simp] theorem State.updCluster_vacates (s : State) (k : Nat) (f : Cluster → Cluster) : (s.updCluster k f).vacates = s.vacates := rfl
@[simp] theorem State.updCluster_savedZ (s : State) (k : Nat) (f : Cluster → Cluster) : (s.updCluster k f).savedZ = s.savedZ := rfl
@[simp] theorem State.updCluster_savedT (s : State) (k : Nat) (f : Cluster → Cluster) : (s.updCluster k f).savedT = s.savedT := rfl
@[simp] theorem State.updCluster_hptr (s : State) (k : Nat) (f : Cluster → Cluster) : (s.updCluster k f).hptr = s.hptr := rfl
@[simp] theorem State.updCluster_bumps (s : State) (k : Nat) (f : Cluster → Cluster) : (s.updCluster k f).bumps = s.bumps := rfl
@[simp] theorem State.updCluster_hist (s : State) (k : Nat) (f : Cluster → Cluster) : (s.updCluster k f).hist = s.hist := rfl
@[simp] theorem State.updCluster_xlats (s : State) (k : Nat) (f : Cluster → Cluster) : (s.updCluster k f).xlats = s.xlats := rfl
@[simp] theorem State.updCluster_absent (s : State) (k : Nat) (f : Cluster → Cluster) : (s.updCluster k f).absent = s.absent := rfl
@[simp] theorem State.updCluster_buckets (s : State) (k : Nat) (f : Cluster → Cluster) : (s.updCluster k f).buckets = s.buckets := rfl
@[simp] theorem State.updCluster_floors (s : State) (k : Nat) (f : Cluster → Cluster) : (s.updCluster k f).floors = s.floors := rfl
@[simp] theorem State.updCluster_pmcs (s : State) (k : Nat) (f : Cluster → Cluster) : (s.updCluster k f).pmcs = s.pmcs := rfl
@[simp] theorem State.updCluster_dev (s : State) (k : Nat) (f : Cluster → Cluster) : (s.updCluster k f).dev = s.dev := rfl
@[simp] theorem State.updCluster_out (s : State) (k : Nat) (f : Cluster → Cluster) : (s.updCluster k f).out = s.out := rfl
@[simp] theorem State.updCluster_freeCtr (s : State) (k : Nat) (f : Cluster → Cluster) : (s.updCluster k f).freeCtr = s.freeCtr := rfl
@[simp] theorem State.updCluster_clock (s : State) (k : Nat) (f : Cluster → Cluster) : (s.updCluster k f).clock = s.clock := rfl
@[simp] theorem State.updCluster_cur (s : State) (k : Nat) (f : Cluster → Cluster) : (s.updCluster k f).cur = s.cur := rfl
@[simp] theorem State.updCluster_agenda (s : State) (k : Nat) (f : Cluster → Cluster) : (s.updCluster k f).agenda = s.agenda := rfl

@[simp] theorem State.updPart_cores (s : State) (p : Nat) (f : Part → Part) : (s.updPart p f).cores = s.cores := rfl
@[simp] theorem State.updPart_clusters (s : State) (p : Nat) (f : Part → Part) : (s.updPart p f).clusters = s.clusters := rfl
@[simp] theorem State.updPart_homes (s : State) (p : Nat) (f : Part → Part) : (s.updPart p f).homes = s.homes := rfl
@[simp] theorem State.updPart_msgs (s : State) (p : Nat) (f : Part → Part) : (s.updPart p f).msgs = s.msgs := rfl
@[simp] theorem State.updPart_mem (s : State) (p : Nat) (f : Part → Part) : (s.updPart p f).mem = s.mem := rfl
@[simp] theorem State.updPart_recs (s : State) (p : Nat) (f : Part → Part) : (s.updPart p f).recs = s.recs := rfl
@[simp] theorem State.updPart_wq (s : State) (p : Nat) (f : Part → Part) : (s.updPart p f).wq = s.wq := rfl
@[simp] theorem State.updPart_bcs (s : State) (p : Nat) (f : Part → Part) : (s.updPart p f).bcs = s.bcs := rfl
@[simp] theorem State.updPart_launches (s : State) (p : Nat) (f : Part → Part) : (s.updPart p f).launches = s.launches := rfl
@[simp] theorem State.updPart_nextLaunch (s : State) (p : Nat) (f : Part → Part) : (s.updPart p f).nextLaunch = s.nextLaunch := rfl
@[simp] theorem State.updPart_codes (s : State) (p : Nat) (f : Part → Part) : (s.updPart p f).codes = s.codes := rfl
@[simp] theorem State.updPart_nextCode (s : State) (p : Nat) (f : Part → Part) : (s.updPart p f).nextCode = s.nextCode := rfl
@[simp] theorem State.updPart_rings (s : State) (p : Nat) (f : Part → Part) : (s.updPart p f).rings = s.rings := rfl
@[simp] theorem State.updPart_gangs (s : State) (p : Nat) (f : Part → Part) : (s.updPart p f).gangs = s.gangs := rfl
@[simp] theorem State.updPart_gvas (s : State) (p : Nat) (f : Part → Part) : (s.updPart p f).gvas = s.gvas := rfl
@[simp] theorem State.updPart_prq (s : State) (p : Nat) (f : Part → Part) : (s.updPart p f).prq = s.prq := rfl
@[simp] theorem State.updPart_qcbs (s : State) (p : Nat) (f : Part → Part) : (s.updPart p f).qcbs = s.qcbs := rfl
@[simp] theorem State.updPart_vacates (s : State) (p : Nat) (f : Part → Part) : (s.updPart p f).vacates = s.vacates := rfl
@[simp] theorem State.updPart_savedZ (s : State) (p : Nat) (f : Part → Part) : (s.updPart p f).savedZ = s.savedZ := rfl
@[simp] theorem State.updPart_savedT (s : State) (p : Nat) (f : Part → Part) : (s.updPart p f).savedT = s.savedT := rfl
@[simp] theorem State.updPart_hptr (s : State) (p : Nat) (f : Part → Part) : (s.updPart p f).hptr = s.hptr := rfl
@[simp] theorem State.updPart_bumps (s : State) (p : Nat) (f : Part → Part) : (s.updPart p f).bumps = s.bumps := rfl
@[simp] theorem State.updPart_hist (s : State) (p : Nat) (f : Part → Part) : (s.updPart p f).hist = s.hist := rfl
@[simp] theorem State.updPart_xlats (s : State) (p : Nat) (f : Part → Part) : (s.updPart p f).xlats = s.xlats := rfl
@[simp] theorem State.updPart_absent (s : State) (p : Nat) (f : Part → Part) : (s.updPart p f).absent = s.absent := rfl
@[simp] theorem State.updPart_buckets (s : State) (p : Nat) (f : Part → Part) : (s.updPart p f).buckets = s.buckets := rfl
@[simp] theorem State.updPart_floors (s : State) (p : Nat) (f : Part → Part) : (s.updPart p f).floors = s.floors := rfl
@[simp] theorem State.updPart_pmcs (s : State) (p : Nat) (f : Part → Part) : (s.updPart p f).pmcs = s.pmcs := rfl
@[simp] theorem State.updPart_dev (s : State) (p : Nat) (f : Part → Part) : (s.updPart p f).dev = s.dev := rfl
@[simp] theorem State.updPart_out (s : State) (p : Nat) (f : Part → Part) : (s.updPart p f).out = s.out := rfl
@[simp] theorem State.updPart_freeCtr (s : State) (p : Nat) (f : Part → Part) : (s.updPart p f).freeCtr = s.freeCtr := rfl
@[simp] theorem State.updPart_clock (s : State) (p : Nat) (f : Part → Part) : (s.updPart p f).clock = s.clock := rfl
@[simp] theorem State.updPart_cur (s : State) (p : Nat) (f : Part → Part) : (s.updPart p f).cur = s.cur := rfl
@[simp] theorem State.updPart_agenda (s : State) (p : Nat) (f : Part → Part) : (s.updPart p f).agenda = s.agenda := rfl

@[simp] theorem State.wrBytes_cores (s : State) (a : Nat) (l : List Byte) : (s.wrBytes a l).cores = s.cores := rfl
@[simp] theorem State.wrBytes_clusters (s : State) (a : Nat) (l : List Byte) : (s.wrBytes a l).clusters = s.clusters := rfl
@[simp] theorem State.wrBytes_homes (s : State) (a : Nat) (l : List Byte) : (s.wrBytes a l).homes = s.homes := rfl
@[simp] theorem State.wrBytes_msgs (s : State) (a : Nat) (l : List Byte) : (s.wrBytes a l).msgs = s.msgs := rfl
@[simp] theorem State.wrBytes_recs (s : State) (a : Nat) (l : List Byte) : (s.wrBytes a l).recs = s.recs := rfl
@[simp] theorem State.wrBytes_wq (s : State) (a : Nat) (l : List Byte) : (s.wrBytes a l).wq = s.wq := rfl
@[simp] theorem State.wrBytes_parts (s : State) (a : Nat) (l : List Byte) : (s.wrBytes a l).parts = s.parts := rfl
@[simp] theorem State.wrBytes_bcs (s : State) (a : Nat) (l : List Byte) : (s.wrBytes a l).bcs = s.bcs := rfl
@[simp] theorem State.wrBytes_launches (s : State) (a : Nat) (l : List Byte) : (s.wrBytes a l).launches = s.launches := rfl
@[simp] theorem State.wrBytes_nextLaunch (s : State) (a : Nat) (l : List Byte) : (s.wrBytes a l).nextLaunch = s.nextLaunch := rfl
@[simp] theorem State.wrBytes_codes (s : State) (a : Nat) (l : List Byte) : (s.wrBytes a l).codes = s.codes := rfl
@[simp] theorem State.wrBytes_nextCode (s : State) (a : Nat) (l : List Byte) : (s.wrBytes a l).nextCode = s.nextCode := rfl
@[simp] theorem State.wrBytes_rings (s : State) (a : Nat) (l : List Byte) : (s.wrBytes a l).rings = s.rings := rfl
@[simp] theorem State.wrBytes_gangs (s : State) (a : Nat) (l : List Byte) : (s.wrBytes a l).gangs = s.gangs := rfl
@[simp] theorem State.wrBytes_gvas (s : State) (a : Nat) (l : List Byte) : (s.wrBytes a l).gvas = s.gvas := rfl
@[simp] theorem State.wrBytes_prq (s : State) (a : Nat) (l : List Byte) : (s.wrBytes a l).prq = s.prq := rfl
@[simp] theorem State.wrBytes_qcbs (s : State) (a : Nat) (l : List Byte) : (s.wrBytes a l).qcbs = s.qcbs := rfl
@[simp] theorem State.wrBytes_vacates (s : State) (a : Nat) (l : List Byte) : (s.wrBytes a l).vacates = s.vacates := rfl
@[simp] theorem State.wrBytes_savedZ (s : State) (a : Nat) (l : List Byte) : (s.wrBytes a l).savedZ = s.savedZ := rfl
@[simp] theorem State.wrBytes_savedT (s : State) (a : Nat) (l : List Byte) : (s.wrBytes a l).savedT = s.savedT := rfl
@[simp] theorem State.wrBytes_hptr (s : State) (a : Nat) (l : List Byte) : (s.wrBytes a l).hptr = s.hptr := rfl
@[simp] theorem State.wrBytes_bumps (s : State) (a : Nat) (l : List Byte) : (s.wrBytes a l).bumps = s.bumps := rfl
@[simp] theorem State.wrBytes_hist (s : State) (a : Nat) (l : List Byte) : (s.wrBytes a l).hist = s.hist := rfl
@[simp] theorem State.wrBytes_xlats (s : State) (a : Nat) (l : List Byte) : (s.wrBytes a l).xlats = s.xlats := rfl
@[simp] theorem State.wrBytes_absent (s : State) (a : Nat) (l : List Byte) : (s.wrBytes a l).absent = s.absent := rfl
@[simp] theorem State.wrBytes_buckets (s : State) (a : Nat) (l : List Byte) : (s.wrBytes a l).buckets = s.buckets := rfl
@[simp] theorem State.wrBytes_floors (s : State) (a : Nat) (l : List Byte) : (s.wrBytes a l).floors = s.floors := rfl
@[simp] theorem State.wrBytes_pmcs (s : State) (a : Nat) (l : List Byte) : (s.wrBytes a l).pmcs = s.pmcs := rfl
@[simp] theorem State.wrBytes_dev (s : State) (a : Nat) (l : List Byte) : (s.wrBytes a l).dev = s.dev := rfl
@[simp] theorem State.wrBytes_out (s : State) (a : Nat) (l : List Byte) : (s.wrBytes a l).out = s.out := rfl
@[simp] theorem State.wrBytes_freeCtr (s : State) (a : Nat) (l : List Byte) : (s.wrBytes a l).freeCtr = s.freeCtr := rfl
@[simp] theorem State.wrBytes_clock (s : State) (a : Nat) (l : List Byte) : (s.wrBytes a l).clock = s.clock := rfl
@[simp] theorem State.wrBytes_cur (s : State) (a : Nat) (l : List Byte) : (s.wrBytes a l).cur = s.cur := rfl
@[simp] theorem State.wrBytes_agenda (s : State) (a : Nat) (l : List Byte) : (s.wrBytes a l).agenda = s.agenda := rfl

@[simp] theorem State.wrMem_cores (s : State) (a n v : Nat) : (s.wrMem a n v).cores = s.cores := rfl
@[simp] theorem State.wrMem_clusters (s : State) (a n v : Nat) : (s.wrMem a n v).clusters = s.clusters := rfl
@[simp] theorem State.wrMem_homes (s : State) (a n v : Nat) : (s.wrMem a n v).homes = s.homes := rfl
@[simp] theorem State.wrMem_msgs (s : State) (a n v : Nat) : (s.wrMem a n v).msgs = s.msgs := rfl
@[simp] theorem State.wrMem_recs (s : State) (a n v : Nat) : (s.wrMem a n v).recs = s.recs := rfl
@[simp] theorem State.wrMem_wq (s : State) (a n v : Nat) : (s.wrMem a n v).wq = s.wq := rfl
@[simp] theorem State.wrMem_parts (s : State) (a n v : Nat) : (s.wrMem a n v).parts = s.parts := rfl
@[simp] theorem State.wrMem_bcs (s : State) (a n v : Nat) : (s.wrMem a n v).bcs = s.bcs := rfl
@[simp] theorem State.wrMem_launches (s : State) (a n v : Nat) : (s.wrMem a n v).launches = s.launches := rfl
@[simp] theorem State.wrMem_nextLaunch (s : State) (a n v : Nat) : (s.wrMem a n v).nextLaunch = s.nextLaunch := rfl
@[simp] theorem State.wrMem_codes (s : State) (a n v : Nat) : (s.wrMem a n v).codes = s.codes := rfl
@[simp] theorem State.wrMem_nextCode (s : State) (a n v : Nat) : (s.wrMem a n v).nextCode = s.nextCode := rfl
@[simp] theorem State.wrMem_rings (s : State) (a n v : Nat) : (s.wrMem a n v).rings = s.rings := rfl
@[simp] theorem State.wrMem_gangs (s : State) (a n v : Nat) : (s.wrMem a n v).gangs = s.gangs := rfl
@[simp] theorem State.wrMem_gvas (s : State) (a n v : Nat) : (s.wrMem a n v).gvas = s.gvas := rfl
@[simp] theorem State.wrMem_prq (s : State) (a n v : Nat) : (s.wrMem a n v).prq = s.prq := rfl
@[simp] theorem State.wrMem_qcbs (s : State) (a n v : Nat) : (s.wrMem a n v).qcbs = s.qcbs := rfl
@[simp] theorem State.wrMem_vacates (s : State) (a n v : Nat) : (s.wrMem a n v).vacates = s.vacates := rfl
@[simp] theorem State.wrMem_savedZ (s : State) (a n v : Nat) : (s.wrMem a n v).savedZ = s.savedZ := rfl
@[simp] theorem State.wrMem_savedT (s : State) (a n v : Nat) : (s.wrMem a n v).savedT = s.savedT := rfl
@[simp] theorem State.wrMem_hptr (s : State) (a n v : Nat) : (s.wrMem a n v).hptr = s.hptr := rfl
@[simp] theorem State.wrMem_bumps (s : State) (a n v : Nat) : (s.wrMem a n v).bumps = s.bumps := rfl
@[simp] theorem State.wrMem_hist (s : State) (a n v : Nat) : (s.wrMem a n v).hist = s.hist := rfl
@[simp] theorem State.wrMem_xlats (s : State) (a n v : Nat) : (s.wrMem a n v).xlats = s.xlats := rfl
@[simp] theorem State.wrMem_absent (s : State) (a n v : Nat) : (s.wrMem a n v).absent = s.absent := rfl
@[simp] theorem State.wrMem_buckets (s : State) (a n v : Nat) : (s.wrMem a n v).buckets = s.buckets := rfl
@[simp] theorem State.wrMem_floors (s : State) (a n v : Nat) : (s.wrMem a n v).floors = s.floors := rfl
@[simp] theorem State.wrMem_pmcs (s : State) (a n v : Nat) : (s.wrMem a n v).pmcs = s.pmcs := rfl
@[simp] theorem State.wrMem_dev (s : State) (a n v : Nat) : (s.wrMem a n v).dev = s.dev := rfl
@[simp] theorem State.wrMem_out (s : State) (a n v : Nat) : (s.wrMem a n v).out = s.out := rfl
@[simp] theorem State.wrMem_freeCtr (s : State) (a n v : Nat) : (s.wrMem a n v).freeCtr = s.freeCtr := rfl
@[simp] theorem State.wrMem_clock (s : State) (a n v : Nat) : (s.wrMem a n v).clock = s.clock := rfl
@[simp] theorem State.wrMem_cur (s : State) (a n v : Nat) : (s.wrMem a n v).cur = s.cur := rfl
@[simp] theorem State.wrMem_agenda (s : State) (a n v : Nat) : (s.wrMem a n v).agenda = s.agenda := rfl

@[simp] theorem State.draw_cores (s : State) (n : Nat) : (s.draw n).cores = s.cores := rfl
@[simp] theorem State.draw_clusters (s : State) (n : Nat) : (s.draw n).clusters = s.clusters := rfl
@[simp] theorem State.draw_homes (s : State) (n : Nat) : (s.draw n).homes = s.homes := rfl
@[simp] theorem State.draw_msgs (s : State) (n : Nat) : (s.draw n).msgs = s.msgs := rfl
@[simp] theorem State.draw_mem (s : State) (n : Nat) : (s.draw n).mem = s.mem := rfl
@[simp] theorem State.draw_recs (s : State) (n : Nat) : (s.draw n).recs = s.recs := rfl
@[simp] theorem State.draw_wq (s : State) (n : Nat) : (s.draw n).wq = s.wq := rfl
@[simp] theorem State.draw_parts (s : State) (n : Nat) : (s.draw n).parts = s.parts := rfl
@[simp] theorem State.draw_bcs (s : State) (n : Nat) : (s.draw n).bcs = s.bcs := rfl
@[simp] theorem State.draw_launches (s : State) (n : Nat) : (s.draw n).launches = s.launches := rfl
@[simp] theorem State.draw_nextLaunch (s : State) (n : Nat) : (s.draw n).nextLaunch = s.nextLaunch := rfl
@[simp] theorem State.draw_codes (s : State) (n : Nat) : (s.draw n).codes = s.codes := rfl
@[simp] theorem State.draw_nextCode (s : State) (n : Nat) : (s.draw n).nextCode = s.nextCode := rfl
@[simp] theorem State.draw_rings (s : State) (n : Nat) : (s.draw n).rings = s.rings := rfl
@[simp] theorem State.draw_gangs (s : State) (n : Nat) : (s.draw n).gangs = s.gangs := rfl
@[simp] theorem State.draw_gvas (s : State) (n : Nat) : (s.draw n).gvas = s.gvas := rfl
@[simp] theorem State.draw_prq (s : State) (n : Nat) : (s.draw n).prq = s.prq := rfl
@[simp] theorem State.draw_qcbs (s : State) (n : Nat) : (s.draw n).qcbs = s.qcbs := rfl
@[simp] theorem State.draw_vacates (s : State) (n : Nat) : (s.draw n).vacates = s.vacates := rfl
@[simp] theorem State.draw_savedZ (s : State) (n : Nat) : (s.draw n).savedZ = s.savedZ := rfl
@[simp] theorem State.draw_savedT (s : State) (n : Nat) : (s.draw n).savedT = s.savedT := rfl
@[simp] theorem State.draw_hptr (s : State) (n : Nat) : (s.draw n).hptr = s.hptr := rfl
@[simp] theorem State.draw_bumps (s : State) (n : Nat) : (s.draw n).bumps = s.bumps := rfl
@[simp] theorem State.draw_hist (s : State) (n : Nat) : (s.draw n).hist = s.hist := rfl
@[simp] theorem State.draw_xlats (s : State) (n : Nat) : (s.draw n).xlats = s.xlats := rfl
@[simp] theorem State.draw_absent (s : State) (n : Nat) : (s.draw n).absent = s.absent := rfl
@[simp] theorem State.draw_buckets (s : State) (n : Nat) : (s.draw n).buckets = s.buckets := rfl
@[simp] theorem State.draw_floors (s : State) (n : Nat) : (s.draw n).floors = s.floors := rfl
@[simp] theorem State.draw_pmcs (s : State) (n : Nat) : (s.draw n).pmcs = s.pmcs := rfl
@[simp] theorem State.draw_dev (s : State) (n : Nat) : (s.draw n).dev = s.dev := rfl
@[simp] theorem State.draw_out (s : State) (n : Nat) : (s.draw n).out = s.out := rfl
@[simp] theorem State.draw_clock (s : State) (n : Nat) : (s.draw n).clock = s.clock := rfl
@[simp] theorem State.draw_cur (s : State) (n : Nat) : (s.draw n).cur = s.cur := rfl
@[simp] theorem State.draw_agenda (s : State) (n : Nat) : (s.draw n).agenda = s.agenda := rfl

@[simp] theorem State.emit_cores (s : State) (o : Out) : (s.emit o).cores = s.cores := rfl
@[simp] theorem State.emit_clusters (s : State) (o : Out) : (s.emit o).clusters = s.clusters := rfl
@[simp] theorem State.emit_homes (s : State) (o : Out) : (s.emit o).homes = s.homes := rfl
@[simp] theorem State.emit_msgs (s : State) (o : Out) : (s.emit o).msgs = s.msgs := rfl
@[simp] theorem State.emit_mem (s : State) (o : Out) : (s.emit o).mem = s.mem := rfl
@[simp] theorem State.emit_recs (s : State) (o : Out) : (s.emit o).recs = s.recs := rfl
@[simp] theorem State.emit_wq (s : State) (o : Out) : (s.emit o).wq = s.wq := rfl
@[simp] theorem State.emit_parts (s : State) (o : Out) : (s.emit o).parts = s.parts := rfl
@[simp] theorem State.emit_bcs (s : State) (o : Out) : (s.emit o).bcs = s.bcs := rfl
@[simp] theorem State.emit_launches (s : State) (o : Out) : (s.emit o).launches = s.launches := rfl
@[simp] theorem State.emit_nextLaunch (s : State) (o : Out) : (s.emit o).nextLaunch = s.nextLaunch := rfl
@[simp] theorem State.emit_codes (s : State) (o : Out) : (s.emit o).codes = s.codes := rfl
@[simp] theorem State.emit_nextCode (s : State) (o : Out) : (s.emit o).nextCode = s.nextCode := rfl
@[simp] theorem State.emit_rings (s : State) (o : Out) : (s.emit o).rings = s.rings := rfl
@[simp] theorem State.emit_gangs (s : State) (o : Out) : (s.emit o).gangs = s.gangs := rfl
@[simp] theorem State.emit_gvas (s : State) (o : Out) : (s.emit o).gvas = s.gvas := rfl
@[simp] theorem State.emit_prq (s : State) (o : Out) : (s.emit o).prq = s.prq := rfl
@[simp] theorem State.emit_qcbs (s : State) (o : Out) : (s.emit o).qcbs = s.qcbs := rfl
@[simp] theorem State.emit_vacates (s : State) (o : Out) : (s.emit o).vacates = s.vacates := rfl
@[simp] theorem State.emit_savedZ (s : State) (o : Out) : (s.emit o).savedZ = s.savedZ := rfl
@[simp] theorem State.emit_savedT (s : State) (o : Out) : (s.emit o).savedT = s.savedT := rfl
@[simp] theorem State.emit_hptr (s : State) (o : Out) : (s.emit o).hptr = s.hptr := rfl
@[simp] theorem State.emit_bumps (s : State) (o : Out) : (s.emit o).bumps = s.bumps := rfl
@[simp] theorem State.emit_hist (s : State) (o : Out) : (s.emit o).hist = s.hist := rfl
@[simp] theorem State.emit_xlats (s : State) (o : Out) : (s.emit o).xlats = s.xlats := rfl
@[simp] theorem State.emit_absent (s : State) (o : Out) : (s.emit o).absent = s.absent := rfl
@[simp] theorem State.emit_buckets (s : State) (o : Out) : (s.emit o).buckets = s.buckets := rfl
@[simp] theorem State.emit_floors (s : State) (o : Out) : (s.emit o).floors = s.floors := rfl
@[simp] theorem State.emit_pmcs (s : State) (o : Out) : (s.emit o).pmcs = s.pmcs := rfl
@[simp] theorem State.emit_dev (s : State) (o : Out) : (s.emit o).dev = s.dev := rfl
@[simp] theorem State.emit_freeCtr (s : State) (o : Out) : (s.emit o).freeCtr = s.freeCtr := rfl
@[simp] theorem State.emit_clock (s : State) (o : Out) : (s.emit o).clock = s.clock := rfl
@[simp] theorem State.emit_cur (s : State) (o : Out) : (s.emit o).cur = s.cur := rfl
@[simp] theorem State.emit_agenda (s : State) (o : Out) : (s.emit o).agenda = s.agenda := rfl

@[simp] theorem Core.put_run (c : Core) (d : Dest) (v : Nat) (m : Option Nat) (n : Nat) : (c.put d v m n).run = c.run := rfl
@[simp] theorem Core.put_pc (c : Core) (d : Dest) (v : Nat) (m : Option Nat) (n : Nat) : (c.put d v m n).pc = c.pc := rfl
@[simp] theorem Core.put_via (c : Core) (d : Dest) (v : Nat) (m : Option Nat) (n : Nat) : (c.put d v m n).via = c.via := rfl
@[simp] theorem Core.put_iter (c : Core) (d : Dest) (v : Nat) (m : Option Nat) (n : Nat) : (c.put d v m n).iter = c.iter := rfl
@[simp] theorem Core.put_regs (c : Core) (d : Dest) (v : Nat) (m : Option Nat) (n : Nat) : (c.put d v m n).regs = c.regs := rfl
@[simp] theorem Core.put_csr (c : Core) (d : Dest) (v : Nat) (m : Option Nat) (n : Nat) : (c.put d v m n).csr = c.csr := rfl
@[simp] theorem Core.put_toks (c : Core) (d : Dest) (v : Nat) (m : Option Nat) (n : Nat) : (c.put d v m n).toks = c.toks := rfl
@[simp] theorem Core.put_loads (c : Core) (d : Dest) (v : Nat) (m : Option Nat) (n : Nat) : (c.put d v m n).loads = c.loads := rfl
@[simp] theorem Core.put_mq (c : Core) (d : Dest) (v : Nat) (m : Option Nat) (n : Nat) : (c.put d v m n).mq = c.mq := rfl
@[simp] theorem Core.put_cmds (c : Core) (d : Dest) (v : Nat) (m : Option Nat) (n : Nat) : (c.put d v m n).cmds = c.cmds := rfl
@[simp] theorem Core.put_itin (c : Core) (d : Dest) (v : Nat) (m : Option Nat) (n : Nat) : (c.put d v m n).itin = c.itin := rfl
@[simp] theorem Core.put_pins (c : Core) (d : Dest) (v : Nat) (m : Option Nat) (n : Nat) : (c.put d v m n).pins = c.pins := rfl
@[simp] theorem Core.put_wants (c : Core) (d : Dest) (v : Nat) (m : Option Nat) (n : Nat) : (c.put d v m n).wants = c.wants := rfl
@[simp] theorem Core.put_l0 (c : Core) (d : Dest) (v : Nat) (m : Option Nat) (n : Nat) : (c.put d v m n).l0 = c.l0 := rfl
@[simp] theorem Core.put_task (c : Core) (d : Dest) (v : Nat) (m : Option Nat) (n : Nat) : (c.put d v m n).task = c.task := rfl
@[simp] theorem Core.put_preempt (c : Core) (d : Dest) (v : Nat) (m : Option Nat) (n : Nat) : (c.put d v m n).preempt = c.preempt := rfl
@[simp] theorem Core.put_preCyc (c : Core) (d : Dest) (v : Nat) (m : Option Nat) (n : Nat) : (c.put d v m n).preCyc = c.preCyc := rfl
@[simp] theorem Core.put_hCyc (c : Core) (d : Dest) (v : Nat) (m : Option Nat) (n : Nat) : (c.put d v m n).hCyc = c.hCyc := rfl
@[simp] theorem Core.put_tCyc (c : Core) (d : Dest) (v : Nat) (m : Option Nat) (n : Nat) : (c.put d v m n).tCyc = c.tCyc := rfl
@[simp] theorem Core.put_xfer (c : Core) (d : Dest) (v : Nat) (m : Option Nat) (n : Nat) : (c.put d v m n).xfer = c.xfer := rfl
@[simp] theorem Core.put_abort (c : Core) (d : Dest) (v : Nat) (m : Option Nat) (n : Nat) : (c.put d v m n).abort = c.abort := rfl
@[simp] theorem Core.put_settle (c : Core) (d : Dest) (v : Nat) (m : Option Nat) (n : Nat) : (c.put d v m n).settle = c.settle := rfl
@[simp] theorem Core.put_stalled (c : Core) (d : Dest) (v : Nat) (m : Option Nat) (n : Nat) : (c.put d v m n).stalled = c.stalled := rfl
@[simp] theorem Core.put_fpBegan (c : Core) (d : Dest) (v : Nat) (m : Option Nat) (n : Nat) : (c.put d v m n).fpBegan = c.fpBegan := rfl
@[simp] theorem Core.put_nextSeq (c : Core) (d : Dest) (v : Nat) (m : Option Nat) (n : Nat) : (c.put d v m n).nextSeq = c.nextSeq := rfl
@[simp] theorem Core.put_tcWait (c : Core) (d : Dest) (v : Nat) (m : Option Nat) (n : Nat) : (c.put d v m n).tcWait = c.tcWait := rfl
@[simp] theorem Core.put_tcFlt (c : Core) (d : Dest) (v : Nat) (m : Option Nat) (n : Nat) : (c.put d v m n).tcFlt = c.tcFlt := rfl
@[simp] theorem Core.put_hostAt (c : Core) (d : Dest) (v : Nat) (m : Option Nat) (n : Nat) : (c.put d v m n).hostAt = c.hostAt := rfl

@[simp] theorem Core.put_fly (c : Core) (d : Dest) (v : Nat) (m : Option Nat) (n : Nat) : (c.put d v m n).fly = c.fly ++ [⟨d, v, m, n⟩] := rfl
@[simp] theorem Core.tick_run (c : Core) (n : Nat) : (c.tick n).run = c.run := rfl
@[simp] theorem Core.tick_pc (c : Core) (n : Nat) : (c.tick n).pc = c.pc := rfl
@[simp] theorem Core.tick_via (c : Core) (n : Nat) : (c.tick n).via = c.via := rfl
@[simp] theorem Core.tick_iter (c : Core) (n : Nat) : (c.tick n).iter = c.iter := rfl
@[simp] theorem Core.tick_regs (c : Core) (n : Nat) : (c.tick n).regs = c.regs := rfl
@[simp] theorem Core.tick_csr (c : Core) (n : Nat) : (c.tick n).csr = c.csr := rfl
@[simp] theorem Core.tick_toks (c : Core) (n : Nat) : (c.tick n).toks = c.toks := rfl
@[simp] theorem Core.tick_fly (c : Core) (n : Nat) : (c.tick n).fly = c.fly := rfl
@[simp] theorem Core.tick_loads (c : Core) (n : Nat) : (c.tick n).loads = c.loads := rfl
@[simp] theorem Core.tick_mq (c : Core) (n : Nat) : (c.tick n).mq = c.mq := rfl
@[simp] theorem Core.tick_cmds (c : Core) (n : Nat) : (c.tick n).cmds = c.cmds := rfl
@[simp] theorem Core.tick_itin (c : Core) (n : Nat) : (c.tick n).itin = c.itin := rfl
@[simp] theorem Core.tick_pins (c : Core) (n : Nat) : (c.tick n).pins = c.pins := rfl
@[simp] theorem Core.tick_wants (c : Core) (n : Nat) : (c.tick n).wants = c.wants := rfl
@[simp] theorem Core.tick_l0 (c : Core) (n : Nat) : (c.tick n).l0 = c.l0 := rfl
@[simp] theorem Core.tick_task (c : Core) (n : Nat) : (c.tick n).task = c.task := rfl
@[simp] theorem Core.tick_preempt (c : Core) (n : Nat) : (c.tick n).preempt = c.preempt := rfl
@[simp] theorem Core.tick_xfer (c : Core) (n : Nat) : (c.tick n).xfer = c.xfer := rfl
@[simp] theorem Core.tick_abort (c : Core) (n : Nat) : (c.tick n).abort = c.abort := rfl
@[simp] theorem Core.tick_settle (c : Core) (n : Nat) : (c.tick n).settle = c.settle := rfl
@[simp] theorem Core.tick_stalled (c : Core) (n : Nat) : (c.tick n).stalled = c.stalled := rfl
@[simp] theorem Core.tick_fpBegan (c : Core) (n : Nat) : (c.tick n).fpBegan = c.fpBegan := rfl
@[simp] theorem Core.tick_nextSeq (c : Core) (n : Nat) : (c.tick n).nextSeq = c.nextSeq := rfl
@[simp] theorem Core.tick_tcWait (c : Core) (n : Nat) : (c.tick n).tcWait = c.tcWait := rfl
@[simp] theorem Core.tick_tcFlt (c : Core) (n : Nat) : (c.tick n).tcFlt = c.tcFlt := rfl
@[simp] theorem Core.tick_hostAt (c : Core) (n : Nat) : (c.tick n).hostAt = c.hostAt := rfl

@[simp] theorem Core.orFp_run (c : Core) (fl : Nat) : (c.orFp fl).run = c.run := rfl
@[simp] theorem Core.orFp_pc (c : Core) (fl : Nat) : (c.orFp fl).pc = c.pc := rfl
@[simp] theorem Core.orFp_via (c : Core) (fl : Nat) : (c.orFp fl).via = c.via := rfl
@[simp] theorem Core.orFp_iter (c : Core) (fl : Nat) : (c.orFp fl).iter = c.iter := rfl
@[simp] theorem Core.orFp_regs (c : Core) (fl : Nat) : (c.orFp fl).regs = c.regs := rfl
@[simp] theorem Core.orFp_toks (c : Core) (fl : Nat) : (c.orFp fl).toks = c.toks := rfl
@[simp] theorem Core.orFp_fly (c : Core) (fl : Nat) : (c.orFp fl).fly = c.fly := rfl
@[simp] theorem Core.orFp_loads (c : Core) (fl : Nat) : (c.orFp fl).loads = c.loads := rfl
@[simp] theorem Core.orFp_mq (c : Core) (fl : Nat) : (c.orFp fl).mq = c.mq := rfl
@[simp] theorem Core.orFp_cmds (c : Core) (fl : Nat) : (c.orFp fl).cmds = c.cmds := rfl
@[simp] theorem Core.orFp_itin (c : Core) (fl : Nat) : (c.orFp fl).itin = c.itin := rfl
@[simp] theorem Core.orFp_pins (c : Core) (fl : Nat) : (c.orFp fl).pins = c.pins := rfl
@[simp] theorem Core.orFp_wants (c : Core) (fl : Nat) : (c.orFp fl).wants = c.wants := rfl
@[simp] theorem Core.orFp_l0 (c : Core) (fl : Nat) : (c.orFp fl).l0 = c.l0 := rfl
@[simp] theorem Core.orFp_task (c : Core) (fl : Nat) : (c.orFp fl).task = c.task := rfl
@[simp] theorem Core.orFp_preempt (c : Core) (fl : Nat) : (c.orFp fl).preempt = c.preempt := rfl
@[simp] theorem Core.orFp_preCyc (c : Core) (fl : Nat) : (c.orFp fl).preCyc = c.preCyc := rfl
@[simp] theorem Core.orFp_hCyc (c : Core) (fl : Nat) : (c.orFp fl).hCyc = c.hCyc := rfl
@[simp] theorem Core.orFp_tCyc (c : Core) (fl : Nat) : (c.orFp fl).tCyc = c.tCyc := rfl
@[simp] theorem Core.orFp_xfer (c : Core) (fl : Nat) : (c.orFp fl).xfer = c.xfer := rfl
@[simp] theorem Core.orFp_abort (c : Core) (fl : Nat) : (c.orFp fl).abort = c.abort := rfl
@[simp] theorem Core.orFp_settle (c : Core) (fl : Nat) : (c.orFp fl).settle = c.settle := rfl
@[simp] theorem Core.orFp_stalled (c : Core) (fl : Nat) : (c.orFp fl).stalled = c.stalled := rfl
@[simp] theorem Core.orFp_fpBegan (c : Core) (fl : Nat) : (c.orFp fl).fpBegan = c.fpBegan := rfl
@[simp] theorem Core.orFp_nextSeq (c : Core) (fl : Nat) : (c.orFp fl).nextSeq = c.nextSeq := rfl
@[simp] theorem Core.orFp_tcWait (c : Core) (fl : Nat) : (c.orFp fl).tcWait = c.tcWait := rfl
@[simp] theorem Core.orFp_tcFlt (c : Core) (fl : Nat) : (c.orFp fl).tcFlt = c.tcFlt := rfl
@[simp] theorem Core.orFp_hostAt (c : Core) (fl : Nat) : (c.orFp fl).hostAt = c.hostAt := rfl

@[simp] theorem Core.setTok_run (c : Core) (t : Nat) (x : Tok) : (c.setTok t x).run = c.run := rfl
@[simp] theorem Core.setTok_pc (c : Core) (t : Nat) (x : Tok) : (c.setTok t x).pc = c.pc := rfl
@[simp] theorem Core.setTok_via (c : Core) (t : Nat) (x : Tok) : (c.setTok t x).via = c.via := rfl
@[simp] theorem Core.setTok_iter (c : Core) (t : Nat) (x : Tok) : (c.setTok t x).iter = c.iter := rfl
@[simp] theorem Core.setTok_regs (c : Core) (t : Nat) (x : Tok) : (c.setTok t x).regs = c.regs := rfl
@[simp] theorem Core.setTok_csr (c : Core) (t : Nat) (x : Tok) : (c.setTok t x).csr = c.csr := rfl
@[simp] theorem Core.setTok_fly (c : Core) (t : Nat) (x : Tok) : (c.setTok t x).fly = c.fly := rfl
@[simp] theorem Core.setTok_loads (c : Core) (t : Nat) (x : Tok) : (c.setTok t x).loads = c.loads := rfl
@[simp] theorem Core.setTok_mq (c : Core) (t : Nat) (x : Tok) : (c.setTok t x).mq = c.mq := rfl
@[simp] theorem Core.setTok_cmds (c : Core) (t : Nat) (x : Tok) : (c.setTok t x).cmds = c.cmds := rfl
@[simp] theorem Core.setTok_itin (c : Core) (t : Nat) (x : Tok) : (c.setTok t x).itin = c.itin := rfl
@[simp] theorem Core.setTok_pins (c : Core) (t : Nat) (x : Tok) : (c.setTok t x).pins = c.pins := rfl
@[simp] theorem Core.setTok_wants (c : Core) (t : Nat) (x : Tok) : (c.setTok t x).wants = c.wants := rfl
@[simp] theorem Core.setTok_l0 (c : Core) (t : Nat) (x : Tok) : (c.setTok t x).l0 = c.l0 := rfl
@[simp] theorem Core.setTok_task (c : Core) (t : Nat) (x : Tok) : (c.setTok t x).task = c.task := rfl
@[simp] theorem Core.setTok_preempt (c : Core) (t : Nat) (x : Tok) : (c.setTok t x).preempt = c.preempt := rfl
@[simp] theorem Core.setTok_preCyc (c : Core) (t : Nat) (x : Tok) : (c.setTok t x).preCyc = c.preCyc := rfl
@[simp] theorem Core.setTok_hCyc (c : Core) (t : Nat) (x : Tok) : (c.setTok t x).hCyc = c.hCyc := rfl
@[simp] theorem Core.setTok_tCyc (c : Core) (t : Nat) (x : Tok) : (c.setTok t x).tCyc = c.tCyc := rfl
@[simp] theorem Core.setTok_xfer (c : Core) (t : Nat) (x : Tok) : (c.setTok t x).xfer = c.xfer := rfl
@[simp] theorem Core.setTok_abort (c : Core) (t : Nat) (x : Tok) : (c.setTok t x).abort = c.abort := rfl
@[simp] theorem Core.setTok_settle (c : Core) (t : Nat) (x : Tok) : (c.setTok t x).settle = c.settle := rfl
@[simp] theorem Core.setTok_stalled (c : Core) (t : Nat) (x : Tok) : (c.setTok t x).stalled = c.stalled := rfl
@[simp] theorem Core.setTok_fpBegan (c : Core) (t : Nat) (x : Tok) : (c.setTok t x).fpBegan = c.fpBegan := rfl
@[simp] theorem Core.setTok_nextSeq (c : Core) (t : Nat) (x : Tok) : (c.setTok t x).nextSeq = c.nextSeq := rfl
@[simp] theorem Core.setTok_tcWait (c : Core) (t : Nat) (x : Tok) : (c.setTok t x).tcWait = c.tcWait := rfl
@[simp] theorem Core.setTok_tcFlt (c : Core) (t : Nat) (x : Tok) : (c.setTok t x).tcFlt = c.tcFlt := rfl
@[simp] theorem Core.setTok_hostAt (c : Core) (t : Nat) (x : Tok) : (c.setTok t x).hostAt = c.hostAt := rfl

@[simp] theorem Core.cancel_run (c : Core) (d : Dest) : (c.cancel d).run = c.run := rfl
@[simp] theorem Core.cancel_pc (c : Core) (d : Dest) : (c.cancel d).pc = c.pc := rfl
@[simp] theorem Core.cancel_via (c : Core) (d : Dest) : (c.cancel d).via = c.via := rfl
@[simp] theorem Core.cancel_iter (c : Core) (d : Dest) : (c.cancel d).iter = c.iter := rfl
@[simp] theorem Core.cancel_regs (c : Core) (d : Dest) : (c.cancel d).regs = c.regs := rfl
@[simp] theorem Core.cancel_csr (c : Core) (d : Dest) : (c.cancel d).csr = c.csr := rfl
@[simp] theorem Core.cancel_toks (c : Core) (d : Dest) : (c.cancel d).toks = c.toks := rfl
@[simp] theorem Core.cancel_loads (c : Core) (d : Dest) : (c.cancel d).loads = c.loads := rfl
@[simp] theorem Core.cancel_mq (c : Core) (d : Dest) : (c.cancel d).mq = c.mq := rfl
@[simp] theorem Core.cancel_cmds (c : Core) (d : Dest) : (c.cancel d).cmds = c.cmds := rfl
@[simp] theorem Core.cancel_itin (c : Core) (d : Dest) : (c.cancel d).itin = c.itin := rfl
@[simp] theorem Core.cancel_pins (c : Core) (d : Dest) : (c.cancel d).pins = c.pins := rfl
@[simp] theorem Core.cancel_wants (c : Core) (d : Dest) : (c.cancel d).wants = c.wants := rfl
@[simp] theorem Core.cancel_l0 (c : Core) (d : Dest) : (c.cancel d).l0 = c.l0 := rfl
@[simp] theorem Core.cancel_task (c : Core) (d : Dest) : (c.cancel d).task = c.task := rfl
@[simp] theorem Core.cancel_preempt (c : Core) (d : Dest) : (c.cancel d).preempt = c.preempt := rfl
@[simp] theorem Core.cancel_preCyc (c : Core) (d : Dest) : (c.cancel d).preCyc = c.preCyc := rfl
@[simp] theorem Core.cancel_hCyc (c : Core) (d : Dest) : (c.cancel d).hCyc = c.hCyc := rfl
@[simp] theorem Core.cancel_tCyc (c : Core) (d : Dest) : (c.cancel d).tCyc = c.tCyc := rfl
@[simp] theorem Core.cancel_xfer (c : Core) (d : Dest) : (c.cancel d).xfer = c.xfer := rfl
@[simp] theorem Core.cancel_abort (c : Core) (d : Dest) : (c.cancel d).abort = c.abort := rfl
@[simp] theorem Core.cancel_settle (c : Core) (d : Dest) : (c.cancel d).settle = c.settle := rfl
@[simp] theorem Core.cancel_stalled (c : Core) (d : Dest) : (c.cancel d).stalled = c.stalled := rfl
@[simp] theorem Core.cancel_fpBegan (c : Core) (d : Dest) : (c.cancel d).fpBegan = c.fpBegan := rfl
@[simp] theorem Core.cancel_nextSeq (c : Core) (d : Dest) : (c.cancel d).nextSeq = c.nextSeq := rfl
@[simp] theorem Core.cancel_tcWait (c : Core) (d : Dest) : (c.cancel d).tcWait = c.tcWait := rfl
@[simp] theorem Core.cancel_tcFlt (c : Core) (d : Dest) : (c.cancel d).tcFlt = c.tcFlt := rfl
@[simp] theorem Core.cancel_hostAt (c : Core) (d : Dest) : (c.cancel d).hostAt = c.hostAt := rfl

/-- A register write changes the register files alone. -/
theorem Core.write_eq (c : Core) (d : Dest) (v : Nat) (m : Option Nat) : c.write d v m = { c with regs := (c.write d v m).regs } := by
  cases d <;> simp only [Core.write] <;> repeat' split
  all_goals rfl
@[simp] theorem Core.write_run (c : Core) (d : Dest) (v : Nat) (m : Option Nat) : (c.write d v m).run = c.run := by rw [Core.write_eq]
@[simp] theorem Core.write_pc (c : Core) (d : Dest) (v : Nat) (m : Option Nat) : (c.write d v m).pc = c.pc := by rw [Core.write_eq]
@[simp] theorem Core.write_via (c : Core) (d : Dest) (v : Nat) (m : Option Nat) : (c.write d v m).via = c.via := by rw [Core.write_eq]
@[simp] theorem Core.write_iter (c : Core) (d : Dest) (v : Nat) (m : Option Nat) : (c.write d v m).iter = c.iter := by rw [Core.write_eq]
@[simp] theorem Core.write_csr (c : Core) (d : Dest) (v : Nat) (m : Option Nat) : (c.write d v m).csr = c.csr := by rw [Core.write_eq]
@[simp] theorem Core.write_toks (c : Core) (d : Dest) (v : Nat) (m : Option Nat) : (c.write d v m).toks = c.toks := by rw [Core.write_eq]
@[simp] theorem Core.write_fly (c : Core) (d : Dest) (v : Nat) (m : Option Nat) : (c.write d v m).fly = c.fly := by rw [Core.write_eq]
@[simp] theorem Core.write_loads (c : Core) (d : Dest) (v : Nat) (m : Option Nat) : (c.write d v m).loads = c.loads := by rw [Core.write_eq]
@[simp] theorem Core.write_mq (c : Core) (d : Dest) (v : Nat) (m : Option Nat) : (c.write d v m).mq = c.mq := by rw [Core.write_eq]
@[simp] theorem Core.write_cmds (c : Core) (d : Dest) (v : Nat) (m : Option Nat) : (c.write d v m).cmds = c.cmds := by rw [Core.write_eq]
@[simp] theorem Core.write_itin (c : Core) (d : Dest) (v : Nat) (m : Option Nat) : (c.write d v m).itin = c.itin := by rw [Core.write_eq]
@[simp] theorem Core.write_pins (c : Core) (d : Dest) (v : Nat) (m : Option Nat) : (c.write d v m).pins = c.pins := by rw [Core.write_eq]
@[simp] theorem Core.write_wants (c : Core) (d : Dest) (v : Nat) (m : Option Nat) : (c.write d v m).wants = c.wants := by rw [Core.write_eq]
@[simp] theorem Core.write_l0 (c : Core) (d : Dest) (v : Nat) (m : Option Nat) : (c.write d v m).l0 = c.l0 := by rw [Core.write_eq]
@[simp] theorem Core.write_task (c : Core) (d : Dest) (v : Nat) (m : Option Nat) : (c.write d v m).task = c.task := by rw [Core.write_eq]
@[simp] theorem Core.write_preempt (c : Core) (d : Dest) (v : Nat) (m : Option Nat) : (c.write d v m).preempt = c.preempt := by rw [Core.write_eq]
@[simp] theorem Core.write_preCyc (c : Core) (d : Dest) (v : Nat) (m : Option Nat) : (c.write d v m).preCyc = c.preCyc := by rw [Core.write_eq]
@[simp] theorem Core.write_hCyc (c : Core) (d : Dest) (v : Nat) (m : Option Nat) : (c.write d v m).hCyc = c.hCyc := by rw [Core.write_eq]
@[simp] theorem Core.write_tCyc (c : Core) (d : Dest) (v : Nat) (m : Option Nat) : (c.write d v m).tCyc = c.tCyc := by rw [Core.write_eq]
@[simp] theorem Core.write_xfer (c : Core) (d : Dest) (v : Nat) (m : Option Nat) : (c.write d v m).xfer = c.xfer := by rw [Core.write_eq]
@[simp] theorem Core.write_abort (c : Core) (d : Dest) (v : Nat) (m : Option Nat) : (c.write d v m).abort = c.abort := by rw [Core.write_eq]
@[simp] theorem Core.write_settle (c : Core) (d : Dest) (v : Nat) (m : Option Nat) : (c.write d v m).settle = c.settle := by rw [Core.write_eq]
@[simp] theorem Core.write_stalled (c : Core) (d : Dest) (v : Nat) (m : Option Nat) : (c.write d v m).stalled = c.stalled := by rw [Core.write_eq]
@[simp] theorem Core.write_fpBegan (c : Core) (d : Dest) (v : Nat) (m : Option Nat) : (c.write d v m).fpBegan = c.fpBegan := by rw [Core.write_eq]
@[simp] theorem Core.write_nextSeq (c : Core) (d : Dest) (v : Nat) (m : Option Nat) : (c.write d v m).nextSeq = c.nextSeq := by rw [Core.write_eq]
@[simp] theorem Core.write_tcWait (c : Core) (d : Dest) (v : Nat) (m : Option Nat) : (c.write d v m).tcWait = c.tcWait := by rw [Core.write_eq]
@[simp] theorem Core.write_tcFlt (c : Core) (d : Dest) (v : Nat) (m : Option Nat) : (c.write d v m).tcFlt = c.tcFlt := by rw [Core.write_eq]
@[simp] theorem Core.write_hostAt (c : Core) (d : Dest) (v : Nat) (m : Option Nat) : (c.write d v m).hostAt = c.hostAt := by rw [Core.write_eq]

/-! ## Reads of tables after updates -/

@[simp] theorem State.setCore_core_self (s : State) (k : Nat) (c : Core) : (s.setCore k c).core k = c := by
  simp [State.setCore, State.core]
theorem State.setCore_core_of_ne (s : State) {k j : Nat} (c : Core) (h : j ≠ k) : (s.setCore k c).core j = s.core j := by
  simp [State.setCore, State.core, mget_mput_of_ne h]
@[simp] theorem State.updCore_core_self (s : State) (k : Nat) (f : Core → Core) : (s.updCore k f).core k = f (s.core k) := by
  simp [State.updCore]
theorem State.updCore_core_of_ne (s : State) {k j : Nat} (f : Core → Core) (h : j ≠ k) : (s.updCore k f).core j = s.core j :=
  State.setCore_core_of_ne s _ h
@[simp] theorem State.updMe_me (s : State) (f : Core → Core) : (s.updMe f).me = f s.me := by
  show (s.updCore s.cur f).core s.cur = f (s.core s.cur)
  simp
theorem State.updMe_core_of_ne (s : State) {j : Nat} (f : Core → Core) (h : j ≠ s.cur) : (s.updMe f).core j = s.core j :=
  State.setCore_core_of_ne s _ h
@[simp] theorem State.updCluster_cluster_self (s : State) (k : Nat) (f : Cluster → Cluster) :
    (s.updCluster k f).cluster k = f (s.cluster k) := by
  simp [State.updCluster, State.cluster]
theorem State.updCluster_cluster_of_ne (s : State) {k j : Nat} (f : Cluster → Cluster) (h : j ≠ k) :
    (s.updCluster k f).cluster j = s.cluster j := by
  simp [State.updCluster, State.cluster, mget_mput_of_ne h]
@[simp] theorem State.updPart_part_self (s : State) (p : Nat) (f : Part → Part) : (s.updPart p f).part p = f (s.part p) := by
  simp [State.updPart, State.part]
theorem State.updPart_part_of_ne (s : State) {p q : Nat} (f : Part → Part) (h : q ≠ p) : (s.updPart p f).part q = s.part q := by
  simp [State.updPart, State.part, mget_mput_of_ne h]

/-! ## Bytes of memory -/

/-- A write leaves every byte outside it as it was. -/
theorem State.wrBytes_byte_outside (s : State) {pa a : Nat} {l : List Byte} (h : a < pa ∨ pa + l.length ≤ a) :
    (s.wrBytes pa l).byte a = s.byte a := mget_msetBytes_outside h
/-- The bytes written read back. -/
theorem State.wrBytes_bytes (s : State) (pa : Nat) (l : List Byte) : (s.wrBytes pa l).bytes pa l.length = l := mgetBytes_msetBytes
/-- A number written in n bytes reads back modulo 256 to the n. -/
theorem State.wrMem_rdMem (s : State) (pa n v : Nat) : (s.wrMem pa n v).rdMem pa n = v % 256 ^ n := by
  have h := State.wrBytes_bytes s pa (toBytes n v)
  rw [toBytes_length] at h
  simp only [State.rdMem, State.wrMem, h, ofBytes_toBytes]

end Sys2Proof.Machine
end

