-- ==== Sys2Proof/Laws/Issue.lean ====
section
/-! SUPPORT. What an instruction alone in its bundle does: the state it commits to from its slot effect, and the forms of it that
statements use (Gives, GivesLater, DoesTo); what a trap, a return and a fault record leave. -/

namespace Sys2Proof.Machine

/-! ## Counters -/

theorem State.countEv_eq (s : State) (u e p n : Nat) : s.countEv u e p n = { s with pmcs := (s.countEv u e p n).pmcs } := rfl
/-- Counting changes the performance counters alone. -/
theorem State.countCore_eq (s : State) (k : Nat) (l : List (Nat × Nat)) : s.countCore k l = { s with pmcs := (s.countCore k l).pmcs } := by
  unfold State.countCore
  suffices h : ∀ t : State, t = { s with pmcs := t.pmcs } →
      l.foldl (fun s e => if e.2 == 0 then s else s.countEv k e.1 (s.core k).csr.partid.toNat e.2) t =
      { s with pmcs := (l.foldl (fun s e => if e.2 == 0 then s else s.countEv k e.1 (s.core k).csr.partid.toNat e.2) t).pmcs } from h s rfl
  induction l with
  | nil => exact fun t h => h
  | cons x l ih =>
    intro t h
    refine ih _ ?_
    dsimp only
    split
    · exact h
    · rw [h]; rfl
theorem State.countTrap_eq (s : State) (c : Core) : s.countTrap c = { s with pmcs := (s.countTrap c).pmcs } := State.countCore_eq ..
theorem State.countCommit_eq (s t : State) : s.countCommit t = { s with pmcs := (s.countCommit t).pmcs } := by
  unfold State.countCommit
  extract_lets new
  rw [State.countTrap_eq, State.countCore_eq]

/-! ## Memory as fetch reads it -/

/-- Two states that differ in no more than the cores and the performance counters. -/
def State.Alike (s t : State) : Prop := t = { s with cores := t.cores, pmcs := t.pmcs }

theorem State.Alike.fetchWord {s t : State} (h : s.Alike t) (p a : Nat) : t.fetchWord p a = s.fetchWord p a := by
  rw [State.Alike] at h
  rw [h]
  rfl
/-- Sequential fetch depends on neither the cores nor the counters. -/
theorem State.Alike.skipPads {s t : State} (h : s.Alike t) (p n a : Nat) : t.skipPads p n a = s.skipPads p n a := by
  induction n generalizing a with
  | zero => rfl
  | succ n ih =>
    simp only [State.skipPads, h.fetchWord]
    split
    · simp only [ih]
    · rfl

theorem State.Alike.trans {s t u : State} (h : s.Alike t) (g : t.Alike u) : s.Alike u := by
  unfold State.Alike at *
  rw [g, h]
theorem State.alike_updMe (s : State) (f : Core → Core) : s.Alike (s.updMe f) := rfl
theorem State.alike_count (s : State) (k : Nat) (l : List (Nat × Nat)) : s.Alike (s.countCore k l) := by
  rw [State.countCore_eq]; rfl
theorem State.alike_commit (s t : State) : s.Alike (s.countCommit t) := by
  rw [State.countCommit_eq]; rfl
theorem State.alike_trap (s : State) (c : Core) : s.Alike (s.countTrap c) := by
  rw [State.countTrap_eq]; rfl

/-! ## Registers -/

/-- What a write leaves in the register files depends on the register files alone. -/
theorem Core.write_regs_of {c d : Core} (h : c.regs = d.regs) (x : Dest) (v : Nat) (m : Option Nat) :
    (c.write x v m).regs = (d.write x v m).regs := by
  cases x <;> simp only [Core.write, Core.rv, Core.rk, Core.rq, Core.re, h] <;> repeat' split
  all_goals simp_all
theorem Core.landAll_eq (c : Core) (l : List Fly) : c.landAll l = { c with regs := (c.landAll l).regs } := by
  suffices h : ∀ d : Core, d = { c with regs := d.regs } → d.landAll l = { c with regs := (d.landAll l).regs } from h c rfl
  induction l with
  | nil => exact fun d h => h
  | cons f l ih =>
    intro d h
    refine ih (d.write f.dest f.val f.mask) ?_
    rw [Core.write_eq, h]
theorem Core.landAll_regs_of {c d : Core} (h : c.regs = d.regs) (l : List Fly) : (c.landAll l).regs = (d.landAll l).regs := by
  induction l generalizing c d with
  | nil => exact h
  | cons f l ih => exact ih (Core.write_regs_of h ..)
theorem Core.landAll_append (c : Core) (l m : List Fly) : c.landAll (l ++ m) = (c.landAll l).landAll m := List.foldl_append ..
/-- Ageing changes the register files and the results in flight alone, as those two determine. -/
theorem Core.age_eq (c : Core) : c.age = { c with regs := c.age.regs, fly := c.age.fly } := by
  simp only [Core.age]
  rw [Core.landAll_eq]
theorem Core.age_regs_of {c d : Core} (h : c.regs = d.regs) (g : c.fly = d.fly) : c.age.regs = d.age.regs := by
  simp only [Core.age, g]
  exact Core.landAll_regs_of h _
theorem Core.age_fly_of {c d : Core} (g : c.fly = d.fly) : c.age.fly = d.age.fly := by
  simp only [Core.age, g]
/-- New results enter flight behind the others: those of latency 1 land last. -/
theorem Core.age_append (c : Core) (l : List Fly) :
    ({ c with fly := c.fly ++ l } : Core).age.regs =
      (c.age.landAll ((l.map (fun f => { f with left := f.left - 1 })).filter (fun f => f.left == 0))).regs ∧
    ({ c with fly := c.fly ++ l } : Core).age.fly =
      c.age.fly ++ (l.map (fun f => { f with left := f.left - 1 })).filter (fun f => f.left != 0) := by
  simp only [Core.age, List.map_append, List.filter_append]
  simp only [Core.landAll_append, and_true]
  exact Core.landAll_regs_of (by
    rw [Core.landAll_regs_of (c := { c with fly := c.fly ++ l }) (d := c) rfl]) _

/-- Landing every result changes the register files and the results in flight alone. -/
theorem Core.settleFly_eq (c : Core) : c.settleFly = { c with regs := c.settleFly.regs, fly := [] } := by
  suffices h : ∀ (l : List Nat) (d : Core), d = { c with regs := d.regs } →
      l.foldl (fun d n => d.landAll (c.fly.filter (fun f => f.left == n))) d =
      { c with regs := (l.foldl (fun d n => d.landAll (c.fly.filter (fun f => f.left == n))) d).regs } by
    simp only [Core.settleFly]
    rw [h (upFrom 0 19) c rfl]
  intro l
  induction l with
  | nil => exact fun d h => h
  | cons n l ih =>
    intro d h
    refine ih (d.landAll _) ?_
    rw [Core.landAll_eq, h]

@[simp] theorem Core.orFp_zero (c : Core) : c.orFp 0 = c := by
  simp [Core.orFp]

/-! ## An instruction alone in its bundle -/

/-- What a slot's faults depend on is among what it reads (R76, R80). -/
theorem faultSrcs_sub (i : Instr) : ∀ d ∈ faultSrcs i, d ∈ srcsOf i := by
  cases i <;> simp [faultSrcs, srcsOf, Instr.cls, lBase, srcsX, srcsL]
  split <;> simp
theorem Core.dark_of_hazard {c : Core} {i : Instr} (h : c.hazard i = false) : c.awaits (faultSrcs i) = false := by
  simp only [Core.hazard, Core.awaits, Bool.and_eq_false_iff, List.any_eq_false, List.mem_append] at h ⊢
  exact h.imp id (fun h d hd => h d (.inl (faultSrcs_sub i d hd)))

/-- What a ready slot asks for is what its meaning asks for. -/
theorem presentSlot_eff {i : Instr} {sem : State → SlotEff} {s : State} (hz : s.me.hazard i = false) (hg : s.me.guard i.guard = true)
    (hl : i.slot ≠ .l ∨ s.me.loads.any (fun l => l.acq) = false) : (presentSlot i.slot i sem).eff s = sem s := by
  have hs : (i.slot == Slot.l && s.me.loads.any (fun l => l.acq)) = false := by
    rcases hl with h | h
    · simp [h]
    · simp [h]
  simp only [SlotRun.eff, presentSlot, SlotRun.view, SlotRun.advWaits, SlotRun.advance, hg, hz, hs, Core.dark_of_hazard hz, if_true,
    Bool.or_false, Bool.false_eq_true, if_false]

/-- What follows the effect v of an instruction alone in its bundle that began at s: the bundle retires and counts. -/
def afterCommit (i : Instr) (sem : State → SlotEff) (s v : State) : State :=
  (((soleBundle i sem).retire s v).countCommit s).countCore s.cur [(1, 1)]

/-- An instruction that executes and asks for no fault, delivery or wait commits. -/
theorem runSole_commit {i : Instr} {sem : State → SlotEff} {s : State} {e : SlotEff} (hr : Runs i s)
    (hw : s.me.csr.safedist.toNat < 2048 ∨ (soleBundle i sem).watchdog s.me = false)
    (hl : i.slot ≠ .l ∨ s.me.loads.any (fun l => l.acq) = false)
    (hi : (presentSlot i.slot i sem).illegal s = false) (hs : sem s = e)
    (he : e.flt = none ∧ e.errs = [] ∧ e.wait = false ∧ e.late = [] ∧ e.ask = none) :
    runSole i sem s = .next (afterCommit i sem s (e.commit s.clean)) := by
  obtain ⟨h1, h2, h3, h4⟩ := hr
  have hwd : (soleBundle i sem).watchdog s.me = false := by
    rcases hw with h | h
    · simp only [Bundle.watchdog]
      rw [show Nat.ble 2048 s.me.csr.safedist.toNat = false by
        rw [← Bool.not_eq_true, Nat.ble_eq]; omega]
      simp
    · exact h
  have hst : (s.me.settle && !s.me.loads.isEmpty) = false := by
    rcases h2 with h | h <;> simp [h]
  have hef := presentSlot_eff (sem := sem) h3 h4 hl
  simp only [soleBundle] at hwd
  simp only [runSole, Bundle.run, h1, hst, hwd, soleBundle, List.any_cons, List.any_nil, hi, Bool.or_false, bne_self_eq_false,
    Bool.false_eq_true, if_false]
  congr 1
  simp only [Bundle.iterate, List.map_cons, List.map_nil, hef, hs, List.findSome?_cons, List.findSome?_nil, he.1, List.flatMap_cons,
    List.flatMap_nil, he.2.1, he.2.2.1, he.2.2.2.1, he.2.2.2.2, List.append_nil, lowest, ite_self, List.any_cons, List.any_nil, Bool.or_false,
    Bool.false_eq_true, if_false, Bundle.commit, List.foldl_cons, List.foldl_nil]
  rfl

/-- A failing guard: nothing but the passing of the bundle (R65). -/
theorem presentSlot_eff_off {i : Instr} {sem : State → SlotEff} {s : State} (hg : s.me.guard i.guard = false) :
    (presentSlot i.slot i sem).eff s = {} := by
  simp only [SlotRun.eff, presentSlot, SlotRun.view, SlotRun.advWaits, hg, Bool.false_eq_true, if_false]
  rfl

theorem soleBundle_records (i : Instr) (sem : State → SlotEff) (c : Core) :
    (soleBundle i sem).records c = { c with csr := { c.csr with
      stickv0 := if i.cls = some .v then recordOf i else c.csr.stickv0
      stickl := if i.cls = some .l then recordOf i else c.csr.stickl } } := by
  simp only [Bundle.records, soleBundle, presentSlot, Instr.slot, List.foldl_cons, List.foldl_nil]
  cases i.cls with
  | none => rfl
  | some k => cases k <;> rfl

/-- The end of an iteration without a transfer. -/
theorem Core.resolve_none {c c0 : Core} {b : Bundle} {next : Nat} (hx : c.xfer = .none) (hm : c.hm = c0.hm) (hp : c.preempt = c0.preempt)
    (hb : b.rep = 0) :
    ((c.countSafe c0).tick 1).resolve c0 b next = { c with
      pc := if loopEnd c0 && c0.csr.lcnt != 1 then c0.csr.lbeg.toNat else next
      via := if loopEnd c0 && c0.csr.lcnt != 1 then .target else .seq
      iter := 0
      csr := { c.csr with
        safedist := if c0.hm then c.csr.safedist else c.csr.safedist + 1
        lcnt := if loopEnd c0 then c0.csr.lcnt - 1 else c.csr.lcnt }
      tCyc := c.tCyc + 1
      hCyc := if c0.hm then c.hCyc + 1 else c.hCyc
      preCyc := if c0.preempt then c.preCyc + 1 else c.preCyc } := by
  have hbl : Nat.blt c0.iter 0 = false := by
    rw [← Bool.not_eq_true, Nat.blt_eq]; omega
  have h1 : c.countSafe c0 = if c0.hm then c else { c with csr := { c.csr with safedist := c.csr.safedist + 1 } } := by
    simp only [Core.countSafe, hx]
  have h2 : ∀ d : Core, d.xfer = .none → d.resolve c0 b next = { d with xfer := .none }.fallThrough c0 next false := by
    intro d hd
    simp only [Core.resolve, hd, hb, hbl, Bool.false_eq_true, if_false]
  rw [h2 _ (by rw [h1]; split <;> exact hx), h1]
  by_cases h : c0.hm = true <;> by_cases hl : loopEnd c0 = true <;> by_cases h3 : (c0.csr.lcnt == 1) = true <;>
    by_cases hq : c0.preempt = true <;>
    simp only [Core.fallThrough, Core.tick, Core.goTo, hm, h, hl, h3, hp, hq, bne, hx, Bool.not_true, Bool.not_false, Bool.and_true,
      Bool.and_false, if_true, if_false, Bool.false_eq_true] <;>
    first | rfl | (simp only [Core.hm] at hm h; simp [Core.hm, hm, h])

theorem afterCommit_alike (i : Instr) (sem : State → SlotEff) (s v : State) : v.Alike (afterCommit i sem s v) :=
  ((State.alike_updMe v _).trans (State.alike_commit _ _)).trans (State.alike_count _ _ _)
theorem afterCommit_cores (i : Instr) (sem : State → SlotEff) (s v : State) :
    (afterCommit i sem s v).cores = ((soleBundle i sem).retire s v).cores := by
  unfold afterCommit
  rw [State.countCore_eq, State.countCommit_eq]
theorem afterCommit_core (i : Instr) (sem : State → SlotEff) (s v : State) (k : Nat) :
    (afterCommit i sem s v).core k = ((soleBundle i sem).retire s v).core k := by
  simp only [State.core, afterCommit_cores]
theorem afterCommit_core_of_ne (i : Instr) (sem : State → SlotEff) (s v : State) {k : Nat} (h : k ≠ v.cur) :
    (afterCommit i sem s v).core k = v.core k := by
  rw [afterCommit_core]
  exact State.updMe_core_of_ne v _ h
theorem afterCommit_cur (i : Instr) (sem : State → SlotEff) (s v : State) : (afterCommit i sem s v).cur = v.cur := by
  have h := afterCommit_alike i sem s v
  rw [State.Alike] at h
  rw [h]
theorem afterCommit_me (i : Instr) (sem : State → SlotEff) (s v : State) :
    (afterCommit i sem s v).me = ((((soleBundle i sem).records v.me).age.countSafe s.me).tick 1).resolve s.me (soleBundle i sem)
      (nextBundle i s (afterCommit i sem s v)) := by
  have hn : nextBundle i s (afterCommit i sem s v) =
      v.skipPads s.me.csr.partid.toNat padLimit ((s.me.pc + 4 * (soleBundle i sem).len) % 2 ^ 64) := (afterCommit_alike i sem s v).skipPads ..
  rw [State.me, afterCommit_core, afterCommit_cur, hn]
  exact State.updMe_me v _

/-- The bundle's records and one issue step over a core whose effect put fl in flight. -/
theorem records_age {i : Instr} {sem : State → SlotEff} {c d : Core} {fl : List Fly} (hr : c.regs = d.regs) (hf : c.fly = d.fly ++ fl) :
    ((soleBundle i sem).records c).age = { c with
      csr := { c.csr with
        stickv0 := if i.cls = some .v then recordOf i else c.csr.stickv0
        stickl := if i.cls = some .l then recordOf i else c.csr.stickl }
      regs := (d.age.landAll ((fl.map (fun f => { f with left := f.left - 1 })).filter (fun f => f.left == 0))).regs
      fly := d.age.fly ++ (fl.map (fun f => { f with left := f.left - 1 })).filter (fun f => f.left != 0) } := by
  have hap := Core.age_append d fl
  rw [soleBundle_records, Core.age_eq, ← hap.1, ← hap.2]
  congr 1
  · exact Core.age_regs_of hr hf
  · exact Core.age_fly_of hf

/-- The state that a committing instruction leaves, from u, what its own effect leaves but for the results fl it puts in flight. -/
theorem commits_of {i : Instr} {sem : State → SlotEff} {s u v : State} {fl : List Fly}
    (hv : v.me = { u.me with settle := false, stalled := false, xfer := .none, fly := u.me.fly ++ fl })
    (ha : u.Alike v) (ho : ∀ k, k ≠ s.cur → v.core k = u.core k) (hc : u.cur = s.cur)
    (hu : u.me.run = .task ∧ u.me.hm = s.me.hm ∧ u.me.preempt = s.me.preempt) :
    Commits i s u (afterCommit i sem s v) ∧
    (afterCommit i sem s v).me.regs =
      (u.me.age.landAll ((fl.map (fun f => { f with left := f.left - 1 })).filter (fun f => f.left == 0))).regs ∧
    (afterCommit i sem s v).me.fly = u.me.age.fly ++ (fl.map (fun f => { f with left := f.left - 1 })).filter (fun f => f.left != 0) := by
  have hvc : v.cur = s.cur := by rw [State.Alike] at ha; rw [ha]; exact hc
  have hme := afterCommit_me i sem s v
  rw [records_age (d := u.me) (fl := fl) (by rw [hv]) (by rw [hv]),
    Core.resolve_none (by simp only [hv]) (by rw [hv]; exact hu.2.1) (by rw [hv]; exact hu.2.2) rfl, hv] at hme
  have hal := ha.trans (afterCommit_alike i sem s v)
  refine ⟨⟨?_, ?_, ?_, hal⟩, ?_, ?_⟩
  · rw [hme]
    simp only [hu.1]
    rfl
  · intro k hk
    rw [← ho k hk]
    exact afterCommit_core_of_ne i sem s v (by rw [hvc]; exact hk)
  · intro a
    rw [State.Alike] at hal
    show mget (afterCommit i sem s v).mem a 0 = mget u.mem a 0
    rw [hal]
  · rw [hme]
  · rw [hme]

/-! ## The forms of statements -/

/-- An L slot waits for an ACQ's value; no other slot does (R233). -/
abbrev AcqFree (i : Instr) (s : State) : Prop := i.slot ≠ .l ∨ s.me.loads.any (fun l => l.acq) = false

/-- A committing instruction whose effect u leaves the results in flight as they were but for fl. -/
theorem completes_of {i : Instr} {sem : State → SlotEff} {s u : State} {e : SlotEff} {fl : List Fly} (hx : exec i s = runSole i sem s)
    (hr : Ready i s) (hl : AcqFree i s) (hi : (presentSlot i.slot i sem).illegal s = false) (hs : sem s = e)
    (he : e.flt = none ∧ e.errs = [] ∧ e.wait = false ∧ e.late = [] ∧ e.ask = none)
    (hv : (e.commit s.clean).me = { u.me with settle := false, stalled := false, xfer := .none, fly := u.me.fly ++ fl })
    (ha : u.Alike (e.commit s.clean)) (ho : ∀ k, k ≠ s.cur → (e.commit s.clean).core k = u.core k) (hc : u.cur = s.cur)
    (hu : u.me.run = .task ∧ u.me.hm = s.me.hm ∧ u.me.preempt = s.me.preempt) :
    ∃ t, exec i s = .next t ∧ Commits i s u t ∧
      t.me.regs = (u.me.age.landAll ((fl.map (fun f => { f with left := f.left - 1 })).filter (fun f => f.left == 0))).regs ∧
      t.me.fly = u.me.age.fly ++ (fl.map (fun f => { f with left := f.left - 1 })).filter (fun f => f.left != 0) :=
  ⟨_, hx.trans (runSole_commit hr.1 (.inl hr.2) hl hi hs he), commits_of hv ha ho hc hu⟩

/-- The effect of a result on the running core alone. -/
theorem onCore_completes {i : Instr} {sem : State → SlotEff} {s : State} {f g : Core → Core} {fl : List Fly}
    (hx : exec i s = runSole i sem s) (hr : Ready i s) (hl : AcqFree i s) (hi : (presentSlot i.slot i sem).illegal s = false)
    (hs : sem s = onCore f)
    (hf : f { s.me with settle := false, stalled := false, xfer := .none } =
      { g s.me with settle := false, stalled := false, xfer := .none, fly := s.me.fly ++ fl })
    (hg : (g s.me).run = s.me.run ∧ (g s.me).regs = s.me.regs ∧ (g s.me).fly = s.me.fly ∧ (g s.me).hm = s.me.hm ∧
      (g s.me).preempt = s.me.preempt) :
    ∃ t, exec i s = .next t ∧ Commits i s (s.updMe g) t ∧
      t.me.regs = (s.me.age.landAll ((fl.map (fun f => { f with left := f.left - 1 })).filter (fun f => f.left == 0))).regs ∧
      t.me.fly = s.me.age.fly ++ (fl.map (fun f => { f with left := f.left - 1 })).filter (fun f => f.left != 0) := by
  have hr1 : (s.updMe g).me.age.regs = s.me.age.regs := by
    rw [State.updMe_me]; exact Core.age_regs_of hg.2.1 hg.2.2.1
  have hr2 : (s.updMe g).me.age.fly = s.me.age.fly := by
    rw [State.updMe_me]; exact Core.age_fly_of hg.2.2.1
  have h := completes_of (u := s.updMe g) (fl := fl) hx hr hl hi hs ⟨rfl, rfl, rfl, rfl, rfl⟩ ?_ rfl ?_ rfl ?_
  · obtain ⟨t, h1, h2, h3, h4⟩ := h
    exact ⟨t, h1, h2, h3.trans (Core.landAll_regs_of hr1 _), by rw [h4, hr2]⟩
  · show (s.clean.updMe f).me = _
    rw [State.updMe_me, State.clean, State.updMe_me, hf, State.updMe_me, hg.2.2.1]
  · intro k hk
    exact (State.updMe_core_of_ne s.clean f hk).trans ((State.updMe_core_of_ne s _ hk).trans (State.updMe_core_of_ne s g hk).symm)
  · rw [State.updMe_me]
    exact ⟨hg.1.trans hr.1.1, hg.2.2.2⟩

/-- An effect on the core that is none: what Commits says of it. -/
theorem Commits.of_id {i : Instr} {s t : State} (h : Commits i s (s.updMe id) t) : Commits i s s t := by
  refine ⟨?_, ?_, h.mem, h.rest⟩
  · have h := h.core
    rw [State.updMe_me] at h
    exact h
  · intro k hk
    rw [h.others k hk, State.updMe_core_of_ne _ _ hk]

/-- A result of latency 1. -/
theorem gives_of {i : Instr} {sem : State → SlotEff} {s : State} {d : Dest} {v : Nat} (hx : exec i s = runSole i sem s) (hr : Ready i s)
    (hl : AcqFree i s) (hi : (presentSlot i.slot i sem).illegal s = false) (hs : sem s = result d v 1) : Gives i s d v := by
  obtain ⟨t, h1, h2, h3, h4⟩ := onCore_completes (g := id) (fl := [⟨d, v, none, 1⟩]) hx hr hl hi hs rfl ⟨rfl, rfl, rfl, rfl, rfl⟩
  refine ⟨t, h1, h2.of_id, ⟨?_, ?_⟩⟩
  · rw [h3]; rfl
  · rw [h4]; simp

/-- A result of a longer latency, with flags. -/
theorem givesLater_of {i : Instr} {sem : State → SlotEff} {s : State} {d : Dest} {v lat fl : Nat} (hx : exec i s = runSole i sem s)
    (hr : Ready i s) (hl : AcqFree i s) (hi : (presentSlot i.slot i sem).illegal s = false)
    (hs : sem s = onCore (fun c => (c.put d v none lat).orFp fl)) (h2 : 2 ≤ lat) : GivesLater i s d v lat fl := by
  obtain ⟨t, h1, hc, h3, h4⟩ := onCore_completes (g := fun c => c.orFp fl) (fl := [⟨d, v, none, lat⟩]) hx hr hl hi hs rfl
    ⟨rfl, rfl, rfl, rfl, rfl⟩
  have hl : (lat - 1 == 0) = false := by rw [beq_eq_false_iff_ne]; omega
  refine ⟨t, h1, hc, ⟨?_, ?_⟩⟩
  · rw [h3]; simp [hl, Core.landAll]
  · rw [h4]; simp [hl, bne]

/-- A result of a longer latency without flags. -/
theorem givesLater_result {i : Instr} {sem : State → SlotEff} {s : State} {d : Dest} {v lat : Nat} (hx : exec i s = runSole i sem s)
    (hr : Ready i s) (hl : AcqFree i s) (hi : (presentSlot i.slot i sem).illegal s = false) (hs : sem s = result d v lat) (h2 : 2 ≤ lat) :
    GivesLater i s d v lat 0 :=
  givesLater_of hx hr hl hi (hs.trans (by simp only [result, Core.orFp_zero])) h2

/-- An effect that puts nothing in flight. -/
theorem doesTo_of {i : Instr} {sem : State → SlotEff} {s u : State} {e : SlotEff} (hx : exec i s = runSole i sem s)
    (hr : Ready i s) (hl : AcqFree i s) (hi : (presentSlot i.slot i sem).illegal s = false) (hs : sem s = e)
    (he : e.flt = none ∧ e.errs = [] ∧ e.wait = false ∧ e.late = [] ∧ e.ask = none)
    (hv : (e.commit s.clean).me = { u.me with settle := false, stalled := false, xfer := .none })
    (ha : u.Alike (e.commit s.clean)) (ho : ∀ k, k ≠ s.cur → (e.commit s.clean).core k = u.core k) (hc : u.cur = s.cur)
    (hu : u.me.run = .task ∧ u.me.hm = s.me.hm ∧ u.me.preempt = s.me.preempt) : DoesTo i s u := by
  obtain ⟨t, h1, h2, h3, h4⟩ := completes_of (fl := []) hx hr hl hi hs he (by rw [List.append_nil]; exact hv) ha ho hc hu
  refine ⟨t, h1, h2, ⟨?_, ?_⟩⟩
  · rw [h3]; rfl
  · rw [h4]; simp

/-! ## Guards, traps and returns -/

/-- An instruction whose guard fails commits without an effect (R65). -/
theorem guarded_of {i : Instr} {sem : State → SlotEff} {s : State} (hx : exec i s = runSole i sem s) (h1 : s.me.run = .task)
    (h2 : s.me.settle = false ∨ s.me.loads = []) (hg : s.me.guard i.guard = false) (hw : s.me.csr.safedist.toNat < 2048)
    (hi : (presentSlot i.slot i sem).illegal s = false) : DoesTo i s s := by
  have hwd : (soleBundle i sem).watchdog s.me = false := by
    simp only [Bundle.watchdog]
    rw [show Nat.ble 2048 s.me.csr.safedist.toNat = false by
      rw [← Bool.not_eq_true, Nat.ble_eq]; omega]
    simp
  have hst : (s.me.settle && !s.me.loads.isEmpty) = false := by
    rcases h2 with h | h <;> simp [h]
  have hrun : runSole i sem s = .next (afterCommit i sem s s.clean) := by
    simp only [soleBundle] at hwd
    simp only [runSole, Bundle.run, h1, hst, hwd, soleBundle, List.any_cons, List.any_nil, hi, Bool.or_false, bne_self_eq_false,
      Bool.false_eq_true, if_false]
    congr 1
    simp only [Bundle.iterate, List.map_cons, List.map_nil, presentSlot_eff_off hg, List.findSome?_cons, List.findSome?_nil,
      List.flatMap_cons, List.flatMap_nil, List.append_nil, lowest, ite_self, List.any_cons, List.any_nil, Bool.or_false,
      Bool.false_eq_true, if_false, Bundle.commit, List.foldl_cons, List.foldl_nil]
    rfl
  have hc := commits_of (i := i) (sem := sem) (s := s) (u := s) (v := s.clean) (fl := []) (by
    rw [List.append_nil, State.clean, State.updMe_me]) rfl (fun k hk => State.updMe_core_of_ne s _ hk) rfl ⟨h1, rfl, rfl⟩
  refine ⟨_, hx.trans hrun, hc.1, ⟨?_, ?_⟩⟩
  · rw [hc.2.1]; rfl
  · rw [hc.2.2]; simp

/-- A trap in a task that has a vector and is not in handler mode: what it records, and where control goes (R292). -/
theorem Core.takeTrap_enters (c : Core) (t : TrapRec) (dstep : Bool) (stop : Nat) (hm : c.hm = false) (hv : c.csr.tvec ≠ 0) :
    let d := c.takeTrap t dstep stop
    d.run = .task ∧ d.pc = c.csr.tvec.toNat ∧ d.csr.epc = BitVec.ofNat 64 t.epc ∧ d.csr.repix = BitVec.ofNat 32 t.repix ∧
      d.csr.fltmask = BitVec.ofNat 8 t.fltmask ∧ d.csr.fltcode = t.fltcode ∧ d.csr.fltaddr = BitVec.ofNat 64 t.fltaddr ∧
      d.csr.status = BitVec.ofNat 32 (1 + 2 * dstep.toNat) ∧ d.fly = [] ∧ d.settle = true := by
  have h : (c.hm || c.csr.tvec == 0) = false := by
    rw [hm, Bool.false_or, beq_eq_false_iff_ne]
    exact hv
  simp only [Core.takeTrap, h, Bool.false_eq_true, if_false]
  rw [Core.settleFly_eq]
  simp
/-- Otherwise the task is aborted with the fault (R116, R292). -/
theorem Core.takeTrap_aborts (c : Core) (t : TrapRec) (dstep : Bool) (stop : Nat) (h : c.hm = true ∨ c.csr.tvec = 0) :
    c.takeTrap t dstep stop = c.abortWith ⟨t.code, t.detail, stop, t.fltaddr⟩ := by
  have h : (c.hm || c.csr.tvec == 0) = true := by simpa using h
  simp only [Core.takeTrap, h, if_true]
/-- A return goes on at EPC and leaves handler mode (R149). -/
theorem Core.returnTrap_goes (c : Core) : c.returnTrap.pc = c.csr.epc.toNat ∧ c.returnTrap.iter = c.csr.repix.toNat ∧
    c.returnTrap.csr.status = 0 ∧ c.returnTrap.run = (if bitOf c.csr.status.toNat 1 then .doneWait else .task) := ⟨rfl, rfl, rfl, rfl⟩

/-! ## The other ends of an iteration -/

/-- The premises under which a lone bundle is decided at all: it is not turned away before its slot is asked. -/
structure Asked (i : Instr) (sem : State → SlotEff) (s : State) : Prop where
  ready : Ready i s
  free : AcqFree i s
  legal : (presentSlot i.slot i sem).illegal s = false

/-- A lone instruction's iteration, by what its slot asks for. -/
theorem runSole_iterate {i : Instr} {sem : State → SlotEff} {s : State} (h : Asked i sem s) :
    runSole i sem s = .next (Bundle.iterate (soleBundle i sem) s) ∧
      (soleBundle i sem).slots.map (fun r => (r.slot, r.eff s)) = [(i.slot, sem s)] := by
  obtain ⟨h1, h2, h3, h4⟩ := h.ready.1
  have hwd : (soleBundle i sem).watchdog s.me = false := by
    have h := h.ready.2
    simp only [Bundle.watchdog]
    rw [show Nat.ble 2048 s.me.csr.safedist.toNat = false by
      rw [← Bool.not_eq_true, Nat.ble_eq]; omega]
    simp
  have hst : (s.me.settle && !s.me.loads.isEmpty) = false := by
    rcases h2 with h | h <;> simp [h]
  have hef := presentSlot_eff (sem := sem) h3 h4 h.free
  have hi := h.legal
  constructor
  · simp only [soleBundle] at hwd
    simp only [runSole, Bundle.run, h1, hst, hwd, soleBundle, List.any_cons, List.any_nil, hi, Bool.or_false, bne_self_eq_false,
      Bool.false_eq_true, if_false]
  · simp only [soleBundle, List.map_cons, List.map_nil, hef]
    rfl

/-- A change of the running core, with counting. -/
theorem coreOnly_trap (s : State) (f : Core → Core) (c : Core) : CoreOnly s ((s.updMe f).countTrap c) ∧ ((s.updMe f).countTrap c).me = f s.me := by
  rw [State.countTrap_eq]
  refine ⟨⟨rfl, fun k hk => ?_⟩, ?_⟩
  · exact State.updMe_core_of_ne s f hk
  · exact State.updMe_me s f
theorem coreOnly_count (s : State) (f : Core → Core) (k : Nat) (l : List (Nat × Nat)) :
    CoreOnly s ((s.updMe f).countCore k l) ∧ ((s.updMe f).countCore k l).me = f s.me := by
  rw [State.countCore_eq]
  refine ⟨⟨rfl, fun k hk => ?_⟩, ?_⟩
  · exact State.updMe_core_of_ne s f hk
  · exact State.updMe_me s f

/-- A slot that faults: the trap of R76. -/
theorem traps_of {i : Instr} {sem : State → SlotEff} {s : State} {f : FaultInfo} (hx : exec i s = runSole i sem s) (h : Asked i sem s)
    (hf : (sem s).flt = some f) : Traps i s f.code f.cause f.addr := by
  obtain ⟨h1, h2⟩ := runSole_iterate h
  have he : Bundle.iterate (soleBundle i sem) s = (s.updMe (fun c => c.faultAt f (2 ^ i.slot.bit))).countTrap s.me := by
    simp only [Bundle.iterate, h2, List.findSome?_cons, hf, maskOf, List.foldl_cons, List.foldl_nil, Option.isSome_some, if_true, Nat.zero_add]
  have hc := coreOnly_trap s (fun c => c.faultAt f (2 ^ i.slot.bit)) s.me
  exact ⟨_, hx.trans (h1.trans (congrArg _ he)), hc.1, hc.2⟩
theorem traps_of_faults {i : Instr} {sem : State → SlotEff} {s : State} {code cause addr : Nat} (hx : exec i s = runSole i sem s)
    (h : Asked i sem s) (hs : sem s = faults code cause addr) : Traps i s code cause addr :=
  traps_of hx h (f := ⟨code, cause, addr⟩) (by rw [hs]; rfl)

/-- An encoding that is illegal traps whatever else the slot asks for (R68, R142). -/
theorem traps_of_illegal {i : Instr} {sem : State → SlotEff} {s : State} (hx : exec i s = runSole i sem s) (h1 : s.me.run = .task)
    (h2 : s.me.settle = false ∨ s.me.loads = []) (hi : (presentSlot i.slot i sem).illegal s = true) : Traps i s 2 0 0 := by
  have hst : (s.me.settle && !s.me.loads.isEmpty) = false := by
    rcases h2 with h | h <;> simp [h]
  have hc := coreOnly_trap s (fun c => c.faultAt ⟨2, 0, 0⟩ (2 ^ i.slot.bit)) s.me
  refine ⟨_, hx.trans ?_, hc.1, hc.2⟩
  simp only [runSole, Bundle.run, h1, hst, soleBundle, List.any_cons, List.any_nil, hi, Bool.or_false, bne_self_eq_false,
    Bool.false_eq_true, if_false, if_true, Bundle.maskIf, List.foldl_cons, List.foldl_nil, Nat.zero_add]
  rfl

/-- A slot that waits and does nothing meanwhile. -/
theorem stalls_of {i : Instr} {sem : State → SlotEff} {s : State} (hx : exec i s = runSole i sem s) (h : Asked i sem s)
    (hf : (sem s).flt = none) (he : (sem s).errs = [] ∨ s.me.stalled = true) (hw : (sem s).wait = true) (hp : (sem s).prep s = s) :
    Stalls i s := by
  obtain ⟨h1, h2⟩ := runSole_iterate h
  have hl : (if s.me.stalled = true then none else lowest (List.flatMap (fun x => x.2.errs) [(i.slot, sem s)])) = none := by
    rcases he with he | he
    · simp [he, lowest]
    · simp [he]
  have hb : Bundle.iterate (soleBundle i sem) s = ((s.updMe Core.stall).countCore s.cur
      [(1, 1), (stallEvent s.me ((soleBundle i sem).slots.zip [sem s]), 1)]) := by
    simp only [Bundle.iterate, h2, List.findSome?_cons, List.findSome?_nil, hf, hl, List.any_cons, hw, Bool.true_or, if_true,
      List.foldl_cons, List.foldl_nil, hp, List.map_cons, List.map_nil]
  have hc := coreOnly_count s Core.stall s.cur
    [(1, 1), (stallEvent s.me ((soleBundle i sem).slots.zip [sem s]), 1)]
  exact ⟨_, hx.trans (h1.trans (congrArg _ hb)), hc.1, hc.2⟩

theorem lowest_mem {l : List Nat} {n : Nat} (h : lowest l = some n) : n ∈ l ∧ ∀ m ∈ l, n ≤ m := by
  induction l generalizing n with
  | nil => simp [lowest] at h
  | cons a t ih =>
    simp only [lowest] at h
    cases ht : lowest t with
    | none =>
      simp only [ht, Option.some.injEq] at h
      have : t = [] := by
        cases t with
        | nil => rfl
        | cons b u =>
          simp only [lowest] at ht
          cases hu : lowest u <;> simp [hu] at ht
      subst h this
      simp
    | some b =>
      simp only [ht, Option.some.injEq] at h
      obtain ⟨h1, h2⟩ := ih ht
      subst h
      refine ⟨?_, ?_⟩
      · rcases Nat.le_total a b with h | h
        · simp [Nat.min_eq_left h]
        · simp [Nat.min_eq_right h, h1]
      · intro m hm
        rcases List.mem_cons.mp hm with rfl | hm
        · exact Nat.min_le_left ..
        · exact le_trans (Nat.min_le_right ..) (h2 m hm)
/-- The lowest number of a list, from its place in it. -/
theorem lowest_of {l : List Nat} {n : Nat} (h : n ∈ l) (hm : ∀ m ∈ l, n ≤ m) : lowest l = some n := by
  cases hl : lowest l with
  | none =>
    cases l with
    | nil => simp at h
    | cons b u =>
      simp only [lowest] at hl
      cases hu : lowest u <;> simp [hu] at hl
  | some k =>
    obtain ⟨h1, h2⟩ := lowest_mem hl
    exact congrArg some (Nat.le_antisymm (h2 n h) (hm k h1))

theorem Core.deliver_eq (c : Core) (t m : Nat) : c.deliver t m false =
    ({ c with tcWait := none, tcFlt := none, hostAt := .none }.setTok t { c.tok t with st := .done, flt := none, used := true }).takeTrap
      (let f := (c.tok t).flt.getD ⟨⟨0, 0, 0⟩, t, false⟩
       ⟨c.pc, c.iter, m, f.flt.code, 0x8000 + 0x200 * t + f.flt.cause % 0x200, f.chn, f.orig, f.flt.addr⟩) false c.pc := rfl

/-- A slot that consumes or produces onto an ERROR token. -/
theorem delivers_of {i : Instr} {sem : State → SlotEff} {s : State} {n : Nat} (hx : exec i s = runSole i sem s) (h : Asked i sem s)
    (hf : (sem s).flt = none) (hs : s.me.stalled = false) (he : lowest (sem s).errs = some n) : Delivers i s n := by
  obtain ⟨h1, h2⟩ := runSole_iterate h
  have hne : (sem s).errs ≠ [] := by
    intro h
    simp [h, lowest] at he
  have hb : Bundle.iterate (soleBundle i sem) s = (s.updMe (fun c => c.deliver n (2 ^ i.slot.bit) false)).countTrap s.me := by
    simp only [Bundle.iterate, h2, List.findSome?_cons, List.findSome?_nil, hf, hs, List.flatMap_cons, List.flatMap_nil, List.append_nil, he,
      maskOf, List.foldl_cons, List.foldl_nil, Nat.zero_add, Bool.false_eq_true, if_false, List.isEmpty_eq_false_iff.mpr hne,
      Bool.not_false, Bool.true_or, if_true]
  have hc := coreOnly_trap s (fun c => c.deliver n (2 ^ i.slot.bit) false) s.me
  exact ⟨_, hx.trans (h1.trans (congrArg _ hb)), hc.1, hc.2⟩
/-- A WAITK whose wait has ended on an ERROR token. -/
theorem delivers_of_late {i : Instr} {sem : State → SlotEff} {s : State} {n : Nat} (hx : exec i s = runSole i sem s) (h : Asked i sem s)
    (hf : (sem s).flt = none) (hr : (sem s).errs = []) (hw : (sem s).wait = false) (he : lowest (sem s).late = some n) : Delivers i s n := by
  obtain ⟨h1, h2⟩ := runSole_iterate h
  have hne : (sem s).late ≠ [] := by
    intro h
    simp [h, lowest] at he
  have hb : Bundle.iterate (soleBundle i sem) s = (s.updMe (fun c => c.deliver n (2 ^ i.slot.bit) false)).countTrap s.me := by
    simp only [Bundle.iterate, h2, List.findSome?_cons, List.findSome?_nil, hf, List.flatMap_cons, List.flatMap_nil, List.append_nil, hr,
      lowest, ite_self, List.any_cons, List.any_nil, hw, Bool.or_false, he, maskOf, List.foldl_cons, List.foldl_nil, Nat.zero_add,
      Bool.false_eq_true, if_false, List.isEmpty_eq_false_iff.mpr hne, Bool.not_false, if_true]
  have hc := coreOnly_trap s (fun c => c.deliver n (2 ^ i.slot.bit) false) s.me
  exact ⟨_, hx.trans (h1.trans (congrArg _ hb)), hc.1, hc.2⟩

/-- A slot instruction is executed by running its bundle. -/
theorem exec_eq_runSole {i : Instr} (h : i.cls ≠ none) (s : State) : exec i s = runSole i (semOf i) s := by
  cases i <;> first | rfl | exact absurd rfl h

end Sys2Proof.Machine
end

