-- ==== Sys2Proof/Laws/Values.lean ====
section
/-! SUPPORT. How the integers that meanings compute with read as words, and what exec is of a slot instruction: the forms that statements about
results cite. -/

namespace Sys2Proof

theorem sext_eq_toInt (x : Nat) {n : Nat} (h : 0 < n) : sext x n = (BitVec.ofNat n x).toInt := by
  rw [sext, BitVec.toInt_eq_toNat_cond, BitVec.toNat_ofNat]
  have h2 : 2 ^ n = 2 * 2 ^ (n - 1) := by rw [← Nat.pow_succ']; congr 1; omega
  split <;> split <;> first | rfl | omega

theorem w64_toInt {n : Nat} (v : BitVec n) : w64 v.toInt = v.signExtend 64 := rfl
theorem w64_sext (x : Nat) {n : Nat} (h : 0 < n) : w64 (sext x n) = (BitVec.ofNat n x).signExtend 64 := by
  rw [sext_eq_toInt x h]; rfl

namespace Machine
theorem w64_immB (i : Nat) (x : Option Nat) : w64 (immB i x) = immWord i x := by
  cases x with
  | none => exact w64_sext i (by decide)
  | some e => exact w64_sext _ (by decide)
theorem immB_eq (i : Nat) (x : Option Nat) : immB i x = (immWord i x).toInt := by
  have h : ∀ (n : Nat) (v : BitVec n), n ≤ 64 → v.toInt = (v.signExtend 64).toInt := by
    intro n v hn
    exact (BitVec.toInt_signExtend_of_le hn).symm
  cases x with
  | none => rw [immB, sext_eq_toInt i (by decide), immWord]; exact h 8 _ (by decide)
  | some e => rw [immB, sext_eq_toInt _ (by decide), immWord]; exact h 39 _ (by decide)

theorem ashr_eq (i : Int) (n : Nat) : ashr i n = i >>> n := by
  rw [ashr, Int.shiftRight_eq_div_pow, Int.fdiv_eq_ediv_of_nonneg]
  · positivity

end Machine
end Sys2Proof
end

