-- ==== Sys2Proof/Laws/Lanes.lean ====
section
/-! SUPPORT. Packed lanes and vector results: what packLanes holds in each lane, and how an effect on lanes meets the forms GivesLanes,
GivesLanes2 and GivesMap. -/

namespace Sys2Proof.Machine

theorem laneAt_low {x y w : Nat} (h : x < 2 ^ w) : laneAt (x + 2 ^ w * y) w 0 = x := by
  simp [laneAt, fld, Nat.add_mul_mod_self_left, Nat.mod_eq_of_lt h]
theorem laneAt_high {x y w : Nat} (h : x < 2 ^ w) (j : Nat) : laneAt (x + 2 ^ w * y) w (j + 1) = laneAt y w j := by
  simp only [laneAt, fld]
  rw [show (j + 1) * w = w + j * w by ring, Nat.pow_add, ← Nat.div_div_eq_div_mul, Nat.add_mul_div_left _ _ (Nat.two_pow_pos w),
    Nat.div_eq_of_lt h, Nat.zero_add]

theorem packLanes_some (w x : Nat) (t : List (Option Nat)) :
    packLanes w (some x :: t) = (x % 2 ^ w + 2 ^ w * (packLanes w t).1, 2 ^ w - 1 + 2 ^ w * (packLanes w t).2) := rfl
theorem packLanes_none (w : Nat) (t : List (Option Nat)) :
    packLanes w (none :: t) = (0 + 2 ^ w * (packLanes w t).1, 0 + 2 ^ w * (packLanes w t).2) := by
  simp [packLanes]

/-- A packed list holds its fields in lanes, and masks those that are present. -/
theorem packLanes_spec (w : Nat) (l : List (Option Nat)) :
    (packLanes w l).2 < 2 ^ (w * l.length) ∧
    (∀ j x, l[j]? = some (some x) → laneAt (packLanes w l).1 w j = x % 2 ^ w ∧ laneAt (packLanes w l).2 w j = 2 ^ w - 1) ∧
    (∀ j, l[j]? = some none → laneAt (packLanes w l).2 w j = 0) := by
  have hp := Nat.two_pow_pos w
  induction l with
  | nil => exact ⟨by simp [packLanes], by simp, by simp⟩
  | cons a t ih =>
    obtain ⟨h1, h2, h3⟩ := ih
    have hlen : 2 ^ (w * (t.length + 1)) = 2 ^ w * 2 ^ (w * t.length) := by rw [← Nat.pow_add]; congr 1; ring
    cases a with
    | none =>
      rw [packLanes_none]
      refine ⟨?_, ?_, ?_⟩
      · simp only [List.length_cons, hlen]; nlinarith
      · intro j x hj
        cases j with
        | zero => simp at hj
        | succ j => simp only [List.getElem?_cons_succ] at hj; rw [laneAt_high hp, laneAt_high hp]; exact h2 j x hj
      · intro j hj
        cases j with
        | zero => exact laneAt_low hp
        | succ j => simp only [List.getElem?_cons_succ] at hj; rw [laneAt_high hp]; exact h3 j hj
    | some v =>
      rw [packLanes_some]
      have hm : 2 ^ w - 1 < 2 ^ w := by omega
      have hv : v % 2 ^ w < 2 ^ w := Nat.mod_lt _ hp
      refine ⟨?_, ?_, ?_⟩
      · simp only [List.length_cons, hlen]
        have : 2 ^ w * ((packLanes w t).2 + 1) ≤ 2 ^ w * 2 ^ (w * t.length) := Nat.mul_le_mul_left _ h1
        rw [Nat.mul_add, Nat.mul_one] at this; omega
      · intro j x hj
        cases j with
        | zero =>
          simp only [List.getElem?_cons_zero, Option.some.injEq] at hj
          subst hj
          exact ⟨laneAt_low hv, laneAt_low hm⟩
        | succ j => simp only [List.getElem?_cons_succ] at hj; rw [laneAt_high hv, laneAt_high hm]; exact h2 j x hj
      · intro j hj
        cases j with
        | zero => simp at hj
        | succ j => simp only [List.getElem?_cons_succ] at hj; rw [laneAt_high hm]; exact h3 j hj

theorem upFrom_length (lo n : Nat) : (upFrom lo n).length = n := by
  induction n generalizing lo with
  | zero => rfl
  | succ n ih => simp [upFrom, ih]
theorem upFrom_get (lo n j : Nat) : (upFrom lo n)[j]? = if j < n then some (lo + j) else none := by
  induction n generalizing lo j with
  | zero => simp [upFrom]
  | succ n ih =>
    cases j with
    | zero => simp [upFrom]
    | succ j => simp only [upFrom, List.getElem?_cons_succ, ih, Nat.succ_lt_succ_iff]; congr 2; omega

/-- A packed map over the lanes is the result in lanes of its function. -/
theorem packLanes_inLanes (w n : Nat) (g : Nat → Option Nat) :
    InLanes (packLanes w ((upFrom 0 n).map g)).1 (packLanes w ((upFrom 0 n).map g)).2 w n g := by
  obtain ⟨h1, h2, h3⟩ := packLanes_spec w ((upFrom 0 n).map g)
  refine ⟨by simpa [upFrom_length] using h1, ?_, ?_⟩
  · intro j x hj hg
    exact h2 j x (by simp [upFrom_get, hj, hg])
  · intro j hj hg
    exact h3 j (by simp [upFrom_get, hj, hg])
theorem InLanes.congr {v m w n : Nat} {g h : Nat → Option Nat} (hi : InLanes v m w n g) (e : ∀ j, j < n → g j = h j) : InLanes v m w n h := by
  refine ⟨hi.1, ?_, ?_⟩
  · intro j x hj hx; exact hi.2.1 j x hj (by rw [e j hj, hx])
  · intro j hj hx; exact hi.2.2 j hj (by rw [e j hj, hx])

/-- A vector result in lanes. -/
theorem givesLanes_of {i : Instr} {sem : State → SlotEff} {s : State} {d : Dest} {v m lat fl w n : Nat} {g : Nat → Option Nat}
    (hx : exec i s = runSole i sem s) (hr : Ready i s) (hl : AcqFree i s) (hi : (presentSlot i.slot i sem).illegal s = false)
    (hs : sem s = onCore (fun c => (c.put d v (some m) lat).orFp fl)) (h2 : 2 ≤ lat) (hv : InLanes v m w n g) :
    GivesLanes i s d w n lat fl g := by
  obtain ⟨t, h1, hc, h3, h4⟩ := onCore_completes (g := fun c => c.orFp fl) (fl := [⟨d, v, some m, lat⟩]) hx hr hl hi hs rfl
    ⟨rfl, rfl, rfl, rfl, rfl⟩
  have hl : (lat - 1 == 0) = false := by rw [beq_eq_false_iff_ne]; omega
  refine ⟨t, v, m, h1, hc, ⟨?_, ?_⟩, hv⟩
  · rw [h3]; simp [hl, Core.landAll]
  · rw [h4]; simp [hl, bne]
theorem givesLanes2_of {i : Instr} {sem : State → SlotEff} {s : State} {d d2 : Dest} {v m v2 m2 lat fl w n w2 n2 : Nat} {g g2 : Nat → Option Nat}
    (hx : exec i s = runSole i sem s) (hr : Ready i s) (hl : AcqFree i s) (hi : (presentSlot i.slot i sem).illegal s = false)
    (hs : sem s = onCore (fun c => ((c.put d v (some m) lat).put d2 v2 (some m2) lat).orFp fl)) (h2 : 2 ≤ lat) (hv : InLanes v m w n g)
    (hv2 : InLanes v2 m2 w2 n2 g2) :
    GivesLanes2 i s d w n g d2 w2 n2 g2 lat fl := by
  obtain ⟨t, h1, hc, h3, h4⟩ := onCore_completes (g := fun c => c.orFp fl) (fl := [⟨d, v, some m, lat⟩, ⟨d2, v2, some m2, lat⟩]) hx hr hl hi hs
    (by simp [Core.put, Core.orFp]) ⟨rfl, rfl, rfl, rfl, rfl⟩
  have hl : (lat - 1 == 0) = false := by rw [beq_eq_false_iff_ne]; omega
  refine ⟨t, v, m, v2, m2, h1, hc, ⟨?_, ?_⟩, hv, hv2⟩
  · rw [h3]; simp [hl, Core.landAll]
  · rw [h4]; simp [hl, bne]

/-- A packed list of values, all present. -/
theorem givesLanes_put {i : Instr} {sem : State → SlotEff} {s : State} {d : Dest} {w n lat fl : Nat} {g : Nat → Option Nat}
    (hx : exec i s = runSole i sem s) (hr : Ready i s) (hl : AcqFree i s) (hi : (presentSlot i.slot i sem).illegal s = false)
    (hs : sem s = (let p := packLanes w ((upFrom 0 n).map g); onCore (fun c => (c.put d p.1 (some p.2) lat).orFp fl))) (h2 : 2 ≤ lat) :
    GivesLanes i s d w n lat fl g := givesLanes_of hx hr hl hi hs h2 (packLanes_inLanes w n g)

theorem orFlags_zero {l : List Nat} (h : ∀ x ∈ l, x = 0) : orFlags l = 0 := by
  suffices g : ∀ (l : List Nat), (∀ x ∈ l, x = 0) → l.foldl Nat.lor 0 = 0 from g l h
  intro l
  induction l with
  | nil => intro _; rfl
  | cons a t ih =>
    intro h
    rw [h a (List.mem_cons_self ..)] at *
    exact ih (fun x hx => h x (List.mem_cons_of_mem _ hx))

/-- The lanes that vMap gives values. -/
theorem givesMap_of {i : Instr} {sem : State → SlotEff} {s : State} {o : VOp} {mask w lat : Nat} {f : Nat → Nat × Nat} {g : Nat → Option (Nat × Nat)}
    (hx : exec i s = runSole i sem s) (hl : i.slot ≠ .l) (hi : (presentSlot i.slot i sem).illegal s = false)
    (hs : sem s = vMap o mask w lat f) (h2 : 2 ≤ lat)
    (hg : ∀ j, j < o.bits / w → (if laneOn mask w j then some (f j) else none) = g j) : GivesMap i s (.v o.d) w (o.bits / w) lat g := by
  intro hr
  have e : (upFrom 0 (o.bits / w)).map (fun i => if laneOn mask w i then some (f i) else none) = (upFrom 0 (o.bits / w)).map g := by
    apply List.ext_getElem?
    intro j
    simp only [List.getElem?_map, upFrom_get]
    split
    · rename_i h; simp only [Nat.zero_add, Option.map_some, hg j h]
    · rfl
  simp only [vMap, vN, e, vPut, List.map_map] at hs
  exact givesLanes_of hx hr (Or.inl hl) hi hs h2 (packLanes_inLanes w _ _)
end Sys2Proof.Machine
end

