-- ==== Sys2Proof/Laws/Header.lean ====
section
/-! SUPPORT. The header of a save area: its length, whatever the liveness set names. -/

namespace Sys2Proof.Machine

theorem tokEntry_length (t : Tok) (n : Nat) : (tokEntry t n).length = 8 := by
  unfold tokEntry saveTokBytes
  split <;> split <;> simp [toBytes_length]
theorem flatMap_length_const {α β : Type} (l : List α) (f : α → List β) (n : Nat) (h : ∀ a, (f a).length = n) : (l.flatMap f).length = l.length * n := by
  induction l with
  | nil => simp
  | cons a t ih => rw [List.flatMap_cons, List.length_append, h, ih, List.length_cons]; ring
/-- A header fills its frame (R307). -/
theorem saveHeader_length (c : Core) (l : LiveSet) (full don : Bool) (det : Nat) (frames : List Nat) : (saveHeader c l full don det frames).length = 4096 := by
  have e (m n k : Nat) (b : List Byte) (h : b.length = k) : (if bitOf m n then b else List.replicate k 0).length = k := by split <;> simp [h]
  unfold saveHeader
  simp only [List.length_append, toBytes_length, List.length_replicate,
    flatMap_length_const _ _ 16 (fun n => e l.z n 16 _ (toBytes_length 16 (c.zrec n).bits)),
    flatMap_length_const _ _ 8 (fun n => e l.g n 8 _ (toBytes_length 8 (c.rgIn n false).toNat)),
    flatMap_length_const _ _ 16 (fun n => e l.k n 16 _ (toBytes_length 16 (c.rk n).toNat)),
    flatMap_length_const _ _ 8 (fun n => e l.q n 8 _ (toBytes_length 8 (c.rq n).toNat)),
    flatMap_length_const _ _ 4 (fun n => e l.e n 4 _ (toBytes_length 4 (c.re n).toNat)),
    flatMap_length_const _ _ 4 (fun n => e l.j n 4 _ (toBytes_length 4 (c.rj n).toNat)),
    tokEntry_length, flatMap_length_const _ _ 8 (fun n => e l.t n 8 _ (tokEntry_length (c.tok n) n)),
    flatMap_length_const _ _ 8 (fun n => toBytes_length 8 (nth frames n 0)), upFrom_length]

end Sys2Proof.Machine
end

