-- ==== Sys2Proof/Laws/PerInstr.lean ====
section
/-! SUPPORT. What holds of every instruction as syntax, one lemma for each constructor of Instr: the fields of a well-formed instruction fit
the places the slot word and the extension word have for them (R62), so the encoder's sums carry nothing over. -/

namespace Sys2Proof

theorem VOp.low_fits {v : VOp} (h : v.inFile = true) : vopLow v < 2 ^ 20 := by
  simp only [VOp.inFile, Bool.and_eq_true, Nat.blt_eq] at h
  simp only [vopLow]
  omega
theorem VOp.ext_fits {v : VOp} (h : v.inFile = true) : ∀ e, (v.x.map fun _ => vopExt v) = some e → e < 2 ^ 31 := by
  simp only [VOp.inFile, Bool.and_eq_true] at h
  intro e he
  cases hx : v.x with
  | none => simp [hx] at he
  | some x =>
    simp only [hx, Option.map_some, Option.some.injEq, Bool.and_eq_true, Nat.blt_eq] at h he
    simp only [← he, vopExt, VOp.ex, hx, Option.getD_some]
    omega
theorem Edge.low_fits {e : Edge} (h : e.wf = true) : edgeLow e < 2 ^ 20 ∧ e.c2 < 64 := by
  simp only [Edge.wf, Bool.and_eq_true, Nat.blt_eq] at h
  simp only [edgeLow]
  omega
theorem Guard.fits {g : Guard} (h : g.wf = true) : g.gp < 8 ∧ g.gn < 2 := by
  simpa only [Guard.wf, Bool.and_eq_true, Nat.blt_eq] using h
theorem some_fits {b : Nat} {x : Option Nat} (h : x.all (Nat.blt · b) = true) (hb : b ≤ 2 ^ 31) : ∀ e, x = some e → e < 2 ^ 31 := by
  intro e he
  subst he
  simp only [Option.all_some, Nat.blt_eq] at h
  omega

namespace Laws.FieldsFit

set_option Elab.async false

/-- The fields of the instruction, when it is well-formed, lie in their places: the opcode in 6 bits, the guard in 3 and 1, the operands of the
slot word in 20 and the extension word in 31. -/
def Statement (i : Instr) : Prop :=
  i.wf = true → i.fields.1 < 2 ^ 6 ∧ i.fields.2.1.gp < 2 ^ 3 ∧ i.fields.2.1.gn < 2 ∧ i.fields.2.2.1 < 2 ^ 20 ∧
    ∀ e, i.fields.2.2.2 = some e → e < 2 ^ 31

theorem br (gd : Guard) (d : Nat) (x : Option Nat) : Statement (.br gd d x) := by
  intro h
  replace h : (gd.wf && Nat.blt d 1048576 && x.all (Nat.blt · 2147483648)) = true := h
  simp only [Bool.and_eq_true] at h
  refine (show 0x01 < 2 ^ 6 ∧ gd.gp < 2 ^ 3 ∧ gd.gn < 2 ∧ d < 2 ^ 20 ∧ ∀ y, x = some y → y < 2 ^ 31 from
    ⟨by decide, (Guard.fits h.1.1).1, (Guard.fits h.1.1).2, ?_, some_fits h.2 (by decide)⟩)
  simp only [Nat.blt_eq] at h
  omega
theorem bri (gd : Guard) (a : Nat) : Statement (.bri gd a) := by
  intro h
  replace h : (gd.wf && Nat.blt a 64) = true := h
  simp only [Bool.and_eq_true] at h
  refine (show 0x02 < 2 ^ 6 ∧ gd.gp < 2 ^ 3 ∧ gd.gn < 2 ∧ a * 256 < 2 ^ 20 ∧ ∀ y, none = some y → y < 2 ^ 31 from
    ⟨by decide, (Guard.fits h.1).1, (Guard.fits h.1).2, ?_, fun _ h => nomatch h⟩)
  simp only [Nat.blt_eq] at h
  omega
theorem call (gd : Guard) (d : Nat) (x : Option Nat) : Statement (.call gd d x) := by
  intro h
  replace h : (gd.wf && Nat.blt d 1048576 && x.all (Nat.blt · 2147483648)) = true := h
  simp only [Bool.and_eq_true] at h
  refine (show 0x03 < 2 ^ 6 ∧ gd.gp < 2 ^ 3 ∧ gd.gn < 2 ∧ d < 2 ^ 20 ∧ ∀ y, x = some y → y < 2 ^ 31 from
    ⟨by decide, (Guard.fits h.1.1).1, (Guard.fits h.1.1).2, ?_, some_fits h.2 (by decide)⟩)
  simp only [Nat.blt_eq] at h
  omega
theorem calli (gd : Guard) (d a : Nat) : Statement (.calli gd d a) := by
  intro h
  replace h : (gd.wf && Nat.blt d 64 && Nat.blt a 64) = true := h
  simp only [Bool.and_eq_true] at h
  refine (show 0x04 < 2 ^ 6 ∧ gd.gp < 2 ^ 3 ∧ gd.gn < 2 ∧ d * 16384 + a * 256 < 2 ^ 20 ∧ ∀ y, none = some y → y < 2 ^ 31 from
    ⟨by decide, (Guard.fits h.1.1).1, (Guard.fits h.1.1).2, ?_, fun _ h => nomatch h⟩)
  simp only [Nat.blt_eq] at h
  omega
theorem ret (gd : Guard) (a : Nat) : Statement (.ret gd a) := by
  intro h
  replace h : (gd.wf && Nat.blt a 64) = true := h
  simp only [Bool.and_eq_true] at h
  refine (show 0x05 < 2 ^ 6 ∧ gd.gp < 2 ^ 3 ∧ gd.gn < 2 ∧ a * 256 < 2 ^ 20 ∧ ∀ y, none = some y → y < 2 ^ 31 from
    ⟨by decide, (Guard.fits h.1).1, (Guard.fits h.1).2, ?_, fun _ h => nomatch h⟩)
  simp only [Nat.blt_eq] at h
  omega
theorem loop (gd : Guard) (a o : Nat) (x : Option Nat) : Statement (.loop gd a o x) := by
  intro h
  replace h : (gd.wf && Nat.blt a 64 && Nat.blt o 256 && x.all (Nat.blt · 2147483648) && (loopOff x o != 0)) = true := h
  simp only [Bool.and_eq_true] at h
  refine (show 0x06 < 2 ^ 6 ∧ gd.gp < 2 ^ 3 ∧ gd.gn < 2 ∧ a * 256 + o < 2 ^ 20 ∧ ∀ y, x = some y → y < 2 ^ 31 from
    ⟨by decide, (Guard.fits h.1.1.1.1).1, (Guard.fits h.1.1.1.1).2, ?_, some_fits h.1.2 (by decide)⟩)
  simp only [Nat.blt_eq] at h
  omega
theorem loopi (gd : Guard) (c o : Nat) (x : Option Nat) : Statement (.loopi gd c o x) := by
  intro h
  replace h : (gd.wf && Nat.blt c 4096 && Nat.blt o 256 && x.all (Nat.blt · 2147483648) && (loopOff x o != 0)) = true := h
  simp only [Bool.and_eq_true] at h
  refine (show 0x07 < 2 ^ 6 ∧ gd.gp < 2 ^ 3 ∧ gd.gn < 2 ∧ c * 256 + o < 2 ^ 20 ∧ ∀ y, x = some y → y < 2 ^ 31 from
    ⟨by decide, (Guard.fits h.1.1.1.1).1, (Guard.fits h.1.1.1.1).2, ?_, some_fits h.1.2 (by decide)⟩)
  simp only [Nat.blt_eq] at h
  omega
theorem safe (gd : Guard) (i : Nat) (x : Option Nat) : Statement (.safe gd i x) := by
  intro h
  replace h : (gd.wf && Nat.blt i 256 && x.all (Nat.blt · 256) && (extLow x i != 0xFFFF)) = true := h
  simp only [Bool.and_eq_true] at h
  refine (show 0x08 < 2 ^ 6 ∧ gd.gp < 2 ^ 3 ∧ gd.gn < 2 ∧ i < 2 ^ 20 ∧ ∀ y, x = some y → y < 2 ^ 31 from
    ⟨by decide, (Guard.fits h.1.1.1).1, (Guard.fits h.1.1.1).2, ?_, some_fits h.1.2 (by decide)⟩)
  simp only [Nat.blt_eq] at h
  omega
theorem done (gd : Guard) : Statement (.done gd) := by
  intro h
  replace h : (gd.wf) = true := h
  refine (show 0x09 < 2 ^ 6 ∧ gd.gp < 2 ^ 3 ∧ gd.gn < 2 ∧ 0 < 2 ^ 20 ∧ ∀ y, none = some y → y < 2 ^ 31 from
    ⟨by decide, (Guard.fits h).1, (Guard.fits h).2, by decide, fun _ h => nomatch h⟩)
theorem waitk (gd : Guard) (a : Nat) : Statement (.waitk gd a) := by
  intro h
  replace h : (gd.wf && Nat.blt a 64) = true := h
  simp only [Bool.and_eq_true] at h
  refine (show 0x0A < 2 ^ 6 ∧ gd.gp < 2 ^ 3 ∧ gd.gn < 2 ∧ a * 256 < 2 ^ 20 ∧ ∀ y, none = some y → y < 2 ^ 31 from
    ⟨by decide, (Guard.fits h.1).1, (Guard.fits h.1).2, ?_, fun _ h => nomatch h⟩)
  simp only [Nat.blt_eq] at h
  omega
theorem waitkRange (gd : Guard) (a b : Nat) : Statement (.waitkRange gd a b) := by
  intro h
  replace h : (gd.wf && Nat.blt a 64 && Nat.blt b 64 && (Nat.ble a b)) = true := h
  simp only [Bool.and_eq_true] at h
  refine (show 0x0A < 2 ^ 6 ∧ gd.gp < 2 ^ 3 ∧ gd.gn < 2 ∧ a * 256 + b * 4 + 1 < 2 ^ 20 ∧ ∀ y, none = some y → y < 2 ^ 31 from
    ⟨by decide, (Guard.fits h.1.1.1).1, (Guard.fits h.1.1.1).2, ?_, fun _ h => nomatch h⟩)
  simp only [Nat.blt_eq] at h
  omega
theorem pollk (gd : Guard) (d a : Nat) : Statement (.pollk gd d a) := by
  intro h
  replace h : (gd.wf && Nat.blt d 8 && Nat.blt a 64) = true := h
  simp only [Bool.and_eq_true] at h
  refine (show 0x0B < 2 ^ 6 ∧ gd.gp < 2 ^ 3 ∧ gd.gn < 2 ∧ d * 16384 + a * 256 < 2 ^ 20 ∧ ∀ y, none = some y → y < 2 ^ 31 from
    ⟨by decide, (Guard.fits h.1.1).1, (Guard.fits h.1.1).2, ?_, fun _ h => nomatch h⟩)
  simp only [Nat.blt_eq] at h
  omega
theorem pollkErr (gd : Guard) (d a : Nat) : Statement (.pollkErr gd d a) := by
  intro h
  replace h : (gd.wf && Nat.blt d 8 && Nat.blt a 64) = true := h
  simp only [Bool.and_eq_true] at h
  refine (show 0x0B < 2 ^ 6 ∧ gd.gp < 2 ^ 3 ∧ gd.gn < 2 ∧ d * 16384 + a * 256 + 1 < 2 ^ 20 ∧ ∀ y, none = some y → y < 2 ^ 31 from
    ⟨by decide, (Guard.fits h.1.1).1, (Guard.fits h.1.1).2, ?_, fun _ h => nomatch h⟩)
  simp only [Nat.blt_eq] at h
  omega
theorem fenceCore (gd : Guard) : Statement (.fenceCore gd) := by
  intro h
  replace h : (gd.wf) = true := h
  refine (show 0x0C < 2 ^ 6 ∧ gd.gp < 2 ^ 3 ∧ gd.gn < 2 ∧ 0 < 2 ^ 20 ∧ ∀ y, none = some y → y < 2 ^ 31 from
    ⟨by decide, (Guard.fits h).1, (Guard.fits h).2, by decide, fun _ h => nomatch h⟩)
theorem fenceCluster (gd : Guard) : Statement (.fenceCluster gd) := by
  intro h
  replace h : (gd.wf) = true := h
  refine (show 0x0C < 2 ^ 6 ∧ gd.gp < 2 ^ 3 ∧ gd.gn < 2 ∧ 1 < 2 ^ 20 ∧ ∀ y, none = some y → y < 2 ^ 31 from
    ⟨by decide, (Guard.fits h).1, (Guard.fits h).2, by decide, fun _ h => nomatch h⟩)
theorem fenceDevice (gd : Guard) : Statement (.fenceDevice gd) := by
  intro h
  replace h : (gd.wf) = true := h
  refine (show 0x0C < 2 ^ 6 ∧ gd.gp < 2 ^ 3 ∧ gd.gn < 2 ∧ 2 < 2 ^ 20 ∧ ∀ y, none = some y → y < 2 ^ 31 from
    ⟨by decide, (Guard.fits h).1, (Guard.fits h).2, by decide, fun _ h => nomatch h⟩)
theorem fenceSys (gd : Guard) : Statement (.fenceSys gd) := by
  intro h
  replace h : (gd.wf) = true := h
  refine (show 0x0C < 2 ^ 6 ∧ gd.gp < 2 ^ 3 ∧ gd.gn < 2 ∧ 3 < 2 ^ 20 ∧ ∀ y, none = some y → y < 2 ^ 31 from
    ⟨by decide, (Guard.fits h).1, (Guard.fits h).2, by decide, fun _ h => nomatch h⟩)
theorem trap (gd : Guard) (c : Nat) (x : Option Nat) : Statement (.trap gd c x) := by
  intro h
  replace h : (gd.wf && Nat.blt c 256 && x.all (Nat.blt · 128)) = true := h
  simp only [Bool.and_eq_true] at h
  refine (show 0x0D < 2 ^ 6 ∧ gd.gp < 2 ^ 3 ∧ gd.gn < 2 ∧ c < 2 ^ 20 ∧ ∀ y, x = some y → y < 2 ^ 31 from
    ⟨by decide, (Guard.fits h.1.1).1, (Guard.fits h.1.1).2, ?_, some_fits h.2 (by decide)⟩)
  simp only [Nat.blt_eq] at h
  omega
theorem sysc (gd : Guard) (a i : Nat) (x : Option Nat) : Statement (.sysc gd a i x) := by
  intro h
  replace h : (gd.wf && Nat.blt a 64 && Nat.blt i 256 && x.all (Nat.blt · 2147483648)) = true := h
  simp only [Bool.and_eq_true] at h
  refine (show 0x0E < 2 ^ 6 ∧ gd.gp < 2 ^ 3 ∧ gd.gn < 2 ∧ a * 256 + i < 2 ^ 20 ∧ ∀ y, x = some y → y < 2 ^ 31 from
    ⟨by decide, (Guard.fits h.1.1.1).1, (Guard.fits h.1.1.1).2, ?_, some_fits h.2 (by decide)⟩)
  simp only [Nat.blt_eq] at h
  omega
theorem eret (gd : Guard) : Statement (.eret gd) := by
  intro h
  replace h : (gd.wf) = true := h
  refine (show 0x0F < 2 ^ 6 ∧ gd.gp < 2 ^ 3 ∧ gd.gn < 2 ∧ 0 < 2 ^ 20 ∧ ∀ y, none = some y → y < 2 ^ 31 from
    ⟨by decide, (Guard.fits h).1, (Guard.fits h).2, by decide, fun _ h => nomatch h⟩)
theorem csrr (gd : Guard) (d c : Nat) : Statement (.csrr gd d c) := by
  intro h
  replace h : (gd.wf && Nat.blt d 64 && Nat.blt c 256 && (csrExists c)) = true := h
  simp only [Bool.and_eq_true] at h
  refine (show 0x10 < 2 ^ 6 ∧ gd.gp < 2 ^ 3 ∧ gd.gn < 2 ∧ d * 16384 + c < 2 ^ 20 ∧ ∀ y, none = some y → y < 2 ^ 31 from
    ⟨by decide, (Guard.fits h.1.1.1).1, (Guard.fits h.1.1.1).2, ?_, fun _ h => nomatch h⟩)
  simp only [Nat.blt_eq] at h
  omega
theorem csrw (gd : Guard) (a c : Nat) : Statement (.csrw gd a c) := by
  intro h
  replace h : (gd.wf && Nat.blt a 64 && Nat.blt c 256 && (csrExists c)) = true := h
  simp only [Bool.and_eq_true] at h
  refine (show 0x11 < 2 ^ 6 ∧ gd.gp < 2 ^ 3 ∧ gd.gn < 2 ∧ a * 256 + c < 2 ^ 20 ∧ ∀ y, none = some y → y < 2 ^ 31 from
    ⟨by decide, (Guard.fits h.1.1.1).1, (Guard.fits h.1.1.1).2, ?_, fun _ h => nomatch h⟩)
  simp only [Nat.blt_eq] at h
  omega
theorem csrs (gd : Guard) (a c : Nat) : Statement (.csrs gd a c) := by
  intro h
  replace h : (gd.wf && Nat.blt a 64 && Nat.blt c 256 && (csrExists c)) = true := h
  simp only [Bool.and_eq_true] at h
  refine (show 0x12 < 2 ^ 6 ∧ gd.gp < 2 ^ 3 ∧ gd.gn < 2 ∧ a * 256 + c < 2 ^ 20 ∧ ∀ y, none = some y → y < 2 ^ 31 from
    ⟨by decide, (Guard.fits h.1.1.1).1, (Guard.fits h.1.1.1).2, ?_, fun _ h => nomatch h⟩)
  simp only [Nat.blt_eq] at h
  omega
theorem csrc (gd : Guard) (a c : Nat) : Statement (.csrc gd a c) := by
  intro h
  replace h : (gd.wf && Nat.blt a 64 && Nat.blt c 256 && (csrExists c)) = true := h
  simp only [Bool.and_eq_true] at h
  refine (show 0x13 < 2 ^ 6 ∧ gd.gp < 2 ^ 3 ∧ gd.gn < 2 ∧ a * 256 + c < 2 ^ 20 ∧ ∀ y, none = some y → y < 2 ^ 31 from
    ⟨by decide, (Guard.fits h.1.1.1).1, (Guard.fits h.1.1.1).2, ?_, fun _ h => nomatch h⟩)
  simp only [Nat.blt_eq] at h
  omega
theorem add (gd : Guard) (d a b : Nat) : Statement (.add gd d a b) := by
  intro h
  replace h : (gd.wf && Nat.blt d 64 && Nat.blt a 64 && Nat.blt b 64) = true := h
  simp only [Bool.and_eq_true] at h
  refine (show 0x01 < 2 ^ 6 ∧ gd.gp < 2 ^ 3 ∧ gd.gn < 2 ∧ d * 16384 + a * 256 + b * 4 < 2 ^ 20 ∧ ∀ y, none = some y → y < 2 ^ 31 from
    ⟨by decide, (Guard.fits h.1.1.1).1, (Guard.fits h.1.1.1).2, ?_, fun _ h => nomatch h⟩)
  simp only [Nat.blt_eq] at h
  omega
theorem sub (gd : Guard) (d a b : Nat) : Statement (.sub gd d a b) := by
  intro h
  replace h : (gd.wf && Nat.blt d 64 && Nat.blt a 64 && Nat.blt b 64) = true := h
  simp only [Bool.and_eq_true] at h
  refine (show 0x02 < 2 ^ 6 ∧ gd.gp < 2 ^ 3 ∧ gd.gn < 2 ∧ d * 16384 + a * 256 + b * 4 < 2 ^ 20 ∧ ∀ y, none = some y → y < 2 ^ 31 from
    ⟨by decide, (Guard.fits h.1.1.1).1, (Guard.fits h.1.1.1).2, ?_, fun _ h => nomatch h⟩)
  simp only [Nat.blt_eq] at h
  omega
theorem addi (gd : Guard) (d a i : Nat) (x : Option Nat) : Statement (.addi gd d a i x) := by
  intro h
  replace h : (gd.wf && Nat.blt d 64 && Nat.blt a 64 && Nat.blt i 256 && x.all (Nat.blt · 2147483648)) = true := h
  simp only [Bool.and_eq_true] at h
  refine (show 0x03 < 2 ^ 6 ∧ gd.gp < 2 ^ 3 ∧ gd.gn < 2 ∧ d * 16384 + a * 256 + i < 2 ^ 20 ∧ ∀ y, x = some y → y < 2 ^ 31 from
    ⟨by decide, (Guard.fits h.1.1.1.1).1, (Guard.fits h.1.1.1.1).2, ?_, some_fits h.2 (by decide)⟩)
  simp only [Nat.blt_eq] at h
  omega
theorem mul (gd : Guard) (d a b : Nat) : Statement (.mul gd d a b) := by
  intro h
  replace h : (gd.wf && Nat.blt d 64 && Nat.blt a 64 && Nat.blt b 64) = true := h
  simp only [Bool.and_eq_true] at h
  refine (show 0x04 < 2 ^ 6 ∧ gd.gp < 2 ^ 3 ∧ gd.gn < 2 ∧ d * 16384 + a * 256 + b * 4 < 2 ^ 20 ∧ ∀ y, none = some y → y < 2 ^ 31 from
    ⟨by decide, (Guard.fits h.1.1.1).1, (Guard.fits h.1.1.1).2, ?_, fun _ h => nomatch h⟩)
  simp only [Nat.blt_eq] at h
  omega
theorem mulh (gd : Guard) (d a b : Nat) : Statement (.mulh gd d a b) := by
  intro h
  replace h : (gd.wf && Nat.blt d 64 && Nat.blt a 64 && Nat.blt b 64) = true := h
  simp only [Bool.and_eq_true] at h
  refine (show 0x05 < 2 ^ 6 ∧ gd.gp < 2 ^ 3 ∧ gd.gn < 2 ∧ d * 16384 + a * 256 + b * 4 < 2 ^ 20 ∧ ∀ y, none = some y → y < 2 ^ 31 from
    ⟨by decide, (Guard.fits h.1.1.1).1, (Guard.fits h.1.1.1).2, ?_, fun _ h => nomatch h⟩)
  simp only [Nat.blt_eq] at h
  omega
theorem mulhU (gd : Guard) (d a b : Nat) : Statement (.mulhU gd d a b) := by
  intro h
  replace h : (gd.wf && Nat.blt d 64 && Nat.blt a 64 && Nat.blt b 64) = true := h
  simp only [Bool.and_eq_true] at h
  refine (show 0x05 < 2 ^ 6 ∧ gd.gp < 2 ^ 3 ∧ gd.gn < 2 ∧ d * 16384 + a * 256 + b * 4 + 1 < 2 ^ 20 ∧ ∀ y, none = some y → y < 2 ^ 31 from
    ⟨by decide, (Guard.fits h.1.1.1).1, (Guard.fits h.1.1.1).2, ?_, fun _ h => nomatch h⟩)
  simp only [Nat.blt_eq] at h
  omega
theorem div (gd : Guard) (d a b : Nat) : Statement (.div gd d a b) := by
  intro h
  replace h : (gd.wf && Nat.blt d 64 && Nat.blt a 64 && Nat.blt b 64) = true := h
  simp only [Bool.and_eq_true] at h
  refine (show 0x06 < 2 ^ 6 ∧ gd.gp < 2 ^ 3 ∧ gd.gn < 2 ∧ d * 16384 + a * 256 + b * 4 < 2 ^ 20 ∧ ∀ y, none = some y → y < 2 ^ 31 from
    ⟨by decide, (Guard.fits h.1.1.1).1, (Guard.fits h.1.1.1).2, ?_, fun _ h => nomatch h⟩)
  simp only [Nat.blt_eq] at h
  omega
theorem divU (gd : Guard) (d a b : Nat) : Statement (.divU gd d a b) := by
  intro h
  replace h : (gd.wf && Nat.blt d 64 && Nat.blt a 64 && Nat.blt b 64) = true := h
  simp only [Bool.and_eq_true] at h
  refine (show 0x06 < 2 ^ 6 ∧ gd.gp < 2 ^ 3 ∧ gd.gn < 2 ∧ d * 16384 + a * 256 + b * 4 + 1 < 2 ^ 20 ∧ ∀ y, none = some y → y < 2 ^ 31 from
    ⟨by decide, (Guard.fits h.1.1.1).1, (Guard.fits h.1.1.1).2, ?_, fun _ h => nomatch h⟩)
  simp only [Nat.blt_eq] at h
  omega
theorem rem (gd : Guard) (d a b : Nat) : Statement (.rem gd d a b) := by
  intro h
  replace h : (gd.wf && Nat.blt d 64 && Nat.blt a 64 && Nat.blt b 64) = true := h
  simp only [Bool.and_eq_true] at h
  refine (show 0x07 < 2 ^ 6 ∧ gd.gp < 2 ^ 3 ∧ gd.gn < 2 ∧ d * 16384 + a * 256 + b * 4 < 2 ^ 20 ∧ ∀ y, none = some y → y < 2 ^ 31 from
    ⟨by decide, (Guard.fits h.1.1.1).1, (Guard.fits h.1.1.1).2, ?_, fun _ h => nomatch h⟩)
  simp only [Nat.blt_eq] at h
  omega
theorem remU (gd : Guard) (d a b : Nat) : Statement (.remU gd d a b) := by
  intro h
  replace h : (gd.wf && Nat.blt d 64 && Nat.blt a 64 && Nat.blt b 64) = true := h
  simp only [Bool.and_eq_true] at h
  refine (show 0x07 < 2 ^ 6 ∧ gd.gp < 2 ^ 3 ∧ gd.gn < 2 ∧ d * 16384 + a * 256 + b * 4 + 1 < 2 ^ 20 ∧ ∀ y, none = some y → y < 2 ^ 31 from
    ⟨by decide, (Guard.fits h.1.1.1).1, (Guard.fits h.1.1.1).2, ?_, fun _ h => nomatch h⟩)
  simp only [Nat.blt_eq] at h
  omega
theorem and (gd : Guard) (d a b : Nat) : Statement (.and gd d a b) := by
  intro h
  replace h : (gd.wf && Nat.blt d 64 && Nat.blt a 64 && Nat.blt b 64) = true := h
  simp only [Bool.and_eq_true] at h
  refine (show 0x08 < 2 ^ 6 ∧ gd.gp < 2 ^ 3 ∧ gd.gn < 2 ∧ d * 16384 + a * 256 + b * 4 < 2 ^ 20 ∧ ∀ y, none = some y → y < 2 ^ 31 from
    ⟨by decide, (Guard.fits h.1.1.1).1, (Guard.fits h.1.1.1).2, ?_, fun _ h => nomatch h⟩)
  simp only [Nat.blt_eq] at h
  omega
theorem or (gd : Guard) (d a b : Nat) : Statement (.or gd d a b) := by
  intro h
  replace h : (gd.wf && Nat.blt d 64 && Nat.blt a 64 && Nat.blt b 64) = true := h
  simp only [Bool.and_eq_true] at h
  refine (show 0x09 < 2 ^ 6 ∧ gd.gp < 2 ^ 3 ∧ gd.gn < 2 ∧ d * 16384 + a * 256 + b * 4 < 2 ^ 20 ∧ ∀ y, none = some y → y < 2 ^ 31 from
    ⟨by decide, (Guard.fits h.1.1.1).1, (Guard.fits h.1.1.1).2, ?_, fun _ h => nomatch h⟩)
  simp only [Nat.blt_eq] at h
  omega
theorem xor (gd : Guard) (d a b : Nat) : Statement (.xor gd d a b) := by
  intro h
  replace h : (gd.wf && Nat.blt d 64 && Nat.blt a 64 && Nat.blt b 64) = true := h
  simp only [Bool.and_eq_true] at h
  refine (show 0x0A < 2 ^ 6 ∧ gd.gp < 2 ^ 3 ∧ gd.gn < 2 ∧ d * 16384 + a * 256 + b * 4 < 2 ^ 20 ∧ ∀ y, none = some y → y < 2 ^ 31 from
    ⟨by decide, (Guard.fits h.1.1.1).1, (Guard.fits h.1.1.1).2, ?_, fun _ h => nomatch h⟩)
  simp only [Nat.blt_eq] at h
  omega
theorem andi (gd : Guard) (d a i : Nat) (x : Option Nat) : Statement (.andi gd d a i x) := by
  intro h
  replace h : (gd.wf && Nat.blt d 64 && Nat.blt a 64 && Nat.blt i 256 && x.all (Nat.blt · 2147483648)) = true := h
  simp only [Bool.and_eq_true] at h
  refine (show 0x0B < 2 ^ 6 ∧ gd.gp < 2 ^ 3 ∧ gd.gn < 2 ∧ d * 16384 + a * 256 + i < 2 ^ 20 ∧ ∀ y, x = some y → y < 2 ^ 31 from
    ⟨by decide, (Guard.fits h.1.1.1.1).1, (Guard.fits h.1.1.1.1).2, ?_, some_fits h.2 (by decide)⟩)
  simp only [Nat.blt_eq] at h
  omega
theorem ori (gd : Guard) (d a i : Nat) (x : Option Nat) : Statement (.ori gd d a i x) := by
  intro h
  replace h : (gd.wf && Nat.blt d 64 && Nat.blt a 64 && Nat.blt i 256 && x.all (Nat.blt · 2147483648)) = true := h
  simp only [Bool.and_eq_true] at h
  refine (show 0x0C < 2 ^ 6 ∧ gd.gp < 2 ^ 3 ∧ gd.gn < 2 ∧ d * 16384 + a * 256 + i < 2 ^ 20 ∧ ∀ y, x = some y → y < 2 ^ 31 from
    ⟨by decide, (Guard.fits h.1.1.1.1).1, (Guard.fits h.1.1.1.1).2, ?_, some_fits h.2 (by decide)⟩)
  simp only [Nat.blt_eq] at h
  omega
theorem xori (gd : Guard) (d a i : Nat) (x : Option Nat) : Statement (.xori gd d a i x) := by
  intro h
  replace h : (gd.wf && Nat.blt d 64 && Nat.blt a 64 && Nat.blt i 256 && x.all (Nat.blt · 2147483648)) = true := h
  simp only [Bool.and_eq_true] at h
  refine (show 0x0D < 2 ^ 6 ∧ gd.gp < 2 ^ 3 ∧ gd.gn < 2 ∧ d * 16384 + a * 256 + i < 2 ^ 20 ∧ ∀ y, x = some y → y < 2 ^ 31 from
    ⟨by decide, (Guard.fits h.1.1.1.1).1, (Guard.fits h.1.1.1.1).2, ?_, some_fits h.2 (by decide)⟩)
  simp only [Nat.blt_eq] at h
  omega
theorem shl (gd : Guard) (d a b : Nat) : Statement (.shl gd d a b) := by
  intro h
  replace h : (gd.wf && Nat.blt d 64 && Nat.blt a 64 && Nat.blt b 64) = true := h
  simp only [Bool.and_eq_true] at h
  refine (show 0x0E < 2 ^ 6 ∧ gd.gp < 2 ^ 3 ∧ gd.gn < 2 ∧ d * 16384 + a * 256 + b * 4 < 2 ^ 20 ∧ ∀ y, none = some y → y < 2 ^ 31 from
    ⟨by decide, (Guard.fits h.1.1.1).1, (Guard.fits h.1.1.1).2, ?_, fun _ h => nomatch h⟩)
  simp only [Nat.blt_eq] at h
  omega
theorem shr (gd : Guard) (d a b : Nat) : Statement (.shr gd d a b) := by
  intro h
  replace h : (gd.wf && Nat.blt d 64 && Nat.blt a 64 && Nat.blt b 64) = true := h
  simp only [Bool.and_eq_true] at h
  refine (show 0x0F < 2 ^ 6 ∧ gd.gp < 2 ^ 3 ∧ gd.gn < 2 ∧ d * 16384 + a * 256 + b * 4 < 2 ^ 20 ∧ ∀ y, none = some y → y < 2 ^ 31 from
    ⟨by decide, (Guard.fits h.1.1.1).1, (Guard.fits h.1.1.1).2, ?_, fun _ h => nomatch h⟩)
  simp only [Nat.blt_eq] at h
  omega
theorem shrA (gd : Guard) (d a b : Nat) : Statement (.shrA gd d a b) := by
  intro h
  replace h : (gd.wf && Nat.blt d 64 && Nat.blt a 64 && Nat.blt b 64) = true := h
  simp only [Bool.and_eq_true] at h
  refine (show 0x0F < 2 ^ 6 ∧ gd.gp < 2 ^ 3 ∧ gd.gn < 2 ∧ d * 16384 + a * 256 + b * 4 + 1 < 2 ^ 20 ∧ ∀ y, none = some y → y < 2 ^ 31 from
    ⟨by decide, (Guard.fits h.1.1.1).1, (Guard.fits h.1.1.1).2, ?_, fun _ h => nomatch h⟩)
  simp only [Nat.blt_eq] at h
  omega
theorem shli (gd : Guard) (d a s : Nat) : Statement (.shli gd d a s) := by
  intro h
  replace h : (gd.wf && Nat.blt d 64 && Nat.blt a 64 && Nat.blt s 64) = true := h
  simp only [Bool.and_eq_true] at h
  refine (show 0x10 < 2 ^ 6 ∧ gd.gp < 2 ^ 3 ∧ gd.gn < 2 ∧ d * 16384 + a * 256 + s < 2 ^ 20 ∧ ∀ y, none = some y → y < 2 ^ 31 from
    ⟨by decide, (Guard.fits h.1.1.1).1, (Guard.fits h.1.1.1).2, ?_, fun _ h => nomatch h⟩)
  simp only [Nat.blt_eq] at h
  omega
theorem shri (gd : Guard) (d a s : Nat) : Statement (.shri gd d a s) := by
  intro h
  replace h : (gd.wf && Nat.blt d 64 && Nat.blt a 64 && Nat.blt s 64) = true := h
  simp only [Bool.and_eq_true] at h
  refine (show 0x11 < 2 ^ 6 ∧ gd.gp < 2 ^ 3 ∧ gd.gn < 2 ∧ d * 16384 + a * 256 + s < 2 ^ 20 ∧ ∀ y, none = some y → y < 2 ^ 31 from
    ⟨by decide, (Guard.fits h.1.1.1).1, (Guard.fits h.1.1.1).2, ?_, fun _ h => nomatch h⟩)
  simp only [Nat.blt_eq] at h
  omega
theorem shriA (gd : Guard) (d a s : Nat) : Statement (.shriA gd d a s) := by
  intro h
  replace h : (gd.wf && Nat.blt d 64 && Nat.blt a 64 && Nat.blt s 64) = true := h
  simp only [Bool.and_eq_true] at h
  refine (show 0x11 < 2 ^ 6 ∧ gd.gp < 2 ^ 3 ∧ gd.gn < 2 ∧ d * 16384 + a * 256 + s + 64 < 2 ^ 20 ∧ ∀ y, none = some y → y < 2 ^ 31 from
    ⟨by decide, (Guard.fits h.1.1.1).1, (Guard.fits h.1.1.1).2, ?_, fun _ h => nomatch h⟩)
  simp only [Nat.blt_eq] at h
  omega
theorem bfx (gd : Guard) (d a : Nat) (sx wm1 lsb : Nat) : Statement (.bfx gd d a sx wm1 lsb) := by
  intro h
  replace h : (gd.wf && Nat.blt d 64 && Nat.blt a 64 && Nat.blt sx 2 && Nat.blt wm1 64 && Nat.blt lsb 64 && (Nat.ble (lsb + wm1 + 1) 64)) = true := h
  simp only [Bool.and_eq_true] at h
  refine (show 0x12 < 2 ^ 6 ∧ gd.gp < 2 ^ 3 ∧ gd.gn < 2 ∧ d * 16384 + a * 256 < 2 ^ 20 ∧ ∀ y, (some (sx * 4096 + wm1 * 64 + lsb)) = some y → y < 2 ^ 31 from
    ⟨by decide, (Guard.fits h.1.1.1.1.1.1).1, (Guard.fits h.1.1.1.1.1.1).2, ?_, ?_⟩)
  · simp only [Nat.blt_eq] at h
    omega
  · intro y hy
    simp only [Nat.blt_eq, Option.some.injEq] at h hy
    omega
theorem bfi (gd : Guard) (d a : Nat) (wm1 lsb : Nat) : Statement (.bfi gd d a wm1 lsb) := by
  intro h
  replace h : (gd.wf && Nat.blt d 64 && Nat.blt a 64 && Nat.blt wm1 64 && Nat.blt lsb 64 && (Nat.ble (lsb + wm1 + 1) 64)) = true := h
  simp only [Bool.and_eq_true] at h
  refine (show 0x13 < 2 ^ 6 ∧ gd.gp < 2 ^ 3 ∧ gd.gn < 2 ∧ d * 16384 + a * 256 < 2 ^ 20 ∧ ∀ y, (some (wm1 * 64 + lsb)) = some y → y < 2 ^ 31 from
    ⟨by decide, (Guard.fits h.1.1.1.1.1).1, (Guard.fits h.1.1.1.1.1).2, ?_, ?_⟩)
  · simp only [Nat.blt_eq] at h
    omega
  · intro y hy
    simp only [Nat.blt_eq, Option.some.injEq] at h hy
    omega
theorem sethi (gd : Guard) (d a i : Nat) (x : Option Nat) : Statement (.sethi gd d a i x) := by
  intro h
  replace h : (gd.wf && Nat.blt d 64 && Nat.blt a 64 && Nat.blt i 256 && x.all (Nat.blt · 2147483648)) = true := h
  simp only [Bool.and_eq_true] at h
  refine (show 0x14 < 2 ^ 6 ∧ gd.gp < 2 ^ 3 ∧ gd.gn < 2 ∧ d * 16384 + a * 256 + i < 2 ^ 20 ∧ ∀ y, x = some y → y < 2 ^ 31 from
    ⟨by decide, (Guard.fits h.1.1.1.1).1, (Guard.fits h.1.1.1.1).2, ?_, some_fits h.2 (by decide)⟩)
  simp only [Nat.blt_eq] at h
  omega
theorem bitcPop (gd : Guard) (d a : Nat) : Statement (.bitcPop gd d a) := by
  intro h
  replace h : (gd.wf && Nat.blt d 64 && Nat.blt a 64) = true := h
  simp only [Bool.and_eq_true] at h
  refine (show 0x15 < 2 ^ 6 ∧ gd.gp < 2 ^ 3 ∧ gd.gn < 2 ∧ d * 16384 + a * 256 < 2 ^ 20 ∧ ∀ y, none = some y → y < 2 ^ 31 from
    ⟨by decide, (Guard.fits h.1.1).1, (Guard.fits h.1.1).2, ?_, fun _ h => nomatch h⟩)
  simp only [Nat.blt_eq] at h
  omega
theorem bitcClz (gd : Guard) (d a : Nat) : Statement (.bitcClz gd d a) := by
  intro h
  replace h : (gd.wf && Nat.blt d 64 && Nat.blt a 64) = true := h
  simp only [Bool.and_eq_true] at h
  refine (show 0x15 < 2 ^ 6 ∧ gd.gp < 2 ^ 3 ∧ gd.gn < 2 ∧ d * 16384 + a * 256 + 1 < 2 ^ 20 ∧ ∀ y, none = some y → y < 2 ^ 31 from
    ⟨by decide, (Guard.fits h.1.1).1, (Guard.fits h.1.1).2, ?_, fun _ h => nomatch h⟩)
  simp only [Nat.blt_eq] at h
  omega
theorem bitcCtz (gd : Guard) (d a : Nat) : Statement (.bitcCtz gd d a) := by
  intro h
  replace h : (gd.wf && Nat.blt d 64 && Nat.blt a 64) = true := h
  simp only [Bool.and_eq_true] at h
  refine (show 0x15 < 2 ^ 6 ∧ gd.gp < 2 ^ 3 ∧ gd.gn < 2 ∧ d * 16384 + a * 256 + 2 < 2 ^ 20 ∧ ∀ y, none = some y → y < 2 ^ 31 from
    ⟨by decide, (Guard.fits h.1.1).1, (Guard.fits h.1.1).2, ?_, fun _ h => nomatch h⟩)
  simp only [Nat.blt_eq] at h
  omega
theorem min (gd : Guard) (d a b : Nat) : Statement (.min gd d a b) := by
  intro h
  replace h : (gd.wf && Nat.blt d 64 && Nat.blt a 64 && Nat.blt b 64) = true := h
  simp only [Bool.and_eq_true] at h
  refine (show 0x16 < 2 ^ 6 ∧ gd.gp < 2 ^ 3 ∧ gd.gn < 2 ∧ d * 16384 + a * 256 + b * 4 < 2 ^ 20 ∧ ∀ y, none = some y → y < 2 ^ 31 from
    ⟨by decide, (Guard.fits h.1.1.1).1, (Guard.fits h.1.1.1).2, ?_, fun _ h => nomatch h⟩)
  simp only [Nat.blt_eq] at h
  omega
theorem minU (gd : Guard) (d a b : Nat) : Statement (.minU gd d a b) := by
  intro h
  replace h : (gd.wf && Nat.blt d 64 && Nat.blt a 64 && Nat.blt b 64) = true := h
  simp only [Bool.and_eq_true] at h
  refine (show 0x16 < 2 ^ 6 ∧ gd.gp < 2 ^ 3 ∧ gd.gn < 2 ∧ d * 16384 + a * 256 + b * 4 + 1 < 2 ^ 20 ∧ ∀ y, none = some y → y < 2 ^ 31 from
    ⟨by decide, (Guard.fits h.1.1.1).1, (Guard.fits h.1.1.1).2, ?_, fun _ h => nomatch h⟩)
  simp only [Nat.blt_eq] at h
  omega
theorem max (gd : Guard) (d a b : Nat) : Statement (.max gd d a b) := by
  intro h
  replace h : (gd.wf && Nat.blt d 64 && Nat.blt a 64 && Nat.blt b 64) = true := h
  simp only [Bool.and_eq_true] at h
  refine (show 0x17 < 2 ^ 6 ∧ gd.gp < 2 ^ 3 ∧ gd.gn < 2 ∧ d * 16384 + a * 256 + b * 4 < 2 ^ 20 ∧ ∀ y, none = some y → y < 2 ^ 31 from
    ⟨by decide, (Guard.fits h.1.1.1).1, (Guard.fits h.1.1.1).2, ?_, fun _ h => nomatch h⟩)
  simp only [Nat.blt_eq] at h
  omega
theorem maxU (gd : Guard) (d a b : Nat) : Statement (.maxU gd d a b) := by
  intro h
  replace h : (gd.wf && Nat.blt d 64 && Nat.blt a 64 && Nat.blt b 64) = true := h
  simp only [Bool.and_eq_true] at h
  refine (show 0x17 < 2 ^ 6 ∧ gd.gp < 2 ^ 3 ∧ gd.gn < 2 ∧ d * 16384 + a * 256 + b * 4 + 1 < 2 ^ 20 ∧ ∀ y, none = some y → y < 2 ^ 31 from
    ⟨by decide, (Guard.fits h.1.1.1).1, (Guard.fits h.1.1.1).2, ?_, fun _ h => nomatch h⟩)
  simp only [Nat.blt_eq] at h
  omega
theorem cmpeq (gd : Guard) (d a b : Nat) : Statement (.cmpeq gd d a b) := by
  intro h
  replace h : (gd.wf && Nat.blt d 8 && Nat.blt a 64 && Nat.blt b 64) = true := h
  simp only [Bool.and_eq_true] at h
  refine (show 0x18 < 2 ^ 6 ∧ gd.gp < 2 ^ 3 ∧ gd.gn < 2 ∧ d * 16384 + a * 256 + b * 4 < 2 ^ 20 ∧ ∀ y, none = some y → y < 2 ^ 31 from
    ⟨by decide, (Guard.fits h.1.1.1).1, (Guard.fits h.1.1.1).2, ?_, fun _ h => nomatch h⟩)
  simp only [Nat.blt_eq] at h
  omega
theorem cmpne (gd : Guard) (d a b : Nat) : Statement (.cmpne gd d a b) := by
  intro h
  replace h : (gd.wf && Nat.blt d 8 && Nat.blt a 64 && Nat.blt b 64) = true := h
  simp only [Bool.and_eq_true] at h
  refine (show 0x19 < 2 ^ 6 ∧ gd.gp < 2 ^ 3 ∧ gd.gn < 2 ∧ d * 16384 + a * 256 + b * 4 < 2 ^ 20 ∧ ∀ y, none = some y → y < 2 ^ 31 from
    ⟨by decide, (Guard.fits h.1.1.1).1, (Guard.fits h.1.1.1).2, ?_, fun _ h => nomatch h⟩)
  simp only [Nat.blt_eq] at h
  omega
theorem cmplt (gd : Guard) (d a b : Nat) : Statement (.cmplt gd d a b) := by
  intro h
  replace h : (gd.wf && Nat.blt d 8 && Nat.blt a 64 && Nat.blt b 64) = true := h
  simp only [Bool.and_eq_true] at h
  refine (show 0x1A < 2 ^ 6 ∧ gd.gp < 2 ^ 3 ∧ gd.gn < 2 ∧ d * 16384 + a * 256 + b * 4 < 2 ^ 20 ∧ ∀ y, none = some y → y < 2 ^ 31 from
    ⟨by decide, (Guard.fits h.1.1.1).1, (Guard.fits h.1.1.1).2, ?_, fun _ h => nomatch h⟩)
  simp only [Nat.blt_eq] at h
  omega
theorem cmpltu (gd : Guard) (d a b : Nat) : Statement (.cmpltu gd d a b) := by
  intro h
  replace h : (gd.wf && Nat.blt d 8 && Nat.blt a 64 && Nat.blt b 64) = true := h
  simp only [Bool.and_eq_true] at h
  refine (show 0x1B < 2 ^ 6 ∧ gd.gp < 2 ^ 3 ∧ gd.gn < 2 ∧ d * 16384 + a * 256 + b * 4 < 2 ^ 20 ∧ ∀ y, none = some y → y < 2 ^ 31 from
    ⟨by decide, (Guard.fits h.1.1.1).1, (Guard.fits h.1.1.1).2, ?_, fun _ h => nomatch h⟩)
  simp only [Nat.blt_eq] at h
  omega
theorem cmple (gd : Guard) (d a b : Nat) : Statement (.cmple gd d a b) := by
  intro h
  replace h : (gd.wf && Nat.blt d 8 && Nat.blt a 64 && Nat.blt b 64) = true := h
  simp only [Bool.and_eq_true] at h
  refine (show 0x1C < 2 ^ 6 ∧ gd.gp < 2 ^ 3 ∧ gd.gn < 2 ∧ d * 16384 + a * 256 + b * 4 < 2 ^ 20 ∧ ∀ y, none = some y → y < 2 ^ 31 from
    ⟨by decide, (Guard.fits h.1.1.1).1, (Guard.fits h.1.1.1).2, ?_, fun _ h => nomatch h⟩)
  simp only [Nat.blt_eq] at h
  omega
theorem cmpleu (gd : Guard) (d a b : Nat) : Statement (.cmpleu gd d a b) := by
  intro h
  replace h : (gd.wf && Nat.blt d 8 && Nat.blt a 64 && Nat.blt b 64) = true := h
  simp only [Bool.and_eq_true] at h
  refine (show 0x1D < 2 ^ 6 ∧ gd.gp < 2 ^ 3 ∧ gd.gn < 2 ∧ d * 16384 + a * 256 + b * 4 < 2 ^ 20 ∧ ∀ y, none = some y → y < 2 ^ 31 from
    ⟨by decide, (Guard.fits h.1.1.1).1, (Guard.fits h.1.1.1).2, ?_, fun _ h => nomatch h⟩)
  simp only [Nat.blt_eq] at h
  omega
theorem cmpeqi (gd : Guard) (d a i : Nat) (x : Option Nat) : Statement (.cmpeqi gd d a i x) := by
  intro h
  replace h : (gd.wf && Nat.blt d 8 && Nat.blt a 64 && Nat.blt i 256 && x.all (Nat.blt · 2147483648)) = true := h
  simp only [Bool.and_eq_true] at h
  refine (show 0x1E < 2 ^ 6 ∧ gd.gp < 2 ^ 3 ∧ gd.gn < 2 ∧ d * 16384 + a * 256 + i < 2 ^ 20 ∧ ∀ y, x = some y → y < 2 ^ 31 from
    ⟨by decide, (Guard.fits h.1.1.1.1).1, (Guard.fits h.1.1.1.1).2, ?_, some_fits h.2 (by decide)⟩)
  simp only [Nat.blt_eq] at h
  omega
theorem cmplti (gd : Guard) (d a i : Nat) (x : Option Nat) : Statement (.cmplti gd d a i x) := by
  intro h
  replace h : (gd.wf && Nat.blt d 8 && Nat.blt a 64 && Nat.blt i 256 && x.all (Nat.blt · 2147483648)) = true := h
  simp only [Bool.and_eq_true] at h
  refine (show 0x1F < 2 ^ 6 ∧ gd.gp < 2 ^ 3 ∧ gd.gn < 2 ∧ d * 16384 + a * 256 + i < 2 ^ 20 ∧ ∀ y, x = some y → y < 2 ^ 31 from
    ⟨by decide, (Guard.fits h.1.1.1.1).1, (Guard.fits h.1.1.1.1).2, ?_, some_fits h.2 (by decide)⟩)
  simp only [Nat.blt_eq] at h
  omega
theorem pand (gd : Guard) (d a b : Nat) : Statement (.pand gd d a b) := by
  intro h
  replace h : (gd.wf && Nat.blt d 8 && Nat.blt a 8 && Nat.blt b 8) = true := h
  simp only [Bool.and_eq_true] at h
  refine (show 0x20 < 2 ^ 6 ∧ gd.gp < 2 ^ 3 ∧ gd.gn < 2 ∧ d * 16384 + a * 256 + b * 4 < 2 ^ 20 ∧ ∀ y, none = some y → y < 2 ^ 31 from
    ⟨by decide, (Guard.fits h.1.1.1).1, (Guard.fits h.1.1.1).2, ?_, fun _ h => nomatch h⟩)
  simp only [Nat.blt_eq] at h
  omega
theorem por (gd : Guard) (d a b : Nat) : Statement (.por gd d a b) := by
  intro h
  replace h : (gd.wf && Nat.blt d 8 && Nat.blt a 8 && Nat.blt b 8) = true := h
  simp only [Bool.and_eq_true] at h
  refine (show 0x20 < 2 ^ 6 ∧ gd.gp < 2 ^ 3 ∧ gd.gn < 2 ∧ d * 16384 + a * 256 + b * 4 + 1 < 2 ^ 20 ∧ ∀ y, none = some y → y < 2 ^ 31 from
    ⟨by decide, (Guard.fits h.1.1.1).1, (Guard.fits h.1.1.1).2, ?_, fun _ h => nomatch h⟩)
  simp only [Nat.blt_eq] at h
  omega
theorem pxor (gd : Guard) (d a b : Nat) : Statement (.pxor gd d a b) := by
  intro h
  replace h : (gd.wf && Nat.blt d 8 && Nat.blt a 8 && Nat.blt b 8) = true := h
  simp only [Bool.and_eq_true] at h
  refine (show 0x20 < 2 ^ 6 ∧ gd.gp < 2 ^ 3 ∧ gd.gn < 2 ∧ d * 16384 + a * 256 + b * 4 + 2 < 2 ^ 20 ∧ ∀ y, none = some y → y < 2 ^ 31 from
    ⟨by decide, (Guard.fits h.1.1.1).1, (Guard.fits h.1.1.1).2, ?_, fun _ h => nomatch h⟩)
  simp only [Nat.blt_eq] at h
  omega
theorem pandn (gd : Guard) (d a b : Nat) : Statement (.pandn gd d a b) := by
  intro h
  replace h : (gd.wf && Nat.blt d 8 && Nat.blt a 8 && Nat.blt b 8) = true := h
  simp only [Bool.and_eq_true] at h
  refine (show 0x20 < 2 ^ 6 ∧ gd.gp < 2 ^ 3 ∧ gd.gn < 2 ∧ d * 16384 + a * 256 + b * 4 + 3 < 2 ^ 20 ∧ ∀ y, none = some y → y < 2 ^ 31 from
    ⟨by decide, (Guard.fits h.1.1.1).1, (Guard.fits h.1.1.1).2, ?_, fun _ h => nomatch h⟩)
  simp only [Nat.blt_eq] at h
  omega
theorem pmov (gd : Guard) (d a : Nat) : Statement (.pmov gd d a) := by
  intro h
  replace h : (gd.wf && Nat.blt d 8 && Nat.blt a 8) = true := h
  simp only [Bool.and_eq_true] at h
  refine (show 0x21 < 2 ^ 6 ∧ gd.gp < 2 ^ 3 ∧ gd.gn < 2 ∧ d * 16384 + a * 256 < 2 ^ 20 ∧ ∀ y, none = some y → y < 2 ^ 31 from
    ⟨by decide, (Guard.fits h.1.1).1, (Guard.fits h.1.1).2, ?_, fun _ h => nomatch h⟩)
  simp only [Nat.blt_eq] at h
  omega
theorem pmovPreds (gd : Guard) (d : Nat) : Statement (.pmovPreds gd d) := by
  intro h
  replace h : (gd.wf && Nat.blt d 64) = true := h
  simp only [Bool.and_eq_true] at h
  refine (show 0x21 < 2 ^ 6 ∧ gd.gp < 2 ^ 3 ∧ gd.gn < 2 ∧ d * 16384 + 1 < 2 ^ 20 ∧ ∀ y, none = some y → y < 2 ^ 31 from
    ⟨by decide, (Guard.fits h.1).1, (Guard.fits h.1).2, ?_, fun _ h => nomatch h⟩)
  simp only [Nat.blt_eq] at h
  omega
theorem pmovFromG (gd : Guard) (d a : Nat) : Statement (.pmovFromG gd d a) := by
  intro h
  replace h : (gd.wf && Nat.blt d 8 && Nat.blt a 64) = true := h
  simp only [Bool.and_eq_true] at h
  refine (show 0x21 < 2 ^ 6 ∧ gd.gp < 2 ^ 3 ∧ gd.gn < 2 ∧ d * 16384 + a * 256 + 2 < 2 ^ 20 ∧ ∀ y, none = some y → y < 2 ^ 31 from
    ⟨by decide, (Guard.fits h.1.1).1, (Guard.fits h.1.1).2, ?_, fun _ h => nomatch h⟩)
  simp only [Nat.blt_eq] at h
  omega
theorem jmovToJ (gd : Guard) (d a : Nat) : Statement (.jmovToJ gd d a) := by
  intro h
  replace h : (gd.wf && Nat.blt d 16 && Nat.blt a 64) = true := h
  simp only [Bool.and_eq_true] at h
  refine (show 0x22 < 2 ^ 6 ∧ gd.gp < 2 ^ 3 ∧ gd.gn < 2 ∧ d * 16384 + a * 256 < 2 ^ 20 ∧ ∀ y, none = some y → y < 2 ^ 31 from
    ⟨by decide, (Guard.fits h.1.1).1, (Guard.fits h.1.1).2, ?_, fun _ h => nomatch h⟩)
  simp only [Nat.blt_eq] at h
  omega
theorem jmovToG (gd : Guard) (d a : Nat) : Statement (.jmovToG gd d a) := by
  intro h
  replace h : (gd.wf && Nat.blt d 64 && Nat.blt a 16) = true := h
  simp only [Bool.and_eq_true] at h
  refine (show 0x22 < 2 ^ 6 ∧ gd.gp < 2 ^ 3 ∧ gd.gn < 2 ∧ d * 16384 + a * 256 + 1 < 2 ^ 20 ∧ ∀ y, none = some y → y < 2 ^ 31 from
    ⟨by decide, (Guard.fits h.1.1).1, (Guard.fits h.1.1).2, ?_, fun _ h => nomatch h⟩)
  simp only [Nat.blt_eq] at h
  omega
theorem emovToE (gd : Guard) (d a : Nat) : Statement (.emovToE gd d a) := by
  intro h
  replace h : (gd.wf && Nat.blt d 16 && Nat.blt a 64) = true := h
  simp only [Bool.and_eq_true] at h
  refine (show 0x23 < 2 ^ 6 ∧ gd.gp < 2 ^ 3 ∧ gd.gn < 2 ∧ d * 16384 + a * 256 < 2 ^ 20 ∧ ∀ y, none = some y → y < 2 ^ 31 from
    ⟨by decide, (Guard.fits h.1.1).1, (Guard.fits h.1.1).2, ?_, fun _ h => nomatch h⟩)
  simp only [Nat.blt_eq] at h
  omega
theorem emovToG (gd : Guard) (d a : Nat) : Statement (.emovToG gd d a) := by
  intro h
  replace h : (gd.wf && Nat.blt d 64 && Nat.blt a 16) = true := h
  simp only [Bool.and_eq_true] at h
  refine (show 0x23 < 2 ^ 6 ∧ gd.gp < 2 ^ 3 ∧ gd.gn < 2 ∧ d * 16384 + a * 256 + 1 < 2 ^ 20 ∧ ∀ y, none = some y → y < 2 ^ 31 from
    ⟨by decide, (Guard.fits h.1.1).1, (Guard.fits h.1.1).2, ?_, fun _ h => nomatch h⟩)
  simp only [Nat.blt_eq] at h
  omega
theorem emovE (gd : Guard) (d a : Nat) : Statement (.emovE gd d a) := by
  intro h
  replace h : (gd.wf && Nat.blt d 16 && Nat.blt a 16) = true := h
  simp only [Bool.and_eq_true] at h
  refine (show 0x23 < 2 ^ 6 ∧ gd.gp < 2 ^ 3 ∧ gd.gn < 2 ∧ d * 16384 + a * 256 + 2 < 2 ^ 20 ∧ ∀ y, none = some y → y < 2 ^ 31 from
    ⟨by decide, (Guard.fits h.1.1).1, (Guard.fits h.1.1).2, ?_, fun _ h => nomatch h⟩)
  simp only [Nat.blt_eq] at h
  omega
theorem qset (gd : Guard) (d a : Nat) : Statement (.qset gd d a) := by
  intro h
  replace h : (gd.wf && Nat.blt d 16 && Nat.blt a 64) = true := h
  simp only [Bool.and_eq_true] at h
  refine (show 0x24 < 2 ^ 6 ∧ gd.gp < 2 ^ 3 ∧ gd.gn < 2 ∧ d * 16384 + a * 256 < 2 ^ 20 ∧ ∀ y, none = some y → y < 2 ^ 31 from
    ⟨by decide, (Guard.fits h.1.1).1, (Guard.fits h.1.1).2, ?_, fun _ h => nomatch h⟩)
  simp only [Nat.blt_eq] at h
  omega
theorem qsetTid (gd : Guard) (d a : Nat) : Statement (.qsetTid gd d a) := by
  intro h
  replace h : (gd.wf && Nat.blt d 16 && Nat.blt a 64) = true := h
  simp only [Bool.and_eq_true] at h
  refine (show 0x24 < 2 ^ 6 ∧ gd.gp < 2 ^ 3 ∧ gd.gn < 2 ∧ d * 16384 + a * 256 + 1 < 2 ^ 20 ∧ ∀ y, none = some y → y < 2 ^ 31 from
    ⟨by decide, (Guard.fits h.1.1).1, (Guard.fits h.1.1).2, ?_, fun _ h => nomatch h⟩)
  simp only [Nat.blt_eq] at h
  omega
theorem qsetC (gd : Guard) (d a b : Nat) : Statement (.qsetC gd d a b) := by
  intro h
  replace h : (gd.wf && Nat.blt d 16 && Nat.blt a 64 && Nat.blt b 64) = true := h
  simp only [Bool.and_eq_true] at h
  refine (show 0x24 < 2 ^ 6 ∧ gd.gp < 2 ^ 3 ∧ gd.gn < 2 ∧ d * 16384 + a * 256 + b * 4 + 2 < 2 ^ 20 ∧ ∀ y, none = some y → y < 2 ^ 31 from
    ⟨by decide, (Guard.fits h.1.1.1).1, (Guard.fits h.1.1.1).2, ?_, fun _ h => nomatch h⟩)
  simp only [Nat.blt_eq] at h
  omega
theorem qget (gd : Guard) (d a : Nat) : Statement (.qget gd d a) := by
  intro h
  replace h : (gd.wf && Nat.blt d 64 && Nat.blt a 16) = true := h
  simp only [Bool.and_eq_true] at h
  refine (show 0x25 < 2 ^ 6 ∧ gd.gp < 2 ^ 3 ∧ gd.gn < 2 ∧ d * 16384 + a * 256 < 2 ^ 20 ∧ ∀ y, none = some y → y < 2 ^ 31 from
    ⟨by decide, (Guard.fits h.1.1).1, (Guard.fits h.1.1).2, ?_, fun _ h => nomatch h⟩)
  simp only [Nat.blt_eq] at h
  omega
theorem qgetTid (gd : Guard) (d a : Nat) : Statement (.qgetTid gd d a) := by
  intro h
  replace h : (gd.wf && Nat.blt d 64 && Nat.blt a 16) = true := h
  simp only [Bool.and_eq_true] at h
  refine (show 0x25 < 2 ^ 6 ∧ gd.gp < 2 ^ 3 ∧ gd.gn < 2 ∧ d * 16384 + a * 256 + 1 < 2 ^ 20 ∧ ∀ y, none = some y → y < 2 ^ 31 from
    ⟨by decide, (Guard.fits h.1.1).1, (Guard.fits h.1.1).2, ?_, fun _ h => nomatch h⟩)
  simp only [Nat.blt_eq] at h
  omega
theorem qgetC (gd : Guard) (d a b : Nat) : Statement (.qgetC gd d a b) := by
  intro h
  replace h : (gd.wf && Nat.blt d 64 && Nat.blt a 16 && Nat.blt b 64) = true := h
  simp only [Bool.and_eq_true] at h
  refine (show 0x25 < 2 ^ 6 ∧ gd.gp < 2 ^ 3 ∧ gd.gn < 2 ∧ d * 16384 + a * 256 + b * 4 + 2 < 2 ^ 20 ∧ ∀ y, none = some y → y < 2 ^ 31 from
    ⟨by decide, (Guard.fits h.1.1.1).1, (Guard.fits h.1.1.1).2, ?_, fun _ h => nomatch h⟩)
  simp only [Nat.blt_eq] at h
  omega
theorem qadd (gd : Guard) (d a c s : Nat) (x : Option Nat) : Statement (.qadd gd d a c s x) := by
  intro h
  replace h : (gd.wf && Nat.blt d 16 && Nat.blt a 16 && Nat.blt c 4 && Nat.blt s 64 && x.all (Nat.blt · 2048) && ((x.isNone || s == 0))) = true := h
  simp only [Bool.and_eq_true] at h
  refine (show 0x26 < 2 ^ 6 ∧ gd.gp < 2 ^ 3 ∧ gd.gn < 2 ∧ d * 16384 + a * 256 + c * 64 + s < 2 ^ 20 ∧ ∀ y, x = some y → y < 2 ^ 31 from
    ⟨by decide, (Guard.fits h.1.1.1.1.1.1).1, (Guard.fits h.1.1.1.1.1.1).2, ?_, some_fits h.1.2 (by decide)⟩)
  simp only [Nat.blt_eq] at h
  omega
theorem qmov (gd : Guard) (d a : Nat) : Statement (.qmov gd d a) := by
  intro h
  replace h : (gd.wf && Nat.blt d 16 && Nat.blt a 16) = true := h
  simp only [Bool.and_eq_true] at h
  refine (show 0x27 < 2 ^ 6 ∧ gd.gp < 2 ^ 3 ∧ gd.gn < 2 ∧ d * 16384 + a * 256 < 2 ^ 20 ∧ ∀ y, none = some y → y < 2 ^ 31 from
    ⟨by decide, (Guard.fits h.1.1).1, (Guard.fits h.1.1).2, ?_, fun _ h => nomatch h⟩)
  simp only [Nat.blt_eq] at h
  omega
theorem fadd (gd : Guard) (d a b f : Nat) (x : Option Nat) : Statement (.fadd gd d a b f x) := by
  intro h
  replace h : (gd.wf && Nat.blt d 64 && Nat.blt a 64 && Nat.blt b 64 && Nat.blt f 2 && x.all (Nat.blt · 4)) = true := h
  simp only [Bool.and_eq_true] at h
  refine (show 0x28 < 2 ^ 6 ∧ gd.gp < 2 ^ 3 ∧ gd.gn < 2 ∧ d * 16384 + a * 256 + b * 4 + f < 2 ^ 20 ∧ ∀ y, x = some y → y < 2 ^ 31 from
    ⟨by decide, (Guard.fits h.1.1.1.1.1).1, (Guard.fits h.1.1.1.1.1).2, ?_, some_fits h.2 (by decide)⟩)
  simp only [Nat.blt_eq] at h
  omega
theorem fsub (gd : Guard) (d a b f : Nat) (x : Option Nat) : Statement (.fsub gd d a b f x) := by
  intro h
  replace h : (gd.wf && Nat.blt d 64 && Nat.blt a 64 && Nat.blt b 64 && Nat.blt f 2 && x.all (Nat.blt · 4)) = true := h
  simp only [Bool.and_eq_true] at h
  refine (show 0x29 < 2 ^ 6 ∧ gd.gp < 2 ^ 3 ∧ gd.gn < 2 ∧ d * 16384 + a * 256 + b * 4 + f < 2 ^ 20 ∧ ∀ y, x = some y → y < 2 ^ 31 from
    ⟨by decide, (Guard.fits h.1.1.1.1.1).1, (Guard.fits h.1.1.1.1.1).2, ?_, some_fits h.2 (by decide)⟩)
  simp only [Nat.blt_eq] at h
  omega
theorem fmul (gd : Guard) (d a b f : Nat) (x : Option Nat) : Statement (.fmul gd d a b f x) := by
  intro h
  replace h : (gd.wf && Nat.blt d 64 && Nat.blt a 64 && Nat.blt b 64 && Nat.blt f 2 && x.all (Nat.blt · 4)) = true := h
  simp only [Bool.and_eq_true] at h
  refine (show 0x2A < 2 ^ 6 ∧ gd.gp < 2 ^ 3 ∧ gd.gn < 2 ∧ d * 16384 + a * 256 + b * 4 + f < 2 ^ 20 ∧ ∀ y, x = some y → y < 2 ^ 31 from
    ⟨by decide, (Guard.fits h.1.1.1.1.1).1, (Guard.fits h.1.1.1.1.1).2, ?_, some_fits h.2 (by decide)⟩)
  simp only [Nat.blt_eq] at h
  omega
theorem fma (gd : Guard) (d a b f : Nat) (c rm : Nat) : Statement (.fma gd d a b f c rm) := by
  intro h
  replace h : (gd.wf && Nat.blt d 64 && Nat.blt a 64 && Nat.blt b 64 && Nat.blt f 2 && Nat.blt c 64 && Nat.blt rm 4) = true := h
  simp only [Bool.and_eq_true] at h
  refine (show 0x2B < 2 ^ 6 ∧ gd.gp < 2 ^ 3 ∧ gd.gn < 2 ∧ d * 16384 + a * 256 + b * 4 + f < 2 ^ 20 ∧ ∀ y, (some (c * 4 + rm)) = some y → y < 2 ^ 31 from
    ⟨by decide, (Guard.fits h.1.1.1.1.1.1).1, (Guard.fits h.1.1.1.1.1.1).2, ?_, ?_⟩)
  · simp only [Nat.blt_eq] at h
    omega
  · intro y hy
    simp only [Nat.blt_eq, Option.some.injEq] at h hy
    omega
theorem fdiv (gd : Guard) (d a b f : Nat) (x : Option Nat) : Statement (.fdiv gd d a b f x) := by
  intro h
  replace h : (gd.wf && Nat.blt d 64 && Nat.blt a 64 && Nat.blt b 64 && Nat.blt f 2 && x.all (Nat.blt · 4)) = true := h
  simp only [Bool.and_eq_true] at h
  refine (show 0x2C < 2 ^ 6 ∧ gd.gp < 2 ^ 3 ∧ gd.gn < 2 ∧ d * 16384 + a * 256 + b * 4 + f < 2 ^ 20 ∧ ∀ y, x = some y → y < 2 ^ 31 from
    ⟨by decide, (Guard.fits h.1.1.1.1.1).1, (Guard.fits h.1.1.1.1.1).2, ?_, some_fits h.2 (by decide)⟩)
  simp only [Nat.blt_eq] at h
  omega
theorem fsqrt (gd : Guard) (d a f : Nat) (x : Option Nat) : Statement (.fsqrt gd d a f x) := by
  intro h
  replace h : (gd.wf && Nat.blt d 64 && Nat.blt a 64 && Nat.blt f 2 && x.all (Nat.blt · 4)) = true := h
  simp only [Bool.and_eq_true] at h
  refine (show 0x2D < 2 ^ 6 ∧ gd.gp < 2 ^ 3 ∧ gd.gn < 2 ∧ d * 16384 + a * 256 + f < 2 ^ 20 ∧ ∀ y, x = some y → y < 2 ^ 31 from
    ⟨by decide, (Guard.fits h.1.1.1.1).1, (Guard.fits h.1.1.1.1).2, ?_, some_fits h.2 (by decide)⟩)
  simp only [Nat.blt_eq] at h
  omega
theorem fmin (gd : Guard) (d a b f : Nat) : Statement (.fmin gd d a b f) := by
  intro h
  replace h : (gd.wf && Nat.blt d 64 && Nat.blt a 64 && Nat.blt b 64 && Nat.blt f 2) = true := h
  simp only [Bool.and_eq_true] at h
  refine (show 0x2E < 2 ^ 6 ∧ gd.gp < 2 ^ 3 ∧ gd.gn < 2 ∧ d * 16384 + a * 256 + b * 4 + f < 2 ^ 20 ∧ ∀ y, none = some y → y < 2 ^ 31 from
    ⟨by decide, (Guard.fits h.1.1.1.1).1, (Guard.fits h.1.1.1.1).2, ?_, fun _ h => nomatch h⟩)
  simp only [Nat.blt_eq] at h
  omega
theorem fmax (gd : Guard) (d a b f : Nat) : Statement (.fmax gd d a b f) := by
  intro h
  replace h : (gd.wf && Nat.blt d 64 && Nat.blt a 64 && Nat.blt b 64 && Nat.blt f 2) = true := h
  simp only [Bool.and_eq_true] at h
  refine (show 0x2F < 2 ^ 6 ∧ gd.gp < 2 ^ 3 ∧ gd.gn < 2 ∧ d * 16384 + a * 256 + b * 4 + f < 2 ^ 20 ∧ ∀ y, none = some y → y < 2 ^ 31 from
    ⟨by decide, (Guard.fits h.1.1.1.1).1, (Guard.fits h.1.1.1.1).2, ?_, fun _ h => nomatch h⟩)
  simp only [Nat.blt_eq] at h
  omega
theorem fcmp (gd : Guard) (d a b f : Nat) (cond : Nat) : Statement (.fcmp gd d a b f cond) := by
  intro h
  replace h : (gd.wf && Nat.blt d 8 && Nat.blt a 64 && Nat.blt b 64 && Nat.blt f 2 && Nat.blt cond 4) = true := h
  simp only [Bool.and_eq_true] at h
  refine (show 0x30 < 2 ^ 6 ∧ gd.gp < 2 ^ 3 ∧ gd.gn < 2 ∧ d * 16384 + a * 256 + b * 4 + f < 2 ^ 20 ∧ ∀ y, (some (cond)) = some y → y < 2 ^ 31 from
    ⟨by decide, (Guard.fits h.1.1.1.1.1).1, (Guard.fits h.1.1.1.1.1).2, ?_, ?_⟩)
  · simp only [Nat.blt_eq] at h
    omega
  · intro y hy
    simp only [Nat.blt_eq, Option.some.injEq] at h hy
    omega
theorem fcvtFp (gd : Guard) (d a : Nat) (src dst rm : Nat) : Statement (.fcvtFp gd d a src dst rm) := by
  intro h
  replace h : (gd.wf && Nat.blt d 64 && Nat.blt a 64 && Nat.blt src 16 && Nat.blt dst 16 && Nat.blt rm 4 && ((fpCode src && fpCode dst))) = true := h
  simp only [Bool.and_eq_true] at h
  refine (show 0x31 < 2 ^ 6 ∧ gd.gp < 2 ^ 3 ∧ gd.gn < 2 ∧ d * 16384 + a * 256 < 2 ^ 20 ∧ ∀ y, (some (src * 256 + dst * 16 + rm)) = some y → y < 2 ^ 31 from
    ⟨by decide, (Guard.fits h.1.1.1.1.1.1).1, (Guard.fits h.1.1.1.1.1.1).2, ?_, ?_⟩)
  · simp only [Nat.blt_eq] at h
    omega
  · intro y hy
    simp only [Nat.blt_eq, Option.some.injEq] at h hy
    omega
theorem fcvtFromI64 (gd : Guard) (d a : Nat) (f dst rm : Nat) : Statement (.fcvtFromI64 gd d a f dst rm) := by
  intro h
  replace h : (gd.wf && Nat.blt d 64 && Nat.blt a 64 && Nat.blt f 64 && Nat.blt dst 16 && Nat.blt rm 4 && ((f != 63 && fpCode dst))) = true := h
  simp only [Bool.and_eq_true] at h
  refine (show 0x31 < 2 ^ 6 ∧ gd.gp < 2 ^ 3 ∧ gd.gn < 2 ∧ d * 16384 + a * 256 + 1 < 2 ^ 20 ∧ ∀ y, (some (f * 33554432 + dst * 16 + rm)) = some y → y < 2 ^ 31 from
    ⟨by decide, (Guard.fits h.1.1.1.1.1.1).1, (Guard.fits h.1.1.1.1.1.1).2, ?_, ?_⟩)
  · simp only [Nat.blt_eq] at h
    omega
  · intro y hy
    simp only [Nat.blt_eq, Option.some.injEq] at h hy
    omega
theorem fcvtToI64 (gd : Guard) (d a : Nat) (f src rm : Nat) : Statement (.fcvtToI64 gd d a f src rm) := by
  intro h
  replace h : (gd.wf && Nat.blt d 64 && Nat.blt a 64 && Nat.blt f 64 && Nat.blt src 16 && Nat.blt rm 4 && ((f != 63 && fpCode src))) = true := h
  simp only [Bool.and_eq_true] at h
  refine (show 0x31 < 2 ^ 6 ∧ gd.gp < 2 ^ 3 ∧ gd.gn < 2 ∧ d * 16384 + a * 256 + 2 < 2 ^ 20 ∧ ∀ y, (some (f * 33554432 + src * 256 + rm)) = some y → y < 2 ^ 31 from
    ⟨by decide, (Guard.fits h.1.1.1.1.1.1).1, (Guard.fits h.1.1.1.1.1.1).2, ?_, ?_⟩)
  · simp only [Nat.blt_eq] at h
    omega
  · intro y hy
    simp only [Nat.blt_eq, Option.some.injEq] at h hy
    omega
theorem fcvtToU64 (gd : Guard) (d a : Nat) (f src rm : Nat) : Statement (.fcvtToU64 gd d a f src rm) := by
  intro h
  replace h : (gd.wf && Nat.blt d 64 && Nat.blt a 64 && Nat.blt f 64 && Nat.blt src 16 && Nat.blt rm 4 && ((f != 63 && fpCode src))) = true := h
  simp only [Bool.and_eq_true] at h
  refine (show 0x31 < 2 ^ 6 ∧ gd.gp < 2 ^ 3 ∧ gd.gn < 2 ∧ d * 16384 + a * 256 + 3 < 2 ^ 20 ∧ ∀ y, (some (f * 33554432 + src * 256 + rm)) = some y → y < 2 ^ 31 from
    ⟨by decide, (Guard.fits h.1.1.1.1.1.1).1, (Guard.fits h.1.1.1.1.1.1).2, ?_, ?_⟩)
  · simp only [Nat.blt_eq] at h
    omega
  · intro y hy
    simp only [Nat.blt_eq, Option.some.injEq] at h hy
    omega
theorem fclass (gd : Guard) (d a f : Nat) : Statement (.fclass gd d a f) := by
  intro h
  replace h : (gd.wf && Nat.blt d 64 && Nat.blt a 64 && Nat.blt f 2) = true := h
  simp only [Bool.and_eq_true] at h
  refine (show 0x32 < 2 ^ 6 ∧ gd.gp < 2 ^ 3 ∧ gd.gn < 2 ∧ d * 16384 + a * 256 + f < 2 ^ 20 ∧ ∀ y, none = some y → y < 2 ^ 31 from
    ⟨by decide, (Guard.fits h.1.1.1).1, (Guard.fits h.1.1.1).2, ?_, fun _ h => nomatch h⟩)
  simp only [Nat.blt_eq] at h
  omega
theorem zchk (gd : Guard) (d a : Nat) : Statement (.zchk gd d a) := by
  intro h
  replace h : (gd.wf && Nat.blt d 8 && Nat.blt a 16) = true := h
  simp only [Bool.and_eq_true] at h
  refine (show 0x33 < 2 ^ 6 ∧ gd.gp < 2 ^ 3 ∧ gd.gn < 2 ∧ d * 16384 + a * 256 < 2 ^ 20 ∧ ∀ y, none = some y → y < 2 ^ 31 from
    ⟨by decide, (Guard.fits h.1.1).1, (Guard.fits h.1.1).2, ?_, fun _ h => nomatch h⟩)
  simp only [Nat.blt_eq] at h
  omega
theorem zchkM (gd : Guard) (d a b : Nat) : Statement (.zchkM gd d a b) := by
  intro h
  replace h : (gd.wf && Nat.blt d 8 && Nat.blt a 16 && Nat.blt b 16) = true := h
  simp only [Bool.and_eq_true] at h
  refine (show 0x33 < 2 ^ 6 ∧ gd.gp < 2 ^ 3 ∧ gd.gn < 2 ∧ d * 16384 + a * 256 + b * 4 + 1 < 2 ^ 20 ∧ ∀ y, none = some y → y < 2 ^ 31 from
    ⟨by decide, (Guard.fits h.1.1.1).1, (Guard.fits h.1.1.1).2, ?_, fun _ h => nomatch h⟩)
  simp only [Nat.blt_eq] at h
  omega
theorem vadd (gd : Guard) (v : VOp) : Statement (.vadd gd v) := by
  intro h
  replace h : (gd.wf && v.inFile && wfArith v false false true false) = true := h
  simp only [Bool.and_eq_true] at h
  refine (show 0x01 < 2 ^ 6 ∧ gd.gp < 2 ^ 3 ∧ gd.gn < 2 ∧ vopLow v < 2 ^ 20 ∧ ∀ y, (v.x.map fun _ => vopExt v) = some y → y < 2 ^ 31 from
    ⟨by decide, (Guard.fits h.1.1).1, (Guard.fits h.1.1).2, VOp.low_fits h.1.2, VOp.ext_fits h.1.2⟩)
theorem vsub (gd : Guard) (v : VOp) : Statement (.vsub gd v) := by
  intro h
  replace h : (gd.wf && v.inFile && wfArith v false false true false) = true := h
  simp only [Bool.and_eq_true] at h
  refine (show 0x02 < 2 ^ 6 ∧ gd.gp < 2 ^ 3 ∧ gd.gn < 2 ∧ vopLow v < 2 ^ 20 ∧ ∀ y, (v.x.map fun _ => vopExt v) = some y → y < 2 ^ 31 from
    ⟨by decide, (Guard.fits h.1.1).1, (Guard.fits h.1.1).2, VOp.low_fits h.1.2, VOp.ext_fits h.1.2⟩)
theorem vmul (gd : Guard) (v : VOp) : Statement (.vmul gd v) := by
  intro h
  replace h : (gd.wf && v.inFile && wfArith v true false true false) = true := h
  simp only [Bool.and_eq_true] at h
  refine (show 0x03 < 2 ^ 6 ∧ gd.gp < 2 ^ 3 ∧ gd.gn < 2 ∧ vopLow v < 2 ^ 20 ∧ ∀ y, (v.x.map fun _ => vopExt v) = some y → y < 2 ^ 31 from
    ⟨by decide, (Guard.fits h.1.1).1, (Guard.fits h.1.1).2, VOp.low_fits h.1.2, VOp.ext_fits h.1.2⟩)
theorem vfma (gd : Guard) (v : VOp) : Statement (.vfma gd v) := by
  intro h
  replace h : (gd.wf && v.inFile && (v.x.isSome && wfArith v true false true true)) = true := h
  simp only [Bool.and_eq_true] at h
  refine (show 0x04 < 2 ^ 6 ∧ gd.gp < 2 ^ 3 ∧ gd.gn < 2 ∧ vopLow v < 2 ^ 20 ∧ ∀ y, (v.x.map fun _ => vopExt v) = some y → y < 2 ^ 31 from
    ⟨by decide, (Guard.fits h.1.1).1, (Guard.fits h.1.1).2, VOp.low_fits h.1.2, VOp.ext_fits h.1.2⟩)
theorem vmin (gd : Guard) (v : VOp) : Statement (.vmin gd v) := by
  intro h
  replace h : (gd.wf && v.inFile && wfArith v false false false false) = true := h
  simp only [Bool.and_eq_true] at h
  refine (show 0x05 < 2 ^ 6 ∧ gd.gp < 2 ^ 3 ∧ gd.gn < 2 ∧ vopLow v < 2 ^ 20 ∧ ∀ y, (v.x.map fun _ => vopExt v) = some y → y < 2 ^ 31 from
    ⟨by decide, (Guard.fits h.1.1).1, (Guard.fits h.1.1).2, VOp.low_fits h.1.2, VOp.ext_fits h.1.2⟩)
theorem vmax (gd : Guard) (v : VOp) : Statement (.vmax gd v) := by
  intro h
  replace h : (gd.wf && v.inFile && wfArith v false false false false) = true := h
  simp only [Bool.and_eq_true] at h
  refine (show 0x06 < 2 ^ 6 ∧ gd.gp < 2 ^ 3 ∧ gd.gn < 2 ∧ vopLow v < 2 ^ 20 ∧ ∀ y, (v.x.map fun _ => vopExt v) = some y → y < 2 ^ 31 from
    ⟨by decide, (Guard.fits h.1.1).1, (Guard.fits h.1.1).2, VOp.low_fits h.1.2, VOp.ext_fits h.1.2⟩)
theorem vabs (gd : Guard) (v : VOp) : Statement (.vabs gd v) := by
  intro h
  replace h : (gd.wf && v.inFile && wfArith v false true false false) = true := h
  simp only [Bool.and_eq_true] at h
  refine (show 0x07 < 2 ^ 6 ∧ gd.gp < 2 ^ 3 ∧ gd.gn < 2 ∧ vopLow v < 2 ^ 20 ∧ ∀ y, (v.x.map fun _ => vopExt v) = some y → y < 2 ^ 31 from
    ⟨by decide, (Guard.fits h.1.1).1, (Guard.fits h.1.1).2, VOp.low_fits h.1.2, VOp.ext_fits h.1.2⟩)
theorem vneg (gd : Guard) (v : VOp) : Statement (.vneg gd v) := by
  intro h
  replace h : (gd.wf && v.inFile && wfArith v false true false false) = true := h
  simp only [Bool.and_eq_true] at h
  refine (show 0x08 < 2 ^ 6 ∧ gd.gp < 2 ^ 3 ∧ gd.gn < 2 ∧ vopLow v < 2 ^ 20 ∧ ∀ y, (v.x.map fun _ => vopExt v) = some y → y < 2 ^ 31 from
    ⟨by decide, (Guard.fits h.1.1).1, (Guard.fits h.1.1).2, VOp.low_fits h.1.2, VOp.ext_fits h.1.2⟩)
theorem vand (gd : Guard) (v : VOp) : Statement (.vand gd v) := by
  intro h
  replace h : (gd.wf && v.inFile && wfLogic v) = true := h
  simp only [Bool.and_eq_true] at h
  refine (show 0x09 < 2 ^ 6 ∧ gd.gp < 2 ^ 3 ∧ gd.gn < 2 ∧ vopLow v < 2 ^ 20 ∧ ∀ y, (v.x.map fun _ => vopExt v) = some y → y < 2 ^ 31 from
    ⟨by decide, (Guard.fits h.1.1).1, (Guard.fits h.1.1).2, VOp.low_fits h.1.2, VOp.ext_fits h.1.2⟩)
theorem vor (gd : Guard) (v : VOp) : Statement (.vor gd v) := by
  intro h
  replace h : (gd.wf && v.inFile && wfLogic v) = true := h
  simp only [Bool.and_eq_true] at h
  refine (show 0x0A < 2 ^ 6 ∧ gd.gp < 2 ^ 3 ∧ gd.gn < 2 ∧ vopLow v < 2 ^ 20 ∧ ∀ y, (v.x.map fun _ => vopExt v) = some y → y < 2 ^ 31 from
    ⟨by decide, (Guard.fits h.1.1).1, (Guard.fits h.1.1).2, VOp.low_fits h.1.2, VOp.ext_fits h.1.2⟩)
theorem vxor (gd : Guard) (v : VOp) : Statement (.vxor gd v) := by
  intro h
  replace h : (gd.wf && v.inFile && wfLogic v) = true := h
  simp only [Bool.and_eq_true] at h
  refine (show 0x0B < 2 ^ 6 ∧ gd.gp < 2 ^ 3 ∧ gd.gn < 2 ∧ vopLow v < 2 ^ 20 ∧ ∀ y, (v.x.map fun _ => vopExt v) = some y → y < 2 ^ 31 from
    ⟨by decide, (Guard.fits h.1.1).1, (Guard.fits h.1.1).2, VOp.low_fits h.1.2, VOp.ext_fits h.1.2⟩)
theorem vshl (gd : Guard) (v : VOp) : Statement (.vshl gd v) := by
  intro h
  replace h : (gd.wf && v.inFile && wfShift v) = true := h
  simp only [Bool.and_eq_true] at h
  refine (show 0x0C < 2 ^ 6 ∧ gd.gp < 2 ^ 3 ∧ gd.gn < 2 ∧ vopLow v < 2 ^ 20 ∧ ∀ y, (v.x.map fun _ => vopExt v) = some y → y < 2 ^ 31 from
    ⟨by decide, (Guard.fits h.1.1).1, (Guard.fits h.1.1).2, VOp.low_fits h.1.2, VOp.ext_fits h.1.2⟩)
theorem vshr (gd : Guard) (v : VOp) : Statement (.vshr gd v) := by
  intro h
  replace h : (gd.wf && v.inFile && wfShift v) = true := h
  simp only [Bool.and_eq_true] at h
  refine (show 0x0D < 2 ^ 6 ∧ gd.gp < 2 ^ 3 ∧ gd.gn < 2 ∧ vopLow v < 2 ^ 20 ∧ ∀ y, (v.x.map fun _ => vopExt v) = some y → y < 2 ^ 31 from
    ⟨by decide, (Guard.fits h.1.1).1, (Guard.fits h.1.1).2, VOp.low_fits h.1.2, VOp.ext_fits h.1.2⟩)
theorem vcmp (gd : Guard) (v : VOp) : Statement (.vcmp gd v) := by
  intro h
  replace h : (gd.wf && v.inFile && wfVcmp v) = true := h
  simp only [Bool.and_eq_true] at h
  refine (show 0x0E < 2 ^ 6 ∧ gd.gp < 2 ^ 3 ∧ gd.gn < 2 ∧ vopLow v < 2 ^ 20 ∧ ∀ y, (v.x.map fun _ => vopExt v) = some y → y < 2 ^ 31 from
    ⟨by decide, (Guard.fits h.1.1).1, (Guard.fits h.1.1).2, VOp.low_fits h.1.2, VOp.ext_fits h.1.2⟩)
theorem vsel (gd : Guard) (v : VOp) : Statement (.vsel gd v) := by
  intro h
  replace h : (gd.wf && v.inFile && wfVsel v) = true := h
  simp only [Bool.and_eq_true] at h
  refine (show 0x0F < 2 ^ 6 ∧ gd.gp < 2 ^ 3 ∧ gd.gn < 2 ∧ vopLow v < 2 ^ 20 ∧ ∀ y, (v.x.map fun _ => vopExt v) = some y → y < 2 ^ 31 from
    ⟨by decide, (Guard.fits h.1.1).1, (Guard.fits h.1.1).2, VOp.low_fits h.1.2, VOp.ext_fits h.1.2⟩)
theorem vperm (gd : Guard) (v : VOp) : Statement (.vperm gd v) := by
  intro h
  replace h : (gd.wf && v.inFile && wfVperm v) = true := h
  simp only [Bool.and_eq_true] at h
  refine (show 0x10 < 2 ^ 6 ∧ gd.gp < 2 ^ 3 ∧ gd.gn < 2 ∧ vopLow v < 2 ^ 20 ∧ ∀ y, (v.x.map fun _ => vopExt v) = some y → y < 2 ^ 31 from
    ⟨by decide, (Guard.fits h.1.1).1, (Guard.fits h.1.1).2, VOp.low_fits h.1.2, VOp.ext_fits h.1.2⟩)
theorem vslide (gd : Guard) (v : VOp) : Statement (.vslide gd v) := by
  intro h
  replace h : (gd.wf && v.inFile && wfVslide v) = true := h
  simp only [Bool.and_eq_true] at h
  refine (show 0x11 < 2 ^ 6 ∧ gd.gp < 2 ^ 3 ∧ gd.gn < 2 ∧ vopLow v < 2 ^ 20 ∧ ∀ y, (v.x.map fun _ => vopExt v) = some y → y < 2 ^ 31 from
    ⟨by decide, (Guard.fits h.1.1).1, (Guard.fits h.1.1).2, VOp.low_fits h.1.2, VOp.ext_fits h.1.2⟩)
theorem vpack (gd : Guard) (v : VOp) : Statement (.vpack gd v) := by
  intro h
  replace h : (gd.wf && v.inFile && wfVpack v) = true := h
  simp only [Bool.and_eq_true] at h
  refine (show 0x12 < 2 ^ 6 ∧ gd.gp < 2 ^ 3 ∧ gd.gn < 2 ∧ vopLow v < 2 ^ 20 ∧ ∀ y, (v.x.map fun _ => vopExt v) = some y → y < 2 ^ 31 from
    ⟨by decide, (Guard.fits h.1.1).1, (Guard.fits h.1.1).2, VOp.low_fits h.1.2, VOp.ext_fits h.1.2⟩)
theorem vunpk (gd : Guard) (v : VOp) : Statement (.vunpk gd v) := by
  intro h
  replace h : (gd.wf && v.inFile && wfVunpk v) = true := h
  simp only [Bool.and_eq_true] at h
  refine (show 0x13 < 2 ^ 6 ∧ gd.gp < 2 ^ 3 ∧ gd.gn < 2 ∧ vopLow v < 2 ^ 20 ∧ ∀ y, (v.x.map fun _ => vopExt v) = some y → y < 2 ^ 31 from
    ⟨by decide, (Guard.fits h.1.1).1, (Guard.fits h.1.1).2, VOp.low_fits h.1.2, VOp.ext_fits h.1.2⟩)
theorem vbcast (gd : Guard) (v : VOp) : Statement (.vbcast gd v) := by
  intro h
  replace h : (gd.wf && v.inFile && wfVbcast v) = true := h
  simp only [Bool.and_eq_true] at h
  refine (show 0x14 < 2 ^ 6 ∧ gd.gp < 2 ^ 3 ∧ gd.gn < 2 ∧ vopLow v < 2 ^ 20 ∧ ∀ y, (v.x.map fun _ => vopExt v) = some y → y < 2 ^ 31 from
    ⟨by decide, (Guard.fits h.1.1).1, (Guard.fits h.1.1).2, VOp.low_fits h.1.2, VOp.ext_fits h.1.2⟩)
theorem vext (gd : Guard) (v : VOp) : Statement (.vext gd v) := by
  intro h
  replace h : (gd.wf && v.inFile && wfVext v) = true := h
  simp only [Bool.and_eq_true] at h
  refine (show 0x15 < 2 ^ 6 ∧ gd.gp < 2 ^ 3 ∧ gd.gn < 2 ∧ vopLow v < 2 ^ 20 ∧ ∀ y, (v.x.map fun _ => vopExt v) = some y → y < 2 ^ 31 from
    ⟨by decide, (Guard.fits h.1.1).1, (Guard.fits h.1.1).2, VOp.low_fits h.1.2, VOp.ext_fits h.1.2⟩)
theorem vcvt (gd : Guard) (v : VOp) : Statement (.vcvt gd v) := by
  intro h
  replace h : (gd.wf && v.inFile && wfVcvt v) = true := h
  simp only [Bool.and_eq_true] at h
  refine (show 0x16 < 2 ^ 6 ∧ gd.gp < 2 ^ 3 ∧ gd.gn < 2 ∧ vopLow v < 2 ^ 20 ∧ ∀ y, (v.x.map fun _ => vopExt v) = some y → y < 2 ^ 31 from
    ⟨by decide, (Guard.fits h.1.1).1, (Guard.fits h.1.1).2, VOp.low_fits h.1.2, VOp.ext_fits h.1.2⟩)
theorem vqnt (gd : Guard) (v : VOp) : Statement (.vqnt gd v) := by
  intro h
  replace h : (gd.wf && v.inFile && wfVqnt v) = true := h
  simp only [Bool.and_eq_true] at h
  refine (show 0x17 < 2 ^ 6 ∧ gd.gp < 2 ^ 3 ∧ gd.gn < 2 ∧ vopLow v < 2 ^ 20 ∧ ∀ y, (v.x.map fun _ => vopExt v) = some y → y < 2 ^ 31 from
    ⟨by decide, (Guard.fits h.1.1).1, (Guard.fits h.1.1).2, VOp.low_fits h.1.2, VOp.ext_fits h.1.2⟩)
theorem vdq (gd : Guard) (v : VOp) : Statement (.vdq gd v) := by
  intro h
  replace h : (gd.wf && v.inFile && wfVdq v) = true := h
  simp only [Bool.and_eq_true] at h
  refine (show 0x18 < 2 ^ 6 ∧ gd.gp < 2 ^ 3 ∧ gd.gn < 2 ∧ vopLow v < 2 ^ 20 ∧ ∀ y, (v.x.map fun _ => vopExt v) = some y → y < 2 ^ 31 from
    ⟨by decide, (Guard.fits h.1.1).1, (Guard.fits h.1.1).2, VOp.low_fits h.1.2, VOp.ext_fits h.1.2⟩)
theorem vamax (gd : Guard) (v : VOp) : Statement (.vamax gd v) := by
  intro h
  replace h : (gd.wf && v.inFile && wfVamax v) = true := h
  simp only [Bool.and_eq_true] at h
  refine (show 0x19 < 2 ^ 6 ∧ gd.gp < 2 ^ 3 ∧ gd.gn < 2 ∧ vopLow v < 2 ^ 20 ∧ ∀ y, (v.x.map fun _ => vopExt v) = some y → y < 2 ^ 31 from
    ⟨by decide, (Guard.fits h.1.1).1, (Guard.fits h.1.1).2, VOp.low_fits h.1.2, VOp.ext_fits h.1.2⟩)
theorem vspec (gd : Guard) (v : VOp) : Statement (.vspec gd v) := by
  intro h
  replace h : (gd.wf && v.inFile && wfVspec v) = true := h
  simp only [Bool.and_eq_true] at h
  refine (show 0x1A < 2 ^ 6 ∧ gd.gp < 2 ^ 3 ∧ gd.gn < 2 ∧ vopLow v < 2 ^ 20 ∧ ∀ y, (v.x.map fun _ => vopExt v) = some y → y < 2 ^ 31 from
    ⟨by decide, (Guard.fits h.1.1).1, (Guard.fits h.1.1).2, VOp.low_fits h.1.2, VOp.ext_fits h.1.2⟩)
theorem vred (gd : Guard) (v : VOp) : Statement (.vred gd v) := by
  intro h
  replace h : (gd.wf && v.inFile && wfVred v) = true := h
  simp only [Bool.and_eq_true] at h
  refine (show 0x1B < 2 ^ 6 ∧ gd.gp < 2 ^ 3 ∧ gd.gn < 2 ∧ vopLow v < 2 ^ 20 ∧ ∀ y, (v.x.map fun _ => vopExt v) = some y → y < 2 ^ 31 from
    ⟨by decide, (Guard.fits h.1.1).1, (Guard.fits h.1.1).2, VOp.low_fits h.1.2, VOp.ext_fits h.1.2⟩)
theorem vscan (gd : Guard) (v : VOp) : Statement (.vscan gd v) := by
  intro h
  replace h : (gd.wf && v.inFile && wfVscan v) = true := h
  simp only [Bool.and_eq_true] at h
  refine (show 0x1C < 2 ^ 6 ∧ gd.gp < 2 ^ 3 ∧ gd.gn < 2 ∧ vopLow v < 2 ^ 20 ∧ ∀ y, (v.x.map fun _ => vopExt v) = some y → y < 2 ^ 31 from
    ⟨by decide, (Guard.fits h.1.1).1, (Guard.fits h.1.1).2, VOp.low_fits h.1.2, VOp.ext_fits h.1.2⟩)
theorem vmatch (gd : Guard) (v : VOp) : Statement (.vmatch gd v) := by
  intro h
  replace h : (gd.wf && v.inFile && wfVmatch v) = true := h
  simp only [Bool.and_eq_true] at h
  refine (show 0x1D < 2 ^ 6 ∧ gd.gp < 2 ^ 3 ∧ gd.gn < 2 ∧ vopLow v < 2 ^ 20 ∧ ∀ y, (v.x.map fun _ => vopExt v) = some y → y < 2 ^ 31 from
    ⟨by decide, (Guard.fits h.1.1).1, (Guard.fits h.1.1).2, VOp.low_fits h.1.2, VOp.ext_fits h.1.2⟩)
theorem klog (gd : Guard) (v : VOp) : Statement (.klog gd v) := by
  intro h
  replace h : (gd.wf && v.inFile && wfKlog v) = true := h
  simp only [Bool.and_eq_true] at h
  refine (show 0x1E < 2 ^ 6 ∧ gd.gp < 2 ^ 3 ∧ gd.gn < 2 ∧ vopLow v < 2 ^ 20 ∧ ∀ y, (v.x.map fun _ => vopExt v) = some y → y < 2 ^ 31 from
    ⟨by decide, (Guard.fits h.1.1).1, (Guard.fits h.1.1).2, VOp.low_fits h.1.2, VOp.ext_fits h.1.2⟩)
theorem kmov (gd : Guard) (v : VOp) : Statement (.kmov gd v) := by
  intro h
  replace h : (gd.wf && v.inFile && wfKmov v) = true := h
  simp only [Bool.and_eq_true] at h
  refine (show 0x1F < 2 ^ 6 ∧ gd.gp < 2 ^ 3 ∧ gd.gn < 2 ∧ vopLow v < 2 ^ 20 ∧ ∀ y, (v.x.map fun _ => vopExt v) = some y → y < 2 ^ 31 from
    ⟨by decide, (Guard.fits h.1.1).1, (Guard.fits h.1.1).2, VOp.low_fits h.1.2, VOp.ext_fits h.1.2⟩)
theorem vmov (gd : Guard) (v : VOp) : Statement (.vmov gd v) := by
  intro h
  replace h : (gd.wf && v.inFile && wfVmov v) = true := h
  simp only [Bool.and_eq_true] at h
  refine (show 0x20 < 2 ^ 6 ∧ gd.gp < 2 ^ 3 ∧ gd.gn < 2 ∧ vopLow v < 2 ^ 20 ∧ ∀ y, (v.x.map fun _ => vopExt v) = some y → y < 2 ^ 31 from
    ⟨by decide, (Guard.fits h.1.1).1, (Guard.fits h.1.1).2, VOp.low_fits h.1.2, VOp.ext_fits h.1.2⟩)
theorem idle (gd : Guard) : Statement (.idle gd) := by
  intro h
  replace h : (gd.wf) = true := h
  refine (show 0x3F < 2 ^ 6 ∧ gd.gp < 2 ^ 3 ∧ gd.gn < 2 ∧ 0 < 2 ^ 20 ∧ ∀ y, none = some y → y < 2 ^ 31 from
    ⟨by decide, (Guard.fits h).1, (Guard.fits h).2, by decide, fun _ h => nomatch h⟩)
theorem mma (gd : Guard) (e : Edge) (d qa qb sa ta tb z kb0 kbn pa pb : Nat) : Statement (.mma gd e d qa qb sa ta tb z kb0 kbn pa pb) := by
  intro h
  replace h : (gd.wf && e.wf && Nat.blt d 8 && Nat.blt qa 16 && Nat.blt qb 16 && Nat.blt sa 2 && Nat.blt ta 2 && Nat.blt tb 2 && Nat.blt z 2 && Nat.blt kb0 16 && Nat.blt kbn 16 && Nat.blt pa 2 && Nat.blt pb 2 && ((sa == 0 || (Nat.blt qa 8 && pa == 0 && qa != d)))) = true := h
  simp only [Bool.and_eq_true] at h
  have he := (Edge.low_fits h.1.1.1.1.1.1.1.1.1.1.1.1.2).2
  refine (show 0x01 < 2 ^ 6 ∧ gd.gp < 2 ^ 3 ∧ gd.gn < 2 ∧ edgeLow e < 2 ^ 20 ∧ ∀ y, (some (e.c2 * 33554432 + d * 4194304 + qa * 262144 + qb * 16384 + sa * 8192 + ta * 4096 + tb * 2048 + z * 1024 + kb0 * 64 + kbn * 4 + pa * 2 + pb)) = some y → y < 2 ^ 31 from
    ⟨by decide, (Guard.fits h.1.1.1.1.1.1.1.1.1.1.1.1.1).1, (Guard.fits h.1.1.1.1.1.1.1.1.1.1.1.1.1).2, (Edge.low_fits h.1.1.1.1.1.1.1.1.1.1.1.1.2).1, ?_⟩)
  intro y hy
  simp only [Nat.blt_eq, Option.some.injEq] at h hy
  omega
theorem mzero (gd : Guard) (e : Edge) (mask : Nat) : Statement (.mzero gd e mask) := by
  intro h
  replace h : (gd.wf && e.wf && Nat.blt mask 256 && (mask != 0)) = true := h
  simp only [Bool.and_eq_true] at h
  have he := (Edge.low_fits h.1.1.2).2
  refine (show 0x02 < 2 ^ 6 ∧ gd.gp < 2 ^ 3 ∧ gd.gn < 2 ∧ edgeLow e < 2 ^ 20 ∧ ∀ y, (some (e.c2 * 33554432 + mask * 131072)) = some y → y < 2 ^ 31 from
    ⟨by decide, (Guard.fits h.1.1.1).1, (Guard.fits h.1.1.1).2, (Edge.low_fits h.1.1.2).1, ?_⟩)
  intro y hy
  simp only [Nat.blt_eq, Option.some.injEq] at h hy
  omega
theorem mlda (gd : Guard) (e : Edge) (d q t part : Nat) : Statement (.mlda gd e d q t part) := by
  intro h
  replace h : (gd.wf && e.wf && Nat.blt d 8 && Nat.blt q 16 && Nat.blt t 2 && Nat.blt part 8) = true := h
  simp only [Bool.and_eq_true] at h
  have he := (Edge.low_fits h.1.1.1.1.2).2
  refine (show 0x03 < 2 ^ 6 ∧ gd.gp < 2 ^ 3 ∧ gd.gn < 2 ∧ edgeLow e < 2 ^ 20 ∧ ∀ y, (some (e.c2 * 33554432 + d * 4194304 + q * 262144 + t * 131072 + part * 16384)) = some y → y < 2 ^ 31 from
    ⟨by decide, (Guard.fits h.1.1.1.1.1).1, (Guard.fits h.1.1.1.1.1).2, (Edge.low_fits h.1.1.1.1.2).1, ?_⟩)
  intro y hy
  simp only [Nat.blt_eq, Option.some.injEq] at h hy
  omega
theorem msta (gd : Guard) (e : Edge) (d q t part rm dist : Nat) : Statement (.msta gd e d q t part rm dist) := by
  intro h
  replace h : (gd.wf && e.wf && Nat.blt d 8 && Nat.blt q 16 && Nat.blt t 2 && Nat.blt part 8 && Nat.blt rm 4 && Nat.blt dist 8) = true := h
  simp only [Bool.and_eq_true] at h
  have he := (Edge.low_fits h.1.1.1.1.1.1.2).2
  refine (show 0x04 < 2 ^ 6 ∧ gd.gp < 2 ^ 3 ∧ gd.gn < 2 ∧ edgeLow e < 2 ^ 20 ∧ ∀ y, (some (e.c2 * 33554432 + d * 4194304 + q * 262144 + t * 131072 + part * 16384 + rm * 4096 + dist * 512)) = some y → y < 2 ^ 31 from
    ⟨by decide, (Guard.fits h.1.1.1.1.1.1.1).1, (Guard.fits h.1.1.1.1.1.1.1).2, (Edge.low_fits h.1.1.1.1.1.1.2).1, ?_⟩)
  intro y hy
  simp only [Nat.blt_eq, Option.some.injEq] at h hy
  omega
theorem msclFill (gd : Guard) (e : Edge) (d gs : Nat) : Statement (.msclFill gd e d gs) := by
  intro h
  replace h : (gd.wf && e.wf && Nat.blt d 8 && Nat.blt gs 64) = true := h
  simp only [Bool.and_eq_true] at h
  have he := (Edge.low_fits h.1.1.2).2
  refine (show 0x05 < 2 ^ 6 ∧ gd.gp < 2 ^ 3 ∧ gd.gn < 2 ∧ edgeLow e < 2 ^ 20 ∧ ∀ y, (some (e.c2 * 33554432 + d * 4194304 + gs * 65536)) = some y → y < 2 ^ 31 from
    ⟨by decide, (Guard.fits h.1.1.1).1, (Guard.fits h.1.1.1).2, (Edge.low_fits h.1.1.2).1, ?_⟩)
  intro y hy
  simp only [Nat.blt_eq, Option.some.injEq] at h hy
  omega
theorem msclDiag (gd : Guard) (e : Edge) (d gs : Nat) : Statement (.msclDiag gd e d gs) := by
  intro h
  replace h : (gd.wf && e.wf && Nat.blt d 8 && Nat.blt gs 64) = true := h
  simp only [Bool.and_eq_true] at h
  have he := (Edge.low_fits h.1.1.2).2
  refine (show 0x05 < 2 ^ 6 ∧ gd.gp < 2 ^ 3 ∧ gd.gn < 2 ∧ edgeLow e < 2 ^ 20 ∧ ∀ y, (some (e.c2 * 33554432 + d * 4194304 + gs * 65536 + 16384)) = some y → y < 2 ^ 31 from
    ⟨by decide, (Guard.fits h.1.1.1).1, (Guard.fits h.1.1.1).2, (Edge.low_fits h.1.1.2).1, ?_⟩)
  intro y hy
  simp only [Nat.blt_eq, Option.some.injEq] at h hy
  omega
theorem msclMul (gd : Guard) (e : Edge) (d gs : Nat) : Statement (.msclMul gd e d gs) := by
  intro h
  replace h : (gd.wf && e.wf && Nat.blt d 8 && Nat.blt gs 64) = true := h
  simp only [Bool.and_eq_true] at h
  have he := (Edge.low_fits h.1.1.2).2
  refine (show 0x05 < 2 ^ 6 ∧ gd.gp < 2 ^ 3 ∧ gd.gn < 2 ∧ edgeLow e < 2 ^ 20 ∧ ∀ y, (some (e.c2 * 33554432 + d * 4194304 + gs * 65536 + 32768)) = some y → y < 2 ^ 31 from
    ⟨by decide, (Guard.fits h.1.1.1).1, (Guard.fits h.1.1.1).2, (Edge.low_fits h.1.1.2).1, ?_⟩)
  intro y hy
  simp only [Nat.blt_eq, Option.some.injEq] at h hy
  omega
theorem mtriLi (gd : Guard) (e : Edge) (d gs one : Nat) : Statement (.mtriLi gd e d gs one) := by
  intro h
  replace h : (gd.wf && e.wf && Nat.blt d 8 && Nat.blt gs 64 && Nat.blt one 2 && ((one == 0 || gs == 0))) = true := h
  simp only [Bool.and_eq_true] at h
  have he := (Edge.low_fits h.1.1.1.1.2).2
  refine (show 0x06 < 2 ^ 6 ∧ gd.gp < 2 ^ 3 ∧ gd.gn < 2 ∧ edgeLow e < 2 ^ 20 ∧ ∀ y, (some (e.c2 * 33554432 + d * 4194304 + gs * 65536 + one * 8192)) = some y → y < 2 ^ 31 from
    ⟨by decide, (Guard.fits h.1.1.1.1.1).1, (Guard.fits h.1.1.1.1.1).2, (Edge.low_fits h.1.1.1.1.2).1, ?_⟩)
  intro y hy
  simp only [Nat.blt_eq, Option.some.injEq] at h hy
  omega
theorem mtriLs (gd : Guard) (e : Edge) (d gs one : Nat) : Statement (.mtriLs gd e d gs one) := by
  intro h
  replace h : (gd.wf && e.wf && Nat.blt d 8 && Nat.blt gs 64 && Nat.blt one 2 && ((one == 0 || gs == 0))) = true := h
  simp only [Bool.and_eq_true] at h
  have he := (Edge.low_fits h.1.1.1.1.2).2
  refine (show 0x06 < 2 ^ 6 ∧ gd.gp < 2 ^ 3 ∧ gd.gn < 2 ∧ edgeLow e < 2 ^ 20 ∧ ∀ y, (some (e.c2 * 33554432 + d * 4194304 + gs * 65536 + one * 8192 + 16384)) = some y → y < 2 ^ 31 from
    ⟨by decide, (Guard.fits h.1.1.1.1.1).1, (Guard.fits h.1.1.1.1.1).2, (Edge.low_fits h.1.1.1.1.2).1, ?_⟩)
  intro y hy
  simp only [Nat.blt_eq, Option.some.injEq] at h hy
  omega
theorem mtriUi (gd : Guard) (e : Edge) (d gs one : Nat) : Statement (.mtriUi gd e d gs one) := by
  intro h
  replace h : (gd.wf && e.wf && Nat.blt d 8 && Nat.blt gs 64 && Nat.blt one 2 && ((one == 0 || gs == 0))) = true := h
  simp only [Bool.and_eq_true] at h
  have he := (Edge.low_fits h.1.1.1.1.2).2
  refine (show 0x06 < 2 ^ 6 ∧ gd.gp < 2 ^ 3 ∧ gd.gn < 2 ∧ edgeLow e < 2 ^ 20 ∧ ∀ y, (some (e.c2 * 33554432 + d * 4194304 + gs * 65536 + one * 8192 + 32768)) = some y → y < 2 ^ 31 from
    ⟨by decide, (Guard.fits h.1.1.1.1.1).1, (Guard.fits h.1.1.1.1.1).2, (Edge.low_fits h.1.1.1.1.2).1, ?_⟩)
  intro y hy
  simp only [Nat.blt_eq, Option.some.injEq] at h hy
  omega
theorem mtriUs (gd : Guard) (e : Edge) (d gs one : Nat) : Statement (.mtriUs gd e d gs one) := by
  intro h
  replace h : (gd.wf && e.wf && Nat.blt d 8 && Nat.blt gs 64 && Nat.blt one 2 && ((one == 0 || gs == 0))) = true := h
  simp only [Bool.and_eq_true] at h
  have he := (Edge.low_fits h.1.1.1.1.2).2
  refine (show 0x06 < 2 ^ 6 ∧ gd.gp < 2 ^ 3 ∧ gd.gn < 2 ∧ edgeLow e < 2 ^ 20 ∧ ∀ y, (some (e.c2 * 33554432 + d * 4194304 + gs * 65536 + one * 8192 + 49152)) = some y → y < 2 ^ 31 from
    ⟨by decide, (Guard.fits h.1.1.1.1.1).1, (Guard.fits h.1.1.1.1.1).2, (Edge.low_fits h.1.1.1.1.2).1, ?_⟩)
  intro y hy
  simp only [Nat.blt_eq, Option.some.injEq] at h hy
  omega
theorem tbuild (gd : Guard) (e : Edge) (z q p kb mode w : Nat) : Statement (.tbuild gd e z q p kb mode w) := by
  intro h
  replace h : (gd.wf && e.wf && Nat.blt z 16 && Nat.blt q 16 && Nat.blt p 2 && Nat.blt kb 16 && Nat.blt mode 2 && Nat.blt w 4 && ((mode == 1 || w == 0))) = true := h
  simp only [Bool.and_eq_true] at h
  have he := (Edge.low_fits h.1.1.1.1.1.1.1.2).2
  refine (show 0x10 < 2 ^ 6 ∧ gd.gp < 2 ^ 3 ∧ gd.gn < 2 ∧ edgeLow e < 2 ^ 20 ∧ ∀ y, (some (e.c2 * 33554432 + z * 2097152 + q * 131072 + p * 65536 + kb * 4096 + mode * 2048 + w * 512)) = some y → y < 2 ^ 31 from
    ⟨by decide, (Guard.fits h.1.1.1.1.1.1.1.1).1, (Guard.fits h.1.1.1.1.1.1.1.1).2, (Edge.low_fits h.1.1.1.1.1.1.1.2).1, ?_⟩)
  intro y hy
  simp only [Nat.blt_eq, Option.some.injEq] at h hy
  omega
theorem tlook (gd : Guard) (e : Edge) (d z q wkb cst cnm1 pm : Nat) : Statement (.tlook gd e d z q wkb cst cnm1 pm) := by
  intro h
  replace h : (gd.wf && e.wf && Nat.blt d 8 && Nat.blt z 16 && Nat.blt q 16 && Nat.blt wkb 32 && Nat.blt cst 4 && Nat.blt cnm1 4 && Nat.blt pm 16 && (pm != 0)) = true := h
  simp only [Bool.and_eq_true] at h
  have he := (Edge.low_fits h.1.1.1.1.1.1.1.1.2).2
  refine (show 0x11 < 2 ^ 6 ∧ gd.gp < 2 ^ 3 ∧ gd.gn < 2 ∧ edgeLow e < 2 ^ 20 ∧ ∀ y, (some (e.c2 * 33554432 + d * 4194304 + z * 262144 + q * 16384 + wkb * 256 + cst * 64 + cnm1 * 16 + pm)) = some y → y < 2 ^ 31 from
    ⟨by decide, (Guard.fits h.1.1.1.1.1.1.1.1.1).1, (Guard.fits h.1.1.1.1.1.1.1.1.1).2, (Edge.low_fits h.1.1.1.1.1.1.1.1.2).1, ?_⟩)
  intro y hy
  simp only [Nat.blt_eq, Option.some.injEq] at h hy
  omega
theorem tlookR (gd : Guard) (e : Edge) (d z q wkb cst cnm1 pm : Nat) : Statement (.tlookR gd e d z q wkb cst cnm1 pm) := by
  intro h
  replace h : (gd.wf && e.wf && Nat.blt d 8 && Nat.blt z 16 && Nat.blt q 16 && Nat.blt wkb 32 && Nat.blt cst 4 && Nat.blt cnm1 4 && Nat.blt pm 16 && (pm != 0)) = true := h
  simp only [Bool.and_eq_true] at h
  have he := (Edge.low_fits h.1.1.1.1.1.1.1.1.2).2
  refine (show 0x11 < 2 ^ 6 ∧ gd.gp < 2 ^ 3 ∧ gd.gn < 2 ∧ edgeLow e < 2 ^ 20 ∧ ∀ y, (some (e.c2 * 33554432 + d * 4194304 + z * 262144 + q * 16384 + wkb * 256 + cst * 64 + cnm1 * 16 + pm + 8192)) = some y → y < 2 ^ 31 from
    ⟨by decide, (Guard.fits h.1.1.1.1.1.1.1.1.1).1, (Guard.fits h.1.1.1.1.1.1.1.1.1).2, (Edge.low_fits h.1.1.1.1.1.1.1.1.2).1, ?_⟩)
  intro y hy
  simp only [Nat.blt_eq, Option.some.injEq] at h hy
  omega
theorem zsave (gd : Guard) (e : Edge) (z f q gs : Nat) : Statement (.zsave gd e z f q gs) := by
  intro h
  replace h : (gd.wf && e.wf && Nat.blt z 16 && Nat.blt f 2 && Nat.blt q 16 && Nat.blt gs 64 && ((if f == 0 then q == 0 else gs == 0))) = true := h
  simp only [Bool.and_eq_true] at h
  have he := (Edge.low_fits h.1.1.1.1.1.2).2
  refine (show 0x12 < 2 ^ 6 ∧ gd.gp < 2 ^ 3 ∧ gd.gn < 2 ∧ edgeLow e < 2 ^ 20 ∧ ∀ y, (some (e.c2 * 33554432 + z * 2097152 + f * 1048576 + q * 65536 + gs * 1024)) = some y → y < 2 ^ 31 from
    ⟨by decide, (Guard.fits h.1.1.1.1.1.1).1, (Guard.fits h.1.1.1.1.1.1).2, (Edge.low_fits h.1.1.1.1.1.2).1, ?_⟩)
  intro y hy
  simp only [Nat.blt_eq, Option.some.injEq] at h hy
  omega
theorem zload (gd : Guard) (e : Edge) (z f q gs : Nat) : Statement (.zload gd e z f q gs) := by
  intro h
  replace h : (gd.wf && e.wf && Nat.blt z 16 && Nat.blt f 2 && Nat.blt q 16 && Nat.blt gs 64 && ((if f == 0 then q == 0 else gs == 0))) = true := h
  simp only [Bool.and_eq_true] at h
  have he := (Edge.low_fits h.1.1.1.1.1.2).2
  refine (show 0x13 < 2 ^ 6 ∧ gd.gp < 2 ^ 3 ∧ gd.gn < 2 ∧ edgeLow e < 2 ^ 20 ∧ ∀ y, (some (e.c2 * 33554432 + z * 2097152 + f * 1048576 + q * 65536 + gs * 1024)) = some y → y < 2 ^ 31 from
    ⟨by decide, (Guard.fits h.1.1.1.1.1.1).1, (Guard.fits h.1.1.1.1.1.1).2, (Edge.low_fits h.1.1.1.1.1.2).1, ?_⟩)
  intro y hy
  simp only [Nat.blt_eq, Option.some.injEq] at h hy
  omega
theorem zinv (gd : Guard) (e : Edge) (mask : Nat) : Statement (.zinv gd e mask) := by
  intro h
  replace h : (gd.wf && e.wf && Nat.blt mask 65536 && (mask != 0)) = true := h
  simp only [Bool.and_eq_true] at h
  have he := (Edge.low_fits h.1.1.2).2
  refine (show 0x14 < 2 ^ 6 ∧ gd.gp < 2 ^ 3 ∧ gd.gn < 2 ∧ edgeLow e < 2 ^ 20 ∧ ∀ y, (some (e.c2 * 33554432 + mask * 512)) = some y → y < 2 ^ 31 from
    ⟨by decide, (Guard.fits h.1.1.1).1, (Guard.fits h.1.1.1).2, (Edge.low_fits h.1.1.2).1, ?_⟩)
  intro y hy
  simp only [Nat.blt_eq, Option.some.injEq] at h hy
  omega
theorem cbld (gd : Guard) (e : Edge) (w gs cnt : Nat) : Statement (.cbld gd e w gs cnt) := by
  intro h
  replace h : (gd.wf && e.wf && Nat.blt w 4 && Nat.blt gs 64 && Nat.blt cnt 32 && (Nat.ble cnt 16)) = true := h
  simp only [Bool.and_eq_true] at h
  have he := (Edge.low_fits h.1.1.1.1.2).2
  refine (show 0x15 < 2 ^ 6 ∧ gd.gp < 2 ^ 3 ∧ gd.gn < 2 ∧ edgeLow e < 2 ^ 20 ∧ ∀ y, (some (e.c2 * 33554432 + w * 8388608 + gs * 131072 + cnt * 4096)) = some y → y < 2 ^ 31 from
    ⟨by decide, (Guard.fits h.1.1.1.1.1).1, (Guard.fits h.1.1.1.1.1).2, (Edge.low_fits h.1.1.1.1.2).1, ?_⟩)
  intro y hy
  simp only [Nat.blt_eq, Option.some.injEq] at h hy
  omega
theorem tfetch (gd : Guard) (e : Edge) (q hint : Nat) : Statement (.tfetch gd e q hint) := by
  intro h
  replace h : (gd.wf && e.wf && Nat.blt q 16 && Nat.blt hint 16 && (Nat.blt hint 8)) = true := h
  simp only [Bool.and_eq_true] at h
  have he := (Edge.low_fits h.1.1.1.2).2
  refine (show 0x01 < 2 ^ 6 ∧ gd.gp < 2 ^ 3 ∧ gd.gn < 2 ∧ edgeLow e < 2 ^ 20 ∧ ∀ y, (some (e.c2 * 33554432 + q * 2097152 + hint * 131072)) = some y → y < 2 ^ 31 from
    ⟨by decide, (Guard.fits h.1.1.1.1).1, (Guard.fits h.1.1.1.1).2, (Edge.low_fits h.1.1.1.2).1, ?_⟩)
  intro y hy
  simp only [Nat.blt_eq, Option.some.injEq] at h hy
  omega
theorem thint (gd : Guard) (e : Edge) (q set clr : Nat) : Statement (.thint gd e q set clr) := by
  intro h
  replace h : (gd.wf && e.wf && Nat.blt q 16 && Nat.blt set 16 && Nat.blt clr 16 && ((Nat.blt set 8 && Nat.blt clr 8 && (set != 0 || clr != 0) && (Nat.land set clr == 0)))) = true := h
  simp only [Bool.and_eq_true] at h
  have he := (Edge.low_fits h.1.1.1.1.2).2
  refine (show 0x02 < 2 ^ 6 ∧ gd.gp < 2 ^ 3 ∧ gd.gn < 2 ∧ edgeLow e < 2 ^ 20 ∧ ∀ y, (some (e.c2 * 33554432 + q * 2097152 + set * 131072 + clr * 8192)) = some y → y < 2 ^ 31 from
    ⟨by decide, (Guard.fits h.1.1.1.1.1).1, (Guard.fits h.1.1.1.1.1).2, (Edge.low_fits h.1.1.1.1.2).1, ?_⟩)
  intro y hy
  simp only [Nat.blt_eq, Option.some.injEq] at h hy
  omega
theorem tinv (gd : Guard) (e : Edge) (q ax nm1 : Nat) : Statement (.tinv gd e q ax nm1) := by
  intro h
  replace h : (gd.wf && e.wf && Nat.blt q 16 && Nat.blt ax 4 && Nat.blt nm1 256) = true := h
  simp only [Bool.and_eq_true] at h
  have he := (Edge.low_fits h.1.1.1.2).2
  refine (show 0x03 < 2 ^ 6 ∧ gd.gp < 2 ^ 3 ∧ gd.gn < 2 ∧ edgeLow e < 2 ^ 20 ∧ ∀ y, (some (e.c2 * 33554432 + q * 2097152 + ax * 524288 + nm1 * 2048)) = some y → y < 2 ^ 31 from
    ⟨by decide, (Guard.fits h.1.1.1.1).1, (Guard.fits h.1.1.1.1).2, (Edge.low_fits h.1.1.1.2).1, ?_⟩)
  intro y hy
  simp only [Nat.blt_eq, Option.some.injEq] at h hy
  omega
theorem tcopy (gd : Guard) (e : Edge) (qs qd t : Nat) : Statement (.tcopy gd e qs qd t) := by
  intro h
  replace h : (gd.wf && e.wf && Nat.blt qs 16 && Nat.blt qd 16 && Nat.blt t 2) = true := h
  simp only [Bool.and_eq_true] at h
  have he := (Edge.low_fits h.1.1.1.2).2
  refine (show 0x04 < 2 ^ 6 ∧ gd.gp < 2 ^ 3 ∧ gd.gn < 2 ∧ edgeLow e < 2 ^ 20 ∧ ∀ y, (some (e.c2 * 33554432 + qs * 2097152 + qd * 131072 + t * 32768)) = some y → y < 2 ^ 31 from
    ⟨by decide, (Guard.fits h.1.1.1.1).1, (Guard.fits h.1.1.1.1).2, (Edge.low_fits h.1.1.1.2).1, ?_⟩)
  intro y hy
  simp only [Nat.blt_eq, Option.some.injEq] at h hy
  omega
theorem tcopyMem (gd : Guard) (e : Edge) (qs t gs : Nat) : Statement (.tcopyMem gd e qs t gs) := by
  intro h
  replace h : (gd.wf && e.wf && Nat.blt qs 16 && Nat.blt t 2 && Nat.blt gs 64) = true := h
  simp only [Bool.and_eq_true] at h
  have he := (Edge.low_fits h.1.1.1.2).2
  refine (show 0x04 < 2 ^ 6 ∧ gd.gp < 2 ^ 3 ∧ gd.gn < 2 ∧ edgeLow e < 2 ^ 20 ∧ ∀ y, (some (e.c2 * 33554432 + qs * 2097152 + t * 32768 + gs * 512 + 65536)) = some y → y < 2 ^ 31 from
    ⟨by decide, (Guard.fits h.1.1.1.1).1, (Guard.fits h.1.1.1.1).2, (Edge.low_fits h.1.1.1.2).1, ?_⟩)
  intro y hy
  simp only [Nat.blt_eq, Option.some.injEq] at h hy
  omega
theorem tred (gd : Guard) (e : Edge) (qs qd opr : Nat) : Statement (.tred gd e qs qd opr) := by
  intro h
  replace h : (gd.wf && e.wf && Nat.blt qs 16 && Nat.blt qd 16 && Nat.blt opr 8 && (Nat.blt opr 6)) = true := h
  simp only [Bool.and_eq_true] at h
  have he := (Edge.low_fits h.1.1.1.1.2).2
  refine (show 0x05 < 2 ^ 6 ∧ gd.gp < 2 ^ 3 ∧ gd.gn < 2 ∧ edgeLow e < 2 ^ 20 ∧ ∀ y, (some (e.c2 * 33554432 + qs * 2097152 + qd * 131072 + opr * 16384)) = some y → y < 2 ^ 31 from
    ⟨by decide, (Guard.fits h.1.1.1.1.1).1, (Guard.fits h.1.1.1.1.1).2, (Edge.low_fits h.1.1.1.1.2).1, ?_⟩)
  intro y hy
  simp only [Nat.blt_eq, Option.some.injEq] at h hy
  omega
theorem tgath (gd : Guard) (e : Edge) (qd qs gs nm1 : Nat) : Statement (.tgath gd e qd qs gs nm1) := by
  intro h
  replace h : (gd.wf && e.wf && Nat.blt qd 16 && Nat.blt qs 16 && Nat.blt gs 64 && Nat.blt nm1 256) = true := h
  simp only [Bool.and_eq_true] at h
  have he := (Edge.low_fits h.1.1.1.1.2).2
  refine (show 0x06 < 2 ^ 6 ∧ gd.gp < 2 ^ 3 ∧ gd.gn < 2 ∧ edgeLow e < 2 ^ 20 ∧ ∀ y, (some (e.c2 * 33554432 + qd * 2097152 + qs * 131072 + gs * 2048 + nm1 * 8)) = some y → y < 2 ^ 31 from
    ⟨by decide, (Guard.fits h.1.1.1.1.1).1, (Guard.fits h.1.1.1.1.1).2, (Edge.low_fits h.1.1.1.1.2).1, ?_⟩)
  intro y hy
  simp only [Nat.blt_eq, Option.some.injEq] at h hy
  omega
theorem tscat (gd : Guard) (e : Edge) (qs qd gs nm1 : Nat) : Statement (.tscat gd e qs qd gs nm1) := by
  intro h
  replace h : (gd.wf && e.wf && Nat.blt qs 16 && Nat.blt qd 16 && Nat.blt gs 64 && Nat.blt nm1 256) = true := h
  simp only [Bool.and_eq_true] at h
  have he := (Edge.low_fits h.1.1.1.1.2).2
  refine (show 0x07 < 2 ^ 6 ∧ gd.gp < 2 ^ 3 ∧ gd.gn < 2 ∧ edgeLow e < 2 ^ 20 ∧ ∀ y, (some (e.c2 * 33554432 + qs * 2097152 + qd * 131072 + gs * 2048 + nm1 * 8)) = some y → y < 2 ^ 31 from
    ⟨by decide, (Guard.fits h.1.1.1.1.1).1, (Guard.fits h.1.1.1.1.1).2, (Edge.low_fits h.1.1.1.1.2).1, ?_⟩)
  intro y hy
  simp only [Nat.blt_eq, Option.some.injEq] at h hy
  omega
theorem tacq (gd : Guard) (e : Edge) (q ver : Nat) : Statement (.tacq gd e q ver) := by
  intro h
  replace h : (gd.wf && e.wf && Nat.blt q 16 && Nat.blt ver 65536) = true := h
  simp only [Bool.and_eq_true] at h
  have he := (Edge.low_fits h.1.1.2).2
  refine (show 0x08 < 2 ^ 6 ∧ gd.gp < 2 ^ 3 ∧ gd.gn < 2 ∧ edgeLow e < 2 ^ 20 ∧ ∀ y, (some (e.c2 * 33554432 + q * 2097152 + ver * 32)) = some y → y < 2 ^ 31 from
    ⟨by decide, (Guard.fits h.1.1.1).1, (Guard.fits h.1.1.1).2, (Edge.low_fits h.1.1.2).1, ?_⟩)
  intro y hy
  simp only [Nat.blt_eq, Option.some.injEq] at h hy
  omega
theorem trel (gd : Guard) (e : Edge) (q : Nat) : Statement (.trel gd e q) := by
  intro h
  replace h : (gd.wf && e.wf && Nat.blt q 16) = true := h
  simp only [Bool.and_eq_true] at h
  have he := (Edge.low_fits h.1.2).2
  refine (show 0x09 < 2 ^ 6 ∧ gd.gp < 2 ^ 3 ∧ gd.gn < 2 ∧ edgeLow e < 2 ^ 20 ∧ ∀ y, (some (e.c2 * 33554432 + q * 2097152)) = some y → y < 2 ^ 31 from
    ⟨by decide, (Guard.fits h.1.1).1, (Guard.fits h.1.1).2, (Edge.low_fits h.1.2).1, ?_⟩)
  intro y hy
  simp only [Nat.blt_eq, Option.some.injEq] at h hy
  omega
theorem itin (gd : Guard) (e : Edge) (s ix dm1 : Nat) : Statement (.itin gd e s ix dm1) := by
  intro h
  replace h : (gd.wf && e.wf && Nat.blt s 4 && Nat.blt ix 4096 && Nat.blt dm1 64) = true := h
  simp only [Bool.and_eq_true] at h
  have he := (Edge.low_fits h.1.1.1.2).2
  refine (show 0x0A < 2 ^ 6 ∧ gd.gp < 2 ^ 3 ∧ gd.gn < 2 ∧ edgeLow e < 2 ^ 20 ∧ ∀ y, (some (e.c2 * 33554432 + s * 8388608 + ix * 2048 + dm1 * 32)) = some y → y < 2 ^ 31 from
    ⟨by decide, (Guard.fits h.1.1.1.1).1, (Guard.fits h.1.1.1.1).2, (Edge.low_fits h.1.1.1.2).1, ?_⟩)
  intro y hy
  simp only [Nat.blt_eq, Option.some.injEq] at h hy
  omega
theorem itstep (gd : Guard) (e : Edge) (s q : Nat) : Statement (.itstep gd e s q) := by
  intro h
  replace h : (gd.wf && e.wf && Nat.blt s 4 && Nat.blt q 16) = true := h
  simp only [Bool.and_eq_true] at h
  have he := (Edge.low_fits h.1.1.2).2
  refine (show 0x0B < 2 ^ 6 ∧ gd.gp < 2 ^ 3 ∧ gd.gn < 2 ∧ edgeLow e < 2 ^ 20 ∧ ∀ y, (some (e.c2 * 33554432 + s * 8388608 + q * 524288)) = some y → y < 2 ^ 31 from
    ⟨by decide, (Guard.fits h.1.1.1).1, (Guard.fits h.1.1.1).2, (Edge.low_fits h.1.1.2).1, ?_⟩)
  intro y hy
  simp only [Nat.blt_eq, Option.some.injEq] at h hy
  omega
theorem chsend (gd : Guard) (e : Edge) (ch q : Nat) : Statement (.chsend gd e ch q) := by
  intro h
  replace h : (gd.wf && e.wf && Nat.blt ch 16 && Nat.blt q 16) = true := h
  simp only [Bool.and_eq_true] at h
  have he := (Edge.low_fits h.1.1.2).2
  refine (show 0x0C < 2 ^ 6 ∧ gd.gp < 2 ^ 3 ∧ gd.gn < 2 ∧ edgeLow e < 2 ^ 20 ∧ ∀ y, (some (e.c2 * 33554432 + ch * 2097152 + q * 131072)) = some y → y < 2 ^ 31 from
    ⟨by decide, (Guard.fits h.1.1.1).1, (Guard.fits h.1.1.1).2, (Edge.low_fits h.1.1.2).1, ?_⟩)
  intro y hy
  simp only [Nat.blt_eq, Option.some.injEq] at h hy
  omega
theorem chrecv (gd : Guard) (e : Edge) (ch q : Nat) : Statement (.chrecv gd e ch q) := by
  intro h
  replace h : (gd.wf && e.wf && Nat.blt ch 16 && Nat.blt q 16) = true := h
  simp only [Bool.and_eq_true] at h
  have he := (Edge.low_fits h.1.1.2).2
  refine (show 0x0D < 2 ^ 6 ∧ gd.gp < 2 ^ 3 ∧ gd.gn < 2 ∧ edgeLow e < 2 ^ 20 ∧ ∀ y, (some (e.c2 * 33554432 + ch * 2097152 + q * 131072)) = some y → y < 2 ^ 31 from
    ⟨by decide, (Guard.fits h.1.1.1).1, (Guard.fits h.1.1.1).2, (Edge.low_fits h.1.1.2).1, ?_⟩)
  intro y hy
  simp only [Nat.blt_eq, Option.some.injEq] at h hy
  omega
theorem desc (gd : Guard) (e : Edge) (gt ga : Nat) : Statement (.desc gd e gt ga) := by
  intro h
  replace h : (gd.wf && e.wf && Nat.blt gt 64 && Nat.blt ga 64) = true := h
  simp only [Bool.and_eq_true] at h
  have he := (Edge.low_fits h.1.1.2).2
  refine (show 0x0E < 2 ^ 6 ∧ gd.gp < 2 ^ 3 ∧ gd.gn < 2 ∧ edgeLow e < 2 ^ 20 ∧ ∀ y, (some (e.c2 * 33554432 + gt * 524288 + ga * 8192)) = some y → y < 2 ^ 31 from
    ⟨by decide, (Guard.fits h.1.1.1).1, (Guard.fits h.1.1.1).2, (Edge.low_fits h.1.1.2).1, ?_⟩)
  intro y hy
  simp only [Nat.blt_eq, Option.some.injEq] at h hy
  omega
theorem rld (gd : Guard) (e : Edge) (d ga : Nat) : Statement (.rld gd e d ga) := by
  intro h
  replace h : (gd.wf && e.wf && Nat.blt d 64 && Nat.blt ga 64) = true := h
  simp only [Bool.and_eq_true] at h
  have he := (Edge.low_fits h.1.1.2).2
  refine (show 0x10 < 2 ^ 6 ∧ gd.gp < 2 ^ 3 ∧ gd.gn < 2 ∧ edgeLow e < 2 ^ 20 ∧ ∀ y, (some (e.c2 * 33554432 + d * 524288 + ga * 8192)) = some y → y < 2 ^ 31 from
    ⟨by decide, (Guard.fits h.1.1.1).1, (Guard.fits h.1.1.1).2, (Edge.low_fits h.1.1.2).1, ?_⟩)
  intro y hy
  simp only [Nat.blt_eq, Option.some.injEq] at h hy
  omega
theorem rst (gd : Guard) (e : Edge) (ga gs : Nat) : Statement (.rst gd e ga gs) := by
  intro h
  replace h : (gd.wf && e.wf && Nat.blt ga 64 && Nat.blt gs 64) = true := h
  simp only [Bool.and_eq_true] at h
  have he := (Edge.low_fits h.1.1.2).2
  refine (show 0x11 < 2 ^ 6 ∧ gd.gp < 2 ^ 3 ∧ gd.gn < 2 ∧ edgeLow e < 2 ^ 20 ∧ ∀ y, (some (e.c2 * 33554432 + ga * 8192 + gs * 128)) = some y → y < 2 ^ 31 from
    ⟨by decide, (Guard.fits h.1.1.1).1, (Guard.fits h.1.1.1).2, (Edge.low_fits h.1.1.2).1, ?_⟩)
  intro y hy
  simp only [Nat.blt_eq, Option.some.injEq] at h hy
  omega
theorem rfaa (gd : Guard) (e : Edge) (d ga gs : Nat) : Statement (.rfaa gd e d ga gs) := by
  intro h
  replace h : (gd.wf && e.wf && Nat.blt d 64 && Nat.blt ga 64 && Nat.blt gs 64) = true := h
  simp only [Bool.and_eq_true] at h
  have he := (Edge.low_fits h.1.1.1.2).2
  refine (show 0x12 < 2 ^ 6 ∧ gd.gp < 2 ^ 3 ∧ gd.gn < 2 ∧ edgeLow e < 2 ^ 20 ∧ ∀ y, (some (e.c2 * 33554432 + d * 524288 + ga * 8192 + gs * 128)) = some y → y < 2 ^ 31 from
    ⟨by decide, (Guard.fits h.1.1.1.1).1, (Guard.fits h.1.1.1.1).2, (Edge.low_fits h.1.1.1.2).1, ?_⟩)
  intro y hy
  simp only [Nat.blt_eq, Option.some.injEq] at h hy
  omega
theorem rtdec (gd : Guard) (e : Edge) (ga : Nat) : Statement (.rtdec gd e ga) := by
  intro h
  replace h : (gd.wf && e.wf && Nat.blt ga 64) = true := h
  simp only [Bool.and_eq_true] at h
  have he := (Edge.low_fits h.1.2).2
  refine (show 0x13 < 2 ^ 6 ∧ gd.gp < 2 ^ 3 ∧ gd.gn < 2 ∧ edgeLow e < 2 ^ 20 ∧ ∀ y, (some (e.c2 * 33554432 + ga * 8192)) = some y → y < 2 ^ 31 from
    ⟨by decide, (Guard.fits h.1.1).1, (Guard.fits h.1.1).2, (Edge.low_fits h.1.2).1, ?_⟩)
  intro y hy
  simp only [Nat.blt_eq, Option.some.injEq] at h hy
  omega
theorem rfence (gd : Guard) (e : Edge) (ga : Nat) : Statement (.rfence gd e ga) := by
  intro h
  replace h : (gd.wf && e.wf && Nat.blt ga 64) = true := h
  simp only [Bool.and_eq_true] at h
  have he := (Edge.low_fits h.1.2).2
  refine (show 0x14 < 2 ^ 6 ∧ gd.gp < 2 ^ 3 ∧ gd.gn < 2 ∧ edgeLow e < 2 ^ 20 ∧ ∀ y, (some (e.c2 * 33554432 + ga * 8192)) = some y → y < 2 ^ 31 from
    ⟨by decide, (Guard.fits h.1.1).1, (Guard.fits h.1.1).2, (Edge.low_fits h.1.2).1, ?_⟩)
  intro y hy
  simp only [Nat.blt_eq, Option.some.injEq] at h hy
  omega
theorem rfenceFStore (gd : Guard) (e : Edge) (ga gs : Nat) : Statement (.rfenceFStore gd e ga gs) := by
  intro h
  replace h : (gd.wf && e.wf && Nat.blt ga 64 && Nat.blt gs 64) = true := h
  simp only [Bool.and_eq_true] at h
  have he := (Edge.low_fits h.1.1.2).2
  refine (show 0x14 < 2 ^ 6 ∧ gd.gp < 2 ^ 3 ∧ gd.gn < 2 ∧ edgeLow e < 2 ^ 20 ∧ ∀ y, (some (e.c2 * 33554432 + ga * 8192 + gs * 128 + 32)) = some y → y < 2 ^ 31 from
    ⟨by decide, (Guard.fits h.1.1.1).1, (Guard.fits h.1.1.1).2, (Edge.low_fits h.1.1.2).1, ?_⟩)
  intro y hy
  simp only [Nat.blt_eq, Option.some.injEq] at h hy
  omega
theorem rfenceFDec (gd : Guard) (e : Edge) (ga : Nat) : Statement (.rfenceFDec gd e ga) := by
  intro h
  replace h : (gd.wf && e.wf && Nat.blt ga 64) = true := h
  simp only [Bool.and_eq_true] at h
  have he := (Edge.low_fits h.1.2).2
  refine (show 0x14 < 2 ^ 6 ∧ gd.gp < 2 ^ 3 ∧ gd.gn < 2 ∧ edgeLow e < 2 ^ 20 ∧ ∀ y, (some (e.c2 * 33554432 + ga * 8192 + 64)) = some y → y < 2 ^ 31 from
    ⟨by decide, (Guard.fits h.1.1).1, (Guard.fits h.1.1).2, (Edge.low_fits h.1.2).1, ?_⟩)
  intro y hy
  simp only [Nat.blt_eq, Option.some.injEq] at h hy
  omega
theorem tspawn (gd : Guard) (e : Edge) (ga : Nat) : Statement (.tspawn gd e ga) := by
  intro h
  replace h : (gd.wf && e.wf && Nat.blt ga 64) = true := h
  simp only [Bool.and_eq_true] at h
  have he := (Edge.low_fits h.1.2).2
  refine (show 0x18 < 2 ^ 6 ∧ gd.gp < 2 ^ 3 ∧ gd.gn < 2 ∧ edgeLow e < 2 ^ 20 ∧ ∀ y, (some (e.c2 * 33554432 + ga * 8192)) = some y → y < 2 ^ 31 from
    ⟨by decide, (Guard.fits h.1.1).1, (Guard.fits h.1.1).2, (Edge.low_fits h.1.2).1, ?_⟩)
  intro y hy
  simp only [Nat.blt_eq, Option.some.injEq] at h hy
  omega
theorem tdec (gd : Guard) (e : Edge) (ga : Nat) : Statement (.tdec gd e ga) := by
  intro h
  replace h : (gd.wf && e.wf && Nat.blt ga 64) = true := h
  simp only [Bool.and_eq_true] at h
  have he := (Edge.low_fits h.1.2).2
  refine (show 0x19 < 2 ^ 6 ∧ gd.gp < 2 ^ 3 ∧ gd.gn < 2 ∧ edgeLow e < 2 ^ 20 ∧ ∀ y, (some (e.c2 * 33554432 + ga * 8192)) = some y → y < 2 ^ 31 from
    ⟨by decide, (Guard.fits h.1.1).1, (Guard.fits h.1.1).2, (Edge.low_fits h.1.2).1, ?_⟩)
  intro y hy
  simp only [Nat.blt_eq, Option.some.injEq] at h hy
  omega
theorem tdecb (gd : Guard) (e : Edge) (ga : Nat) : Statement (.tdecb gd e ga) := by
  intro h
  replace h : (gd.wf && e.wf && Nat.blt ga 64) = true := h
  simp only [Bool.and_eq_true] at h
  have he := (Edge.low_fits h.1.2).2
  refine (show 0x1A < 2 ^ 6 ∧ gd.gp < 2 ^ 3 ∧ gd.gn < 2 ∧ edgeLow e < 2 ^ 20 ∧ ∀ y, (some (e.c2 * 33554432 + ga * 8192)) = some y → y < 2 ^ 31 from
    ⟨by decide, (Guard.fits h.1.1).1, (Guard.fits h.1.1).2, (Edge.low_fits h.1.2).1, ?_⟩)
  intro y hy
  simp only [Nat.blt_eq, Option.some.injEq] at h hy
  omega
theorem tdecbArm (gd : Guard) (e : Edge) (ga gs : Nat) : Statement (.tdecbArm gd e ga gs) := by
  intro h
  replace h : (gd.wf && e.wf && Nat.blt ga 64 && Nat.blt gs 64) = true := h
  simp only [Bool.and_eq_true] at h
  have he := (Edge.low_fits h.1.1.2).2
  refine (show 0x1A < 2 ^ 6 ∧ gd.gp < 2 ^ 3 ∧ gd.gn < 2 ∧ edgeLow e < 2 ^ 20 ∧ ∀ y, (some (e.c2 * 33554432 + ga * 8192 + gs * 128 + 64)) = some y → y < 2 ^ 31 from
    ⟨by decide, (Guard.fits h.1.1.1).1, (Guard.fits h.1.1.1).2, (Edge.low_fits h.1.1.2).1, ?_⟩)
  intro y hy
  simp only [Nat.blt_eq, Option.some.injEq] at h hy
  omega
theorem ldB (gd : Guard) (t b d : Nat) (x : Option Nat) : Statement (.ldB gd t b d x) := by
  intro h
  replace h : (gd.wf && Nat.blt t 64 && Nat.blt b 64 && Nat.blt d 256 && x.all (Nat.blt · 2147483648)) = true := h
  simp only [Bool.and_eq_true] at h
  refine (show 0x01 < 2 ^ 6 ∧ gd.gp < 2 ^ 3 ∧ gd.gn < 2 ∧ t * 16384 + b * 256 + d < 2 ^ 20 ∧ ∀ y, x = some y → y < 2 ^ 31 from
    ⟨by decide, (Guard.fits h.1.1.1.1).1, (Guard.fits h.1.1.1.1).2, ?_, some_fits h.2 (by decide)⟩)
  simp only [Nat.blt_eq] at h
  omega
theorem ldBs (gd : Guard) (t b d : Nat) (x : Option Nat) : Statement (.ldBs gd t b d x) := by
  intro h
  replace h : (gd.wf && Nat.blt t 64 && Nat.blt b 64 && Nat.blt d 256 && x.all (Nat.blt · 2147483648)) = true := h
  simp only [Bool.and_eq_true] at h
  refine (show 0x02 < 2 ^ 6 ∧ gd.gp < 2 ^ 3 ∧ gd.gn < 2 ∧ t * 16384 + b * 256 + d < 2 ^ 20 ∧ ∀ y, x = some y → y < 2 ^ 31 from
    ⟨by decide, (Guard.fits h.1.1.1.1).1, (Guard.fits h.1.1.1.1).2, ?_, some_fits h.2 (by decide)⟩)
  simp only [Nat.blt_eq] at h
  omega
theorem ldH (gd : Guard) (t b d : Nat) (x : Option Nat) : Statement (.ldH gd t b d x) := by
  intro h
  replace h : (gd.wf && Nat.blt t 64 && Nat.blt b 64 && Nat.blt d 256 && x.all (Nat.blt · 2147483648)) = true := h
  simp only [Bool.and_eq_true] at h
  refine (show 0x03 < 2 ^ 6 ∧ gd.gp < 2 ^ 3 ∧ gd.gn < 2 ∧ t * 16384 + b * 256 + d < 2 ^ 20 ∧ ∀ y, x = some y → y < 2 ^ 31 from
    ⟨by decide, (Guard.fits h.1.1.1.1).1, (Guard.fits h.1.1.1.1).2, ?_, some_fits h.2 (by decide)⟩)
  simp only [Nat.blt_eq] at h
  omega
theorem ldHs (gd : Guard) (t b d : Nat) (x : Option Nat) : Statement (.ldHs gd t b d x) := by
  intro h
  replace h : (gd.wf && Nat.blt t 64 && Nat.blt b 64 && Nat.blt d 256 && x.all (Nat.blt · 2147483648)) = true := h
  simp only [Bool.and_eq_true] at h
  refine (show 0x04 < 2 ^ 6 ∧ gd.gp < 2 ^ 3 ∧ gd.gn < 2 ∧ t * 16384 + b * 256 + d < 2 ^ 20 ∧ ∀ y, x = some y → y < 2 ^ 31 from
    ⟨by decide, (Guard.fits h.1.1.1.1).1, (Guard.fits h.1.1.1.1).2, ?_, some_fits h.2 (by decide)⟩)
  simp only [Nat.blt_eq] at h
  omega
theorem ldW (gd : Guard) (t b d : Nat) (x : Option Nat) : Statement (.ldW gd t b d x) := by
  intro h
  replace h : (gd.wf && Nat.blt t 64 && Nat.blt b 64 && Nat.blt d 256 && x.all (Nat.blt · 2147483648)) = true := h
  simp only [Bool.and_eq_true] at h
  refine (show 0x05 < 2 ^ 6 ∧ gd.gp < 2 ^ 3 ∧ gd.gn < 2 ∧ t * 16384 + b * 256 + d < 2 ^ 20 ∧ ∀ y, x = some y → y < 2 ^ 31 from
    ⟨by decide, (Guard.fits h.1.1.1.1).1, (Guard.fits h.1.1.1.1).2, ?_, some_fits h.2 (by decide)⟩)
  simp only [Nat.blt_eq] at h
  omega
theorem ldWs (gd : Guard) (t b d : Nat) (x : Option Nat) : Statement (.ldWs gd t b d x) := by
  intro h
  replace h : (gd.wf && Nat.blt t 64 && Nat.blt b 64 && Nat.blt d 256 && x.all (Nat.blt · 2147483648)) = true := h
  simp only [Bool.and_eq_true] at h
  refine (show 0x06 < 2 ^ 6 ∧ gd.gp < 2 ^ 3 ∧ gd.gn < 2 ∧ t * 16384 + b * 256 + d < 2 ^ 20 ∧ ∀ y, x = some y → y < 2 ^ 31 from
    ⟨by decide, (Guard.fits h.1.1.1.1).1, (Guard.fits h.1.1.1.1).2, ?_, some_fits h.2 (by decide)⟩)
  simp only [Nat.blt_eq] at h
  omega
theorem ldD (gd : Guard) (t b d : Nat) (x : Option Nat) : Statement (.ldD gd t b d x) := by
  intro h
  replace h : (gd.wf && Nat.blt t 64 && Nat.blt b 64 && Nat.blt d 256 && x.all (Nat.blt · 2147483648)) = true := h
  simp only [Bool.and_eq_true] at h
  refine (show 0x07 < 2 ^ 6 ∧ gd.gp < 2 ^ 3 ∧ gd.gn < 2 ∧ t * 16384 + b * 256 + d < 2 ^ 20 ∧ ∀ y, x = some y → y < 2 ^ 31 from
    ⟨by decide, (Guard.fits h.1.1.1.1).1, (Guard.fits h.1.1.1.1).2, ?_, some_fits h.2 (by decide)⟩)
  simp only [Nat.blt_eq] at h
  omega
theorem stB (gd : Guard) (t b d : Nat) (x : Option Nat) : Statement (.stB gd t b d x) := by
  intro h
  replace h : (gd.wf && Nat.blt t 64 && Nat.blt b 64 && Nat.blt d 256 && x.all (Nat.blt · 2147483648)) = true := h
  simp only [Bool.and_eq_true] at h
  refine (show 0x08 < 2 ^ 6 ∧ gd.gp < 2 ^ 3 ∧ gd.gn < 2 ∧ t * 16384 + b * 256 + d < 2 ^ 20 ∧ ∀ y, x = some y → y < 2 ^ 31 from
    ⟨by decide, (Guard.fits h.1.1.1.1).1, (Guard.fits h.1.1.1.1).2, ?_, some_fits h.2 (by decide)⟩)
  simp only [Nat.blt_eq] at h
  omega
theorem stH (gd : Guard) (t b d : Nat) (x : Option Nat) : Statement (.stH gd t b d x) := by
  intro h
  replace h : (gd.wf && Nat.blt t 64 && Nat.blt b 64 && Nat.blt d 256 && x.all (Nat.blt · 2147483648)) = true := h
  simp only [Bool.and_eq_true] at h
  refine (show 0x09 < 2 ^ 6 ∧ gd.gp < 2 ^ 3 ∧ gd.gn < 2 ∧ t * 16384 + b * 256 + d < 2 ^ 20 ∧ ∀ y, x = some y → y < 2 ^ 31 from
    ⟨by decide, (Guard.fits h.1.1.1.1).1, (Guard.fits h.1.1.1.1).2, ?_, some_fits h.2 (by decide)⟩)
  simp only [Nat.blt_eq] at h
  omega
theorem stW (gd : Guard) (t b d : Nat) (x : Option Nat) : Statement (.stW gd t b d x) := by
  intro h
  replace h : (gd.wf && Nat.blt t 64 && Nat.blt b 64 && Nat.blt d 256 && x.all (Nat.blt · 2147483648)) = true := h
  simp only [Bool.and_eq_true] at h
  refine (show 0x0A < 2 ^ 6 ∧ gd.gp < 2 ^ 3 ∧ gd.gn < 2 ∧ t * 16384 + b * 256 + d < 2 ^ 20 ∧ ∀ y, x = some y → y < 2 ^ 31 from
    ⟨by decide, (Guard.fits h.1.1.1.1).1, (Guard.fits h.1.1.1.1).2, ?_, some_fits h.2 (by decide)⟩)
  simp only [Nat.blt_eq] at h
  omega
theorem stD (gd : Guard) (t b d : Nat) (x : Option Nat) : Statement (.stD gd t b d x) := by
  intro h
  replace h : (gd.wf && Nat.blt t 64 && Nat.blt b 64 && Nat.blt d 256 && x.all (Nat.blt · 2147483648)) = true := h
  simp only [Bool.and_eq_true] at h
  refine (show 0x0B < 2 ^ 6 ∧ gd.gp < 2 ^ 3 ∧ gd.gn < 2 ∧ t * 16384 + b * 256 + d < 2 ^ 20 ∧ ∀ y, x = some y → y < 2 ^ 31 from
    ⟨by decide, (Guard.fits h.1.1.1.1).1, (Guard.fits h.1.1.1.1).2, ?_, some_fits h.2 (by decide)⟩)
  simp only [Nat.blt_eq] at h
  omega
theorem ldv (gd : Guard) (t b d : Nat) (x : Option Nat) : Statement (.ldv gd t b d x) := by
  intro h
  replace h : (gd.wf && Nat.blt t 32 && Nat.blt b 64 && Nat.blt d 256 && x.all (Nat.blt · 2147483648)) = true := h
  simp only [Bool.and_eq_true] at h
  refine (show 0x0C < 2 ^ 6 ∧ gd.gp < 2 ^ 3 ∧ gd.gn < 2 ∧ t * 16384 + b * 256 + d < 2 ^ 20 ∧ ∀ y, x = some y → y < 2 ^ 31 from
    ⟨by decide, (Guard.fits h.1.1.1.1).1, (Guard.fits h.1.1.1.1).2, ?_, some_fits h.2 (by decide)⟩)
  simp only [Nat.blt_eq] at h
  omega
theorem stv (gd : Guard) (t b d : Nat) (x : Option Nat) : Statement (.stv gd t b d x) := by
  intro h
  replace h : (gd.wf && Nat.blt t 32 && Nat.blt b 64 && Nat.blt d 256 && x.all (Nat.blt · 2147483648)) = true := h
  simp only [Bool.and_eq_true] at h
  refine (show 0x0D < 2 ^ 6 ∧ gd.gp < 2 ^ 3 ∧ gd.gn < 2 ∧ t * 16384 + b * 256 + d < 2 ^ 20 ∧ ∀ y, x = some y → y < 2 ^ 31 from
    ⟨by decide, (Guard.fits h.1.1.1.1).1, (Guard.fits h.1.1.1.1).2, ?_, some_fits h.2 (by decide)⟩)
  simp only [Nat.blt_eq] at h
  omega
theorem gath (gd : Guard) (t b : Nat) (vx k es sc : Nat) : Statement (.gath gd t b vx k es sc) := by
  intro h
  replace h : (gd.wf && Nat.blt t 32 && Nat.blt b 64 && Nat.blt vx 32 && Nat.blt k 8 && Nat.blt es 4 && Nat.blt sc 2) = true := h
  simp only [Bool.and_eq_true] at h
  refine (show 0x0E < 2 ^ 6 ∧ gd.gp < 2 ^ 3 ∧ gd.gn < 2 ∧ t * 16384 + b * 256 < 2 ^ 20 ∧ ∀ y, (some (vx * 67108864 + k * 8388608 + es * 2097152 + sc * 1048576)) = some y → y < 2 ^ 31 from
    ⟨by decide, (Guard.fits h.1.1.1.1.1.1).1, (Guard.fits h.1.1.1.1.1.1).2, ?_, ?_⟩)
  · simp only [Nat.blt_eq] at h
    omega
  · intro y hy
    simp only [Nat.blt_eq, Option.some.injEq] at h hy
    omega
theorem scat (gd : Guard) (t b : Nat) (vx k es sc : Nat) : Statement (.scat gd t b vx k es sc) := by
  intro h
  replace h : (gd.wf && Nat.blt t 32 && Nat.blt b 64 && Nat.blt vx 32 && Nat.blt k 8 && Nat.blt es 4 && Nat.blt sc 2) = true := h
  simp only [Bool.and_eq_true] at h
  refine (show 0x0F < 2 ^ 6 ∧ gd.gp < 2 ^ 3 ∧ gd.gn < 2 ∧ t * 16384 + b * 256 < 2 ^ 20 ∧ ∀ y, (some (vx * 67108864 + k * 8388608 + es * 2097152 + sc * 1048576)) = some y → y < 2 ^ 31 from
    ⟨by decide, (Guard.fits h.1.1.1.1.1.1).1, (Guard.fits h.1.1.1.1.1.1).2, ?_, ?_⟩)
  · simp only [Nat.blt_eq] at h
    omega
  · intro y hy
    simp only [Nat.blt_eq, Option.some.injEq] at h hy
    omega
theorem ldx (gd : Guard) (t b d : Nat) (x : Option Nat) : Statement (.ldx gd t b d x) := by
  intro h
  replace h : (gd.wf && Nat.blt t 64 && Nat.blt b 64 && Nat.blt d 256 && x.all (Nat.blt · 2147483648)) = true := h
  simp only [Bool.and_eq_true] at h
  refine (show 0x10 < 2 ^ 6 ∧ gd.gp < 2 ^ 3 ∧ gd.gn < 2 ∧ t * 16384 + b * 256 + d < 2 ^ 20 ∧ ∀ y, x = some y → y < 2 ^ 31 from
    ⟨by decide, (Guard.fits h.1.1.1.1).1, (Guard.fits h.1.1.1.1).2, ?_, some_fits h.2 (by decide)⟩)
  simp only [Nat.blt_eq] at h
  omega
theorem ldxinv (gd : Guard) (b d : Nat) (x : Option Nat) : Statement (.ldxinv gd b d x) := by
  intro h
  replace h : (gd.wf && Nat.blt b 64 && Nat.blt d 256 && x.all (Nat.blt · 2147483648)) = true := h
  simp only [Bool.and_eq_true] at h
  refine (show 0x11 < 2 ^ 6 ∧ gd.gp < 2 ^ 3 ∧ gd.gn < 2 ∧ b * 256 + d < 2 ^ 20 ∧ ∀ y, x = some y → y < 2 ^ 31 from
    ⟨by decide, (Guard.fits h.1.1.1).1, (Guard.fits h.1.1.1).2, ?_, some_fits h.2 (by decide)⟩)
  simp only [Nat.blt_eq] at h
  omega
theorem ldxinvAll (gd : Guard) : Statement (.ldxinvAll gd) := by
  intro h
  replace h : (gd.wf) = true := h
  refine (show 0x11 < 2 ^ 6 ∧ gd.gp < 2 ^ 3 ∧ gd.gn < 2 ∧ 16384 < 2 ^ 20 ∧ ∀ y, none = some y → y < 2 ^ 31 from
    ⟨by decide, (Guard.fits h).1, (Guard.fits h).2, by decide, fun _ h => nomatch h⟩)
theorem sld (gd : Guard) (t b d : Nat) (x : Option Nat) : Statement (.sld gd t b d x) := by
  intro h
  replace h : (gd.wf && Nat.blt t 16 && Nat.blt b 64 && Nat.blt d 256 && x.all (Nat.blt · 2147483648)) = true := h
  simp only [Bool.and_eq_true] at h
  refine (show 0x12 < 2 ^ 6 ∧ gd.gp < 2 ^ 3 ∧ gd.gn < 2 ∧ t * 16384 + b * 256 + d < 2 ^ 20 ∧ ∀ y, x = some y → y < 2 ^ 31 from
    ⟨by decide, (Guard.fits h.1.1.1.1).1, (Guard.fits h.1.1.1.1).2, ?_, some_fits h.2 (by decide)⟩)
  simp only [Nat.blt_eq] at h
  omega
theorem pref (gd : Guard) (b d : Nat) (x : Option Nat) : Statement (.pref gd b d x) := by
  intro h
  replace h : (gd.wf && Nat.blt b 64 && Nat.blt d 256 && x.all (Nat.blt · 2147483648)) = true := h
  simp only [Bool.and_eq_true] at h
  refine (show 0x13 < 2 ^ 6 ∧ gd.gp < 2 ^ 3 ∧ gd.gn < 2 ∧ b * 256 + d < 2 ^ 20 ∧ ∀ y, x = some y → y < 2 ^ 31 from
    ⟨by decide, (Guard.fits h.1.1.1).1, (Guard.fits h.1.1.1).2, ?_, some_fits h.2 (by decide)⟩)
  simp only [Nat.blt_eq] at h
  omega
theorem prefLlc (gd : Guard) (b d : Nat) (x : Option Nat) : Statement (.prefLlc gd b d x) := by
  intro h
  replace h : (gd.wf && Nat.blt b 64 && Nat.blt d 256 && x.all (Nat.blt · 2147483648)) = true := h
  simp only [Bool.and_eq_true] at h
  refine (show 0x13 < 2 ^ 6 ∧ gd.gp < 2 ^ 3 ∧ gd.gn < 2 ∧ b * 256 + d + 16384 < 2 ^ 20 ∧ ∀ y, x = some y → y < 2 ^ 31 from
    ⟨by decide, (Guard.fits h.1.1.1).1, (Guard.fits h.1.1.1).2, ?_, some_fits h.2 (by decide)⟩)
  simp only [Nat.blt_eq] at h
  omega
theorem acq (gd : Guard) (t b d : Nat) (x : Option Nat) : Statement (.acq gd t b d x) := by
  intro h
  replace h : (gd.wf && Nat.blt t 64 && Nat.blt b 64 && Nat.blt d 256 && x.all (Nat.blt · 2147483648)) = true := h
  simp only [Bool.and_eq_true] at h
  refine (show 0x14 < 2 ^ 6 ∧ gd.gp < 2 ^ 3 ∧ gd.gn < 2 ∧ t * 16384 + b * 256 + d < 2 ^ 20 ∧ ∀ y, x = some y → y < 2 ^ 31 from
    ⟨by decide, (Guard.fits h.1.1.1.1).1, (Guard.fits h.1.1.1.1).2, ?_, some_fits h.2 (by decide)⟩)
  simp only [Nat.blt_eq] at h
  omega
theorem rel (gd : Guard) (t b d : Nat) (x : Option Nat) : Statement (.rel gd t b d x) := by
  intro h
  replace h : (gd.wf && Nat.blt t 64 && Nat.blt b 64 && Nat.blt d 256 && x.all (Nat.blt · 2147483648)) = true := h
  simp only [Bool.and_eq_true] at h
  refine (show 0x15 < 2 ^ 6 ∧ gd.gp < 2 ^ 3 ∧ gd.gn < 2 ∧ t * 16384 + b * 256 + d < 2 ^ 20 ∧ ∀ y, x = some y → y < 2 ^ 31 from
    ⟨by decide, (Guard.fits h.1.1.1.1).1, (Guard.fits h.1.1.1.1).2, ?_, some_fits h.2 (by decide)⟩)
  simp only [Nat.blt_eq] at h
  omega
theorem trd (gd : Guard) (t b d : Nat) (x : Option Nat) : Statement (.trd gd t b d x) := by
  intro h
  replace h : (gd.wf && Nat.blt t 32 && Nat.blt b 64 && Nat.blt d 256 && x.all (Nat.blt · 2147483648)) = true := h
  simp only [Bool.and_eq_true] at h
  refine (show 0x16 < 2 ^ 6 ∧ gd.gp < 2 ^ 3 ∧ gd.gn < 2 ∧ t * 16384 + b * 256 + d < 2 ^ 20 ∧ ∀ y, x = some y → y < 2 ^ 31 from
    ⟨by decide, (Guard.fits h.1.1.1.1).1, (Guard.fits h.1.1.1.1).2, ?_, some_fits h.2 (by decide)⟩)
  simp only [Nat.blt_eq] at h
  omega
theorem twr (gd : Guard) (t b d : Nat) (x : Option Nat) : Statement (.twr gd t b d x) := by
  intro h
  replace h : (gd.wf && Nat.blt t 32 && Nat.blt b 64 && Nat.blt d 256 && x.all (Nat.blt · 2147483648)) = true := h
  simp only [Bool.and_eq_true] at h
  refine (show 0x17 < 2 ^ 6 ∧ gd.gp < 2 ^ 3 ∧ gd.gn < 2 ∧ t * 16384 + b * 256 + d < 2 ^ 20 ∧ ∀ y, x = some y → y < 2 ^ 31 from
    ⟨by decide, (Guard.fits h.1.1.1.1).1, (Guard.fits h.1.1.1.1).2, ?_, some_fits h.2 (by decide)⟩)
  simp only [Nat.blt_eq] at h
  omega
theorem amo (gd : Guard) (t b d : Nat) (opc sz s : Nat) : Statement (.amo gd t b d opc sz s) := by
  intro h
  replace h : (gd.wf && Nat.blt t 64 && Nat.blt b 64 && Nat.blt d 256 && Nat.blt opc 16 && Nat.blt sz 4 && Nat.blt s 64 && ((Nat.blt opc 12 && Nat.blt sz 2))) = true := h
  simp only [Bool.and_eq_true] at h
  refine (show 0x18 < 2 ^ 6 ∧ gd.gp < 2 ^ 3 ∧ gd.gn < 2 ∧ t * 16384 + b * 256 + d < 2 ^ 20 ∧ ∀ y, (some (opc * 134217728 + sz * 33554432 + s * 524288)) = some y → y < 2 ^ 31 from
    ⟨by decide, (Guard.fits h.1.1.1.1.1.1.1).1, (Guard.fits h.1.1.1.1.1.1.1).2, ?_, ?_⟩)
  · simp only [Nat.blt_eq] at h
    omega
  · intro y hy
    simp only [Nat.blt_eq, Option.some.injEq] at h hy
    omega
theorem cas (gd : Guard) (t b d : Nat) (sz s c : Nat) : Statement (.cas gd t b d sz s c) := by
  intro h
  replace h : (gd.wf && Nat.blt t 64 && Nat.blt b 64 && Nat.blt d 256 && Nat.blt sz 4 && Nat.blt s 64 && Nat.blt c 64 && ((Nat.blt sz 3 && (sz != 2 || (t % 2 == 0 && s % 2 == 0 && c % 2 == 0))))) = true := h
  simp only [Bool.and_eq_true] at h
  refine (show 0x19 < 2 ^ 6 ∧ gd.gp < 2 ^ 3 ∧ gd.gn < 2 ∧ t * 16384 + b * 256 + d < 2 ^ 20 ∧ ∀ y, (some (sz * 33554432 + s * 524288 + c * 8192)) = some y → y < 2 ^ 31 from
    ⟨by decide, (Guard.fits h.1.1.1.1.1.1.1).1, (Guard.fits h.1.1.1.1.1.1.1).2, ?_, ?_⟩)
  · simp only [Nat.blt_eq] at h
    omega
  · intro y hy
    simp only [Nat.blt_eq, Option.some.injEq] at h hy
    omega
theorem idleL (gd : Guard) : Statement (.idleL gd) := by
  intro h
  replace h : (gd.wf) = true := h
  refine (show 0x3F < 2 ^ 6 ∧ gd.gp < 2 ^ 3 ∧ gd.gn < 2 ∧ 0 < 2 ^ 20 ∧ ∀ y, none = some y → y < 2 ^ 31 from
    ⟨by decide, (Guard.fits h).1, (Guard.fits h).2, by decide, fun _ h => nomatch h⟩)
theorem stalledBundleCommit (core : Nat) : Statement (.stalledBundleCommit core) := by
  exact fun _ => ⟨(by decide : 0 < 2 ^ 6), (by decide : 0 < 2 ^ 3), (by decide : 0 < 2), (by decide : 0 < 2 ^ 20), fun _ h => nomatch h⟩
theorem safeDistanceWatchdog (core : Nat) : Statement (.safeDistanceWatchdog core) := by
  exact fun _ => ⟨(by decide : 0 < 2 ^ 6), (by decide : 0 < 2 ^ 3), (by decide : 0 < 2), (by decide : 0 < 2 ^ 20), fun _ h => nomatch h⟩
theorem handlerWatchdog (core : Nat) : Statement (.handlerWatchdog core) := by
  exact fun _ => ⟨(by decide : 0 < 2 ^ 6), (by decide : 0 < 2 ^ 3), (by decide : 0 < 2), (by decide : 0 < 2 ^ 20), fun _ h => nomatch h⟩
theorem taskEnd (core : Nat) : Statement (.taskEnd core) := by
  exact fun _ => ⟨(by decide : 0 < 2 ^ 6), (by decide : 0 < 2 ^ 3), (by decide : 0 < 2), (by decide : 0 < 2 ^ 20), fun _ h => nomatch h⟩
theorem decrement (n : Nat) : Statement (.decrement n) := by
  exact fun _ => ⟨(by decide : 0 < 2 ^ 6), (by decide : 0 < 2 ^ 3), (by decide : 0 < 2), (by decide : 0 < 2 ^ 20), fun _ h => nomatch h⟩
theorem releaseArrival (n : Nat) : Statement (.releaseArrival n) := by
  exact fun _ => ⟨(by decide : 0 < 2 ^ 6), (by decide : 0 < 2 ^ 3), (by decide : 0 < 2), (by decide : 0 < 2 ^ 20), fun _ h => nomatch h⟩
theorem recordCreation (n : Nat) : Statement (.recordCreation n) := by
  exact fun _ => ⟨(by decide : 0 < 2 ^ 6), (by decide : 0 < 2 ^ 3), (by decide : 0 < 2), (by decide : 0 < 2 ^ 20), fun _ h => nomatch h⟩
theorem overflowRingPlacement (n : Nat) : Statement (.overflowRingPlacement n) := by
  exact fun _ => ⟨(by decide : 0 < 2 ^ 6), (by decide : 0 < 2 ^ 3), (by decide : 0 < 2), (by decide : 0 < 2 ^ 20), fun _ h => nomatch h⟩
theorem rdqRefill (cluster part prio : Nat) : Statement (.rdqRefill cluster part prio) := by
  exact fun _ => ⟨(by decide : 0 < 2 ^ 6), (by decide : 0 < 2 ^ 3), (by decide : 0 < 2), (by decide : 0 < 2 ^ 20), fun _ h => nomatch h⟩
theorem rdqLoadReport (cluster : Nat) : Statement (.rdqLoadReport cluster) := by
  exact fun _ => ⟨(by decide : 0 < 2 ^ 6), (by decide : 0 < 2 ^ 3), (by decide : 0 < 2), (by decide : 0 < 2 ^ 20), fun _ h => nomatch h⟩
theorem dispatch (cluster : Nat) : Statement (.dispatch cluster) := by
  exact fun _ => ⟨(by decide : 0 < 2 ^ 6), (by decide : 0 < 2 ^ 3), (by decide : 0 < 2), (by decide : 0 < 2 ^ 20), fun _ h => nomatch h⟩
theorem gangDispatch (part : Nat) : Statement (.gangDispatch part) := by
  exact fun _ => ⟨(by decide : 0 < 2 ^ 6), (by decide : 0 < 2 ^ 3), (by decide : 0 < 2), (by decide : 0 < 2 ^ 20), fun _ h => nomatch h⟩
theorem engineCommandTake (core ex : Nat) : Statement (.engineCommandTake core ex) := by
  exact fun _ => ⟨(by decide : 0 < 2 ^ 6), (by decide : 0 < 2 ^ 3), (by decide : 0 < 2), (by decide : 0 < 2 ^ 20), fun _ h => nomatch h⟩
theorem frameAllocation (cluster : Nat) : Statement (.frameAllocation cluster) := by
  exact fun _ => ⟨(by decide : 0 < 2 ^ 6), (by decide : 0 < 2 ^ 3), (by decide : 0 < 2), (by decide : 0 < 2 ^ 20), fun _ h => nomatch h⟩
theorem commandReplay (core n : Nat) : Statement (.commandReplay core n) := by
  exact fun _ => ⟨(by decide : 0 < 2 ^ 6), (by decide : 0 < 2 ^ 3), (by decide : 0 < 2), (by decide : 0 < 2 ^ 20), fun _ h => nomatch h⟩
theorem engineCommandCompletion (core n : Nat) : Statement (.engineCommandCompletion core n) := by
  exact fun _ => ⟨(by decide : 0 < 2 ^ 6), (by decide : 0 < 2 ^ 3), (by decide : 0 < 2), (by decide : 0 < 2 ^ 20), fun _ h => nomatch h⟩
theorem fillRequest (n : Nat) : Statement (.fillRequest n) := by
  exact fun _ => ⟨(by decide : 0 < 2 ^ 6), (by decide : 0 < 2 ^ 3), (by decide : 0 < 2), (by decide : 0 < 2 ^ 20), fun _ h => nomatch h⟩
theorem neighbourServe (n : Nat) : Statement (.neighbourServe n) := by
  exact fun _ => ⟨(by decide : 0 < 2 ^ 6), (by decide : 0 < 2 ^ 3), (by decide : 0 < 2), (by decide : 0 < 2 ^ 20), fun _ h => nomatch h⟩
theorem fillAnswer (n : Nat) : Statement (.fillAnswer n) := by
  exact fun _ => ⟨(by decide : 0 < 2 ^ 6), (by decide : 0 < 2 ^ 3), (by decide : 0 < 2), (by decide : 0 < 2 ^ 20), fun _ h => nomatch h⟩
theorem grantRequest (n : Nat) : Statement (.grantRequest n) := by
  exact fun _ => ⟨(by decide : 0 < 2 ^ 6), (by decide : 0 < 2 ^ 3), (by decide : 0 < 2), (by decide : 0 < 2 ^ 20), fun _ h => nomatch h⟩
theorem writeGrant (n : Nat) : Statement (.writeGrant n) := by
  exact fun _ => ⟨(by decide : 0 < 2 ^ 6), (by decide : 0 < 2 ^ 3), (by decide : 0 < 2), (by decide : 0 < 2 ^ 20), fun _ h => nomatch h⟩
theorem retry (n : Nat) : Statement (.retry n) := by
  exact fun _ => ⟨(by decide : 0 < 2 ^ 6), (by decide : 0 < 2 ^ 3), (by decide : 0 < 2), (by decide : 0 < 2 ^ 20), fun _ h => nomatch h⟩
theorem grantTimeout (n : Nat) : Statement (.grantTimeout n) := by
  exact fun _ => ⟨(by decide : 0 < 2 ^ 6), (by decide : 0 < 2 ^ 3), (by decide : 0 < 2), (by decide : 0 < 2 ^ 20), fun _ h => nomatch h⟩
theorem releaseAtHome (n : Nat) : Statement (.releaseAtHome n) := by
  exact fun _ => ⟨(by decide : 0 < 2 ^ 6), (by decide : 0 < 2 ^ 3), (by decide : 0 < 2), (by decide : 0 < 2 ^ 20), fun _ h => nomatch h⟩
theorem readOutComplete (cluster frame : Nat) : Statement (.readOutComplete cluster frame) := by
  exact fun _ => ⟨(by decide : 0 < 2 ^ 6), (by decide : 0 < 2 ^ 3), (by decide : 0 < 2), (by decide : 0 < 2 ^ 20), fun _ h => nomatch h⟩
theorem drainArrival (n : Nat) : Statement (.drainArrival n) := by
  exact fun _ => ⟨(by decide : 0 < 2 ^ 6), (by decide : 0 < 2 ^ 3), (by decide : 0 < 2), (by decide : 0 < 2 ^ 20), fun _ h => nomatch h⟩
theorem victimWriteBack (n : Nat) : Statement (.victimWriteBack n) := by
  exact fun _ => ⟨(by decide : 0 < 2 ^ 6), (by decide : 0 < 2 ^ 3), (by decide : 0 < 2), (by decide : 0 < 2 ^ 20), fun _ h => nomatch h⟩
theorem tacqAtHome (n : Nat) : Statement (.tacqAtHome n) := by
  exact fun _ => ⟨(by decide : 0 < 2 ^ 6), (by decide : 0 < 2 ^ 3), (by decide : 0 < 2), (by decide : 0 < 2 ^ 20), fun _ h => nomatch h⟩
theorem tacqTimeout (n : Nat) : Statement (.tacqTimeout n) := by
  exact fun _ => ⟨(by decide : 0 < 2 ^ 6), (by decide : 0 < 2 ^ 3), (by decide : 0 < 2), (by decide : 0 < 2 ^ 20), fun _ h => nomatch h⟩
theorem remoteHomeTimeout (n : Nat) : Statement (.remoteHomeTimeout n) := by
  exact fun _ => ⟨(by decide : 0 < 2 ^ 6), (by decide : 0 < 2 ^ 3), (by decide : 0 < 2), (by decide : 0 < 2 ^ 20), fun _ h => nomatch h⟩
theorem leaseExpiry (cluster frame : Nat) : Statement (.leaseExpiry cluster frame) := by
  exact fun _ => ⟨(by decide : 0 < 2 ^ 6), (by decide : 0 < 2 ^ 3), (by decide : 0 < 2), (by decide : 0 < 2 ^ 20), fun _ h => nomatch h⟩
theorem homeLeaseExpiry (home n : Nat) : Statement (.homeLeaseExpiry home n) := by
  exact fun _ => ⟨(by decide : 0 < 2 ^ 6), (by decide : 0 < 2 ^ 3), (by decide : 0 < 2), (by decide : 0 < 2 ^ 20), fun _ h => nomatch h⟩
theorem leaseReturn (home n : Nat) : Statement (.leaseReturn home n) := by
  exact fun _ => ⟨(by decide : 0 < 2 ^ 6), (by decide : 0 < 2 ^ 3), (by decide : 0 < 2), (by decide : 0 < 2 ^ 20), fun _ h => nomatch h⟩
theorem reductionAtHome (n : Nat) : Statement (.reductionAtHome n) := by
  exact fun _ => ⟨(by decide : 0 < 2 ^ 6), (by decide : 0 < 2 ^ 3), (by decide : 0 < 2), (by decide : 0 < 2 ^ 20), fun _ h => nomatch h⟩
theorem machineCheck (unit x y : Nat) : Statement (.machineCheck unit x y) := by
  exact fun _ => ⟨(by decide : 0 < 2 ^ 6), (by decide : 0 < 2 ^ 3), (by decide : 0 < 2), (by decide : 0 < 2 ^ 20), fun _ h => nomatch h⟩
theorem loadDataArrival (core n : Nat) : Statement (.loadDataArrival core n) := by
  exact fun _ => ⟨(by decide : 0 < 2 ^ 6), (by decide : 0 < 2 ^ 3), (by decide : 0 < 2), (by decide : 0 < 2 ^ 20), fun _ h => nomatch h⟩
theorem storePerformed (core n : Nat) : Statement (.storePerformed core n) := by
  exact fun _ => ⟨(by decide : 0 < 2 ^ 6), (by decide : 0 < 2 ^ 3), (by decide : 0 < 2), (by decide : 0 < 2 ^ 20), fun _ h => nomatch h⟩
theorem relAtHome (n : Nat) : Statement (.relAtHome n) := by
  exact fun _ => ⟨(by decide : 0 < 2 ^ 6), (by decide : 0 < 2 ^ 3), (by decide : 0 < 2), (by decide : 0 < 2 ^ 20), fun _ h => nomatch h⟩
theorem acqAtHome (n : Nat) : Statement (.acqAtHome n) := by
  exact fun _ => ⟨(by decide : 0 < 2 ^ 6), (by decide : 0 < 2 ^ 3), (by decide : 0 < 2), (by decide : 0 < 2 ^ 20), fun _ h => nomatch h⟩
theorem regionDrain (n : Nat) : Statement (.regionDrain n) := by
  exact fun _ => ⟨(by decide : 0 < 2 ^ 6), (by decide : 0 < 2 ^ 3), (by decide : 0 < 2), (by decide : 0 < 2 ^ 20), fun _ h => nomatch h⟩
theorem regionDrainComplete (n : Nat) : Statement (.regionDrainComplete n) := by
  exact fun _ => ⟨(by decide : 0 < 2 ^ 6), (by decide : 0 < 2 ^ 3), (by decide : 0 < 2), (by decide : 0 < 2 ^ 20), fun _ h => nomatch h⟩
theorem acqReply (n : Nat) : Statement (.acqReply n) := by
  exact fun _ => ⟨(by decide : 0 < 2 ^ 6), (by decide : 0 < 2 ^ 3), (by decide : 0 < 2), (by decide : 0 < 2 ^ 20), fun _ h => nomatch h⟩
theorem amoAtSlice (core n : Nat) : Statement (.amoAtSlice core n) := by
  exact fun _ => ⟨(by decide : 0 < 2 ^ 6), (by decide : 0 < 2 ^ 3), (by decide : 0 < 2), (by decide : 0 < 2 ^ 20), fun _ h => nomatch h⟩
theorem hostAtomicCompletion (core : Nat) : Statement (.hostAtomicCompletion core) := by
  exact fun _ => ⟨(by decide : 0 < 2 ^ 6), (by decide : 0 < 2 ^ 3), (by decide : 0 < 2), (by decide : 0 < 2 ^ 20), fun _ h => nomatch h⟩
theorem hostAtomicExhausted (core : Nat) : Statement (.hostAtomicExhausted core) := by
  exact fun _ => ⟨(by decide : 0 < 2 ^ 6), (by decide : 0 < 2 ^ 3), (by decide : 0 < 2), (by decide : 0 < 2 ^ 20), fun _ h => nomatch h⟩
theorem fabricRequestAtTarget (n : Nat) : Statement (.fabricRequestAtTarget n) := by
  exact fun _ => ⟨(by decide : 0 < 2 ^ 6), (by decide : 0 < 2 ^ 3), (by decide : 0 < 2), (by decide : 0 < 2 ^ 20), fun _ h => nomatch h⟩
theorem fabricReply (core n ok v : Nat) : Statement (.fabricReply core n ok v) := by
  exact fun _ => ⟨(by decide : 0 < 2 ^ 6), (by decide : 0 < 2 ^ 3), (by decide : 0 < 2), (by decide : 0 < 2 ^ 20), fun _ h => nomatch h⟩
theorem fabricTimeout (core n : Nat) : Statement (.fabricTimeout core n) := by
  exact fun _ => ⟨(by decide : 0 < 2 ^ 6), (by decide : 0 < 2 ^ 3), (by decide : 0 < 2), (by decide : 0 < 2 ^ 20), fun _ h => nomatch h⟩
theorem shunerFrameReceive (crc src kind a v : Nat) : Statement (.shunerFrameReceive crc src kind a v) := by
  exact fun _ => ⟨(by decide : 0 < 2 ^ 6), (by decide : 0 < 2 ^ 3), (by decide : 0 < 2), (by decide : 0 < 2 ^ 20), fun _ h => nomatch h⟩
theorem preemptionOrder (core : Nat) : Statement (.preemptionOrder core) := by
  exact fun _ => ⟨(by decide : 0 < 2 ^ 6), (by decide : 0 < 2 ^ 3), (by decide : 0 < 2), (by decide : 0 < 2 ^ 20), fun _ h => nomatch h⟩
theorem forcedSave (core : Nat) : Statement (.forcedSave core) := by
  exact fun _ => ⟨(by decide : 0 < 2 ^ 6), (by decide : 0 < 2 ^ 3), (by decide : 0 < 2), (by decide : 0 < 2 ^ 20), fun _ h => nomatch h⟩
theorem prqresp (fn v : Nat) : Statement (.prqresp fn v) := by
  exact fun _ => ⟨(by decide : 0 < 2 ^ 6), (by decide : 0 < 2 ^ 3), (by decide : 0 < 2), (by decide : 0 < 2 ^ 20), fun _ h => nomatch h⟩
theorem priPageGroupResponse (n ok : Nat) : Statement (.priPageGroupResponse n ok) := by
  exact fun _ => ⟨(by decide : 0 < 2 ^ 6), (by decide : 0 < 2 ^ 3), (by decide : 0 < 2), (by decide : 0 < 2 ^ 20), fun _ h => nomatch h⟩
theorem atsInvalidation (part page : Nat) : Statement (.atsInvalidation part page) := by
  exact fun _ => ⟨(by decide : 0 < 2 ^ 6), (by decide : 0 < 2 ^ 3), (by decide : 0 < 2), (by decide : 0 < 2 ^ 20), fun _ h => nomatch h⟩
theorem vacate (poster kind id qmask deadline drop : Nat) : Statement (.vacate poster kind id qmask deadline drop) := by
  exact fun _ => ⟨(by decide : 0 < 2 ^ 6), (by decide : 0 < 2 ^ 3), (by decide : 0 < 2), (by decide : 0 < 2 ^ 20), fun _ h => nomatch h⟩
theorem sageEvaluation (n : Nat) : Statement (.sageEvaluation n) := by
  exact fun _ => ⟨(by decide : 0 < 2 ^ 6), (by decide : 0 < 2 ^ 3), (by decide : 0 < 2), (by decide : 0 < 2 ^ 20), fun _ h => nomatch h⟩
theorem vacancy (n : Nat) : Statement (.vacancy n) := by
  exact fun _ => ⟨(by decide : 0 < 2 ^ 6), (by decide : 0 < 2 ^ 3), (by decide : 0 < 2), (by decide : 0 < 2 ^ 20), fun _ h => nomatch h⟩
theorem resume (poster kind id qmask : Nat) : Statement (.resume poster kind id qmask) := by
  exact fun _ => ⟨(by decide : 0 < 2 ^ 6), (by decide : 0 < 2 ^ 3), (by decide : 0 < 2), (by decide : 0 < 2 ^ 20), fun _ h => nomatch h⟩
theorem qstart (fn q : Nat) : Statement (.qstart fn q) := by
  exact fun _ => ⟨(by decide : 0 < 2 ^ 6), (by decide : 0 < 2 ^ 3), (by decide : 0 < 2), (by decide : 0 < 2 ^ 20), fun _ h => nomatch h⟩
theorem qstopDrain (fn q : Nat) : Statement (.qstopDrain fn q) := by
  exact fun _ => ⟨(by decide : 0 < 2 ^ 6), (by decide : 0 < 2 ^ 3), (by decide : 0 < 2), (by decide : 0 < 2 ^ 20), fun _ h => nomatch h⟩
theorem qstopSave (fn q : Nat) : Statement (.qstopSave fn q) := by
  exact fun _ => ⟨(by decide : 0 < 2 ^ 6), (by decide : 0 < 2 ^ 3), (by decide : 0 < 2), (by decide : 0 < 2 ^ 20), fun _ h => nomatch h⟩
theorem qswap (fn q q2 mode : Nat) : Statement (.qswap fn q q2 mode) := by
  exact fun _ => ⟨(by decide : 0 < 2 ^ 6), (by decide : 0 < 2 ^ 3), (by decide : 0 < 2), (by decide : 0 < 2 ^ 20), fun _ h => nomatch h⟩
theorem load (fn q : Nat) : Statement (.load fn q) := by
  exact fun _ => ⟨(by decide : 0 < 2 ^ 6), (by decide : 0 < 2 ^ 3), (by decide : 0 < 2), (by decide : 0 < 2 ^ 20), fun _ h => nomatch h⟩
theorem unload (fn q : Nat) : Statement (.unload fn q) := by
  exact fun _ => ⟨(by decide : 0 < 2 ^ 6), (by decide : 0 < 2 ^ 3), (by decide : 0 < 2), (by decide : 0 < 2 ^ 20), fun _ h => nomatch h⟩
theorem descriptorCommand (fn q : Nat) : Statement (.descriptorCommand fn q) := by
  exact fun _ => ⟨(by decide : 0 < 2 ^ 6), (by decide : 0 < 2 ^ 3), (by decide : 0 < 2), (by decide : 0 < 2 ^ 20), fun _ h => nomatch h⟩
theorem launch (fn q : Nat) : Statement (.launch fn q) := by
  exact fun _ => ⟨(by decide : 0 < 2 ^ 6), (by decide : 0 < 2 ^ 3), (by decide : 0 < 2), (by decide : 0 < 2 ^ 20), fun _ h => nomatch h⟩
theorem copy (fn q : Nat) : Statement (.copy fn q) := by
  exact fun _ => ⟨(by decide : 0 < 2 ^ 6), (by decide : 0 < 2 ^ 3), (by decide : 0 < 2), (by decide : 0 < 2 ^ 20), fun _ h => nomatch h⟩
theorem doorbell (fn q v : Nat) : Statement (.doorbell fn q v) := by
  exact fun _ => ⟨(by decide : 0 < 2 ^ 6), (by decide : 0 < 2 ^ 3), (by decide : 0 < 2), (by decide : 0 < 2 ^ 20), fun _ h => nomatch h⟩
theorem ownclaim (writer v : Nat) : Statement (.ownclaim writer v) := by
  exact fun _ => ⟨(by decide : 0 < 2 ^ 6), (by decide : 0 < 2 ^ 3), (by decide : 0 < 2), (by decide : 0 < 2 ^ 20), fun _ h => nomatch h⟩
theorem handover (writer v : Nat) : Statement (.handover writer v) := by
  exact fun _ => ⟨(by decide : 0 < 2 ^ 6), (by decide : 0 < 2 ^ 3), (by decide : 0 < 2), (by decide : 0 < 2 ^ 20), fun _ h => nomatch h⟩
theorem opreq (writer v : Nat) : Statement (.opreq writer v) := by
  exact fun _ => ⟨(by decide : 0 < 2 ^ 6), (by decide : 0 < 2 ^ 3), (by decide : 0 < 2), (by decide : 0 < 2 ^ 20), fun _ h => nomatch h⟩
theorem operatingPointSwitch : Statement (.operatingPointSwitch) := by
  exact fun _ => ⟨(by decide : 0 < 2 ^ 6), (by decide : 0 < 2 ^ 3), (by decide : 0 < 2), (by decide : 0 < 2 ^ 20), fun _ h => nomatch h⟩
theorem clstate (writer v : Nat) : Statement (.clstate writer v) := by
  exact fun _ => ⟨(by decide : 0 < 2 ^ 6), (by decide : 0 < 2 ^ 3), (by decide : 0 < 2), (by decide : 0 < 2 ^ 20), fun _ h => nomatch h⟩
theorem clusterWake (cluster : Nat) : Statement (.clusterWake cluster) := by
  exact fun _ => ⟨(by decide : 0 < 2 ^ 6), (by decide : 0 < 2 ^ 3), (by decide : 0 < 2), (by decide : 0 < 2 ^ 20), fun _ h => nomatch h⟩
theorem partitionEnable (writer part : Nat) : Statement (.partitionEnable writer part) := by
  exact fun _ => ⟨(by decide : 0 < 2 ^ 6), (by decide : 0 < 2 ^ 3), (by decide : 0 < 2), (by decide : 0 < 2 ^ 20), fun _ h => nomatch h⟩
theorem partitionDisable (writer part : Nat) : Statement (.partitionDisable writer part) := by
  exact fun _ => ⟨(by decide : 0 < 2 ^ 6), (by decide : 0 < 2 ^ 3), (by decide : 0 < 2), (by decide : 0 < 2 ^ 20), fun _ h => nomatch h⟩
theorem partitionReset (writer part : Nat) : Statement (.partitionReset writer part) := by
  exact fun _ => ⟨(by decide : 0 < 2 ^ 6), (by decide : 0 < 2 ^ 3), (by decide : 0 < 2), (by decide : 0 < 2 ^ 20), fun _ h => nomatch h⟩
theorem genbump (fn v : Nat) : Statement (.genbump fn v) := by
  exact fun _ => ⟨(by decide : 0 < 2 ^ 6), (by decide : 0 < 2 ^ 3), (by decide : 0 < 2), (by decide : 0 < 2 ^ 20), fun _ h => nomatch h⟩
theorem generationBumpComplete (n : Nat) : Statement (.generationBumpComplete n) := by
  exact fun _ => ⟨(by decide : 0 < 2 ^ 6), (by decide : 0 < 2 ^ 3), (by decide : 0 < 2), (by decide : 0 < 2 ^ 20), fun _ h => nomatch h⟩
theorem generationBumpHold (n : Nat) : Statement (.generationBumpHold n) := by
  exact fun _ => ⟨(by decide : 0 < 2 ^ 6), (by decide : 0 < 2 ^ 3), (by decide : 0 < 2), (by decide : 0 < 2 ^ 20), fun _ h => nomatch h⟩
theorem translationCacheExpiry (n : Nat) : Statement (.translationCacheExpiry n) := by
  exact fun _ => ⟨(by decide : 0 < 2 ^ 6), (by decide : 0 < 2 ^ 3), (by decide : 0 < 2), (by decide : 0 < 2 ^ 20), fun _ h => nomatch h⟩
theorem ptpMessage (neg offs slew : Nat) : Statement (.ptpMessage neg offs slew) := by
  exact fun _ => ⟨(by decide : 0 < 2 ^ 6), (by decide : 0 < 2 ^ 3), (by decide : 0 < 2), (by decide : 0 < 2 ^ 20), fun _ h => nomatch h⟩
theorem ptpSyncTimeout : Statement (.ptpSyncTimeout) := by
  exact fun _ => ⟨(by decide : 0 < 2 ^ 6), (by decide : 0 < 2 ^ 3), (by decide : 0 < 2), (by decide : 0 < 2 ^ 20), fun _ h => nomatch h⟩
theorem bucketRefill : Statement (.bucketRefill) := by
  exact fun _ => ⟨(by decide : 0 < 2 ^ 6), (by decide : 0 < 2 ^ 3), (by decide : 0 < 2), (by decide : 0 < 2 ^ 20), fun _ h => nomatch h⟩
theorem floorSegmentClose : Statement (.floorSegmentClose) := by
  exact fun _ => ⟨(by decide : 0 < 2 ^ 6), (by decide : 0 < 2 ^ 3), (by decide : 0 < 2), (by decide : 0 < 2 ^ 20), fun _ h => nomatch h⟩
theorem hardThermalTrip : Statement (.hardThermalTrip) := by
  exact fun _ => ⟨(by decide : 0 < 2 ^ 6), (by decide : 0 < 2 ^ 3), (by decide : 0 < 2), (by decide : 0 < 2 ^ 20), fun _ h => nomatch h⟩
theorem packageReset : Statement (.packageReset) := by
  exact fun _ => ⟨(by decide : 0 < 2 ^ 6), (by decide : 0 < 2 ^ 3), (by decide : 0 < 2), (by decide : 0 < 2 ^ 20), fun _ h => nomatch h⟩
theorem powerOnReset : Statement (.powerOnReset) := by
  exact fun _ => ⟨(by decide : 0 < 2 ^ 6), (by decide : 0 < 2 ^ 3), (by decide : 0 < 2), (by decide : 0 < 2 ^ 20), fun _ h => nomatch h⟩
theorem functionLevelReset (fn : Nat) : Statement (.functionLevelReset fn) := by
  exact fun _ => ⟨(by decide : 0 < 2 ^ 6), (by decide : 0 < 2 ^ 3), (by decide : 0 < 2), (by decide : 0 < 2 ^ 20), fun _ h => nomatch h⟩
theorem bootStage (ok : Nat) : Statement (.bootStage ok) := by
  exact fun _ => ⟨(by decide : 0 < 2 ^ 6), (by decide : 0 < 2 ^ 3), (by decide : 0 < 2), (by decide : 0 < 2 ^ 20), fun _ h => nomatch h⟩
theorem getVersion : Statement (.getVersion) := by
  exact fun _ => ⟨(by decide : 0 < 2 ^ 6), (by decide : 0 < 2 ^ 3), (by decide : 0 < 2), (by decide : 0 < 2 ^ 20), fun _ h => nomatch h⟩
theorem getCapabilities : Statement (.getCapabilities) := by
  exact fun _ => ⟨(by decide : 0 < 2 ^ 6), (by decide : 0 < 2 ^ 3), (by decide : 0 < 2), (by decide : 0 < 2 ^ 20), fun _ h => nomatch h⟩
theorem negotiateAlgorithms : Statement (.negotiateAlgorithms) := by
  exact fun _ => ⟨(by decide : 0 < 2 ^ 6), (by decide : 0 < 2 ^ 3), (by decide : 0 < 2), (by decide : 0 < 2 ^ 20), fun _ h => nomatch h⟩
theorem getDigests : Statement (.getDigests) := by
  exact fun _ => ⟨(by decide : 0 < 2 ^ 6), (by decide : 0 < 2 ^ 3), (by decide : 0 < 2), (by decide : 0 < 2 ^ 20), fun _ h => nomatch h⟩
theorem getCertificate : Statement (.getCertificate) := by
  exact fun _ => ⟨(by decide : 0 < 2 ^ 6), (by decide : 0 < 2 ^ 3), (by decide : 0 < 2), (by decide : 0 < 2 ^ 20), fun _ h => nomatch h⟩
theorem challenge (nonce : Nat) : Statement (.challenge nonce) := by
  exact fun _ => ⟨(by decide : 0 < 2 ^ 6), (by decide : 0 < 2 ^ 3), (by decide : 0 < 2), (by decide : 0 < 2 ^ 20), fun _ h => nomatch h⟩
theorem getMeasurements (ix : Nat) : Statement (.getMeasurements ix) := by
  exact fun _ => ⟨(by decide : 0 < 2 ^ 6), (by decide : 0 < 2 ^ 3), (by decide : 0 < 2), (by decide : 0 < 2 ^ 20), fun _ h => nomatch h⟩
theorem registerWrite (writer fn off size v : Nat) : Statement (.registerWrite writer fn off size v) := by
  exact fun _ => ⟨(by decide : 0 < 2 ^ 6), (by decide : 0 < 2 ^ 3), (by decide : 0 < 2), (by decide : 0 < 2 ^ 20), fun _ h => nomatch h⟩
theorem emptyBundle (rep sticky sv0 sv1 sl : Nat) : Statement (.emptyBundle rep sticky sv0 sv1 sl) := by
  exact fun _ => ⟨(by decide : 0 < 2 ^ 6), (by decide : 0 < 2 ^ 3), (by decide : 0 < 2), (by decide : 0 < 2 ^ 20), fun _ h => nomatch h⟩
theorem correctedError (unit x : Nat) : Statement (.correctedError unit x) := by
  exact fun _ => ⟨(by decide : 0 < 2 ^ 6), (by decide : 0 < 2 ^ 3), (by decide : 0 < 2), (by decide : 0 < 2 ^ 20), fun _ h => nomatch h⟩
theorem thermalSensorUpdate (v : Nat) : Statement (.thermalSensorUpdate v) := by
  exact fun _ => ⟨(by decide : 0 < 2 ^ 6), (by decide : 0 < 2 ^ 3), (by decide : 0 < 2), (by decide : 0 < 2 ^ 20), fun _ h => nomatch h⟩
theorem ptimeAdvance : Statement (.ptimeAdvance) := by
  exact fun _ => ⟨(by decide : 0 < 2 ^ 6), (by decide : 0 < 2 ^ 3), (by decide : 0 < 2), (by decide : 0 < 2 ^ 20), fun _ h => nomatch h⟩
theorem fabricPathFailure (core n : Nat) : Statement (.fabricPathFailure core n) := by
  exact fun _ => ⟨(by decide : 0 < 2 ^ 6), (by decide : 0 < 2 ^ 3), (by decide : 0 < 2), (by decide : 0 < 2 ^ 20), fun _ h => nomatch h⟩
theorem leaseReturnRequest (home n : Nat) : Statement (.leaseReturnRequest home n) := by
  exact fun _ => ⟨(by decide : 0 < 2 ^ 6), (by decide : 0 < 2 ^ 3), (by decide : 0 < 2), (by decide : 0 < 2 ^ 20), fun _ h => nomatch h⟩
theorem ringCommandCompletion (fn q : Nat) : Statement (.ringCommandCompletion fn q) := by
  exact fun _ => ⟨(by decide : 0 < 2 ^ 6), (by decide : 0 < 2 ^ 3), (by decide : 0 < 2), (by decide : 0 < 2 ^ 20), fun _ h => nomatch h⟩

end Laws.FieldsFit
end Sys2Proof
end

