-- ==== Sys2Proof/Laws/Round.lean ====
section
/-! SUPPORT. Rounding against real numbers: the magnitudes of a format rise with their bits, roundF takes a neighbour of the value as the mode
has it, and the arithmetic of Machine/Num.lean rounds the exact result. -/

namespace Sys2Proof.Machine

/-- The value of the magnitude bits of a format's pattern. -/
noncomputable def magF (code b : Nat) : ℝ :=
  let mb := (fmtBits code).2
  if b < 2 ^ mb then (b : ℝ) * 2 ^ fmtEmin code else ((2 ^ mb + b % 2 ^ mb : Nat) : ℝ) * 2 ^ (fmtEmin code + (b / 2 ^ mb : Nat) - 1 : ℤ)

theorem magF_place (code E R : Nat) (h : E = 0 ∨ 2 ^ (fmtBits code).2 ≤ R) (hR : R ≤ 2 ^ ((fmtBits code).2 + 1)) :
    magF code (E * 2 ^ (fmtBits code).2 + R) = (R : ℝ) * 2 ^ (fmtEmin code + E : ℤ) := by
  unfold magF
  generalize (fmtBits code).2 = mb at *
  generalize fmtEmin code = m
  have hp : 0 < 2 ^ mb := by positivity
  have two : (2 : ℝ) ≠ 0 := two_ne_zero
  simp only
  rcases lt_or_ge R (2 ^ mb) with h1 | h1
  · have : E = 0 := by omega
    subst this
    simp [h1]
  · have h2 : ¬ E * 2 ^ mb + R < 2 ^ mb := by omega
    rw [if_neg h2]
    rcases lt_or_ge R (2 * 2 ^ mb) with h3 | h3
    · have e1 : (E * 2 ^ mb + R) / 2 ^ mb = E + 1 := by
        apply Nat.div_eq_of_lt_le <;> nlinarith
      have e2 : (E * 2 ^ mb + R) % 2 ^ mb = R - 2 ^ mb := by
        have := Nat.div_add_mod (E * 2 ^ mb + R) (2 ^ mb)
        rw [e1] at this
        have h4 : 2 ^ mb * (E + 1) = E * 2 ^ mb + 2 ^ mb := by ring
        omega
      rw [e1, e2]
      have e3 : 2 ^ mb + (R - 2 ^ mb) = R := by omega
      rw [e3]
      congr 2
      push_cast; ring
    · have e0 : R = 2 * 2 ^ mb := by rw [pow_succ] at hR; omega
      have e1 : (E * 2 ^ mb + R) / 2 ^ mb = E + 2 := by
        apply Nat.div_eq_of_lt_le <;> nlinarith
      have e2 : (E * 2 ^ mb + R) % 2 ^ mb = 0 := by
        have := Nat.div_add_mod (E * 2 ^ mb + R) (2 ^ mb)
        rw [e1] at this
        have h4 : 2 ^ mb * (E + 2) = E * 2 ^ mb + 2 * 2 ^ mb := by ring
        omega
      rw [e1, e2, e0]
      have : (m + (E + 2 : Nat) - 1 : ℤ) = (m + E) + 1 := by push_cast; ring
      rw [this, zpow_add_one₀ two]
      push_cast; ring

theorem magF_lt_succ (code b : Nat) : magF code b < magF code (b + 1) := by
  set mb := (fmtBits code).2 with hmb
  have hp : 0 < 2 ^ mb := by positivity
  have hz : ∀ z : ℤ, (0 : ℝ) < 2 ^ z := fun z => by positivity
  rcases lt_or_ge b (2 ^ mb) with h | h
  · have a := magF_place code 0 b (.inl rfl) (by rw [← hmb, pow_succ]; omega)
    have c := magF_place code 0 (b + 1) (.inl rfl) (by rw [← hmb, pow_succ]; omega)
    simp only [Nat.zero_mul, Nat.zero_add] at a c
    rw [a, c]
    exact mul_lt_mul_of_pos_right (by push_cast; linarith) (hz _)
  · have hd : 1 ≤ b / 2 ^ mb := (Nat.one_le_div_iff hp).2 h
    have hlt := Nat.mod_lt b hp
    have hb : b = (b / 2 ^ mb - 1) * 2 ^ mb + (2 ^ mb + b % 2 ^ mb) := by
      have := Nat.div_add_mod b (2 ^ mb)
      have : (b / 2 ^ mb - 1) * 2 ^ mb + 2 ^ mb = b / 2 ^ mb * 2 ^ mb := by
        rw [← Nat.succ_mul]; congr 1; omega
      nlinarith
    have a := magF_place code (b / 2 ^ mb - 1) (2 ^ mb + b % 2 ^ mb) (.inr (by rw [← hmb]; omega)) (by rw [← hmb, pow_succ]; omega)
    have c := magF_place code (b / 2 ^ mb - 1) (2 ^ mb + b % 2 ^ mb + 1) (.inr (by rw [← hmb]; omega)) (by rw [← hmb, pow_succ]; omega)
    rw [← hmb] at a c
    rw [← hb] at a
    rw [← Nat.add_assoc, ← hb] at c
    rw [a, c]
    have := hz (fmtEmin code + (b / 2 ^ mb - 1 : Nat))
    push_cast at *
    nlinarith

theorem magF_strictMono (code : Nat) : StrictMono (magF code) := strictMono_nat_of_lt_succ (magF_lt_succ code)

/-- What roundMag can answer for a real T at or just above the magnitude: the integer below T, or the next one, as the mode and the rest have it. -/
theorem roundMag_spec (mode : Nat) (neg : Bool) (man : Nat) (k : Int) (sticky : Bool) (T : ℝ)
    (hlo : (man : ℝ) * 2 ^ k ≤ T) (hhi : T < (man + 1 : ℝ) * 2 ^ k) (hs : sticky = true ↔ T ≠ man * 2 ^ k) (hk : sticky = true → k < 0) :
    ∃ q : Nat, (q : ℝ) ≤ T ∧ T < q + 1 ∧
      ((roundMag mode neg man k sticky).2 = true ↔ T ≠ q) ∧
      (((roundMag mode neg man k sticky).1 = q ∧ (T = q ∨ mode = 1 ∨ (mode = 2 ∧ neg = true) ∨ (mode = 3 ∧ neg = false) ∨
          ((mode = 0 ∨ 4 ≤ mode) ∧ T - q ≤ 1 / 2 ∧ (T - q = 1 / 2 → q % 2 = 0)))) ∨
       ((roundMag mode neg man k sticky).1 = q + 1 ∧ T ≠ q ∧ ((mode = 2 ∧ neg = false) ∨ (mode = 3 ∧ neg = true) ∨
          ((mode = 0 ∨ 4 ≤ mode) ∧ 1 / 2 ≤ T - q ∧ (T - q = 1 / 2 → q % 2 = 1))))) := by
  cases k with
  | ofNat n =>
    have : sticky = false := by
      by_contra h
      have := hk (by simpa using h)
      exact absurd this (by simp)
    subst this
    have hT : T = man * 2 ^ (Int.ofNat n) := by
      by_contra h; exact absurd (hs.2 h) (by simp)
    refine ⟨man * 2 ^ n, ?_⟩
    have e : (((man * 2 ^ n : Nat)) : ℝ) = T := by rw [hT]; push_cast; simp
    rw [e]
    refine ⟨le_refl _, by linarith, ?_, .inl ⟨rfl, .inl rfl⟩⟩
    simp [roundMag]
  | negSucc n =>
    set P : Nat := 2 ^ (n + 1) with hP
    have hPp : 0 < P := by positivity
    have hz : (2 : ℝ) ^ (Int.negSucc n) = 1 / (P : ℝ) := by
      rw [zpow_negSucc, hP]; push_cast; simp
    have hPr : (0 : ℝ) < P := by exact_mod_cast hPp
    rw [hz] at hlo hhi hs
    have hdm := Nat.div_add_mod man P
    have hml := Nat.mod_lt man hPp
    set q := man / P with hq
    set r := man % P with hr
    have hmanr : (man : ℝ) = P * q + r := by exact_mod_cast hdm.symm
    have hT1 : (man : ℝ) ≤ T * P := by
      have := mul_le_mul_of_nonneg_right hlo hPr.le
      field_simp at this; linarith
    have hT2 : T * P < man + 1 := by
      have := mul_lt_mul_of_pos_right hhi hPr
      field_simp at this; linarith
    have hsT : sticky = true ↔ T * P ≠ man := by
      rw [hs]
      constructor
      · intro h h'; apply h; field_simp; linarith
      · intro h h'; apply h; rw [h']; field_simp
    have hrl : (r : ℝ) + 1 ≤ P := by exact_mod_cast hml
    have hr0 : (0 : ℝ) ≤ r := Nat.cast_nonneg r
    have hqT : (q : ℝ) ≤ T := by
      by_contra h; push Not at h
      nlinarith
    have hTq : T < q + 1 := by
      by_contra h; push Not at h
      nlinarith
    have hin : (r != 0 || sticky) = true ↔ T ≠ q := by
      rw [Bool.or_eq_true, hsT]
      constructor
      · rintro (h | h) h'
        · have : r ≠ 0 := by simpa using h
          have : (1 : ℝ) ≤ r := by exact_mod_cast Nat.one_le_iff_ne_zero.2 this
          rw [h'] at hT1; nlinarith
        · apply h; rw [h'] at hT1 ⊢; rw [hmanr] at hT1 ⊢
          nlinarith
      · intro h
        by_cases h0 : r = 0
        · right; intro h'; apply h
          rw [hmanr, h0] at h'
          have : T * P = q * P := by push_cast at h'; linarith
          exact mul_right_cancel₀ hPr.ne' this
        · left; simpa using h0
    refine ⟨q, hqT, hTq, ?_, ?_⟩
    · simp only [roundMag]; exact hin
    · have hh : (P : ℝ) = 2 * (2 ^ n : Nat) := by rw [hP, pow_succ]; push_cast; ring
      have up : (roundMag mode neg man (Int.negSucc n) sticky).1 = if (if mode == 1 then false
          else if mode == 2 then (r != 0 || sticky) && !neg
          else if mode == 3 then (r != 0 || sticky) && neg
          else Nat.blt (2 ^ n) r || (r == 2 ^ n && (sticky || q % 2 == 1))) = true then q + 1 else q := rfl
      rw [up]
      have frac : (T - q) * P = T * P - man + r := by rw [hmanr]; ring
      by_cases m1 : mode = 1
      · left; subst m1; simp
      by_cases m2 : mode = 2
      · subst m2
        cases neg
        · by_cases ht : T = q
          · left
            have : (r != 0 || sticky) = false := by
              exact Bool.eq_false_iff.2 (fun h => (hin.1 h) ht)
            simp [this, ht]
          · right
            have := hin.2 ht
            simp [this, ht]
        · left; simp
      by_cases m3 : mode = 3
      · subst m3
        cases neg
        · left; simp
        · by_cases ht : T = q
          · left
            have : (r != 0 || sticky) = false := by
              exact Bool.eq_false_iff.2 (fun h => (hin.1 h) ht)
            simp [this, ht]
          · right
            have := hin.2 ht
            simp [this, ht]
      · have md : mode = 0 ∨ 4 ≤ mode := by omega
        have e1 : (mode == 1) = false := by simpa using m1
        have e2 : (mode == 2) = false := by simpa using m2
        have e3 : (mode == 3) = false := by simpa using m3
        simp only [e1, e2, e3, Bool.false_eq_true, if_false]
        set H : Nat := 2 ^ n with hH
        have hhalf : (1 / 2 : ℝ) * P = H := by rw [hh]; ring
        rcases lt_trichotomy r H with h | h | h
        · left
          have b : Nat.blt H r = false := by
            refine Bool.eq_false_iff.2 (fun hb => ?_); rw [Nat.blt_eq] at hb; omega
          have b2 : (r == H) = false := by simpa using h.ne
          rw [b, b2]
          simp only [Bool.false_and, Bool.or_false, Bool.false_eq_true, if_false, true_and]
          have h1 : (r : ℝ) + 1 ≤ H := by exact_mod_cast h
          have : T - q < 1 / 2 := by
            by_contra hc; push Not at hc
            have := mul_le_mul_of_nonneg_right hc hPr.le
            rw [frac, hhalf] at this
            linarith
          exact .inr (.inr (.inr (.inr ⟨md, this.le, fun h => absurd h this.ne⟩)))
        · have b : Nat.blt H r = false := by
            refine Bool.eq_false_iff.2 (fun hb => ?_); rw [Nat.blt_eq] at hb; omega
          have b2 : (r == H) = true := by simpa using h
          rw [b, b2]
          simp only [Bool.false_or, Bool.true_and]
          have hge : 1 / 2 ≤ T - q := by
            by_contra hc; push Not at hc
            have := mul_lt_mul_of_pos_right hc hPr
            rw [frac, hhalf, h] at this
            linarith
          have hne : T ≠ q := by intro h'; rw [h'] at hge; norm_num at hge
          have heq : T - q = 1 / 2 ↔ T * P = man := by
            constructor
            · intro h'; rw [h', hh, h] at frac; rw [← hh] at frac; linarith
            · intro h'; rw [h'] at frac
              have : (T - q) * P = 1 / 2 * P := by rw [frac, hh, h]; ring
              exact mul_right_cancel₀ hPr.ne' this
          cases hst : sticky
          · have ht : T * P = man := by
              by_contra hc; have := hsT.2 hc; rw [hst] at this; cases this
            have ht2 := heq.2 ht
            by_cases hq2 : q % 2 = 1
            · right; simp only [hq2, Bool.false_or, beq_self_eq_true, if_true, true_and]
              exact ⟨hne, .inr (.inr ⟨md, hge, by simp⟩)⟩
            · left
              have b3 : (q % 2 == 1) = false := by simpa using hq2
              simp only [b3, Bool.false_or, Bool.false_eq_true, if_false, true_and]
              exact .inr (.inr (.inr (.inr ⟨md, ht2.le, fun _ => by omega⟩)))
          · right
            simp only [Bool.true_or, if_true, true_and]
            exact ⟨hne, .inr (.inr ⟨md, hge, fun h' => absurd (heq.1 h') (hsT.1 hst)⟩)⟩
        · right
          have b : Nat.blt H r = true := (Nat.blt_eq).mpr h
          rw [b]
          simp only [Bool.true_or, if_true, true_and]
          have h1 : (H : ℝ) + 1 ≤ r := by exact_mod_cast h
          have : 1 / 2 < T - q := by
            by_contra hc; push Not at hc
            have := mul_le_mul_of_nonneg_right hc hPr.le
            rw [frac, hhalf] at this
            linarith
          exact ⟨by intro h'; rw [h'] at this; norm_num at this, .inr (.inr ⟨md, this.le, fun h => absurd h this.ne'⟩)⟩

theorem zpow_split (a b : ℤ) : (2 : ℝ) ^ a * 2 ^ b = 2 ^ (a + b) := (zpow_add₀ two_ne_zero a b).symm

theorem fmtBits_pos (code : Nat) : 1 ≤ (fmtBits code).2 ∧ 2 ≤ (fmtBits code).1 := by
  unfold fmtBits; split <;> simp

/-- roundF takes the pattern B whose value is at or below X, or the next one. -/
theorem roundF_between (code mode : Nat) (neg : Bool) (man : Nat) (exp : Int) (sticky : Bool) (X : ℝ) (hm : 0 < man)
    (hlo : (man : ℝ) * 2 ^ exp ≤ X) (hhi : X < (man + 1 : ℝ) * 2 ^ exp) (hs : sticky = true ↔ X ≠ man * 2 ^ exp)
    (hk : sticky = true → (fmtBits code).2 + 1 ≤ Nat.log2 man) :
    ∃ (B b uf : Nat) (nx : Bool), magF code B ≤ X ∧ X < magF code (B + 1) ∧ (nx = true ↔ X ≠ magF code B) ∧ (uf = 0 ∨ uf = 2 ∧ nx = true) ∧
      ((b = B ∧ (X = magF code B ∨ mode = 1 ∨ (mode = 2 ∧ neg = true) ∨ (mode = 3 ∧ neg = false) ∨
          ((mode = 0 ∨ 4 ≤ mode) ∧ X - magF code B ≤ magF code (B + 1) - X ∧ (X - magF code B = magF code (B + 1) - X → B % 2 = 0)))) ∨
       (b = B + 1 ∧ X ≠ magF code B ∧ ((mode = 2 ∧ neg = false) ∨ (mode = 3 ∧ neg = true) ∨
          ((mode = 0 ∨ 4 ≤ mode) ∧ magF code (B + 1) - X ≤ X - magF code B ∧ (X - magF code B = magF code (B + 1) - X → B % 2 = 1))))) ∧
      roundF code mode neg man exp sticky =
        (let sgn := if neg then 2 ^ ((fmtBits code).1 + (fmtBits code).2) else 0
         let f := (if nx then 1 else 0) + uf
         if code = 3 then (if b ≤ 0x7E then (sgn + b, f) else (sgn + 0x7E, 5))
         else
           let infB := (2 ^ (fmtBits code).1 - 1) * 2 ^ (fmtBits code).2
           if b < infB then (sgn + b, f)
           else (sgn + (if mode = 0 ∨ (mode = 2 ∧ neg = false) ∨ (mode = 3 ∧ neg = true) then infB else infB - 1), 5)) := by
  obtain ⟨mbp, -⟩ := fmtBits_pos code
  set mb := (fmtBits code).2 with hmb
  have hl1 : 2 ^ Nat.log2 man ≤ man := Nat.log2_self_le hm.ne'
  have hl2 : man < 2 ^ (Nat.log2 man + 1) := Nat.lt_log2_self
  set L := Nat.log2 man with hL
  set lsbU : Int := exp + (L : Nat) - (mb : Nat) with hlsbU
  set lsb : Int := if lsbU < fmtEmin code then fmtEmin code else lsbU with hlsb
  have hge : fmtEmin code ≤ lsb := by rw [hlsb]; split_ifs <;> omega
  have hgeU : lsbU ≤ lsb := by rw [hlsb]; split_ifs <;> omega
  have hz : ∀ z : ℤ, (0 : ℝ) < 2 ^ z := fun z => by positivity
  set E : Nat := (lsb - fmtEmin code).toNat with hE
  have hEz : fmtEmin code + (E : Int) = lsb := by omega
  set T : ℝ := X * 2 ^ (-lsb) with hT
  have hXT : X = T * 2 ^ lsb := by rw [hT, mul_assoc, zpow_split]; simp
  have hk2 : (2 : ℝ) ^ (exp - lsb) = 2 ^ exp * 2 ^ (-lsb) := by rw [zpow_split]; rfl
  have t1 : (man : ℝ) * 2 ^ (exp - lsb) ≤ T := by
    rw [hk2, ← mul_assoc]; exact mul_le_mul_of_nonneg_right hlo (hz _).le
  have t2 : T < (man + 1 : ℝ) * 2 ^ (exp - lsb) := by
    rw [hk2, ← mul_assoc]; exact mul_lt_mul_of_pos_right hhi (hz _)
  have t3 : sticky = true ↔ T ≠ man * 2 ^ (exp - lsb) := by
    rw [hs, hk2, ← mul_assoc, hT, not_iff_not]
    exact ⟨fun h => by rw [h], fun h => mul_right_cancel₀ (hz _).ne' h⟩
  have t4 : sticky = true → exp - lsb < 0 := by
    intro h; have := hk h; omega
  obtain ⟨q, q1, q2, q3, q4⟩ := roundMag_spec mode neg man (exp - lsb) sticky T t1 t2 t3 t4
  -- the floor is a legal significand
  have hTlt : T < 2 ^ (mb + 1) := by
    have a : (man : ℝ) + 1 ≤ 2 ^ (L + 1) := by exact_mod_cast hl2
    have b : (man + 1 : ℝ) * 2 ^ (exp - lsb) ≤ 2 ^ (L + 1) * 2 ^ (exp - lsb) := mul_le_mul_of_nonneg_right a (hz _).le
    have c : (2 : ℝ) ^ (L + 1) * 2 ^ (exp - lsb) ≤ 2 ^ (mb + 1) := by
      rw [← zpow_natCast, zpow_split, ← zpow_natCast]
      apply zpow_le_zpow_right₀ (by norm_num)
      push_cast; omega
    linarith
  have hq : q < 2 ^ (mb + 1) := by
    have : (q : ℝ) < 2 ^ (mb + 1) := lt_of_le_of_lt q1 hTlt
    exact_mod_cast this
  have hEq : E = 0 ∨ 2 ^ mb ≤ q := by
    by_cases h : lsbU < fmtEmin code
    · left; rw [hE, hlsb, if_pos h]; simp
    · right
      have hl : lsb = lsbU := by rw [hlsb, if_neg h]
      have a : (2 : ℝ) ^ L ≤ man := by exact_mod_cast hl1
      have b : (2 : ℝ) ^ mb ≤ T := by
        refine le_trans ?_ t1
        have : (2 : ℝ) ^ mb = 2 ^ L * 2 ^ (exp - lsb) := by
          rw [← zpow_natCast, ← zpow_natCast, zpow_split, hl, hlsbU]; congr 1; ring
        rw [this]; exact mul_le_mul_of_nonneg_right a (hz _).le
      have : ((2 ^ mb : Nat) : ℝ) < q + 1 := by push_cast; linarith
      have : 2 ^ mb < q + 1 := by exact_mod_cast this
      omega
  set B := E * 2 ^ mb + q with hB
  have m0 : magF code B = q * 2 ^ lsb := by
    rw [hB, hmb, magF_place code E q (by rwa [← hmb]) (by rw [← hmb]; omega), hEz]
  have m1 : magF code (B + 1) = (q + 1) * 2 ^ lsb := by
    rw [hB, Nat.add_assoc, hmb, magF_place code E (q + 1) (by rw [← hmb]; omega) (by rw [← hmb]; omega), hEz]; push_cast; rfl
  have hBpar : B % 2 = q % 2 := by
    obtain ⟨j, hj⟩ : ∃ j, mb = j + 1 := ⟨mb - 1, by omega⟩
    rw [hB, hj, show E * 2 ^ (j + 1) = E * 2 ^ j * 2 by ring]; omega
  have hne : T = q ↔ X = magF code B := by
    rw [m0, hXT]; exact ⟨fun h => by rw [h], fun h => mul_right_cancel₀ (hz _).ne' h⟩
  have d0 : X - magF code B = (T - q) * 2 ^ lsb := by rw [m0, hXT]; ring
  have d1 : magF code (B + 1) - X = (q + 1 - T) * 2 ^ lsb := by rw [m1, hXT]; ring
  have deq : X - magF code B = magF code (B + 1) - X ↔ T - q = 1 / 2 := by
    rw [d0, d1]
    constructor
    · intro h; have := mul_right_cancel₀ (hz _).ne' h; linarith
    · intro h; rw [show (q + 1 - T : ℝ) = T - q by linarith]
  set R := roundMag mode neg man (exp - lsb) sticky with hR
  set U := roundMag mode neg man (exp - lsbU) sticky with hU
  set eU : Int := if 2 ^ (mb + 1) ≤ U.1 then exp + (L : Nat) + 1 else exp + (L : Nat) with heU
  refine ⟨B, E * 2 ^ mb + R.1, (if R.2 && decide (eU < 1 - fmtBias code) then 2 else 0), R.2, ?_, ?_, ?_, ?_, ?_, ?_⟩
  · rw [m0, hXT]; exact mul_le_mul_of_nonneg_right q1 (hz _).le
  · rw [m1, hXT]; exact mul_lt_mul_of_pos_right q2 (hz _)
  · rw [q3, ne_eq, hne]
  · by_cases h : R.2 = true <;> simp [h]; omega
  · rcases q4 with ⟨h1, h2⟩ | ⟨h1, h2, h3⟩
    · left
      refine ⟨by rw [h1], ?_⟩
      rcases h2 with h | h | h | h | ⟨h, h', h''⟩
      · exact .inl (hne.1 h)
      · exact .inr (.inl h)
      · exact .inr (.inr (.inl h))
      · exact .inr (.inr (.inr (.inl h)))
      · refine .inr (.inr (.inr (.inr ⟨h, ?_, fun e => by rw [hBpar]; exact h'' (deq.1 e)⟩)))
        rw [d0, d1]; exact mul_le_mul_of_nonneg_right (by linarith) (hz _).le
    · right
      refine ⟨by rw [h1, hB, Nat.add_assoc], fun h => h2 (hne.2 h), ?_⟩
      rcases h3 with h | h | ⟨h, h', h''⟩
      · exact .inl h
      · exact .inr (.inl h)
      · refine .inr (.inr ⟨h, ?_, fun e => by rw [hBpar]; exact h'' (deq.1 e)⟩)
        rw [d0, d1]; exact mul_le_mul_of_nonneg_right (by linarith) (hz _).le
  · unfold roundF
    simp only [← hmb, ← hL, ← hlsbU, ← hlsb, ← hE, ← hR, ← hU, ← heU, beq_iff_eq, Nat.ble_eq, Nat.blt_eq, flNX, flUF, flOF,
      Bool.or_eq_true, Bool.and_eq_true, Bool.not_eq_true', or_assoc]

/-- What a pattern decodes to: a finite value by its magnitude bits, or none. -/
theorem decodeF_mag (code p : Nat) :
    let w := (fmtBits code).1 + (fmtBits code).2
    let b := p % 2 ^ w
    let fin := if code = 3 then b ≤ 0x7E else b < (2 ^ (fmtBits code).1 - 1) * 2 ^ (fmtBits code).2
    (fin → ∃ m e, decodeF code p = .fin (bitOf p w) m e ∧ (m : ℝ) * 2 ^ e = magF code b) ∧ (¬ fin → ∀ n m e, decodeF code p ≠ .fin n m e) := by
  obtain ⟨mbp, ebp⟩ := fmtBits_pos code
  intro w b fin
  have hf : fld p 0 (fmtBits code).2 = b % 2 ^ (fmtBits code).2 := by
    simp only [fld, b, w, pow_zero, Nat.div_one, pow_add]
    rw [Nat.mod_mul_left_mod]
  have he : fld p (fmtBits code).2 (fmtBits code).1 = b / 2 ^ (fmtBits code).2 := by
    simp only [fld, b, w, pow_add, Nat.mul_comm (2 ^ (fmtBits code).1)]
    rw [Nat.mod_mul_right_div_self]
  have hb : b < 2 ^ w := Nat.mod_lt _ (by positivity)
  clear_value b
  have hp : 0 < 2 ^ (fmtBits code).2 := by positivity
  have sub : b / 2 ^ (fmtBits code).2 = 0 ↔ b < 2 ^ (fmtBits code).2 := Nat.div_eq_zero_iff_lt hp
  have hmag : magF code b = if b / 2 ^ (fmtBits code).2 = 0 then ((b % 2 ^ (fmtBits code).2 : Nat) : ℝ) * 2 ^ fmtEmin code
      else ((2 ^ (fmtBits code).2 + b % 2 ^ (fmtBits code).2 : Nat) : ℝ) * 2 ^ (fmtEmin code + (b / 2 ^ (fmtBits code).2 : Nat) - 1 : ℤ) := by
    unfold magF
    by_cases h : b < 2 ^ (fmtBits code).2
    · rw [if_pos (sub.2 h), if_pos h, Nat.mod_eq_of_lt h]
    · rw [if_neg (fun h' => h (sub.1 h')), if_neg h]
  unfold decodeF
  simp only [hf, he, beq_iff_eq, Bool.and_eq_true]
  by_cases c3 : code = 3
  · subst c3
    have fb : fmtBits 3 = (4, 3) := rfl
    simp only [fb, w, if_true, fin] at *
    norm_num at *
    constructor
    · intro h
      have : ¬ (b / 8 = 15 ∧ b % 8 = 7) := by omega
      rw [if_neg this, hmag]
      by_cases h0 : b / 8 = 0
      · have : b < 8 := by omega
        simp [this]
      · have : ¬ b < 8 := by omega
        simp [this]
    · intro h
      have : b / 8 = 15 ∧ b % 8 = 7 := by omega
      simp [this]
  · simp only [if_neg c3, fin]
    have hi : (b / 2 ^ (fmtBits code).2 = 2 ^ (fmtBits code).1 - 1) ↔ ¬ b < (2 ^ (fmtBits code).1 - 1) * 2 ^ (fmtBits code).2 := by
      have h1 : b / 2 ^ (fmtBits code).2 < 2 ^ (fmtBits code).1 := by
        rw [Nat.div_lt_iff_lt_mul hp, ← pow_add]; exact hb
      rw [← Nat.div_lt_iff_lt_mul hp]; omega
    constructor
    · intro h
      rw [if_neg (fun h' => hi.1 h' h), hmag]
      by_cases h0 : b / 2 ^ (fmtBits code).2 = 0
      · simp only [h0, if_true]; exact ⟨_, _, rfl, rfl⟩
      · simp only [h0, if_false]; exact ⟨_, _, rfl, rfl⟩
    · intro h
      rw [if_pos (hi.2 h)]
      intro n m e
      split <;> simp

theorem magF_zero (code : Nat) : magF code 0 = 0 := by simp [magF]
theorem magF_nonneg (code b : Nat) : 0 ≤ magF code b := by
  have := (magF_strictMono code).monotone (Nat.zero_le b); rwa [magF_zero] at this

/-- The first magnitude bits that are no finite value. -/
def topB (code : Nat) : Nat := if code = 3 then 0x7F else (2 ^ (fmtBits code).1 - 1) * 2 ^ (fmtBits code).2

theorem topB_lt (code : Nat) : 0 < topB code ∧ topB code < 2 ^ ((fmtBits code).1 + (fmtBits code).2) := by
  obtain ⟨_, ebp⟩ := fmtBits_pos code
  unfold topB
  split_ifs with h
  · subst h; decide
  · have h2 : 2 ^ 2 ≤ 2 ^ (fmtBits code).1 := Nat.pow_le_pow_right (by norm_num) ebp
    have hp : 0 < 2 ^ (fmtBits code).2 := by positivity
    constructor
    · apply Nat.mul_pos _ hp; omega
    · rw [pow_add]; exact Nat.mul_lt_mul_of_pos_right (by omega) hp

theorem isReal_iff (code p : Nat) (w : ℝ) :
    IsReal (decodeF code p) w ↔ (p % 2 ^ ((fmtBits code).1 + (fmtBits code).2) < topB code ∧
      w = (if bitOf p ((fmtBits code).1 + (fmtBits code).2) then -1 else 1) * magF code (p % 2 ^ ((fmtBits code).1 + (fmtBits code).2))) := by
  have h := decodeF_mag code p
  simp only at h
  have hf : (if code = 3 then p % 2 ^ ((fmtBits code).1 + (fmtBits code).2) ≤ 0x7E
      else p % 2 ^ ((fmtBits code).1 + (fmtBits code).2) < (2 ^ (fmtBits code).1 - 1) * 2 ^ (fmtBits code).2) ↔
      p % 2 ^ ((fmtBits code).1 + (fmtBits code).2) < topB code := by
    unfold topB; split_ifs
    · omega
    · rfl
  rw [hf] at h
  by_cases hb : p % 2 ^ ((fmtBits code).1 + (fmtBits code).2) < topB code
  · obtain ⟨m, e, h1, h2⟩ := h.1 hb
    rw [h1, ← h2]; exact ⟨fun h => ⟨hb, h⟩, fun h => h.2⟩
  · have := h.2 hb
    constructor
    · intro hr
      cases hd : decodeF code p with
      | nan => rw [hd] at hr; exact hr.elim
      | inf => rw [hd] at hr; exact hr.elim
      | fin n m e => exact absurd hd (this n m e)
    · intro hr; exact absurd hr.1 hb

/-- The magnitude bits, the sign and the parity of a signed pattern. -/
theorem signed_parts (code b : Nat) (neg : Bool) (hb : b < 2 ^ ((fmtBits code).1 + (fmtBits code).2)) :
    let p := (if neg then 2 ^ ((fmtBits code).1 + (fmtBits code).2) else 0) + b
    p % 2 ^ ((fmtBits code).1 + (fmtBits code).2) = b ∧ bitOf p ((fmtBits code).1 + (fmtBits code).2) = neg ∧ (p % 2 = b % 2) := by
  obtain ⟨mbp, ebp⟩ := fmtBits_pos code
  obtain ⟨j, hj⟩ : ∃ j, (fmtBits code).1 + (fmtBits code).2 = j + 1 := ⟨(fmtBits code).1 + (fmtBits code).2 - 1, by omega⟩
  rw [hj] at hb ⊢
  have hp : 0 < 2 ^ (j + 1) := by positivity
  cases neg
  · simp only [Bool.false_eq_true, if_false, Nat.zero_add, bitOf]
    refine ⟨Nat.mod_eq_of_lt hb, ?_, trivial⟩
    rw [Nat.div_eq_of_lt hb]; rfl
  · simp only [if_true, bitOf]
    refine ⟨by rw [Nat.add_mod_left, Nat.mod_eq_of_lt hb], ?_, ?_⟩
    · rw [Nat.add_div_left _ hp, Nat.div_eq_of_lt hb]; rfl
    · rw [show 2 ^ (j + 1) = 2 * 2 ^ j by ring]; omega

theorem isReal_signed (code b : Nat) (neg : Bool) (hb : b < topB code) :
    IsReal (decodeF code ((if neg then 2 ^ ((fmtBits code).1 + (fmtBits code).2) else 0) + b)) ((if neg then -1 else 1) * magF code b) := by
  have hb2 := hb.trans (topB_lt code).2
  obtain ⟨h1, h2, _⟩ := signed_parts code b neg hb2
  rw [isReal_iff, h1, h2]; exact ⟨hb, rfl⟩

theorem decodeF_inf (code : Nat) (neg : Bool) (hc : code ≠ 3) :
    decodeF code ((if neg then 2 ^ ((fmtBits code).1 + (fmtBits code).2) else 0) + topB code) = .inf neg := by
  obtain ⟨h1, h2, _⟩ := signed_parts code (topB code) neg (topB_lt code).2
  have hp : 0 < 2 ^ (fmtBits code).2 := by positivity
  set p := (if neg then 2 ^ ((fmtBits code).1 + (fmtBits code).2) else 0) + topB code with hpd
  have ht : topB code = (2 ^ (fmtBits code).1 - 1) * 2 ^ (fmtBits code).2 := by simp [topB, hc]
  have hf : fld p 0 (fmtBits code).2 = 0 := by
    have : fld p 0 (fmtBits code).2 = p % 2 ^ ((fmtBits code).1 + (fmtBits code).2) % 2 ^ (fmtBits code).2 := by
      simp only [fld, pow_zero, Nat.div_one, pow_add]; rw [Nat.mod_mul_left_mod]
    rw [this, h1, ht, Nat.mul_mod_left]
  have he : fld p (fmtBits code).2 (fmtBits code).1 = 2 ^ (fmtBits code).1 - 1 := by
    have : fld p (fmtBits code).2 (fmtBits code).1 = p % 2 ^ ((fmtBits code).1 + (fmtBits code).2) / 2 ^ (fmtBits code).2 := by
      simp only [fld, pow_add, Nat.mul_comm (2 ^ (fmtBits code).1)]; rw [Nat.mod_mul_right_div_self]
    rw [this, h1, ht, Nat.mul_div_cancel _ hp]
  unfold decodeF
  simp only [hf, he, h2, beq_iff_eq, hc, if_false, if_true]


/-- The nearer of two neighbours is nearest of all magnitudes, and stays so under signs; likewise upward and downward. -/
theorem near_mag {M0 M1 X V Y : ℝ} {ev : Prop} (h0 : M0 ≤ X) (h1 : X < M1) (hY : Y ≤ M0 ∨ M1 ≤ Y)
    (hV : V = M0 ∧ (X = M0 ∨ X - M0 ≤ M1 - X ∧ (X - M0 = M1 - X → ev)) ∨ V = M1 ∧ M1 - X ≤ X - M0 ∧ (X - M0 = M1 - X → ev)) :
    |V - X| ≤ |Y - X| ∧ (|V - X| = |Y - X| → Y = V ∨ ev) := by
  have yl : Y ≤ M0 → |Y - X| = X - Y := by intro h; rw [abs_sub_comm, abs_of_nonneg (by linarith)]
  have yh : M1 ≤ Y → |Y - X| = Y - X := by intro h; rw [abs_of_nonneg (by linarith)]
  rcases hV with ⟨rfl, h⟩ | ⟨rfl, h, h'⟩
  · have ab : |V - X| = X - V := by rw [abs_sub_comm, abs_of_nonneg (by linarith)]
    rw [ab]
    rcases hY with hy | hy
    · rw [yl hy]; exact ⟨by linarith, fun e => .inl (by linarith)⟩
    · rw [yh hy]
      rcases h with h | ⟨h, h'⟩
      · exact ⟨by linarith, fun e => absurd e (by intro e; linarith)⟩
      · exact ⟨by linarith, fun e => .inr (h' (by linarith))⟩
  · have ab : |V - X| = V - X := by rw [abs_of_nonneg (by linarith)]
    rw [ab]
    rcases hY with hy | hy
    · rw [yl hy]; exact ⟨by linarith, fun e => .inr (h' (by linarith))⟩
    · rw [yh hy]; exact ⟨by linarith, fun e => .inl (by linarith)⟩

theorem near_signed {X V Y : ℝ} {ev : Prop} (n neg : Bool) (hX : 0 < X) (hY : 0 ≤ Y)
    (h : |V - X| ≤ |Y - X| ∧ (|V - X| = |Y - X| → Y = V ∨ ev)) :
    let v := (if neg then -1 else 1 : ℝ) * V
    let x := (if neg then -1 else 1 : ℝ) * X
    let w := (if n then -1 else 1 : ℝ) * Y
    |v - x| ≤ |w - x| ∧ (|v - x| = |w - x| → w = v ∨ ev) := by
  have e1 : |(if neg then -1 else 1 : ℝ) * V - (if neg then -1 else 1) * X| = |V - X| := by
    rw [← mul_sub, abs_mul]; cases neg <;> simp
  simp only [e1]
  by_cases hn : n = neg
  · subst hn
    have e2 : |(if n then -1 else 1 : ℝ) * Y - (if n then -1 else 1) * X| = |Y - X| := by
      rw [← mul_sub, abs_mul]; cases n <;> simp
    rw [e2]
    exact ⟨h.1, fun e => (h.2 e).imp (fun h => by rw [h]) id⟩
  · have e2 : |(if n then -1 else 1 : ℝ) * Y - (if neg then -1 else 1) * X| = Y + X := by
      cases n <;> cases neg
      · exact absurd rfl hn
      · simp only [Bool.false_eq_true, if_false, if_true]; rw [abs_of_nonneg (by linarith)]; ring
      · simp only [Bool.false_eq_true, if_false, if_true]; rw [abs_of_nonpos (by linarith)]; ring
      · exact absurd rfl hn
    have e3 : |Y - X| ≤ Y + X := by rw [abs_le]; constructor <;> linarith
    rw [e2]
    refine ⟨h.1.trans e3, fun e => ?_⟩
    have e4 : |V - X| = |Y - X| := le_antisymm h.1 (by rw [e]; exact e3)
    have hy0 : Y = 0 := by
      rcases abs_cases (Y - X) with ⟨h, _⟩ | ⟨h, _⟩ <;> linarith
    rcases h.2 e4 with h | h
    · left; rw [← h, hy0]; simp
    · exact .inr h

theorem up_signed {M0 M1 X V Y : ℝ} (n neg : Bool) (hX : 0 < X) (hM : 0 ≤ M0) (hY0 : 0 ≤ Y) (h0 : M0 ≤ X) (h1 : X < M1) (hY : Y ≤ M0 ∨ M1 ≤ Y)
    (hV : V = M0 ∧ (X = M0 ∨ neg = true) ∨ V = M1 ∧ X ≠ M0 ∧ neg = false) :
    let v := (if neg then -1 else 1 : ℝ) * V
    let x := (if neg then -1 else 1 : ℝ) * X
    let w := (if n then -1 else 1 : ℝ) * Y
    x ≤ v ∧ (x ≤ w → v ≤ w) := by
  cases neg
  · simp only [Bool.false_eq_true, if_false, one_mul]
    rcases hV with ⟨rfl, h | h⟩ | ⟨rfl, h, -⟩
    · exact ⟨h.le, fun hx => h ▸ hx⟩
    · cases h
    · refine ⟨h1.le, fun hx => ?_⟩
      cases n
      · simp only [Bool.false_eq_true, if_false, one_mul] at hx ⊢
        rcases hY with hy | hy
        · exact absurd (le_antisymm (by linarith) h0) h
        · exact hy
      · simp only [if_true, neg_mul, one_mul] at hx; linarith
  · simp only [if_true, neg_mul, one_mul]
    have hV : V = M0 := by rcases hV with ⟨h, -⟩ | ⟨-, -, h⟩; exact h; cases h
    subst hV
    refine ⟨by linarith, fun hx => ?_⟩
    cases n
    · simp only [Bool.false_eq_true, if_false, one_mul]; linarith
    · simp only [if_true, neg_mul, one_mul] at hx ⊢
      rcases hY with hy | hy <;> linarith

theorem down_signed {M0 M1 X V Y : ℝ} (n neg : Bool) (hX : 0 < X) (hM : 0 ≤ M0) (hY0 : 0 ≤ Y) (h0 : M0 ≤ X) (h1 : X < M1) (hY : Y ≤ M0 ∨ M1 ≤ Y)
    (hV : V = M0 ∧ (X = M0 ∨ neg = false) ∨ V = M1 ∧ X ≠ M0 ∧ neg = true) :
    let v := (if neg then -1 else 1 : ℝ) * V
    let x := (if neg then -1 else 1 : ℝ) * X
    let w := (if n then -1 else 1 : ℝ) * Y
    v ≤ x ∧ (w ≤ x → w ≤ v) := by
  have := up_signed (!n) (!neg) hX hM hY0 h0 h1 hY (by simpa using hV)
  have flip : ∀ b : Bool, (if (!b) = true then -1 else 1 : ℝ) = -(if b then -1 else 1) := by intro b; cases b <;> simp
  simp only [flip, neg_mul, neg_le_neg_iff] at this
  exact this

/-- roundF rounds the real X that its magnitude, and its sticky bit, stand for. -/
theorem roundF_rounds (code mode : Nat) (neg : Bool) (man : Nat) (exp : Int) (sticky : Bool) (X : ℝ) (hmode : mode < 4) (hm : 0 < man)
    (hlo : (man : ℝ) * 2 ^ exp ≤ X) (hhi : X < (man + 1 : ℝ) * 2 ^ exp) (hs : sticky = true ↔ X ≠ man * 2 ^ exp)
    (hk : sticky = true → (fmtBits code).2 + 1 ≤ Nat.log2 man) :
    RoundsTo code mode ((if neg then -1 else 1) * X) (roundF code mode neg man exp sticky) := by
  obtain ⟨B, b, uf, nx, hB, hB1, hnx, huf, hb, hr⟩ := roundF_between code mode neg man exp sticky X hm hlo hhi hs hk
  have hX : 0 < X := lt_of_lt_of_le (by positivity) hlo
  have mono := magF_strictMono code
  have sgn1 : ∀ n : Bool, |(if n then -1 else 1 : ℝ)| = 1 := by intro n; cases n <;> simp
  have absX : |(if neg then -1 else 1 : ℝ) * X| = X := by rw [abs_mul, sgn1, one_mul, abs_of_pos hX]
  have absm : ∀ (n : Bool) (y : Nat), |(if n then -1 else 1 : ℝ) * magF code y| = magF code y := by
    intro n y; rw [abs_mul, sgn1, one_mul, abs_of_nonneg (magF_nonneg code y)]
  have sq : (if neg then -1 else 1 : ℝ) * (if neg then -1 else 1) = 1 := by cases neg <;> simp
  -- every pattern lies at or below B, or at or above B + 1
  have sides : ∀ y, magF code y ≤ magF code B ∨ magF code (B + 1) ≤ magF code y := by
    intro y; rcases Nat.lt_or_ge B y with h | h
    · exact .inr (mono.monotone h)
    · exact .inl (mono.monotone h)
  have hfin : ∀ n y, roundF code mode neg man exp sticky = n → (if b < topB code then n.1 = (if neg then 2 ^ ((fmtBits code).1 + (fmtBits code).2) else 0) + b ∧
        n.2 = (if nx then 1 else 0) + uf else n.2 = 5 ∧ n.1 = (if neg then 2 ^ ((fmtBits code).1 + (fmtBits code).2) else 0) +
          (if code ≠ 3 ∧ (mode = 0 ∨ (mode = 2 ∧ neg = false) ∨ (mode = 3 ∧ neg = true)) then topB code else topB code - 1)) ∨ y = 0 := by
    intro n _ hn
    left
    rw [← hn, hr]
    by_cases c3 : code = 3
    · simp only [c3, topB, if_true, ne_eq, not_true_eq_false, false_and, if_false]
      by_cases h : b ≤ 0x7E
      · rw [if_pos (by omega), if_pos h]; exact ⟨rfl, rfl⟩
      · rw [if_neg (by omega), if_neg h]; exact ⟨rfl, rfl⟩
    · simp only [c3, topB, if_false, ne_eq, not_false_eq_true, true_and]
      split_ifs <;> exact ⟨rfl, rfl⟩
  have hfin := (hfin _ 1 rfl).resolve_right one_ne_zero
  set r := roundF code mode neg man exp sticky with hrd
  by_cases hbt : b < topB code
  · rw [if_pos hbt] at hfin
    obtain ⟨r1, r2⟩ := hfin
    have r24 : r.2 / 4 % 2 = 0 := by
      rw [r2]; rcases huf with h | ⟨h, h'⟩ <;> subst h <;> cases nx <;> rfl
    have r21 : r.2 % 2 = 0 ↔ nx = false := by
      rw [r2]; rcases huf with h | ⟨h, h'⟩ <;> subst h <;> cases nx <;> simp
    have par : r.1 % 2 = b % 2 := by
      rw [r1]; exact (signed_parts code b neg (hbt.trans (topB_lt code).2)).2.2
    refine ⟨fun _ => ⟨(if neg then -1 else 1) * magF code b, ?_, ?_, ?_⟩, fun h => by omega⟩
    · rw [r1]; exact isReal_signed code b neg hbt
    · rw [r21]
      have hx : ((if neg then -1 else 1 : ℝ) * magF code b = (if neg then -1 else 1) * X) ↔ magF code b = X := by
        cases neg <;> simp
      rw [hx]
      rcases hb with ⟨h, _⟩ | ⟨h, h', _⟩
      · subst h
        constructor
        · intro hn; by_contra hc
          have := hnx.2 (fun e => hc e.symm); rw [hn] at this; cases this
        · intro e; by_contra hc
          exact (hnx.1 (by simpa using hc)) e.symm
      · subst h
        constructor
        · intro hn; exact absurd (hnx.2 h') (by simp [hn])
        · intro e; exact absurd e hB1.ne'
    · intro p w hw
      rw [isReal_iff] at hw
      obtain ⟨-, hw⟩ := hw
      generalize p % 2 ^ ((fmtBits code).1 + (fmtBits code).2) = y at hw
      generalize bitOf p ((fmtBits code).1 + (fmtBits code).2) = n at hw
      have side := sides y
      have y0 := magF_nonneg code y
      have b0 := magF_nonneg code B
      rw [hw]
      refine ⟨fun m0 => ?_, fun m1 => ?_, fun m2 => ?_, fun m3 => ?_⟩
      · rw [par]
        refine near_signed n neg hX y0 (near_mag hB hB1 side ?_)
        rcases hb with ⟨h, h2⟩ | ⟨h, -, h2⟩ <;> subst h
        · left
          refine ⟨rfl, ?_⟩
          rcases h2 with h | h | h | h | ⟨-, h⟩
          · exact .inl h
          all_goals first | exact .inr h | omega
        · right
          refine ⟨rfl, ?_⟩
          rcases h2 with h | h | ⟨-, h, h'⟩
          · omega
          · omega
          · exact ⟨h, fun e => by have := h' e; omega⟩
      · have hbB : b = B := by
          rcases hb with ⟨h, _⟩ | ⟨_, _, h | h | h⟩
          · exact h
          all_goals omega
        rw [absX, absm, absm, hbB]
        refine ⟨?_, hB, fun h => ?_⟩
        · rw [show (if neg then -1 else 1 : ℝ) * magF code B * ((if neg then -1 else 1) * X) =
            ((if neg then -1 else 1) * (if neg then -1 else 1)) * (magF code B * X) by ring, sq, one_mul]
          exact mul_nonneg b0 hX.le
        · rcases side with hy | hy
          · exact hy
          · linarith
      · refine up_signed n neg hX b0 y0 hB hB1 side ?_
        rcases hb with ⟨h, h2⟩ | ⟨h, h3, h2⟩ <;> subst h
        · left
          refine ⟨rfl, ?_⟩
          rcases h2 with h | h | h | h | ⟨h, -⟩
          · exact .inl h
          · omega
          · exact .inr h.2
          · omega
          · omega
        · right
          refine ⟨rfl, h3, ?_⟩
          rcases h2 with h | h | ⟨h, -⟩
          · exact h.2
          · omega
          · omega
      · refine down_signed n neg hX b0 y0 hB hB1 side ?_
        rcases hb with ⟨h, h2⟩ | ⟨h, h3, h2⟩ <;> subst h
        · left
          refine ⟨rfl, ?_⟩
          rcases h2 with h | h | h | h | ⟨h, -⟩
          · exact .inl h
          · omega
          · omega
          · exact .inr h.2
          · omega
        · right
          refine ⟨rfl, h3, ?_⟩
          rcases h2 with h | h | ⟨h, -⟩
          · omega
          · exact h.2
          · omega
  · rw [if_neg hbt] at hfin
    obtain ⟨r2, r1⟩ := hfin
    have t0 := (topB_lt code).1
    refine ⟨fun h => by rw [r2] at h; norm_num at h, fun _ => ⟨by rw [r2], ?_, ?_⟩⟩
    · intro p w hw
      rw [isReal_iff] at hw
      rw [hw.2, absm, absX]
      have hy : magF code (p % 2 ^ ((fmtBits code).1 + (fmtBits code).2)) ≤ magF code B := mono.monotone (by
        rcases hb with ⟨h, _⟩ | ⟨h, _⟩ <;> omega)
      rcases hb with ⟨h, _⟩ | ⟨h, h', _⟩
      · refine lt_of_lt_of_le (mono (show _ < B by omega)) hB
      · exact lt_of_le_of_lt hy (lt_of_le_of_ne hB (fun e => h' e.symm))
    · have xneg : (if neg then -1 else 1 : ℝ) * X < 0 ↔ neg = true := by
        cases neg <;> simp [hX, hX.le]
      have xpos : 0 < (if neg then -1 else 1 : ℝ) * X ↔ neg = false := by
        cases neg <;> simp [hX, hX.le]
      simp only [xneg, xpos]
      rw [r1]
      by_cases hc : code ≠ 3 ∧ (mode = 0 ∨ (mode = 2 ∧ neg = false) ∨ (mode = 3 ∧ neg = true))
      · rw [if_pos hc, decodeF_inf code neg hc.1]
        exact ⟨fun _ => ⟨neg, rfl, Iff.rfl⟩, fun h => absurd hc h⟩
      · rw [if_neg hc]
        refine ⟨fun h => absurd h hc, fun _ => ?_⟩
        refine ⟨_, isReal_signed code (topB code - 1) neg (by omega), ?_, ?_⟩
        · rw [show (if neg then -1 else 1 : ℝ) * magF code (topB code - 1) * ((if neg then -1 else 1) * X) =
            ((if neg then -1 else 1) * (if neg then -1 else 1)) * (magF code (topB code - 1) * X) by ring, sq, one_mul]
          have h1 : 0 < topB code - 1 := by
            unfold topB; split_ifs with h
            · norm_num
            · obtain ⟨_, ebp⟩ := fmtBits_pos code
              have h2 : 2 ^ 2 ≤ 2 ^ (fmtBits code).1 := Nat.pow_le_pow_right (by norm_num) ebp
              have hp : 1 ≤ 2 ^ (fmtBits code).2 := Nat.one_le_two_pow
              have : 3 * 1 ≤ (2 ^ (fmtBits code).1 - 1) * 2 ^ (fmtBits code).2 := Nat.mul_le_mul (by omega) hp
              omega
          have := mono h1
          rw [magF_zero] at this
          exact mul_pos this hX
        · intro p w hw
          rw [isReal_iff] at hw
          rw [hw.2, absm, absm]
          exact mono.monotone (by omega)

theorem isReal_fin (neg : Bool) (man : Nat) (exp : Int) (x : ℝ) : IsReal (.fin neg man exp) x ↔ x = (if neg then -1 else 1) * (man * 2 ^ exp) := Iff.rfl

theorem isReal_zero (neg : Bool) (e : Int) : IsReal (.fin neg 0 e) 0 := by simp [IsReal]

/-- A signed zero is exact. -/
theorem zero_rounds (code mode : Nat) (neg : Bool) :
    RoundsTo code mode 0 ((if neg then 2 ^ ((fmtBits code).1 + (fmtBits code).2) else 0), 0) := by
  have h := isReal_signed code 0 neg (topB_lt code).1
  simp only [magF_zero, mul_zero, Nat.add_zero] at h
  refine ⟨fun _ => ⟨0, h, by simp, fun p w _ => ?_⟩, fun h => absurd h (by simp)⟩
  simp only [sub_self, sub_zero, abs_zero, abs_nonneg, mul_zero, le_refl, true_and, abs_nonpos_iff, imp_self, implies_true, and_true]
  exact fun _ => fun h => .inl (abs_eq_zero.1 h.symm)

theorem encodeF_rounds (code mode : Nat) (v : FV) (x : ℝ) (hmode : mode < 4) (h : IsReal v x) : RoundsTo code mode x (encodeF code mode v) := by
  cases v with
  | nan => exact h.elim
  | inf => exact h.elim
  | fin neg man exp =>
    rw [isReal_fin] at h
    rcases Nat.eq_zero_or_pos man with hm | hm
    · subst hm
      have : x = 0 := by rw [h]; simp
      subst this
      simpa [encodeF] using zero_rounds code mode neg
    · have e : encodeF code mode (.fin neg man exp) = roundF code mode neg man exp false := by
        cases man with
        | zero => omega
        | succ n => rfl
      rw [e, h]
      have hz : (0 : ℝ) < 2 ^ exp := by positivity
      exact roundF_rounds code mode neg man exp false _ hmode hm le_rfl (by nlinarith) (by simp) (by simp)

theorem addV_real (z : Bool) (a b : FV) (x y : ℝ) (ha : IsReal a x) (hb : IsReal b y) : IsReal (addV z a b) (x + y) := by
  cases a with
  | nan => exact ha.elim
  | inf => exact ha.elim
  | fin n m e =>
    cases b with
    | nan => exact hb.elim
    | inf => exact hb.elim
    | fin n' m' e' =>
      rw [isReal_fin] at ha hb
      set g := min e e' with hgd
      have key : ∀ (n : Bool) (m : Nat) (f : Int), g ≤ f →
          ((signed n (m * pow2 (f - g)) : Int) : ℝ) * 2 ^ g = (if n then -1 else 1) * (m * 2 ^ f) := by
        intro n m f hf
        have h1 : ((pow2 (f - g) : Nat) : ℝ) * 2 ^ g = 2 ^ f := by
          unfold pow2
          push_cast
          rw [← zpow_natCast, ← zpow_add₀ two_ne_zero]
          congr 1; omega
        unfold signed
        cases n
        · simp only [Bool.false_eq_true, if_false, one_mul]; push_cast; rw [mul_assoc, h1]
        · simp only [if_true, neg_mul, one_mul]; push_cast; rw [neg_mul, mul_assoc, h1]
      have hs : x + y = ((signed n (m * pow2 (e - g)) + signed n' (m' * pow2 (e' - g)) : Int) : ℝ) * 2 ^ g := by
        push_cast; rw [add_mul, key n m e (min_le_left _ _), key n' m' e' (min_le_right _ _), ha, hb]
      set S := signed n (m * pow2 (e - g)) + signed n' (m' * pow2 (e' - g)) with hS
      have : addV z (.fin n m e) (.fin n' m' e') =
          if S == 0 then .fin (if m == 0 && m' == 0 && n == n' then n else z) 0 0 else .fin (S < 0) S.natAbs g := rfl
      rw [this, hs]
      by_cases h0 : S = 0
      · rw [h0]; simp [isReal_fin]
      · rw [if_neg (by simpa using h0), isReal_fin]
        rcases lt_or_gt_of_ne h0 with h | h
        · simp only [h, decide_true, if_true]
          have : ((S.natAbs : Nat) : ℝ) = -(S : ℝ) := by
            rw [Nat.cast_natAbs, abs_of_neg h]; push_cast; rfl
          rw [this]; ring
        · have hn : ¬ S < 0 := by omega
          simp only [hn, decide_false, Bool.false_eq_true, if_false]
          have : ((S.natAbs : Nat) : ℝ) = (S : ℝ) := by
            rw [Nat.cast_natAbs, abs_of_pos h]
          rw [this]; ring

theorem mulV_real (a b : FV) (x y : ℝ) (ha : IsReal a x) (hb : IsReal b y) : IsReal (mulV a b) (x * y) := by
  cases a with
  | nan => exact ha.elim
  | inf => exact ha.elim
  | fin n m e =>
    cases b with
    | nan => exact hb.elim
    | inf => exact hb.elim
    | fin n' m' e' =>
      rw [isReal_fin] at ha hb
      show IsReal (.fin (n != n') (m * m') (e + e')) (x * y)
      rw [isReal_fin, ha, hb, zpow_add₀ two_ne_zero]
      push_cast
      cases n <;> cases n' <;> simp <;> ring

theorem negate_real (a : FV) (x : ℝ) (ha : IsReal a x) : IsReal a.negate (-x) := by
  cases a with
  | nan => exact ha.elim
  | inf => exact ha.elim
  | fin n m e =>
    rw [isReal_fin] at ha
    show IsReal (.fin (!n) m e) (-x)
    rw [isReal_fin, ha]; cases n <;> simp

theorem sigFlag_real (a : FV) (x : ℝ) (ha : IsReal a x) : a.sigFlag = 0 ∧ a.isNan = false := by
  cases a with
  | nan => exact ha.elim
  | inf => exact ha.elim
  | fin n m e => exact ⟨rfl, rfl⟩

theorem nvOf_real (l : List FV) (r : FV) (z : ℝ) (hl : ∀ a ∈ l, ∃ x, IsReal a x) (hr : IsReal r z) : nvOf l r = 0 := by
  have h1 : l.any (fun v => v.sigFlag != 0) = false := by
    rw [List.any_eq_false]
    intro a ha; obtain ⟨x, hx⟩ := hl a ha; simp [(sigFlag_real a x hx).1]
  unfold nvOf
  rw [h1, (sigFlag_real r z hr).2]; simp

theorem finish_rounds (code mode : Nat) (l : List FV) (r : FV) (z : ℝ) (hmode : mode < 4) (hl : ∀ a ∈ l, ∃ x, IsReal a x) (hr : IsReal r z) :
    RoundsTo code mode z (finish code mode l r) := by
  have : finish code mode l r = encodeF code mode r := by
    unfold finish; rw [nvOf_real l r z hl hr]
    exact Prod.ext rfl (Nat.or_zero _)
  rw [this]; exact encodeF_rounds code mode r z hmode hr

theorem fAdd_rounds (code mode a b : Nat) (x y : ℝ) (hmode : mode < 4) (ha : IsReal (decodeF code a) x) (hb : IsReal (decodeF code b) y) :
    RoundsTo code mode (x + y) (fAdd code mode a b) :=
  finish_rounds code mode _ _ _ hmode (by intro v hv; rcases List.mem_cons.1 hv with rfl | hv; exact ⟨x, ha⟩; rcases List.mem_singleton.1 hv with rfl; exact ⟨y, hb⟩)
    (addV_real _ _ _ _ _ ha hb)

theorem fSub_rounds (code mode a b : Nat) (x y : ℝ) (hmode : mode < 4) (ha : IsReal (decodeF code a) x) (hb : IsReal (decodeF code b) y) :
    RoundsTo code mode (x - y) (fSub code mode a b) :=
  finish_rounds code mode _ _ _ hmode (by intro v hv; rcases List.mem_cons.1 hv with rfl | hv; exact ⟨x, ha⟩; rcases List.mem_singleton.1 hv with rfl; exact ⟨y, hb⟩)
    (addV_real _ _ _ _ _ ha (negate_real _ _ hb))

theorem fMul_rounds (code mode a b : Nat) (x y : ℝ) (hmode : mode < 4) (ha : IsReal (decodeF code a) x) (hb : IsReal (decodeF code b) y) :
    RoundsTo code mode (x * y) (fMul code mode a b) :=
  finish_rounds code mode _ _ _ hmode (by intro v hv; rcases List.mem_cons.1 hv with rfl | hv; exact ⟨x, ha⟩; rcases List.mem_singleton.1 hv with rfl; exact ⟨y, hb⟩)
    (mulV_real _ _ _ _ ha hb)

theorem fFma_rounds (code mode a b c : Nat) (x y z : ℝ) (hmode : mode < 4) (ha : IsReal (decodeF code a) x) (hb : IsReal (decodeF code b) y)
    (hc : IsReal (decodeF code c) z) : RoundsTo code mode (x * y + z) (fFma code mode a b c) := by
  have hp := mulV_real _ _ _ _ ha hb
  have hr := addV_real (mode == 3) _ _ _ _ hp hc
  have : fFma code mode a b c = encodeF code mode (addV (mode == 3) (mulV (decodeF code a) (decodeF code b)) (decodeF code c)) := by
    unfold fFma
    simp only [(sigFlag_real _ _ hp).2, Bool.false_and, Bool.false_eq_true, if_false]
    rw [nvOf_real _ _ _ (by
      intro v hv
      rcases List.mem_cons.1 hv with rfl | hv
      · exact ⟨x, ha⟩
      rcases List.mem_cons.1 hv with rfl | hv
      · exact ⟨y, hb⟩
      rcases List.mem_singleton.1 hv with rfl
      exact ⟨z, hc⟩) hr]
    exact Prod.ext rfl (Nat.or_zero _)
  rw [this]; exact encodeF_rounds code mode _ _ hmode hr

theorem fDiv_rounds (code mode a b : Nat) (x y : ℝ) (hmode : mode < 4) (ha : IsReal (decodeF code a) x) (hb : IsReal (decodeF code b) y) (hy : y ≠ 0) :
    RoundsTo code mode (x / y) (fDiv code mode a b) := by
  unfold fDiv
  generalize decodeF code a = v at *
  generalize decodeF code b = w at *
  cases v with
  | nan => exact ha.elim
  | inf => exact ha.elim
  | fin s m e =>
    cases w with
    | nan => exact hb.elim
    | inf => exact hb.elim
    | fin t n f =>
      rw [isReal_fin] at ha hb
      have hn : n ≠ 0 := by intro h; apply hy; rw [hb, h]; simp
      have hnp : 0 < n := Nat.pos_of_ne_zero hn
      simp only [FV.isNeg, beq_iff_eq, hn, if_false]
      by_cases hm : m = 0
      · rw [if_pos hm]
        have : x = 0 := by rw [ha, hm]; simp
        rw [this, zero_div]
        simpa [encodeF] using zero_rounds code mode (s != t)
      · rw [if_neg hm]
        have hmp : 0 < m := Nat.pos_of_ne_zero hm
        set K := (fmtBits code).2 + 4 + Nat.log2 n with hK
        have hnR : (0 : ℝ) < n := by exact_mod_cast hnp
        set X : ℝ := (m : ℝ) / n * 2 ^ (e - f) with hX
        have hxy : x / y = (if (s != t) = true then -1 else 1) * X := by
          rw [ha, hb, hX, zpow_sub₀ two_ne_zero]
          have : (2 : ℝ) ^ f ≠ 0 := by positivity
          cases s <;> cases t <;> simp <;> field_simp
        rw [hxy]
        set Q := m * 2 ^ K / n with hQ
        set Rm := m * 2 ^ K % n with hRm
        have hdm : n * Q + Rm = m * 2 ^ K := Nat.div_add_mod _ _
        have hml : Rm < n := Nat.mod_lt _ hnp
        have hdmR : (n : ℝ) * Q + Rm = m * 2 ^ K := by exact_mod_cast hdm
        have hzK : (2 : ℝ) ^ (e - f - (K : Nat)) * 2 ^ K = 2 ^ (e - f) := by
          rw [← zpow_natCast, ← zpow_add₀ two_ne_zero]; congr 1; omega
        have hzp : (0 : ℝ) < 2 ^ (e - f - (K : Nat)) := by positivity
        have hXe : X * n = (n * Q + Rm) * 2 ^ (e - f - (K : Nat)) := by
          rw [hdmR, hX, ← hzK]; field_simp
        have hRmR : (Rm : ℝ) + 1 ≤ n := by exact_mod_cast hml
        have hRm0 : (0 : ℝ) ≤ Rm := Nat.cast_nonneg _
        have hlog : (fmtBits code).2 + 3 ≤ Nat.log2 Q := by
          have h1 : n < 2 ^ (Nat.log2 n + 1) := Nat.lt_log2_self
          have h2 : 2 ^ ((fmtBits code).2 + 3) * n ≤ m * 2 ^ K := by
            calc 2 ^ ((fmtBits code).2 + 3) * n ≤ 2 ^ ((fmtBits code).2 + 3) * 2 ^ (Nat.log2 n + 1) := Nat.mul_le_mul_left _ h1.le
              _ = 2 ^ K := by rw [← pow_add]; congr 1; omega
              _ ≤ m * 2 ^ K := Nat.le_mul_of_pos_left _ hmp
          have h3 : 2 ^ ((fmtBits code).2 + 3) ≤ Q := (Nat.le_div_iff_mul_le hnp).2 h2
          exact (Nat.le_log2 (by have : 0 < 2 ^ ((fmtBits code).2 + 3) := by positivity
                                 omega)).2 h3
        have hQ0 : 0 < Q := by
          rcases Nat.eq_zero_or_pos Q with h | h
          · rw [h] at hlog; simp at hlog
          · exact h
        refine roundF_rounds code mode (s != t) Q _ _ X hmode hQ0 ?_ ?_ ?_ ?_
        · nlinarith
        · nlinarith
        · rw [bne_iff_ne, ne_eq, ne_eq, not_iff_not]
          constructor
          · intro h
            rw [h] at hXe
            apply mul_right_cancel₀ hnR.ne'
            rw [hXe]; push_cast; ring
          · intro h
            rw [h] at hXe
            have : (Rm : ℝ) * 2 ^ (e - f - (K : Nat)) = 0 := by linarith
            rcases mul_eq_zero.1 this with h | h
            · exact_mod_cast h
            · exact absurd h hzp.ne'
        · intro _; omega

theorem isqrtFrom_spec (x : Nat) : ∀ n r, r * r ≤ x → x < (r + 2 ^ n) * (r + 2 ^ n) →
    isqrtFrom x n r * isqrtFrom x n r ≤ x ∧ x < (isqrtFrom x n r + 1) * (isqrtFrom x n r + 1)
  | 0, r, h1, h2 => ⟨h1, h2⟩
  | n + 1, r, h1, h2 => by
    unfold isqrtFrom
    have e : (r + 2 ^ (n + 1)) = r + 2 ^ n + 2 ^ n := by rw [pow_succ]; ring
    rw [e] at h2
    by_cases h : (r + 2 ^ n) * (r + 2 ^ n) ≤ x
    · rw [if_pos (Nat.ble_eq.mpr h)]; exact isqrtFrom_spec x n _ h h2
    · rw [if_neg (by rw [Nat.ble_eq]; exact h)]; exact isqrtFrom_spec x n _ h1 (by omega)

theorem isqrt_spec (x : Nat) : isqrt x * isqrt x ≤ x ∧ x < (isqrt x + 1) * (isqrt x + 1) := by
  refine isqrtFrom_spec x _ 0 (by simp) ?_
  have h : x < 2 ^ (Nat.log2 x + 1) := Nat.lt_log2_self
  refine lt_of_lt_of_le h ?_
  rw [Nat.zero_add, ← pow_add]
  exact Nat.pow_le_pow_right (by norm_num) (by omega)

theorem fSqrt_rounds (code mode a : Nat) (x : ℝ) (hmode : mode < 4) (ha : IsReal (decodeF code a) x) (hx : 0 ≤ x) :
    RoundsTo code mode (√x) (fSqrt code mode a) := by
  unfold fSqrt
  generalize decodeF code a = v at *
  cases v with
  | nan => exact ha.elim
  | inf => exact ha.elim
  | fin neg m e =>
    have ha' := ha
    rw [isReal_fin] at ha
    simp only [beq_iff_eq]
    by_cases hm : m = 0
    · rw [if_pos hm]
      have : x = 0 := by rw [ha, hm]; simp
      subst this
      rw [Real.sqrt_zero]; exact encodeF_rounds code mode _ _ hmode ha'
    · rw [if_neg hm]
      have hmp : 0 < m := Nat.pos_of_ne_zero hm
      have hmR : (0 : ℝ) < m := by exact_mod_cast hmp
      have hneg : neg = false := by
        cases neg
        · rfl
        · have : (0 : ℝ) < m * 2 ^ e := by positivity
          simp only [if_true] at ha; linarith
      subst hneg
      simp only [Bool.false_eq_true, if_false, one_mul] at ha ⊢
      set M := (if (e % 2 != 0) = true then 2 * m else m) with hM
      set H : Int := (if (e % 2 != 0) = true then e - 1 else e) / 2 with hH
      set K := (fmtBits code).2 + 4 with hK
      have hMp : 0 < M := by rw [hM]; split_ifs <;> omega
      have hxM : x = M * 2 ^ (2 * H) := by
        rw [ha]
        by_cases ho : e % 2 = 0
        · have e1 : (e % 2 != 0) = false := by simp [ho]
          have : 2 * H = e := by rw [hH, e1]; simp; omega
          rw [this, hM, e1]; simp
        · have e1 : (e % 2 != 0) = true := by simpa using ho
          have : 2 * H = e - 1 := by rw [hH, e1]; simp; omega
          rw [this, hM, e1, zpow_sub_one₀ two_ne_zero]; simp; ring
      obtain ⟨q1, q2⟩ := isqrt_spec (M * 2 ^ (2 * K))
      set r := isqrt (M * 2 ^ (2 * K)) with hr
      have hz : (0 : ℝ) < 2 ^ (H - (K : Nat)) := by positivity
      have hsq : x = (M * 2 ^ (2 * K) : Nat) * (2 ^ (H - (K : Nat))) ^ 2 := by
        rw [hxM, ← zpow_natCast, ← zpow_mul]
        push_cast
        rw [← zpow_natCast, mul_assoc, ← zpow_add₀ two_ne_zero]
        congr 2; push_cast; ring
      have hlog : (fmtBits code).2 + 4 ≤ Nat.log2 r := by
        have h1 : 2 ^ (2 * K) ≤ M * 2 ^ (2 * K) := Nat.le_mul_of_pos_left _ hMp
        have h2 : 2 ^ K * 2 ^ K < (r + 1) * (r + 1) := by rw [← pow_add, ← two_mul]; omega
        have h3 : 2 ^ K < r + 1 := by
          by_contra h; push Not at h
          exact absurd (Nat.mul_le_mul h h) (by omega)
        have hp : 0 < 2 ^ K := by positivity
        exact (Nat.le_log2 (by omega)).2 (by rw [← hK]; omega)
      have hr0 : 0 < r := by
        rcases Nat.eq_zero_or_pos r with h | h
        · rw [h] at hlog; simp at hlog
        · exact h
      have q1R : (r : ℝ) * r ≤ (M * 2 ^ (2 * K) : Nat) := by exact_mod_cast q1
      have q2R : ((M * 2 ^ (2 * K) : Nat) : ℝ) < (r + 1) * (r + 1) := by exact_mod_cast q2
      have hx0 : (0 : ℝ) ≤ √x := Real.sqrt_nonneg x
      have hrnd := roundF_rounds code mode false r (H - (K : Nat)) (r * r != M * 2 ^ (2 * K)) (√x) hmode hr0 ?_ ?_ ?_ ?_
      · simpa using hrnd
      · apply Real.le_sqrt_of_sq_le
        rw [hsq, mul_pow]
        exact mul_le_mul_of_nonneg_right (by rw [pow_two]; exact q1R) (by positivity)
      · rw [Real.sqrt_lt' (by positivity), hsq, mul_pow]
        exact mul_lt_mul_of_pos_right (by rw [pow_two]; exact q2R) (by positivity)
      · rw [bne_iff_ne, ne_eq, ne_eq, not_iff_not]
        constructor
        · intro h
          rw [hsq, ← h, Nat.cast_mul, show (r : ℝ) * r * (2 ^ (H - (K : Nat))) ^ 2 = (r * 2 ^ (H - (K : Nat))) ^ 2 by ring]
          exact Real.sqrt_sq (by positivity)
        · intro h
          have h2 : x = (r * 2 ^ (H - (K : Nat)) : ℝ) ^ 2 := by rw [← h, Real.sq_sqrt hx]
          rw [hsq, mul_pow] at h2
          have h3 := mul_right_cancel₀ (by positivity) h2
          rw [pow_two] at h3
          exact_mod_cast h3.symm
      · intro _; omega

theorem intToF_rounds (code mode : Nat) (i : Int) (f : Nat) (hmode : mode < 4) : RoundsTo code mode ((i : ℝ) * 2 ^ (-(f : Int))) (intToF code mode i f) := by
  unfold intToF
  by_cases h : i = 0
  · subst h
    have := zero_rounds code mode false
    simpa using this
  · rw [if_neg (by simpa using h)]
    have e : (i : ℝ) = (if decide (i < 0) = true then -1 else 1) * (i.natAbs : ℝ) := by
      rw [Nat.cast_natAbs]
      rcases lt_or_gt_of_ne h with h | h
      · rw [abs_of_neg h]; simp [h]
      · rw [abs_of_pos h]; simp [h.le]
    rw [e, mul_assoc]
    have hz : (0 : ℝ) < 2 ^ (-(f : Int)) := by positivity
    exact roundF_rounds code mode _ _ _ false _ hmode (Int.natAbs_pos.2 h) le_rfl (by nlinarith) (by simp) (by simp)

theorem fCvt_rounds (src dst mode a : Nat) (x : ℝ) (hmode : mode < 4) (ha : IsReal (decodeF src a) x) : RoundsTo dst mode x (fCvt src dst mode a) := by
  have : fCvt src dst mode a = encodeF dst mode (decodeF src a) := by
    simp only [fCvt, (sigFlag_real _ _ ha).1]; exact Prod.ext rfl (Nat.or_zero _)
  rw [this]; exact encodeF_rounds dst mode _ _ hmode ha

theorem ltV_real (a b : FV) (x y : ℝ) (ha : IsReal a x) (hb : IsReal b y) : ltV a b = true ↔ x < y := by
  cases a with
  | nan => exact ha.elim
  | inf => exact ha.elim
  | fin n m e =>
    cases b with
    | nan => exact hb.elim
    | inf => exact hb.elim
    | fin n' m' e' =>
      rw [isReal_fin] at ha hb
      show decide (signed n (m * pow2 (e - min e e')) < signed n' (m' * pow2 (e' - min e e'))) = true ↔ _
      set g := min e e'
      have key : ∀ (n : Bool) (m : Nat) (f : Int), g ≤ f →
          ((signed n (m * pow2 (f - g)) : Int) : ℝ) * 2 ^ g = (if n then -1 else 1) * (m * 2 ^ f) := by
        intro n m f hf
        have h1 : ((pow2 (f - g) : Nat) : ℝ) * 2 ^ g = 2 ^ f := by
          unfold pow2
          push_cast
          rw [← zpow_natCast, ← zpow_add₀ two_ne_zero]
          congr 1; omega
        unfold signed
        cases n
        · simp only [Bool.false_eq_true, if_false, one_mul]; push_cast; rw [mul_assoc, h1]
        · simp only [if_true, neg_mul, one_mul]; push_cast; rw [neg_mul, mul_assoc, h1]
      rw [decide_eq_true_iff, ha, hb, ← key n m e (min_le_left _ _), ← key n' m' e' (min_le_right _ _)]
      rw [mul_lt_mul_iff_left₀ (by positivity)]
      exact Int.cast_lt.symm

theorem valToInt_rounds (mode : Nat) (v : FV) (x : ℝ) (f : Nat) (lo hi : Int) (hmode : mode < 4) (h : IsReal v x) :
    ∃ j : Int, let y := x * 2 ^ f
      (mode = 0 → |j - y| ≤ 1 / 2 ∧ (|j - y| = 1 / 2 → j % 2 = 0)) ∧ (mode = 1 → 0 ≤ j * y ∧ |(j : ℝ)| ≤ |y| ∧ |y| < |(j : ℝ)| + 1) ∧
      (mode = 2 → y ≤ j ∧ j < y + 1) ∧ (mode = 3 → j ≤ y ∧ y < j + 1) ∧
      valToInt mode v f lo hi = (if j < lo then (lo, flSAT + flNX) else if hi < j then (hi, flSAT + flNX) else (j, (valToInt mode v f lo hi).2)) ∧
      (lo ≤ j → j ≤ hi → ((valToInt mode v f lo hi).2 = 0 ↔ (j : ℝ) = y) ∧ ((valToInt mode v f lo hi).2 = flNX ↔ (j : ℝ) ≠ y)) := by
  cases v with
  | nan => exact h.elim
  | inf => exact h.elim
  | fin neg man exp =>
    rw [isReal_fin] at h
    set T : ℝ := man * 2 ^ (exp + (f : Nat)) with hT
    have hT0 : 0 ≤ T := by positivity
    have hy : x * 2 ^ f = (if neg then -1 else 1) * T := by
      rw [h, hT, zpow_add₀ two_ne_zero, zpow_natCast]; ring
    have hz : (0 : ℝ) < 2 ^ (exp + (f : Nat)) := by positivity
    obtain ⟨q, q1, q2, q3, q4⟩ := roundMag_spec mode neg man (exp + (f : Nat)) false T le_rfl (by rw [hT]; nlinarith) (by simp [hT]) (by simp)
    set R := roundMag mode neg man (exp + (f : Nat)) false with hR
    have hv : valToInt mode (.fin neg man exp) f lo hi = if signed neg R.1 < lo then (lo, flSAT + flNX) else if hi < signed neg R.1 then (hi, flSAT + flNX)
        else (signed neg R.1, if R.2 then flNX else 0) := rfl
    refine ⟨signed neg R.1, ?_⟩
    have hj : ((signed neg R.1 : Int) : ℝ) = (if neg then -1 else 1) * (R.1 : ℝ) := by
      unfold signed; cases neg <;> simp
    have abss : ∀ z : ℝ, |(if neg then -1 else 1 : ℝ) * z| = |z| := by intro z; rw [abs_mul]; cases neg <;> simp
    have q0 : (0 : ℝ) ≤ q := Nat.cast_nonneg q
    have hex : (R.2 = true) ↔ ((R.1 : Nat) : ℝ) ≠ T := by
      rw [q3]
      rcases q4 with ⟨e, _⟩ | ⟨e, e', _⟩
      · rw [e]; exact ⟨fun h h' => h h'.symm, fun h h' => h h'.symm⟩
      · rw [e]; push_cast
        exact ⟨fun _ h' => by linarith, fun _ => e'⟩
    have heq : ((signed neg R.1 : Int) : ℝ) = (if neg then -1 else 1) * T ↔ ((R.1 : Nat) : ℝ) = T := by
      rw [hj]; cases neg <;> simp
    simp only [hy]
    refine ⟨fun m => ?_, fun m => ?_, fun m => ?_, fun m => ?_, ?_, fun h1 h2 => ?_⟩
    · rw [hj, ← mul_sub, abss]
      have par : signed neg R.1 % 2 = 0 ↔ R.1 % 2 = 0 := by unfold signed; cases neg <;> simp <;> omega
      rw [par]
      rcases q4 with ⟨e, h' | h' | h' | h' | ⟨-, h', h''⟩⟩ | ⟨e, e', h' | h' | ⟨-, h', h''⟩⟩
      · rw [e, h', sub_self, abs_zero]; norm_num
      · omega
      · omega
      · omega
      · rw [e, abs_sub_comm, abs_of_nonneg (by linarith)]; exact ⟨h', h''⟩
      · omega
      · omega
      · rw [e, abs_of_nonneg (by push_cast; linarith)]
        push_cast
        refine ⟨by linarith, fun h => ?_⟩
        have := h'' (by linarith); omega
    · have e : R.1 = q := by
        rcases q4 with ⟨e, _⟩ | ⟨_, _, h | h | h⟩
        · exact e
        all_goals omega
      rw [hj, abss, abss, e, abs_of_nonneg q0, abs_of_nonneg hT0]
      refine ⟨?_, q1, q2⟩
      have : (if neg then -1 else 1 : ℝ) * q * ((if neg then -1 else 1) * T) = q * T := by cases neg <;> simp
      rw [this]; exact mul_nonneg q0 hT0
    · rw [hj]
      rcases q4 with ⟨e, h' | h' | h' | h' | ⟨h', -⟩⟩ | ⟨e, e', h' | h' | ⟨h', -⟩⟩
      · rw [e, h']; constructor <;> linarith
      · omega
      · rw [e, h'.2]; simp only [if_true, neg_mul, one_mul]; constructor <;> linarith
      · omega
      · omega
      · rw [e, h'.2]; push_cast; simp only [Bool.false_eq_true, if_false, one_mul]
        have : (q : ℝ) < T := lt_of_le_of_ne q1 (Ne.symm e')
        constructor <;> linarith
      · omega
      · omega
    · rw [hj]
      rcases q4 with ⟨e, h' | h' | h' | h' | ⟨h', -⟩⟩ | ⟨e, e', h' | h' | ⟨h', -⟩⟩
      · rw [e, h']; constructor <;> linarith
      · omega
      · omega
      · rw [e, h'.2]; simp only [Bool.false_eq_true, if_false, one_mul]; constructor <;> linarith
      · omega
      · omega
      · rw [e, h'.2]; push_cast; simp only [if_true, neg_mul, one_mul]
        have : (q : ℝ) < T := lt_of_le_of_ne q1 (Ne.symm e')
        constructor <;> linarith
      · omega
    · rw [hv]; split_ifs <;> rfl
    · rw [hv, if_neg (by omega), if_neg (by omega)]
      simp only [ne_eq, heq]
      cases hr : R.2
      · have : ((R.1 : Nat) : ℝ) = T := by by_contra hc; have := hex.2 hc; rw [hr] at this; cases this
        simp [this, flNX]
      · have := hex.1 hr
        simp [this, flNX]

end Sys2Proof.Machine
end

