-- ==== Sys2Proof/Tests/Slice0.lean ====
section
/-! SUPPORT. Tests: words of spec/ and their instructions, ill-formed terms that WellFormed refuses and words that the decoder refuses, and
single steps on small states. Expected values come from the spec's tables and examples. -/

namespace Sys2Proof.Test

open Machine

/-! ## States -/

/-- A core that runs a task at 0x1000 with the registers given. -/
def core (g : SMap W64) : Core := { Core.reset with run := .task, pc := 0x1000, regs := { Regs.reset with g := g } }
/-- The machine after reset but for core 0. -/
def on (c : Core) : State := { State.reset with cores := [(0, c)] }
/-- What i leaves of s; s itself where i stops. -/
def after (i : Instr) (s : State) : State := match exec i s with | .next t => t | _ => s
/-- No guard: p0. -/
abbrev g0 : Guard := ⟨0, 0⟩

/-! ## Words that the spec writes out (03 R60 to R90; 05, 06, 13, 17, 18, 19) -/

theorem test_words_scalar :
    decodeSlot .i 0x01010414 none = .ok (.add g0 4 4 5) ∧ decodeSlot .i 0x0301C001 none = .ok (.addi g0 7 0 1 none) ∧
    decodeSlot .i 0x54024000 (some 0x1010) = .ok (.sethi g0 9 0 0 (some 0x1010)) ∧
    decodeSlot .i 0x03424001 none = .ok (.addi ⟨2, 0⟩ 9 0 1 none) := by decide
theorem test_words_control :
    decodeSlot .c 0x08000000 none = .ok (.safe g0 0 none) ∧ decodeSlot .c 0x0A000200 none = .ok (.waitk g0 2) ∧
    decodeSlot .c 0x09000000 none = .ok (.done g0) := by decide
theorem test_words_vector :
    decodeSlot .v 0x54008000 (some 0x100) = .ok (.vbcast g0 ⟨1, 0, 0, 0, 0, some ⟨0, 0, 0, 0, 4⟩⟩) ∧
    decodeSlot .v 0x1C010400 none = .ok (.vscan g0 ⟨2, 1, 0, 0, 0, none⟩) ∧
    decodeSlot .v 0x55000C00 (some 0x180) = .ok (.vext g0 ⟨0, 3, 0, 0, 0, some ⟨0, 0, 0, 0, 6⟩⟩) := by decide
theorem test_words_matrix :
    decodeSlot .m 0x46004000 (some 0x00402000) = .ok (.mtriLi g0 ⟨1, 0, 0, 0, 0⟩ 1 0 1) ∧
    decodeSlot .m 0x41008101 (some 0x00046404) = .ok (.mma g0 ⟨2, 1, 0, 1, 0⟩ 0 1 1 1 0 0 1 0 1 0 0) ∧
    decodeSlot .m 0x4400C201 (some 0x000A0000) = .ok (.msta g0 ⟨3, 2, 0, 1, 0⟩ 0 2 1 0 0 0) ∧
    decodeSlot .m 0x50014000 (some 0x00422000) = .ok (.tbuild g0 ⟨5, 0, 0, 0, 0⟩ 2 1 0 2 0 0) ∧
    decodeSlot .m 0x51024816 (some 0x0008A233) = .ok (.tlookR g0 ⟨9, 8, 5, 2, 0⟩ 0 2 2 2 0 3 3) := by decide
theorem test_words_engines :
    decodeSlot .x 0x46C08000 (some 0x00A460E8) = .ok (.tgath ⟨6, 0⟩ ⟨2, 0, 0, 0, 0⟩ 5 2 12 29) ∧
    decodeSlot .x 0x52004000 (some 0x00494400) = .ok (.rfaa g0 ⟨1, 0, 0, 0, 0⟩ 9 10 8) ∧
    decodeSlot .x 0x5100C000 (some 0x00020700) = .ok (.rst g0 ⟨3, 0, 0, 0, 0⟩ 16 14) ∧
    decodeSlot .x 0x54014000 (some 0x00024040) = .ok (.rfenceFDec g0 ⟨5, 0, 0, 0, 0⟩ 18) ∧
    decodeSlot .x 0x5A004000 (some 0x00022840) = .ok (.tdecbArm g0 ⟨1, 0, 0, 0, 0⟩ 17 16) ∧
    -- TREL t1, q2: OP 0x09, tp 19:14, Q 24:21 (10 R252)
    decodeSlot .x 0x49004000 (some 0x00400000) = .ok (.trel g0 ⟨1, 0, 0, 0, 0⟩ 2) := by decide
theorem test_words_memory :
    decodeSlot .l 0x0703C701 none = .ok (.ldD g0 15 7 1 none) ∧ decodeSlot .l 0x0B421200 none = .ok (.stD ⟨2, 0⟩ 8 18 0 none) ∧
    decodeSlot .l 0x17004901 none = .ok (.twr g0 1 9 1 none) ∧ decodeSlot .l 0x3F000000 none = .ok (.idleL g0) := by decide
theorem test_headers :
    (headerOf 0xF0000000).slots = [.c, .i0, .i1] ∧ (headerOf 0xB2000000).slots = [.i0, .i1, .m] ∧
    headerOf 0x80400000 = ⟨0, 8, 0, 0, 0, 0, 0⟩ ∧ soleHeader .l = 0x80800000 ∧ soleHeader .c = 0xC0000000 := by decide

/-! ## What the decoder refuses (03 R64, R68) -/

theorem test_refused_words :
    -- LOOPI with an end offset of 0; WAITK of a range 3 to 2; a p register of 9; BITC with fn 3
    (decodeSlot .c 0x07000500 none).toOption = none ∧ (decodeSlot .c (0x0A000001 + 3 * 256 + 2 * 4) none).toOption = none ∧
    (decodeSlot .i (0x1E000000 + 9 * 16384) none).toOption = none ∧ (decodeSlot .i 0x15000003 none).toOption = none ∧
    -- an unassigned opcode; an extension word where none is allowed; a missing one; a lane group of 0b11
    (decodeSlot .i 0x3E000000 none).toOption = none ∧ (decodeSlot .c 0x49000000 (some 0)).toOption = none ∧
    (decodeSlot .m 0x01000000 none).toOption = none ∧ (decodeSlot .v 0x3F000003 none).toOption = none := by decide

/-! ## What WellFormed refuses, one term for each check -/

/-- A vector operation on d, a, b, k with the extension fields given. -/
def vop (d a b k lg fmt rm c i8 g : Nat) : VOp := ⟨d, a, b, k, lg, some ⟨fmt, rm, c, i8, g⟩⟩
theorem test_ill_formed_guards_and_edges :
    (Instr.done ⟨8, 0⟩).wf = false ∧ (Instr.done ⟨0, 2⟩).wf = false ∧ (Instr.trel g0 ⟨64, 0, 0, 0, 0⟩ 0).wf = false ∧
    (Instr.trel g0 ⟨1, 2, 0, 0, 0⟩ 0).wf = false ∧ (Instr.trel g0 ⟨1, 1, 0, 1, 0⟩ 0).wf = false ∧
    (Instr.trel g0 ⟨1, 2, 3, 2, 4⟩ 0).wf = false ∧ (Instr.trel g0 ⟨1, 2, 3, 3, 1⟩ 0).wf = false := by decide
theorem test_ill_formed_scalar :
    (Instr.add g0 64 0 0).wf = false ∧ (Instr.addi g0 1 1 256 none).wf = false ∧ (Instr.addi g0 1 1 0 (some (2 ^ 31))).wf = false ∧
    (Instr.bfx g0 1 1 0 40 30).wf = false ∧ (Instr.bfi g0 1 1 63 1).wf = false ∧ (Instr.cmpeq g0 8 0 0).wf = false ∧
    (Instr.pand g0 1 8 1).wf = false ∧ (Instr.qmov g0 16 0).wf = false ∧ (Instr.qadd g0 1 1 0 1 (some 1)).wf = false ∧
    (Instr.fadd g0 1 1 1 2 none).wf = false ∧ (Instr.fcvtFp g0 1 1 7 0 0).wf = false ∧ (Instr.fcvtToI64 g0 1 1 63 0 0).wf = false ∧
    (Instr.zchk g0 1 16).wf = false := by decide
theorem test_ill_formed_control :
    (Instr.br g0 (2 ^ 20) none).wf = false ∧ (Instr.loop g0 1 0 none).wf = false ∧ (Instr.waitkRange g0 3 2).wf = false ∧
    (Instr.safe g0 255 (some 255)).wf = false ∧ (Instr.trap g0 1 (some 128)).wf = false ∧ (Instr.csrr g0 1 0x0F).wf = false := by decide
theorem test_ill_formed_vector :
    (Instr.vadd g0 ⟨0, 0, 0, 0, 3, none⟩).wf = false ∧ (Instr.vadd g0 (vop 0 0 0 0 0 3 0 0 0 0)).wf = false ∧
    (Instr.vadd g0 (vop 0 0 0 0 0 0 0 1 0 0)).wf = false ∧ (Instr.vmul g0 (vop 0 0 0 0 0 15 0 0 0 0)).wf = false ∧
    (Instr.vfma g0 ⟨0, 0, 0, 0, 0, none⟩).wf = false ∧ (Instr.vabs g0 (vop 0 0 1 0 0 0 0 0 0 0)).wf = false ∧
    (Instr.vand g0 (vop 0 0 0 0 0 9 0 0 0 0)).wf = false ∧ (Instr.vshl g0 (vop 0 0 0 0 0 0 0 0 0 0)).wf = false ∧
    (Instr.vcmp g0 (vop 8 0 0 0 0 0 0 0 0 0)).wf = false ∧ (Instr.vsel g0 (vop 0 0 0 0 0 0 0 0 1 0)).wf = false ∧
    (Instr.vmov g0 (vop 0 0 1 0 0 0 0 0 0 0)).wf = false ∧ (Instr.vperm g0 (vop 0 0 0 0 0 7 0 0 0 0)).wf = false ∧
    (Instr.vslide g0 (vop 0 0 0 0 0 0 0 0 33 0)).wf = false ∧ (Instr.vpack g0 (vop 0 0 0 0 0 1 0 0 0 0)).wf = false ∧
    (Instr.vunpk g0 (vop 0 0 1 0 0 0 0 0 0 0)).wf = false := by decide
theorem test_ill_formed_vector_more :
    (Instr.vbcast g0 ⟨0, 0, 0, 0, 0, none⟩).wf = false ∧ (Instr.vext g0 (vop 1 0 0 0 0 0 0 0 0 0)).wf = false ∧
    (Instr.vcvt g0 (vop 0 0 0 0 0 7 0 0 0 0)).wf = false ∧ (Instr.vqnt g0 (vop 1 0 0 0 0 8 0 1 0 0)).wf = false ∧
    (Instr.vdq g0 (vop 0 0 0 0 0 0 0 0 0 0)).wf = false ∧ (Instr.vamax g0 (vop 0 0 0 0 0 3 0 0 0 0)).wf = false ∧
    (Instr.vspec g0 (vop 0 0 0 0 0 0 0 0 11 0)).wf = false ∧ (Instr.vred g0 (vop 0 0 1 0 0 0 0 0 0 0)).wf = false ∧
    (Instr.vred g0 (vop 0 0 0 0 0 0 0 0 32 0)).wf = false ∧ (Instr.vscan g0 (vop 0 0 0 0 0 0 0 0 32 0)).wf = false ∧
    (Instr.vmatch g0 ⟨0, 0, 0, 0, 0, none⟩).wf = false ∧ (Instr.klog g0 (vop 8 0 0 0 0 0 0 0 0 0)).wf = false ∧
    (Instr.kmov g0 (vop 0 0 0 0 0 0 0 0 4 0)).wf = false := by decide
theorem test_ill_formed_commands :
    (Instr.mma g0 ⟨1, 0, 0, 0, 0⟩ 2 2 0 1 0 0 0 0 0 0 0).wf = false ∧ (Instr.mzero g0 ⟨1, 0, 0, 0, 0⟩ 0).wf = false ∧
    (Instr.mtriLi g0 ⟨1, 0, 0, 0, 0⟩ 0 1 1).wf = false ∧ (Instr.tbuild g0 ⟨1, 0, 0, 0, 0⟩ 0 0 0 0 0 1).wf = false ∧
    (Instr.tlook g0 ⟨1, 0, 0, 0, 0⟩ 0 0 0 0 0 0 0).wf = false ∧ (Instr.zsave g0 ⟨1, 0, 0, 0, 0⟩ 0 0 1 0).wf = false ∧
    (Instr.zinv g0 ⟨1, 0, 0, 0, 0⟩ 0).wf = false ∧ (Instr.cbld g0 ⟨1, 0, 0, 0, 0⟩ 0 0 17).wf = false ∧
    (Instr.tfetch g0 ⟨1, 0, 0, 0, 0⟩ 0 8).wf = false ∧ (Instr.thint g0 ⟨1, 0, 0, 0, 0⟩ 0 1 1).wf = false ∧
    (Instr.tred g0 ⟨1, 0, 0, 0, 0⟩ 0 0 6).wf = false ∧ (Instr.amo g0 0 0 0 12 0 0).wf = false ∧
    (Instr.cas g0 1 0 0 2 0 0).wf = false ∧ (Instr.gath g0 0 0 0 0 4 0).wf = false := by decide

/-! ## Single steps -/

/-- 00_scope: 2^64 - 1 and 2 sum to 1. -/
theorem test_add_wraps : (after (.add g0 3 1 2) (on (core [(1, 0xFFFFFFFFFFFFFFFF), (2, 2)]))).me.rg 3 = 1 := by decide
/-- R98: g0 discards a result. -/
theorem test_g0_discards : (after (.addi g0 0 0 5 none) (on (core []))).me.regs.g = [] := by decide
/-- R119: an immediate without an extension word is signed. -/
theorem test_addi_signed : (after (.addi g0 3 0 0xFF none) (on (core []))).me.rg 3 = 0xFFFFFFFFFFFFFFFF := by decide
/-- R123: the one overflow of a signed division gives the dividend, 17 steps from landing. -/
theorem test_div_overflow :
    (after (.div g0 3 1 2) (on (core [(1, 0x8000000000000000), (2, 0xFFFFFFFFFFFFFFFF)]))).me.fly = [⟨.g 3 false, 2 ^ 63, none, 17⟩] := by decide
/-- R121: a shift by a register uses bits 5:0 of it. -/
theorem test_shift_amount : (after (.shl g0 3 1 2) (on (core [(1, 3), (2, 65)]))).me.rg 3 = 6 := by decide
/-- R131: 1.5 + 2.0 in FP32 is 3.5. -/
theorem test_fadd : (after (.fadd g0 3 1 2 0 none) (on (core [(1, 0x3FC00000), (2, 0x40000000)]))).me.fly = [⟨.g 3 false, 0x40600000, none, 3⟩] := by decide
/-- R57 as 06 runs it: 1, 2, 3, 4, 5 and 27 lanes of -0 sum to 15 without a rounding. -/
theorem test_tree_reduction :
    treeReduce (redOpOf (.flt 0) 0) 5 ([0x3F800000, 0x40000000, 0x40400000, 0x40800000, 0x40A00000] ++ List.replicate 27 0x80000000) =
      (0x41700000, 0) := by decide
/-- R172's example: key 3 adds 2^24, 1, 1 and 2 in lane order to 16,777,218, inexactly. -/
theorem test_match_fold : foldGroup (redOpOf (.flt 0) 0) 0x4B800000 [0x3F800000, 0x3F800000, 0x40000000] = (0x4B800001, 1) := by decide
/-- R138: BR by 5 words from 0x1000 goes to 0x1014 with 2 stall cycles. -/
theorem test_branch : let t := after (.br g0 5 none) (on (core [])); (t.me.pc, t.me.via, t.me.tCyc) = (0x1014, .target, 3) := by decide
/-- R140: LOOPI with count 0 skips the bundle at LEND. -/
theorem test_loop_zero : let t := after (.loopi g0 0 7 none) (on (core [])); (t.me.pc, t.me.via, t.me.csr.lend) = (0x101C, .skip, 0x101C) := by decide
/-- R147, R292: TRAP 5 at TVEC 0x2000 enters the handler with the code in FLTCODE. -/
theorem test_trap_enters :
    let t := after (.trap g0 5 none) (on { core [] with csr := { Csr.reset with tvec := 0x2000 } })
    (t.me.pc, t.me.csr.status, t.me.csr.fltcode, t.me.csr.fltmask) = (0x2000, 1, 0x80050002, 0x80) := by decide
/-- R149: ERET in task mode raises PRIV, cause 4. -/
theorem test_eret_in_task : (after (.eret g0) (on { core [] with csr := { Csr.reset with tvec := 0x2000 } })).me.csr.fltcode = 0x00040004 := by decide
/-- R226: an LD.D at address 4 faults ALIGN with the address. -/
theorem test_misaligned_load :
    let t := after (.ldD g0 3 1 0 none) (on { core [(1, 4)] with csr := { Csr.reset with tvec := 0x2000 } })
    (t.me.csr.fltcode, t.me.csr.fltaddr) = (5, 4) := by decide
/-- R144: WAITK of a FREE token raises TOKEN, cause 1. -/
theorem test_waitk_free : (after (.waitk g0 3) (on { core [] with csr := { Csr.reset with tvec := 0x2000 } })).me.csr.fltcode = 0x0001000E := by decide
/-- R250: an enqueued command's token is PENDING. -/
theorem test_enqueue : ((after (.mzero g0 ⟨7, 0, 0, 0, 0⟩ 1) (on (core []))).me.tok 7).st = .pending := by decide
/-- A step fetches and runs the instruction that withFetchWord places. -/
theorem test_step_runs_word : (match step (State.reset.withFetchWord 32 0x03014001) with | .next t => t.me.rg 5 | _ => 0) = 1 := by decide
/-- R387: a doorbell one past CIDX is taken. -/
theorem test_doorbell : ((after (.doorbell 1 0 1) State.reset).qcb 17).pidx = 1 := by decide
/-- R372: PTIME advances. -/
theorem test_ptime : (after .ptimeAdvance State.reset).dev.ptime = 1 := by decide

end Sys2Proof.Test
end

