-- ==== Sys2Proof/Tests/WitnessMemory.lean ====
section
/-! SUPPORT. States that meet the hypotheses of the statements about memory instructions, frames and atomics. -/

namespace Sys2Proof.Test

open Machine

set_option Elab.async false

/-! ## States -/

/-- Core 0 with cached translations: page 0 at local memory, page 1 at host memory, page 2 at a remote device, page 3 at no target. Nothing
else is mapped. -/
def mapped (c : Core) : State :=
  let x (page target perm : Nat) : Xl := ⟨0, 0, page, target, perm, 0, 0, 0⟩
  { on c with xlats := [x 0 0 7, x 1 0x4000000000 7, x 2 0x8000000000 7, x 3 0x800000 7, x 4 4 1] }
/-- g1 holds an address. -/
abbrev at1 (a : W64) : State := mapped (core [(1, a), (2, 0x1122334455667788)])
/-- A region over 0 to 0xFFF with its word at 0x2000, in a region table at 0x8000. -/
def region (s : State) : State :=
  ((s.updPart 0 (fun p => p.setFld 0x60 8 0x8000)).wrMem 0x8008 8 0x1000).wrMem 0x8010 8 0x2000 |>.wrMem 0x8018 1 1
/-- Identifier 1: FP32, 64 by 64 elements at 0x0 in one tile of shape 2, in a descriptor table of 4 entries at 0x9000; it may be written when we is 1. -/
def tensor (we : Nat) (s : State) : State :=
  let s := s.updPart 0 (fun p => (p.setFld 0x50 8 0x9000).setFld 0x58 4 4)
  ((((s.wrMem 0x9089 1 (0x21 + 2 * we)).wrMem 0x9090 4 64).wrMem 0x9094 4 64).wrMem 0x9098 8 0x100000001).wrMem 0x90A0 8 4 |>.wrMem 0x90A8 8 256
/-- The tile of identifier 1 at the origin, and its q value. -/
def tile1 : Tile := ⟨0, 1, 0⟩
abbrev q1 : Nat := 2 ^ 44
/-- A frame of cluster 0 holds the tile. -/
def framed (st : FrSt) (ver : Nat) (s : State) : State := s.setFrame 0 16 { Frame.reset 16 with tile := tile1, st := st, ver := ver }

/-! ## Loads and stores -/

/-- Every plain access, with a boundary displacement. -/
abbrev accesses : List Instr :=
  [.ldB g0 3 1 0 none, .ldBs g0 3 1 0 none, .ldH g0 3 1 0 none, .ldHs g0 3 1 0 none, .ldW g0 3 1 0 none, .ldWs g0 3 1 0 none, .ldD g0 3 1 0 none,
   .ldv g0 3 1 0 none, .stB g0 2 1 0 none, .stH g0 2 1 0 none, .stW g0 2 1 0 none, .stD g0 2 1 0 none, .stv g0 2 1 0 none,
   .ldx g0 3 1 0 none, .acq g0 3 1 0 none, .rel g0 2 1 0 none]
theorem witness_AccessFaults_ready : ∀ i ∈ accesses, ∀ s ∈ [at1 1, at1 0x20000, at1 0x50000], ReadyL i s := by decide
theorem witness_AccessFaults :
    ((at1 1).me.ea 1 0 none 2 % 2 ≠ 0 ∧ (at1 1).me.ea 1 0 none 128 % 128 ≠ 0) ∧
      ((at1 0x50000).me.ea 1 0 none 128 % 128 = 0 ∧ (at1 0x50000).xlate 0 0 0x50000 accR = .error ⟨6, 3, 0x50000⟩) ∧
      (at1 0x40000).xlate 0 0 0x40000 accW = .error ⟨7, 1, 0x40000⟩ ∧
      ((at1 0x20000).xlate 0 0 0x20000 accR = .ok ⟨0x80000000000000, 7, 0, 0⟩ ∧ paKind 0x80000000000000 = .remote) ∧
      ((at1 0x30000).xlate 0 0 0x30000 accR = .ok ⟨0x8000000000, 7, 0, 0⟩ ∧ paKind 0x8000000000 = .none) := by decide
theorem witness_PlainLoadsAndStores :
    ((at1 0).me.ea 1 0 none 128 = 0 ∧ (at1 0).xlate 0 0 0 accW = .ok ⟨0, 7, 0, 0⟩ ∧ paKind 0 = .localHbm ∧ ∀ k, k < 8 → (at1 0).regionOf 0 (0 + k) = none) ∧
      ((at1 0x10000).xlate 0 0 0x10000 accR = .ok ⟨0x40000000000000, 7, 0, 0⟩ ∧ paKind 0x40000000000000 = .host) := by decide
theorem witness_PlainLoadsAndStores_ready : ∀ i ∈ accesses.take 13, ReadyL i (at1 0) ∧ ReadyL i (at1 0x10000) := by decide
/-- Core 0 with one store of two bytes at a point of its way, and a load. -/
def storing (pa : Nat) (at_ : PortAt) : State :=
  on { core [] with mq := [.store 0 pa 0x100 [1, 2] at_], loads := [⟨.g 9 false, [.mem 0x200 0x200, .known 5], 2, none, 1, true, false⟩] }
theorem witness_AccessesPerformed :
    (∀ pa ∈ [0x100, 0x40000000000100], ∀ p ∈ [PortAt.core, .cluster 0, .host 0 1], let s := storing pa p
      (s.core 0).mq[0]? = some (.store 0 pa 0x100 [1, 2] p) ∧ s.mayPerform 0 (.store 0 pa 0x100 [1, 2] p) = true ∧
        s.behind (clusterOf 0) (some 0) (.store 0 pa 0x100 [1, 2] p) = false ∧ s.mayInject (s.core 0).csr.partid.toNat pa = true ∧
        s.hostBehind 1 (.store 0 pa 0x100 [1, 2] p) = false) ∧ paKind 0x40000000000100 = .host ∧ paKind 0x100 ≠ .host ∧
    (let s := storing 0x100 .core
     let l : PLoad := ⟨.g 9 false, [.mem 0x200 0x200, .known 5], 2, none, 1, true, false⟩
     (s.core 0).loads[0]? = some l ∧ s.mayReturn 0 l = true ∧ s.mayInject 0 0x200 = true) := by decide
/-- A CLEAN L0 line of address 0. -/
def line0 (st : L0St) (c : Core) : Core := c.setLine 0 ⟨0, st, 0, 0, List.replicate 64 7⟩
theorem witness_RegionLines :
    ∀ s ∈ [region (mapped (line0 .clean (core [(1, 56)]))), region (mapped (line0 .dirty (core [(1, 56)])))],
      s.me.ea 1 0 none 8 = 56 ∧ 56 % 8 = 0 ∧ s.xlate 0 0 56 accR = .ok ⟨56, 7, 0, 0⟩ ∧ s.xlate 0 0 56 accW = .ok ⟨56, 7, 0, 0⟩ ∧ paKind 56 = .localHbm ∧
        (s.regionOf 0 56).isSome = true ∧ s.me.findLine 56 = some 0 ∧ (s.me.line 0).st ≠ .ro ∧ s.lineBusy 0 56 = false ∧
        ∀ i ∈ accesses.take 7 ++ (accesses.take 12).drop 8, ReadyL i s := by decide
theorem witness_RegionLines_miss :
    ∀ s ∈ [region (at1 56), region (mapped (line0 .ro (core [(1, 56)])))],
      s.me.ea 1 0 none 8 = 56 ∧ s.xlate 0 0 56 accR = .ok ⟨56, 7, 0, 0⟩ ∧ s.xlate 0 0 56 accW = .ok ⟨56, 7, 0, 0⟩ ∧ (s.regionOf 0 56).isSome = true ∧
        ((s.me.findLine 56).isNone = true ∨ s.me.findLine 56 = some 0 ∧ (s.me.line 0).st = .ro) ∧ s.lineBusy 0 56 = false ∧
        ReadyL (.ldD g0 3 1 0 none) s ∧ ReadyL (.stB g0 2 1 0 none) s := by decide
/-- Lines 0 and 1 stand in L0, in their sets. -/
def lines01 (st : L0St) : State := region (mapped ((line0 st (core [(1, 0)])).setLine 4 ⟨1, st, 0, 0, List.replicate 64 9⟩))
theorem witness_RegionLines_two :
    ∀ s ∈ [lines01 .clean, lines01 .dirty],
      s.me.ea 1 0 none 128 = 0 ∧ s.xlate 0 0 0 accR = .ok ⟨0, 7, 0, 0⟩ ∧ s.xlate 0 0 0 accW = .ok ⟨0, 7, 0, 0⟩ ∧ (s.regionOf 0 0).isSome = true ∧
        (s.regionOf 0 64).isSome = true ∧ s.me.findLine 0 = some 0 ∧ s.me.findLine 64 = some 4 ∧ (s.me.line 0).st ≠ .ro ∧ (s.me.line 4).st ≠ .ro ∧
        s.lineBusy 0 0 = false ∧ s.lineBusy 0 64 = false ∧ ReadyL (.ldv g0 3 1 0 none) s ∧ ReadyL (.stv g0 2 1 0 none) s := by decide
/-- An atomic of the core on address 0 is still to be applied. -/
abbrev busy (c : Core) : Core := { c with mq := [.amo 0 0 0 8 0 0 0 false 0], nextSeq := 1 }
theorem witness_RegionLines_busy :
    let s := region (mapped (busy (line0 .clean (core [(1, 56)]))))
    s.me.ea 1 0 none 8 = 56 ∧ s.xlate 0 0 56 accR = .ok ⟨56, 7, 0, 0⟩ ∧ s.xlate 0 0 56 accW = .ok ⟨56, 7, 0, 0⟩ ∧ (s.regionOf 0 56).isSome = true ∧
      s.me.findLine 56 = some 0 ∧ (s.me.line 0).st ≠ .ro ∧ s.lineBusy 0 56 = true ∧ ReadyL (.ldD g0 3 1 0 none) s ∧ ReadyL (.stD g0 2 1 0 none) s := by decide
/-- Lanes 0 and 1 of v5 hold indices. -/
def lanes (a b : Nat) : State := mapped { core [] with regs := { Regs.reset with g := [(1, 0)], v := [(5, BitVec.ofNat 1024 (a + 2 ^ 64 * b))], k := [(1, 0xFFFF)] } }
theorem witness_GatherScatter :
    (laneFault (lanes 8 16) 8 accR (lanesOf (lanes 8 16).me 1 5 1 3 0) = none ∧ laneFault (lanes 8 16) 8 accW (lanesOf (lanes 8 16).me 1 5 1 3 0) = none ∧
      ReadyL (.gath g0 3 1 5 1 3 0) (lanes 8 16) ∧ ReadyL (.scat g0 3 1 5 1 3 0) (lanes 8 16)) ∧
    (laneFault (lanes 0x50000 4) 8 accR (lanesOf (lanes 0x50000 4).me 1 5 1 3 0) = some ⟨5, 0, 4⟩ ∧
      laneFault (lanes 0x20000 0x50000) 8 accW (lanesOf (lanes 0x20000 0x50000).me 1 5 1 3 0) = some ⟨6, 3, 0x50000⟩ ∧
      ReadyL (.gath g0 3 1 5 1 3 0) (lanes 0x50000 4) ∧ ReadyL (.scat g0 3 1 5 1 3 0) (lanes 0x20000 0x50000)) ∧
    (1, 16) ∈ lanesOf (lanes 8 16).me 1 5 1 3 0 ∧
    (let s := lanes 8 16; lanesBusy s 8 accR (lanesOf s.me 1 5 1 3 0) = false ∧ lanesBusy s 8 accW (lanesOf s.me 1 5 1 3 0) = false) ∧
    (let s := (region (lanes 8 16)).updMe busy
     laneFault s 8 accR (lanesOf s.me 1 5 1 3 0) = none ∧ laneFault s 8 accW (lanesOf s.me 1 5 1 3 0) = none ∧
       lanesBusy s 8 accR (lanesOf s.me 1 5 1 3 0) = true ∧ lanesBusy s 8 accW (lanesOf s.me 1 5 1 3 0) = true ∧
       ReadyL (.gath g0 3 1 5 1 3 0) s ∧ ReadyL (.scat g0 3 1 5 1 3 0) s) := by decide +kernel
theorem witness_ReadOnlyAndScaleLoads :
    (∀ i ∈ [Instr.ldx g0 3 1 0 none, .ldxinv g0 1 0 none, .ldxinvAll g0, .sld g0 3 1 0 none, .pref g0 1 0 none, .prefLlc g0 1 0 none, .idleL g0],
      ReadyL i (at1 0) ∧ ReadyL i (at1 1) ∧ ReadyL i (region (at1 0))) ∧
    ((at1 0).me.ea 1 0 none 8 % 8 = 0 ∧ (at1 0).xlate 0 0 0 accR = .ok ⟨0, 7, 0, 0⟩ ∧ (at1 0).regionOf 0 0 = none) ∧
    ((at1 0x50000).xlate 0 0 0x50000 accR = .error ⟨6, 3, 0x50000⟩ ∧ ((region (at1 0)).regionOf 0 0).isSome = true) ∧
    ((at1 0).lineBusy 0 0 = false ∧ let s := (at1 0).updMe busy
      s.lineBusy 0 0 = true ∧ s.xlate 0 0 0 accR = .ok ⟨0, 7, 0, 0⟩ ∧ ReadyL (.ldx g0 3 1 0 none) s ∧ ReadyL (.sld g0 3 1 0 none) s) := by decide
theorem witness_ReadOnlyAndScaleLoads_misaligned :
    let s := mapped { core [(1, 1)] with regs := { Regs.reset with g := [(1, 1)], e := [(3, 0x80000)] } }
    fld (s.me.re 3).toNat 16 4 = 8 ∧ s.me.ea 1 0 none 2 % 2 ≠ 0 ∧ ReadyL (.sld g0 3 1 0 none) s := by decide
theorem witness_AcquireRelease :
    ∀ s ∈ [region (mapped (core [(1, 0x2000)])), region (mapped { core [(1, 0x2000)] with mq := [.store 0 0 0 [1] (.host 1 2)] })],
      s.me.ea 1 0 none 8 % 8 = 0 ∧ s.xlate 0 0 0x2000 accR = .ok ⟨0x2000, 7, 0, 0⟩ ∧ s.xlate 0 0 0x2000 accW = .ok ⟨0x2000, 7, 0, 0⟩ ∧ paKind 0x2000 = .localHbm ∧
        (s.regionWord 0 0x2000).isSome = true ∧ s.deviceDone s.cur = true ∧ s.me.loads.any PLoad.outside = false ∧ ReadyL (.acq g0 3 1 0 none) s ∧ ReadyL (.rel g0 2 1 0 none) s := by decide
theorem witness_AcquireRelease_waits :
    ∀ s ∈ [region (mapped { core [(1, 0x2000)] with mq := [.store 0 0 0 [1] (.cluster 1)] }),
        { region (mapped (core [(1, 0x2000)])) with msgs := [.rel 0 0 0x3000 0x3000 1] },
        region (mapped { core [(1, 0x2000)] with loads := [⟨.g 9 false, [.mem 8 8], 0, none, 0, true, false⟩] })],
      s.me.ea 1 0 none 8 % 8 = 0 ∧ s.xlate 0 0 0x2000 accW = .ok ⟨0x2000, 7, 0, 0⟩ ∧ (s.regionWord 0 0x2000).isSome = true ∧
        ¬ (s.deviceDone s.cur = true ∧ s.me.loads.any PLoad.outside = false) ∧ ReadyL (.rel g0 2 1 0 none) s := by decide
theorem witness_AcquireRelease_no_word :
    let s := region (mapped (core [(1, 8)]))
    s.regionWord 0 8 = none ∧ s.xlate 0 0 8 accR = .ok ⟨8, 7, 0, 0⟩ ∧ s.xlate 0 0 8 accW = .ok ⟨8, 7, 0, 0⟩ ∧ ReadyL (.acq g0 3 1 0 none) s ∧
      ReadyL (.rel g0 2 1 0 none) s := by decide

/-! ## Frames -/

/-- Core 0 with the tile's name in g1. -/
abbrev naming : Core := core [(1, 0x100000000000)]
/-- TRD and TWR of row d of the tile. -/
abbrev trd (d : Nat) : Instr := .trd g0 3 1 d none
abbrev twr (d : Nat) : Instr := .twr g0 3 1 d none
theorem witness_FrameAccess :
    (∀ st ∈ [FrSt.clean, .dirty], let s := framed st 3 (tensor 1 (on naming))
      tileOf 0 (s.me.rg 1).toNat = tile1 ∧ (∃ w, tileWindow (s.desc 0 1) tile1 (dispL 0 none 128) false = .ok w) ∧
      (∃ w, tileWindow (s.desc 0 1) tile1 (dispL 0 none 128) true = .ok w) ∧ s.me.tcFlt = none ∧ (s.hit 0 tile1).isSome = true ∧
      (s.mayWrite 0 tile1 = true ↔ st = .dirty) ∧ ReadyL (trd 0) s ∧ ReadyL (twr 0) s) := by
  refine fun st h => ?_
  rcases List.mem_cons.1 h with rfl | h
  · exact ⟨by decide, ⟨_, rfl⟩, ⟨_, rfl⟩, by decide⟩
  · rcases List.mem_singleton.1 h with rfl
    exact ⟨by decide, ⟨_, rfl⟩, ⟨_, rfl⟩, by decide⟩
/-- The tensor's page allows writes, or denies them. -/
def paged (perm : Nat) : State := { framed .dirty 3 (tensor 1 (on naming)) with xlats := [⟨1024, 0, 0, 0, perm, 0, 0, 0⟩] }
theorem witness_FrameAccess_page :
    windowDenied (paged 1) ((paged 1).desc 0 1) tile1 (.row 0) = true ∧ windowDenied (paged 7) ((paged 7).desc 0 1) tile1 (.row 0) = false ∧
      tileWindow ((paged 1).desc 0 1) tile1 (dispL 0 none 128) true = .ok (.row 0) ∧ (paged 1).mayWrite 0 tile1 = true ∧ ReadyL (twr 0) (paged 1) ∧
      ReadyL (twr 0) (paged 7) := by decide +kernel
theorem witness_FrameAccess_faults :
    let s := tensor 0 (on naming)
    (tileWindow (s.desc 0 1) tile1 (dispL 0 none 128) true = .error ⟨7, 4, q1⟩ ∨ ∃ e, tileWindow (s.desc 0 1) tile1 (dispL 0 none 128) true = .error e) ∧
      (∃ e, tileWindow (s.desc 0 0) ⟨0, 0, 0⟩ (dispL 0 none 128) false = .error e) ∧ s.hit 0 tile1 = none ∧ ReadyL (trd 0) s ∧ ReadyL (twr 0) s :=
  ⟨.inr ⟨_, rfl⟩, ⟨_, rfl⟩, by decide⟩
theorem witness_FrameAccess_fill_fault :
    let s := tensor 1 (on { naming with tcWait := some tile1, tcFlt := some ⟨6, 3, 0⟩ })
    s.me.tcWait = some tile1 ∧ s.me.tcFlt = some ⟨6, 3, 0⟩ ∧ ReadyL (trd 0) s ∧ ReadyL (twr 0) s := by decide
/-- Core 1 of the cluster runs an MSTA that writes the tile's first two bytes. -/
def written : State :=
  let x : Cmd :=
    { id := 9, ins := .msta g0 ⟨7, 2, 0, 1, 0⟩ 0 1 0 0 2 1, args := [q1], tp := 7, deps := [], hb := false, part := 0, launch := 0, repro := false,
      st := .running, tiles := [tile1], wtiles := [tile1], parkedAt := 0, sentAt := 0, alloc := false, fail := none, res := [], ready := false, snap := [],
      torn := [], imgs := [], wr := [(tile1, [(0, 16)])], save := none }
  { framed .dirty 3 (tensor 1 (on naming)) with cores := [(0, naming), (1, { core [] with cmds := [x] })] }
theorem witness_FrameAccess_written :
    written.beingWritten 0 tile1 768 0 = [(0, 16)] ∧ (written.hit 0 tile1).isSome = true ∧ ReadyL (trd 0) written := by decide

/-! ## Atomics -/

/-- The answer of host memory, and an address there. -/
abbrev hosted (h : HostAt) : State := mapped { core [(1, 0x10000)] with hostAt := h }
theorem witness_Atomics :
    (∀ s ∈ [at1 0, at1 4, hosted .none, hosted (.done (2 ^ 64)), hosted .failed],
      ReadyL (.amo g0 3 1 0 10 1 2) s ∧ ReadyL (.amo g0 0 1 0 0 0 2) s ∧ ReadyL (.cas g0 2 1 0 2 4 6) s ∧ ReadyL (.cas g0 2 1 0 0 4 6) s) ∧
    ((at1 4).me.ea 1 0 none 8 % 8 ≠ 0 ∧ (at1 0).me.ea 1 0 none 16 % 16 = 0 ∧ (at1 0).xlate 0 0 0 3 = .ok ⟨0, 7, 0, 0⟩) ∧
    ((hosted .none).me.ea 1 0 none 16 % 16 = 0 ∧ (hosted .none).xlate 0 0 0x10000 3 = .ok ⟨0x40000000000000, 7, 0, 0⟩ ∧ (hosted .none).me.hostAt = .none ∧
      (hosted (.done (2 ^ 64))).me.hostAt = .done (2 ^ 64) ∧ (hosted .failed).me.hostAt = .failed) ∧
    (Config.hostAtomics = false ∨ Config.hostAtomics = true) := by
  refine ⟨by decide, by decide, by decide, ?_⟩
  cases Config.hostAtomics <;> simp

end Sys2Proof.Test
end

