-- ==== Sys2Proof/Tests/Witnesses.lean ====
section
/-! SUPPORT. States that meet the hypotheses of the statements about the machine, scalar, control and vector instructions: one for each
clause, at a boundary of its range where it has one. -/

namespace Sys2Proof.Test

open Machine

/-- A task's core at pc with the CSRs given. -/
def at_ (r : Csr) : State := on { core [] with csr := r }
/-- A task's core in handler mode. -/
abbrev handler : State := at_ { Csr.reset with status := 1 }
/-- The word w where core 0 fetches next, in its packet's last place (a header at 0x20038), or with an extension word (at 0x20034). -/
def fetching (sl : Slot) (w : Nat) (x : Option Nat) : State :=
  let a := if x.isSome then 0x20034 else 0x20038
  let s := (on { core [] with pc := a, via := .target }).mapOne
  s.wrBytes a (toBytes 4 (soleHeader sl) ++ toBytes 4 w ++ (match x with | some e => toBytes 4 e | none => []))
/-- Tokens n with states. -/
def toks (l : List (Nat × TokSt)) : SMap Tok := l.map (fun p => (p.1, { Tok.free with st := p.2 }))

/-! ## The machine -/

theorem witness_StepRunsTheInstruction :
    let s := fetching .i0 0x03014001 none
    s.agenda = [] ∧ s.clocked (clusterOf s.cur) = true ∧ s.me.run = .task ∧ s.me.settle = false ∧ s.me.via ≠ .skip ∧ s.me.saveDue = false ∧
      s.me.handlerDue = false ∧ s.me.pc = 0x20038 ∧
      0x20038 % 64 + 4 * (1 + (Instr.addi g0 5 0 1 none).nwords) = 64 ∧ encode (.addi g0 5 0 1 none) = (0x03014001, none) ∧
      decodeSlot .i 0x03014001 none = .ok (.addi g0 5 0 1 none) ∧ s.fetchWord 0 0x20038 = .ok (soleHeader .i0) ∧
      s.fetchWord 0 0x2003C = .ok 0x03014001 := by decide
theorem witness_StepRunsTheInstruction_extension :
    let s := fetching .i0 0x43010000 (some 0x003F8000)
    let i := Instr.addi g0 4 0 0 (some 0x003F8000)
    s.clocked 0 = true ∧ s.me.run = .task ∧ s.me.via ≠ .skip ∧ 0x20034 % 64 + 4 * (1 + i.nwords) = 64 ∧
      encode i = (0x43010000, some 0x003F8000) ∧ s.fetchWord 0 0x20034 = .ok (soleHeader .i0) ∧ s.fetchWord 0 0x20038 = .ok 0x43010000 ∧
      s.fetchWord 0 0x2003C = .ok 0x003F8000 := by decide
theorem witness_StepRunsTheInstruction_event :
    let s : State := { State.reset with agenda := [.event .ptimeAdvance] }
    s.mayHappen .ptimeAdvance = true ∧ (match step s with | .next t => t.dev.ptime | _ => 0) = 1 := by decide
theorem witness_NothingStops :
    exec (.done g0) State.reset = .fault .noTask ∧ exec (.emptyBundle 0 0 0 0 0) State.reset = .fault .noTask ∧
      State.reset.me.run ≠ .task := ⟨rfl, rfl, by decide⟩
theorem witness_EncodedSlotsDecode :
    (Instr.addi ⟨7, 1⟩ 63 63 255 (some (2 ^ 31 - 1))).cls = some .i ∧ (Instr.addi ⟨7, 1⟩ 63 63 255 (some (2 ^ 31 - 1))).wf = true ∧
      (Instr.trel ⟨7, 1⟩ ⟨63, 62, 61, 2, 0⟩ 15).wf = true := by decide
theorem witness_MemoryFormKept :
    let s := State.reset.withFetchWord 32 0x03014001
    Memory.wf s.mem = true ∧ (match step s with | .next _ => true | _ => false) = true := by decide
theorem witness_RegisterWrites :
    (core []).write (.g 63 false) 5 none = { core [] with regs := { Regs.reset with g := [(63, 5)] } } ∧ (core []).dg 55 = .g 55 false ∧
      handler.me.dg 56 = .g 56 true ∧ handler.me.dp 6 = .p 6 true := by decide
theorem witness_TrapEntry :
    (let c := { core [] with csr := { Csr.reset with tvec := 0x2000 } }; c.hm = false ∧ c.csr.tvec ≠ 0) ∧
      (handler.me.hm = true ∧ (core []).csr.tvec = 0) := by decide
theorem witness_TrapEntry_abort :
    let s (t : SMap Tok) : State := on { core [] with run := .aborting, abort := some ⟨2, 0, 0x1000, 0⟩, toks := t }
    (∀ t ∈ [[], toks [(63, .pending)]], (s t).agenda = [] ∧ (s t).clocked 0 = true ∧ (s t).me.run = .aborting ∧ (s t).me.abort.isSome = true) ∧
      (∀ n, n < 64 → ((s []).me.tok n).st ≠ .pending) ∧ ((s (toks [(63, .pending)])).me.tok 63).st = .pending ∧
      (∀ x ∈ (s []).me.cmds, x.save ≠ none) ∧ (s []).relOpen (s []).cur = false ∧ (s []).me.mq = [] ∧ (s []).me.l0 = [] ∧ (s []).me.pins = [] ∧ (s []).launch (s []).me.task.launch = none := by decide
theorem witness_FaultRecords :
    let full : State := State.reset.updPart 3 (fun p => { p.setFld 0x70 1 2 with frqpidx := 4 })
    let p := full.part 3
    (p.frqpidx - p.frqcidx).toNat = 2 ^ p.fld 0x70 1 ∧ (Part.reset.frqpidx - Part.reset.frqcidx).toNat ≠ 2 ^ Part.reset.fld 0x70 1 := by decide
theorem witness_Translations_no_address : fld 0x800000000000 47 17 ≠ 0 ∧ fld 0x800000000000 47 17 ≠ 2 ^ 17 - 1 := by decide
theorem witness_Translations :
    let s := State.reset.mapOne
    let x : Xr := ⟨0x3FFFFFFF, 7, 0, 0⟩
    (fld 0x3FFFFFFF 47 17 = 0 ∧ s.cached 0 0 0x3FFFFFFF = none ∧ walk s (s.part 0) 0x3FFFFFFF = .ok x ∧ Nat.land x.perm accX = accX ∧
      paKind x.pa = .localHbm ∧ x.gen2 = s.gen2 x.pa ∧ (s.part 0).s1en = false ∧ (s.part 0).cenf = false) ∧
    walk s (s.part 0) 0x40000000 = .error (6, 3) := by decide
theorem witness_Translations_walk :
    let s := State.reset.mapOne
    let e1 := s.rdMem ((s.part 0).fld 0x48 8) 8
    let e2 := s.rdMem (fld e1 8 48 * 256 + 8 * fld 0x3FFFFFFF 30 9) 8
    (bitOf e1 0 = true ∧ bitOf e1 1 = false ∧ fld e1 5 3 = 0 ∧ bitOf e2 0 = true ∧ bitOf e2 1 = true ∧ fld e2 5 3 = 0 ∧ fld e2 8 22 = 0) ∧
      bitOf (State.reset.rdMem 0 8) 0 = false := by decide
theorem witness_Translations_refused :
    let s (e : Nat) (g : Nat) : State := (State.reset.mapOne.wrMem 0x11000 8 e).wrMem 0x7F00000001 1 g
    let x (e g : Nat) := walk (s e g) ((s e g).part 0) 0
    x 0x17 0 = .ok ⟨0, 5, 0, 0⟩ ∧ (s 0x17 0).gen2 0 = 0 ∧ ((s 0x17 0).part 0).s1en = false ∧ Nat.land 5 accW ≠ accW ∧ x 0x1F 1 = .ok ⟨0, 7, 0, 0⟩ ∧
      paKind 0 = .localHbm ∧ (s 0x1F 1).gen2 0 ≠ 0 := by decide
theorem witness_Translations_stage1 :
    let s := ((State.reset.mapOne.updPart 0 (fun p => (p.setFld 0 1 3).setFld 0x40 8 0x10000)).wrMem 0x7F00000000 1 1)
    (s.part 0).s1en = true ∧ walk s (s.part 0) 0 = .ok ⟨0, 7, 0, 0⟩ ∧ (0 : Nat) = s.gen2 0 ∧ (0 : Nat) ≠ s.gen1 0 ∧ s.cached 0 0 0 = none := by decide
theorem witness_Translations_host :
    let s : State := { State.reset.mapOne.wrMem 0x11000 8 0x4000000000001F with absent := [(0, 0x40000000000000 / 65536)] }
    walk s (s.part 0) 0 = .ok ⟨0x40000000000000, 7, 0, 0⟩ ∧ paKind 0x40000000000000 = .host ∧ (0, 0x40000000000000 / 65536) ∈ s.absent ∧
      s.cached 0 0 0 = none := by decide
theorem witness_Translations_cached :
    let s : State := { State.reset.mapOne with xlats := [⟨0, 0, 1, 1, 5, 0, 0, 0⟩] }
    s.cached 0 0 0x1FFFF = some ⟨0x1FFFF, 5, 0, 0⟩ ∧ paKind 0x1FFFF = .localHbm ∧ (0 : Nat) = s.gen2 0x1FFFF ∧ (s.part 0).s1en = false ∧
      Nat.land 5 accR = accR ∧ Nat.land 5 accW ≠ accW := by decide

/-! ## Scalar instructions -/

theorem witness_IntegerArithmetic :
    ∀ i ∈ [Instr.add g0 63 1 2, .sub g0 0 1 2, .addi g0 3 1 255 none, .and g0 3 1 2, .or g0 3 1 2, .xor g0 3 1 2, .andi g0 3 1 128 (some 1), .ori g0 3 1 128 none,
      .xori g0 3 1 128 none, .min g0 3 1 2, .minU g0 3 1 2, .max g0 3 1 2, .maxU g0 3 1 2, .shl g0 3 1 2, .shr g0 3 1 2, .shrA g0 3 1 2, .shli g0 3 1 63,
      .shri g0 3 1 63, .shriA g0 3 1 63], Ready i (on (core [(1, 0x8000000000000000), (2, 65)])) := by decide
theorem witness_ProductsAndQuotients :
    ∀ i ∈ [Instr.mul g0 3 1 2, .mulh g0 3 1 2, .mulhU g0 3 1 2, .div g0 3 1 0, .divU g0 3 1 2, .rem g0 3 1 0, .remU g0 3 1 2],
      Ready i (on (core [(1, 0x8000000000000000), (2, 0xFFFFFFFFFFFFFFFF)])) := by decide
theorem witness_BitFieldsAndScaleMoves :
    0 + 63 + 1 ≤ 64 ∧ 63 + 0 + 1 ≤ 64 ∧
    ∀ i ∈ [Instr.bfx g0 3 1 0 63 0, .bfx g0 3 1 1 0 63, .bfi g0 3 1 0 63, .sethi g0 3 1 128 none, .bitcPop g0 3 1, .bitcClz g0 3 0, .bitcCtz g0 3 0,
      .jmovToJ g0 1 1, .jmovToG g0 3 1, .emovToE g0 1 1, .emovToG g0 3 1, .emovE g0 1 2], Ready i (on (core [(1, 0x8000000000000000)])) := by decide
theorem witness_ComparesAndPredicates :
    ∀ i ∈ [Instr.cmpeq g0 7 1 1, .cmpne g0 0 1 2, .cmplt g0 1 1 2, .cmpltu g0 1 1 2, .cmple g0 1 1 2, .cmpleu g0 1 1 2, .cmpeqi g0 1 1 128 none, .cmplti g0 1 1 128 none,
      .pand g0 1 0 2, .por g0 1 0 2, .pxor g0 1 0 2, .pandn g0 1 0 2, .pmov g0 1 0, .pmovFromG g0 1 1, .pmovPreds g0 3, .zchk g0 1 15, .zchkM g0 1 15 15],
      Ready i (on (core [(1, 0x8000000000000000)])) := by decide
theorem witness_CoordinateMoves :
    ∀ i ∈ [Instr.qset g0 15 1, .qsetTid g0 15 1, .qsetC g0 15 1 2, .qget g0 3 15, .qgetTid g0 3 15, .qgetC g0 3 15 2, .qadd g0 15 0 3 63 none,
      .qadd g0 15 0 0 0 (some 2047), .qmov g0 15 0], Ready i (on (core [(1, 0x8000000000000000), (2, 3)])) := by decide
theorem witness_FloatInstructions :
    ∀ i ∈ [Instr.fadd g0 3 1 2 0 none, .fsub g0 3 1 2 1 (some 3), .fmul g0 3 1 2 0 none, .fma g0 3 1 2 1 2 3, .fdiv g0 3 1 0 0 none, .fsqrt g0 3 1 1 none,
      .fmin g0 3 1 2 0, .fmax g0 3 1 2 1, .fcmp g0 7 1 2 1 3, .fcvtFp g0 3 1 0 14 3, .fcvtFromI64 g0 3 1 62 14 3, .fcvtToI64 g0 3 1 62 14 3, .fcvtToU64 g0 3 1 0 0 0,
      .fclass g0 3 1 1], Ready i (on (core [(1, 0x8000000000000000)])) := by decide

/-! ## Control instructions -/

theorem witness_Transfers :
    ∀ i ∈ [Instr.br g0 (2 ^ 20 - 1) none, .br g0 0 (some (2 ^ 31 - 1)), .bri g0 1, .call g0 5 none, .calli g0 1 1, .ret g0 63, .loop g0 1 7 none, .loop g0 0 7 none,
      .loopi g0 1 7 none, .loopi g0 0 7 (some 1)], Ready i (on (core [(1, 0x8000000000000000)])) := by decide
theorem witness_Transfers_loop_end :
    ∀ s ∈ [at_ { Csr.reset with lcnt := 1, lbeg := 0x900, lend := 0x1000 }, at_ { Csr.reset with lcnt := 2, lbeg := 0x900, lend := 0x1000 }],
      s.me.csr.lcnt ≠ 0 ∧ s.me.csr.lend.toNat = s.me.pc ∧ Ready (.idle g0) s ∧ Ready (.bri g0 1) s := by decide
/-- A state in which the task's code object has n liveness sets. -/
def lively (n : Nat) (r : Csr) (pre : Bool) : State :=
  { on { core [] with csr := r, preempt := pre } with
    codes := [(0, ⟨0, 0, 0, false, [], List.replicate n ⟨0, 0, 0, 0, 0, 0, 0, 0, 0, 0, []⟩, [], [], []⟩)] }
theorem witness_SafePointsAndTaskEnds :
    (liveCount (lively 1 Csr.reset false) = 1 ∧ ∀ pre ∈ [false, true], Runs (.safe g0 0 none) (lively 1 Csr.reset pre) ∧ (lively 1 Csr.reset pre).me.hm = false) ∧
      (Runs (.safe g0 0 none) (lively 1 { Csr.reset with status := 1 } false) ∧ (lively 1 { Csr.reset with status := 1 } false).me.hm = true) ∧
      ((lively 1 Csr.reset false).me.run = .task ∧ (lively 1 Csr.reset false).me.settle = false) ∧
      Runs (.done g0) (at_ { Csr.reset with safedist := 2048 }) ∧ Runs (.done g0) handler := by decide
/-- A task's core with tokens. -/
def holding (l : List (Nat × TokSt)) : State := on { core [] with toks := toks l }
theorem witness_TokenWaitsAndPolls :
    ∀ i ∈ [Instr.waitk g0 2, .waitkRange g0 2 2, .waitkRange g0 2 3, .pollk g0 1 2, .pollkErr g0 1 2],
      ∀ l ∈ [[], [(2, TokSt.pending)], [(2, .error)], [(2, .done)]], Ready i (holding l) ∧
        ((holding l).me.tok 2).st = (match l with | [] => .free | p :: _ => p.2) := by decide
theorem witness_TokenWaitsAndPolls_range :
    let s := holding [(2, .done), (3, .error), (4, .error)]
    (∀ m ∈ upFrom 2 3, (s.me.tok m).st = .done ∨ (s.me.tok m).st = .error) ∧ (∀ m ∈ upFrom 2 3, (s.me.tok m).st = .error → 3 ≤ m) := by decide
/-- A task's core with a load, stores at ports, and a release on its way. -/
def accessing (l : Bool) (m : List PortAt) (r : Bool) : State :=
  { on { core [] with
      loads := if l then [⟨.g 9 false, [.mem 0 0], 0, none, 0, true, false⟩] else [], mq := m.map (fun a => .store 0 0x40000000000000 0 [1] a) } with
    msgs := if r then [.rel 0 0 0x2000 0x2000 7] else [] }
theorem witness_FencesAndServiceCalls :
    ∀ i ∈ [Instr.fenceCore g0, .fenceCluster g0, .fenceDevice g0, .fenceSys g0, .sysc g0 1 0 none], ∀ l ∈ [false, true],
      ∀ m ∈ [[], [PortAt.core], [.cluster 1], [.host 1 2]], ∀ r ∈ [false, true],
      let s := accessing l m r
      Ready i s ∧ (s.me.loads = [] ↔ l = false) ∧ (s.me.mq = [] ↔ m = []) ∧ ((∀ o ∈ s.me.mq, o.accepted ≠ none) ↔ m ≠ [.core]) ∧
        ((∀ o ∈ s.me.mq, o.atHost ≠ none) ↔ m = [] ∨ m = [.host 1 2]) ∧ (s.relOpen s.cur = false ↔ r = false) := by decide
theorem witness_TrapInstructionAndReturn :
    (Ready (.trap g0 255 none) handler ∧ Ready (.eret g0) handler ∧ handler.me.hm = true) ∧
      (∀ s ∈ [at_ Csr.reset, at_ { Csr.reset with tvec := 0x2000 }], Ready (.trap g0 0 (some 127)) s ∧ Ready (.eret g0) s ∧ s.me.hm = false) ∧
      (Ready (.eret g0) (at_ { Csr.reset with status := 3 }) ∧ bitOf (at_ { Csr.reset with status := 3 }).me.csr.status.toNat 1 = true) := by decide
theorem witness_CsrAccesses :
    ∀ n ∈ [0x00, 0x01, 0x02, 0x03, 0x04, 0x08, 0x09, 0x0A, 0x0B, 0x0C, 0x0D, 0x0E, 0x10, 0x11, 0x12, 0x13, 0x14, 0x18, 0x19, 0x1A, 0x1C, 0x1D, 0x1E], ∀ s ∈ [at_ Csr.reset, handler],
      Ready (.csrr g0 3 n) s ∧ Ready (.csrw g0 1 n) s ∧ Ready (.csrs g0 1 n) s ∧ Ready (.csrc g0 1 n) s ∧ (s.me.hm = true ↔ s.me.csr.status = 1) := by decide
theorem witness_FailingGuards :
    let s := on (core [])
    (Instr.add ⟨1, 0⟩ 1 1 1).cls ≠ none ∧ s.me.run = .task ∧ s.me.settle = false ∧ s.me.rp 1 = decide ((0 : Nat) = 1) ∧ s.me.csr.safedist.toNat < 2048 ∧
      s.me.rp 0 = decide ((1 : Nat) = 1) ∧ (extLow none 0 < liveCount (lively 1 Csr.reset false) ∧ extLow none 0 ≠ 0xFFFF) := by decide

/-! ## Vector instructions -/

/-- A core with vectors: FP32 1, 2, 3 … in the lanes of v1, ones in v2. -/
def vec (e : SMap W32) : State :=
  on { core [(1, 5)] with regs := { Regs.reset with g := [(1, 5)], v := [(1, 0x4040000040000000_3F800000), (2, 0x3F8000003F800000)], e := e } }
theorem witness_VectorArithmetic :
    ∀ o ∈ [vop 3 1 2 0 0 0 3 2 0 0, vop 3 1 2 0 2 5 0 2 0x70 0], ∀ i ∈ [Instr.vadd g0 o, .vsub g0 o, .vmul g0 o, .vfma g0 o, .vmin g0 o, .vmax g0 o, .vabs g0 o, .vneg g0 o],
      Ready i (vec []) := by decide
theorem witness_VectorLogicAndCompares :
    ∀ o ∈ [vop 3 1 2 0 0 0 0 0 0 0, vop 3 1 2 1 2 5 0 0 0x43 0], ∀ i ∈ [Instr.vand g0 o, .vor g0 o, .vxor g0 o, .vshl g0 o, .vshr g0 o, .vsel g0 o, .vmov g0 o, .vcmp g0 o],
      Ready i (vec []) := by decide
theorem witness_VectorPermutesAndMasks :
    ∀ o ∈ [vop 3 1 2 0 0 0 0 2 0 1, vop 3 1 2 0 2 5 0 2 0xA1 63, vop 3 1 2 0 0 0 0 0 2 1, vop 3 1 2 0 0 0 0 0 3 1], ∀ i ∈ [Instr.vperm g0 o, .vslide g0 o, .vpack g0 o, .vunpk g0 o,
      .vbcast g0 o, .vext g0 o, .klog g0 o, .kmov g0 o, .idle g0], Ready i (vec []) := by decide
theorem witness_VectorConversions :
    ∀ o ∈ [vop 3 1 0 0 0 2 3 0 0 0, vop 3 1 0 0 0 0 0 0 0x12 1], Ready (.vcvt g0 o) (vec []) ∧ Ready (.vspec g0 o) (vec []) := by decide
theorem witness_VectorBlocks :
    ∀ o ∈ [vop 3 1 0 0 0 8 0 4 0 0, vop 3 1 0 0 0 11 0 4 0x80 0], Ready (.vqnt g0 o) (vec []) ∧ Ready (.vdq g0 o) (vec []) ∧ Ready (.vamax g0 o) (vec []) := by decide
theorem witness_VectorBlocks_formats :
    (bitOf 0x80 7 = true ∧ fld ((vec []).me.re 0).toNat 16 4 ≠ 11 ∧ fld ((vec [(0, 0xB0000)]).me.re 0).toNat 16 4 = 11) ∧
      (32 * 32 ≤ (vop 3 1 0 0 0 8 0 4 0 0).bits ∧ (vop 3 1 0 0 1 8 0 4 0 0).bits < 32 * 32) := by decide
theorem witness_VectorReductions :
    ∀ o ∈ [vop 3 1 2 0 0 0 0 4 0 0, vop 3 1 2 0 0 2 0 4 0x20 0, vop 3 1 2 1 2 5 0 7 0x13 0], Ready (.vred g0 o) (vec []) ∧ Ready (.vscan g0 o) (vec []) ∧
      Ready (.vmatch g0 o) (vec []) := by decide

end Sys2Proof.Test
end

