-- ==== Sys2Proof/Tests/WitnessEngine.lean ====
section
/-! SUPPORT. States that meet the hypotheses of the statements about engine commands, and about events of cores, tasks and queues. -/

namespace Sys2Proof.Test

open Machine

set_option Elab.async false

/-! ## Engine commands -/

/-- An edge that consumes token 2 and produces token 7. -/
abbrev e2 : Edge := ⟨7, 2, 0, 1, 0⟩
/-- A command of core 0. -/
def cmd (id : Nat) (i : Instr) (st : CmdSt) : Cmd :=
  { id := id, ins := i, args := [], tp := 7, deps := [], hb := false, part := 0, launch := 0, repro := false, st := st, tiles := [], wtiles := [],
    parkedAt := 0, sentAt := 0, alloc := false, fail := none, res := [], ready := false, snap := [], torn := [], imgs := [], wr := [], save := none }
/-- Core 0 with token 2 in a state, and commands. -/
def held (l : List (Nat × TokSt)) (cs : List Cmd) : State := mapped { core [(1, 0x20008)] with toks := toks l, cmds := cs }
/-- Token 2 is FREE; DONE; ERROR; PENDING with full queues. -/
abbrev edges : List State :=
  [held [] [], held [(2, .done)] [], held [(2, .error), (7, .error)] [],
   held [(2, .pending)] (List.replicate 16 (cmd 0 (.mzero g0 e2 1) .queued) ++ List.replicate 32 (cmd 0 (.trel g0 e2 1) .queued))]
theorem witness_MatrixCommands :
    ∀ i ∈ [Instr.mma g0 e2 0 1 2 0 1 0 0 3 1 0 1, .mzero g0 e2 255, .mlda g0 e2 7 15 0 0, .msta g0 e2 7 15 0 1 2 1, .msclFill g0 e2 0 1, .msclDiag g0 e2 0 1,
      .msclMul g0 e2 0 1, .mtriLi g0 e2 0 1 1, .mtriLs g0 e2 0 1 0, .mtriUi g0 e2 0 1 0, .mtriUs g0 e2 0 1 0, .tbuild g0 e2 0 1 0 0 0 1, .tlook g0 e2 0 1 0 0 0 0 1,
      .tlookR g0 e2 0 1 0 0 0 0 1, .zsave g0 e2 0 0 0 1, .zload g0 e2 0 1 1 0, .zinv g0 e2 65535, .cbld g0 e2 0 1 16], ∀ s ∈ edges, Ready i s := by decide
theorem witness_TileAndTaskCommands :
    ∀ i ∈ [Instr.tfetch g0 e2 15 0, .thint g0 e2 1 7 0, .tinv g0 e2 1 0 0, .tcopy g0 e2 1 2 1, .tcopyMem g0 e2 1 0 1, .tred g0 e2 1 2 4, .tgath g0 e2 1 2 1 63,
      .tscat g0 e2 1 2 1 0, .tacq g0 e2 1 7, .trel g0 e2 15, .itin g0 e2 0 1 0, .itstep g0 e2 0 15, .chsend g0 e2 0 1, .chrecv g0 e2 0 1, .desc g0 e2 1 1,
      .tspawn g0 e2 1, .tdec g0 e2 1, .tdecb g0 e2 1, .tdecbArm g0 e2 1 1], ∀ s ∈ edges, Ready i s := by decide
theorem witness_Enqueues :
    (¬ noneIn (held [] []) (consumed e2) .free) ∧ (noneIn (held [(2, .done)] []) [2] .free ∧ noneIn (held [(2, .done)] []) [2, 7] .error) ∧
      (noneIn (held [(2, .error), (7, .error)] []) [2] .free ∧ (held [(2, .error), (7, .error)] []).me.stalled = false ∧
        ((held [(2, .error), (7, .error)] []).me.tok 2).st = .error) ∧
      (∀ s ∈ edges.drop 3, 16 ≤ (s.me.cmds.filter (fun y => isM y.ins == true)).length ∧
        32 ≤ (s.me.cmds.filter (fun y => isM y.ins == false)).length ∧ noneIn s [2] .free ∧ noneIn s [2, 7] .error) := by
  unfold noneIn; decide
/-- Core 0 with an address in g1. -/
abbrev asks (a : W64) (l : List Cmd) : State := mapped { core [(1, a), (2, 5)] with cmds := l }
theorem witness_FabricCommands :
    (∀ i ∈ [Instr.rld g0 e2 63 1, .rst g0 e2 1 2, .rfaa g0 e2 3 1 2, .rtdec g0 e2 1, .rfence g0 e2 1, .rfenceFStore g0 e2 1 2, .rfenceFDec g0 e2 1],
      ∀ s ∈ [asks 0x20004 [], asks 0x50000 [], asks 0 [], asks 0x20008 []], Ready i s) ∧
    (0x20004 % 8 ≠ 0 ∧ 0x50000 % 8 = 0 ∧ (asks 0x50000 []).xlate 0 0 0x50000 accR = .error ⟨6, 3, 0x50000⟩ ∧ (asks 0 []).xlate 0 0 0 3 = .ok ⟨0, 7, 0, 0⟩ ∧
      paKind 0 ≠ .remote ∧ (asks 0x20008 []).xlate 0 0 0x20008 0 = .ok ⟨0x80000000000008, 7, 0, 0⟩ ∧ paKind 0x80000000000008 = .remote) ∧
    (let s := asks 0x20008 (List.replicate 8 { cmd 0 (.rld g0 e2 3 1) .running with args := [0x80000000000008, 0] })
     8 ≤ (s.me.toDev (fld 0x80000000000008 39 13)).length) := by decide
theorem witness_EnqueuedCommand :
    let s := on { core [] with toks := [(2, ⟨.pending, none, some 4, false⟩), (7, ⟨.error, some ⟨⟨7, 6, 0⟩, 7, false⟩, none, false⟩)] }
    2 ∈ consumed e2 ++ [e2.tp] ∧ (s.me.tok 2).st = .pending ∧ (s.me.tok 2).latest = some 4 ∧ (s.me.tok 7).st = .error := by decide
/-- Core 0 running one command. -/
abbrev running (i : Instr) : State := on { core [] with cmds := [{ cmd 9 i .running with args := [0x3F800000] }], toks := [(7, ⟨.pending, none, some 9, false⟩)] }
theorem witness_CommandCompletions :
    ∀ i ∈ [Instr.mzero g0 e2 255, .msclFill g0 e2 7 1, .msclDiag g0 e2 0 1, .msclMul g0 e2 0 1, .mtriLi g0 e2 0 1 1, .mtriLs g0 e2 0 1 0, .mtriUi g0 e2 0 1 0,
      .mtriUs g0 e2 0 1 0, .zinv g0 e2 65535],
      ∀ x ∈ (running i).me.cmds, ((running i).core 0).cmds[0]? = some x ∧ x.st = .running ∧ x.fail = none ∧ ((running i).core 0).run ≠ .aborting ∧ x.save = none ∧
        x.ins = i ∧ (((running i).core 0).tok x.tp).latest = some x.id ∧ (x.sem 0).done (running i) = true ∧ executor x.ins ≤ 1 ∨ i = .zinv g0 e2 65535 := by decide
/-- A ZINV that has failed, and one that waits for it, of token 9. -/
def failing : State :=
  on { core [] with
    cmds := [{ cmd 9 (.zinv g0 e2 65535) .running with fail := some ⟨⟨6, 3, 0⟩, 7, false⟩ },
      { cmd 10 (.zinv g0 ⟨9, 7, 0, 1, 0⟩ 1) .queued with deps := [9], tp := 9 }],
    toks := [(7, ⟨.pending, none, some 9, true⟩), (9, ⟨.pending, none, some 10, false⟩)] }
theorem witness_CommandCompletions_failed :
    let c := failing.core 0
    ∀ x ∈ c.cmds.take 1, c.cmds[0]? = some x ∧ x.st = .running ∧ x.save = none ∧ (x.sem 0).done failing = true ∧ c.run ≠ .aborting ∧
      (c.tok x.tp).latest = some x.id ∧ x.fail = some ⟨⟨6, 3, 0⟩, 7, false⟩ ∧
      ∀ y ∈ c.cmds.drop 1, x.id ∈ y.deps ∧ y.fail = none ∧ y.save = none ∧ y.st ≠ .running ∧ y.id ≠ x.id ∧ (c.tok y.tp).latest = some y.id := by decide
theorem witness_CommandCompletions_distinct : (failing.core 0).cmds.Pairwise (fun a b => a.id ≠ b.id) := by unfold failing; decide
theorem witness_CommandCompletions_flags :
    let s := running (.msclMul g0 e2 0 1)
    ∀ x ∈ s.me.cmds, x.fail = none ∧ executor x.ins ≤ 1 ∧ (x.sem 0).done s = true := by decide

/-! ## Events of cores and tasks -/

/-- A task's core at 0x1000, where memory holds the words of a bundle. -/
def bundled (l : List Nat) (c : Core) : State := (mapped c).wrBytes 0x1000 (l.flatMap (toBytes 4))
theorem witness_CoreEventsAndTaskEnds_stalled :
    let s := bundled [soleHeader .c, 0x0A000200] { core [] with stalled := true, toks := toks [(2, .done)] }
    (s.core 0).stalled = true ∧ (s.core 0).saveDue = false ∧ (s.core 0).handlerDue = false ∧ Ready (.waitk g0 2) s ∧ ((s.core 0).tok 2).st = .done ∧
      fetchBundle s = .bundle 0x1000 (soleBundle (.waitk g0 2) (semOf (.waitk g0 2))) := ⟨by decide, by decide, by decide, by decide, by decide, rfl⟩
theorem witness_CoreEventsAndTaskEnds_watchdog :
    let s := bundled [soleHeader .i0, 0x03014001] { core [] with csr := { Csr.reset with safedist := 2048, status := 1 } }
    (s.core 0).run = .task ∧ (s.core 0).hm = true ∧ 2048 ≤ (s.core 0).csr.safedist.toNat ∧
      fetchBundle s = .bundle 0x1000 (soleBundle (.addi g0 5 0 1 none) (semOf (.addi g0 5 0 1 none))) ∧
      ∀ r ∈ (soleBundle (.addi g0 5 0 1 none) (semOf (.addi g0 5 0 1 none))).slots, r.illegal s = false ∧ (∀ g n x, r.ins ≠ .safe g n x) ∧ ∀ g, r.ins ≠ .done g := by
  refine ⟨by decide, by decide, by decide, rfl, ?_⟩
  intro r h
  rcases List.mem_singleton.1 h with rfl
  exact ⟨by decide, fun _ _ _ => Instr.noConfusion, fun _ => Instr.noConfusion⟩
theorem witness_CoreEventsAndTaskEnds :
    (let s := on { core [] with csr := { Csr.reset with status := 1 }, hCyc := 8192 }; (s.core 0).run = .task ∧ (s.core 0).hm = true ∧ 8192 ≤ (s.core 0).hCyc ∧ (s.core 0).hostAt = .none) ∧
    (∀ r ∈ [Run.task, .doneWait], let s := on { core [] with run := r, preempt := true, preCyc := 3600 }
      ((s.core 0).run = .task ∨ (s.core 0).run = .doneWait) ∧ (s.core 0).preempt = true ∧ 3600 ≤ (s.core 0).preCyc ∧ (s.core 0).hm = false ∧ (s.core 0).hostAt = .none ∧ (s.core 0).via ≠ .skip) ∧
    (∀ it ∈ [0, 15], let s := on { core [] with iter := it }; s.me.run = .task ∧ s.me.settle = false ∧ s.me.csr.safedist.toNat < 2048 ∧ (s.me.iter < 15 ↔ it = 0)) := by
  decide
/-- A launch of queue 0 of function 1 with live tasks. -/
def launched (n : Nat) : Launch := ⟨0, 0, 1, 0, 0, n, false, false, 0, 0, false, []⟩
theorem witness_CoreEventsAndTaskEnds_ends :
    ∀ n ∈ [1, 2], let s : State := { on { core [] with run := .ending } with launches := [(0, launched n)] }
      let c := s.core 0
      c.run = .ending ∧ s.storesDone 0 = true ∧ c.l0 = [] ∧ c.pins = [] ∧ (s.trec c.task.recPA).succn = 0 ∧ s.launch c.task.launch = some (launched n) ∧
        (launched n).dropped = false ∧ (s.qcb (launched n).key).toSave = false ∧ 0 < (launched n).live ∧ s.launches.Pairwise (fun a b => a.1 ≠ b.1) := by
  intro n h
  rcases List.mem_cons.1 h with rfl | h
  · exact ⟨by decide, by decide, by decide, by decide, by decide, rfl, by decide, by decide, by decide, List.pairwise_singleton _ _⟩
  · rcases List.mem_singleton.1 h with rfl
    exact ⟨by decide, by decide, by decide, by decide, by decide, rfl, by decide, by decide, by decide, List.pairwise_singleton _ _⟩
theorem witness_CoreEventsAndTaskEnds_writes :
    let s := on { core [] with run := .ending, mq := [.store 0 0 0 [1] (.cluster 0)] }
    (s.core 0).run = .ending ∧ s.storesDone 0 = false := by decide
/-- A task with a successor on another device, and v in the buckets of the ports that lead to it. -/
def leaving (v : Int) : State :=
  let s := (((mapped { core [] with run := .ending }).wrMem 0x20 8 0x100).wrMem 0x28 1 1).wrMem 0x100 8 0x20000
  let s := s.updPart 0 (fun p => p.setFld 0xB0 64 (((List.range 8).map (fun n => 2 ^ (64 * n))).foldl (fun a b => a + b) 0))
  { s with buckets := (List.range 8).map (fun n => (n + 1, v)), dev := { s.dev with fabid := 5, route := [(0, 255)] } }
theorem witness_CoreEventsAndTaskEnds_buckets :
    ∀ v ∈ [(-1 : Int), 0], let s := leaving v
      (s.core 0).run = .ending ∧ s.storesDone 0 = true ∧ 0 < (s.trec (s.core 0).task.recPA).succn ∧
        ∀ b ∈ s.succBucket 0 0 ((s.trec (s.core 0).task.recPA).succ + 8 * 0), s.bucket 0 b = v := by decide +kernel
theorem witness_CoreEventsAndTaskEnds_has_bucket : ((leaving 0).succBucket 0 0 0x100).isSome = true := by decide +kernel
/-- Messages in flight. -/
abbrev flying (l : List Msg) : State := { State.reset with msgs := l }
/-- A task record at 0x4000: its state, a counter at 0x18, and 1 as its successor count's place is left 0. -/
def recorded (st cnt : Nat) (s : State) : State := (s.wrMem 0x4007 1 st).wrMem 0x4018 4 cnt
theorem witness_CountersAndPlacement_records :
    let d : Msg := .decr true 0x4000 0 (.remote 3)
    let s (st cnt : Nat) := recorded st cnt (flying [d])
    (∀ st ∈ [1, 3], ∀ cnt ∈ [0, 1, 2], (s st cnt).msg 0 = some d ∧ (s st cnt).decBefore 0 (.remote 3) true 0x4000 = false ∧
      ((s st cnt).trec 0x4000).cnt = cnt ∧ ((s st cnt).trec 0x4000).state = st) ∧
    (flying [d, d]).msg 1 = some d ∧ (flying [d, d]).decBefore 1 (.remote 3) true 0x4000 = true := by decide
theorem witness_CountersAndPlacement_counters :
    let d : Msg := .decr false 5 0 (.remote 3)
    let s (v : Nat) : State := { flying [d] with bcs := [(5, ⟨BitVec.ofNat 32 v, 1, 0⟩)] }
    (∀ v ∈ [0, 1, 2], (s v).msg 0 = some d ∧ (s v).decBefore 0 (.remote 3) false 5 = false ∧ ((s v).bc 5).value.toNat = v) ∧
      (flying [d, d]).msg 1 = some d ∧ (flying [d, d]).decBefore 1 (.remote 3) false 5 = true := by decide
/-- A ready-queue entry of partition 0 for the record at an address. -/
def entry (pa stamp : Nat) : RdqE := ⟨pa, 0, 1, false, 0, 0, 0, stamp⟩
/-- A release, with entries that wait for it in the ready queue, in a ring and for room in the ring. -/
def releasing : State :=
  let e (stamp : Nat) : RdqE := { entry 0x4000 stamp with held := true, bcn := 5, epoch := 1 }
  { (flying [.relMsg 0 5 1, .ringWait 0 (e 2)]).updCluster 0 (fun c => { c with rdq := [e 0] }) with rings := [(ringKey 0 0 1, [e 1])] }
theorem witness_CountersAndPlacement_releases : releasing.msg 0 = some (.relMsg 0 5 1) := by decide
/-- A placement waits at the home of cluster 0, whose ready queue holds n entries; partition 0's rings hold 2^sz of them. -/
def placing (l : List RdqE) (sz gated : Nat) (ring : List RdqE) : State :=
  let s := ((flying [.ringWait 0 (entry 0x4000 0)]).updPart 0 (fun p => p.setFld 0x98 4 sz)).updCluster 0 (fun c => { c with rdq := l })
  { s with rings := if ring.isEmpty then [] else [(ringKey 0 0 1, ring)], dev := { s.dev with clstate := if gated = 2 then [(0, 2)] else [] } }
theorem witness_CountersAndPlacement :
    (let s := placing [] 0 0 []
     s.msg 0 = some (.ringWait 0 (entry 0x4000 0)) ∧ s.before 0 (Msg.waitsFor 0 (entry 0x4000 0)) = false ∧ (s.cluster 0).rdq.length < 2048 ∧
       s.clState 0 ≠ clGated ∧ s.ring (ringKey 0 0 1) = []) ∧
    (∀ sz ∈ [1, 2], ∀ s ∈ [placing [] sz 0 [entry 0x5000 9], placing [] sz 2 []],
      (s.ring (ringKey 0 0 1) ≠ [] ∨ s.clState 0 = clGated) ∧
      s.msg 0 = some (.ringWait 0 (entry 0x4000 0)) ∧ s.before 0 (Msg.waitsFor 0 (entry 0x4000 0)) = false ∧
        (s.ringUsed 0 1 < (s.part 0).fld 0x98 4 ∨ (s.part 0).fld 0x98 4 ≤ s.ringUsed 0 1)) ∧
    ((placing [] 1 0 [entry 0x5000 9]).part 0).fld 0x98 4 ≤ (placing [] 1 0 [entry 0x5000 9]).ringUsed 0 1 ∧
    (placing [] 2 0 [entry 0x5000 9]).ringUsed 0 1 < ((placing [] 2 0 [entry 0x5000 9]).part 0).fld 0x98 4 ∧
    (flying [.ringWait 0 (entry 0x5000 1), .ringWait 0 (entry 0x4000 0)]).before 1 (Msg.waitsFor 0 (entry 0x4000 0)) = true ∧
    (let s : State := { State.reset with rings := [(ringKey 0 0 1, [entry 0x4000 0])] }; s.ring (ringKey 0 0 1) = entry 0x4000 0 :: []) := by decide +kernel
theorem witness_CountersAndPlacement_held :
    let s := placing [] 1 0 []
    let h : State := { s with dev := { s.dev with clstate := [(0, clHold)] } }
    h.msg 0 = some (.ringWait 0 (entry 0x4000 0)) ∧ h.clState 0 = clHold := by decide

end Sys2Proof.Test
end

