-- ==== Sys2Proof/Tests/WitnessEvents.lean ====
section
/-! SUPPORT. States that meet the hypotheses of the statements about task creation and dispatch, tiles and their homes, regions, atomics,
the fabric and translations. -/

namespace Sys2Proof.Test

open Machine

set_option Elab.async false

/-! ## Tasks -/

/-- A code object with one task and no channel. -/
def code0 : Code := ⟨0, 0, 0, false, [⟨0, 0, 0, 0, 0⟩], [], [], [], []⟩
/-- A record at 0x4000 of code object 0, any cluster, with counter 2, and its creation asked for; partition 0 holds cluster 0. -/
def creating (z : Nat) : State :=
  let s : State := { flying [.create 0x4000 0x4000 0 0 0 9] with launches := [(0, launched 1)], codes := [(0, code0)] }
  ((((s.updPart 0 (fun p => p.setFld 8 16 1)).wrMem 0x4006 1 0x20).wrMem 0x4018 4 2).wrMem 0x407F 1 z)
theorem witness_CreationAndDispatch_record :
    let s := creating 0
    s.msg 0 = some (.create 0x4000 0x4000 0 0 0 9) ∧ s.launch 0 = some (launched 1) ∧ (launched 1).dropped = false ∧ (launched 1).live < 2 ^ 32 - 1 ∧
      s.recordBad 0 (launched 1) (s.trec 0x4000) 0x4000 = none ∧ s.code (s.trec 0x4000).codeh = some code0 ∧ code0.isEnd (s.trec 0x4000).taskix = false ∧
      (s.trec 0x4000).isBc = false ∧ (s.trec 0x4000).cnt ≠ 0 := by decide
theorem witness_CreationAndDispatch_bad :
    let s := creating 1
    s.msg 0 = some (.create 0x4000 0x4000 0 0 0 9) ∧ s.recordBad 0 (launched 1) (s.trec 0x4000) 0x4000 = some ⟨12, 2, 0x4000⟩ ∧
      s.launches.Pairwise (fun a b => a.1 ≠ b.1) := ⟨by decide, by decide, List.pairwise_singleton _ _⟩
/-- Two entries wait in the ready queue of cluster 0, whose partition has the cluster and weight 1. -/
def ready : State :=
  (State.reset.updPart 0 (fun p => ((p.setFld 0 1 1).setFld 8 16 1).setFld 0x5C 1 1)).updCluster 0 (fun c => { c with rdq := [entry 0x4000 7, entry 0x5000 3] })
theorem witness_CreationAndDispatch_dispatch :
    let s := ready.reserveIn 0
    let ok := (s.entriesOf 0).filter (fun e => s.dispatchable e)
    s.clState 0 = clActive ∧ (creditWin (partsOf ok) (fun p => (s.part p).wgt) (s.weightSum 0) (s.cluster 0).crd (s.cluster 0).ptr).map (fun x => x.1) = some 0 ∧
      firstEntry (ok.filter (fun e => e.part == 0)) = some (entry 0x5000 3) ∧ s.idleCore 0 0 = some 0 ∧ (entry 0x5000 3).kind = 0 := by decide +kernel
/-- A gang of two tasks, joined by a channel, whose members wait in clusters 0 and 1; core 0 runs a task. -/
def gang (busy : Bool) : State :=
  let c : Code := { code0 with tasks := [⟨0, 0, 0, 0, 0⟩, ⟨0, 0, 0, 0, 0⟩], chans := [(2, 0, 1)] }
  let s : State := { State.reset with launches := [(0, { launched 2 with ends := [(0, 0), (1, 1)] })], codes := [(0, c)], cores := if busy then (upFrom 0 8).map (fun k => (k, core [])) else [] }
  ((s.wrMem 0x5004 1 1).updCluster 0 (fun c => { c with rdq := [{ entry 0x4000 1 with kind := 2 }] })).updCluster 1
    (fun c => { c with rdq := [{ entry 0x5000 2 with kind := 2 }] })
theorem witness_CreationAndDispatch_gang :
    let ms := [(0, { entry 0x4000 1 with kind := 2 }), (1, { entry 0x5000 2 with kind := 2 })]
    (((gang false).takeGang 0).heldGang 0 = some (0, ms) ∧ ms ≠ [] ∧
      ∀ m ∈ ms, (((gang false).takeGang 0).reserve 0 ms).reserved 0 m ≠ none ∧ (((gang false).takeGang 0).reserve 0 ms).clState m.1 = clActive) ∧
    (((gang true).takeGang 0).heldGang 0 = some (0, ms) ∧ ∃ m ∈ ms, (((gang true).takeGang 0).reserve 0 ms).reserved 0 m = none) ∧
    (({ gang false with launches := [(0, { launched 2 with ends := [(0, 0)] })] } : State).takeGang 0).heldGang 0 = some (0, []) ∧
    (State.reset.takeGang 0).heldGang 0 = none ∧
    (let s := (gang false).takeGang 0; mget s.gangs 0 none = some (0, 0) ∧ s.members 0 (s.gangAt 0 0) ≠ []) := by
  decide +kernel

/-! ## Commands and tiles -/

/-- Core 0 with one command in a state, over the tensor. -/
def commanded (x : Cmd) : State := tensor 1 (on { core [] with cmds := [x] })
/-- The command of MLDA on the tile. -/
def mlda (st : CmdSt) : Cmd := { cmd 9 (.mlda g0 e2 0 1 0 0) st with args := [q1] }
theorem witness_CommandStarts_mzero :
    let x := cmd 9 (.mzero g0 e2 1) .queued
    let s := commanded x
    s.oldest [0] (executor x.ins) = some (0, x) ∧ x ∈ (s.core 0).cmds := by decide
theorem witness_CommandStarts_clear : ∀ j y, y ∈ ((commanded (mlda .queued)).core j).cmds → y.fail = none := by
  intro j y h
  by_cases e : j = 0
  · subst e
    rcases List.mem_singleton.1 h with rfl
    rfl
  · have : ((commanded (mlda .queued)).core j).cmds = [] := by
      show (mget [(0, _)] j Core.reset).cmds = []
      cases j with
      | zero => exact absurd rfl e
      | succ j => rfl
    rw [this] at h
    cases h
theorem witness_CommandStarts_park :
    let s := commanded (mlda .queued)
    s.oldest [0] (executor (mlda .queued).ins) = some (0, mlda .queued) ∧ ((mlda .queued).sem 0).check s = none ∧
      ∃ m ∈ (mlda .queued).tileNeeds 0 s, s.have 0 m = false := by decide
theorem witness_CommandStarts_fault :
    let x : Cmd := { mlda .queued with args := [2 ^ 45] }
    let s := commanded x
    s.oldest [0] (executor x.ins) = some (0, x) ∧ ∃ f, (x.sem 0).check (s.draw 1) = some f ∧ (s.draw 1).pageMiss x.part f = false := ⟨by decide, _, rfl, by decide⟩
theorem witness_CommandStarts_frames :
    let s := commanded (mlda .parked)
    s.oldestParked 0 = some (0, mlda .parked) ∧ (s.allocAll 0 ((mlda .parked).tileNeeds 0 s)).isSome = true := by decide
theorem witness_CommandStarts_no_frames :
    let s := (upFrom 16 16).foldl (fun s k => s.setFrame 0 k { Frame.reset k with st := .clean, pin := true, tile := ⟨0, 2, 0⟩ }) (commanded (mlda .parked))
    s.oldestParked 0 = some (0, mlda .parked) ∧ (s.allocAll 0 ((mlda .parked).tileNeeds 0 s)).isNone = true := by decide
theorem witness_CommandStarts_replay :
    let x : Cmd := { mlda .parked with alloc := true, tiles := [tile1] }
    let s := framed .clean 3 (commanded x)
    (s.core 0).cmds[0]? = some x ∧ x.st = .parked ∧ x.alloc = true ∧ x.tiles = (x.tileNeeds 0 s).map (fun m => m.tile) ∧ s.prqWaits (.cmd 0 x.id) = false ∧
      s.execBusy 0 x = false ∧ (∀ m ∈ x.tileNeeds 0 s, (s.hit 0 m.tile).isSome = true ∧ s.have 0 m = true) ∧ (x.sem 0).check s = none ∧ s.mayReach 0 x.part ((x.sem 0).uses s) = true := by decide

/-! ## Homes -/

/-- One element of the tensor alone, its page cached for cluster 0's tile cache, and messages. -/
def homed (target : Nat) (l : List Msg) (h : List Home) : State :=
  let s := (tensor 1 (flying l)).wrMem 0x9090 8 0x100000001
  { s with homes := h, xlats := [⟨1024, 0, 0, target, 7, 0, 0, 0⟩] }
/-- A record of the tile: its version, location, owner of the copy, writer and leases. -/
def home (ver loc ownc wown : Nat) (l : List Lease) : Home := ⟨0, tile1, ver, loc, ownc, wown, false, l, []⟩
theorem witness_Fills_requests :
    let h0 := home 3 0 0 noOwner []
    let h1 := home 3 1 5 noOwner []
    let s (g : Bool) (h : Home) := homed 0 [.fillReq 0 tile1 g false 0] [h]
    (∀ g ∈ [false, true], ∀ h ∈ [h0, h1], (s g h).msg 0 = some (.fillReq 0 tile1 g false 0) ∧ (s g h).prqWaits (.fill 0 tile1) = false ∧
      (s g h).waitsBefore 0 0 tile1 g = false ∧ (s g h).outranked 0 0 0 tile1 0 = false ∧ (s g h).homeAt 0 tile1 = .here 0 ∧ (s g h).moving tile1 = false ∧
      (s g h).homeRec 0 tile1 = some h ∧ h.wown = noOwner ∧ h.leases = [] ∧ h.super = false ∧
      (s g h).mayTile 1024 ((s g h).desc 0 1) tile1 = true) ∧ h0.loc ≠ 1 ∧ h1.loc = 1 ∧ h1.ownc ≠ 0 := by decide
theorem witness_Fills_read : ∃ m, (homed 0 [.fillReq 0 tile1 true false 0] []).readTile 1024 ((homed 0 [] []).desc 0 1) tile1 = .ok m := ⟨_, rfl⟩
theorem witness_Fills_remote :
    let h0 := home 3 0 0 noOwner [⟨4, 9, false⟩]
    let s := { homed 0 [.fillReq 131 tile1 false false 0] [h0] with xlats := [⟨1155, 0, 0, 0, 7, 0, 0, 0⟩] }
    s.msg 0 = some (.fillReq 131 tile1 false false 0) ∧ s.prqWaits (.fill 131 tile1) = false ∧ s.waitsBefore 0 131 tile1 false = false ∧
      s.homeAt 131 tile1 = .here 0 ∧ s.moving tile1 = false ∧ s.homeRec 0 tile1 = some h0 ∧ h0.loc ≠ 1 ∧ h0.super = false ∧ h0.leases.length < 4 ∧
      (match s.readTile 1155 (s.desc 0 1) tile1 with | .ok _ => true | .error _ => false) = true := by decide
theorem witness_Fills_answers :
    (let s := framed .published 3 (flying [.serve 0 tile1 (some 5) true]); s.msg 0 = some (.serve 0 tile1 (some 5) true) ∧ s.held 0 tile1 = some 16 ∧
      (s.frame 0 16).st = .published) ∧
    (∀ x ∈ [(FrSt.filling, false), (.filling, true), (.clean, true)], let s := framed x.1 3 (flying [.fillAns 0 tile1 65535 x.2 0 2 false (some [(0, 7)])])
     s.msg 0 = some (.fillAns 0 tile1 65535 x.2 0 2 false (some [(0, 7)])) ∧
       (setFrames tile1).find? (fun k => (s.frame 0 k).tile == tile1 && ((s.frame 0 k).st == FrSt.filling || (x.2 && (s.frame 0 k).st == FrSt.clean))) = some 16) ∧
    (flying [.fillFail 0 tile1 ⟨6, 3, 0⟩]).msg 0 = some (.fillFail 0 tile1 ⟨6, 3, 0⟩) := by decide
theorem witness_Fills_timeouts :
    (let s := homed 0 [.fillReq 0 tile1 true true 0] [home 3 0 0 5 []]
     s.msg 0 = some (.fillReq 0 tile1 true true 0) ∧ s.homeRec 0 tile1 = some (home 3 0 0 5 []) ∧ (home 3 0 0 5 []).ch < 256 ∧ (home 3 0 0 5 []).wown ≠ noOwner ∧
       (home 3 0 0 5 []).wown ≠ 0 ∧ (home 3 0 0 5 []).wown ≠ parkedOwner ∧ s.dev.ptime.toNat ≤ s.arrived 0 + (s.desc 0 1).leaseNs ∧
       s.arrived 0 + (s.desc 0 1).leaseNs < (BitVec.allOnes 64).toNat) ∧
    (let s := homed 0x8000000000 [.fillReq 0 tile1 true true 0] []
     s.msg 0 = some (.fillReq 0 tile1 true true 0) ∧ s.homeAt 0 tile1 = .away 0) := by decide
theorem witness_GrantsAndLeases :
    let s (w : Nat) (ls : List Lease) := homed 0 [.grantReq 0 tile1 3 0] [home 3 0 0 w ls]
    (∀ w ∈ [noOwner, 5, parkedOwner], ∀ ls ∈ [[], [⟨4, 9, false⟩]], (s w ls).msg 0 = some (.grantReq 0 tile1 3 0) ∧ (s w ls).prqWaits (.fill 0 tile1) = false ∧
      (s w ls).waitsBefore 0 0 tile1 true = false ∧ (s w ls).outranked 0 0 0 tile1 0 = false ∧
      (s w ls).homeAt 0 tile1 = .here 0 ∧ (s w ls).homeRec 0 tile1 = some (home 3 0 0 w ls) ∧ (s w ls).mayTile 1024 ((s w ls).desc 0 1) tile1 = true) ∧
    (∀ m ∈ [Msg.grantAns 0 tile1, .retryAns 0 tile1], let s := framed .clean 3 (flying [m]); s.msg 0 = some m ∧ s.held 0 tile1 = some 16 ∧ (s.frame 0 16).st = .clean) := by
  decide
theorem witness_GrantsAndLeases_read : ∃ m, (homed 0 [.grantReq 0 tile1 3 0] [home 3 0 0 parkedOwner []]).readTile 1024 ((homed 0 [] []).desc 0 1) tile1 = .ok m :=
  ⟨_, rfl⟩
theorem witness_GrantsAndLeases_outranked :
    let s := { (homed 0 [.grantReq 0 tile1 3 9, .grantReq 5 tile1 3 0] [home 3 0 0 noOwner []]).updPart 0
      (fun p => ((p.setFld 0x5C 1 1).setFld 0x5D 1 1).setFld 0x5E 1 1) with dev := { Dev.reset with ptime := 100 } }
    s.msg 0 = some (.grantReq 0 tile1 3 9) ∧ s.outranked 0 0 0 tile1 9 = true ∧ s.outranked 0 1 5 tile1 0 = false := by decide
theorem witness_GrantsAndLeases_leases :
    let s (p : W64) (inb : Bool) : State :=
      { (State.reset.setFrame 0 16 { Frame.reset 16 with tile := tile1, st := .clean, lexp := 100 }) with
        dev := { Dev.reset with ptime := p, inb := inb }, homes := [home 3 0 0 noOwner [⟨2, 100, false⟩]], msgs := [.grantReq 0 tile1 3 0] }
    (((s 100 true).frame 0 16).lexp ≠ 0 ∧ ((s 100 true).frame 0 16).lexp ≤ (s 100 true).dev.ptime.toNat ∧ ((s 100 true).frame 0 16).ref = 0 ∧
      ((s 100 true).frame 0 16).st = .clean ∧ .leaseRecall tile1 ∉ (s 100 true).msgs) ∧ (s 99 true).dev.ptime.toNat < ((s 99 true).frame 0 16).lexp ∧
    (((s 99 true).send (.leaseRecall tile1)).dev.ptime.toNat < (((s 99 true).send (.leaseRecall tile1)).frame 0 16).lexp ∧
      ((s 99 true).frame 0 16).tile = tile1 ∧ .leaseRecall tile1 ∈ ((s 99 true).send (.leaseRecall tile1)).msgs) ∧
    ((s 140 true).homes[0]? = some (home 3 0 0 noOwner [⟨2, 100, false⟩]) ∧ (s 140 true).dev.inb = true ∧ 100 + 40 ≤ (s 140 true).dev.ptime.toNat ∧
      (s 139 true).dev.ptime.toNat < 100 + 40) ∧ ((s 0 false).dev.inb = false ∧ .grantReq 0 tile1 3 0 ∈ (s 0 false).msgs) := by decide
theorem witness_ReleasesAndAcquires :
    (∀ b ∈ [false, true], ∀ h ∈ [home 3 0 0 0 [], { home 3 0 0 0 [] with super := true }],
      let s := homed 0 [.release 0 tile1 0 9 b 4] [h]
      s.msg 0 = some (.release 0 tile1 0 9 b 4) ∧ s.waitsBefore 0 0 tile1 false = false ∧ s.homeOf 0 tile1 = .here 0 ∧ s.homeRec 0 tile1 = some h ∧
        h.wown = clusterOf 0 ∧ (h.super = false ↔ h = home 3 0 0 0 [])) ∧
    (∀ f ∈ [3, 4], let s := homed 0 [.tacq 0 9 tile1 f 0] [home 3 0 0 0 []]
      s.msg 0 = some (.tacq 0 9 tile1 f 0) ∧ s.isFilling 0 tile1 = false ∧ s.isDraining 0 tile1 = false ∧ s.homeAt 0 tile1 = .here 0 ∧
        s.homeRec 0 tile1 = some (home 3 0 0 0 []) ∧ s.held 0 tile1 = none ∧ (verGe 3 f = true ↔ f = 3) ∧ s.dev.ptime.toNat ≤ s.arrived 0 + (s.desc 0 1).leaseNs) ∧
    (let s := framed .clean 2 (homed 0 [.tacq 0 9 tile1 3 0] [home 3 0 0 0 []])
     s.held 0 tile1 = some 16 ∧ (s.frame 0 16).st = .clean ∧ verNewer 3 (s.frame 0 16).ver = true ∧ s.isDraining 0 tile1 = false) ∧
    (let s := homed 0 [.reduce 0 9 tile1 0 []] [home 3 0 0 noOwner []]
     s.msg 0 = some (.reduce 0 9 tile1 0 []) ∧ s.isDraining 0 tile1 = false ∧ s.waitsBefore 0 0 tile1 false = false ∧ s.moving tile1 = false ∧
       s.homeAt 0 tile1 = .here 0 ∧ s.homeRec 0 tile1 = some (home 3 0 0 noOwner []) ∧ (home 3 0 0 noOwner []).wown = noOwner ∧
       (home 3 0 0 noOwner []).loc ≠ 1 ∧ s.mayTile 1024 (s.desc 0 1) tile1 = true) := by decide
theorem witness_DrainsAndChecks :
    (written.beingWritten 0 (written.frame 0 16).tile 768 0 ≠ []) ∧
    (∀ w ∈ [Drain.serve none false, .grant, .serve (some 5) true], let s := State.reset.setFrame 0 16 { Frame.reset 16 with st := .draining, why := w }
      (s.frame 0 16).st = .draining ∧ (s.frame 0 16).why = w ∧ (s.frame 0 16).wasDirty = false ∧ s.beingWritten 0 (s.frame 0 16).tile 768 0 = []) ∧
    (let s := State.reset.setFrame 0 16 { Frame.reset 16 with st := .draining, why := .victim, next := some tile1, wasDirty := true }
     (s.frame 0 16).st = .draining ∧ (s.frame 0 16).why = .victim ∧ (s.frame 0 16).next = some tile1 ∧ (s.frame 0 16).wasDirty = true) ∧
    (∀ m ∈ [Msg.drainData 0 tile1 2 false 3 [(0, 7)] [], .wbData 0 tile1 2 false 3 [(0, 7)] true [(0, 32)]], let s := homed 0 [m] [home 3 1 0 0 []]
      let d := s.desc 0 1
      s.msg 0 = some m ∧ s.prqWaits (.wb 0 tile1) = false ∧ s.waitsBefore 0 0 tile1 false = false ∧ d.v = true ∧ d.shape = 2 ∧
        s.tileFault 1024 0 accW ((d.tileBytes tile1).filter (fun b => b.back)) = none) ∧
    (let s := flying [.wbData 0 tile1 0 false 3 [] false []]; (s.desc 0 1).v = false ∧ s.msg 0 = some (.wbData 0 tile1 0 false 3 [] false [])) ∧
    ((State.reset.core 767).run = .idle ∧ ((on (core [])).core 0).run = .task) := by decide

/-! ## Regions, atomics, the fabric and translations -/

theorem witness_RegionAndAtomicEvents :
    (∀ r ∈ [0x3FF, 0, 5], let s (m : Msg) : State := { flying [m] with recs := if r == 0x3FF then [] else [(0x2000, r)] }
      (s (.rel 0 0 0x2000 0x2000 7)).recOf 0 0x2000 = r ∧ (s (.rel 0 0 0x2000 0x2000 7)).msg 0 = some (.rel 0 0 0x2000 0x2000 7) ∧
        (s (.acq 0 0 0x2000 0x2000)).msg 0 = some (.acq 0 0 0x2000 0x2000) ∧ (s (.acq 0 0 0x2000 0x2000)).drainOpen 0 0x2000 = false ∧
        (s (.acq 0 0 0x2000 0x2000)).acqMayRead 0 0x2000 = true ∧ (s (.acq 0 0 0x2000 0x2000)).mayInject 0 0x2000 = true ∧
        (s (.rel 0 0 0x2000 0x2000 7)).hostBehind (s (.rel 0 0 0x2000 0x2000 7)).clock (.amo 0 0x2000 0 8 0 0 0 true 0) = false ∧
        (s (.rel 0 0 0x2000 0x2000 7)).mayInject 0 0x2000 = true) ∧
    (let s : State := { on { core [] with mq := [.store 0 0x2000 0x2000 [1] .core], loads := [⟨.g 9 false, [], 0, none, 1, false, true⟩] } with
        msgs := [.acq 0 0 0x2000 0x2000] }
     s.acqMayRead 0 0x2000 = false ∧ s.msg 0 = some (.acq 0 0 0x2000 0x2000)) ∧
    ((flying [.acq 0 0 0x2000 0x2000, .drainOrder 5 0 0x2000]).drainOpen 0 0x2000 = true ∧ (flying [.drainOrder 5 0 0x2000]).msg 0 = some (.drainOrder 5 0 0x2000) ∧
      (flying [.drainDone 5 0 0x2000]).msg 0 = some (.drainDone 5 0 0x2000)) ∧
    (let l : PLoad := ⟨.g 9 false, [], 0, none, 0, false, true⟩
     let s : State := { on { core [] with loads := [l] } with msgs := [.acqReply 0 0 0x2000 7] }
     s.msg 0 = some (.acqReply 0 0 0x2000 7) ∧ (s.core 0).loads = [l] ∧ l.acq = true) := by decide
theorem witness_RegionAndAtomicEvents_first : ∀ m ∈ (flying [.acq 0 0 0x2000 0x2000]).msgs.take 0, ∀ a b, m ≠ .rel 0 0 0x2000 a b := by simp
theorem witness_RegionAndAtomicEvents_atomics :
    let o (ret : Bool) : MemOp := .amo 0 0x100 0x100 8 9 5 0 ret 0
    let s (ret : Bool) := on { core [] with mq := [o ret] }
    (∀ ret ∈ [false, true], ((s ret).core 0).mq[0]? = some (o ret) ∧ (s ret).mayPerform 0 (o ret) = true ∧ (s ret).behind (clusterOf 0) none (o ret) = false ∧
      (s ret).mayInject 0 0x100 = true) ∧
    (let u : State := { s false with wq := [(5, 0)] }
     u.shareFull 0 0x100 = true ∧ u.wqHeld 0 0x100 ≠ []) ∧ ((s false).updPart 0 (fun p => p.setFld 0x105 1 1)).shareFull 0 0x100 = false := by decide
theorem witness_RegionAndAtomicEvents_host :
    let s := on { core [] with hostAt := .asked 0x40000000000000 8 10 5 0 }
    let o := MemOp.amo (s.core 0).nextSeq 0x40000000000000 0 8 10 5 0 true 0
    (s.core 0).hostAt = .asked 0x40000000000000 8 10 5 0 ∧ (10 : Nat) ≠ 0 ∧ (10 : Nat) ≠ 8 ∧ (10 : Nat) ≠ 16 ∧ s.mayPerform 0 o = true ∧
      s.behind (clusterOf 0) none o = false ∧ s.hostBehind s.clock o = false ∧ s.mayInject (s.core 0).csr.partid.toNat 0x40000000000000 = true := by decide
/-- A device whose partition 0 is enabled and maps its pages one to one, with a request at the target. -/
def target (off kind : Nat) : State := { State.reset.mapOne with msgs := [.fabReq none 3 kind off 5] }
theorem witness_FabricEvents :
    (∀ k ∈ [0, 1, 2], (target 0x20008 k).msg 0 = some (.fabReq none 3 k 0x20008 5) ∧ paKind 0x20008 = .localHbm ∧ (target 0x20008 k).mapped 0x20008 (fabricAcc k) = true) ∧
      (target 0x40000008 0).mapped 0x40000008 (fabricAcc 0) = false := by decide +kernel
theorem witness_FabricEvents_first : ∀ m ∈ (target 0x20008 0).msgs.take 0, ∀ k o x, m = .fabReq none 3 k o x → o / 8 ≠ 0x20008 / 8 := by simp
theorem witness_FabricEvents_leased :
    (State.reset.setFrame 0 16 { Frame.reset 16 with tile := tileOf 0 1, st := .clean, lexp := 100 }).leased (tileOf 0 1) = true := by decide +kernel
theorem witness_FabricEvents_answers :
    let x : Cmd := { cmd 9 (.rld g0 e2 3 1) .running with args := [0x80000000000008, 0] }
    let s := on { core [] with cmds := [x], toks := [(7, ⟨.pending, none, some 9, false⟩)] }
    (s.core 0).cmds[0]? = some x ∧ x.st = .running ∧ x.ready = false ∧ x.fail = none ∧ x.save = none ∧ fabricDev (nth x.args 0 0) ≠ s.dev.fabid ∧
      (s.core 0).run = .task ∧ ((s.core 0).tok x.tp).latest = some x.id ∧ (∀ y ∈ (s.core 0).cmds, x.id ∉ y.deps ∧ y.fail = none) ∧ s.dev.ptime.toNat < x.sentAt + 20000 ∧
      x.sentAt + 20000 ≤ ({ s with dev := { s.dev with ptime := 20000 } } : State).dev.ptime.toNat := by decide
theorem witness_TranslationEvents_pages :
    (let e : Prq := ⟨7, 0, 1, 5, []⟩
     let s : State := { State.reset with prq := [e] }
     bitOf (4096 + 7) 12 = true ∧ s.prq.find? (fun x => x.ix == (4096 + 7) % 4096) = some e) ∧
    (let e : Prq := ⟨7, 0, 2, 0, []⟩
     let s : State := { State.reset.mapOne.wrMem 0x11000 8 0x4000000000001F with prq := [e] }
     s.prq.find? (fun x => x.ix == 7) = some e ∧ s.hostPage e.part e.stage e.page = some (0x40000000000000 / 65536)) := by decide
theorem witness_TranslationEvents :
    (let b : Bump := ⟨0, 2, 0, 0x20000, false⟩
     let s (h : Bool) (g : List (Nat × Nat × Nat)) : State := { State.reset with bumps := [{ b with held := h }], hist := g }
     ∀ h ∈ [false, true], (s h []).firstBump 0 = some { b with held := h } ∧ (s h []).genPlaced = true ∧ (s h []).bumpPages { b with held := h } = [2] ∧
       (s h []).heldGen 2 2 = false ∧ (s h [(5, 1, 0)]).heldGen 2 2 = true) ∧
    (fld 0x10004 0 2 ≠ 3 ∧ 1 + fld 0x10004 2 1 = 2 ∧ (State.reset.bumps.filter (fun x => x.fn == 0)).length < 5) ∧
    5 ≤ (({ State.reset with bumps := List.replicate 5 ⟨0, 2, 0, 0, false⟩ } : State).bumps.filter (fun x => x.fn == 0)).length := by decide

end Sys2Proof.Test
end

