-- ==== Sys2Proof/Tests/WitnessHost.lean ====
section
/-! SUPPORT. States that meet the hypotheses of the statements about host rings, queue control, vacates, the device's registers, time,
resets and boot. -/

namespace Sys2Proof.Test

open Machine

set_option Elab.async false

/-! ## Host rings -/

/-- Function 1 lies in partition 0, which is enabled, holds cluster 0 and lets Omfin post; page 0 is mapped one to one for the host. -/
def owned : State :=
  { (State.reset.updPart 0 (fun p => ((((p.setFld 0 1 1).setFld 8 16 1).setFld 0x20 1 1).setFld 0xA4 1 2).setFld 0x5C 1 1)) with
    xlats := [⟨2048, 0, 0, 0, 7, 0, 0, 0⟩] }
/-- A command stands at the head of a ring of function 1, at host address 0, with fields (offset, bytes, value). -/
def ringed (q opc : Nat) (fs : List (Nat × Nat × Nat)) (s : State) : State :=
  (fs.foldl (fun s f => s.wrMem (0x40000000000000 + f.1) f.2.1 f.2.2) (s.wrMem 0x40000000000000 1 opc)).updQcb (qkey 1 q)
    (fun x => { x with pidx := 1, csz := 1, rsz := 1, qstate := if q = 16 then x.qstate else 0 })
theorem witness_HostRings :
    (∀ st ∈ [0, 255], let s := State.reset.updQcb 17 (fun x => { x with busy := some (9, st, 0, 0) }); (s.qcb (qkey 1 0)).busy = some (9, st, 0, 0) ∧ st < 256) ∧
      (∀ o ∈ [0x06, 0x10], let s := ringed 0 o [] owned
        (s.qcb 17).busy = none ∧ (s.ringHead 17).isSome = true ∧ s.ringHead 17 = some (s.bytes 0x40000000000000 64) ∧ s.refusal 17 (s.bytes 0x40000000000000 64) = some 6) := by
  decide +kernel
theorem witness_HostRings_known : (1 ≤ 256 ∧ 0 < 17) ∧ ¬ (1 ≤ 256 ∧ 17 < 17) ∧ ¬ (257 ≤ 256 ∧ 0 < 17) ∧ qkey 1 0 = 17 := by decide
/-- The bytes of the command at host address 0. -/
abbrev headOf (s : State) : List Byte := s.bytes 0x40000000000000 64
/-- An image at host address 0x1000 that is a code object without sections, named by a LOAD to guest address 0. -/
def loading (magic : Nat) : State := (ringed 0 1 [(8, 8, 0x1000), (0x18, 4, 64)] owned).wrMem 0x40000000001000 6 magic
/-- That code object. -/
def code1 : Code := ⟨0, 0, 0, false, [], [], [], [], []⟩
theorem witness_RingCommands_load :
    let s := loading 0x1314F4347
    s.goodOf 1 0 1 = some (headOf s) ∧ s.checkCode ⟨hostPa 0x1000, 64⟩ 0 0 = .ok code1 ∧ s.guestAddrs 0 0 64 (accR + accX) = .ok (upFrom 0 64) := by decide +kernel
theorem witness_RingCommands_bad_load :
    let s := loading 0x2314F4347
    s.goodOf 1 0 1 = some (headOf s) ∧ s.checkCode ⟨hostPa 0x1000, 64⟩ 0 0 = .error (0x20, 0) := by decide +kernel
theorem witness_RingCommands_unload :
    let s (l : SMap Launch) : State := { ringed 0 2 [] owned with codes := [(0, code1)], launches := l }
    ∀ l ∈ [[], [(0, launched 1)]], (s l).goodOf 1 0 2 = some (headOf (s l)) ∧ (s l).code (imgFld (headOf (s l)) 8 4) = some code1 ∧ code1.part = 0 ∧
      ((s l).launches.any (fun l => l.2.codeh == imgFld (headOf (s [])) 8 4 && !l.2.dropped) = true ↔ l ≠ []) := by decide +kernel
theorem witness_RingCommands_descriptor :
    let s (b : Nat) : State := (ringed 0 3 [(0x10, 8, 0x1000)] (owned.updPart 0 (fun p => p.setFld 0x58 4 1))).wrMem 0x40000000001009 1 b
    (∀ b ∈ [0, 1], (s b).goodOf 1 0 3 = some (headOf (s b)) ∧ imgFld (headOf (s b)) 8 4 = 0 ∧ ((s b).fnPart 1).getD 0 = 0) ∧
      descCheck ((s 0).bytes (hostPa 0x1000) 128) 0 (((s 0).part 0).fld 0x58 4) = none ∧
      descCheck ((s 1).bytes (hostPa 0x1000) 128) 0 (((s 1).part 0).fld 0x58 4) = some (12, 1) := by decide +kernel
/-- A LAUNCH of code object 0 with one root at guest address 0x4000. -/
def starting (handle : Nat) : State :=
  let s : State := { ringed 0 4 [(8, 4, handle), (0x10, 8, 0x4000), (0x18, 4, 1)] owned with codes := [(0, code0)] }
  (s.wrMem 0x4006 1 0x20).wrMem 0x4018 4 2
theorem witness_RingCommands_launch :
    let s := starting 0
    s.goodOf 1 0 4 = some (headOf s) ∧ (match s.takeLaunch 1 0 0 (headOf s) with
      | some (.ok (t, l)) => (t.launch l).map (fun x => x.live)
      | _ => none) = some 1 := by decide +kernel
theorem witness_RingCommands_refused :
    let s := starting 1
    s.goodOf 1 0 4 = some (headOf s) ∧ (match s.takeLaunch 1 0 0 (headOf s) with | some (.error e) => some e | _ => none) = some (4, 0) := by decide +kernel
/-- A LAUNCH whose root, for cluster 0, receives on a channel; every way of its ring's set is draining. -/
def crowded : State :=
  (upFrom 0 16).foldl (fun s k => s.setFrame 0 k { Frame.reset k with st := .draining })
    { (((starting 0).wrMem 0x4006 1 0).wrMem 0x4030 1 1) with codes := [(0, { code0 with chans := [(1, 1, 0)] })] }
theorem witness_RingCommands_waits :
    crowded.goodOf 1 0 4 = some (headOf crowded) ∧ (crowded.takeLaunch 1 0 0 (headOf crowded)).isNone = true := by decide +kernel
theorem witness_RingCommands_copy :
    let s := ringed 0 5 [(8, 8, 0x1000), (0x18, 8, 64)] owned
    s.goodOf 1 0 5 = some (headOf s) ∧ s.copySide 0 0x1000 64 accR true = .ok (upFrom 0x40000000001000 64) ∧ s.copySide 0 0 64 accW false = .ok (upFrom 0 64) ∧
      (upFrom 0 64).Nodup := by decide +kernel
/-- A bucket of partition 0 has a rate and is in debt: requests of local byte 0 wait. -/
def indebted (s : State) : State := (s.updPart 0 (fun p => p.setFld 0x102 1 1)).setBucket 0 (bucketOf 0) (-1)
theorem witness_RingCommands_held :
    (∀ a ∈ upFrom 0x40000000001000 64 ++ upFrom 0 64, (loading 0x1314F4347).mayInject 0 a = true) ∧
      (∃ a ∈ upFrom 0 64, (indebted (loading 0x1314F4347)).mayInject 0 a = false) ∧ (indebted (loading 0x1314F4347)).goodOf 1 0 1 = some (headOf (loading 0x1314F4347)) ∧
      (indebted (ringed 0 5 [(8, 8, 0x1000), (0x18, 8, 64)] owned)).goodOf 1 0 5 = some (headOf (ringed 0 5 [(8, 8, 0x1000), (0x18, 8, 64)] owned)) := by decide +kernel
theorem witness_RingCommands_copy_fault :
    let s := ringed 0 5 [(8, 8, 0x1000), (0x10, 8, 0x10000), (0x18, 8, 64)] owned
    s.goodOf 1 0 5 = some (headOf s) ∧ s.copySide 0 0x10000 64 accW false = .error ⟨6, 3, 0x10000⟩ := by decide +kernel

/-! ## Queue control -/

/-- Queue 0 in a state, with a launch or none, running tasks n, and a control command. -/
def control (opc st n : Nat) (fs : List (Nat × Nat × Nat)) (l : SMap Launch) : State :=
  (ringed 16 opc fs { owned with launches := l }).updQcb 17 (fun x => { x with qstate := st, runN := n })
theorem witness_QueueControl_start :
    ∀ st ∈ [0, 1, 2, 3], let s := control 0x10 st 0 [] []
      s.goodOf 1 16 0x10 = some (headOf s) ∧ imgFld (headOf s) 8 1 = 0 ∧ (s.qcb 17).qstate = st ∧ (s.qcb 17).saved = [] := by decide +kernel
theorem witness_QueueControl_stop :
    (∀ st ∈ [0, 3], let s := control 0x11 st 0 [] [(0, launched 1)]
      s.goodOf 1 16 0x11 = some (headOf s) ∧ imgFld (headOf s) 8 1 = 0 ∧ imgFld (headOf s) 0xA 1 = 0 ∧ (s.qcb 17).qstate = st ∧ (s.qcb 17).toSave = false ∧
        s.launches.any (fun e => e.2.key == 17 && !e.2.dropped) = true) ∧
    (∀ st ∈ [0, 3], let s := control 0x11 st 1 [(0xA, 1, 1)] []
      s.goodOf 1 16 0x11 = some (headOf s) ∧ imgFld (headOf s) 0xA 1 = 1 ∧ (s.qcb 17).qstate = st ∧ (s.qcb 17).runN ≠ 0) := by decide +kernel
theorem witness_QueueControl_swap :
    ∀ st ∈ [0, 3], let s := (control 0x12 0 0 [(9, 1, 15)] [(0, launched 1)]).updQcb (qkey 1 15) (fun x => { x with qstate := st })
      s.goodOf 1 16 0x12 = some (headOf s) ∧ imgFld (headOf s) 8 1 = 0 ∧ imgFld (headOf s) 9 1 = 15 ∧ imgFld (headOf s) 0xA 1 = 0 ∧ s.vacating 1 = false ∧
        (s.qcb 17).qstate = 0 ∧ (s.qcb (qkey 1 15)).qstate = st ∧ (s.qcb (qkey 1 15)).saved = [] ∧ s.launches.any (fun e => e.2.key == 17 && !e.2.dropped) = true := by
  decide +kernel

/-! ## Vacates -/

/-- A vacate of queue 0 of function 1 that runs on, posted by Omfin. -/
def vac (done : Bool) (st deadline : Nat) : Vacate := ⟨2, 1, 1, 0, deadline, false, none, [(17, 0, st)], [], [], 1, done, 2000⟩
theorem witness_Vacates_post :
    State.reset.targetPart 2 1 = none ∧ owned.targetPart 2 1 = some 0 ∧ owned.mayPost 0 1 = true ∧
      (owned.updPart 0 (fun p => p.setFld 0xA4 1 0)).mayPost 0 1 = false ∧
      ({ owned with vacates := [vac false 0 0] } : State).vacates.any (fun x => x.part == 0 && !x.done) = true ∧
      owned.vacates.any (fun x => x.part == 0 && !x.done) = false ∧ owned.targetQueues 2 1 1 = [17] := by decide +kernel
theorem witness_Vacates_choices :
    (match owned.choose [17] ⟨2, 0, 10 ^ 9, [(17, 0)], [], [17]⟩ with | .ok p => some p.queues | .error _ => none) = some [(17, 0)] ∧
      (match owned.choose [17] ⟨2, 0, 0, [(17, 0)], [], [17]⟩ with | .ok _ => none | .error e => some e) = some (0x10, 0) ∧
      (owned.popFrames 0 (owned.planFrames [(17, 0)])).isSome = true := by decide +kernel
theorem witness_Vacates_holds :
    let s : State := { owned with dev := { owned.dev with opreq := 0x04B00140, opbusy := true } }
    s.dev.opbusy = true ∧ fld s.dev.opreq.toNat 16 16 < s.dev.opcur.1 ∧ s.targetPart 2 1 = some 0 ∧ s.mayPost 0 1 = true ∧
      s.vacates.any (fun x => x.part == 0 && !x.done) = false := by decide +kernel
/-- The vacate stands at PTIME ptime; queue 0 has rem cycles of work. -/
def evaluating (ptime : W64) (dl rem : Nat) : State :=
  State.updQcb { owned with vacates := [vac false 0 dl], dev := { owned.dev with ptime := ptime } } 17 (fun x => { x with rem := rem })
/-- The evaluation's time has come, and the next one is 2,000 ns away. -/
def evaluated (ptime : W64) (dl rem : Nat) : State :=
  let s := evaluating ptime dl rem
  { s with vacates := modNth s.vacates 0 (fun x => { x with next := x.next + 2000 }) }
theorem witness_Vacates_evaluation :
    ((evaluating 1999 0 0).dev.ptime.toNat < (vac false 0 0).next ∧ (vac false 0 0).next ≤ (evaluating 2000 0 0).dev.ptime.toNat) ∧
    ((evaluating 2000 (10 ^ 9) 0).vacates[0]? = some (vac false 0 (10 ^ 9)) ∧ (evaluated 2000 (10 ^ 9) 0).runFits (vac false 0 (10 ^ 9)).plan 17 = true ∧
      (evaluated 2000 (10 ^ 9) 0).fits ((vac false 0 (10 ^ 9)).plan.with 17 1) 2000 = true) ∧
    ((evaluated 2000 0 1).runFits (vac false 0 0).plan 17 = false ∧ ((evaluating 2000 0 1).qcb 17).disc = false) := by decide +kernel
theorem witness_Vacates_vacancy :
    let s (l : SMap Core) : State := { owned with vacates := [vac false 0 0], launches := [(0, launched 1)], cores := l }
    (s []).vacant (vac false 0 0) = true ∧ (s [(0, core [])]).vacant (vac false 0 0) = false ∧ (vac false 0 0).tag = none := by decide +kernel
theorem witness_Vacates_resume :
    owned.vacated 2 1 1 = none ∧ ∀ st ∈ [0, 3], let s : State := { owned with vacates := [vac true st 0] }
      s.vacated 2 1 1 = some (0, vac true st 0) ∧ (vac true st 0).queues = [(17, 0, st)] ∧ (s.qcb 17).saved = [] ∧ (vac true st 0).lists = [] := by decide +kernel

/-! ## The device -/

/-- The owner is Omfin (1) or nobody (0). -/
def device (o : W64) : State := { State.reset with dev := { Dev.reset with owner := o } }
/-- The owner's register of Omfin. -/
abbrev omfin : State := device 0x0100000000000000
theorem witness_DeviceRegisters_owner :
    (fld (device 0).dev.owner.toNat 56 8 = 0 ∧ fld 0x0100000000000000 56 8 = 1) ∧ fld omfin.dev.owner.toNat 56 8 = 1 ∧
      -- 320 mV, 1,500 MHz and 420 mV, 2,500 MHz lie on the bound; 25 MHz more do not
      (∀ x ∈ [(320, 1500), (420, 2500)], 320 ≤ x.1 ∧ x.1 ≤ 420 ∧ x.2 % 25 = 0 ∧ 800 ≤ x.2 ∧ x.2 + 3500 ≤ 1800 + 10 * x.1) ∧ ¬ 1525 + 3500 ≤ 1800 + 10 * 320 ∧
      ({ omfin with dev := { omfin.dev with opbusy := true } } : State).dev.opbusy = true := by decide
/-- A change of the operating point to 1,200 MHz at a voltage is under way. -/
def changing (mv : Nat) (mhz now : Nat) : State :=
  { omfin with dev := { omfin.dev with opbusy := true, opreq := BitVec.ofNat 32 (mhz * 65536 + mv), opcur := (now, 350) } }
theorem witness_DeviceRegisters_switch :
    let r (s : State) : Nat × Nat := (fld s.dev.opreq.toNat 16 16, fld s.dev.opreq.toNat 0 16)
    (let s := changing 360 1900 1800; s.dev.opbusy = true ∧ s.dev.opcur.2 < (r s).2) ∧
      (let s := changing 340 1700 1800; s.dev.opbusy = true ∧ (r s).2 ≤ s.dev.opcur.2 ∧ s.dev.opcur.1 ≠ (r s).1) ∧
      (let s := changing 340 1700 1700; s.dev.opbusy = true ∧ (r s).2 ≤ s.dev.opcur.2 ∧ s.dev.opcur.1 = (r s).1) ∧ omfin.dev.opbusy = false := by decide
theorem witness_DeviceRegisters_clusters :
    (let s : State := { omfin with cores := [(0, core [])] }; (0 : Nat) < 96 ∧ fld 2 (2 * 0) 2 = 2 ∧ s.clState 0 ≠ 2 ∧ s.gateOk 0 = false) ∧
      (∀ cl, cl < 96 → fld 1 (2 * cl) 2 ≠ 2) ∧ mget ({ omfin with dev := { omfin.dev with wake := [(95, 1)] } } : State).dev.wake 95 0 = 1 := by decide
/-- Partition 47 with cluster 95, 1 descriptor, a fault ring of 2^6 records, weight and shares 1, not enabled. -/
def configured : State :=
  let p := (((((Part.reset.setFld 8 16 (2 ^ 95)).setFld 0x58 4 1).setFld 0x70 1 6).setFld 0x5C 1 1).setFld 0x5D 1 1).setFld 0x5E 1 1
  { omfin with parts := [(47, { p with tab := p.tab ++ (upFrom 0 256).map (fun ch => (0x101 + 4 * ch, 1)) })] }
theorem witness_DeviceRegisters_partitions :
    ((configured.part 47).en = false ∧ enableOk (configured.part 47) (configured.others 47) = true) ∧
      enableOk (omfin.part 47) (omfin.others 47) = false ∧ configured.launches.any (fun l => l.2.part == 47 && !l.2.dropped) = false ∧
      (∀ k ∈ configured.partQueues 47, (configured.qcb k).saved = []) ∧ configured.vacates = [] ∧ owned.fnPart 1 = some 0 := by decide +kernel
theorem witness_TimeResetsAndBoot :
    let s (p : W64) (t : BitVec 16) (b : Nat) (ready fail : Bool) : State :=
      { State.reset with dev := { Dev.reset with ptime := p, therm := t, boot := b, ready := ready, bootfail := fail, spdm := b } }
    ((s 125000000 0 0 false false).dev.sync + 125000000 ≤ (s 125000000 0 0 false false).dev.ptime.toNat ∧
      (s 124999999 0 0 false false).dev.ptime.toNat < (s 124999999 0 0 false false).dev.sync + 125000000) ∧
    (880 ≤ (s 0 880 0 false false).dev.therm.toNat ∧ (s 0 879 0 false false).dev.therm.toNat < 880) ∧
    (∀ b ∈ [0, 1, 2, 3], (s 0 0 b false false).dev.bootfail = false ∧ (s 0 0 b false false).dev.ready = false ∧ (s 0 0 b false false).dev.boot = b ∧
      (s 0 0 b false false).dev.spdm = b) ∧ ((s 0 0 0 false true).dev.bootfail = true ∧ (s 0 0 4 true false).dev.ready = true) ∧
    (msorted State.reset.buckets = true ∧ 16 ≤ ((s 16 0 0 false false).dev.ptime - (s 16 0 0 false false).dev.refilled).toNat ∧
      ((s 15 0 0 false false).dev.ptime - (s 15 0 0 false false).dev.refilled).toNat < 16) ∧ fld omfin.dev.owner.toNat 56 8 = 1 := by decide
theorem witness_TimeResetsAndBoot_counter :
    let s : State := { State.reset with pmcs := [(8 * (768 + 5), ⟨0, 0x8000002A⟩)] }
    ∀ e ∈ s.pmcs, e.1 / 8 = 768 + (128 * 3 + 5) % 128 ∧ e.2.selects 0x2A ((128 * 3 + 5) / 128) = true := by decide

end Sys2Proof.Test
end

