-- ==== Sys2Proof/Tests/WitnessResults.lean ====
section
/-! SUPPORT. States that meet the hypotheses of the statements about bundles, save areas, what engine commands leave, and rounding. -/

namespace Sys2Proof.Test

open Machine

set_option Elab.async false

/-! ## Bundles -/

/-- A task's core that reached a by v, where memory holds words, with CSRs. -/
def coded (a : Nat) (v : Via) (ws : List Nat) (r : Csr) : State :=
  (on { core [(1, 5), (2, 7)] with pc := a, via := v, csr := r }).mapOne.wrBytes a (ws.flatMap (toBytes 4))
/-- The hypotheses about the core, and the words of a bundle at a. -/
abbrev atBundle (s : State) (a : Nat) (ws : List Nat) : Prop :=
  s.agenda = [] ∧ s.clocked 0 = true ∧ s.me.run = .task ∧ s.me.settle = false ∧ s.me.via ≠ .skip ∧ s.me.saveDue = false ∧ s.me.handlerDue = false ∧
    a = (if s.me.via = .seq then s.skipPads 0 padLimit s.me.pc else s.me.pc) ∧ (upFrom 0 ws.length).map (fun n => s.fetchWord 0 (a / 4 * 4 + 4 * n)) = ws.map Except.ok
theorem witness_BundleIssue_fetch :
    atBundle (coded 0x40000000 .target [] Csr.reset) 0x40000000 [] ∧ (coded 0x40000000 .target [] Csr.reset).fetchWord 0 0x40000000 = .error ⟨6, 3, 0x40000000⟩ ∧
      atBundle (coded 0x20000 .target [5] { Csr.reset with lcnt := 0 }) 0x20000 [5] ∧
      (let s := (coded 0x20000 .target [5] Csr.reset).updMe (fun c => { c with pc := 0x20002 }); atBundle s 0x20002 [5] ∧ 0x20002 % 4 ≠ 0) := by decide
theorem witness_BundleIssue_headers :
    (∀ v ∈ [0xFFFFFFFF, 5, 2 ^ 31 - 1], ∀ w ∈ [Via.target, .seq], v = 0xFFFFFFFF ∧ w = .seq ∨ atBundle (coded 0x20000 w [v] Csr.reset) 0x20000 [v]) ∧
    (∀ h ∈ [(⟨0, 1, 0, 1, 0, 0, 0⟩ : Header), ⟨64, 0, 0, 31, 0, 0, 0⟩, ⟨0, 0, 0, 0, 0, 0, 1⟩, ⟨64, 0, 0, 0, 15, 0, 0⟩], atBundle (coded 0x20000 .target [h.word] Csr.reset) 0x20000 [h.word] ∧
      headerOf h.word = h ∧ 2 ^ 31 ≤ h.word ∧ h.word < 0xFFFFFFFF) := by decide
theorem witness_BundleIssue_words :
    (let h : Header := ⟨64, 0, 0, 0, 0, 0, 0⟩
     atBundle (coded 0x2003C .target [h.word] Csr.reset) 0x2003C [h.word] ∧ h.slots ≠ [] ∧ 0x2003C % 64 = 60 ∧
       atBundle (coded 0x20038 .target [h.word, 0xFFFFFFFF] Csr.reset) 0x20038 [h.word, 0xFFFFFFFF]) ∧
    (∀ h ∈ [(⟨128, 1, 0, 0, 0, 0, 0⟩ : Header), ⟨128, 15, 1, 0, 0, 0, 0⟩], ∀ op ∈ [1, 9, 13, 14, 15],
      atBundle (coded 0x20000 .target [h.word, op * 2 ^ 24] Csr.reset) 0x20000 [h.word, op * 2 ^ 24] ∧ Slot.c ∈ h.slots ∧ h.rep ≠ 0) ∧
    (∀ sl ∈ [Slot.c, .i0, .i1, .v0, .v1, .m, .x, .l], atBundle (coded 0x20038 .target [soleHeader sl, 0] Csr.reset) 0x20038 [soleHeader sl, 0]) := by decide
theorem witness_BundleIssue_unknown : ∀ sl ∈ [Slot.c, .i0, .i1, .v0, .v1, .m, .x, .l], ∃ e, decodeSlot sl.cls 0 none = .error e := by
  intro sl _; cases sl <;> exact ⟨_, rfl⟩
/-- The words of two slots without extension words, and the hypotheses about them. -/
def slotWords (i j : Instr) (sl sm : Slot) (rep : Nat) : List Nat :=
  [Header.word ⟨2 ^ sl.bit + 2 ^ sm.bit, rep, 0, 0, 0, 0, 0⟩, (encode i).1, (encode j).1]
abbrev twoSlots (i j : Instr) (sl sm : Slot) (rep : Nat) : Prop :=
  atBundle (coded 0x20034 .target (slotWords i j sl sm rep) Csr.reset) 0x20034 (slotWords i j sl sm rep) ∧ (encode i).2 = none ∧ (encode j).2 = none ∧
    decodeSlot sl.cls (encode i).1 none = .ok i ∧ decodeSlot sm.cls (encode j).1 none = .ok j
theorem witness_BundleIssue_shared :
    twoSlots (.add g0 3 1 2) (.sub g0 3 1 2) .i0 .i1 15 ∧ dstsOf (.add g0 3 1 2) = [.g 3 false] ∧ dstsOf (.sub g0 3 1 2) = [.g 3 false] := by decide
theorem witness_BundleIssue_wide :
    twoSlots (.vand g0 ⟨1, 2, 3, 0, 0, none⟩) (.vand g0 ⟨2, 2, 3, 0, 0, none⟩) .v0 .v1 0 ∧
      1024 < rawBits (encode (.vand g0 ⟨1, 2, 3, 0, 0, none⟩)).1 + rawBits (encode (.vand g0 ⟨2, 2, 3, 0, 0, none⟩)).1 := by decide
theorem witness_BundleIssue_onlyI0 : twoSlots (.add g0 3 1 2) (.mul g0 4 1 2) .i0 .i1 0 ∧ onlyI0 (.mul g0 4 1 2) = true := by decide
theorem witness_BundleIssue_both :
    twoSlots (.add g0 1 1 2) (.sub g0 2 1 2) .i0 .i1 3 ∧ Ready (.add g0 1 1 2) (coded 0x20034 .target [] Csr.reset) ∧
      Ready (.sub g0 2 1 2) (coded 0x20034 .target [] Csr.reset) := by decide
theorem witness_BundleIssue_sticky :
    (let r := { Csr.reset with stickv0 := recordOf (.vand g0 ⟨1, 2, 3, 0, 0, none⟩) }
     let h : Header := ⟨0, 0, 1, 0, 15, 0, 0⟩
     atBundle (coded 0x20038 .target [h.word] r) 0x20038 [h.word] ∧ bitOf r.stickv1.toNat 63 = false ∧ bitOf r.stickl.toNat 63 = false ∧
       stickyBase (.vand g0 ⟨1, 2, 3, 0, 0, none⟩) = none ∧ (match exec (.vand g0 ⟨1, 2, 3, 0, 0, none⟩) (coded 0x20038 .target [h.word] r) with | .next _ => true | _ => false) = true) ∧
    (let r := { Csr.reset with stickl := recordOf (.ldD ⟨1, 0⟩ 5 1 0 none) }
     let h : Header := ⟨0, 0, 1, 0, 0, 0, 5⟩
     let s := coded 0x20038 .target [h.word] r
     atBundle s 0x20038 [h.word] ∧ bitOf r.stickv0.toNat 63 = false ∧ stickyBase (.ldD ⟨1, 0⟩ 5 1 0 none) = some 1 ∧ s.me.guard ⟨1, 0⟩ = false ∧
       s.me.pending (s.me.dg 1) = false ∧ (encode (.ldD ⟨1, 0⟩ 5 1 0 none)).2 = none ∧
       decodeSlot .l (encode (.ldD ⟨1, 0⟩ 5 1 0 none)).1 none = .ok (.ldD ⟨1, 0⟩ 5 1 0 none)) := by decide

/-! ## Aborts, saves and resumptions -/

/-- A core whose abort, or save, has nothing to wait for, with a DIRTY line and a pin; its task belongs to a launch. -/
def ending (r : Run) : State :=
  { on { line0 .dirty (core [(1, 5)]) with run := r, abort := some ⟨2, 0, 0x1000, 0⟩, pins := [⟨0, 1, 0⟩] } with launches := [(0, launched 1)] }
theorem witness_TrapEntry_ends :
    let s := ending .aborting
    s.agenda = [] ∧ s.clocked 0 = true ∧ s.me.run = .aborting ∧ s.me.abort = some ⟨2, 0, 0x1000, 0⟩ ∧ (∀ n, n < 64 → (s.me.tok n).st ≠ .pending) ∧
      s.me.cmds = [] ∧ s.storesDone 0 = true ∧ s.launch s.me.task.launch = some (launched 1) ∧ (s.qcb (launched 1).key).toSave = false ∧ s.me.l0 ≠ [] := by decide
/-- A code object whose liveness set 0 names g1. -/
def live1 : Code := ⟨0, 0, 0, false, [], [⟨2, 0, 0, 0, 0, 0, 0, 0, 0, 0, []⟩], [], [], []⟩
/-- The same save, with one frame on the partition's free list. -/
def saving : State :=
  ({ ending (.saving false false true) with codes := [(0, live1)] } : State).updPart 0 (fun p =>
    (((p.setFld 0x78 8 0x80000).setFld 0x80 4 1).setFld 0x84 4 0).setFld 0x88 4 1)
theorem witness_SavedTask_saves :
    saving.agenda = [] ∧ saving.clocked 0 = true ∧ saving.me.run = .saving false false true ∧ saving.me.savable = true ∧ saving.systemDone 0 = true ∧
      saving.queueOf 0 = some (launched 1).key ∧ (saving.qcb (launched 1).key).toSave = false ∧ saving.me.cmds = [] ∧
      (saving.saveFrames 0 ((saving.liveSet 0 false).frames saving.me)).map (fun r => r.2.length) = some 1 := by decide
theorem reads_back (b : List Byte) (n : Nat) (h : b.length = n) : (State.reset.wrBytes 0x200000 b).bytes 0x200000 n = b := by
  subst h; exact mgetBytes_msetBytes
theorem witness_SavedTask_resumes (c : Core) (l : LiveSet) :
    (State.reset.wrBytes 0x200000 (saveHeader c l true false 0 [0x300000])).bytes 0x200000 4096 = saveHeader c l true false 0 [0x300000] :=
  reads_back _ _ (saveHeader_length ..)

/-! ## What engine commands leave -/

/-- A descriptor image: bytes 8 and 9, EXT0 and EXT1. -/
def image (b8 b9 e0 e1 : Nat) : List Byte :=
  (upFrom 0 128).map (fun n => if n == 8 then BitVec.ofNat 8 b8 else if n == 9 then BitVec.ofNat 8 b9 else if n == 32 then 4 else if n == 41 || n == 24 || n == 28 then 1
    else if n == 16 then BitVec.ofNat 8 e0 else if n == 20 then BitVec.ofNat 8 e1 else 0)
/-- Identifiers 1 and 2 are FP32 tensors of shape 2, 3 one of shape 3, 4 a W1 weight-code tensor. -/
def images : List (Nat × List Byte) := [(1, image 0 0x23 64 64), (2, image 0 0x23 64 64), (3, image 0 0x33 32 128), (4, image 0x10 0x23 64 64)]
/-- A tile's name as a q register holds it. -/
abbrev qOf (tid : Nat) : Nat := tid * 2 ^ 44
/-- A command that runs on core 0. -/
def runs (i : Instr) (args res : List Nat) : Cmd := { cmd 9 i .running with args := args, res := res, imgs := images, ready := true }
/-- Core 0 runs it, with tile 1, and the tile after it, in DIRTY frames and a VALID table z0; v in mode 1 with codebook 1 as z1. -/
def runningOn (x : Cmd) : State :=
  let f (t : Tile) (s : State) : State := s.updFrame 0 (16 * t.set + t.tid) (fun f => { f with tile := t, st := .dirty, ver := 3, data := [(0, 5), (16384, 1)] })
  f (tileOf 0 (qOf 1)) (f ((tileOf 0 (qOf 1)).step 0 1) (f (tileOf 0 (qOf 2)) (f (tileOf 0 (qOf 3)) (on { core [] with
    cmds := [x], toks := [(7, ⟨.pending, none, some 9, false⟩)],
    regs := { Regs.reset with zr := [(0, ⟨1, 0, 3, 0, 0, 0, .valid⟩), (1, ⟨1, 0, 3, 0, 1, 1, .valid⟩)], wcnt := [(1, 16)] } }))))
/-- What every clause asks of the command. -/
abbrev isRunning (x : Cmd) : Prop :=
  ((runningOn x).core 0).cmds[0]? = some x ∧ x.st = .running ∧ x.fail = none ∧ ((runningOn x).core 0).run ≠ .aborting ∧ ((runningOn x).core 0).stalled = false ∧
    x.save = none ∧ (((runningOn x).core 0).tok x.tp).latest = some x.id
theorem witness_MatrixResults :
    (∀ i ∈ [Instr.mma g0 e2 7 1 2 0 1 0 0 1 1 0 0, .mma g0 e2 0 1 2 1 1 1 1 0 1 0 0, .mlda g0 e2 7 15 0 0, .mlda g0 e2 0 1 1 0, .tbuild g0 e2 0 1 0 0 0 1, .tbuild g0 e2 15 1 0 1 1 1,
      .cbld g0 e2 1 1 16, .cbld g0 e2 3 1 0], isRunning (runs i [qOf 1, qOf 2] [])) := by decide
theorem witness_MatrixResults_msta :
    let x := runs (.msta g0 e2 7 1 1 0 2 0) [qOf 1] []
    let d := x.desc (runningOn x) 1
    isRunning x ∧ ((runningOn x).hit 0 (tileOf 0 (qOf 1))).isSome = true ∧ d.wsel = 0 ∧ d.scaled = false ∧ (fmtClass d.fmt).isSome = true ∧ d.winShape = true ∧ 0 < d.winParts := by
  decide
theorem witness_MatrixResults_lookups :
    (∀ i ∈ [Instr.tlook g0 e2 7 0 1 0 3 0 1, .tlookR g0 e2 0 0 1 0 0 3 1], isRunning (runs i [qOf 4] [0]) ∧ isRunning (runs i [qOf 4] [1])) ∧
    (let x := runs (.tlook g0 e2 0 1 1 0 3 0 1) [qOf 4] [0]
     isRunning x ∧ (((runningOn x).core 0).zrec 1).mode = 1 ∧ codesOk ((runningOn x).core 0) (x.desc (runningOn x) 4) [] 1 0 1 (upFrom 48 16) = true) := by decide
theorem witness_MatrixResults_images :
    (∀ z ∈ [0, 1], ∀ f ∈ [0, 1], let x := runs (.zsave g0 e2 z f 1 0) [qOf 1] [(⟨1, 0, 3, 0, 0, 0, .valid⟩ : ZRec).bits]
      isRunning x ∧ (((runningOn x).core 0).zrec z).st ≠ .empty ∧ ((runningOn x).hit 0 (tileOf 0 (qOf 1))).isSome = true ∧
        ((runningOn x).hit 0 ((tileOf 0 (qOf 1)).step 0 1)).isSome = true) ∧
    (let x := { runs (.zload g0 e2 15 1 1 0) [qOf 1] [] with snap := [(tileOf 0 (qOf 1), 3, msetBytes [] 16384 (toBytes 16 (⟨1, 0, 3, 0, 0, 0, .valid⟩ : ZRec).bits))] }
     isRunning x ∧ recordBad (ofBytes (mgetBytes (x.tile (tileOf 0 (qOf 1))).2 16384 16)) = false ∧
       ((runningOn x).hit 0 ⟨0, 1, 0⟩).isSome = true ∧ isRunning (runs (.zload g0 e2 15 0 1 0) [0x20000] []) ∧ recordBad (ofBytes (List.replicate 16 0)) = false) := by decide
theorem witness_MatrixResults_memory :
    (on (core [])).mapOne.engAddrs 0 0 0x20000 2 accW = .ok [0x20000, 0x20001] ∧ (on (core [])).mapOne.engAddrs 0 0 0x20000 2 accR = .ok [0x20000, 0x20001] ∧ [0x20000, 0x20001].Nodup := by
  decide
/-- The code object of core 0's task, which may hold one pin, with an itinerary of two tiles; launch 0 is of it. -/
def withTask (x : Cmd) : State :=
  { runningOn x with codes := [(0, ⟨0, 0, 0, false, [⟨0, 0, 0, 0, 1⟩], [], [[(qOf 1, 2, 0, 1, 0)]], [], []⟩)], launches := [(0, launched 1)] }
theorem witness_TileResults_hints :
    (∀ i ∈ [Instr.tfetch g0 e2 1 7, .thint g0 e2 1 6 1, .thint g0 e2 1 1 6], isRunning (runs i [qOf 1] []) ∧ (withTask (runs i [qOf 1] [])).pinFault 0 (tileOf 0 (qOf 1)) = none ∧
      ((withTask (runs i [qOf 1] [])).held 0 (tileOf 0 (qOf 1))).isSome = true) ∧
    (let x := runs (.tfetch g0 e2 1 1) [qOf 1] []; ((runningOn x).pinFault 0 (tileOf 0 (qOf 1))).isSome = true) := by decide
theorem witness_TileResults_copies :
    (∀ p ∈ [(1, 2), (1, 3)], ∀ tr ∈ [0, 1], let x := runs (.tcopy g0 e2 1 2 tr) [qOf p.1, qOf p.2] []
      let ds := x.desc (runningOn x) p.1
      let dd := x.desc (runningOn x) p.2
      isRunning x ∧ ((runningOn x).hit 0 (tileOf 0 (qOf p.2))).isSome = true ∧ ds.wsel = 0 ∧ dd.wsel = 0 ∧ ds.fmt = dd.fmt ∧
        (p.2 = 2 ∧ ds.shape = dd.shape ∧ ds.scaled = false ∧ dd.r = ds.e ∧ dd.e = ds.r ∨ p.2 = 3 ∧ ds.shape ≠ dd.shape)) ∧
    isRunning (runs (.tcopyMem g0 e2 1 0 1) [qOf 1, 0x20000] []) ∧
    (∀ l ∈ [[63], [0xFFFFFFFF, 1, 1]], let x := runs (.tscat g0 e2 1 2 1 0) [qOf 1, qOf 2] l
      isRunning x ∧ (∀ r ∈ x.res, r = 0xFFFFFFFF ∨ r < (x.desc (runningOn x) 2).r) ∧ x.res.length ≤ (x.desc (runningOn x) 1).r) := by decide +kernel
theorem runs_isRunning (i : Instr) (a l : List Nat) : isRunning (runs i a l) ∧ (runs i a l).res = l :=
  ⟨⟨rfl, rfl, rfl, (fun h => Run.noConfusion h), rfl, rfl, rfl⟩, rfl⟩
theorem witness_TileResults_gather (idx : List Int) (ds : Desc) :
    ∃ x : Cmd, isRunning x ∧ x.ins = .tgath g0 e2 1 2 1 0 ∧ x.args = [qOf 1, qOf 2, 0] ∧
      x.res = (gatherRows State.reset 0 0 ds ds (tileOf 0 (qOf 2)) idx []).flatMap (fun e => [e.1, e.2.toNat]) :=
  ⟨runs _ _ _, (runs_isRunning ..).1, rfl, rfl, (runs_isRunning ..).2⟩
/-- Cluster 2 holds channel 3 of launch 0, with one full slot. -/
def withChan (x : Cmd) : State := (runningOn x).updCluster 2 (fun c => { c with chans := [⟨0, 3, 2, 3, 3, [], [(1, ⟨2, 0, []⟩)]⟩] })
theorem witness_TileResults_channels :
    ∀ i ∈ [Instr.chsend g0 e2 3 1, .chrecv g0 e2 3 1], let s := withChan (runs i [qOf 1] [])
      isRunning (runs i [qOf 1] []) ∧ s.chan 0 3 = some (2, ⟨0, 3, 2, 3, 3, [], [(1, ⟨2, 0, []⟩)]⟩) ∧ s.clusters.Pairwise (fun y z => y.1 ≠ z.1) ∧
        (∀ y ∈ s.clusters, ∀ o ∈ y.2.chans, o.launch = 0 → o.ch = 3 → y.1 = 2) ∧ (s.hit 0 (tileOf 0 (qOf 1))).isSome = true := by decide
theorem witness_TileResults_desc :
    (∀ l ∈ [image 0 0x23 64 64, image 0 0x22 64 64, image 3 0x23 64 64], ∀ tid ∈ [1, 7], let x := runs (.desc g0 e2 1 2) [tid, 0] (l.map (fun b => b.toNat))
      isRunning x ∧ x.res.length = 128) ∧
    descCheck (image 0 0x23 64 64) 1 4 = none ∧ (descCheck (image 0 0x23 64 64) 7 4).isSome = true ∧ descCheck (image 0 0x22 64 64) 1 4 = none := by decide +kernel
theorem witness_TileResults_itineraries :
    (∀ ix ∈ [0, 1], let x := runs (.itin g0 e2 1 ix 3) [] []
      isRunning x ∧ (withTask x).launches.find? (fun y => y.1 == x.launch) = some (0, launched 1) ∧ ((withTask x).code 0).isSome = true) ∧
    (∀ pos ∈ [1, 2], let x := runs (.itstep g0 e2 1 15) [] []
      let s := (withTask x).updCore 0 (fun c => { c with itin := [(1, ⟨0, pos, 2⟩)] })
      isRunning x ∧ (s.code (s.core 0).task.codeh).isSome = true ∧ (s.core 0).itin.find? (fun y => y.1 == 1) = some (1, ⟨0, pos, 2⟩) ∧
        ((withTask x).core 0).itin.find? (fun y => y.1 == 1) = none) := by decide
theorem witness_TileResults_counters :
    (∀ v ∈ [(0 : W32), 1], (({ State.reset with bcs := [(3, ⟨v, 0b101, 255⟩)] } : State).bc 3).value = v) ∧ (State.reset.part 0).ctr 3 = 3 ∧
      isRunning (runs (.tdecbArm g0 e2 1 2) [3, 0] []) ∧ isRunning (runs (.tdecbArm g0 e2 1 2) [3, 1] []) :=
  ⟨fun _ _ => rfl, by decide +kernel, (runs_isRunning ..).1, (runs_isRunning ..).1⟩
theorem witness_TileResults_replies (i : Instr) (a : List Nat) (h : i = .rld g0 e2 0 1 ∨ i = .rfaa g0 e2 63 1 2) :
    isRunning (runs i a [7]) ∧ (runs i a [7]).ready = true ∧ (i = .rld g0 e2 0 1 ∨ i = .rfaa g0 e2 63 1 2) := ⟨(runs_isRunning ..).1, rfl, h⟩
theorem witness_TileResults_starts :
    (∀ i ∈ [Instr.trel g0 e2 1, .tacq g0 e2 1 7, .tspawn g0 e2 1, .tdec g0 e2 1, .tdecb g0 e2 1, .tinv g0 e2 1 0 0], isRunning (runs i [qOf 1] [])) ∧
    (let x := runs (.trel g0 e2 1) [qOf 1] []
     ((runningOn x).dirtyFrame 0 (tileOf 0 (qOf 1))).isSome = true ∧ (runningOn x).dirtyFrame 0 (tileOf 0 (qOf 4)) = none ∧ ((runningOn x).held 0 (tileOf 0 (qOf 1))).isSome = true) := by decide

/-! ## Rounding -/

theorem witness_RoundedValues : IsReal (decodeF 0 0x3F800000) 1 ∧ IsReal (decodeF 14 0xBFF0000000000000) (-1) := by
  have h : decodeF 0 0x3F800000 = .fin false (2 ^ 23) (-23) := by decide
  have k : decodeF 14 0xBFF0000000000000 = .fin true (2 ^ 52) (-52) := by decide
  rw [h, k]; constructor <;> norm_num [IsReal]

end Sys2Proof.Test
end

section
/-! SUPPORT. Where a move can stop: only a bundle on a core that runs no task (R75), so that every step has a next state (R10). -/

namespace Sys2Proof.Machine

/-! ## Bundles -/

theorem Bundle.run_of_no_task (b : Bundle) {s : State} (h : s.me.run ≠ .task) : b.run s = .fault .noTask := by
  simp [Bundle.run, h]
theorem Bundle.run_of_task (b : Bundle) {s : State} (h : s.me.run = .task) : ∃ t, b.run s = .next t := by
  simp only [Bundle.run, h, bne_self_eq_false, Bool.false_eq_true, if_false]
  split_ifs <;> exact ⟨_, rfl⟩
theorem runFetched_of_task (f : Fetched) {s : State} (h : s.me.run = .task) : ∃ t, runFetched f s = .next t := by
  rcases f with ⟨a, b⟩ | ⟨a, e, m⟩ | n
  · exact b.run_of_task (by simpa using h)
  · exact ⟨_, rfl⟩
  · exact ⟨_, rfl⟩

/-! ## A core's move -/

theorem issue_of_task {s : State} (h : s.me.run = .task) : ∃ t, issue s = .next t := by
  unfold issue
  split
  · exact ⟨_, rfl⟩
  · exact runFetched_of_task _ h
/-- A core's move looks at what it is doing first, so that only a running task issues a bundle. -/
theorem turn_next (s : State) : ∃ t, turn s = .next t := by
  unfold turn
  split
  next h =>
    split_ifs
    · exact ⟨_, rfl⟩
    · exact ⟨_, rfl⟩
    · exact issue_of_task h
  · exact ⟨_, rfl⟩
  · exact ⟨_, rfl⟩
theorem runCore_next (k : Nat) (s : State) : ∃ t, runCore k s = .next t := by
  unfold runCore
  extract_lets u
  split
  · exact turn_next u
  · exact ⟨_, rfl⟩

/-! ## Events -/

theorem execStalledBundleCommit_next (k : Nat) (s : State) : ∃ t, execStalledBundleCommit k s = .next t := by
  unfold execStalledBundleCommit
  extract_lets u
  split
  · exact turn_next u
  · exact ⟨_, rfl⟩
/-- An event has a next state whatever the state; the two that move a core or issue a bundle are the only ones that look for a task. -/
theorem exec_event {i : Instr} (h : i.cls = none) (he : ∀ a b c d e, i ≠ .emptyBundle a b c d e) (s : State) : ∃ t, exec i s = .next t := by
  cases i with
  | stalledBundleCommit k => exact execStalledBundleCommit_next k s
  | emptyBundle a b c d e => exact absurd rfl (he a b c d e)
  | _ => first | exact absurd h (Option.some_ne_none _) | exact ⟨_, rfl⟩
theorem exec_emptyBundle_of_task {s : State} (h : s.me.run = .task) (a b c d e : Nat) : ∃ t, exec (.emptyBundle a b c d e) s = .next t := by
  obtain ⟨t, ht⟩ := runFetched_of_task (readBundle s s.me.pc (emptyWord a b c d e) []) h
  exact ⟨t, show execEmptyBundle a b c d e s = _ by simpa [execEmptyBundle, h] using ht⟩
theorem exec_emptyBundle_of_no_task {s : State} (h : s.me.run ≠ .task) (a b c d e : Nat) : exec (.emptyBundle a b c d e) s = .fault .noTask :=
  show execEmptyBundle a b c d e s = _ by simp [execEmptyBundle, h]
/-- What may happen by itself is an event, and not EMPTY_BUNDLE. -/
theorem State.event_of_mayHappen {s : State} {i : Instr} (h : s.mayHappen i = true) : i.cls = none ∧ ∀ a b c d e, i ≠ .emptyBundle a b c d e := by
  unfold State.mayHappen at h
  split at h
  · cases h
  next hne =>
    simp only [Bool.and_eq_true, Option.isNone_iff_eq_none] at h
    exact ⟨h.1.1.1.1.1, hne⟩

/-! ## Every instruction, and the step -/

theorem exec_slot_of_no_task {i : Instr} {s : State} (hc : i.cls ≠ none) (h : s.me.run ≠ .task) : exec i s = .fault .noTask :=
  (exec_eq_runSole hc s).trans (Bundle.run_of_no_task _ h)
theorem exec_slot_of_task {i : Instr} {s : State} (hc : i.cls ≠ none) (h : s.me.run = .task) : ∃ t, exec i s = .next t := by
  rw [exec_eq_runSole hc s]
  exact Bundle.run_of_task _ h
/-- An instruction has a next state, or needs a task that is not there. -/
theorem exec_outcome (i : Instr) (s : State) : (∃ t, exec i s = .next t) ∨
    (exec i s = .fault .noTask ∧ s.me.run ≠ .task ∧ (i.cls ≠ none ∨ ∃ a b c d e, i = .emptyBundle a b c d e)) := by
  by_cases hc : i.cls = none
  · by_cases he : ∃ a b c d e, i = .emptyBundle a b c d e
    · obtain ⟨a, b, c, d, e, rfl⟩ := he
      by_cases h : s.me.run = .task
      · exact .inl (exec_emptyBundle_of_task h ..)
      · exact .inr ⟨exec_emptyBundle_of_no_task h .., h, .inr ⟨a, b, c, d, e, rfl⟩⟩
    · exact .inl (exec_event hc (fun a b c d e hi => he ⟨a, b, c, d, e, hi⟩) s)
  · by_cases h : s.me.run = .task
    · exact .inl (exec_slot_of_task hc h)
    · exact .inr ⟨exec_slot_of_no_task hc h, h, .inl hc⟩
theorem step_next (s : State) : ∃ t, step s = .next t := by
  unfold step
  split
  · exact runCore_next _ _
  · split
    next h => exact exec_event (State.event_of_mayHappen h).1 (State.event_of_mayHappen h).2 _
    · exact ⟨_, rfl⟩
  · exact runCore_next _ _

/-- Settles O2: a step is a core's move or an event that may happen, and both have a next state; an instruction by itself stops only where it needs a
task. -/
theorem nothingStops : Obligations.NothingStops := by
  refine ⟨step_next, fun s i => ⟨fun r hr => ?_, fun f hf => ?_, exec_slot_of_no_task⟩, fun s a b c d e h => exec_emptyBundle_of_no_task h ..⟩
  · obtain ⟨t, ht⟩ | ⟨ht, -, -⟩ := exec_outcome i s
    · cases ht.symm.trans hr
    · cases ht.symm.trans hr
  · obtain ⟨t, ht⟩ | ⟨ht, hrun, hi⟩ := exec_outcome i s
    · cases ht.symm.trans hf
    · cases ht.symm.trans hf
      exact ⟨rfl, hrun, hi⟩

end Sys2Proof.Machine
end

section
/-! SUPPORT. Time, rate buckets and floors; resets and boot; what Omfin answers; corrected errors (R304, R372 to R397). -/

namespace Sys2Proof.Machine

/-! ## Time (R372, R373) -/

theorem ptpMessage_happens (s : State) (neg o slew : Nat) :
    let off : Int := if neg = 1 then -o else o
    let row := if o ≤ 15 then min (s.dev.inRow + 1) 4 else 0
    slew ≤ 200 → Happens (.ptpMessage neg o slew) s (fun t =>
      t.dev.lock = true ∧ t.dev.offs = max (-32767) (min 32767 off) ∧ t.dev.inRow = row ∧ t.dev.inb = decide (row = 4) ∧
      t.dev.ptime = (if s.dev.lock then s.dev.ptime else BitVec.ofInt 64 (s.dev.ptime.toNat - off)) ∧ t = { s with dev := t.dev }) := by
  intro off row h
  have hs : ¬ Nat.blt 200 slew = true := by rw [Nat.blt_eq]; omega
  refine ⟨ptpMessage neg o slew s, rfl, ?_⟩
  simp only [ptpMessage, if_neg hs, State.updDev, Nat.ble_eq, beq_iff_eq, true_and, and_true, off, row]
  exact beq_eq_decide ..
theorem ptpSyncTimeout_of_late {s : State} (h : s.dev.sync + 125000000 ≤ s.dev.ptime.toNat) :
    exec .ptpSyncTimeout s = .next { s with dev := { s.dev with inb := false, inRow := 0 } } :=
  congrArg Host.Outcome.next (if_pos (Nat.ble_eq.mpr h))
theorem ptpSyncTimeout_of_early {s : State} (h : s.dev.ptime.toNat < s.dev.sync + 125000000) : exec .ptpSyncTimeout s = .next s :=
  congrArg Host.Outcome.next (if_neg (by rw [Nat.ble_eq]; omega))

/-! ## Rate buckets (R377) -/

theorem mget_of_not_mem {α : Type} {m : SMap α} {k : Nat} {d : α} (h : k ∉ m.map Prod.fst) : mget m k d = d := by
  induction m with
  | nil => rfl
  | cons e t ih =>
    rw [List.map_cons, List.mem_cons, not_or] at h
    simp [mget, Ne.symm h.1, ih h.2]

/-- What a refill of 16 ns leaves in a bucket. -/
def State.refilled (s : State) (part i : Nat) : Int :=
  min (s.bucket part i + (4 * (s.part part).rate i : Nat)) (((s.part part).burst i * 1024 : Nat) : Int)
/-- The refill of each bucket that a table lists, as BUCKET_REFILL goes through them. -/
def State.refillAll (s : State) (l : SMap Int) : State := l.foldl (fun s e => s.refill (e.1 / 512) (e.1 % 512)) s

theorem State.refill_bucket_self (s : State) (part i : Nat) : (s.refill part i).bucket part i = s.refilled part i := by
  show (if (s.part part).rate i == 0 then (((s.part part).burst i * 1024 : Nat) : Int) else mget (mset s.buckets _ (s.refilled part i) _) _ _) = _
  split
  next h => simp [State.refilled, State.bucket, beq_iff_eq.mp h]
  · exact mget_mset_self
theorem State.refill_bucket_of_ne (s : State) {k part i : Nat} (h : k ≠ bucketKey part i) : (s.refill (k / 512) (k % 512)).bucket part i = s.bucket part i := by
  have hk : bucketKey part i ≠ bucketKey (k / 512) (k % 512) := fun e => h (e.trans (Nat.div_add_mod k 512)).symm
  simp only [State.bucket, State.refill, State.setBucket, mget_mset_of_ne hk]
  rfl
theorem State.refill_refilled_of_ne (s : State) {k part i : Nat} (h : k ≠ bucketKey part i) :
    (s.refill (k / 512) (k % 512)).refilled part i = s.refilled part i := by
  rw [State.refilled, s.refill_bucket_of_ne h]; rfl
theorem State.refillAll_eq (s : State) (l : SMap Int) : s.refillAll l = { s with buckets := (s.refillAll l).buckets } :=
  List.foldlRecOn l _ (motive := fun t : State => t = { s with buckets := t.buckets }) rfl (fun t ht _ _ => by rw [ht]; rfl)
theorem State.refillAll_bucket_of_not_mem (s : State) {l : SMap Int} {part i : Nat} (h : bucketKey part i ∉ l.map Prod.fst) :
    (s.refillAll l).bucket part i = s.bucket part i := by
  induction l generalizing s with
  | nil => rfl
  | cons e t ih =>
    rw [List.map_cons, List.mem_cons, not_or] at h
    exact (ih _ h.2).trans (s.refill_bucket_of_ne (Ne.symm h.1))
/-- A table lists a key once, so that each bucket is refilled once. -/
theorem State.refillAll_bucket_of_mem (s : State) {l : SMap Int} {part i : Nat} (hl : msorted l = true) (hi : i < 512)
    (h : bucketKey part i ∈ l.map Prod.fst) : (s.refillAll l).bucket part i = s.refilled part i := by
  induction l generalizing s with
  | nil => simp at h
  | cons e t ih =>
    obtain ⟨hlt, ht⟩ := msorted_cons.mp hl
    by_cases hk : e.1 = bucketKey part i
    · have hn : bucketKey part i ∉ t.map Prod.fst := fun hm => by
        obtain ⟨b, hb, hbk⟩ := List.mem_map.mp hm
        exact absurd (hlt b hb) (by omega)
      have hd : e.1 / 512 = part ∧ e.1 % 512 = i := by simp only [bucketKey] at hk; omega
      refine (State.refillAll_bucket_of_not_mem (s.refill (e.1 / 512) (e.1 % 512)) hn).trans ?_
      rw [hd.1, hd.2]
      exact s.refill_bucket_self part i
    · have hm : bucketKey part i ∈ t.map Prod.fst := (List.mem_cons.mp h).resolve_left (Ne.symm hk)
      exact (ih _ ht hm).trans (s.refill_refilled_of_ne hk)
/-- A bucket that nothing has changed stands at its burst, where a refill leaves it. -/
theorem State.refilled_of_not_mem (s : State) {part i : Nat} (h : bucketKey part i ∉ s.buckets.map Prod.fst) : s.refilled part i = s.bucket part i := by
  have hb : s.bucket part i = (((s.part part).burst i * 1024 : Nat) : Int) := by
    unfold State.bucket
    split
    · rfl
    · exact mget_of_not_mem h
  rw [State.refilled, hb]
  omega
theorem State.refillDue_iff (s : State) : s.refillDue = true ↔ 16 ≤ (s.dev.ptime - s.dev.refilled).toNat := by
  rw [State.refillDue, Nat.ble_eq]
theorem bucketRefill_happens {s : State} (hb : msorted s.buckets = true) (h : 16 ≤ (s.dev.ptime - s.dev.refilled).toNat) :
    Happens .bucketRefill s (fun t => t = { s with buckets := t.buckets, dev := { s.dev with refilled := s.dev.refilled + 16 } } ∧
      ∀ part i, i < 512 → t.bucket part i = min (s.bucket part i + (4 * (s.part part).rate i : Nat)) (((s.part part).burst i * 1024 : Nat) : Int)) := by
  let u := s.updDev (fun d => { d with refilled := d.refilled + 16 })
  have he : exec .bucketRefill s = .next (u.refillAll s.buckets) := congrArg Host.Outcome.next (if_pos (s.refillDue_iff.mpr h))
  refine ⟨_, he, u.refillAll_eq s.buckets, fun part i hi => ?_⟩
  by_cases hm : bucketKey part i ∈ s.buckets.map Prod.fst
  · exact u.refillAll_bucket_of_mem hb hi hm
  · exact (u.refillAll_bucket_of_not_mem hm).trans (s.refilled_of_not_mem hm).symm
theorem bucketRefill_of_early {s : State} (h : (s.dev.ptime - s.dev.refilled).toNat < 16) : exec .bucketRefill s = .next s :=
  congrArg Host.Outcome.next (if_neg (by rw [s.refillDue_iff]; omega))

/-! ## Floor windows (R378) -/

/-- Closing a window's segments shows the 64 most recent behind the new one. -/
theorem mget_closed_drop (m : SMap (List Nat)) (k : Nat) :
    (mget (m.map (fun e => (e.1, 0 :: e.2.take 64))) k []).drop 1 = (mget m k []).take 64 := by
  induction m with
  | nil => rfl
  | cons e t ih =>
    simp only [List.map_cons, mget]
    split
    · rfl
    · exact ih
theorem floorSegmentClose_happens (s : State) : Happens .floorSegmentClose s (fun t => t = { s with floors := t.floors } ∧
    ∀ part ch, t.floorBytes part ch = sum ((mget s.floors (256 * part + ch) []).take 64)) :=
  ⟨_, rfl, rfl, fun _ _ => congrArg sum (mget_closed_drop ..)⟩

/-! ## Function-level reset (R390) -/

/-- Steps that keep the device's registers keep them together. -/
theorem foldl_dev {α : Type} {f : State → α → State} (h : ∀ t x, (f t x).dev = t.dev) (l : List α) (s : State) : (l.foldl f s).dev = s.dev :=
  List.foldlRecOn l f (motive := fun t => t.dev = s.dev) rfl (fun t ht x _ => (h t x).trans ht)

@[simp] theorem State.updQcb_dev (s : State) (k : Nat) (f : Qcb → Qcb) : (s.updQcb k f).dev = s.dev := rfl
@[simp] theorem State.updLaunch_dev (s : State) (l : Nat) (f : Launch → Launch) : (s.updLaunch l f).dev = s.dev := rfl
@[simp] theorem State.setRecState_dev (s : State) (pa st : Nat) : (s.setRecState pa st).dev = s.dev := rfl
@[simp] theorem State.updFrame_dev (s : State) (cl k : Nat) (f : Frame → Frame) : (s.updFrame cl k f).dev = s.dev := rfl
@[simp] theorem State.unreserve_dev (s : State) (k : Nat) : (s.unreserve k).dev = s.dev := rfl
@[simp] theorem State.setRings_dev (s : State) (r : SMap (List RdqE)) : (s.setRings r).dev = s.dev :=
  foldl_dev (fun t x => by split <;> rfl) _ { s with rings := r }
@[simp] theorem State.pullEntries_dev (s : State) (k : Nat) : (s.pullEntries k).1.dev = s.dev := s.setRings_dev _
@[simp] theorem State.msix_dev (s : State) (fn vec : Nat) : (s.msix fn vec).dev = s.dev := by
  simp only [State.msix, apply_ite State.dev, State.emit_dev, ite_self]
@[simp] theorem State.post_dev (s : State) (k tag st fi r w : Nat) : (s.post k tag st fi r w).dev = s.dev := by
  unfold State.post
  extract_lets q ix s1 s2
  split
  · exact s2.msix_dev _ _
  · rfl
@[simp] theorem State.waited_dev (s : State) (k : Nat) : (s.waited k).dev = s.dev := by
  unfold State.waited
  split <;> simp
@[simp] theorem State.queueSaved_dev (s : State) (k : Nat) : (s.queueSaved k).dev = s.dev := by
  unfold State.queueSaved
  extract_lets q u
  split
  · rfl
  · split
    · split
      · exact u.waited_dev k
      · rfl
    · exact u.waited_dev k
@[simp] theorem State.freeRings_dev (s : State) (l : Nat) : (s.freeRings l).dev = s.dev := by
  refine foldl_dev (fun t cl => ?_) _ s
  dsimp only
  split
  · rfl
  · exact foldl_dev (fun u (c : Chan) => foldl_dev (fun v k => v.updFrame_dev cl k _) c.frames u) _ t
@[simp] theorem State.endRecords_dev (s : State) (es : List (Nat × RdqE)) (ks : List Nat) : (s.endRecords es ks).dev = s.dev :=
  (foldl_dev (fun t _ => t.setRecState_dev _ _) ks _).trans (foldl_dev (fun t _ => t.setRecState_dev _ _) es s)
@[simp] theorem State.dropLaunches_dev (s : State) (k : Nat) : (s.dropLaunches k).dev = s.dev :=
  foldl_dev (fun t e => by simp) _ s
@[simp] theorem State.discardQueue_dev (s : State) (k : Nat) (drop all : Bool) : (s.discardQueue k drop all).dev = s.dev := by
  unfold State.discardQueue
  extract_lets p s1 gone s2 s3 s4
  have h3 : s3.dev = s.dev := by
    unfold s3
    split
    · simp [s2, s1, p]
    · simp [s2, s1, p]
  have h4 : s4.dev = s3.dev := foldl_dev (fun t k => by split <;> rfl) _ s3
  exact (s4.queueSaved_dev k).trans (h4.trans h3)

theorem qkey_div (fn : Nat) {q : Nat} (h : q < 17) : qkey fn q / 17 = fn := by
  unfold qkey
  omega
/-- The state without the launches and control blocks of function fn. -/
def State.withoutFn (s : State) (fn : Nat) : State :=
  { s with qcbs := s.qcbs.filter (fun e => e.1 / 17 != fn), launches := s.launches.filter (fun e => e.2.fn != fn) }
theorem State.withoutFn_launches (s : State) (fn : Nat) : ∀ e ∈ (s.withoutFn fn).launches, e.2.fn ≠ fn :=
  fun _ he => by simpa using (List.mem_filter.mp he).2
theorem State.withoutFn_qcb (s : State) (fn : Nat) {q : Nat} (hq : q < 17) : (s.withoutFn fn).qcb (qkey fn q) = Qcb.reset :=
  mget_of_not_mem fun hm => by
    obtain ⟨e, he, hk⟩ := List.mem_map.mp hm
    have hn := (List.mem_filter.mp he).2
    simp [hk, qkey_div fn hq] at hn
/-- What a function-level reset does once the function's queues have been discarded, which leaves the state d. -/
theorem flr_eq (s : State) {fn : Nat} (h : fn ≤ 256) : ∃ d : State, d.dev = s.dev ∧
    flr fn s = if fn == 0 && d.dev.ownerId == 1 then (d.withoutFn fn).updDev (fun v => { v with owner := 0 }) else d.withoutFn fn := by
  have hb : ¬ Nat.blt 256 fn = true := by rw [Nat.blt_eq]; omega
  unfold flr
  rw [if_neg hb]
  extract_lets keys d u
  refine ⟨d, foldl_dev (f := fun t k => t.discardQueue k true true) (fun t k => t.discardQueue_dev k true true) keys s, ?_⟩
  clear_value d
  rfl
theorem functionLevelReset_of_beyond (s : State) {fn : Nat} (h : 256 < fn) : exec (.functionLevelReset fn) s = .next s :=
  congrArg Host.Outcome.next (if_pos (Nat.blt_eq.mpr h))
/-- A function's launches and control blocks are gone, and the physical function's reset releases the driver's ownership. -/
theorem functionLevelReset_happens (s : State) {fn : Nat} (h : fn ≤ 256) : Happens (.functionLevelReset fn) s (fun t =>
    (∀ e ∈ t.launches, e.2.fn ≠ fn) ∧ (∀ q, q < 17 → t.qcb (qkey fn q) = Qcb.reset) ∧
      (fn = 0 → fld s.dev.owner.toNat 56 8 = 1 → t.dev.owner = 0)) := by
  obtain ⟨d, hd, hf⟩ := flr_eq s h
  refine ⟨flr fn s, rfl, ?_⟩
  rw [hf, hd]
  split
  · exact ⟨d.withoutFn_launches fn, fun q => d.withoutFn_qcb fn, fun _ _ => rfl⟩
  next hc =>
    refine ⟨d.withoutFn_launches fn, fun q => d.withoutFn_qcb fn, fun h0 ho => absurd ?_ hc⟩
    simp [h0, Dev.ownerId, ho]

/-! ## The trip and boot (R394, R396) -/

theorem hardThermalTrip_of_hot {s : State} (h : 880 ≤ s.dev.therm.toNat) :
    exec .hardThermalTrip s = .next (((s.cleared.updDev (fun d => { d with trip := true, therm := s.dev.therm, spdm := s.dev.spdm })).msix 0 0).emit
      (.mctp 0 [s.dev.therm.toNat])) :=
  congrArg Host.Outcome.next (if_neg (by rw [Nat.blt_eq]; omega))
theorem hardThermalTrip_of_cool {s : State} (h : s.dev.therm.toNat < 880) : exec .hardThermalTrip s = .next s :=
  congrArg Host.Outcome.next (if_pos (Nat.blt_eq.mpr h))
theorem bootStage_of_ended {s : State} (v : Nat) (h : s.dev.bootfail = true ∨ s.dev.ready = true) : exec (.bootStage v) s = .next s :=
  congrArg Host.Outcome.next (if_pos (Bool.or_eq_true _ _ ▸ h))
theorem bootStage_of_fail {s : State} {v : Nat} (hf : s.dev.bootfail = false) (hr : s.dev.ready = false) (hv : v ≠ 1) :
    exec (.bootStage v) s = .next { s with dev := { s.dev with boot := s.dev.boot + 1, bootfail := true } } := by
  show Host.Outcome.next (bootStage v s) = _
  simp [bootStage, State.updDev, hf, hr, hv]
theorem bootStage_of_ok {s : State} (hf : s.dev.bootfail = false) (hr : s.dev.ready = false) : exec (.bootStage 1) s = .next
    (if s.dev.boot == 3 then (s.updDev (fun d => { d with boot := 4, ready := true })).msix 0 0
      else if s.dev.boot == 2 then s.updDev (fun d => { d with boot := 3, clstate := [], opcur := (1800, 350) })
      else s.updDev (fun d => { d with boot := d.boot + 1 })) := by
  show Host.Outcome.next (bootStage 1 s) = _
  simp [bootStage, hf, hr]

/-! ## Attestation (R397) -/

/-- An SPDM request that Omfin answers at level need: with the values vals of its kind, or before that level with an error. Of the state only the
level, the messages and the free values drawn change. -/
theorem spdm_answers {i : Instr} {s : State} {kind need level n : Nat} {vals : List Nat} {ok : List Nat → Prop}
    (hx : exec i s = .next ((s.spdm kind need vals level).draw n)) (hv : ok vals) :
    (need ≤ s.dev.spdm → Happens i s (fun t => ∃ l, t.out = s.out ++ [.spdm kind l] ∧ ok l ∧
      t = { s with dev := { s.dev with spdm := t.dev.spdm }, out := t.out, freeCtr := t.freeCtr })) ∧
    (s.dev.spdm < need → Happens i s (fun t => t.out = s.out ++ [.spdm 0x7F [4]] ∧ t.dev = s.dev)) := by
  refine ⟨fun h => ⟨_, hx, vals, ?_⟩, fun h => ⟨_, hx, ?_⟩⟩
  · rw [State.spdm, if_neg (by rw [Nat.blt_eq]; omega)]
    exact ⟨rfl, hv, rfl⟩
  · rw [State.spdm, if_pos (Nat.blt_eq.mpr h)]
    exact ⟨rfl, rfl⟩
theorem State.signature_length (s : State) : s.signature.length = 64 := by
  rw [State.signature, List.length_map, upFrom_length]
theorem exec_getMeasurements_of_index {s : State} {x : Nat} (h1 : 1 ≤ x) (h4 : x ≤ 4) :
    exec (.getMeasurements x) s = .next (s.spdm 0x60 3 (x :: secretOf (2 + x) 64) 3) := by
  show Host.Outcome.next (s.spdm 0x60 3 (x :: if Nat.ble 1 x && Nat.ble x 4 then secretOf (2 + x) 64 else []) 3) = _
  rw [if_pos (by simp [h1, h4])]

/-! ## Corrected errors (R304, R380) -/

theorem correctedError_happens (s : State) (x : Nat) : Happens (.correctedError 0 x) s (fun t => t = { s with pmcs := t.pmcs } ∧
    ∀ e ∈ s.pmcs, e.1 / 8 = 768 + x % 128 → e.2.selects 0x2A (x / 128) = true → (e.1, e.2.add 1) ∈ t.pmcs) := by
  refine ⟨_, rfl, rfl, fun e he hu hs => List.mem_map.mpr ⟨e, he, if_pos ?_⟩⟩
  simp [hs, hu, unitCluster]

/-- Settles O60: each clause by the lemma about its event. -/
theorem timeResetsAndBoot : Obligations.TimeResetsAndBoot := by
  refine ⟨fun s neg o slew => ?_, fun s v fn => ?_, fun s x => ?_⟩
  · exact ⟨rfl, ptpMessage_happens s neg o slew, ptpSyncTimeout_of_late, ptpSyncTimeout_of_early, bucketRefill_happens, bucketRefill_of_early,
      floorSegmentClose_happens s⟩
  · refine ⟨rfl, fun h => ⟨_, hardThermalTrip_of_hot h, rfl, rfl⟩, hardThermalTrip_of_cool, rfl, rfl, functionLevelReset_of_beyond s,
      functionLevelReset_happens s, fun hf hr => ⟨bootStage_of_fail hf hr, fun h => ?_, fun h => ?_, fun h => ?_⟩, bootStage_of_ended v⟩
    · rw [bootStage_of_ok hf hr]
      rcases h with h | h <;> simp [h, State.updDev]
    · rw [bootStage_of_ok hf hr]
      simp [h, State.updDev]
    · rw [bootStage_of_ok hf hr]
      simp [h, State.updDev, State.msix]
  · exact ⟨spdm_answers (level := 1) (n := 0) rfl rfl, spdm_answers (level := 2) (n := 0) rfl rfl, spdm_answers (level := 3) (n := 0) rfl rfl,
      spdm_answers (level := 3) (n := 0) rfl rfl, spdm_answers (level := 3) (n := 0) rfl rfl,
      spdm_answers (level := 3) (n := 64) rfl ⟨by simp [State.signature_length], rfl⟩,
      fun h1 h4 => spdm_answers (level := 3) (n := 0) (exec_getMeasurements_of_index h1 h4) rfl, correctedError_happens s x⟩

end Sys2Proof.Machine
end

section
/-! SUPPORT. How the engine queues start commands: what an executor does with its oldest command, frames for the parked one, its replay
(R32, R175, R199, R211). -/

namespace Sys2Proof.Machine

/-! ## What frames, counts and commands leave of the cores -/

/-- Steps that keep the cores keep them together. -/
theorem foldl_cores {α : Type} {f : State → α → State} (h : ∀ t x, (f t x).cores = t.cores) (l : List α) (s : State) : (l.foldl f s).cores = s.cores :=
  List.foldlRecOn l f (motive := fun t => t.cores = s.cores) rfl (fun t ht x _ => (h t x).trans ht)
@[simp] theorem State.setFrame_cores (s : State) (cl key : Nat) (f : Frame) : (s.setFrame cl key f).cores = s.cores := rfl
@[simp] theorem State.refUp_cores (s : State) (cl : Nat) (t : Tile) : (s.refUp cl t).cores = s.cores := by
  unfold State.refUp
  split <;> rfl
@[simp] theorem State.touchFrame_cores (s : State) (cl key : Nat) : (s.touchFrame cl key).cores = s.cores :=
  foldl_cores (fun t x => by dsimp only; split_ifs <;> rfl) _ s

@[simp] theorem State.updCmd_core_self (s : State) (k id : Nat) (f : Cmd → Cmd) : (s.updCmd k id f).core k = (s.core k).updCmd id f :=
  s.updCore_core_self k _
@[simp] theorem State.countEv_have (s : State) (u e p n cl : Nat) (m : Need) : (s.countEv u e p n).have cl m = s.have cl m := rfl
@[simp] theorem State.countCore_core (s : State) (j k : Nat) (l : List (Nat × Nat)) : (s.countCore j l).core k = s.core k := by
  rw [State.countCore_eq]; rfl
@[simp] theorem State.countCore_clock (s : State) (k : Nat) (l : List (Nat × Nat)) : (s.countCore k l).clock = s.clock := by
  rw [State.countCore_eq]

/-! ## Starting (R175, R177, R200) -/

/-- A command that finds no fault as it starts, sends nothing, reads and writes no memory itself and writes no tile, and whose tiles, all needed
resident, are the same in every state. -/
structure CmdSem.Plain (sem : CmdSem) : Prop where
  begins : ∀ s, sem.begins s = none
  needs : ∀ s t, sem.needs s = sem.needs t
  touch : sem.touch = []
  wr : ∀ s, sem.wr s = []
  uses : ∀ s, sem.uses s = []
  start : sem.start = id

theorem mzeroSem_plain (mask k : Nat) : (mzeroSem mask k).Plain := ⟨fun _ => rfl, fun _ _ => rfl, rfl, fun _ => rfl, fun _ => rfl, rfl⟩
theorem mldaSem_plain (d tr part k : Nat) (x : Cmd) : (mldaSem d tr part k x).Plain :=
  ⟨fun _ => rfl, fun _ _ => rfl, rfl, fun _ => rfl, fun _ => rfl, rfl⟩
theorem Cmd.sem_of_mzero {x : Cmd} {gd : Guard} {e : Edge} {m : Nat} (h : x.ins = .mzero gd e m) (k : Nat) : x.sem k = mzeroSem m k := by
  rw [Cmd.sem, h]; rfl
theorem Cmd.sem_of_mlda {x : Cmd} {gd : Guard} {e : Edge} {d q tr part : Nat} (h : x.ins = .mlda gd e d q tr part) (k : Nat) :
    x.sem k = mldaSem d tr part k x := by
  rw [Cmd.sem, h]; rfl

theorem CmdSem.Plain.tileNeeds {x : Cmd} {k : Nat} (h : (x.sem k).Plain) (s t : State) : x.tileNeeds k s = x.tileNeeds k t :=
  congrArg mergeNeeds (h.needs s t)
theorem State.passBytes_nil (s : State) (k part : Nat) : s.passBytes k part [] = s := rfl
/-- A snapshot holds an entry for each tile that the command names, in their order. -/
theorem State.snapshot_tiles (s : State) (cl : Nat) (l : List Need) : (s.snapshot cl l).map (fun e => e.1) = l.map (fun m => m.tile) := by
  rw [State.snapshot, List.map_map]
  refine List.map_congr_left (fun m _ => ?_)
  dsimp only [Function.comp_apply]
  split <;> rfl

/-- What a command is once it has started on these tiles: it runs, holds them all, and has seen each. -/
def Cmd.Started (x y : Cmd) (tiles : List Tile) : Prop := y.id = x.id ∧ y.st = .running ∧ y.tiles = tiles ∧ y.snap.map (fun e => e.1) = y.tiles

/-- The start of a plain command leaves the core's commands as they were but for the command itself. -/
theorem State.startCmd_cmds {s : State} {k : Nat} {x : Cmd} (h : (x.sem k).Plain) : ∃ g : Cmd → Cmd,
    ((s.startCmd k x).core k).cmds = ((s.core k).updCmd x.id g).cmds ∧ ∀ y, Cmd.Started y (g y) ((x.tileNeeds k s).map (fun m => m.tile)) := by
  unfold State.startCmd
  extract_lets cl sem needs also sRef sRank snap res wr torn sUse imgs sRun
  have hp : sem.Plain := h
  have halso : also = [] := by simp [also, hp.touch]
  have hwr : wr = [] := hp.wr sRank
  have huse : sUse = sRank := by simp only [sUse, hp.uses, State.passBytes_nil]
  have href : sRef.cores = s.cores := (foldl_cores (fun t _ => t.refUp_cores _ _) also _).trans (by
    split_ifs
    · rfl
    · exact foldl_cores (fun t _ => t.refUp_cores _ _) needs s)
  have hrank : sRank.cores = s.cores := (foldl_cores (fun t x => by split <;> simp) _ sRef).trans href
  have hrun : sRun.core k = (s.core k).updCmd x.id _ :=
    (sUse.updCmd_core_self k x.id _).trans (by rw [huse, State.core, hrank, State.core])
  rw [hp.begins, hp.start, hwr]
  refine ⟨_, congrArg Core.cmds hrun, fun y => ⟨rfl, rfl, ?_, ?_⟩⟩
  · simp only [halso, List.append_nil, needs]
  · simp only [halso, List.append_nil, snap, State.snapshot_tiles]

/-- One started command is in the core's list wherever the command was. -/
theorem State.startCmd_started {s : State} {k : Nat} {x : Cmd} (h : (x.sem k).Plain) (hx : x ∈ (s.core k).cmds) (t : State) :
    ∃ y ∈ ((s.startCmd k x).core k).cmds, Cmd.Started x y ((x.tileNeeds k t).map (fun m => m.tile)) := by
  obtain ⟨g, hg, hst⟩ := State.startCmd_cmds (s := s) h
  refine ⟨g x, hg ▸ List.mem_map.mpr ⟨x, hx, if_pos (beq_self_eq_true _)⟩, ?_⟩
  rw [h.tileNeeds t s]
  exact hst x

/-! ## Taking (R32, R175, R178) -/

theorem State.cascade_of_clear {s : State} {k : Nat} (h : ∀ y ∈ (s.core k).cmds, y.fail = none) (n : Nat) : s.cascade k n = s := by
  cases n with
  | zero => rfl
  | succ n =>
    have hf : (s.core k).cmds.find? (fun x => x.fail.isSome && x.deps.isEmpty && x.st != .running) = none :=
      List.find?_eq_none.mpr (fun y hy => by simp [h y hy])
    rw [State.cascade, hf]
/-- Where no command of the core has failed, an executor goes on to its oldest startable command. -/
theorem engineCommandTake_of_oldest {s : State} {k ex : Nat} {x : Cmd} (hc : ∀ y ∈ (s.core k).cmds, y.fail = none)
    (ho : s.oldest (if ex = 3 then coresOf (clusterOf k) else [k]) ex = some (k, x)) :
    exec (.engineCommandTake k ex) s = .next ((s.draw 1).takeCmd k x) := by
  show Host.Outcome.next (engineTake k ex s) = _
  simp only [engineTake, State.cascade_of_clear hc, beq_iff_eq, ho]

theorem State.takeCmd_of_fault {s : State} {k : Nat} {x : Cmd} {f : FaultInfo} (hc : (x.sem k).check s = some f)
    (hm : s.pageMiss x.part f = false) : s.takeCmd k x = s.failCmd k x.id f := by
  rw [State.takeCmd, hc]
  exact if_neg (by simp [hm])
/-- A command that passes its checks has its hits and misses counted, which moves no tile; then it starts where each tile is at hand. -/
theorem State.takeCmd_of_have {s : State} {k : Nat} {x : Cmd} (hc : (x.sem k).check s = none)
    (hv : ∀ m ∈ x.tileNeeds k s, s.have (clusterOf k) m = true) : ∃ u : State, u.core k = s.core k ∧ s.takeCmd k x = u.startCmd k x := by
  rw [State.takeCmd, hc]
  extract_lets needs hits n s1
  exact ⟨s1, rfl, if_pos (List.all_eq_true.mpr hv)⟩
theorem State.takeCmd_of_missing {s : State} {k : Nat} {x : Cmd} (hc : (x.sem k).check s = none)
    (hm : ∃ m ∈ x.tileNeeds k s, s.have (clusterOf k) m = false) :
    ((s.takeCmd k x).core k).cmds = ((s.core k).updCmd x.id (fun y => { y with st := .parked, parkedAt := s.clock })).cmds ∧
      (s.takeCmd k x).clock = s.clock + 1 := by
  rw [State.takeCmd, hc]
  extract_lets needs hits n s1
  have hn : ¬ needs.all (fun m => s1.have (clusterOf k) m) = true := by simpa [needs, s1] using hm
  rw [if_neg hn]
  exact ⟨(congrArg Core.cmds (State.countCore_core ..)).trans (congrArg Core.cmds (s1.updCmd_core_self k x.id _)), State.countCore_clock ..⟩

/-! ## Frames for a parked command (R199) -/

theorem frameAllocation_of_frames {s v : State} {k j : Nat} {x : Cmd} (ho : s.oldestParked j = some (k, x))
    (ha : s.allocAll j (x.tileNeeds k s) = some v) : exec (.frameAllocation j) s = .next (v.updCmd k x.id (fun y => { y with
      alloc := true, tiles := (x.tileNeeds k s).map (fun m => m.tile),
      wtiles := ((x.tileNeeds k s).filter (fun m => m.write)).map (fun m => m.tile) })) := by
  show Host.Outcome.next (frameAlloc j s) = _
  simp only [frameAlloc, ho, ha]
theorem frameAllocation_of_no_frames {s : State} {k j : Nat} {x : Cmd} (ho : s.oldestParked j = some (k, x))
    (ha : s.allocAll j (x.tileNeeds k s) = none) : exec (.frameAllocation j) s = .next (s.fetchWants j) := by
  show Host.Outcome.next (frameAlloc j s) = _
  simp only [frameAlloc, ho, ha]

/-! ## Replay (R211) -/

/-- A parked command whose tiles and grants have come, and which nothing else holds up, starts. -/
theorem commandReplay_starts {s : State} {k n : Nat} {x : Cmd} (hn : (s.core k).cmds[n]? = some x) (hst : x.st = .parked) (ha : x.alloc = true)
    (ht : x.tiles = (x.tileNeeds k s).map (fun m => m.tile)) (hw : s.prqWaits (.cmd k x.id) = false) (hb : s.execBusy k x = false)
    (hh : ∀ m ∈ x.tileNeeds k s, (s.hit (clusterOf k) m.tile).isSome = true ∧ s.have (clusterOf k) m = true)
    (hc : (x.sem k).check s = none) (hm : (x.sem k).may s = true) (hr : s.mayReach k x.part ((x.sem k).uses s) = true) :
    exec (.commandReplay k n) s = .next ((s.draw 1).startCmd k x) := by
  have hd : (s.core k).cmds.drop n = x :: (s.core k).cmds.drop (n + 1) := by
    obtain ⟨hlt, rfl⟩ := List.getElem?_eq_some_iff.mp hn
    exact List.drop_eq_getElem_cons hlt
  have hgone : ((x.tileNeeds k s).any fun m => (s.hit (clusterOf k) m.tile).isNone && !s.isFilling (clusterOf k) m.tile) = false :=
    List.any_eq_false.mpr (fun m hm => by simp [Option.isNone_eq_false_iff.mpr (hh m hm).1])
  have hmiss : ((x.tileNeeds k s).any fun m => (s.hit (clusterOf k) m.tile).isNone) = false :=
    List.any_eq_false.mpr (fun m hm => by simp [Option.isNone_eq_false_iff.mpr (hh m hm).1])
  have hhave : ((x.tileNeeds k s).all fun m => s.have (clusterOf k) m) = true := List.all_eq_true.mpr (fun m hm => (hh m hm).2)
  show Host.Outcome.next (replay k n s) = _
  simp [replay, hd, hst, ha, hw, hb, ← ht, hgone, hmiss, hhave, hm, hr, hc]

/-- Settles O47: each clause by the lemma about its event; MZERO, which names no tile, and MLDA start as plain commands do. -/
theorem commandStarts : Obligations.CommandStarts := by
  intro s k ex x cl u needs runs clear
  refine ⟨fun m gd e hc ho hi hx => ?_, fun hc ho hk hm => ?_, fun f hc ho hf hm => ?_,
    fun j v => frameAllocation_of_frames, fun j => frameAllocation_of_no_frames, fun n gd e d q tp part hn hi hst ha ht hw hb hh hc hr => ?_⟩
  · have hs : x.sem k = mzeroSem m k := Cmd.sem_of_mzero hi k
    have hp : (x.sem k).Plain := hs ▸ mzeroSem_plain m k
    have hn : x.tileNeeds k u = [] := by rw [Cmd.tileNeeds, hs]; rfl
    obtain ⟨v, hv, ht⟩ := State.takeCmd_of_have (s := u) (by rw [hs]; rfl) (by simp [hn])
    exact ⟨_, (engineCommandTake_of_oldest (hc k) ho).trans (congrArg Host.Outcome.next ht),
      State.startCmd_started hp (by rw [hv]; exact hx) s⟩
  · exact ⟨_, engineCommandTake_of_oldest (hc k) ho, State.takeCmd_of_missing hk hm⟩
  · rw [engineCommandTake_of_oldest (hc k) ho, State.takeCmd_of_fault hf hm]
  · have hs : x.sem k = mldaSem d tp part k x := Cmd.sem_of_mlda hi k
    exact ⟨_, commandReplay_starts hn hst ha ht hw hb hh hc (by rw [hs]; rfl) hr,
      State.startCmd_started (s := u) (hs ▸ mldaSem_plain d tp part k x) (List.mem_of_getElem? hn) s⟩

end Sys2Proof.Machine
end

section
/-! SUPPORT. The decoder reads back what the encoder wrote (R60 to R64, R82 to R87): a field of a word from its place, an entry from its fields,
and so each class of instructions. -/

namespace Sys2Proof

/-- The slot word of an opcode, a guard, bits 19:0 and whether an extension word follows (R62). -/
def slotWord (op : Nat) (gd : Guard) (low : Nat) (x : Option Nat) : Nat :=
  (if x.isSome then 2 ^ 30 else 0) + op * 2 ^ 24 + gd.gp * 2 ^ 21 + gd.gn * 2 ^ 20 + low

theorem encode_eq (i : Instr) : encode i = (slotWord i.fields.1 i.guard i.fields.2.2.1 i.fields.2.2.2, i.fields.2.2.2) := rfl

/-- The operand fields of a slot word lie in its bits 19:0. -/
theorem fld_slotWord (op : Nat) (gd : Guard) (low : Nat) (x : Option Nat) {lo n : Nat} (h : lo + n ≤ 20) :
    fld (slotWord op gd low x) lo n = fld low lo n := by
  obtain ⟨k, hk⟩ : ∃ k, slotWord op gd low x = low + 2 ^ 20 * k :=
    ⟨(if x.isSome then 2 ^ 10 else 0) + op * 2 ^ 4 + gd.gp * 2 + gd.gn, by unfold slotWord; split <;> omega⟩
  have hd : 2 ^ 20 * k = 2 ^ lo * (2 ^ n * (2 ^ (20 - lo - n) * k)) := by
    rw [← Nat.mul_assoc, ← Nat.mul_assoc, ← pow_add, ← pow_add, show lo + n + (20 - lo - n) = 20 by omega]
  rw [fld, fld, hk, hd, Nat.add_mul_div_left _ _ (by positivity), Nat.add_mul_mod_self_left]
theorem slotWord_mod (op : Nat) (gd : Guard) {low : Nat} (x : Option Nat) (h : low < 2 ^ 20) : slotWord op gd low x % 2 ^ 20 = low := by
  unfold slotWord; split <;> omega
theorem fld_slotWord_op {op : Nat} {gd : Guard} {low : Nat} (x : Option Nat) (ho : op < 64) (hg : gd.wf = true) (h : low < 2 ^ 20) :
    fld (slotWord op gd low x) 24 6 = op := by
  simp only [Guard.wf, Bool.and_eq_true, Nat.blt_eq] at hg
  unfold slotWord fld; split <;> omega
theorem guardOf_slotWord (op : Nat) {gd : Guard} {low : Nat} (x : Option Nat) (hg : gd.wf = true) (h : low < 2 ^ 20) :
    guardOf (slotWord op gd low x) = gd := by
  obtain ⟨gp, gn⟩ := gd
  simp only [Guard.wf, Bool.and_eq_true, Nat.blt_eq] at hg
  simp only [guardOf, slotWord, fld, Guard.mk.injEq]; split <;> omega

/-- A field is read from its place in a word, whatever stands below it and above it. -/
theorem fld_mul_add {c lo n v r : Nat} (hc : c = 2 ^ lo) (hv : v < 2 ^ n) (hr : r % 2 ^ (lo + n) < 2 ^ lo) : fld (v * c + r) lo n = v := by
  obtain ⟨k, hk⟩ : ∃ k, r = r % 2 ^ (lo + n) + 2 ^ lo * (2 ^ n * k) :=
    ⟨r / 2 ^ (lo + n), by rw [← Nat.mul_assoc, ← pow_add, Nat.mod_add_div]⟩
  have hd : (v * c + r) / 2 ^ lo = v + 2 ^ n * k := by
    rw [hk, hc, ← Nat.add_assoc, Nat.add_mul_div_left _ _ (by positivity), Nat.mul_comm, Nat.mul_add_div (by positivity),
      Nat.div_eq_of_lt hr, Nat.add_zero]
  rw [fld, hd, Nat.add_mul_mod_self_left, Nat.mod_eq_of_lt hv]
theorem fld_mul {c lo n v : Nat} (hc : c = 2 ^ lo) (hv : v < 2 ^ n) : fld (v * c) lo n = v :=
  fld_mul_add (r := 0) hc hv (by simp)
theorem fld_zero_self {n v : Nat} (hv : v < 2 ^ n) : fld v 0 n = v := by simp [fld, Nat.mod_eq_of_lt hv]
theorem fld_zero_add {n v k : Nat} (hv : v < 2 ^ n) (hk : k % 2 ^ n = 0) : fld (v + k) 0 n = v := by
  simpa using fld_mul_add (c := 1) (lo := 0) (n := n) (r := k) rfl hv (by simpa using hk)
theorem fld_mul_add_of_dvd {c lo n v r : Nat} (hc : c % 2 ^ (lo + n) = 0) : fld (v * c + r) lo n = fld r lo n := by
  obtain ⟨k, rfl⟩ := Nat.dvd_of_mod_eq_zero hc
  rw [fld, fld, show v * (2 ^ (lo + n) * k) + r = r + 2 ^ lo * (2 ^ n * (v * k)) by rw [pow_add]; ring, Nat.add_mul_div_left _ _ (by positivity),
    Nat.add_mul_mod_self_left]

/-- A word so made breaks no check of its own: its bit 30 says whether an extension word follows. -/
theorem decodeSlot_slotWord {cl : SlotClass} {op : Nat} {gd : Guard} {low : Nat} {x : Option Nat} {i : Instr} (ho : op < 64) (hg : gd.wf = true)
    (hl : low < 2 ^ 20) (h : x.getD 0 < 2 ^ 31 ∧
      (match cl with
        | .c => decodeC (slotWord op gd low x) x | .i => decodeI (slotWord op gd low x) x | .v => decodeV (slotWord op gd low x) x
        | .m => decodeM (slotWord op gd low x) x | .x => decodeX (slotWord op gd low x) x | .l => decodeL (slotWord op gd low x) x) = .ok i) :
    decodeSlot cl (slotWord op gd low x) x = .ok i := by
  simp only [Guard.wf, Bool.and_eq_true, Nat.blt_eq] at hg
  have hb : slotWord op gd low x < 2 ^ 31 ∧ (fld (slotWord op gd low x) 30 1 = 1 ↔ x.isSome = true) := by
    cases x <;> simp only [slotWord, fld, Option.isSome_none, Option.isSome_some, if_true, Bool.false_eq_true, if_false, iff_true, iff_false] <;> omega
  unfold decodeSlot
  rw [if_neg (by simp only [hb.2, ne_eq, not_true_eq_false, or_false]; omega)]
  cases cl <;> exact h.2

/-- The bound of an optional extension word, as a bound of the word itself. -/
theorem all_blt_iff {x : Option Nat} {n : Nat} : x.all (Nat.blt · (n + 1)) = true ↔ x.getD 0 < n + 1 := by
  cases x <;> simp

/-! The first entry whose named fields account for every bit of the words is taken. -/

theorem takeEntry_may {op l low ext : Nat} {gd : Guard} {x : Option Nat} {i : Instr} {rest : List Entry} (h : low < 2 ^ 20) (hl : l = low)
    (he : ext = x.getD 0) (hw : i.wf = true) : takeEntry (slotWord op gd low x) x (⟨l, .may, ext, i⟩ :: rest) = .ok i := by
  rw [takeEntry, slotWord_mod op gd x h]; simp [hl, he, hw]
theorem takeEntry_must {op l low ext r : Nat} {gd : Guard} {i : Instr} {rest : List Entry} (h : low < 2 ^ 20) (hl : l = low) (he : ext = r)
    (hw : i.wf = true) : takeEntry (slotWord op gd low (some r)) (some r) (⟨l, .must, ext, i⟩ :: rest) = .ok i := by
  rw [takeEntry, slotWord_mod op gd (some r) h]; simp [hl, he, hw]
theorem takeEntry_never {op l low : Nat} {gd : Guard} {i : Instr} {rest : List Entry} (h : low < 2 ^ 20) (hl : l = low) (hw : i.wf = true) :
    takeEntry (slotWord op gd low none) none (⟨l, .never, 0, i⟩ :: rest) = .ok i := by
  rw [takeEntry, slotWord_mod op gd none h]; simp [hl, hw]
theorem takeEntry_must_of_ne {op low l ext r : Nat} {gd : Guard} {i : Instr} {rest : List Entry} (hne : ext ≠ r) :
    takeEntry (slotWord op gd low (some r)) (some r) (⟨l, .must, ext, i⟩ :: rest) = takeEntry (slotWord op gd low (some r)) (some r) rest := by
  rw [takeEntry, if_neg (fun h => hne h.2)]
theorem takeEntry_of_ne {op low l ext : Nat} {gd : Guard} {x : Option Nat} {u : ExtRule} {i : Instr} {rest : List Entry} (h : low < 2 ^ 20)
    (hne : l ≠ low) : takeEntry (slotWord op gd low x) x (⟨l, u, ext, i⟩ :: rest) = takeEntry (slotWord op gd low x) x rest := by
  rw [takeEntry, slotWord_mod op gd x h, if_neg (fun h => hne h.1)]

/-- The bounds of format V's fields, the extension word's among them (R63). -/
theorem vop_bounds {d a b k lg : Nat} {x : Option VExt} (h : (⟨d, a, b, k, lg, x⟩ : VOp).inFile = true) :
    (d < 32 ∧ a < 32 ∧ b < 32 ∧ k < 8 ∧ lg < 3) ∧
      ∀ fmt rm c i8 g, x = some ⟨fmt, rm, c, i8, g⟩ → fmt < 16 ∧ rm < 4 ∧ c < 32 ∧ i8 < 256 ∧ g < 64 := by
  simp only [VOp.inFile, Bool.and_eq_true, Nat.blt_eq] at h
  obtain ⟨⟨⟨⟨⟨hd, ha⟩, hb⟩, hk⟩, hl⟩, hx⟩ := h
  refine ⟨⟨hd, ha, hb, hk, hl⟩, ?_⟩
  rintro fmt rm c i8 g rfl
  simpa only [Bool.and_eq_true, Nat.blt_eq, and_assoc] using hx
theorem vopLow_lt {v : VOp} (h : v.inFile = true) : vopLow v < 2 ^ 20 := by
  have := (vop_bounds h).1
  unfold vopLow; omega
theorem vopExt_lt {v : VOp} (h : v.inFile = true) : vopExt v < 2 ^ 31 := by
  obtain ⟨d, a, b, k, lg, _ | ⟨fmt, rm, c, i8, g⟩⟩ := v
  · simp [vopExt, VOp.ex]
  · have := (vop_bounds h).2 _ _ _ _ _ rfl
    simp only [vopExt, VOp.ex, Option.getD_some]
    omega
theorem getD_vopExt {v : VOp} {x : Option Nat} (hx : (v.x.map fun _ => vopExt v) = x) : vopExt v = x.getD 0 := by
  obtain ⟨d, a, b, k, lg, _ | e⟩ := v
  · subst hx
    simp [vopExt, VOp.ex]
  · subst hx
    rfl
theorem vopOf_slotWord (op : Nat) (gd : Guard) {v : VOp} {x : Option Nat} (h : v.inFile = true) (hx : (v.x.map fun _ => vopExt v) = x) :
    vopOf (slotWord op gd (vopLow v) x) x = v := by
  obtain ⟨d, a, b, k, lg, y⟩ := v
  obtain ⟨hv, hy⟩ := vop_bounds h
  have hlow (w : Nat) (h : w = vopLow ⟨d, a, b, k, lg, y⟩) :
      fld w 15 5 = d ∧ fld w 10 5 = a ∧ fld w 5 5 = b ∧ fld w 2 3 = k ∧ fld w 0 2 = lg := by
    simp only [h, fld, vopLow]; omega
  simp (disch := omega) only [vopOf, fld_slotWord, hlow _ rfl, VOp.mk.injEq, true_and]
  subst hx
  match y, hy with
  | none, _ => rfl
  | some ⟨fmt, rm, c, i8, g⟩, hy =>
    have := hy _ _ _ _ _ rfl
    simp only [Option.map_some, Option.some.injEq, VExt.mk.injEq, fld, vopExt, VOp.ex, Option.getD_some]
    omega

theorem edge_bounds {e : Edge} (h : e.wf = true) : e.tp < 64 ∧ e.c0 < 64 ∧ e.c1 < 64 ∧ e.nc < 4 ∧ e.c2 < 64 := by
  simp only [Edge.wf, Bool.and_eq_true, Nat.blt_eq] at h
  tauto
theorem edgeLow_lt {e : Edge} (h : e.wf = true) : edgeLow e < 2 ^ 20 := by
  have := edge_bounds h
  unfold edgeLow; omega
theorem edgeOf_slotWord (op : Nat) (gd : Guard) {e : Edge} {r : Nat} (h : e.wf = true) (hr : r / 33554432 = e.c2) :
    edgeOf (slotWord op gd (edgeLow e) (some r)) (some r) = e := by
  obtain ⟨tp, c0, c1, nc, c2⟩ := e
  have hb := edge_bounds h
  dsimp only at hb hr
  simp (disch := omega) only [edgeOf, fld_slotWord, Edge.mk.injEq, edgeLow, Option.getD_some]
  simp only [fld]
  omega

/-! The classes -/

/-- R82: the slot words of a well-formed C class instruction decode to it. -/
theorem decodeSlot_fieldsC (i : Instr) (hc : i.cls = some .c) (hw : i.wf = true)
    {low : Nat} {x : Option Nat} (hlow : i.fieldsC.2.2.1 = low) (hx : i.fieldsC.2.2.2 = x) :
    decodeSlot .c (slotWord i.fieldsC.1 i.fieldsC.2.1 low x) x = .ok i := by
  cases i <;> cases hc
  all_goals
    have h := And.intro hw trivial
    simp only [Instr.wf, Bool.and_eq_true, Nat.blt_eq, all_blt_iff, and_assoc] at h
    obtain ⟨hg, h⟩ := h
    dsimp only [Instr.fieldsC] at hlow hx ⊢
    have hl : low < 2 ^ 20 := by omega
    have hf (lo n : Nat) := congrArg (fld · lo n) hlow.symm
    apply decodeSlot_slotWord (by decide) hg hl
    dsimp only
    rw [decodeC, fld_slotWord_op _ (by decide) hg hl]
    dsimp only [decC01, decC02, decC03, decC04, decC05, decC06, decC07, decC08, decC09, decC0A, decC0B, decC0C, decC0D, decC0E, decC0F, decC10,
      decC11, decC12, decC13]
    simp (disch := omega) only [guardOf_slotWord _ _ hg hl, fld_slotWord, hf, Nat.add_assoc, fld_mul_add_of_dvd,
      fld_mul_add, fld_mul, fld_zero_self]
  case' waitkRange | pollkErr | fenceCluster =>
    rw [takeEntry_of_ne hl (by omega)]
  case' fenceDevice =>
    rw [takeEntry_of_ne hl (by omega), takeEntry_of_ne hl (by omega)]
  case' fenceSys =>
    rw [takeEntry_of_ne hl (by omega), takeEntry_of_ne hl (by omega), takeEntry_of_ne hl (by omega)]
  case br | call | loop | loopi | safe | trap | sysc =>
    subst hx
    exact ⟨by omega, takeEntry_may hl (by simpa only [Nat.add_assoc] using hlow) rfl hw⟩
  all_goals
    subst hx
    exact ⟨by decide, takeEntry_never hl (by simpa only [Nat.add_assoc] using hlow) hw⟩

/-- R83: so do those of the integer operations, opcodes 0x01 to 0x17. -/
theorem decodeSlot_fieldsI_integers (i : Instr) (hc : i.cls = some .i) (hw : i.wf = true) (ho : i.fieldsI.1 < 0x18)
    {low : Nat} {x : Option Nat} (hlow : i.fieldsI.2.2.1 = low) (hx : i.fieldsI.2.2.2 = x) :
    decodeSlot .i (slotWord i.fieldsI.1 i.fieldsI.2.1 low x) x = .ok i := by
  cases i <;> cases hc <;> simp only [Instr.fieldsI, Nat.reduceLT] at ho
  all_goals
    have h := And.intro hw trivial
    simp only [Instr.wf, Bool.and_eq_true, Nat.blt_eq, all_blt_iff, and_assoc] at h
    obtain ⟨hg, h⟩ := h
    dsimp only [Instr.fieldsI] at hlow hx ⊢
    have hl : low < 2 ^ 20 := by omega
    have hf (lo n : Nat) := congrArg (fld · lo n) hlow.symm
    apply decodeSlot_slotWord (by decide) hg hl
    dsimp only
    rw [decodeI, fld_slotWord_op _ (by decide) hg hl]
    dsimp only [decI01, decI02, decI03, decI04, decI05, decI06, decI07, decI08, decI09, decI0A, decI0B, decI0C, decI0D, decI0E, decI0F, decI10,
      decI11, decI12, decI13, decI14, decI15, decI16, decI17]
    simp (disch := decide) only [guardOf_slotWord _ _ hg hl, fld_slotWord, hf, Nat.add_assoc, fld_mul_add_of_dvd]
    simp (disch := omega) only [fld_mul_add, fld_mul, fld_zero_self, fld_zero_add]
  case' mulhU | divU | remU | shrA | shriA | bitcClz | minU | maxU =>
    rw [takeEntry_of_ne hl (by omega)]
  case' bitcCtz =>
    rw [takeEntry_of_ne hl (by omega), takeEntry_of_ne hl (by omega)]
  case addi | andi | ori | xori | sethi =>
    subst hx
    exact ⟨by omega, takeEntry_may hl (by simpa only [Nat.add_assoc] using hlow) rfl hw⟩
  case bfx | bfi =>
    obtain ⟨r, rfl⟩ : ∃ r, x = some r := ⟨_, hx.symm⟩
    have hr : _ = r := Option.some.inj hx
    have hf (lo n : Nat) := congrArg (fld · lo n) hr.symm
    simp (disch := decide) only [Option.getD_some, hf, Nat.add_assoc, fld_mul_add_of_dvd]
    simp (disch := omega) only [fld_mul_add, fld_zero_self]
    exact ⟨by omega, takeEntry_must hl (by simpa only [Nat.add_assoc] using hlow) (by simpa only [Nat.add_assoc] using hr) hw⟩
  all_goals
    subst hx
    exact ⟨by decide, takeEntry_never hl (by simpa only [Nat.add_assoc] using hlow) hw⟩

/-- R83: so do those of the compares, the predicate operations and the moves, opcodes 0x18 to 0x27. -/
theorem decodeSlot_fieldsI_moves (i : Instr) (hc : i.cls = some .i) (hw : i.wf = true) (ho : 0x18 ≤ i.fieldsI.1 ∧ i.fieldsI.1 < 0x28)
    {low : Nat} {x : Option Nat} (hlow : i.fieldsI.2.2.1 = low) (hx : i.fieldsI.2.2.2 = x) :
    decodeSlot .i (slotWord i.fieldsI.1 i.fieldsI.2.1 low x) x = .ok i := by
  cases i <;> cases hc <;> simp only [Instr.fieldsI, Nat.reduceLeDiff, Nat.reduceLT, and_true, and_false, and_self] at ho
  all_goals
    have h := And.intro hw trivial
    simp only [Instr.wf, Bool.and_eq_true, Nat.blt_eq, all_blt_iff, and_assoc] at h
    obtain ⟨hg, h⟩ := h
    dsimp only [Instr.fieldsI] at hlow hx ⊢
    have hl : low < 2 ^ 20 := by omega
    have hf (lo n : Nat) := congrArg (fld · lo n) hlow.symm
    apply decodeSlot_slotWord (by decide) hg hl
    dsimp only
    rw [decodeI, fld_slotWord_op _ (by decide) hg hl]
    dsimp only [decI18, decI19, decI1A, decI1B, decI1C, decI1D, decI1E, decI1F, decI20, decI21, decI22, decI23, decI24, decI25, decI26, decI27]
    simp (disch := decide) only [guardOf_slotWord _ _ hg hl, fld_slotWord, hf, Nat.add_assoc, fld_mul_add_of_dvd]
    simp (disch := omega) only [fld_mul_add, fld_mul, fld_zero_self]
  case' por | pmovPreds | jmovToG | emovToG | qsetTid | qgetTid =>
    rw [takeEntry_of_ne hl (by omega)]
  case' pxor | pmovFromG | emovE | qsetC | qgetC =>
    rw [takeEntry_of_ne hl (by omega), takeEntry_of_ne hl (by omega)]
  case' pandn =>
    rw [takeEntry_of_ne hl (by omega), takeEntry_of_ne hl (by omega), takeEntry_of_ne hl (by omega)]
  case cmpeqi | cmplti | qadd =>
    subst hx
    exact ⟨by omega, takeEntry_may hl (by simpa only [Nat.add_assoc] using hlow) rfl hw⟩
  all_goals
    subst hx
    exact ⟨by decide, takeEntry_never hl (by simpa only [Nat.add_assoc] using hlow) hw⟩

/-- R83: so do those of the scalar float operations and ZCHK, opcodes 0x28 to 0x33. -/
theorem decodeSlot_fieldsI_floats (i : Instr) (hc : i.cls = some .i) (hw : i.wf = true) (ho : 0x28 ≤ i.fieldsI.1)
    {low : Nat} {x : Option Nat} (hlow : i.fieldsI.2.2.1 = low) (hx : i.fieldsI.2.2.2 = x) :
    decodeSlot .i (slotWord i.fieldsI.1 i.fieldsI.2.1 low x) x = .ok i := by
  cases i <;> cases hc <;> simp only [Instr.fieldsI, Nat.reduceLeDiff] at ho
  all_goals
    have h := And.intro hw trivial
    simp only [Instr.wf, Bool.and_eq_true, Nat.blt_eq, all_blt_iff, and_assoc] at h
    obtain ⟨hg, h⟩ := h
    dsimp only [Instr.fieldsI] at hlow hx ⊢
    have hl : low < 2 ^ 20 := by omega
    have hf (lo n : Nat) := congrArg (fld · lo n) hlow.symm
    apply decodeSlot_slotWord (by decide) hg hl
    dsimp only
    rw [decodeI, fld_slotWord_op _ (by decide) hg hl]
    dsimp only [decI28, decI29, decI2A, decI2B, decI2C, decI2D, decI2E, decI2F, decI30, decI31, decI32, decI33]
    simp (disch := decide) only [guardOf_slotWord _ _ hg hl, fld_slotWord, hf, Nat.add_assoc, fld_mul_add_of_dvd]
    simp (disch := omega) only [fld_mul_add, fld_mul, fld_zero_self]
  case' fcvtFromI64 | zchkM =>
    rw [takeEntry_of_ne hl (by omega)]
  case' fcvtToI64 =>
    rw [takeEntry_of_ne hl (by omega), takeEntry_of_ne hl (by omega)]
  case' fcvtToU64 =>
    rw [takeEntry_of_ne hl (by omega), takeEntry_of_ne hl (by omega), takeEntry_of_ne hl (by omega)]
  case fadd | fsub | fmul | fdiv | fsqrt =>
    subst hx
    exact ⟨by omega, takeEntry_may hl (by simpa only [Nat.add_assoc] using hlow) rfl hw⟩
  case fma | fcmp | fcvtFp | fcvtFromI64 | fcvtToI64 | fcvtToU64 =>
    obtain ⟨r, rfl⟩ : ∃ r, x = some r := ⟨_, hx.symm⟩
    have hr : _ = r := Option.some.inj hx
    have hf (lo n : Nat) := congrArg (fld · lo n) hr.symm
    simp (disch := decide) only [Option.getD_some, hf, Nat.add_assoc, fld_mul_add_of_dvd]
    simp (disch := omega) only [fld_mul_add, fld_zero_self]
    exact ⟨by omega, takeEntry_must hl (by simpa only [Nat.add_assoc] using hlow) (by simpa only [Nat.add_assoc] using hr) hw⟩
  all_goals
    subst hx
    exact ⟨by decide, takeEntry_never hl (by simpa only [Nat.add_assoc] using hlow) hw⟩

/-- R84: the slot words of a well-formed V class instruction decode to it. -/
theorem decodeSlot_fieldsV (i : Instr) (hc : i.cls = some .v) (hw : i.wf = true) {x : Option Nat} (hx : i.fieldsV.2.2.2 = x) :
    decodeSlot .v (slotWord i.fieldsV.1 i.fieldsV.2.1 i.fieldsV.2.2.1 x) x = .ok i := by
  cases i <;> cases hc
  case idle gd =>
    have hg : gd.wf = true := hw
    have hl : 0 < 2 ^ 20 := by decide
    subst hx
    dsimp only [Instr.fieldsV]
    refine decodeSlot_slotWord (by decide) hg hl ⟨by decide, ?_⟩
    dsimp only
    rw [decodeV, fld_slotWord_op _ (by decide) hg hl]
    simp only [decV3F]
    rw [guardOf_slotWord _ _ hg hl]
    exact takeEntry_never hl rfl hw
  all_goals
    have h := hw
    simp only [Instr.wf, Bool.and_eq_true] at h
    obtain ⟨⟨hg, hv⟩, -⟩ := h
    have hl := vopLow_lt hv
    dsimp only [Instr.fieldsV] at hx ⊢
    refine decodeSlot_slotWord (by decide) hg hl ⟨getD_vopExt hx ▸ vopExt_lt hv, ?_⟩
    dsimp only
    rw [decodeV, fld_slotWord_op _ (by decide) hg hl]
    simp only [decV01, decV02, decV03, decV04, decV05, decV06, decV07, decV08, decV09, decV0A, decV0B, decV0C, decV0D, decV0E, decV0F, decV10, decV11,
      decV12, decV13, decV14, decV15, decV16, decV17, decV18, decV19, decV1A, decV1B, decV1C, decV1D, decV1E, decV1F, decV20,
      vopOf_slotWord _ _ hv hx, guardOf_slotWord _ _ hg hl]
    exact takeEntry_may hl rfl (getD_vopExt hx) hw

/-- R85: the slot words of a well-formed M class instruction decode to it. -/
theorem decodeSlot_fieldsM (i : Instr) (hc : i.cls = some .m) (hw : i.wf = true) {x : Option Nat} (hx : i.fieldsM.2.2.2 = x) :
    decodeSlot .m (slotWord i.fieldsM.1 i.fieldsM.2.1 i.fieldsM.2.2.1 x) x = .ok i := by
  cases i <;> cases hc
  all_goals
    have h := And.intro hw trivial
    simp only [Instr.wf, Bool.and_eq_true, Nat.blt_eq, and_assoc] at h
    obtain ⟨hg, he, h⟩ := h
    have hl := edgeLow_lt he
    obtain ⟨-, -, -, -, hc2⟩ := edge_bounds he
    obtain ⟨r, rfl⟩ : ∃ r, x = some r := ⟨_, hx.symm⟩
    have hr : _ = r := Option.some.inj hx
    have hf (lo n : Nat) := congrArg (fld · lo n) hr.symm
    dsimp only [Instr.fieldsM]
    refine decodeSlot_slotWord (by decide) hg hl ⟨by rw [Option.getD_some]; omega, ?_⟩
    dsimp only
    rw [decodeM, fld_slotWord_op _ (by decide) hg hl]
    dsimp only [decM01, decM02, decM03, decM04, decM05, decM06, decM10, decM11, decM12, decM13, decM14, decM15, Option.getD_some]
    rw [edgeOf_slotWord _ _ he (by omega), guardOf_slotWord _ _ hg hl]
    simp (disch := decide) only [hf, Nat.add_assoc, fld_mul_add_of_dvd]
    simp (disch := omega) only [fld_mul_add, fld_mul, fld_zero_self, fld_zero_add]
  case' msclDiag | mtriLs | tlookR =>
    rw [takeEntry_must_of_ne (by omega)]
  case' msclMul | mtriUi =>
    rw [takeEntry_must_of_ne (by omega), takeEntry_must_of_ne (by omega)]
  case' mtriUs =>
    rw [takeEntry_must_of_ne (by omega), takeEntry_must_of_ne (by omega), takeEntry_must_of_ne (by omega)]
  all_goals exact takeEntry_must hl rfl (by simpa only [Nat.add_assoc] using hr) hw

/-- R86: the slot words of a well-formed X class instruction decode to it. -/
theorem decodeSlot_fieldsX (i : Instr) (hc : i.cls = some .x) (hw : i.wf = true) {x : Option Nat} (hx : i.fieldsX.2.2.2 = x) :
    decodeSlot .x (slotWord i.fieldsX.1 i.fieldsX.2.1 i.fieldsX.2.2.1 x) x = .ok i := by
  cases i <;> cases hc
  all_goals
    have h := And.intro hw trivial
    simp only [Instr.wf, Bool.and_eq_true, Nat.blt_eq, and_assoc] at h
    obtain ⟨hg, he, h⟩ := h
    have hl := edgeLow_lt he
    obtain ⟨-, -, -, -, hc2⟩ := edge_bounds he
    obtain ⟨r, rfl⟩ : ∃ r, x = some r := ⟨_, hx.symm⟩
    have hr : _ = r := Option.some.inj hx
    have hf (lo n : Nat) := congrArg (fld · lo n) hr.symm
    dsimp only [Instr.fieldsX]
    refine decodeSlot_slotWord (by decide) hg hl ⟨by rw [Option.getD_some]; omega, ?_⟩
    dsimp only
    rw [decodeX, fld_slotWord_op _ (by decide) hg hl]
    dsimp only [decX01, decX02, decX03, decX04, decX05, decX06, decX07, decX08, decX09, decX0A, decX0B, decX0C, decX0D, decX0E, decX10, decX11,
      decX12, decX13, decX14, decX18, decX19, decX1A, Option.getD_some]
    rw [edgeOf_slotWord _ _ he (by omega), guardOf_slotWord _ _ hg hl]
    simp (disch := decide) only [hf, Nat.add_assoc, fld_mul_add_of_dvd]
    simp (disch := omega) only [fld_mul_add, fld_mul]
  case' tcopyMem | rfenceFStore | tdecbArm =>
    rw [takeEntry_must_of_ne (by omega)]
  case' rfenceFDec =>
    rw [takeEntry_must_of_ne (by omega), takeEntry_must_of_ne (by omega)]
    simp only [show fld 64 7 6 = 0 from rfl, Nat.zero_mul, Nat.zero_add]
  all_goals exact takeEntry_must hl rfl (by simpa only [Nat.add_assoc] using hr) hw

/-- R87: the slot words of a well-formed L class instruction decode to it. -/
theorem decodeSlot_fieldsL (i : Instr) (hc : i.cls = some .l) (hw : i.wf = true)
    {low : Nat} {x : Option Nat} (hlow : i.fieldsL.2.2.1 = low) (hx : i.fieldsL.2.2.2 = x) :
    decodeSlot .l (slotWord i.fieldsL.1 i.fieldsL.2.1 low x) x = .ok i := by
  cases i <;> cases hc
  all_goals
    have h := And.intro hw trivial
    simp only [Instr.wf, Bool.and_eq_true, Nat.blt_eq, all_blt_iff, and_assoc] at h
    obtain ⟨hg, h⟩ := h
    dsimp only [Instr.fieldsL] at hlow hx ⊢
    have hl : low < 2 ^ 20 := by omega
    have hf (lo n : Nat) := congrArg (fld · lo n) hlow.symm
    apply decodeSlot_slotWord (by decide) hg hl
    dsimp only
    rw [decodeL, fld_slotWord_op _ (by decide) hg hl]
    dsimp only [decL01, decL02, decL03, decL04, decL05, decL06, decL07, decL08, decL09, decL0A, decL0B, decL0C, decL0D, decL0E, decL0F, decL10,
      decL11, decL12, decL13, decL14, decL15, decL16, decL17, decL18, decL19, decL3F]
    simp (disch := omega) only [guardOf_slotWord _ _ hg hl, fld_slotWord, hf, Nat.add_assoc, fld_mul_add_of_dvd,
      fld_mul_add, fld_mul, fld_zero_self, fld_zero_add]
  case' ldxinvAll => rw [takeEntry_of_ne hl (by simp only [fld] at *; omega)]
  case' prefLlc =>
    rw [takeEntry_of_ne hl (by omega)]
  case ldB | ldBs | ldH | ldHs | ldW | ldWs | ldD | stB | stH | stW | stD | ldv | stv | ldx | ldxinv | sld | pref | prefLlc | acq | rel | trd | twr =>
    subst hx
    exact ⟨by omega, takeEntry_may hl (by simpa only [Nat.add_assoc] using hlow) rfl hw⟩
  case gath | scat | amo | cas =>
    obtain ⟨r, rfl⟩ : ∃ r, x = some r := ⟨_, hx.symm⟩
    have hr : _ = r := Option.some.inj hx
    have hf (lo n : Nat) := congrArg (fld · lo n) hr.symm
    simp (disch := decide) only [Option.getD_some, hf, Nat.add_assoc, fld_mul_add_of_dvd]
    simp (disch := omega) only [fld_mul_add, fld_mul]
    exact ⟨by omega, takeEntry_must hl (by simpa only [Nat.add_assoc] using hlow) (by simpa only [Nat.add_assoc] using hr) hw⟩
  all_goals
    subst hx
    exact ⟨by decide, takeEntry_never hl (by simpa only [Nat.add_assoc] using hlow) hw⟩

/-- Settles O5: class by class, each field that the encoder placed in the words is read back from its place, and the entries before the instruction's
own do not account for every bit. -/
theorem encodedSlotsDecode : Obligations.EncodedSlotsDecode := by
  intro i cl hc hw
  rw [encode_eq, Instr.guard, Instr.fields]
  cases cl <;> rw [hc]
  case c => exact decodeSlot_fieldsC i hc hw rfl rfl
  case i =>
    by_cases h1 : i.fieldsI.1 < 0x18
    · exact decodeSlot_fieldsI_integers i hc hw h1 rfl rfl
    by_cases h2 : i.fieldsI.1 < 0x28
    · exact decodeSlot_fieldsI_moves i hc hw ⟨Nat.le_of_not_lt h1, h2⟩ rfl rfl
    · exact decodeSlot_fieldsI_floats i hc hw (Nat.le_of_not_lt h2) rfl rfl
  case v => exact decodeSlot_fieldsV i hc hw rfl
  case m => exact decodeSlot_fieldsM i hc hw rfl
  case x => exact decodeSlot_fieldsX i hc hw rfl
  case l => exact decodeSlot_fieldsL i hc hw rfl rfl

end Sys2Proof
end

section
/-! SUPPORT. The words that the spec writes out, by evaluation of the decoder on each. -/

namespace Sys2Proof

/-- Settles O4: the decoder is evaluated on the words of each class. -/
theorem specWordsDecode : Obligations.SpecWordsDecode := by
  unfold Obligations.SpecWordsDecode
  refine ⟨?_, ?_, ?_, ?_, ?_, ?_, ?_, ?_, ?_, ?_, ?_, ?_, ?_, ?_, ?_, ?_, ?_, ?_⟩ <;> decide

end Sys2Proof
end

section
/-! SUPPORT. Products and quotients (R122, R123), and slots whose guard fails (R65): the integers that the meanings compute with, as words, and
when an instruction alone in its bundle is illegal. -/

namespace Sys2Proof.Machine

/-! ## Encodings that are illegal whatever else they ask for (R68, R142) -/

/-- An instruction alone in its bundle stands in the first slot of its class. -/
theorem Instr.slot_ne_i1 (i : Instr) : i.slot ≠ .i1 := by
  unfold Instr.slot
  split <;> exact fun h => nomatch h
/-- Only a SAFE can be illegal alone in its bundle. -/
theorem illegal_sole_of_not_safe {i : Instr} (h : ∀ gd n x, i ≠ .safe gd n x) (sem : State → SlotEff) (s : State) :
    (presentSlot i.slot i sem).illegal s = false := by
  have hs : (i.slot == Slot.i1) = false := beq_eq_false_iff_ne.mpr (Instr.slot_ne_i1 i)
  unfold SlotRun.illegal
  split
  next gd n x hi => exact absurd hi (h gd n x)
  · simp [presentSlot, hs]
/-- A SAFE is legal where its index names a liveness set. -/
theorem illegal_safe_of_index {gd : Guard} {n : Nat} {x : Option Nat} {s : State} (hn : extLow x n < liveCount s) (hx : extLow x n ≠ 0xFFFF)
    (sl : Slot) (sem : State → SlotEff) : (presentSlot sl (.safe gd n x) sem).illegal s = false := by
  have hle : Nat.ble (liveCount s) (extLow x n) = false := by
    rw [← Bool.not_eq_true, Nat.ble_eq]; omega
  simp [SlotRun.illegal, presentSlot, hle, hx]

/-! ## Results of the multiplier and the divider -/

/-- An I slot whose meaning is one g result of a latency longer than 1. -/
theorem givesGLater_of {i : Instr} {s : State} {d lat : Nat} {v w : W64} (hc : i.cls = some .i) (hs : semOf i s = gResLat s.me d v lat)
    (h2 : 2 ≤ lat) (hv : v = w) : GivesGLater i s d w lat := by
  subst hv
  intro hr
  have hl : i.slot = .i0 := by rw [Instr.slot, hc]
  exact givesLater_result (exec_eq_runSole (by simp [hc]) s) hr (.inl (by simp [hl]))
    (illegal_sole_of_not_safe (fun gd n x hi => by subst hi; cases hc) _ s) hs h2

theorem sdiv_eq (x y : W64) : sdiv x y = if y = 0 then BitVec.allOnes 64 else x.sdiv y := by
  have h : w64 (x.toInt.tdiv y.toInt) = x.sdiv y := BitVec.eq_of_toInt_eq (by rw [w64, BitVec.toInt_ofInt, BitVec.toInt_sdiv])
  simp only [sdiv, h, beq_iff_eq]
theorem srem_eq (x y : W64) : srem x y = if y = 0 then x else x.srem y := by
  have h : w64 (x.toInt.tmod y.toInt) = x.srem y := by rw [w64, ← BitVec.toInt_srem, BitVec.ofInt_toInt]
  simp only [srem, h, beq_iff_eq]
theorem udiv_eq (x y : W64) : udiv x y = if y = 0 then BitVec.allOnes 64 else x / y := by
  have h : BitVec.ofNat 64 (x.toNat / y.toNat) = x / y := by rw [← BitVec.toNat_udiv, BitVec.ofNat_toNat, BitVec.setWidth_eq]
  simp only [udiv, h, beq_iff_eq]
theorem urem_eq (x y : W64) : urem x y = if y = 0 then x else x % y := by
  have h : BitVec.ofNat 64 (x.toNat % y.toNat) = x % y := by rw [← BitVec.toNat_umod, BitVec.ofNat_toNat, BitVec.setWidth_eq]
  simp only [urem, h, beq_iff_eq]
theorem ofNat_mul_high (x y : W64) : BitVec.ofNat 64 (x.toNat * y.toNat / 2 ^ 64) = (x.zeroExtend 128 * y.zeroExtend 128).extractLsb' 64 64 := by
  have hx : x.zeroExtend 128 * y.zeroExtend 128 = BitVec.ofNat 128 (x.toNat * y.toNat) := by
    rw [BitVec.ofNat_mul, BitVec.ofNat_toNat, BitVec.ofNat_toNat]
  have hd (a : Nat) : a % 2 ^ 128 / 2 ^ 64 % 2 ^ 64 = a / 2 ^ 64 % 2 ^ 64 := by omega
  rw [hx]
  apply BitVec.eq_of_toNat_eq
  rw [BitVec.extractLsb'_toNat, BitVec.toNat_ofNat, BitVec.toNat_ofNat, Nat.shiftRight_eq_div_pow]
  exact (hd _).symm
theorem w64_ashr_mul (x y : W64) : w64 (ashr (x.toInt * y.toInt) 64) = (x.signExtend 128 * y.signExtend 128).extractLsb' 64 64 := by
  have hx : x.signExtend 128 * y.signExtend 128 = BitVec.ofInt 128 (x.toInt * y.toInt) := by
    rw [BitVec.ofInt_mul]; rfl
  have hd (a : Int) : (a % 2 ^ 128).toNat / 2 ^ 64 % 2 ^ 64 = (a / 2 ^ 64 % 2 ^ 64).toNat := by omega
  rw [hx, ashr_eq, Int.shiftRight_eq_div_pow]
  apply BitVec.eq_of_toNat_eq
  rw [BitVec.extractLsb'_toNat, BitVec.toNat_ofInt, w64, BitVec.toNat_ofInt, Nat.shiftRight_eq_div_pow]
  exact (hd _).symm

/-- Settles O12: each instruction is one g result, and its value is the word that the statement writes. -/
theorem productsAndQuotients : Obligations.ProductsAndQuotients := by
  refine ⟨fun s gd d a b => ⟨?_, ?_, ?_⟩, fun s gd d a b => ⟨?_, ?_, ?_, ?_⟩⟩
  · exact givesGLater_of rfl rfl (by decide) rfl
  · exact givesGLater_of rfl rfl (by decide) (w64_ashr_mul ..)
  · exact givesGLater_of rfl rfl (by decide) (ofNat_mul_high ..)
  · exact givesGLater_of rfl rfl (by decide) (sdiv_eq ..)
  · exact givesGLater_of rfl rfl (by decide) (udiv_eq ..)
  · exact givesGLater_of rfl rfl (by decide) (srem_eq ..)
  · exact givesGLater_of rfl rfl (by decide) (urem_eq ..)

/-! ## Failing guards (R65) -/

theorem Core.guard_eq_false {c : Core} {g : Guard} (h : c.rp g.gp = decide (g.gn = 1)) : c.guard g = false := by
  rw [Core.guard, h]
  by_cases hg : g.gn = 1 <;> simp [hg]

/-- Settles O23: a legal bundle whose one slot is not to execute commits without an effect; only SAFE can be illegal there. -/
theorem failingGuards : Obligations.FailingGuards := by
  intro s i hc h1 h2 hg hw hsafe
  refine guarded_of (exec_eq_runSole hc s) h1 h2 (Core.guard_eq_false hg) hw ?_
  by_cases hs : ∃ gd n x, i = .safe gd n x
  · obtain ⟨gd, n, x, rfl⟩ := hs
    obtain ⟨hn, hx⟩ := hsafe gd n x rfl
    exact illegal_safe_of_index hn hx ..
  · exact illegal_sole_of_not_safe (fun gd n x hi => hs ⟨gd, n, x, hi⟩) _ s

end Sys2Proof.Machine
end

section
/-! SUPPORT. What a step's core finds where it fetches (R60, R61, R64, R66, R69): the fields of a header word, the words behind it, the slots of a
bundle, and the items of R67 that a bundle of few slots keeps. -/

namespace Sys2Proof

/-! ## Headers -/

/-- The fields of a header lie in their places (R61). -/
theorem headerOf_word {present rep sticky sv0 sv1 sl : Nat} (hp : present < 2 ^ 8) (hr : rep < 16) (hs : sticky < 2) (h0 : sv0 < 16)
    (h1 : sv1 < 16) (hl : sl < 16) :
    headerOf (Header.word ⟨present, rep, sticky, 0, sv0, sv1, sl⟩) = ⟨present, rep, sticky, 0, sv0, sv1, sl⟩ := by
  simp only [headerOf, Header.word, fld, Header.mk.injEq]
  omega
/-- A header has bit 31, and of no repeat or sticky bit set to more than its field holds it is no pad word. -/
theorem header_word_range {present rep sticky sv0 sv1 sl : Nat} (hp : present < 2 ^ 8) (hr : rep < 16) (hs : sticky < 2) (h0 : sv0 < 16)
    (h1 : sv1 < 16) (hl : sl < 16) : 2 ^ 31 ≤ Header.word ⟨present, rep, sticky, 0, sv0, sv1, sl⟩ ∧
      Header.word ⟨present, rep, sticky, 0, sv0, sv1, sl⟩ < 0xFFFFFFFF := by
  simp only [Header.word]
  omega
theorem soleHeader_eq (sl : Slot) : Machine.soleHeader sl = Header.word ⟨2 ^ sl.bit, 0, 0, 0, 0, 0, 0⟩ := by
  cases sl <;> rfl
theorem slots_sole (sl : Slot) (rep sticky sv0 sv1 l : Nat) : Header.slots ⟨2 ^ sl.bit, rep, sticky, 0, sv0, sv1, l⟩ = [sl] := by
  cases sl <;> simp [Header.slots, Slot.bit, fld]
theorem slots_none (rep sticky sv0 sv1 l : Nat) : Header.slots ⟨0, rep, sticky, 0, sv0, sv1, l⟩ = [] := by
  simp [Header.slots, fld]

/-! ## Words of a bundle -/

/-- A word that decodes has its extension word as its bit 30 says, and neither word has bit 31. -/
theorem decodeSlot_words {cl : SlotClass} {w : Nat} {x : Option Nat} {i : Instr} (h : decodeSlot cl w x = .ok i) :
    w < 2 ^ 31 ∧ (∀ e, x = some e → e < 2 ^ 31) ∧ (fld w 30 1 = 1 ↔ x.isSome = true) := by
  unfold decodeSlot at h
  split at h
  · cases h
  next hb =>
    simp only [not_or, Nat.not_le, ne_eq, not_not] at hb
    obtain ⟨hw, hx, hf⟩ := hb
    exact ⟨hw, fun e he => by subst he; exact hx, iff_of_eq hf⟩
/-- The words that a slot's instruction takes. -/
def slotWords (w : Nat) (x : Option Nat) : List Nat := w :: x.toList
theorem fld_bit_zero {w : Nat} (h : ¬ fld w 30 1 = 1) : fld w 30 1 = 0 := by
  unfold fld at *; omega
/-- A slot's words are read behind those of the slots before it. -/
theorem readSlots_cons {cl : SlotClass} {w : Nat} {x : Option Nat} {i : Instr} (h : decodeSlot cl w x = .ok i) (sl : Slot) (ss : List Slot)
    (ws : List Nat) : readSlots (sl :: ss) (slotWords w x ++ ws) = (⟨sl, w, x⟩ :: (readSlots ss ws).1, (readSlots ss ws).2) := by
  obtain ⟨hw, hx, hf⟩ := decodeSlot_words h
  cases x with
  | none =>
    have h0 : fld w 30 1 = 0 := fld_bit_zero (fun h => by simpa using hf.mp h)
    simp only [slotWords, Option.toList_none, List.cons_append, List.nil_append, readSlots, if_neg (Nat.not_le.mpr hw), if_pos h0]
  | some e =>
    have h1 : ¬ fld w 30 1 = 0 := by rw [hf.mpr rfl]; decide
    simp only [slotWords, Option.toList_some, List.cons_append, List.nil_append, readSlots, if_neg (Nat.not_le.mpr hw), if_neg h1,
      if_neg (Nat.not_le.mpr (hx e rfl))]

namespace Machine

/-- The words that a packet holds from an address on, as far as they are known. -/
theorem State.packetWords_append {s : State} {p : Nat} (l : List Nat) {n a : Nat} (hn : l.length ≤ n)
    (h : ∀ k w, l[k]? = some w → s.fetchWord p (a + 4 * k) = .ok w) :
    s.packetWords p n a = l ++ s.packetWords p (n - l.length) (a + 4 * l.length) := by
  induction l generalizing n a with
  | nil => simp
  | cons w t ih =>
    obtain ⟨m, rfl⟩ : ∃ m, n = m + 1 := ⟨n - 1, by simp only [List.length_cons] at hn; omega⟩
    have h0 : s.fetchWord p a = .ok w := h 0 w rfl
    have ht := ih (n := m) (a := a + 4) (by simpa using hn) (fun k x hk => by
      rw [show a + 4 + 4 * k = a + 4 * (k + 1) by ring]
      exact h (k + 1) x hk)
    rw [State.packetWords, h0]
    simp only [ht, List.length_cons, List.cons_append, Nat.add_sub_add_right]
    rw [show a + 4 + 4 * t.length = a + 4 * (t.length + 1) by ring]

/-! ## Slots and the items of R67 -/

theorem reissues_of_plain {c : Core} {h : Header} (hs : h.sticky = 0) : reissues c h = [] := by simp [reissues, hs]
theorem rawInstr_of_ok {r : RawSlot} {i : Instr} (h : decodeSlot r.slot.cls r.w r.x = .ok i) : rawInstr r = some i := by
  simp only [rawInstr, h]
theorem rawBits_le (w : Nat) : rawBits w ≤ 1024 := by
  unfold rawBits
  split
  · exact Nat.zero_le _
  · exact Nat.div_le_self ..

/-- A list in the order of its keys is what picking it apart by key puts together. -/
theorem flatMap_filter_of_sublist {α β : Type} [DecidableEq β] (f : α → β) {l : List α} {o : List β} (hn : o.Nodup) (h : (l.map f).Sublist o) :
    o.flatMap (fun k => l.filter (fun a => f a == k)) = l := by
  induction o generalizing l with
  | nil => simpa using h
  | cons k o ih =>
    obtain ⟨hk, ho⟩ := List.nodup_cons.mp hn
    have hf {l : List α} (h : (l.map f).Sublist o) : l.filter (fun a => f a == k) = [] :=
      List.filter_eq_nil_iff.mpr (fun a ha he => hk (beq_iff_eq.mp he ▸ h.subset (List.mem_map_of_mem ha)))
    rw [List.flatMap_cons]
    cases l with
    | nil => simp
    | cons a l =>
      by_cases ha : f a = k
      · have hl : (l.map f).Sublist o := by
          rw [List.map_cons, ha] at h
          exact List.cons_sublist_cons.mp h
        have hrest : o.flatMap (fun k => (a :: l).filter (fun a => f a == k)) = o.flatMap (fun k => l.filter (fun a => f a == k)) :=
          List.flatMap_congr (fun j hj => List.filter_cons_of_neg (fun he => hk (by rw [← ha, beq_iff_eq.mp he]; exact hj)))
        rw [List.filter_cons, if_pos (beq_iff_eq.mpr ha), hf hl, hrest, ih ho hl]
        rfl
      · have hl : ((a :: l).map f).Sublist o := by
          rw [List.map_cons] at h ⊢
          rcases List.sublist_cons_iff.mp h with h | ⟨r, hr, -⟩
          · exact h
          · exact absurd (List.cons.inj hr).1 ha
        rw [hf hl, ih ho hl]
        rfl
/-- The slots of a bundle in slot order, where they are listed so. -/
theorem slotOrder_of_sublist {l : List SlotRun} (h : (l.map SlotRun.slot).Sublist [Slot.c, .i0, .i1, .v0, .v1, .m, .x, .l]) :
    [Slot.c, .i0, .i1, .v0, .v1, .m, .x, .l].flatMap (fun sl => l.filter (fun r => r.slot == sl)) = l :=
  flatMap_filter_of_sublist SlotRun.slot (by decide) h

/-- The effective slots of a bundle that is not sticky. -/
theorem effective_of_plain {c : Core} {h : Header} {raws : List RawSlot} {l : List SlotRun} (hs : h.sticky = 0)
    (hl : raws.filterMap (fun r => (rawInstr r).map (fun i => presentSlot r.slot i (semOf i))) = l)
    (ho : (l.map SlotRun.slot).Sublist [Slot.c, .i0, .i1, .v0, .v1, .m, .x, .l]) : effective c h raws = l := by
  simp only [effective, reissues_of_plain hs, List.filterMap_nil, List.append_nil, hl]
  exact slotOrder_of_sublist ho
/-- A bundle whose words are all there, and which keeps items 1 to 3 of R67, breaks the items about its slots alone, if any. -/
theorem brokenItem_of_read {c : Core} {h : Header} {raws : List RawSlot} {eff : List SlotRun} (hz : h.zeros = 0)
    (hst : h.sticky = 0 → h.sv0 = 0 ∧ h.sv1 = 0 ∧ h.sl = 0) (hr : h.rep = 0 ∨ ∀ r ∈ raws, r.slot ≠ .c) (he : effective c h raws = eff) :
    brokenItem c h raws 0 =
      if !(disjointAll (eff.map SlotRun.dests)) || !(distinctNats (eff.filterMap (fun r => (edgeOf r.ins).map (fun e => e.tp)))) then 6
      else if Nat.blt 1024 (((raws ++ reissues c h).filter (fun r => r.slot.cls == .v)).foldl (fun n r => n + rawBits r.w) 0) then 7
      else 0 := by
  have h2 : (h.sticky == 0 && (h.sv0 != 0 || h.sv1 != 0 || h.sl != 0)) = false := by
    by_cases h0 : h.sticky = 0
    · obtain ⟨h1, h2, h3⟩ := hst h0
      simp [h1, h2, h3]
    · simp [h0]
  have h3 : (h.rep != 0 && raws.any (fun r => r.slot == .c && transferOp (opOf r.w))) = false := by
    rcases hr with hr | hr
    · simp [hr]
    · have : raws.any (fun r => r.slot == .c && transferOp (opOf r.w)) = false := List.any_eq_false.mpr (fun r hm => by simp [hr r hm])
      rw [this, Bool.and_false]
  have h1 : (h.zeros != 0) = false := by simp [hz]
  unfold brokenItem
  rw [h1, h2, h3, he]
  rw [if_neg Bool.false_ne_true, if_neg Bool.false_ne_true, if_neg Bool.false_ne_true, if_neg (by decide)]
theorem items_of_single {eff : List SlotRun} (h : eff.length ≤ 1) : disjointAll (eff.map SlotRun.dests) = true ∧
    distinctNats (eff.filterMap (fun r => (edgeOf r.ins).map (fun e => e.tp))) = true := by
  cases eff with
  | nil => exact ⟨rfl, rfl⟩
  | cons e t =>
    obtain rfl : t = [] := List.length_eq_zero_iff.mp (by simpa using h)
    rw [List.filterMap_cons, List.filterMap_nil]
    generalize (edgeOf e.ins).map (fun e => e.tp) = o
    cases o <;> exact ⟨rfl, rfl⟩
/-- One slot, present or re-issued, breaks no item about slots. -/
theorem brokenItem_single {c : Core} {h : Header} {raws : List RawSlot} {r : RawSlot} (hz : h.zeros = 0)
    (hst : h.sticky = 0 → h.sv0 = 0 ∧ h.sv1 = 0 ∧ h.sl = 0) (hr : h.rep = 0) (hraw : raws ++ reissues c h = [r])
    (he : (effective c h raws).length ≤ 1) : brokenItem c h raws 0 = 0 := by
  have hb : ¬ Nat.blt 1024 (((raws ++ reissues c h).filter (fun r => r.slot.cls == .v)).foldl (fun n r => n + rawBits r.w) 0) = true := by
    have := rawBits_le r.w
    rw [hraw, Nat.blt_eq, Nat.not_lt, List.filter_cons]
    split <;> simp [this]
  obtain ⟨hd, ht⟩ := items_of_single he
  rw [brokenItem_of_read hz hst (.inl hr) rfl, hd, ht, if_neg hb]
  rfl

/-! ## What fetch answers (R66) -/

theorem readBundle_of_good {s : State} {a hw : Nat} {ws : List Nat} {h : Header} {raws : List RawSlot} {stop : Nat} (hh : headerOf hw = h)
    (hr : readSlots h.slots ws = (raws, stop)) (hi : brokenItem s.me h raws stop = 0)
    (hb : (raws ++ reissues s.me h).filter (fun x => (rawInstr x).isNone) = []) :
    readBundle s a hw ws = .bundle a ⟨1 + rawWords raws, h.rep, effective s.me h raws⟩ := by
  simp only [readBundle, hh, hr, hi, hb, bne_self_eq_false, Bool.false_eq_true, if_false, List.isEmpty_nil, if_true]

/-- Where the next bundle of the core begins: behind pad words where fetch is sequential (R69, R70). -/
abbrev State.nextAt (s : State) : Nat := if s.me.via = .seq then s.skipPads s.me.csr.partid.toNat padLimit s.me.pc else s.me.pc
/-- A word with bit 31 that is no pad word is a header (R70). -/
theorem bitOf_31_of_le {v : Nat} (h : 2 ^ 31 ≤ v) (hv : v < 0xFFFFFFFF) : bitOf v 31 = true := by
  rw [bitOf, show v / 2 ^ 31 = 1 by omega]; rfl
/-- A header is read with the words behind it in its packet. -/
theorem fetchBundle_of_header {s : State} {v : Nat} (hv : s.me.via ≠ .skip) (hw : s.fetchWord s.me.csr.partid.toNat s.nextAt = .ok v)
    (h4 : s.nextAt % 4 = 0) (h31 : 2 ^ 31 ≤ v) (h32 : v < 0xFFFFFFFF) :
    fetchBundle s = readBundle s s.nextAt v (s.packetWords s.me.csr.partid.toNat (15 - s.nextAt % 64 / 4) (s.nextAt + 4)) := by
  have ha : s.nextAt / 4 * 4 = s.nextAt := by omega
  have hn : (v == 0xFFFFFFFF) = false := beq_eq_false_iff_ne.mpr (by omega)
  rw [← ha] at hw
  unfold State.nextAt at *
  cases h : s.me.via with
  | skip => exact absurd h hv
  | _ =>
    simp only [h, if_true, reduceCtorEq, if_false] at hw h4 ⊢
    simp only [fetchBundle, h, hw, h4, hn, bitOf_31_of_le h31 h32, bne_self_eq_false, Bool.not_true, Bool.false_eq_true, if_false]

/-! ## A bundle of one present slot (R64) -/

theorem rawWords_single (sl : Slot) (w : Nat) (x : Option Nat) : rawWords [⟨sl, w, x⟩] = (slotWords w x).length := by
  cases x <;> rfl
theorem slotWords_encode_length (i : Instr) : (slotWords (encode i).1 (encode i).2).length = i.nwords := by
  show (slotWords _ i.fields.2.2.2).length = _
  unfold Instr.nwords slotWords
  cases i.fields.2.2.2 <;> rfl
theorem readBundle_sole {s : State} {a : Nat} {sl : Slot} {w : Nat} {x : Option Nat} {i : Instr} (h : decodeSlot sl.cls w x = .ok i) (ws : List Nat) :
    readBundle s a (soleHeader sl) (slotWords w x ++ ws) = .bundle a ⟨1 + (slotWords w x).length, 0, [presentSlot sl i (semOf i)]⟩ := by
  have hh : headerOf (soleHeader sl) = ⟨2 ^ sl.bit, 0, 0, 0, 0, 0, 0⟩ := by
    cases sl <;> rfl
  have hr : readSlots (Header.slots ⟨2 ^ sl.bit, 0, 0, 0, 0, 0, 0⟩) (slotWords w x ++ ws) = ([⟨sl, w, x⟩], 0) := by
    rw [slots_sole, readSlots_cons h]; rfl
  have hraw : rawInstr ⟨sl, w, x⟩ = some i := rawInstr_of_ok h
  have he : effective s.me ⟨2 ^ sl.bit, 0, 0, 0, 0, 0, 0⟩ [⟨sl, w, x⟩] = [presentSlot sl i (semOf i)] :=
    effective_of_plain rfl (by simp [hraw]) (by cases sl <;> simp [presentSlot])
  have hi := reissues_of_plain (c := s.me) (h := ⟨2 ^ sl.bit, 0, 0, 0, 0, 0, 0⟩) rfl
  rw [readBundle_of_good hh hr (brokenItem_single (r := ⟨sl, w, x⟩) rfl (fun _ => ⟨rfl, rfl, rfl⟩) rfl (by rw [hi]; rfl) (by rw [he]; rfl))
    (by simp [hi, hraw]), he, rawWords_single]

/-! ## A step that issues -/

theorem step_of_agenda {s : State} (h : s.agenda = []) : step s = runCore s.cur s := by
  unfold step
  rw [h]
theorem step_eq_turn {s : State} (ha : s.agenda = []) (hc : s.clocked (clusterOf s.cur) = true) : step s = turn s := by
  rw [step_of_agenda ha]
  exact if_pos hc
theorem issue_eq {s : State} (h : s.me.settle = false ∨ s.me.loads = []) : issue s = runFetched (fetchBundle s) s := by
  have hst : (s.me.settle && !s.me.loads.isEmpty) = false := by
    rcases h with h | h <;> simp [h]
  rw [issue, hst]
  rfl
theorem turn_eq_issue {s : State} (hr : s.me.run = .task) (hs : s.me.saveDue = false) (hh : s.me.handlerDue = false) : turn s = issue s := by
  unfold turn
  rw [hr]
  simp only [hs, hh, Bool.false_eq_true, if_false]
/-- A step of a core at which nothing else is due does what fetch has found. -/
theorem step_eq_runFetched {s : State} (ha : s.agenda = []) (hc : s.clocked (clusterOf s.cur) = true) (hr : s.me.run = .task)
    (hl : s.me.settle = false ∨ s.me.loads = []) (hs : s.me.saveDue = false) (hh : s.me.handlerDue = false) :
    step s = runFetched (fetchBundle s) s := by
  rw [step_eq_turn ha hc, turn_eq_issue hr hs hh, issue_eq hl]

/-- Settles O1: fetch reads the header, the slot word and the extension word as a bundle whose one slot holds the instruction; an event that may
happen is executed where the agenda names it. -/
theorem stepRunsTheInstruction : Obligations.StepRunsTheInstruction := by
  refine ⟨fun s i w x a => ?_, fun s i l hl hm => ?_⟩
  · intro p hag hck hrun hld hvia hsave hhan (ha : a = s.nextAt) h4 hlen hcls henc hdec hw0 hw1 hw2
    have hn : (slotWords w x).length = i.nwords := by
      have := slotWords_encode_length i
      rwa [henc] at this
    have hpk := s.packetWords_append (p := p) (slotWords w x) (n := 15 - a % 64 / 4) (a := a + 4) (by omega) (fun k y hk => by
      cases x with
      | none =>
        rcases k with _ | k
        · cases hk; exact hw1
        · cases hk
      | some e =>
        rcases k with _ | _ | k
        · cases hk; exact hw1
        · cases hk; exact hw2 _ rfl
        · cases hk)
    have hrange : 2 ^ 31 ≤ soleHeader i.slot ∧ soleHeader i.slot < 0xFFFFFFFF := by
      rw [soleHeader_eq]
      exact header_word_range (by cases i.slot <;> decide) (by decide) (by decide) (by decide) (by decide) (by decide)
    have hf : fetchBundle s = .bundle a (soleBundle i (semOf i)) := by
      rw [fetchBundle_of_header hvia (ha ▸ hw0) (ha ▸ h4) hrange.1 hrange.2]
      rw [← ha, hpk, readBundle_sole hdec, hn]
      rfl
    refine ⟨s.updMe (fun c => { c with pc := a }), rfl, fun k hk => s.updMe_core_of_ne _ hk, s.updMe_me _, ?_⟩
    rw [step_eq_runFetched hag hck hrun hld hsave hhan, hf, exec_eq_runSole hcls]
    rfl
  · unfold step
    rw [hl]
    exact if_pos hm

end Machine
end Sys2Proof
end

section
/-! SUPPORT. The events that name a core: a stalled bundle tried again, the watchdogs, pre-emption, a bundle without slots, and the end of a task
(R23, R61, R88, R144, R285, R293, R305). -/

namespace Sys2Proof.Machine

/-! ## What the end of a task and of a launch leaves -/

/-- What each step of a fold keeps, the fold keeps. -/
theorem foldl_keeps {α β : Type} {f : State → α → State} (g : State → β) (h : ∀ t x, g (f t x) = g t) (l : List α) (s : State) :
    g (l.foldl f s) = g s :=
  List.foldlRecOn l f (motive := fun t => g t = g s) rfl (fun t ht x _ => (h t x).trans ht)

@[simp] theorem State.updLaunch_cores (s : State) (l : Nat) (f : Launch → Launch) : (s.updLaunch l f).cores = s.cores := rfl
@[simp] theorem State.updQcb_cores (s : State) (key : Nat) (f : Qcb → Qcb) : (s.updQcb key f).cores = s.cores := rfl
@[simp] theorem State.updQcb_launches (s : State) (key : Nat) (f : Qcb → Qcb) : (s.updQcb key f).launches = s.launches := rfl
/-- An interrupt is something that leaves the device. -/
theorem State.msix_eq (s : State) (fn v : Nat) : s.msix fn v = { s with out := (s.msix fn v).out } := by
  unfold State.msix
  generalize Nat.blt v _ = b
  cases b <;> rfl
@[simp] theorem State.msix_cores (s : State) (fn v : Nat) : (s.msix fn v).cores = s.cores := by rw [State.msix_eq]
@[simp] theorem State.msix_launches (s : State) (fn v : Nat) : (s.msix fn v).launches = s.launches := by rw [State.msix_eq]
@[simp] theorem State.post_cores (s : State) (key tag status field result wit : Nat) :
    (s.post key tag status field result wit).cores = s.cores := by
  unfold State.post; dsimp only; split <;> simp [State.wrBytes]
@[simp] theorem State.post_launches (s : State) (key tag status field result wit : Nat) :
    (s.post key tag status field result wit).launches = s.launches := by
  unfold State.post; dsimp only; split <;> simp [State.wrBytes]
@[simp] theorem State.waited_cores (s : State) (key : Nat) : (s.waited key).cores = s.cores := by
  unfold State.waited; split <;> simp
@[simp] theorem State.waited_launches (s : State) (key : Nat) : (s.waited key).launches = s.launches := by
  unfold State.waited; split <;> simp
@[simp] theorem State.queueSaved_cores (s : State) (key : Nat) : (s.queueSaved key).cores = s.cores := by
  unfold State.queueSaved; dsimp only; repeat' split
  all_goals simp
@[simp] theorem State.queueSaved_launches (s : State) (key : Nat) : (s.queueSaved key).launches = s.launches := by
  unfold State.queueSaved; dsimp only; repeat' split
  all_goals simp
@[simp] theorem State.queueStopped_cores (s : State) (key : Nat) : (s.queueStopped key).cores = s.cores := by
  unfold State.queueStopped; dsimp only; split <;> simp
@[simp] theorem State.queueStopped_launches (s : State) (key : Nat) : (s.queueStopped key).launches = s.launches := by
  unfold State.queueStopped; dsimp only; split <;> simp
@[simp] theorem State.freeRings_cores (s : State) (l : Nat) : (s.freeRings l).cores = s.cores := by
  unfold State.freeRings
  refine foldl_keeps State.cores (fun t cl => ?_) _ _
  dsimp only
  split
  · rfl
  · rw [State.updCluster_cores]
    refine foldl_keeps State.cores ?_ _ t
    intro u c
    refine foldl_keeps State.cores ?_ _ u
    exact fun _ _ => rfl
@[simp] theorem State.endLaunch_cores (s : State) (l status : Nat) : (s.endLaunch l status).cores = s.cores := by
  unfold State.endLaunch; split <;> simp
/-- A launch that ends is not listed any more. -/
theorem State.endLaunch_launch (s : State) {l : Nat} {x : Launch} (h : s.launch l = some x) (status : Nat) : (s.endLaunch l status).launch l = none := by
  unfold State.endLaunch
  rw [h]
  simp [State.launch]

/-- A queue that saves nothing is not on its way to SAVED. -/
theorem State.queueSaved_of_not_toSave {s : State} {key : Nat} (h : (s.qcb key).toSave = false) : s.queueSaved key = s := by
  unfold State.queueSaved
  simp [h]

/-- A change of a launch changes the launch of that number alone. -/
theorem State.updLaunch_launch (s : State) (l : Nat) (f : Launch → Launch) : (s.updLaunch l f).launch l = (s.launch l).map f := by
  simp only [State.updLaunch, State.launch]
  induction s.launches with
  | nil => rfl
  | cons e t ih =>
    by_cases h : e.1 = l
    · simp [h]
    · simpa [h] using ih
theorem State.launch_of_launches {s t : State} (h : t.launches = s.launches) (l : Nat) : t.launch l = s.launch l := by
  unfold State.launch; rw [h]
theorem State.updQueueOf_of_launch {s : State} {l : Nat} {x : Launch} (h : s.launch l = some x) (f : Qcb → Qcb) :
    s.updQueueOf l f = s.updQcb x.key f := by
  unfold State.updQueueOf; rw [h]
@[simp] theorem State.updQcb_qcb_self (s : State) (key : Nat) (f : Qcb → Qcb) : (s.updQcb key f).qcb key = f (s.qcb key) := by
  simp [State.updQcb, State.qcb]

/-! ## Bundles (R61, R88, R144, R418) -/

/-- The state in which core k is the one that moves. -/
abbrev State.turned (s : State) (k : Nat) : State := { s with cur := k }
theorem State.turned_me (s : State) (k : Nat) : (s.turned k).me = s.core k := rfl

/-- WAITK commits where its token is DONE, and marks it as waited on. -/
theorem waitk_doesTo {s : State} {gd : Guard} {n : Nat} (hr : Ready (.waitk gd n) s) (hd : (s.me.tok n).st = .done) :
    DoesTo (.waitk gd n) s (s.updMe (fun c => c.useToks [n])) := by
  have hs : semOf (.waitk gd n) s = { commit := fun s => s.updMe (fun c => c.useToks [n]) } := by
    show waitOn [n] s = _
    simp [waitOn, hd]
  refine doesTo_of rfl hr (.inl (fun h => nomatch h)) (illegal_sole_of_not_safe (fun _ _ _ h => by cases h) _ s) hs ⟨rfl, rfl, rfl, rfl, rfl⟩ ?_ rfl
    (fun k hk => ?_) rfl ?_
  · show (s.clean.updMe _).me = _
    rw [State.updMe_me, State.clean, State.updMe_me, State.updMe_me]
    rfl
  · exact (State.updMe_core_of_ne s.clean _ hk).trans ((State.updMe_core_of_ne s _ hk).trans (State.updMe_core_of_ne s _ hk).symm)
  · rw [State.updMe_me]
    exact ⟨hr.1.1, rfl, rfl⟩
/-- A stalled bundle is issued again as its core's turn comes. -/
theorem stalledBundleCommit_eq {s : State} {k : Nat} {i : Instr} (hi : i.cls ≠ none) (hst : (s.core k).stalled = true)
    (hs : (s.core k).saveDue = false) (hh : (s.core k).handlerDue = false) (hr : Ready i (s.turned k))
    (hf : fetchBundle (s.turned k) = .bundle (s.core k).pc (soleBundle i (semOf i))) :
    exec (.stalledBundleCommit k) s = exec i ((s.turned k).updMe (fun c => { c with pc := (s.core k).pc })) := by
  show execStalledBundleCommit k s = _
  have hrun : (s.core k).run = .task := hr.1.1
  have hc : ((s.turned k).me.stalled && (s.turned k).me.run == .task) = true := by
    rw [State.turned_me, hst, hrun]; rfl
  have ht : execStalledBundleCommit k s = turn (s.turned k) := if_pos hc
  rw [ht, turn_eq_issue (s := s.turned k) hrun hs hh, issue_eq hr.1.2.1, hf, exec_eq_runSole hi]
  rfl
theorem stalledBundleCommit_waitk {s : State} {k n : Nat} {gd : Guard} (hst : (s.core k).stalled = true)
    (hs : (s.core k).saveDue = false) (hh : (s.core k).handlerDue = false) (hr : Ready (.waitk gd n) (s.turned k))
    (hf : fetchBundle (s.turned k) = .bundle (s.core k).pc (soleBundle (.waitk gd n) (semOf (.waitk gd n))))
    (hd : ((s.core k).tok n).st = .done) : Happens (.stalledBundleCommit k) s (fun t =>
      (t.core k).stalled = false ∧ (t.core k).pc = (if goesRound (s.turned k) then (s.core k).csr.lbeg.toNat else
        nextBundle (.waitk gd n) (s.turned k) t) ∧ ((t.core k).tok n).used = true ∧ (t.core k).regs = (s.core k).age.regs) := by
  let v := (s.turned k).updMe (fun c => { c with pc := (s.core k).pc })
  have hv : v.me = s.core k := State.updMe_me _ _
  have hrv : Ready (.waitk gd n) v := by
    simp only [Ready, Runs, hv]
    exact hr
  obtain ⟨t, hx, hc, hregs, -⟩ := waitk_doesTo hrv (by rw [hv]; exact hd)
  have ht : t.core k = t.me := by
    have hcur : t.cur = k := by rw [hc.rest]; rfl
    rw [State.me, hcur]
  refine ⟨t, (stalledBundleCommit_eq (i := .waitk gd n) (Option.some_ne_none _) hst hs hh hr hf).trans hx, ?_⟩
  have hcore := hc.core
  rw [State.updMe_me, hv] at hcore
  beta_reduce
  rw [ht]
  refine ⟨by rw [hcore], ?_, ?_, ?_⟩
  · rw [hcore]
    simp only [goesRound, nextBundle, hv]
    rfl
  · rw [hcore]
    simp [Core.tok, Core.useToks, Core.setTok]
  · rw [hregs, State.updMe_me, hv]
    exact Core.age_regs_of rfl rfl

theorem safeDistanceWatchdog_aborts {s : State} {k a : Nat} {b : Bundle} (hr : (s.core k).run = .task)
    (hf : fetchBundle (s.turned k) = .bundle a b) (hd : 2048 ≤ (s.core k).csr.safedist.toNat)
    (hb : ∀ r ∈ b.slots, r.illegal (s.turned k) = false ∧ (∀ g n x, r.ins ≠ .safe g n x) ∧ ∀ g, r.ins ≠ .done g) :
    exec (.safeDistanceWatchdog k) s = .next ((s.turned k).updCore k (fun c =>
      { c with pc := a, run := .aborting, abort := some ⟨0x14, 1, a, 0⟩, xfer := .none, settle := false, stalled := false })) := by
  have hill : b.slots.any (fun r => r.illegal (s.turned k)) = false := List.any_eq_false.mpr (fun r hm => by simp [(hb r hm).1])
  have hend : b.slots.any (fun r => match r.ins with | .safe _ _ _ => true | .done _ => true | _ => false) = false :=
    List.any_eq_false.mpr (fun r hm => by
      obtain ⟨-, hs, hd⟩ := hb r hm
      split
      next h => exact absurd h (hs _ _ _)
      next h => exact absurd h (hd _)
      · exact Bool.false_ne_true)
  have hw : b.watchdog (s.turned k).me = true := by
    unfold Bundle.watchdog
    have hle : Nat.ble 2048 (s.turned k).me.csr.safedist.toNat = true := Nat.ble_eq.mpr hd
    rw [hle, Bool.true_and]
    exact congrArg (!·) hend
  have hdue : watchdogDue (s.turned k) = some a := by
    unfold watchdogDue
    rw [hf]
    simp only [hw, hill, Bool.not_false, Bool.and_self, if_true]
  have hrun : ((s.turned k).me.run == .task) = true := beq_iff_eq.mpr hr
  show Host.Outcome.next (safeDistance (s.turned k)) = _
  rw [safeDistance, if_pos hrun, hdue]
  rfl

/-- A bundle without slots breaks no item, and is all header. -/
theorem readBundle_empty {s : State} {a rep : Nat} (h : rep < 16) : readBundle s a (emptyWord rep 0 0 0 0) [] = .bundle a ⟨1, rep, []⟩ := by
  have hw : emptyWord rep 0 0 0 0 = Header.word ⟨0, rep, 0, 0, 0, 0, 0⟩ := by
    rw [emptyWord, Nat.mod_eq_of_lt h]
  have hh : headerOf (emptyWord rep 0 0 0 0) = ⟨0, rep, 0, 0, 0, 0, 0⟩ := by
    rw [hw]
    exact headerOf_word (by decide) h (by decide) (by decide) (by decide) (by decide)
  have hi := reissues_of_plain (c := s.me) (h := ⟨0, rep, 0, 0, 0, 0, 0⟩) rfl
  have he : effective s.me ⟨0, rep, 0, 0, 0, 0, 0⟩ [] = [] := effective_of_plain rfl rfl (List.nil_sublist _)
  have hitem : brokenItem s.me ⟨0, rep, 0, 0, 0, 0, 0⟩ [] 0 = 0 := by
    rw [brokenItem_of_read rfl (fun _ => ⟨rfl, rfl, rfl⟩) (.inr (by simp)) he, hi]
    rfl
  rw [readBundle_of_good (raws := []) (stop := 0) hh (by rw [slots_none]; rfl) hitem (by rw [hi]; rfl), he]
  rfl

/-- The sticky records are CSRs, which LCNT is not one of. -/
theorem Bundle.records_eq (b : Bundle) (c : Core) :
    ∃ x0 x1 y, b.records c = { c with csr := { c.csr with stickv0 := x0, stickv1 := x1, stickl := y } } := by
  unfold Bundle.records
  induction b.slots generalizing c with
  | nil => exact ⟨_, _, _, rfl⟩
  | cons r l ih =>
    rw [List.foldl_cons]
    split
    · exact ih c
    · split
      all_goals
        obtain ⟨x0, x1, y, h⟩ := ih _
        exact ⟨_, _, _, h⟩
/-- One issue step over the registers of a bundle whose slots transfer nowhere: what its results, and its LCNT, are. -/
theorem Bundle.stepped_eq (b : Bundle) (c c0 : Core) (hx : c.xfer = .none) :
    ((((b.records c).age.countSafe c0).tick 1).regs = c.age.regs ∧ (((b.records c).age.countSafe c0).tick 1).fly = c.age.fly) ∧
      (((b.records c).age.countSafe c0).tick 1).pc = c.pc ∧ (((b.records c).age.countSafe c0).tick 1).csr.lcnt = c.csr.lcnt ∧
      (((b.records c).age.countSafe c0).tick 1).xfer = .none := by
  obtain ⟨x0, x1, y, h⟩ := b.records_eq c
  have hr : (b.records c).age = { b.records c with regs := c.age.regs, fly := c.age.fly } := by
    rw [Core.age_eq, Core.age_regs_of (c := b.records c) (d := c) (by rw [h]) (by rw [h]),
      Core.age_fly_of (c := b.records c) (d := c) (by rw [h])]
  rw [hr, h]
  simp only [Core.countSafe, hx, Core.tick]
  split <;> exact ⟨⟨rfl, rfl⟩, rfl, rfl, rfl⟩
theorem Core.resolve_of_no_transfer {c c0 : Core} (b : Bundle) (next : Nat) (hx : c.xfer = .none) :
    (c.resolve c0 b next).regs = c.regs ∧ (c.resolve c0 b next).fly = c.fly ∧
      (c0.iter < b.rep → (c.resolve c0 b next).iter = c0.iter + 1 ∧ (c.resolve c0 b next).pc = c.pc ∧ (c.resolve c0 b next).csr.lcnt = c.csr.lcnt) ∧
      (b.rep ≤ c0.iter → (c.resolve c0 b next).iter = 0 ∧
        (c.resolve c0 b next).pc = if loopEnd c0 && c0.csr.lcnt != 1 then c0.csr.lbeg.toNat else next) := by
  simp only [Core.resolve, hx]
  by_cases hi : c0.iter < b.rep
  · rw [if_pos (Nat.blt_eq.mpr hi)]
    exact ⟨rfl, rfl, fun _ => ⟨rfl, rfl, rfl⟩, fun h => absurd hi (by omega)⟩
  · rw [if_neg (by rwa [Nat.blt_eq])]
    by_cases hl : loopEnd c0 = true <;> by_cases h1 : c0.csr.lcnt = 1#32
    all_goals simp [Core.fallThrough, hl, h1, Core.goTo, hi]
/-- What a committed iteration without a transfer leaves of the core whose effects left c. -/
theorem Bundle.retire_of_no_transfer {b : Bundle} {s0 v : State} (hx : v.me.xfer = .none) :
    let t := b.retire s0 v
    let c0 := s0.me
    t.me.regs = v.me.age.regs ∧ t.me.fly = v.me.age.fly ∧
      (c0.iter < b.rep → t.me.iter = c0.iter + 1 ∧ t.me.pc = v.me.pc ∧ t.me.csr.lcnt = v.me.csr.lcnt) ∧
      (b.rep ≤ c0.iter → t.me.iter = 0 ∧ t.me.pc = if loopEnd c0 && c0.csr.lcnt != 1 then c0.csr.lbeg.toNat else
        v.skipPads c0.csr.partid.toNat padLimit ((c0.pc + 4 * b.len) % 2 ^ 64)) := by
  intro t c0
  obtain ⟨⟨hr, hf⟩, hp, hl, hn⟩ := b.stepped_eq v.me c0 hx
  have hme : t.me = _ := State.updMe_me v _
  rw [hme]
  have h := Core.resolve_of_no_transfer (c0 := c0) b (v.skipPads c0.csr.partid.toNat padLimit ((c0.pc + 4 * b.len) % 2 ^ 64)) hn
  rw [hr, hf, hp, hl] at h
  exact h

/-- The end of a bundle's committed iteration, which began at s0 and whose slots left v: it retires and counts. -/
def Bundle.ended (b : Bundle) (s0 v : State) : State := ((b.retire s0 v).countCommit s0).countCore s0.cur [(1, 1)]
theorem Bundle.ended_alike (b : Bundle) (s0 v : State) : v.Alike (b.ended s0 v) :=
  ((State.alike_updMe v _).trans (State.alike_commit _ _)).trans (State.alike_count _ _ _)
theorem Bundle.ended_core (b : Bundle) (s0 v : State) (k : Nat) : (b.ended s0 v).core k = (b.retire s0 v).core k := by
  unfold Bundle.ended
  rw [State.countCore_eq, State.countCommit_eq]
  rfl
theorem Bundle.ended_me (b : Bundle) (s0 v : State) : (b.ended s0 v).me = (b.retire s0 v).me := by
  have hc : (b.ended s0 v).cur = v.cur := by rw [b.ended_alike s0 v]
  rw [State.me, hc, b.ended_core]
  rfl
theorem Bundle.ended_core_of_ne (b : Bundle) (s0 v : State) {k : Nat} (h : k ≠ v.cur) : (b.ended s0 v).core k = v.core k := by
  rw [b.ended_core]
  exact State.updMe_core_of_ne v _ h
/-- A bundle whose slots change the core alone. -/
theorem Bundle.ended_coreOnly {b : Bundle} {s s0 v : State} (h : CoreOnly s v) : CoreOnly s (b.ended s0 v) := by
  obtain ⟨ha, ho⟩ := h
  have hc : v.cur = s.cur := by rw [ha]
  exact ⟨State.Alike.trans ha (b.ended_alike s0 v), fun k hk => (b.ended_core_of_ne s0 v (by rw [hc]; exact hk)).trans (ho k hk)⟩
theorem CoreOnly.updMe {s t : State} (h : CoreOnly s t) (f : Core → Core) : CoreOnly s (t.updMe f) := by
  obtain ⟨ha, ho⟩ := h
  have hc : t.cur = s.cur := by rw [ha]
  exact ⟨State.Alike.trans ha (t.alike_updMe f), fun k hk => (t.updMe_core_of_ne f (by rw [hc]; exact hk)).trans (ho k hk)⟩
theorem CoreOnly.refl (s : State) : CoreOnly s s := ⟨rfl, fun _ _ => rfl⟩

/-- An iteration of a bundle without slots. -/
theorem run_empty {s : State} {rep len : Nat} (hr : s.me.run = .task) (hl : s.me.settle = false ∨ s.me.loads = [])
    (hd : s.me.csr.safedist.toNat < 2048) :
    Bundle.run ⟨len, rep, []⟩ s = .next (Bundle.ended ⟨len, rep, []⟩ s s.clean) := by
  have hst : (s.me.settle && !s.me.loads.isEmpty) = false := by
    rcases hl with h | h <;> simp [h]
  have hw : Bundle.watchdog ⟨len, rep, []⟩ s.me = false := by
    have hle : Nat.ble 2048 s.me.csr.safedist.toNat = false := by
      rw [← Bool.not_eq_true, Nat.ble_eq]; omega
    unfold Bundle.watchdog
    rw [hle, Bool.false_and]
  simp only [Bundle.run, hr, hst, hw, bne_self_eq_false, List.any_nil, Bool.false_eq_true, if_false]
  simp only [Bundle.iterate, List.map_nil, List.findSome?_nil, List.flatMap_nil, lowest, ite_self, List.any_nil, Bool.false_eq_true, if_false]
  rfl
theorem emptyBundle_passes {s : State} {rep : Nat} (h : rep < 16) (hr : s.me.run = .task) (hl : s.me.settle = false ∨ s.me.loads = [])
    (hd : s.me.csr.safedist.toNat < 2048) :
    Happens (.emptyBundle rep 0 0 0 0) s (fun t => CoreOnly s t ∧ t.me.regs = s.me.age.regs ∧ t.me.fly = s.me.age.fly ∧
      (s.me.iter < rep → t.me.iter = s.me.iter + 1 ∧ t.me.pc = s.me.pc ∧ t.me.csr.lcnt = s.me.csr.lcnt) ∧
      (rep ≤ s.me.iter → t.me.iter = 0 ∧ t.me.pc = (if goesRound s then s.me.csr.lbeg.toNat else
        t.skipPads s.me.csr.partid.toNat padLimit ((s.me.pc + 4) % 2 ^ 64)))) := by
  let v := s.updMe (fun c => { c with pc := s.me.pc })
  have hv : v.me = s.me := State.updMe_me _ _
  have hx : exec (.emptyBundle rep 0 0 0 0) s = .next (Bundle.ended ⟨1, rep, []⟩ v v.clean) := by
    rw [← run_empty (s := v) (by rw [hv]; exact hr) (by rw [hv]; exact hl) (by rw [hv]; exact hd)]
    show execEmptyBundle rep 0 0 0 0 s = _
    rw [execEmptyBundle, hr, readBundle_empty h]
    rfl
  have hret := Bundle.retire_of_no_transfer (b := ⟨1, rep, []⟩) (s0 := v) (v := v.clean) (by rw [State.clean, State.updMe_me])
  have hcv : v.clean.me = { s.me with settle := false, stalled := false, xfer := .none } := by
    rw [State.clean, State.updMe_me, hv]
  rw [hcv, hv] at hret
  obtain ⟨hregs, hfly, hrep, hlast⟩ := hret
  refine ⟨_, hx, Bundle.ended_coreOnly (((CoreOnly.refl s).updMe _).updMe _), ?_⟩
  rw [Bundle.ended_me]
  refine ⟨hregs.trans (Core.age_regs_of rfl rfl), hfly.trans (Core.age_fly_of rfl), hrep, fun h => ⟨(hlast h).1, (hlast h).2.trans ?_⟩⟩
  have hp := (Bundle.ended_alike ⟨1, rep, []⟩ v v.clean).skipPads s.me.csr.partid.toNat padLimit ((s.me.pc + 4) % 2 ^ 64)
  rw [hp]
  rfl

/-! ## The end of a task (R23, R285) -/

/-- The successors' decrements may leave the device (R274): no bucket that one of them draws on is overdrawn. -/
def State.succOpen (s : State) (k : Nat) : Prop :=
  let r := s.trec (s.core k).task.recPA
  ∀ n b, n < r.succn → s.succBucket k (s.core k).csr.partid.toNat ((r.succ + 8 * n) % 2 ^ 64) = some b →
    0 ≤ s.bucket (s.core k).csr.partid.toNat b
theorem mem_upFrom {n m : Nat} : n ∈ upFrom 0 m ↔ n < m := by
  rw [List.mem_iff_getElem?]
  constructor
  · rintro ⟨j, hj⟩
    rw [upFrom_get] at hj
    split at hj
    · cases hj; omega
    · cases hj
  · exact fun h => ⟨n, by simp [upFrom_get, h]⟩
theorem State.succOpen_iff (s : State) (k : Nat) : s.succOpen k ↔
    (((upFrom 0 (s.trec (s.core k).task.recPA).succn).map (fun n => ((s.trec (s.core k).task.recPA).succ + 8 * n) % 2 ^ 64)).any (fun e =>
      match s.succBucket k (s.core k).csr.partid.toNat e with
        | some b => s.bucket (s.core k).csr.partid.toNat b < 0
        | none => false)) = false := by
  rw [List.any_eq_false]
  constructor
  · intro h e he
    obtain ⟨n, hn, rfl⟩ := List.mem_map.mp he
    split
    next b hb =>
      have := h n b (mem_upFrom.mp hn) hb
      simpa using this
    · exact Bool.false_ne_true
  · intro h n b hn hb
    have := h _ (List.mem_map.mpr ⟨n, mem_upFrom.mpr hn, rfl⟩)
    rw [hb] at this
    simpa using this
theorem taskEnd_waits {s : State} {k : Nat} (h : s.storesDone k = false ∨ ¬ s.succOpen k) : taskEnd k s = s := by
  unfold taskEnd
  refine if_pos ?_
  rcases h with h | h
  · rw [h]; simp
  · rw [State.succOpen_iff, Bool.not_eq_false] at h
    exact Bool.or_eq_true_iff.mpr (.inr h)

theorem taskEnd_guard {s : State} {k : Nat} (hr : (s.core k).run = .ending) (hd : s.storesDone k = true) (ho : s.succOpen k) :
    ¬ ((s.core k).run != .ending || !s.storesDone k ||
      ((upFrom 0 (s.trec (s.core k).task.recPA).succn).map (fun n => ((s.trec (s.core k).task.recPA).succ + 8 * n) % 2 ^ 64)).any (fun e =>
        match s.succBucket k (s.core k).csr.partid.toNat e with
          | some b => s.bucket (s.core k).csr.partid.toNat b < 0
          | none => false)) = true := by
  rw [(s.succOpen_iff k).mp ho, hr, hd]
  decide
/-- The launch of a task that has ended: it ends with its last task, and a queue that is being saved may be complete. -/
def State.launchLeft (s : State) (l : Nat) : State :=
  match s.launch l with
  | some x => if x.live == 0 && !x.dropped then (s.endLaunch l 0).queueSaved x.key else s.queueSaved x.key
  | none => s
@[simp] theorem State.launchLeft_cores (s : State) (l : Nat) : (s.launchLeft l).cores = s.cores := by
  unfold State.launchLeft
  split
  · split <;> simp
  · rfl
theorem State.launchLeft_of_live {s : State} {l : Nat} {x : Launch} (hx : s.launch l = some x) (hl : x.live ≠ 0)
    (hq : (s.qcb x.key).toSave = false) : s.launchLeft l = s := by
  unfold State.launchLeft
  rw [hx]
  simp [hl, State.queueSaved_of_not_toSave hq]
theorem State.launchLeft_of_last {s : State} {l : Nat} {x : Launch} (hx : s.launch l = some x) (hl : x.live = 0) (hd : x.dropped = false) :
    (s.launchLeft l).launch l = none := by
  unfold State.launchLeft
  rw [hx]
  simp only [hl, hd, beq_self_eq_true, Bool.not_false, Bool.and_self, if_true]
  rw [State.launch_of_launches (State.queueSaved_launches ..)]
  exact State.endLaunch_launch s hx 0

/-- The record of the task is DONE, and its digest is in its launch's witness. -/
def State.recorded (s : State) (k : Nat) : State :=
  let c := s.core k
  let s := (s.flushL0 k).setRecState c.task.recPA recDone
  if bitOf c.csr.detmode.toNat 1 then s.updLaunch c.task.launch (fun x => { x with w := x.w + BitVec.ofNat 64 (taskDigest c) }) else s
/-- What the end of a task does before its core lets go of it: the record, the successors, the queue's counters. -/
def State.beforeIdle (s : State) (k : Nat) : State :=
  let c := s.core k
  let r := s.trec c.task.recPA
  (((upFrom 0 r.succn).map (fun n => (r.succ + 8 * n) % 2 ^ 64)).foldl (fun s e => s.successor k c.csr.partid.toNat e) (s.recorded k)).updQueueOf
    c.task.launch (fun q =>
      { q with rem := q.rem - r.cost, runN := q.runN - 1, cal := if r.cost == 0 then q.cal else calNext q.cal c.tCyc r.cost })
theorem taskEnd_eq {s : State} {k : Nat} (hr : (s.core k).run = .ending) (hd : s.storesDone k = true) (ho : s.succOpen k) :
    taskEnd k s = ((((s.beforeIdle k).dropPins k).toIdle k).updLaunch (s.core k).task.launch (fun x => { x with live := x.live - 1 })).launchLeft
      (s.core k).task.launch := by
  have hg := taskEnd_guard hr hd ho
  unfold taskEnd
  extract_lets c part r entries l s1 s2 s3 s4 s5
  have h4 : s4 = s.beforeIdle k := rfl
  refine (if_neg hg).trans ?_
  rw [← h4]
  change _ = s5.launchLeft l
  clear_value s5
  unfold State.launchLeft
  rfl

theorem State.toIdle_core_self (s : State) (k : Nat) : ((s.toIdle k).core k).run = .idle ∧ ((s.toIdle k).core k).preempt = false := by
  rw [State.toIdle, State.updCore_core_self]
  exact ⟨rfl, rfl⟩
/-- The core goes back to its RDQ as idle, whatever becomes of the launch. -/
theorem taskEnd_idle {s : State} {k : Nat} (hr : (s.core k).run = .ending) (hd : s.storesDone k = true) (ho : s.succOpen k) :
    ((taskEnd k s).core k).run = .idle ∧ ((taskEnd k s).core k).preempt = false := by
  have hc : (taskEnd k s).cores = (((s.beforeIdle k).dropPins k).toIdle k).cores := by
    rw [taskEnd_eq hr hd ho, State.launchLeft_cores, State.updLaunch_cores]
  have h := State.toIdle_core_self ((s.beforeIdle k).dropPins k) k
  rw [State.core, ← hc] at h
  exact h

/-! A task whose core has no lines and no pins, and which has no successors. -/

theorem State.flushL0_of_no_lines {s : State} {k : Nat} (h : (s.core k).l0 = []) : s.flushL0 k = s := by
  rw [State.flushL0, State.eachLine, h]; rfl
theorem State.dropPins_of_no_pins {s : State} {k : Nat} (h : (s.core k).pins = []) :
    (s.dropPins k).mem = s.mem ∧ (s.dropPins k).launches = s.launches ∧ (s.dropPins k).qcbs = s.qcbs := by
  unfold State.dropPins
  extract_lets cl s1 s2
  have hp : (s2.core k).pins = [] := by
    have h2 : s2.cores = s1.cores := State.updCluster_cores ..
    rw [State.core, h2, ← State.core, State.updCore_core_self]
    exact h
  rw [hp]
  exact ⟨rfl, rfl, rfl⟩
theorem State.setRecState_byte (s : State) (pa st : Nat) : (s.setRecState pa st).byte (pa + 7) = BitVec.ofNat 8 (st % 256) := by
  have h := mget_msetBytes_inside (m := s.mem) (k := pa + 7) (i := 0) (l := toBytes 1 st) (by rw [toBytes_length]; decide)
  exact h
/-- The witness adds to the launch, and changes neither its queue nor its live count. -/
theorem State.recorded_of_no_lines {s : State} {k : Nat} {x : Launch} (hl : (s.core k).l0 = []) (hx : s.launch (s.core k).task.launch = some x) :
    (s.recorded k).byte ((s.core k).task.recPA + 7) = 3 ∧ (s.recorded k).cores = s.cores ∧ (s.recorded k).qcbs = s.qcbs ∧
      ∃ w, (s.recorded k).launch (s.core k).task.launch = some { x with w := w } := by
  have hx' : (s.setRecState (s.core k).task.recPA recDone).launch (s.core k).task.launch = some x := hx
  unfold State.recorded
  rw [State.flushL0_of_no_lines hl]
  dsimp only
  split
  · refine ⟨s.setRecState_byte _ recDone, rfl, rfl, x.w + BitVec.ofNat 64 (taskDigest (s.core k)), ?_⟩
    rw [State.updLaunch_launch, hx']
    rfl
  · exact ⟨s.setRecState_byte _ recDone, rfl, rfl, x.w, hx'⟩
/-- A core whose last line and pin are gone: its record is DONE, and its launch has one live task less. -/
theorem taskEnd_of_last_steps {s : State} {k : Nat} {x : Launch} (hr : (s.core k).run = .ending) (hd : s.storesDone k = true)
    (hl : (s.core k).l0 = []) (hp : (s.core k).pins = []) (hn : (s.trec (s.core k).task.recPA).succn = 0)
    (hx : s.launch (s.core k).task.launch = some x) (hdr : x.dropped = false) (hq : (s.qcb x.key).toSave = false) :
    (1 < x.live → (taskEnd k s).byte ((s.core k).task.recPA + 7) = 3 ∧
      ((taskEnd k s).launch (s.core k).task.launch).map (fun l => l.live) = some (x.live - 1)) ∧
    (x.live = 1 → (taskEnd k s).launch (s.core k).task.launch = none) := by
  rw [taskEnd_eq hr hd (fun n b hlt => absurd hlt (by rw [hn]; omega))]
  obtain ⟨hbyte, hcores, hqcbs, w, hw⟩ := State.recorded_of_no_lines hl hx
  obtain ⟨f, hbefore, hf⟩ : ∃ f : Qcb → Qcb, s.beforeIdle k = (s.recorded k).updQcb x.key f ∧ ∀ q, (f q).toSave = q.toSave := by
    unfold State.beforeIdle
    dsimp only
    rw [hn]
    exact ⟨_, State.updQueueOf_of_launch hw _, fun _ => rfl⟩
  generalize s.beforeIdle k = u at hbefore
  have hpins : (u.core k).pins = [] := by
    rw [hbefore, State.core, State.updQcb_cores, hcores]
    exact hp
  obtain ⟨hm, hls, hqs⟩ := State.dropPins_of_no_pins hpins
  let v := (((u.dropPins k).toIdle k).updLaunch (s.core k).task.launch (fun x => { x with live := x.live - 1 }))
  have hv : v.launch (s.core k).task.launch = some { x with w := w, live := x.live - 1 } := by
    have hu : ((u.dropPins k).toIdle k).launch (s.core k).task.launch = some { x with w := w } :=
      (State.launch_of_launches (s := u) hls _).trans (by rw [hbefore]; exact hw)
    show (State.updLaunch _ _ _).launch _ = _
    rw [State.updLaunch_launch, hu]
    rfl
  have hvq : (v.qcb x.key).toSave = false := by
    have : v.qcb x.key = u.qcb x.key := congrArg (fun m => mget m x.key Qcb.reset) hqs
    rw [this, hbefore, State.updQcb_qcb_self, hf, State.qcb, hqcbs]
    exact hq
  refine ⟨fun h => ?_, fun h => State.launchLeft_of_last hv (by simp [h]) hdr⟩
  rw [State.launchLeft_of_live hv (by dsimp only; omega) hvq]
  refine ⟨?_, by rw [hv]; rfl⟩
  show mget (u.dropPins k).mem _ _ = _
  rw [hm, hbefore]
  exact hbyte

theorem Core.hostReady_eq_false {c : Core} (h : ∀ v, c.hostAt ≠ .done v) : c.hostReady = false := by
  unfold Core.hostReady
  split
  next v hv => exact absurd hv (h v)
  · rfl

theorem handlerWatchdog_aborts {s : State} {k : Nat} (hr : (s.core k).run = .task) (hm : (s.core k).hm = true) (hc : 8192 ≤ (s.core k).hCyc)
    (hh : ∀ v, (s.core k).hostAt ≠ .done v) : exec (.handlerWatchdog k) s = .next (s.updCore k (fun c =>
      { c with run := .aborting, abort := some ⟨0x14, 2, c.pc, 0⟩, xfer := .none, settle := false, stalled := false })) := by
  have hdue : ((s.core k).run == .task && (s.core k).handlerDue) = true := by
    rw [Core.handlerDue, hr, hm, Nat.ble_eq.mpr hc, Core.hostReady_eq_false hh]
    rfl
  exact congrArg Host.Outcome.next (if_pos hdue)
theorem Core.order_of_running {c : Core} (h : c.run = .task ∨ c.run = .doneWait) :
    c.order = { c with preempt := true, preCyc := if c.preempt then c.preCyc else 0 } := by
  unfold Core.order
  split
  · rfl
  · rfl
  · rfl
  next ht hd _ =>
    rcases h with h | h
    · exact absurd h ht
    · exact absurd h hd
theorem preemptionOrder_marks {s : State} {k : Nat} (h : (s.core k).run = .task ∨ (s.core k).run = .doneWait) :
    exec (.preemptionOrder k) s = .next (s.updCore k (fun c => { c with preempt := true, preCyc := if c.preempt then c.preCyc else 0 })) := by
  show Host.Outcome.next (s.setCore k (s.core k).order) = _
  rw [Core.order_of_running h]
  rfl
theorem forcedSave_begins {s : State} {k : Nat} (hp : (s.core k).preempt = true) (hc : 3600 ≤ (s.core k).preCyc) (hm : (s.core k).hm = false)
    (hh : ∀ v, (s.core k).hostAt ≠ .done v) (hv : (s.core k).via ≠ .skip) (hr : (s.core k).run = .task ∨ (s.core k).run = .doneWait) :
    exec (.forcedSave k) s = .next (s.updCore k (fun c => { c.settleFly with
      run := .saving true (c.run == .doneWait) false, stalled := false, hostAt := .none, tcWait := none, tcFlt := none })) := by
  have hdue : (s.core k).saveDue = true := by
    rw [Core.saveDue, hp, Nat.ble_eq.mpr hc, hm, Core.hostReady_eq_false hh, Bool.and_eq_true]
    exact ⟨rfl, bne_iff_ne.mpr hv⟩
  have hb : ∀ don, ((s.core k).run == .doneWait) = don →
      s.updCore k (fun c => c.beginSave true don) = s.updCore k (fun c => { c.settleFly with
        run := .saving true (c.run == .doneWait) false, stalled := false, hostAt := .none, tcWait := none, tcFlt := none }) := by
    rintro don rfl
    rfl
  show Host.Outcome.next (forcedSave k s) = _
  rcases hr with hr | hr
  · rw [forcedSave, hdue, hr, ← hb false (by rw [hr]; rfl)]
    rfl
  · rw [forcedSave, hdue, hr, ← hb true (by rw [hr]; rfl)]
    rfl

/-- Settles O44: each clause by the lemma about its event. -/
theorem coreEventsAndTaskEnds : Obligations.CoreEventsAndTaskEnds := by
  refine ⟨fun s k => ?_, fun s k x => ?_⟩
  · intro c u
    refine ⟨fun gd n hst hs hh hr hf hd => stalledBundleCommit_waitk hst hs hh hr hf hd, fun a b hr hf hd hb => safeDistanceWatchdog_aborts hr hf hd hb,
      fun hr hm hc hh => ?_, fun hr => ?_, fun hp hc hm hh hv hr => ?_, fun rep => emptyBundle_passes⟩
    · exact handlerWatchdog_aborts hr hm hc hh
    · exact preemptionOrder_marks hr
    · exact forcedSave_begins hp hc hm hh hv hr
  · intro c r open_ hr
    have ho : s.succOpen k ↔ open_ := Iff.rfl
    exact ⟨fun h => congrArg Host.Outcome.next (taskEnd_waits (by rwa [ho])), fun hd h => ⟨_, rfl, taskEnd_idle hr hd (ho.mpr h)⟩,
      fun hd hl hp hn hx hdr hq _ _ => ⟨_, rfl, taskEnd_of_last_steps hr hd hl hp hn hx hdr hq⟩⟩

end Sys2Proof.Machine
end

section
/-! SUPPORT. A save whose auxiliary frame has more to hold than its 4 KiB: the state that refutes O8 (R93, R306 to R308). -/

namespace Sys2Proof.Machine

/-! ## Bytes of a string read from memory -/

/-- Byte i of the n bytes read at pa is the byte of memory at pa + i. -/
theorem mgetBytes_getElem? {m : SMap Byte} {k n i : Nat} (h : i < n) : (mgetBytes m k n)[i]? = some (mget m (k + i) 0) := by
  induction n generalizing k i with
  | zero => omega
  | succ n ih =>
    cases i with
    | zero => rfl
    | succ i => rw [mgetBytes, List.getElem?_cons_succ, ih (by omega), show k + 1 + i = k + (i + 1) by omega]

theorem State.bytes_getElem? {s : State} {pa n i : Nat} (h : i < n) : (s.bytes pa n)[i]? = some (s.byte (pa + i)) := mgetBytes_getElem? h

/-! ## A liveness set with more pinned ranges than the auxiliary frame has room for -/

/-- A liveness set that names n ranges and no register. -/
def pinsOnly (n : Nat) : LiveSet := ⟨0, 0, 0, 0, 0, 0, 0, 0, 0, 0, List.replicate n (0, 0, 0)⟩

theorem maskBits_zero (n : Nat) : maskBits 0 n = [] := by simp [maskBits, bitOf]

/-- The n ranges of the set take 16 zero bytes each, and nothing else is in the frame. -/
theorem saveData_pinsOnly {c : Core} (n base : Nat) (h : c.withdrawn = []) :
    saveData c (pinsOnly (n + 1)) base = [List.replicate (16 * (n + 1)) 0] := by
  have hp : (pinsOnly (n + 1)).pins.flatMap (fun p => toBytes 4 p.1 ++ toBytes 8 p.2.1 ++ toBytes 4 p.2.2) = List.replicate (16 * (n + 1)) 0 := by
    rw [show pinsOnly (n + 1) = ⟨0, 0, 0, 0, 0, 0, 0, 0, 0, 0, List.replicate (n + 1) (0, 0, 0)⟩ from rfl, List.flatMap_replicate,
      show toBytes 4 0 ++ toBytes 8 0 ++ toBytes 4 0 = List.replicate 16 0 by decide, List.flatten_replicate_replicate, Nat.mul_comm]
  have ha : (pinsOnly (n + 1)).aux c = true := rfl
  have hv : ((pinsOnly (n + 1)).v == 0) = true := rfl
  have hm : maskBits (pinsOnly (n + 1)).a 8 = [] ∧ maskBits (pinsOnly (n + 1)).z 16 = [] ∧ maskBits (pinsOnly (n + 1)).w 4 = [] :=
    ⟨maskBits_zero 8, maskBits_zero 16, maskBits_zero 4⟩
  simp only [saveData, ha, hv, hm, hp, h, if_true, Bool.not_true, Bool.false_eq_true, if_false, List.flatMap_nil, List.nil_append, List.append_nil]

theorem pc_prefix_saveHeader (c : Core) (l : LiveSet) (full don : Bool) (det : Nat) (frames : List Nat) :
    toBytes 8 c.pc <+: saveHeader c l full don det frames := by
  unfold saveHeader
  simp only [List.append_assoc]
  exact List.prefix_append _ _
/-- The first byte of a header is the program counter's lowest. -/
theorem saveHeader_head? (c : Core) (l : LiveSet) (full don : Bool) (det : Nat) (frames : List Nat) :
    (saveHeader c l full don det frames)[0]? = some (BitVec.ofNat 8 (c.pc % 256)) := by
  obtain ⟨r, hr⟩ := pc_prefix_saveHeader c l full don det frames
  rw [← hr]
  rfl

/-! ## The state -/

/-- Core 0 saves its task, with nothing left to wait for; the liveness set at SAFEIX names 300 pinned ranges, which take 4,800 bytes; and a vacate of
the task's queue holds two adjacent frames for it, the header's the upper one. -/
def spillingSave : State :=
  { State.reset with
    cores := [(0, { Core.reset with run := .saving false false true, pc := 1, csr := { Csr.reset with safeix := 0 } })]
    codes := [(0, ⟨0, 0, 0, false, [], [pinsOnly 300], [], [], []⟩)]
    launches := [(0, ⟨0, 0, 1, 0, 0, 1, false, false, 0, 0, false, []⟩)]
    vacates := [⟨0, 0, 0, 0, 0, false, none, [(qkey 1 0, 0, 0)], [0x81000, 0x80000], [], 0, false, 0⟩] }

theorem spillingSave_liveSet : spillingSave.liveSet spillingSave.cur false = pinsOnly 300 := rfl

theorem spillingSave_saveFrames :
    spillingSave.saveFrames spillingSave.cur ((pinsOnly 300).frames spillingSave.me) =
      some ({ spillingSave with vacates := modNth spillingSave.vacates 0 (fun v => { v with frames := v.frames.drop 2 }) }, [0x81000, 0x80000]) := rfl

/-- The header's first byte and byte 4,096 of the auxiliary data have one place in memory, and they differ. -/
theorem no_memory_holds_spilled_save {t : State} {det : Nat}
    (hh : t.bytes 0x81000 4096 = saveHeader spillingSave.me (pinsOnly 300) false false det [0x80000])
    (hd : t.bytes 0x80000 4800 = List.replicate 4800 0) : False := by
  have h1 : t.byte 0x81000 = 1 := by
    have h := State.bytes_getElem? (s := t) (pa := 0x81000) (show 0 < 4096 by omega)
    rw [hh, saveHeader_head?] at h
    exact (Option.some.inj h).symm
  have h0 : t.byte 0x81000 = 0 := by
    have h := State.bytes_getElem? (s := t) (pa := 0x80000) (show 4096 < 4800 by omega)
    rw [hd, List.getElem?_replicate, if_pos (by omega)] at h
    exact (Option.some.inj h).symm
  exact absurd (h1.symm.trans h0) (by decide)

/-- Refutes O8: its clause on saves asks that every data frame hold what belongs to it and the header frame the header, and lets the liveness set
name any number of pinned ranges. With 300 of them (`spillingSave`) the auxiliary data run into the next frame, which is the header's. R93 allows 96
ranges, which fit; the clause has no such premise. -/
theorem not_trapEntry : ¬ Obligations.TrapEntry := by
  rintro ⟨-, -, -, hsave, -⟩
  obtain ⟨t, e, -, -, -, -, hhdr, hdata, -⟩ := hsave spillingSave _ false false true _ 0x81000 [0x80000] rfl (by decide) rfl (by decide) (by decide) rfl
    (by decide) List.Pairwise.nil spillingSave_saveFrames
  have hb := hdata (by simp) 0 0x80000 (List.replicate 4800 0) rfl (by rw [spillingSave_liveSet, saveData_pinsOnly 299 _ rfl]; rfl)
  rw [List.length_replicate] at hb
  exact no_memory_holds_spilled_save hhdr hb

end Sys2Proof.Machine
end

section
/-! SUPPORT. The register files after a result has landed (R97, R98, R100): what each read sees, whether or not the result is masked. -/

namespace Sys2Proof.Machine

/-! ## Banks, and registers without a value -/

theorem mget_mput {α : Type} (m : SMap α) (k j : Nat) (v d : α) : mget (mput m k v) j d = if k = j then v else mget m j d := by
  split
  next h => rw [h, mget_mput_self]
  next h => exact mget_mput_of_ne (Ne.symm h)

@[simp] theorem Core.write_hm (c : Core) (d : Dest) (v : Nat) (m : Option Nat) : (c.write d v m).hm = c.hm := by rw [Core.hm, Core.write_csr]; rfl
@[simp] theorem Core.write_bank (c : Core) (d : Dest) (v : Nat) (m : Option Nat) (n : Nat) : (c.write d v m).bank n = c.bank n := by
  simp only [Core.bank, Core.write_hm]
@[simp] theorem Core.write_pbank (c : Core) (d : Dest) (v : Nat) (m : Option Nat) (n : Nat) : (c.write d v m).pbank n = c.pbank n := by
  simp only [Core.pbank, Core.write_hm]
/-- The core x is c but for the register file of d. -/
def Dest.Within (d : Dest) (c x : Core) : Prop :=
  match d with
  | .g _ _ => x = { c with regs := { c.regs with g := x.regs.g, gh := x.regs.gh } }
  | .p _ _ => x = { c with regs := { c.regs with p := x.regs.p, ph := x.regs.ph } }
  | .v _ => x = { c with regs := { c.regs with v := x.regs.v } }
  | .k _ => x = { c with regs := { c.regs with k := x.regs.k } }
  | .q _ => x = { c with regs := { c.regs with q := x.regs.q } }
  | .e _ => x = { c with regs := { c.regs with e := x.regs.e } }
  | .j _ => x = { c with regs := { c.regs with j := x.regs.j } }
/-- A result changes nothing outside the file of its register (R98). -/
theorem Core.write_within (c : Core) (d : Dest) (v : Nat) (m : Option Nat) : d.Within c (c.write d v m) := by
  cases d <;> simp only [Core.write] <;> repeat' split
  all_goals rfl
/-- What an unlisted register holds is not for a result to change. -/
@[simp] theorem Core.write_dflt (c : Core) (d : Dest) (v : Nat) (m : Option Nat) (w off n : Nat) :
    (c.write d v m).regs.dflt w off n = c.regs.dflt w off n := by
  have h := c.write_within d v m
  cases d <;> exact (congrArg (fun x : Core => x.regs.dflt w off n) h :)

theorem Core.bank_iff (c : Core) (n : Nat) : c.bank n = true ↔ c.hm = true ∧ 56 ≤ n := by simp [Core.bank]
theorem Core.pbank_iff (c : Core) (n : Nat) : c.pbank n = true ↔ c.hm = true ∧ 6 ≤ n := by simp [Core.pbank]

/-! ## Reads -/

/-- A result that lands is read from its register, and from no other. -/
theorem Core.rgIn_write (c : Core) (d : Dest) (v : Nat) (m : Option Nat) (n : Nat) (b : Bool) :
    (c.write d v m).rgIn n b = if d = .g n b ∧ n ≠ 0 then BitVec.ofNat 64 v else c.rgIn n b := by
  by_cases hn : n = 0
  · simp [Core.rgIn, hn]
  have h := c.write_within d v m
  cases d with
  | g i hb =>
    by_cases hi : i = 0
    · simp [Core.write, hi, Ne.symm hn]
    · cases hb <;> cases b <;> simp [Core.write, Core.rgIn, hi, hn, mget_mput, Regs.dflt]
  | _ => rw [if_neg (by simp)]; exact (congrArg (Core.rgIn · n b) h :)
theorem Core.rg_write (c : Core) (d : Dest) (v : Nat) (m : Option Nat) (n : Nat) :
    (c.write d v m).rg n = if d = c.dg n ∧ n ≠ 0 then BitVec.ofNat 64 v else c.rg n := by
  rw [Core.rg, Core.write_bank]
  exact c.rgIn_write d v m n (c.bank n)

/-- p[n] of the bank b, as rgIn has it for g[n]. -/
def Core.rpIn (c : Core) (n : Nat) (b : Bool) : Bool :=
  if n == 0 then true else if b then mget c.regs.ph n false else mget c.regs.p n false
theorem Core.rp_eq_rpIn (c : Core) (n : Nat) : c.rp n = c.rpIn n (c.pbank n) := rfl
theorem Core.rpIn_write (c : Core) (d : Dest) (v : Nat) (m : Option Nat) (n : Nat) (b : Bool) :
    (c.write d v m).rpIn n b = if d = .p n b ∧ n ≠ 0 then decide (v % 2 = 1) else c.rpIn n b := by
  by_cases hn : n = 0
  · simp [Core.rpIn, hn]
  have h := c.write_within d v m
  cases d with
  | p i hb =>
    by_cases hi : i = 0
    · simp [Core.write, hi, Ne.symm hn]
    · cases hb <;> cases b <;> simp [Core.write, Core.rpIn, hi, hn, mget_mput, beq_eq_decide]
  | _ => rw [if_neg (by simp)]; exact (congrArg (Core.rpIn · n b) h :)
theorem Core.rp_write (c : Core) (d : Dest) (v : Nat) (m : Option Nat) (n : Nat) :
    (c.write d v m).rp n = if d = c.dp n ∧ n ≠ 0 then decide (v % 2 = 1) else c.rp n := by
  rw [Core.rp_eq_rpIn, Core.write_pbank]
  exact c.rpIn_write d v m n (c.pbank n)
theorem Core.rk_write (c : Core) (d : Dest) (v : Nat) (m : Option Nat) (n : Nat) :
    (c.write d v m).rk n = if d = .k n ∧ n ≠ 0 then BitVec.ofNat 128 (mergeMask (c.rk n).toNat v m) else c.rk n := by
  by_cases hn : n = 0
  · simp [Core.rk, hn]
  have h := c.write_within d v m
  cases d with
  | k i =>
    by_cases hi : i = 0
    · simp [Core.write, hi, Ne.symm hn]
    · by_cases hin : i = n
      · subst hin; simp [Core.write, Core.rk, hi]
      · simp [Core.write, Core.rk, hi, mget_mput, Regs.dflt, hin]
  | _ => rw [if_neg (by simp)]; exact (congrArg (Core.rk · n) h :)
theorem Core.rv_write (c : Core) (d : Dest) (v : Nat) (m : Option Nat) (n : Nat) :
    (c.write d v m).rv n = if d = .v n then BitVec.ofNat 1024 (mergeMask (c.rv n).toNat v m) else c.rv n := by
  have h := c.write_within d v m
  cases d with
  | v i => by_cases hi : i = n <;> simp [Core.write, Core.rv, mget_mput, Regs.dflt, hi]
  | _ => rw [if_neg (by simp)]; exact (congrArg (Core.rv · n) h :)
theorem Core.rq_write (c : Core) (d : Dest) (v : Nat) (m : Option Nat) (n : Nat) :
    (c.write d v m).rq n = if d = .q n then BitVec.ofNat 64 (mergeMask (c.rq n).toNat v m) else c.rq n := by
  have h := c.write_within d v m
  cases d with
  | q i => by_cases hi : i = n <;> simp [Core.write, Core.rq, mget_mput, Regs.dflt, hi]
  | _ => rw [if_neg (by simp)]; exact (congrArg (Core.rq · n) h :)
theorem Core.re_write (c : Core) (d : Dest) (v : Nat) (m : Option Nat) (n : Nat) :
    (c.write d v m).re n = if d = .e n then BitVec.ofNat 32 (mergeMask (c.re n).toNat v m) else c.re n := by
  have h := c.write_within d v m
  cases d with
  | e i => by_cases hi : i = n <;> simp [Core.write, Core.re, mget_mput, Regs.dflt, hi]
  | _ => rw [if_neg (by simp)]; exact (congrArg (Core.re · n) h :)
theorem Core.rj_write (c : Core) (d : Dest) (v : Nat) (m : Option Nat) (n : Nat) :
    (c.write d v m).rj n = if d = .j n then BitVec.ofNat 32 v else c.rj n := by
  have h := c.write_within d v m
  cases d with
  | j i => by_cases hi : i = n <;> simp [Core.write, Core.rj, mget_mput, Regs.dflt, hi]
  | _ => rw [if_neg (by simp)]; exact (congrArg (Core.rj · n) h :)
theorem Core.ra_write (c : Core) (d : Dest) (v : Nat) (m : Option Nat) (n i j : Nat) : (c.write d v m).ra n i j = c.ra n i j := by
  have h := c.write_within d v m
  cases d <;> exact (congrArg (Core.ra · n i j) h :)
/-- g0, p0 and k0 have no bits that a result could change (R98). -/
theorem Core.write_const (c : Core) {d : Dest} (h : d = .g 0 true ∨ d = .g 0 false ∨ d = .p 0 true ∨ d = .p 0 false ∨ d = .k 0) (v : Nat)
    (m : Option Nat) : c.write d v m = c := by
  rcases h with rfl | rfl | rfl | rfl | rfl <;> rfl

/-! ## Destinations -/

/-- Below g56 and p6 both modes see one bank; from there on a mode sees its own (R100). -/
theorem Core.dg_of_lt (c : Core) {n : Nat} (h : n < 56) : c.dg n = .g n false := by
  have hn : ¬ c.bank n = true := fun hb => absurd ((c.bank_iff n).mp hb).2 (by omega)
  rw [Core.dg, Bool.eq_false_iff.mpr hn]
theorem Core.dg_of_le (c : Core) {n : Nat} (h : 56 ≤ n) : c.dg n = .g n c.hm := by
  rw [Core.dg, Core.bank, Nat.ble_eq_true_of_le h, Bool.and_true]
theorem Core.dp_of_lt (c : Core) {n : Nat} (h : n < 6) : c.dp n = .p n false := by
  have hn : ¬ c.pbank n = true := fun hb => absurd ((c.pbank_iff n).mp hb).2 (by omega)
  rw [Core.dp, Bool.eq_false_iff.mpr hn]
theorem Core.dp_of_le (c : Core) {n : Nat} (h : 6 ≤ n) : c.dp n = .p n c.hm := by
  rw [Core.dp, Core.pbank, Nat.ble_eq_true_of_le h, Bool.and_true]

/-- Settles O7: each register file is read after a write by the lemma about its read. -/
theorem registerWrites : Obligations.RegisterWrites := fun c d v =>
  ⟨rfl, rfl, rfl, fun h => c.write_const h v none, c.write_eq d v none, c.rg_write d v none, c.rp_write d v none, c.rv_write d v none,
    c.rk_write d v none, c.rq_write d v none, c.re_write d v none, c.rj_write d v none, c.ra_write d v none,
    fun _ => c.dg_of_lt, fun _ => c.dg_of_le, fun _ => c.dp_of_lt, fun _ => c.dp_of_le⟩

end Sys2Proof.Machine
end

section
/-! SUPPORT. Bit fields of a number and the coordinates of a tile's name (R103, R130): what a field reads after it, or another, was set. -/

namespace Sys2Proof.Machine

/-! ## Bit fields -/

/-- A number from what lies above, in and below a field. -/
theorem fld_split (x lo n : Nat) : x = x / 2 ^ (lo + n) * 2 ^ (lo + n) + fld x lo n * 2 ^ lo + x % 2 ^ lo := by
  have h1 := Nat.div_add_mod x (2 ^ lo)
  have h2 := Nat.div_add_mod (x / 2 ^ lo) (2 ^ n)
  rw [Nat.div_div_eq_div_mul, ← Nat.pow_add] at h2
  rw [fld, Nat.pow_add]
  rw [Nat.pow_add] at h2
  calc x = 2 ^ lo * (x / 2 ^ lo) + x % 2 ^ lo := h1.symm
    _ = 2 ^ lo * (2 ^ n * (x / (2 ^ lo * 2 ^ n)) + x / 2 ^ lo % 2 ^ n) + x % 2 ^ lo := by rw [h2]
    _ = _ := by ring
theorem setFld_eq (x lo n v : Nat) : setFld x lo n v = v % 2 ^ n * 2 ^ lo + (x / 2 ^ (lo + n) * 2 ^ (lo + n) + x % 2 ^ lo) := by
  have h := fld_split x lo n
  rw [setFld]
  omega
theorem fld_setFld_self (x lo n v : Nat) : fld (setFld x lo n v) lo n = v % 2 ^ n := by
  have hlow : (x / 2 ^ (lo + n) * 2 ^ (lo + n) + x % 2 ^ lo) % 2 ^ (lo + n) < 2 ^ lo := by
    have hm := Nat.mod_lt x (Nat.two_pow_pos lo)
    rw [Nat.mul_add_mod_self_right, Nat.mod_eq_of_lt (lt_of_lt_of_le hm (Nat.pow_le_pow_right (by decide) (Nat.le_add_right lo n)))]
    exact hm
  rw [setFld_eq]
  exact fld_mul_add rfl (Nat.mod_lt _ (Nat.two_pow_pos n)) hlow
/-- What stands above the field is as before. -/
theorem setFld_div (x lo n v : Nat) : setFld x lo n v / 2 ^ (lo + n) = x / 2 ^ (lo + n) := by
  have hlow : v % 2 ^ n * 2 ^ lo + x % 2 ^ lo < 2 ^ (lo + n) := by
    have hx := Nat.mod_lt x (Nat.two_pow_pos lo)
    have hv := Nat.mul_le_mul_right (2 ^ lo) (Nat.mod_lt v (Nat.two_pow_pos n))
    rw [Nat.succ_mul] at hv
    rw [Nat.pow_add, Nat.mul_comm (2 ^ lo)]
    omega
  rw [setFld_eq, Nat.add_left_comm, Nat.mul_comm (x / _), Nat.mul_add_div (Nat.two_pow_pos _), Nat.div_eq_of_lt hlow, Nat.add_zero]
theorem setFld_lt {x lo n w : Nat} (h : lo + n ≤ w) (hx : x < 2 ^ w) (v : Nat) : setFld x lo n v < 2 ^ w := by
  obtain ⟨k, rfl⟩ := Nat.exists_eq_add_of_le h
  rw [Nat.pow_add 2 (lo + n), Nat.mul_comm, ← Nat.div_lt_iff_lt_mul (Nat.two_pow_pos _)] at hx ⊢
  rwa [setFld_div]
theorem fld_setFld_of_below {x lo n v lo' n' : Nat} (h : lo' + n' ≤ lo) : fld (setFld x lo n v) lo' n' = fld x lo' n' := by
  have hd : ∀ k, lo ≤ k → 2 ^ k % 2 ^ (lo' + n') = 0 := fun k hk => Nat.mod_eq_zero_of_dvd (Nat.pow_dvd_pow 2 (h.trans hk))
  have hx : fld x lo' n' = fld (x % 2 ^ lo) lo' n' := by
    conv_lhs => rw [← Nat.div_add_mod' x (2 ^ lo)]
    exact fld_mul_add_of_dvd (hd lo (le_refl lo))
  rw [setFld_eq, fld_mul_add_of_dvd (hd lo (le_refl lo)), fld_mul_add_of_dvd (hd _ (Nat.le_add_right lo n)), hx]
theorem fld_setFld_of_above {x lo n v lo' n' : Nat} (h : lo + n ≤ lo') : fld (setFld x lo n v) lo' n' = fld x lo' n' := by
  obtain ⟨k, rfl⟩ := Nat.exists_eq_add_of_le h
  rw [fld, fld, Nat.pow_add 2 (lo + n), ← Nat.div_div_eq_div_mul, ← Nat.div_div_eq_div_mul, setFld_div]
/-- The uppermost field of a number. -/
theorem setFld_top {x lo n : Nat} (h : x < 2 ^ (lo + n)) (v : Nat) : setFld x lo n v = v % 2 ^ n * 2 ^ lo + x % 2 ^ lo := by
  rw [setFld_eq, Nat.div_eq_of_lt h, Nat.zero_mul, Nat.zero_add]

/-! ## Coordinates (R103) -/

theorem withCoord_lt {q : Nat} (hq : q < 2 ^ 64) (n v : Nat) : withCoord q n v < 2 ^ 64 :=
  setFld_lt (by have := Nat.mod_lt n (show 0 < 4 by decide); omega) hq v
theorem fld_withCoord_self (q n v : Nat) : fld (withCoord q n v) (11 * (n % 4)) 11 = v % 2 ^ 11 := fld_setFld_self ..
/-- The tensor's identifier keeps its bits. -/
theorem fld_withCoord_tid (q n v : Nat) : fld (withCoord q n v) 44 20 = fld q 44 20 :=
  fld_setFld_of_above (by have := Nat.mod_lt n (show 0 < 4 by decide); omega)
/-- The other coordinates keep their bits. -/
theorem fld_withCoord_of_ne (q v : Nat) {n m : Nat} (h : m ≠ n % 4) : fld (withCoord q n v) (11 * m) 11 = fld q (11 * m) 11 := by
  rcases Nat.lt_or_gt_of_ne h with h | h
  · exact fld_setFld_of_below (by omega)
  · exact fld_setFld_of_above (by omega)
/-- A tensor's identifier is what a shift leaves of the register. -/
theorem toNat_fld_tid (q : W64) : (BitVec.ofNat 64 (fld q.toNat 44 20)).toNat = (q >>> 44).toNat := by
  have h := q.isLt
  rw [BitVec.toNat_ofNat, BitVec.toNat_ushiftRight, Nat.shiftRight_eq_div_pow, fld]
  omega
theorem toNat_coordOf (q : W64) (n : Nat) : (BitVec.ofNat 64 (coordOf q.toNat n)).toNat = (q >>> (11 * (n % 4)) &&& 0x7FF).toNat := by
  have hm : (0x7FF : W64).toNat = 2 ^ 11 - 1 := rfl
  have hlt : coordOf q.toNat n < 2 ^ 11 := Nat.mod_lt _ (by decide)
  rw [BitVec.toNat_ofNat, Nat.mod_eq_of_lt (by omega), BitVec.toNat_and, BitVec.toNat_ushiftRight, hm, Nat.and_two_pow_sub_one_eq_mod,
    Nat.shiftRight_eq_div_pow]
  rfl
/-- A sum modulo 2^11 of integers is that of 11-bit words. -/
theorem toNat_emod_2048 (c : Nat) (i : Int) : (((c : Int) + i) % (2048 : Nat)).toNat = (BitVec.ofNat 11 c + BitVec.ofInt 11 i).toNat := by
  rw [← BitVec.ofInt_natCast, ← BitVec.ofInt_add, BitVec.toNat_ofInt]
/-- The step of QADD is a word of six bits, or the eleven of an extension word (R130). -/
theorem qaddStep_toNat (c k : Nat) (x : Option Nat) :
    (((c : Int) + (match x with | none => sext k 6 | some e => sext e 11)) % (2048 : Nat)).toNat % 2 ^ 11 =
      (BitVec.ofNat 11 c + (match x with | none => (BitVec.ofNat 6 k).signExtend 11 | some e => BitVec.ofNat 11 e)).toNat := by
  rw [toNat_emod_2048, Nat.mod_eq_of_lt (BitVec.isLt _)]
  cases x with
  | none => simp only [sext_eq_toInt k (show 0 < 6 by decide)]; rfl
  | some e => simp only [sext_eq_toInt e (show 0 < 11 by decide), BitVec.ofInt_toInt]

/-! ## A slot that is ready, and its one result of latency 1 -/

theorem asked_of_ready {i : Instr} {s : State} (hl : i.slot ≠ .l) (hn : ∀ gd n x, i ≠ .safe gd n x) (hr : Ready i s) : Asked i (semOf i) s :=
  ⟨hr, .inl hl, illegal_sole_of_not_safe hn _ s⟩
/-- An I slot whose meaning is one result of latency 1. -/
theorem gives_iSlot {i : Instr} {s : State} {d : Dest} {v w : Nat} (hc : i.cls = some .i) (hs : semOf i s = result d v 1) (hv : v = w)
    (hr : Ready i s) : Gives i s d w := by
  subst hv
  have ha : Asked i (semOf i) s := asked_of_ready (by simp [Instr.slot, hc]) (fun gd n x hi => by subst hi; cases hc) hr
  exact gives_of (exec_eq_runSole (by simp [hc]) s) ha.ready ha.free ha.legal hs

/-- Settles O15: each instruction is one result, and the fields of its value are those of the statement. -/
theorem coordinateMoves : Obligations.CoordinateMoves := by
  intro s gd d a b n k x
  have hlt (r : Nat) : (s.me.rq r).toNat < 2 ^ 64 := (s.me.rq r).isLt
  refine ⟨gives_iSlot rfl rfl rfl, gives_iSlot rfl rfl (setFld_top (hlt d) _), fun hr => ⟨_, withCoord_lt (hlt d) _ _, gives_iSlot rfl rfl rfl hr, ?_, ?_, ?_⟩,
    gives_iSlot rfl rfl rfl, gives_iSlot rfl rfl ?_, gives_iSlot rfl rfl ?_, fun hn hr => ⟨_, withCoord_lt (hlt a) _ _, gives_iSlot rfl rfl rfl hr, ?_, ?_, ?_⟩,
    gives_iSlot rfl rfl rfl⟩
  · exact fld_withCoord_self ..
  · exact fld_withCoord_tid ..
  · exact fun m _ hm => fld_withCoord_of_ne _ _ hm
  · exact toNat_fld_tid _
  · exact toNat_coordOf ..
  · have hc : coordOf (s.me.rq a).toNat n = fld (s.me.rq a).toNat (11 * n) 11 := by rw [coordOf, Nat.mod_eq_of_lt hn]
    have h := fld_withCoord_self (s.me.rq a).toNat n
    rw [Nat.mod_eq_of_lt hn] at h
    rw [h, hc]
    exact qaddStep_toNat ..
  · exact fld_withCoord_tid ..
  · exact fun m _ hm => fld_withCoord_of_ne _ _ (by rwa [Nat.mod_eq_of_lt hn])

end Sys2Proof.Machine
end

section
/-! SUPPORT. Reads and writes of the CSRs by CSRR, CSRW, CSRS and CSRC (R110, R111, R150), with a write of LCNT at a loop end (R118). -/

namespace Sys2Proof.Machine

/-! ## Who may name a CSR -/

theorem csrPriv_of_ne {n : Nat} (h : n ≠ 0x0E) (c : Core) : csrPriv c n = false := by simp [csrPriv, h]
theorem csrPriv_of_hm {c : Core} (h : c.hm = true) (n : Nat) : csrPriv c n = false := by simp [csrPriv, h]
theorem csrPriv_hscr_of_task {c : Core} (h : c.hm = false) : csrPriv c 0x0E = true := by simp [csrPriv, h]

theorem semCsrr_of_open {s : State} {n : Nat} (h : csrPriv s.me n = false) (d : Nat) :
    semCsrr d n s = result (s.me.dg d) (BitVec.ofNat 64 (csrVal s s.cur n)).toNat 1 := by
  rw [semCsrr, h]; rfl
theorem semCsrr_of_priv {s : State} {n : Nat} (h : csrPriv s.me n = true) (d : Nat) : semCsrr d n s = faults 4 1 0 := by
  rw [semCsrr, h]; rfl
theorem csrOp_of_open {s : State} {n : Nat} (h : csrPriv s.me n = false) (a : Nat) (f : Nat → Nat → Nat) :
    csrOp n a f s = onCore (fun c => c.csrSet n (f (if n == 0x10 then c.csr.fpstat.toNat else csrVal s s.cur n) (s.me.rg a).toNat)) := by
  rw [csrOp, h]; rfl
theorem csrOp_of_priv {s : State} {n : Nat} (h : csrPriv s.me n = true) (a : Nat) (f : Nat → Nat → Nat) : csrOp n a f s = faults 4 1 0 := by
  rw [csrOp, h]; rfl

/-! ## CSRR -/

theorem csrr_asked {s : State} {gd : Guard} {d n : Nat} (hr : Ready (.csrr gd d n) s) : Asked (.csrr gd d n) (semOf (.csrr gd d n)) s :=
  asked_of_ready (fun h => nomatch h) (fun _ _ _ h => nomatch h) hr
/-- CSRR reads its CSR by number. -/
theorem csrr_gives {s : State} {gd : Guard} {d n : Nat} {v : W64} (hp : csrPriv s.me n = false) (hv : BitVec.ofNat 64 (csrVal s s.cur n) = v) :
    GivesG (.csrr gd d n) s d v := by
  subst hv
  intro hr
  have ha := csrr_asked hr
  exact gives_of rfl ha.ready ha.free ha.legal (semCsrr_of_open hp d)

/-! ## CSRW, CSRS and CSRC -/

/-- A change of the running core alone that puts nothing in flight. -/
theorem doesTo_onCore {i : Instr} {sem : State → SlotEff} {s : State} {f g : Core → Core} (hx : exec i s = runSole i sem s) (ha : Asked i sem s)
    (hs : sem s = onCore f)
    (hf : f { s.me with settle := false, stalled := false, xfer := .none } = { g s.me with settle := false, stalled := false, xfer := .none })
    (hg : (g s.me).run = s.me.run ∧ (g s.me).regs = s.me.regs ∧ (g s.me).fly = s.me.fly ∧ (g s.me).hm = s.me.hm ∧
      (g s.me).preempt = s.me.preempt) : DoesTo i s (s.updMe g) := by
  obtain ⟨hrun, hregs, hfly, hhm, hpre⟩ := hg
  obtain ⟨t, hx, hc, hr, hl⟩ := onCore_completes (fl := []) hx ha.ready ha.free ha.legal hs (by rw [List.append_nil, hf, ← hfly])
    ⟨hrun, hregs, hfly, hhm, hpre⟩
  refine ⟨t, hx, hc, ?_, ?_⟩
  · rw [hr, State.updMe_me, Core.age_regs_of hregs hfly]; rfl
  · rw [hl, State.updMe_me, Core.age_fly_of hfly]; simp

/-- The bundle of i is decided by its slot, which writes CSR n with F of its old value: f is what F does to the numbers of words. -/
structure WritesCsr (i : Instr) (s : State) (n a : Nat) (f : Nat → Nat → Nat) (F : W64 → W64) : Prop where
  cls : i.cls = some .c
  asked : Asked i (semOf i) s
  sem : semOf i s = csrOp n a f s
  word : ∀ x : W64, f x.toNat (s.me.rg a).toNat = (F x).toNat

section
variable {i : Instr} {s : State} {n a : Nat} {f : Nat → Nat → Nat} {F : W64 → W64}

theorem WritesCsr.exec_eq (h : WritesCsr i s n a f F) : exec i s = runSole i (semOf i) s := exec_eq_runSole (by simp [h.cls]) s
theorem WritesCsr.sem_onCore (h : WritesCsr i s n a f F) (hp : csrPriv s.me n = false) :
    semOf i s = onCore (fun c => c.csrSet n (f (if n == 0x10 then c.csr.fpstat.toNat else csrVal s s.cur n) (s.me.rg a).toNat)) :=
  h.sem.trans (csrOp_of_open hp a f)
theorem WritesCsr.ofNat_word (h : WritesCsr i s n a f F) (x : W64) : BitVec.ofNat 64 (f x.toNat (s.me.rg a).toNat) = F x := by
  rw [h.word, BitVec.ofNat_toNat, BitVec.setWidth_eq]
/-- The old value of a 32-bit CSR counts zero-extended. -/
theorem WritesCsr.word32 (h : WritesCsr i s n a f F) (x : W32) : f x.toNat (s.me.rg a).toNat = (F (x.zeroExtend 64)).toNat := by
  rw [← h.word, BitVec.toNat_setWidth, Nat.mod_eq_of_lt (by have := x.isLt; omega)]

/-- FPSTAT keeps bits 5:0 (R113). -/
theorem WritesCsr.fpstat (h : WritesCsr i s 0x10 a f F) : DoesTo i s (s.updMe (fun c =>
    { c with csr := { c.csr with fpstat := (F (s.me.csr.fpstat.zeroExtend 64) &&& 0x3F).extractLsb' 0 32 } })) := by
  have hv : BitVec.ofNat 32 (f s.me.csr.fpstat.toNat (s.me.rg a).toNat % 64) =
      (F (s.me.csr.fpstat.zeroExtend 64) &&& 0x3F).extractLsb' 0 32 := by
    have hm : (0x3F : W64).toNat = 2 ^ 6 - 1 := rfl
    apply BitVec.eq_of_toNat_eq
    rw [h.word32, BitVec.toNat_ofNat, BitVec.extractLsb'_toNat, BitVec.toNat_and, hm, Nat.and_two_pow_sub_one_eq_mod, Nat.shiftRight_zero]
  refine doesTo_onCore h.exec_eq h.asked (h.sem_onCore (csrPriv_of_ne (by decide) _)) ?_ ⟨rfl, rfl, rfl, rfl, rfl⟩
  rw [← hv]
  rfl
/-- A CSR of 64 bits takes the word as it is: r is what its write leaves. -/
theorem WritesCsr.word64 {r : Csr → W64 → Csr} {old : W64} (h : WritesCsr i s n a f F) (hp : csrPriv s.me n = false) (hn : (n == 0x10) = false)
    (hv : csrVal s s.cur n = old.toNat) (hset : ∀ (c : Core) v, c.csrSet n v = { c with csr := r c.csr (BitVec.ofNat 64 v) })
    (hr : ∀ x w, (r x w).status = x.status) : DoesTo i s (s.updMe (fun c => { c with csr := r c.csr (F old) })) := by
  refine doesTo_onCore h.exec_eq h.asked (h.sem_onCore hp) ?_ ⟨rfl, rfl, rfl, congrArg (fun x : W32 => bitOf x.toNat 0) (hr ..), rfl⟩
  simp only [hn, Bool.false_eq_true, if_false, hv, hset, h.ofNat_word]
theorem WritesCsr.lbeg (h : WritesCsr i s 0x1D a f F) : DoesTo i s (s.updMe (fun c => { c with csr := { c.csr with lbeg := F s.me.csr.lbeg } })) :=
  h.word64 (r := fun x w => { x with lbeg := w }) (csrPriv_of_ne (by decide) _) rfl rfl (fun _ _ => rfl) (fun _ _ => rfl)
theorem WritesCsr.lend (h : WritesCsr i s 0x1E a f F) : DoesTo i s (s.updMe (fun c => { c with csr := { c.csr with lend := F s.me.csr.lend } })) :=
  h.word64 (r := fun x w => { x with lend := w }) (csrPriv_of_ne (by decide) _) rfl rfl (fun _ _ => rfl) (fun _ _ => rfl)
theorem WritesCsr.hscr (h : WritesCsr i s 0x0E a f F) (hm : s.me.hm = true) :
    DoesTo i s (s.updMe (fun c => { c with csr := { c.csr with hscr := F s.me.csr.hscr } })) :=
  h.word64 (r := fun x w => { x with hscr := w }) (csrPriv_of_hm hm _) rfl rfl (fun _ _ => rfl) (fun _ _ => rfl)
/-- HSCR is the handler's alone (R111). -/
theorem WritesCsr.traps (h : WritesCsr i s 0x0E a f F) (hm : s.me.hm = false) : Traps i s 4 1 0 :=
  traps_of_faults h.exec_eq h.asked (h.sem.trans (csrOp_of_priv (csrPriv_hscr_of_task hm) a f))
/-- The read-only CSRs, and numbers that name none, ignore a write (R7, R111). -/
theorem Core.csrSet_of_read_only {n : Nat} (h : n ∉ [0x0E, 0x10, 0x1C, 0x1D, 0x1E]) (c : Core) (v : Nat) : c.csrSet n v = c := by
  unfold Core.csrSet
  split
  case h_6 => rfl
  all_goals exact absurd h (by decide)
theorem DoesTo.of_id (h : DoesTo i s (s.updMe id)) : DoesTo i s s := by
  obtain ⟨t, hx, hc, hr, hl⟩ := h
  rw [State.updMe_me] at hr hl
  exact ⟨t, hx, hc.of_id, hr, hl⟩
theorem WritesCsr.ignored (h : WritesCsr i s n a f F) (hn : n ∉ [0x0E, 0x10, 0x1C, 0x1D, 0x1E]) : DoesTo i s s :=
  (doesTo_onCore (g := id) h.exec_eq h.asked (h.sem_onCore (csrPriv_of_ne (by rintro rfl; exact hn (by decide)) _)) (Core.csrSet_of_read_only hn _ _)
    ⟨rfl, rfl, rfl, rfl, rfl⟩).of_id

/-! ### LCNT (R118) -/

/-- The end of an iteration that wrote LCNT: a loop end keeps the value written. -/
theorem Core.resolve_keepLcnt {c c0 : Core} {b : Bundle} {next : Nat} (hx : c.xfer = .keepLcnt) (hb : b.rep = 0) :
    c.resolve c0 b next = { c with
      xfer := .none
      pc := if loopEnd c0 && c0.csr.lcnt != 1 then c0.csr.lbeg.toNat else next
      via := if loopEnd c0 && c0.csr.lcnt != 1 then .target else .seq
      iter := 0 } := by
  have hi : ¬ Nat.blt c0.iter b.rep = true := by rw [hb, Nat.blt_eq]; omega
  simp only [Core.resolve, hx, if_neg hi, Core.fallThrough]
  by_cases hl : loopEnd c0 = true <;> by_cases h1 : c0.csr.lcnt = 1#32
  all_goals simp [hl, h1, bne, Core.goTo]
/-- A C slot leaves no sticky record (R72). -/
theorem soleBundle_records_of_c (hc : i.cls = some .c) (sem : State → SlotEff) (c : Core) : (soleBundle i sem).records c = c := by
  simp [soleBundle_records, hc]
/-- The running core c after its bundle's effects, where they write x to LCNT. -/
def Core.lcntSet (c : Core) (x : W32) : Core :=
  { c with csr := { c.csr with lcnt := x }, settle := false, stalled := false, xfer := .keepLcnt }
theorem csrSet_lcnt (c : Core) (v : Nat) :
    ({ c with settle := false, stalled := false, xfer := .none } : Core).csrSet 0x1C v = c.lcntSet (BitVec.ofNat 32 v) := rfl
/-- One issue step passes over it. -/
theorem Core.lcntSet_stepped (c : Core) (x : W32) : ∃ d : Core, (((c.lcntSet x).age.countSafe c).tick 1) = d ∧ d.xfer = .keepLcnt ∧
    d.regs = c.age.regs ∧ d.fly = c.age.fly ∧ d.csr = { c.csr with lcnt := x, safedist := if c.hm then c.csr.safedist else c.csr.safedist + 1 } := by
  have ha : (c.lcntSet x).age = { c.lcntSet x with regs := c.age.regs, fly := c.age.fly } := by
    rw [Core.age_eq, Core.age_regs_of (c := c.lcntSet x) (d := c) rfl rfl, Core.age_fly_of (c := c.lcntSet x) (d := c) rfl]
  refine ⟨_, rfl, ?_⟩
  rw [ha]
  by_cases hm : c.hm = true
  all_goals simp [Core.countSafe, Core.lcntSet, Core.tick, hm]
/-- A C slot that writes LCNT completes. -/
theorem keepsLcnt_of {sem : State → SlotEff} {x : W32} {g : Core → Core} (hc : i.cls = some .c) (hx : Machine.exec i s = runSole i sem s) (ha : Asked i sem s)
    (hs : sem s = onCore g) (hg : g { s.me with settle := false, stalled := false, xfer := .none } = s.me.lcntSet x) :
    ∃ t, exec i s = .next t ∧ CoreOnly s t ∧ t.me.csr = { csrTaken s with lcnt := x } ∧
      t.me.pc = (if goesRound s then s.me.csr.lbeg.toNat else nextBundle i s t) ∧ t.me.regs = s.me.age.regs ∧ t.me.fly = s.me.age.fly := by
  have hv : ((onCore g).commit s.clean).me = s.me.lcntSet x := by
    show (s.clean.updMe g).me = _
    rw [State.updMe_me, State.clean, State.updMe_me, hg]
  obtain ⟨d, hd, hk, hregs, hfly, hcsr⟩ := s.me.lcntSet_stepped x
  have hme := afterCommit_me i sem s ((onCore g).commit s.clean)
  rw [soleBundle_records_of_c hc, hv, hd, Core.resolve_keepLcnt hk rfl] at hme
  refine ⟨_, hx.trans (runSole_commit ha.ready.1 (.inl ha.ready.2) ha.free ha.legal hs ⟨rfl, rfl, rfl, rfl, rfl⟩),
    Bundle.ended_coreOnly (b := soleBundle i sem) (((CoreOnly.refl s).updMe _).updMe _), ?_⟩
  rw [hme]
  exact ⟨hcsr, rfl, hregs, hfly⟩
/-- The value written to LCNT stands, at a loop end too (R118). -/
theorem WritesCsr.lcnt (h : WritesCsr i s 0x1C a f F) : ∃ t, exec i s = .next t ∧ CoreOnly s t ∧
    t.me.csr = { csrTaken s with lcnt := (F (s.me.csr.lcnt.zeroExtend 64)).extractLsb' 0 32 } ∧
    t.me.pc = (if goesRound s then s.me.csr.lbeg.toNat else nextBundle i s t) ∧ t.me.regs = s.me.age.regs ∧ t.me.fly = s.me.age.fly := by
  have hx : BitVec.ofNat 32 (f s.me.csr.lcnt.toNat (s.me.rg a).toNat) = (F (s.me.csr.lcnt.zeroExtend 64)).extractLsb' 0 32 := by
    apply BitVec.eq_of_toNat_eq
    rw [h.word32, BitVec.toNat_ofNat, BitVec.extractLsb'_toNat, Nat.shiftRight_zero]
  refine keepsLcnt_of h.cls h.exec_eq h.asked (h.sem_onCore (csrPriv_of_ne (by decide) _)) ?_
  rw [← hx]
  exact csrSet_lcnt ..
end

/-! ### The three operations -/

/-- To take the common bits away is to keep those that the other word does not have. -/
theorem toNat_and_not (x y : W64) : x.toNat - Nat.land x.toNat y.toNat = (x &&& ~~~y).toNat := by
  have hd : (x &&& y) &&& (x &&& ~~~y) = 0 := by ext i hi; simp +contextual
  have hs : (x &&& y) + (x &&& ~~~y) = x := by
    rw [BitVec.add_eq_or_of_and_eq_zero _ _ hd]
    ext i hi
    simp only [BitVec.getElem_or, BitVec.getElem_and, BitVec.getElem_not]
    cases x[i] <;> cases y[i] <;> rfl
  have hn := BitVec.toNat_add_of_and_eq_zero hd
  rw [hs, BitVec.toNat_and] at hn
  show x.toNat - (x.toNat &&& y.toNat) = _
  omega

section
variable {s : State} {gd : Guard} {a n : Nat}
theorem csrw_writes (hr : Ready (.csrw gd a n) s) : WritesCsr (.csrw gd a n) s n a (fun _ v => v) (fun _ => s.me.rg a) :=
  ⟨rfl, asked_of_ready (fun h => nomatch h) (fun _ _ _ h => nomatch h) hr, rfl, fun _ => rfl⟩
theorem csrs_writes (hr : Ready (.csrs gd a n) s) : WritesCsr (.csrs gd a n) s n a (fun old v => Nat.lor old v) (fun x => x ||| s.me.rg a) :=
  ⟨rfl, asked_of_ready (fun h => nomatch h) (fun _ _ _ h => nomatch h) hr, rfl, fun _ => (BitVec.toNat_or ..).symm⟩
theorem csrc_writes (hr : Ready (.csrc gd a n) s) :
    WritesCsr (.csrc gd a n) s n a (fun old v => old - Nat.land old v) (fun x => x &&& ~~~(s.me.rg a)) :=
  ⟨rfl, asked_of_ready (fun h => nomatch h) (fun _ _ _ h => nomatch h) hr, rfl, fun _ => toNat_and_not ..⟩
end

/-- Settles O22: CSRR reads by number, and each of the three writes is a `WritesCsr`, of which the lemmas above have every CSR. -/
theorem csrAccesses : Obligations.CsrAccesses := by
  refine ⟨fun s gd d => ⟨fun p hp => ?_, fun hm => ?_, fun hm hr => ?_⟩, ?_⟩
  · have hn : p.1 ≠ 0x0E := by revert p; simp
    exact csrr_gives (csrPriv_of_ne hn _) (congrArg _ ((List.map_inj_left (f := fun p => csrVal s s.cur p.1) (g := Prod.snd)).mp rfl p hp))
  · exact csrr_gives (csrPriv_of_hm hm _) ((BitVec.ofNat_toNat ..).trans (BitVec.setWidth_eq _))
  · exact traps_of_faults rfl (csrr_asked hr) (semCsrr_of_priv (csrPriv_hscr_of_task hm) d)
  intro s gd a n r y writes
  have hro : ∀ n ∈ [0x00, 0x01, 0x02, 0x03, 0x04, 0x08, 0x09, 0x0A, 0x0B, 0x0C, 0x0D, 0x11, 0x12, 0x13, 0x14, 0x18, 0x19, 0x1A],
      n ∉ [0x0E, 0x10, 0x1C, 0x1D, 0x1E] := by decide
  have all (i : Instr) {f : Nat → Nat → Nat} (F : W64 → W64) (h : Ready i s → WritesCsr i s n a f F) : writes i F := by
    refine ⟨?_, ?_, ?_, ?_, ?_, ?_, ?_⟩
    · rintro rfl hr; exact (h hr).fpstat
    · rintro rfl hr; exact (h hr).lbeg
    · rintro rfl hr; exact (h hr).lend
    · rintro rfl hm hr; exact (h hr).hscr hm
    · rintro rfl hm hr; exact (h hr).traps hm
    · rintro rfl hr; exact (h hr).lcnt
    · exact fun hn hr => (h hr).ignored (hro n hn)
  exact ⟨all (.csrw gd a n) (fun _ => y) csrw_writes, all (.csrs gd a n) (fun v => v ||| y) csrs_writes,
    all (.csrc gd a n) (fun v => v &&& ~~~y) csrc_writes⟩

end Sys2Proof.Machine
end

section
/-! SUPPORT. What the commit of an engine command leaves (R109, R249, R250): the command, and the tokens of its core. -/

namespace Sys2Proof.Machine

/-! ## Tokens -/

theorem Core.setTok_tok (c : Core) (t : Nat) (x : Tok) (n : Nat) : (c.setTok t x).tok n = if n = t then x else c.tok n := by
  rw [Core.tok, Core.setTok]
  split
  next h => rw [h, mget_mput_self]
  next h => rw [mget_mput_of_ne h]; rfl

/-- The core k once the tokens of l that a bundle consumes are marked as used: those that, since the bundle began with the core c, have no new
producer. -/
def Core.consume (c k : Core) (l : List Nat) : Core :=
  l.foldl (fun k t => if (k.tok t).latest == (c.tok t).latest then k.setTok t { k.tok t with used := true } else k) k
/-- A core that is as the bundle began has no new producers. -/
theorem Core.consume_spec (c : Core) (l : List Nat) : ∀ k : Core, (∀ t, (k.tok t).latest = (c.tok t).latest) →
    c.consume k l = { k with toks := (c.consume k l).toks } ∧
      ∀ n, (c.consume k l).tok n = if n ∈ l then { k.tok n with used := true } else k.tok n := by
  induction l with
  | nil => exact fun k _ => ⟨rfl, fun n => by simp [Core.consume]⟩
  | cons t l ih =>
    intro k hk
    have hstep : c.consume k (t :: l) = c.consume (k.setTok t { k.tok t with used := true }) l := by
      simp only [Core.consume, List.foldl_cons, hk, beq_self_eq_true, if_true]
    obtain ⟨h1, h2⟩ := ih (k.setTok t { k.tok t with used := true }) (fun n => by
      rw [Core.setTok_tok]
      split
      next h => rw [h, ← hk t]
      next => exact hk n)
    rw [hstep]
    refine ⟨by rw [h1]; rfl, fun n => ?_⟩
    rw [h2, Core.setTok_tok]
    by_cases ht : n = t <;> by_cases hl : n ∈ l <;> simp [ht, hl]

/-! ## Producers and failures -/

theorem Core.mem_producers {c : Core} {l : List Nat} {p : Nat} :
    p ∈ c.producers l ↔ ∃ n ∈ l, (c.tok n).st = .pending ∧ (c.tok n).latest = some p := by
  simp only [Core.producers, List.mem_filterMap, beq_iff_eq]
  refine exists_congr fun n => and_congr_right fun _ => ?_
  by_cases h : (c.tok n).st = .pending <;> simp [h]
/-- A command is enqueued as failed where the lowest ERROR token among its own has a fault to pass on (R297). -/
theorem Core.chained_isSome (c : Core) (l : List Nat) :
    (c.chained l).isSome = (l.any (fun n => (c.tok n).st == .error && (c.tok n).flt.isSome) &&
      ((lowest (l.filter (fun n => (c.tok n).st == .error))).bind (fun n => (c.tok n).flt)).isSome) := by
  rw [Core.chained]
  cases hl : lowest (l.filter (fun n => (c.tok n).st == .error)) with
  | none => simp
  | some n =>
    have hm := (lowest_mem hl).1
    rw [List.mem_filter] at hm
    cases hf : (c.tok n).flt with
    | none => simp [hf]
    | some f =>
      have ha : l.any (fun n => (c.tok n).st == .error && (c.tok n).flt.isSome) = true :=
        List.any_eq_true.mpr ⟨n, hm.1, by simp [hm.2, hf]⟩
      simp [hf, ha]

/-! ## The command -/

/-- The core k once the command x, of number t, is enqueued, for a bundle that began with the core c. -/
def Core.withCmd (c k : Core) (e : Edge) (t : Nat) (x : Cmd) : Core :=
  { (c.consume k (consumed e)).setTok e.tp ⟨.pending, none, some t, false⟩ with cmds := (c.consume k (consumed e)).cmds ++ [x] }
/-- A bundle that began with the core as it is commits a command: it changes that core and the clock. -/
theorem State.enqueue_eq (s : State) (i : Instr) (e : Edge) (args : List Nat) (hb : Bool) : ∃ x : Cmd,
    s.enqueue s.me i e args hb = { s.updMe (fun k => s.me.withCmd k e s.clock x) with clock := s.clock + 1 } ∧
    x.ins = i ∧ x.args = args ∧ x.tp = e.tp ∧ x.st = .queued ∧ x.id = s.clock ∧ x.fail = s.me.chained (consumed e ++ [e.tp]) ∧
    x.deps = s.me.producers (consumed e ++ [e.tp]) :=
  ⟨_, rfl, rfl, rfl, rfl, rfl, rfl, rfl, rfl⟩
theorem Core.withCmd_self (c : Core) (e : Edge) (t : Nat) (x : Cmd) :
    c.withCmd c e t x = { c with toks := (c.withCmd c e t x).toks, cmds := c.cmds ++ [x] } := by
  rw [Core.withCmd, (c.consume_spec (consumed e) c (fun _ => rfl)).1]; rfl
theorem Core.withCmd_tok (c : Core) (e : Edge) (t : Nat) (x : Cmd) (n : Nat) : (c.withCmd c e t x).tok n =
    if n = e.tp then ⟨.pending, none, some t, false⟩ else if n ∈ consumed e then { c.tok n with used := true } else c.tok n := by
  rw [← (c.consume_spec (consumed e) c (fun _ => rfl)).2]
  exact Core.setTok_tok ..

/-- Settles O42: the core has the command last and the tokens as `Core.withCmd_tok` says, and nothing else but the clock is touched. -/
theorem enqueuedCommand : Obligations.EnqueuedCommand := by
  intro s x e args hb u
  obtain ⟨c, hu, hins, hargs, htp, hst, hid, hfail, hdeps⟩ := s.enqueue_eq x e args hb
  have hme : u.me = s.me.withCmd s.me e s.clock c := (congrArg State.me hu).trans (s.updMe_me (fun k => s.me.withCmd k e s.clock c))
  refine ⟨⟨c, ?_, hins, hargs, htp, hst, hid, ?_, ?_, ?_⟩, ?_, ?_, rfl, rfl, ?_, ?_⟩
  · rw [hme, Core.withCmd_self]
  · rw [hfail, Core.chained_isSome]
  · exact fun n p hn hp hl => hdeps ▸ Core.mem_producers.mpr ⟨n, hn, hp, hl⟩
  · exact fun p hp => Core.mem_producers.mp (hdeps ▸ hp)
  · rw [hme, Core.withCmd_tok, if_pos rfl]
  · intro n hn
    rw [hme, Core.withCmd_tok, if_neg hn]
  · exact fun k hk => (congrArg (State.core · k) hu).trans (s.updMe_core_of_ne (fun k => s.me.withCmd k e s.clock c) hk)
  · rw [hme, Core.withCmd_self]

end Sys2Proof.Machine
end

section
/-! SUPPORT. The state after reset (R97, R110, R223, R298, R311, R384, R387): every table is empty, so each read gives its default. -/

namespace Sys2Proof.Machine

theorem mgetBytes_nil (k n : Nat) : mgetBytes [] k n = List.replicate n 0 := by
  induction n generalizing k with
  | zero => rfl
  | succ n ih => rw [mgetBytes, ih, List.replicate_succ]; rfl
theorem ofBytes_replicate_zero (n : Nat) : ofBytes (List.replicate n 0) = 0 := by
  induction n with
  | zero => rfl
  | succ n ih => rw [List.replicate_succ, ofBytes, ih]; rfl
/-- Every field of a partition's entry is zero. -/
theorem Part.reset_fld (off n : Nat) : Part.reset.fld off n = 0 := by
  rw [Part.fld]
  exact (congrArg ofBytes (mgetBytes_nil off n)).trans (ofBytes_replicate_zero n)
/-- g0 reads 0 in any case, and every other g register is unlisted. -/
theorem Core.reset_rg (n : Nat) : Core.reset.rg n = 0 := by
  rw [Core.rg, Core.rgIn]
  repeat' split
  all_goals rfl
theorem Core.reset_rp {n : Nat} (h : n ≠ 0) : Core.reset.rp n = false := by
  rw [Core.rp, if_neg (by simpa using h)]
  split <;> rfl
theorem Core.reset_rk {n : Nat} (h : n ≠ 0) : Core.reset.rk n = 0 := by
  rw [Core.rk, if_neg (by simpa using h)]; rfl

/-- A queue's block after reset is its state, STOPPED. -/
theorem Qcb.reset_image : Qcb.reset.image = 3 * 2 ^ 415 := by
  simp only [Qcb.image, Qcb.reset, BitVec.ofNat_eq_ofNat, BitVec.toNat_zero, Bool.toNat_false, Nat.zero_mul, Nat.zero_add, Nat.add_zero]

/-- Settles O3: each register, line, frame, queue and partition is unlisted and reads as its default; the device's registers are evaluated. -/
theorem resetValues : Obligations.ResetValues := by
  refine ⟨rfl, fun k => ⟨rfl, ?_, fun n => ⟨Core.reset_rg n, rfl, rfl, rfl, rfl⟩, fun n hn => ⟨Core.reset_rp hn, Core.reset_rk hn⟩, fun _ _ _ => rfl,
    fun n => ⟨rfl, rfl, rfl⟩, fun w => ⟨rfl, rfl⟩⟩, fun cl w => ⟨rfl, rfl, rfl⟩, fun q => ⟨Qcb.reset_image, rfl, rfl, rfl, rfl⟩,
    fun p off n => ⟨?_, Part.reset_fld off n, rfl, rfl, rfl⟩, ?_⟩
  · exact ⟨rfl, rfl, rfl, rfl, rfl, rfl, rfl, rfl, rfl, rfl, rfl, rfl, rfl, rfl, rfl, rfl, rfl, rfl, rfl, rfl⟩
  · show bitOf (Part.reset.fld 0 1) 0 = false
    rw [Part.reset_fld]; rfl
  · exact ⟨rfl, rfl, rfl, rfl, by decide, by decide, by decide, by decide, rfl, rfl, rfl, rfl, rfl, rfl, rfl, rfl, fun _ => rfl, fun _ => rfl⟩

end Sys2Proof.Machine
end

section
/-! SUPPORT. Scalar integers, bit fields, compares and predicates (R119 to R129, R338): the numbers that the meanings compute with, as words, and
the one result of each instruction. -/

namespace Sys2Proof.Machine

/-! ## An I slot whose meaning is one result of g or p, of latency 1 -/

theorem givesG_of {i : Instr} {s : State} {d : Nat} {v w : W64} (hc : i.cls = some .i) (hs : semOf i s = gRes s.me d v) (hv : v = w) :
    GivesG i s d w :=
  gives_iSlot hc hs (congrArg BitVec.toNat hv)
theorem givesP_of {i : Instr} {s : State} {d : Nat} {v b : Bool} (hc : i.cls = some .i) (hs : semOf i s = pRes s.me d v) (hv : v = b) :
    GivesP i s d b :=
  gives_iSlot hc hs (congrArg Bool.toNat hv)

/-! ## Shifts (R121) -/

theorem toNat_and_63 (v : W64) : (v &&& 63).toNat = shAmt v := by
  rw [BitVec.toNat_and]
  exact Nat.and_two_pow_sub_one_eq_mod v.toNat 6
theorem shlW_eq (v : W64) (n : Nat) : shlW v n = v <<< n := by
  apply BitVec.eq_of_toNat_eq
  rw [shlW, BitVec.toNat_ofNat, BitVec.toNat_shiftLeft, Nat.shiftLeft_eq]
theorem shrW_eq (v : W64) (n : Nat) : shrW v n = v >>> n := by
  apply BitVec.eq_of_toNat_eq
  rw [shrW, BitVec.toNat_ofNat, BitVec.toNat_ushiftRight, Nat.shiftRight_eq_div_pow]
  exact Nat.mod_eq_of_lt (lt_of_le_of_lt (Nat.div_le_self ..) v.isLt)
theorem sraW_eq (v : W64) (n : Nat) : sraW v n = v.sshiftRight n := by
  apply BitVec.eq_of_toInt_eq
  rw [sraW, w64, ashr_eq, ← BitVec.toInt_sshiftRight, BitVec.ofInt_toInt]

/-! ## Minima and maxima (R120) -/

theorem ite_toInt_le {α : Type} (x y : W64) (a b : α) : (if x.toInt ≤ y.toInt then a else b) = if x.sle y then a else b :=
  if_congr BitVec.sle_iff_toInt_le.symm rfl rfl
theorem ite_toNat_le {α : Type} (x y : W64) (a b : α) : (if x.toNat ≤ y.toNat then a else b) = if x.ule y then a else b :=
  if_congr BitVec.ule_iff_toNat_le.symm rfl rfl

/-- Settles O11: each instruction is one g result, and its value is the word that the statement writes. -/
theorem integerArithmetic : Obligations.IntegerArithmetic := by
  refine ⟨fun s gd d a b i x => ⟨?_, ?_, ?_⟩, fun s gd d a b i x => ⟨?_, ?_, ?_, ?_, ?_, ?_, ?_, ?_, ?_, ?_⟩,
    fun s gd d a b n _ => ⟨?_, ?_, ?_, ?_, ?_, ?_⟩⟩
  · exact givesG_of rfl rfl rfl
  · exact givesG_of rfl rfl rfl
  · exact givesG_of rfl rfl (by rw [w64_immB])
  · exact givesG_of rfl rfl rfl
  · exact givesG_of rfl rfl rfl
  · exact givesG_of rfl rfl rfl
  · exact givesG_of rfl rfl (by rw [w64_immB])
  · exact givesG_of rfl rfl (by rw [w64_immB])
  · exact givesG_of rfl rfl (by rw [w64_immB])
  · exact givesG_of rfl rfl (ite_toInt_le ..)
  · exact givesG_of rfl rfl (ite_toNat_le ..)
  · exact givesG_of rfl rfl (ite_toInt_le ..)
  · exact givesG_of rfl rfl (ite_toNat_le ..)
  · exact givesG_of rfl rfl (by rw [shlW_eq, ← toNat_and_63]; rfl)
  · exact givesG_of rfl rfl (by rw [shrW_eq, ← toNat_and_63]; rfl)
  · exact givesG_of rfl rfl (by rw [sraW_eq, ← toNat_and_63]; rfl)
  · exact givesG_of rfl rfl (shlW_eq ..)
  · exact givesG_of rfl rfl (shrW_eq ..)
  · exact givesG_of rfl rfl (sraW_eq ..)

/-! ## Bits of a word -/

theorem bitOf_toNat {w : Nat} (v : BitVec w) (n : Nat) : bitOf v.toNat n = v.getLsbD n := by
  rw [BitVec.getLsbD, Nat.testBit_eq_decide_div_mod_eq, bitOf, beq_eq_decide]
/-- A field of a word, as a word of the field's width. -/
theorem ofNat_fld (v : W64) (lo n : Nat) : BitVec.ofNat n (fld v.toNat lo n) = v.extractLsb' lo n := by
  apply BitVec.eq_of_toNat_eq
  rw [BitVec.toNat_ofNat, BitVec.extractLsb'_toNat, Nat.shiftRight_eq_div_pow, fld, Nat.mod_mod]
theorem ofNat_fld_zeroExtend (v : W64) (lo n : Nat) : BitVec.ofNat 64 (fld v.toNat lo n) = (v.extractLsb' lo n).zeroExtend 64 := by
  apply BitVec.eq_of_toNat_eq
  rw [BitVec.toNat_ofNat, BitVec.toNat_setWidth, BitVec.extractLsb'_toNat, Nat.shiftRight_eq_div_pow, fld]
theorem toNat_mod_eq_extract (v : W64) (n : Nat) : v.toNat % 2 ^ n = (v.extractLsb' 0 n).toNat := by
  rw [BitVec.extractLsb'_toNat, Nat.shiftRight_zero]

/-! ## Bit fields and upper halves (R124, R125) -/

/-- A bit of a number one field of which was set: in the field a bit of the new value, elsewhere the bit it had. -/
theorem setFld_testBit (x lo n v i : Nat) :
    (setFld x lo n v).testBit i = if lo ≤ i ∧ i < lo + n then v.testBit (i - lo) else x.testBit i := by
  rcases Nat.lt_or_ge i lo with hi | hi
  · have h : fld (setFld x lo n v) 0 lo = fld x 0 lo := fld_setFld_of_below (by omega)
    simp only [fld, Nat.pow_zero, Nat.div_one] at h
    have hb := congrArg (Nat.testBit · i) h
    simpa [Nat.testBit_mod_two_pow, hi, Nat.not_le.mpr hi] using hb
  rcases Nat.lt_or_ge i (lo + n) with hn | hn
  · have hb := congrArg (Nat.testBit · (i - lo)) (fld_setFld_self x lo n v)
    have hlt : i - lo < n := by omega
    simpa [fld, Nat.testBit_mod_two_pow, Nat.testBit_div_two_pow, hlt, Nat.sub_add_cancel hi, hi, hn] using hb
  · have hb := congrArg (Nat.testBit · (i - (lo + n))) (setFld_div x lo n v)
    simpa [Nat.testBit_div_two_pow, Nat.sub_add_cancel hn, hi, Nat.not_lt.mpr hn] using hb
theorem bfi_getLsbD (x v : W64) {lo w n : Nat} (hn : n < 64) : (BitVec.ofNat 64 (setFld x.toNat lo (w + 1) v.toNat)).getLsbD n =
    if lo ≤ n ∧ n ≤ lo + w then v.getLsbD (n - lo) else x.getLsbD n := by
  rw [BitVec.getLsbD_ofNat, setFld_testBit, decide_eq_true hn, Bool.true_and]
  exact if_congr (and_congr_right' Nat.lt_succ_iff) rfl rfl
theorem sethi_eq (x y : W64) : BitVec.ofNat 64 (x.toNat % 2 ^ 32 * 2 ^ 32 + y.toNat % 2 ^ 32) = x.extractLsb' 0 32 ++ y.extractLsb' 0 32 := by
  have hx := Nat.mod_lt x.toNat (show 0 < 2 ^ 32 by decide)
  have hy := Nat.mod_lt y.toNat (show 0 < 2 ^ 32 by decide)
  apply BitVec.eq_of_toNat_eq
  rw [BitVec.toNat_append, ← toNat_mod_eq_extract, ← toNat_mod_eq_extract, ← Nat.shiftLeft_add_eq_or_of_lt hy, Nat.shiftLeft_eq,
    BitVec.toNat_ofNat]
  omega

/-! ## Bit counts (R126) -/

theorem popCount_eq_countP (x n : Nat) : popCount x n = (List.range n).countP (bitOf x) := by
  induction n with
  | zero => rfl
  | succ n ih =>
    rw [popCount, ih, List.range_succ, List.countP_append, List.countP_singleton]
    cases bitOf x n <;> rfl
/-- Counting down from bit n - 1, the zeros reach the highest set bit, or the end. -/
theorem leadZeros_spec (x n : Nat) : leadZeros x n ≤ n ∧ (∀ m, n - leadZeros x n ≤ m → m < n → bitOf x m = false) ∧
    (leadZeros x n < n → bitOf x (n - 1 - leadZeros x n) = true) := by
  induction n with
  | zero => exact ⟨Nat.le_refl _, fun m _ h => absurd h (Nat.not_lt_zero m), fun h => absurd h (Nat.not_lt_zero _)⟩
  | succ n ih =>
    obtain ⟨hle, hz, hs⟩ := ih
    rw [leadZeros]
    split
    next hb => exact ⟨Nat.zero_le _, fun m h1 h2 => absurd h2 (Nat.not_lt.mpr h1), fun _ => hb⟩
    next hb =>
      refine ⟨Nat.succ_le_succ hle, fun m h1 h2 => ?_, fun h => ?_⟩
      · rcases Nat.lt_succ_iff_lt_or_eq.mp h2 with h | rfl
        · exact hz m (by omega) h
        · exact Bool.eq_false_iff.mpr hb
      · rw [← hs (by omega)]
        congr 1
        omega
/-- Counting up from bit i, the zeros reach the lowest set bit, or the end. -/
theorem trailZeros_spec (x i n : Nat) : trailZeros x i n ≤ n ∧ (∀ m, m < trailZeros x i n → bitOf x (i + m) = false) ∧
    (trailZeros x i n < n → bitOf x (i + trailZeros x i n) = true) := by
  induction n generalizing i with
  | zero => exact ⟨Nat.le_refl _, fun m h => absurd h (Nat.not_lt_zero m), fun h => absurd h (Nat.not_lt_zero _)⟩
  | succ n ih =>
    obtain ⟨hle, hz, hs⟩ := ih (i + 1)
    rw [trailZeros]
    split
    next hb => exact ⟨Nat.zero_le _, fun m h => absurd h (Nat.not_lt_zero m), fun _ => hb⟩
    next hb =>
      refine ⟨Nat.succ_le_succ hle, fun m h => ?_, fun h => ?_⟩
      · cases m with
        | zero => exact Bool.eq_false_iff.mpr hb
        | succ m =>
          rw [← hz m (Nat.lt_of_succ_lt_succ h)]
          congr 1
          omega
      · rw [← hs (Nat.lt_of_succ_lt_succ h)]
        congr 1
        omega

/-- Settles O13: each instruction is one result, whose value the lemmas above describe. -/
theorem bitFieldsAndScaleMoves : Obligations.BitFieldsAndScaleMoves := by
  refine ⟨fun s gd d a i sx wm1 lsb x _ => ⟨?_, ⟨_, fun n hn => bfi_getLsbD _ _ hn, givesG_of rfl rfl rfl⟩, ?_, ?_, ?_, ?_⟩,
    fun s gd d a => ⟨?_, ?_, ?_, ?_, ?_⟩⟩
  · refine givesG_of rfl rfl ?_
    rw [w64_sext _ (Nat.succ_pos wm1), ofNat_fld, ofNat_fld_zeroExtend]
    exact if_congr beq_iff_eq rfl rfl
  · exact givesG_of rfl rfl (by rw [w64_immB, sethi_eq])
  · refine givesG_of rfl rfl ?_
    rw [popCount_eq_countP, funext (bitOf_toNat (s.me.rg a))]
  · obtain ⟨hle, hz, hs⟩ := leadZeros_spec (s.me.rg a).toNat 64
    simp only [bitOf_toNat] at hz hs
    refine ⟨_, hle, fun m hm => ?_, fun h => ?_, givesG_of rfl rfl rfl⟩
    · rcases Nat.lt_or_ge m 64 with h | h
      · exact hz m hm h
      · exact BitVec.getLsbD_of_ge _ _ h
    · exact hs h
  · obtain ⟨hle, hz, hs⟩ := trailZeros_spec (s.me.rg a).toNat 0 64
    simp only [bitOf_toNat, Nat.zero_add] at hz hs
    exact ⟨_, hle, hz, hs, givesG_of rfl rfl rfl⟩
  · exact gives_iSlot rfl rfl (toNat_mod_eq_extract ..)
  · exact givesG_of rfl rfl (w64_toInt _)
  · exact gives_iSlot rfl rfl (toNat_mod_eq_extract ..)
  · exact givesG_of rfl rfl (BitVec.ofNat_toNat ..)
  · exact gives_iSlot rfl rfl rfl

/-! ## Compares and predicates (R127, R128) -/

theorem bne_eq_decide_ne (x y : W64) : (x != y) = decide (x ≠ y) := by
  rw [bne, beq_eq_decide, decide_not]

/-- One more bit, above those that a number has. -/
theorem testBit_add_bit {x lo : Nat} (hx : x < 2 ^ lo) (b : Bool) (n : Nat) :
    (x + b.toNat * 2 ^ lo).testBit n = if n = lo then b else x.testBit n := by
  rw [Nat.add_comm, Nat.mul_comm, Nat.testBit_two_pow_mul_add _ hx]
  rcases Nat.lt_trichotomy n lo with h | rfl | h
  · rw [if_pos h, if_neg (Nat.ne_of_lt h)]
  · rw [if_neg (Nat.lt_irrefl n), if_pos rfl, Nat.sub_self]
    cases b <;> rfl
  · have hn : n - lo ≠ 0 := by omega
    have hxn : x < 2 ^ n := hx.trans (Nat.pow_lt_pow_right (by decide) h)
    rw [if_neg (Nat.lt_asymm h), if_neg (Nat.ne_of_gt h), Nat.testBit_bool_toNat, Nat.testBit_lt_two_pow hxn, decide_eq_false hn, Bool.false_and]
/-- The bits that PMOV collects from bit lo on. -/
theorem foldl_bits_testBit (f : Nat → Bool) (k : Nat) {lo x : Nat} (hx : x < 2 ^ lo) (n : Nat) :
    ((upFrom lo k).foldl (fun x n => x + (f n).toNat * 2 ^ n) x).testBit n = if lo ≤ n ∧ n < lo + k then f n else x.testBit n := by
  induction k generalizing lo x with
  | zero =>
    rw [if_neg (by omega)]
    rfl
  | succ k ih =>
    have hlt : x + (f lo).toNat * 2 ^ lo < 2 ^ (lo + 1) := by
      have := Nat.mul_le_mul_right (2 ^ lo) (Bool.toNat_le (f lo))
      rw [Nat.pow_succ]
      omega
    rw [upFrom, List.foldl_cons, ih hlt, testBit_add_bit hx]
    by_cases hn : n = lo
    · subst hn
      rw [if_neg (by omega), if_pos rfl, if_pos (by omega)]
    · rw [if_neg hn]
      exact if_congr (by omega) rfl rfl
theorem preds_getLsbD (c : Core) (n : Nat) : (BitVec.ofNat 64 c.preds).getLsbD n = if n < 8 then c.rp n else false := by
  rw [BitVec.getLsbD_ofNat, Core.preds, foldl_bits_testBit c.rp 8 (show 0 < 2 ^ 0 by decide), Nat.zero_testBit]
  by_cases hn : n < 8
  · rw [if_pos (by omega), if_pos hn, decide_eq_true (by omega : n < 64), Bool.true_and]
  · rw [if_neg (by omega), if_neg hn, Bool.and_false]

/-- Settles O14: each instruction is one result, and its value is the condition that the statement writes. -/
theorem comparesAndPredicates : Obligations.ComparesAndPredicates := by
  refine ⟨fun s gd d a b i x => ⟨?_, ?_, ?_, ?_, ?_, ?_, ?_, ?_⟩, fun s gd d a b => ⟨?_, ?_, ?_, ?_, ?_, ?_, _, ?_, preds_getLsbD s.me, ?_⟩,
    fun s gd d a b => ⟨?_, ?_⟩⟩
  · exact givesP_of rfl rfl (beq_eq_decide ..)
  · exact givesP_of rfl rfl (bne_eq_decide_ne ..)
  · exact givesP_of rfl rfl rfl
  · exact givesP_of rfl rfl rfl
  · exact givesP_of rfl rfl rfl
  · exact givesP_of rfl rfl rfl
  · exact givesP_of rfl rfl (by rw [w64_immB, beq_eq_decide])
  · exact givesP_of rfl rfl (by rw [immB_eq]; rfl)
  · exact givesP_of rfl rfl rfl
  · exact givesP_of rfl rfl rfl
  · exact givesP_of rfl rfl rfl
  · exact givesP_of rfl rfl rfl
  · exact givesP_of rfl rfl rfl
  · exact givesP_of rfl rfl (bne_eq_decide_ne ..)
  · rw [preds_getLsbD]; rfl
  · exact givesG_of rfl rfl rfl
  · exact givesP_of rfl rfl (beq_eq_decide ..)
  · refine givesP_of rfl rfl ?_
    rw [beq_eq_decide, beq_eq_decide, ← Bool.decide_and]
    rfl

end Sys2Proof.Machine
end

section
/-! SUPPORT. Scalar floating point (R131 to R136): each instruction is one result of a longer latency with its flags, and what its operation on
bit patterns has to do with real numbers, from Laws/Round.lean. -/

namespace Sys2Proof.Machine

/-! ## An I slot whose meaning is one floating-point result -/

/-- An I slot whose meaning is one result with flags, of a latency longer than 1. -/
theorem givesLater_resultFl {i : Instr} {s : State} {d : Dest} {v fl lat : Nat} (hc : i.cls = some .i)
    (hs : semOf i s = resultFl d (v, fl) lat) (h2 : 2 ≤ lat) (hr : Ready i s) : GivesLater i s d v lat fl := by
  have ha : Asked i (semOf i) s := asked_of_ready (by simp [Instr.slot, hc]) (fun gd n x hi => by subst hi; cases hc) hr
  exact givesLater_of (exec_eq_runSole (by simp [hc]) s) ha.ready ha.free ha.legal hs h2

/-- The format of a precision, and an operand of it, as the statement writes them. -/
theorem fpCodeOf_eq (f : Nat) : (if f = 1 then 14 else 0) = fpCodeOf f := if_congr beq_iff_eq.symm rfl rfl
theorem fpArg_eq (c : Core) (f n : Nat) : (if f = 1 then (c.rg n).toNat else (c.rg n).toNat % 2 ^ 32) = fpArg c f n :=
  if_congr beq_iff_eq.symm rfl rfl

theorem ofNat_two_pow (n : Nat) : BitVec.ofNat 64 (2 ^ n) = BitVec.twoPow 64 n :=
  BitVec.eq_of_toNat_eq ((BitVec.toNat_ofNat ..).trans (BitVec.toNat_twoPow ..).symm)

/-! ## VSPEC's reciprocal and root (R169) -/

/-- The value 1 is exact in each format of V lanes, in every mode. -/
theorem encodeF_one_real {code mode : Nat} (hc : code < 3) (hm : mode < 4) :
    IsReal (decodeF code (encodeF code mode (.fin false 1 0)).1) 1 := by
  have hd : ∀ c < 3, ∀ m < 4, decodeF c (encodeF c m (.fin false 1 0)).1 = .fin false (2 ^ (fmtBits c).2) (-(fmtBits c).2) := by decide
  rw [hd code hc mode hm, isReal_fin]
  simp
theorem vspecF_reciprocal_rounds {code mode a : Nat} {x : ℝ} (hc : code < 3) (hm : mode < 4) (ha : IsReal (decodeF code a) x) (hx : x ≠ 0) :
    RoundsTo code mode (1 / x) (vspecF code mode 2 a) := by
  have h := fDiv_rounds code mode _ a 1 x hm (encodeF_one_real hc hm) ha hx
  unfold vspecF
  cases hd : decodeF code a with
  | nan sig => rw [hd] at ha; exact ha.elim
  | inf neg => rw [hd] at ha; exact ha.elim
  | fin neg man exp => exact h
theorem vspecF_root_rounds {code mode a : Nat} {x : ℝ} (hm : mode < 4) (ha : IsReal (decodeF code a) x) (hx : 0 ≤ x) :
    RoundsTo code mode (Real.sqrt x) (vspecF code mode 4 a) := by
  have h := fSqrt_rounds code mode a x hm ha hx
  unfold vspecF
  cases hd : decodeF code a with
  | nan sig => rw [hd] at ha; exact ha.elim
  | inf neg => rw [hd] at ha; exact ha.elim
  | fin neg man exp => exact h

/-! ## Conversions to integers (R135) -/

/-- The integer that the mode has a real for, or the bound it passes. -/
theorem valToInt_integer {mode : Nat} {v : FV} {x : ℝ} (f : Nat) (lo hi : Int) (hm : mode < 4) (h : IsReal v x) : ∃ j : Int,
    let r := valToInt mode v f lo hi
    let y := x * 2 ^ f
    (mode = 0 → |j - y| ≤ 1 / 2 ∧ (|j - y| = 1 / 2 → j % 2 = 0)) ∧ (mode = 1 → 0 ≤ j * y ∧ |(j : ℝ)| ≤ |y| ∧ |y| < |(j : ℝ)| + 1) ∧
    (mode = 2 → y ≤ j ∧ j < y + 1) ∧ (mode = 3 → j ≤ y ∧ y < j + 1) ∧
    (j < lo → r = (lo, flSAT + flNX)) ∧ (lo ≤ j → hi < j → r = (hi, flSAT + flNX)) ∧
    (lo ≤ j → j ≤ hi → r.1 = j ∧ (r.2 = 0 ↔ (j : ℝ) = y) ∧ (r.2 = flNX ↔ (j : ℝ) ≠ y)) := by
  obtain ⟨j, hne, htz, hup, hdn, hr, hfl⟩ := valToInt_rounds mode v x f lo hi hm h
  refine ⟨j, hne, htz, hup, hdn, fun h1 => ?_, fun h1 h2 => ?_, fun h1 h2 => ⟨?_, hfl h1 h2⟩⟩
  · rw [hr, if_pos h1]
  · rw [hr, if_neg (not_lt.mpr h1), if_pos h2]
  · rw [hr, if_neg (not_lt.mpr h1), if_neg (not_lt.mpr h2)]

/-- Settles O16: the instructions by the form of their results, the operations by the lemmas about rounding. -/
theorem floatInstructions : Obligations.FloatInstructions := by
  refine ⟨fun s gd d a b c f rm x hrm => ?_, fun s gd d a b f k rm src dst cond hrm => ?_, fun code mode a b x y hm => ?_⟩
  · simp only [fpCodeOf_eq, fpArg_eq]
    have hm : rm % 4 = rm := Nat.mod_eq_of_lt hrm
    refine ⟨?_, ?_, ?_, ?fma, ?_, ?_, ?_, ?_⟩
    case fma => exact givesLater_resultFl rfl (show semFma d a b f c rm s = _ by rw [semFma, hm]) (by decide)
    all_goals exact givesLater_resultFl rfl rfl (by decide)
  · simp only [fpCodeOf_eq, fpArg_eq]
    have hm : rm % 4 = rm := Nat.mod_eq_of_lt hrm
    refine ⟨givesLater_resultFl rfl rfl (by decide), ?_, ?_, ?_, ?_, ?_⟩
    · exact givesLater_resultFl rfl (show semFcvtFp d a src dst rm s = _ by rw [semFcvtFp, hm, fcvtArg]) (by decide)
    · exact givesLater_resultFl rfl (show semFcvtFromI64 d a k dst rm s = _ by rw [semFcvtFromI64, hm]) (by decide)
    · exact givesLater_resultFl rfl (show semFcvtToI64 d a k src rm s = _ by rw [semFcvtToI64, hm]; rfl) (by decide)
    · exact givesLater_resultFl rfl (show semFcvtToU64 d a k src rm s = _ by rw [semFcvtToU64, hm]; rfl) (by decide)
    · exact givesGLater_of rfl rfl (by decide) (ofNat_two_pow ..)
  · refine ⟨fun v => encodeF_rounds code mode v x hm, fun ha hb => ⟨?_, ?_, ?_, ?_, ?_⟩, fSqrt_rounds code mode a x hm, fun ha hc => ⟨?_, ?_⟩,
      fun src => fCvt_rounds src code mode a x hm, fun i f => intToF_rounds code mode i f hm, fun v w => ltV_real v w x y,
      fun v f lo hi => valToInt_integer f lo hi hm⟩
    · exact fAdd_rounds code mode a b x y hm ha hb
    · exact fSub_rounds code mode a b x y hm ha hb
    · exact fMul_rounds code mode a b x y hm ha hb
    · exact fDiv_rounds code mode a b x y hm ha hb
    · exact fun c z => fFma_rounds code mode a b c x y z hm ha hb
    · exact vspecF_reciprocal_rounds hc hm ha
    · exact vspecF_root_rounds hm ha

end Sys2Proof.Machine
end

section
/-! SUPPORT. The C slots that say where control goes (R138 to R143, R147, R149): the running core as its iteration ends, by the transfer that its
bundle leaves behind. -/

namespace Sys2Proof.Machine

/-! ## The end of an iteration -/

/-- SAFEDIST after a bundle that leaves the transfer x: it advances in task mode, but for SAFE and DONE, which set it to 0 (R88, R115). -/
def safeAfter (x : Xfer) (hm : Bool) (n : W32) : W32 :=
  match x with
  | .safe => 0
  | .done => 0
  | _ => if hm then n else n + 1
/-- The core c when its bundle has left the transfer x and the CSRs r, one issue step has passed and a cycle has counted. -/
def Core.stepped (c : Core) (x : Xfer) (r : Csr) : Core :=
  { c with
    settle := false, stalled := false, xfer := x, regs := c.age.regs, fly := c.age.fly
    csr := { r with safedist := safeAfter x c.hm r.safedist }
    tCyc := c.tCyc + 1, hCyc := if c.hm then c.hCyc + 1 else c.hCyc, preCyc := if c.preempt then c.preCyc + 1 else c.preCyc }
/-- The core c with the transfer x and the CSRs r, before that. -/
def Core.leaves (c : Core) (x : Xfer) (r : Csr) : Core := { c with settle := false, stalled := false, xfer := x, csr := r }

/-- One issue step passes over a core that has c's results. -/
theorem Core.age_of {d c : Core} (hr : d.regs = c.regs) (hf : d.fly = c.fly) : d.age = { d with regs := c.age.regs, fly := c.age.fly } := by
  rw [Core.age_eq, Core.age_regs_of hr hf, Core.age_fly_of hf]
theorem Core.countSafe_eq {d : Core} {x : Xfer} (hx : d.xfer = x) (c : Core) :
    d.countSafe c = { d with csr := { d.csr with safedist := safeAfter x c.hm d.csr.safedist } } := by
  unfold Core.countSafe
  split
  next h => cases hx.symm.trans h; rfl
  next h => cases hx.symm.trans h; rfl
  next hs hd =>
    have hn : safeAfter x c.hm d.csr.safedist = if c.hm then d.csr.safedist else d.csr.safedist + 1 := by
      unfold safeAfter
      split
      next => exact absurd hx hs
      next => exact absurd hx hd
      next => rfl
    rw [hn]
    by_cases h : c.hm = true
    · rw [if_pos h, if_pos h]
    · rw [if_neg h, if_neg h]
/-- n cycles count, also as the handler's where h, and since the pre-emption where p. -/
theorem Core.tick_of {d : Core} {h p : Bool} (hm : d.hm = h) (hp : d.preempt = p) (n : Nat) : d.tick n = { d with
    tCyc := d.tCyc + n, hCyc := if h then d.hCyc + n else d.hCyc, preCyc := if p then d.preCyc + n else d.preCyc } := by
  subst hm hp; rfl
theorem Core.leaves_stepped {c : Core} {r : Csr} (x : Xfer) (hr : r.status = c.csr.status) :
    ((c.leaves x r).age.countSafe c).tick 1 = c.stepped x r := by
  have hm : (c.leaves x r).hm = c.hm := congrArg (fun n : W32 => bitOf n.toNat 0) hr
  rw [Core.age_of (d := c.leaves x r) (c := c) rfl rfl, Core.countSafe_eq (x := x) rfl]
  exact (Core.tick_of (h := c.hm) (p := c.preempt) (by exact hm) (by rfl) 1).trans rfl

section
variable {i : Instr} {s : State} {g : Core → Core} {x : Xfer} {r : Csr}

/-- A C slot that changes the running core alone: its bundle commits, and the running core ends its iteration. -/
theorem onCore_ends (hc : i.cls = some .c) (hr : Runs i s) (hw : s.me.csr.safedist.toNat < 2048 ∨ (soleBundle i (semOf i)).watchdog s.me = false)
    (hi : (presentSlot i.slot i (semOf i)).illegal s = false) (hs : semOf i s = onCore g)
    (hg : g { s.me with settle := false, stalled := false, xfer := .none } = s.me.leaves x r) (hst : r.status = s.me.csr.status) :
    ∃ t, exec i s = .next t ∧ CoreOnly s t ∧
      t.me = (s.me.stepped x r).resolve s.me (soleBundle i (semOf i)) (nextBundle i s t) := by
  have hl : i.slot ≠ .l := by simp [Instr.slot, hc]
  have hv : ((onCore g).commit s.clean).me = s.me.leaves x r := by
    show (s.clean.updMe g).me = _
    rw [State.updMe_me, State.clean, State.updMe_me, hg]
  have hme := afterCommit_me i (semOf i) s ((onCore g).commit s.clean)
  rw [soleBundle_records_of_c hc, hv, Core.leaves_stepped x hst] at hme
  exact ⟨_, (exec_eq_runSole (by simp [hc]) s).trans (runSole_commit hr hw (.inl hl) hi hs ⟨rfl, rfl, rfl, rfl, rfl⟩),
    Bundle.ended_coreOnly (b := soleBundle i (semOf i)) (((CoreOnly.refl s).updMe _).updMe _), hme⟩
/-- A C slot that names the transfer x. -/
theorem transfer_ends (hc : i.cls = some .c) (hn : ∀ gd n x, i ≠ .safe gd n x) (hr : Runs i s)
    (hw : s.me.csr.safedist.toNat < 2048 ∨ (soleBundle i (semOf i)).watchdog s.me = false) (hs : semOf i s = transfer x) :
    ∃ t, exec i s = .next t ∧ CoreOnly s t ∧
      t.me = (s.me.stepped x s.me.csr).resolve s.me (soleBundle i (semOf i)) (nextBundle i s t) :=
  onCore_ends hc hr hw (illegal_sole_of_not_safe hn _ s) hs rfl rfl
end

/-! ## Transfers (R138 to R141) -/

/-- A result that lands in a core which has c's registers leaves what it leaves in c. -/
theorem Core.write_of {e c : Core} (h : e.regs = c.regs) (d : Dest) (v : Nat) (m : Option Nat) :
    e.write d v m = { e with regs := (c.write d v m).regs } := by
  rw [Core.write_eq, Core.write_regs_of h]
/-- The two stall cycles of a taken transfer, after the cycle that its bundle takes (R138). -/
theorem Core.tick_stepped {c e : Core} (hm : e.hm = c.hm) (hp : e.preempt = c.preempt) (ht : e.tCyc = c.tCyc + 1)
    (hh : e.hCyc = if c.hm then c.hCyc + 1 else c.hCyc) (hq : e.preCyc = if c.preempt then c.preCyc + 1 else c.preCyc) : e.tick 2 = { e with
      tCyc := c.tCyc + 1 + 2, hCyc := if c.hm then c.hCyc + 1 + 2 else c.hCyc, preCyc := if c.preempt then c.preCyc + 1 + 2 else c.preCyc } := by
  have add (h : Bool) (a b : Nat) : (if h then (if h then a + 1 else b) + 2 else if h then a + 1 else b) = if h then a + 1 + 2 else b := by
    cases h <;> rfl
  rw [Core.tick, hm, hp, ht, hh, hq, add, add]

section
variable {i : Instr} {s t : State} {b : Bundle} {next : Nat}

theorem moves_of_jump {pc : Nat} {lk : Option Dest} (ho : CoreOnly s t)
    (ht : t.me = (s.me.stepped (.jump pc lk) s.me.csr).resolve s.me b next) :
    Moves s t pc .target (csrTaken s) 2 (lk.map (fun d => (d, next))) := by
  obtain ⟨hrest, hothers⟩ := ho
  refine ⟨ht.trans ?_, hothers, hrest⟩
  cases lk with
  | none =>
    show (({ s.me.stepped (.jump pc none) s.me.csr with xfer := .none } : Core).tick 2).goTo pc .target = _
    refine (congrArg (Core.goTo · pc .target) (Core.tick_stepped (c := s.me) ?_ ?_ ?_ ?_ ?_)).trans ?_ <;> rfl
  | some d =>
    show ((({ s.me.stepped (.jump pc (some d)) s.me.csr with xfer := .none } : Core).write d next none).tick 2).goTo pc .target = _
    refine (congrArg (fun e : Core => (e.tick 2).goTo pc .target) (Core.write_of (c := s.me.age) (by rfl) d next none)).trans ?_
    refine (congrArg (Core.goTo · pc .target) (Core.tick_stepped (c := s.me) ?_ ?_ ?_ ?_ ?_)).trans ?_ <;> rfl
/-- LOOP with a count arms the loop and goes on behind its bundle. -/
theorem moves_of_loop {n lend : Nat} (hn : n ≠ 0) (ho : CoreOnly s t)
    (ht : t.me = (s.me.stepped (.loop n lend) s.me.csr).resolve s.me b next) :
    Moves s t next .seq { csrTaken s with lbeg := BitVec.ofNat 64 next, lend := BitVec.ofNat 64 lend, lcnt := BitVec.ofNat 32 n } 0 none := by
  have hz : ¬ (n == 0) = true := fun h => hn (beq_iff_eq.mp h)
  exact ⟨ht.trans (if_neg hz), ho.2, ho.1⟩
/-- LOOP without one goes on behind the loop. -/
theorem moves_of_loop_zero {lend : Nat} (ho : CoreOnly s t)
    (ht : t.me = (s.me.stepped (.loop 0 lend) s.me.csr).resolve s.me b next) :
    Moves s t lend .skip { csrTaken s with lbeg := BitVec.ofNat 64 next, lend := BitVec.ofNat 64 lend, lcnt := 0 } 2 none := by
  refine ⟨ht.trans ?_, ho.2, ho.1⟩
  refine (congrArg (Core.goTo · lend .skip) (Core.tick_stepped (c := s.me) ?_ ?_ ?_ ?_ ?_)).trans ?_ <;> rfl
end

/-- The target of a relative transfer, as a word (R138). -/
theorem targetJ_eq (pc d : Nat) (x : Option Nat) : targetJ pc d x = (BitVec.ofNat 64 pc + 4 * (match x with
    | none => (BitVec.ofNat 20 d).signExtend 64 | some e => (BitVec.ofNat 51 (e * 2 ^ 20 + d)).signExtend 64)).toNat := by
  have hd : BitVec.ofInt 64 (dispJ d x) = match x with
      | none => (BitVec.ofNat 20 d).signExtend 64 | some e => (BitVec.ofNat 51 (e * 2 ^ 20 + d)).signExtend 64 := by
    cases x with
    | none => exact w64_sext d (by decide)
    | some e => exact w64_sext _ (by decide)
  rw [targetJ, BitVec.ofInt_add, BitVec.ofInt_mul, hd]
  rfl

section
variable {i : Instr} {s : State}

theorem jumps_of {pc : Nat} {lk : Option Dest} (hc : i.cls = some .c) (hn : ∀ gd n x, i ≠ .safe gd n x) (hs : semOf i s = transfer (.jump pc lk))
    (hr : Ready i s) : GoesTo i s (fun _ => pc) .target (fun _ => csrTaken s) 2 (fun t => lk.map (fun d => (d, nextBundle i s t))) := by
  obtain ⟨t, hx, ho, ht⟩ := transfer_ends hc hn hr.1 (.inl hr.2) hs
  exact ⟨t, hx, moves_of_jump ho ht⟩
/-- LOOP and LOOPI, of a count and the address that their offset gives. -/
theorem arms_of {n : Nat} {lend : W64} (hc : i.cls = some .c) (hn : ∀ gd n x, i ≠ .safe gd n x) (hs : semOf i s = transfer (.loop n lend.toNat))
    (hr : Ready i s) :
    (n ≠ 0 → GoesTo i s (fun t => nextBundle i s t) .seq
      (fun t => { csrTaken s with lbeg := BitVec.ofNat 64 (nextBundle i s t), lend := lend, lcnt := BitVec.ofNat 32 n }) 0 (fun _ => none)) ∧
    (n = 0 → GoesTo i s (fun _ => lend.toNat) .skip
      (fun t => { csrTaken s with lbeg := BitVec.ofNat 64 (nextBundle i s t), lend := lend, lcnt := 0 }) 2 (fun _ => none)) := by
  obtain ⟨t, hx, ho, ht⟩ := transfer_ends hc hn hr.1 (.inl hr.2) hs
  have hw : BitVec.ofNat 64 lend.toNat = lend := (BitVec.ofNat_toNat ..).trans (BitVec.setWidth_eq _)
  refine ⟨fun h => ⟨t, hx, ?_⟩, fun h => ⟨t, hx, ?_⟩⟩
  · have hm := moves_of_loop h ho ht
    rwa [hw] at hm
  · subst h
    have hm := moves_of_loop_zero ho ht
    rwa [hw] at hm
end

/-- The LEND bundle of a LOOP, as a word (R140). -/
theorem lendOf_eq (pc o : Nat) (x : Option Nat) :
    lendOf pc o x = (BitVec.ofNat 64 (pc + 4 * match x with | none => o | some e => e * 256 + o)).toNat := by
  rw [lendOf, BitVec.toNat_ofNat]
  cases x with
  | none => rw [loopOff, Option.getD_none, Nat.zero_mul, Nat.zero_add]
  | some e => rfl

/-! ## Effects beside the cores -/

/-- A slot whose effect u touches no core and puts nothing in flight. -/
theorem doesTo_beside {i : Instr} {s u : State} {e : SlotEff} (ha : Asked i (semOf i) s) (hx : exec i s = runSole i (semOf i) s)
    (hs : semOf i s = e) (he : e.flt = none ∧ e.errs = [] ∧ e.wait = false ∧ e.late = [] ∧ e.ask = none)
    (hv : e.commit s.clean = { u with cores := s.clean.cores }) (hc : u.cores = s.cores) (hk : u.cur = s.cur) : DoesTo i s u := by
  have hcore (k : Nat) : u.core k = s.core k := congrArg (mget · k _) hc
  have hclean (k : Nat) : (e.commit s.clean).core k = s.clean.core k := (congrArg (fun t : State => t.core k) hv).trans rfl
  have hme : u.me = s.me := (hcore _).trans (congrArg s.core hk)
  refine doesTo_of hx ha.ready ha.free ha.legal hs he ?_ (hv ▸ rfl) (fun k hne => ?_) hk ⟨?_, ?_, ?_⟩
  · have hcm : (e.commit s.clean).me = s.clean.me := by
      rw [State.me, hclean, hv]
      exact congrArg s.clean.core hk
    rw [hcm, State.clean, State.updMe_me, hme]
  · rw [hclean, hcore]
    exact State.updMe_core_of_ne s _ hne
  · rw [hme]; exact ha.ready.1.1
  · rw [hme]
  · rw [hme]

/-! ## The loop's end (R141) -/

/-- A bundle at LEND whose instruction has no effect: LCNT counts down, and control goes back to LBEG unless LCNT was 1. -/
theorem idle_at_lend {s : State} {gd : Guard} (hl : s.me.csr.lcnt ≠ 0) (he : s.me.csr.lend.toNat = s.me.pc) (hr : Ready (.idle gd) s) :
    ∃ t, exec (.idle gd) s = .next t ∧ t.me.csr.lcnt = s.me.csr.lcnt - 1 ∧
      (s.me.csr.lcnt ≠ 1 → t.me.pc = s.me.csr.lbeg.toNat ∧ t.me.via = .target) ∧
      (s.me.csr.lcnt = 1 → t.me.pc = nextBundle (.idle gd) s t ∧ t.me.via = .seq) := by
  have ha : Asked (.idle gd) (semOf (.idle gd)) s := asked_of_ready (fun h => nomatch h) (fun _ _ _ h => nomatch h) hr
  obtain ⟨t, hx, hc, -⟩ := doesTo_beside (u := s) ha rfl rfl ⟨rfl, rfl, rfl, rfl, rfl⟩ rfl rfl rfl
  have hend : loopEnd s.me = true := Bool.and_eq_true_iff.mpr ⟨bne_iff_ne.mpr hl, beq_iff_eq.mpr he⟩
  refine ⟨t, hx, ?_, fun h => ?_, fun h => ?_⟩
  · rw [hc.core]
    exact if_pos hend
  · have hg : goesRound s = true := Bool.and_eq_true_iff.mpr ⟨hend, bne_iff_ne.mpr h⟩
    rw [hc.core]
    exact ⟨if_pos hg, if_pos hg⟩
  · have hg : ¬ goesRound s = true := by simp [goesRound, h]
    rw [hc.core]
    exact ⟨if_neg hg, if_neg hg⟩

/-- Settles O17: transfers by the lemmas about jumps and loops; a bundle at LEND by the commit of an instruction without effect. -/
theorem transfers : Obligations.Transfers := by
  refine ⟨?_, ?_, fun s gd gd2 a hl he => ⟨idle_at_lend hl he, fun hr => ?_⟩⟩
  · intro s gd d a disp x j go
    have hj : targetJ s.me.pc disp x = j := targetJ_eq ..
    have jump {i : Instr} {pc : Nat} {lk : Option Dest} (hc : i.cls = some .c) (hn : ∀ gd n x, i ≠ .safe gd n x)
        (hs : semOf i s = transfer (.jump pc lk)) : go i pc lk := jumps_of hc hn hs
    refine ⟨jump rfl (fun _ _ _ h => nomatch h) ?_, jump rfl (fun _ _ _ h => nomatch h) rfl, jump rfl (fun _ _ _ h => nomatch h) ?_,
      jump rfl (fun _ _ _ h => nomatch h) rfl, jump rfl (fun _ _ _ h => nomatch h) rfl⟩
    · rw [← hj]; rfl
    · rw [← hj]; rfl
  · intro s gd a n o x off lend arms
    have hl : lendOf s.me.pc o x = lend.toNat := lendOf_eq ..
    refine ⟨arms_of rfl (fun _ _ _ h => nomatch h) ?_, arms_of rfl (fun _ _ _ h => nomatch h) ?_⟩
    · rw [← hl]; rfl
    · rw [← hl]; rfl
  · obtain ⟨t, hx, hm⟩ := jumps_of (i := .bri gd2 a) rfl (fun _ _ _ h => nomatch h) rfl hr
    refine ⟨t, hx, ?_, ?_⟩
    · rw [hm.core]; rfl
    · rw [hm.core]

end Sys2Proof.Machine
end

section
/-! SUPPORT. Safe points, the end of a task, traps that a program takes and the return from its handler (R142, R143, R147, R149). -/

namespace Sys2Proof.Machine

/-! ## SAFE and DONE, which the safe-distance watchdog lets pass (R88) -/

theorem watchdog_of_safe (gd : Guard) (n : Nat) (x : Option Nat) (sem : State → SlotEff) (c : Core) :
    (soleBundle (.safe gd n x) sem).watchdog c = false := by
  simp [Bundle.watchdog, soleBundle, presentSlot]
theorem watchdog_of_done (gd : Guard) (sem : State → SlotEff) (c : Core) : (soleBundle (.done gd) sem).watchdog c = false := by
  simp [Bundle.watchdog, soleBundle, presentSlot]
/-- A slot that faults, in a bundle that the watchdog lets pass. -/
theorem traps_of_faults_unwatched {i : Instr} {sem : State → SlotEff} {s : State} {code cause addr : Nat} (hx : exec i s = runSole i sem s)
    (hr : Runs i s) (hl : AcqFree i s) (hi : (presentSlot i.slot i sem).illegal s = false) (hw : (soleBundle i sem).watchdog s.me = false)
    (hs : sem s = faults code cause addr) : Traps i s code cause addr := by
  obtain ⟨h1, h2, h3, h4⟩ := hr
  have hst : (s.me.settle && !s.me.loads.isEmpty) = false := by
    rcases h2 with h | h <;> simp [h]
  have hef := (presentSlot_eff (sem := sem) h3 h4 hl).trans hs
  have hrun : runSole i sem s = .next (Bundle.iterate (soleBundle i sem) s) := by
    have hill : (soleBundle i sem).slots.any (fun r => r.illegal s) = false := by simp [soleBundle, hi]
    simp only [runSole, Bundle.run, h1, hst, hill, hw, bne_self_eq_false, Bool.false_eq_true, if_false]
  have hit : Bundle.iterate (soleBundle i sem) s = (s.updMe (fun c => c.faultAt ⟨code, cause, addr⟩ (2 ^ i.slot.bit))).countTrap s.me := by
    simp only [Bundle.iterate, soleBundle, List.map_cons, List.map_nil, hef, faults, List.findSome?_cons, maskOf, List.foldl_cons,
      List.foldl_nil, Option.isSome_some, if_true, Nat.zero_add]
    rfl
  obtain ⟨ho, hme⟩ := coreOnly_trap s (fun c => c.faultAt ⟨code, cause, addr⟩ (2 ^ i.slot.bit)) s.me
  exact ⟨_, hx.trans (hrun.trans (congrArg _ hit)), ho, hme⟩

theorem liveCount_eq (s : State) : liveCount s = (s.codes.find? (fun e => e.1 == s.me.task.codeh)).elim 0 (fun e => e.2.live.length) := by
  unfold liveCount
  cases s.codes.find? (fun e => e.1 == s.me.task.codeh) <;> rfl
theorem extLow_eq (x : Option Nat) (n : Nat) : extLow x n = match x with | none => n | some e => e * 256 + n := by
  cases x with
  | none => rw [extLow, Option.getD_none, Nat.zero_mul, Nat.zero_add]
  | some e => rfl
theorem illegal_safe_of_no_index {gd : Guard} {n : Nat} {x : Option Nat} {s : State} (h : liveCount s ≤ extLow x n ∨ extLow x n = 0xFFFF)
    (sl : Slot) (sem : State → SlotEff) : (presentSlot sl (.safe gd n x) sem).illegal s = true := by
  simpa [SlotRun.illegal, presentSlot] using h

/-! ## Control after an iteration without a taken transfer -/

theorem Core.fallThrough_eq (c c0 : Core) (next : Nat) : c.fallThrough c0 next false = { c with
    pc := if loopEnd c0 && c0.csr.lcnt != 1 then c0.csr.lbeg.toNat else next
    via := if loopEnd c0 && c0.csr.lcnt != 1 then .target else .seq
    iter := 0
    csr := { c.csr with lcnt := if loopEnd c0 then c0.csr.lcnt - 1 else c.csr.lcnt } } := by
  unfold Core.fallThrough
  by_cases hl : loopEnd c0 = true <;> by_cases h1 : (c0.csr.lcnt == 1) = true
  all_goals simp only [hl, h1, bne, Core.goTo, if_true, if_false, Bool.false_eq_true, Bool.true_and, Bool.false_and, Bool.not_true, Bool.not_false]

/-- What results in flight leave when all of them land is for the registers and those results to say. -/
theorem Core.settleFly_regs_of {c d : Core} (h : c.regs = d.regs) (g : c.fly = d.fly) : c.settleFly.regs = d.settleFly.regs := by
  have hl : ∀ (l : List Nat) (x y : Core), x.regs = y.regs →
      (l.foldl (fun d n => d.landAll (c.fly.filter (fun f => f.left == n))) x).regs =
        (l.foldl (fun d n => d.landAll (c.fly.filter (fun f => f.left == n))) y).regs := by
    intro l
    induction l with
    | nil => exact fun _ _ h => h
    | cons n l ih => exact fun x y h => ih _ _ (Core.landAll_regs_of h _)
  simp only [Core.settleFly, ← g]
  exact hl _ c d h

/-! ## SAFE and DONE -/

/-- The CSRs that SAFE leaves of c's, before SAFEDIST is set and the bundle ends. -/
def Csr.safeAt (r : Csr) (ix : Nat) : Csr := { r with safeix := BitVec.ofNat 32 ix }
/-- The core after a SAFE, where no pre-emption is pending. -/
def Core.safePoint (c : Core) (ix next : Nat) : Core := ({ c.stepped .safe (c.csr.safeAt ix) with xfer := .none } : Core).fallThrough c next false

theorem Core.safePoint_csr (c : Core) (ix next : Nat) : (c.safePoint ix next).csr = { c.csr with
    safeix := BitVec.ofNat 32 ix, safedist := 0, lcnt := if loopEnd c then c.csr.lcnt - 1 else c.csr.lcnt } := by
  rw [Core.safePoint, Core.fallThrough_eq]; rfl
theorem Core.safePoint_goes (c : Core) (ix next : Nat) :
    (c.safePoint ix next).pc = (if loopEnd c && c.csr.lcnt != 1 then c.csr.lbeg.toNat else next) ∧ (c.safePoint ix next).iter = 0 := by
  rw [Core.safePoint, Core.fallThrough_eq]; exact ⟨rfl, rfl⟩
theorem Core.safePoint_results (c : Core) (ix next : Nat) : (c.safePoint ix next).run = c.run ∧
    (c.safePoint ix next).regs = c.age.regs ∧ (c.safePoint ix next).fly = c.age.fly := by
  rw [Core.safePoint, Core.fallThrough_eq]; exact ⟨rfl, rfl, rfl⟩
theorem Core.resolve_safe (c : Core) (ix : Nat) (b : Bundle) (next : Nat) : (c.stepped .safe (c.csr.safeAt ix)).resolve c b next =
    if c.preempt then (c.safePoint ix next).beginSave false false else c.safePoint ix next := by
  have hp : (c.safePoint ix next).preempt = c.preempt := by rw [Core.safePoint, Core.fallThrough_eq]; rfl
  rw [← hp]; rfl
theorem Core.beginSave_eq (c : Core) (full don : Bool) : c.beginSave full don = { c with
    regs := c.settleFly.regs, fly := [], run := .saving full don false, stalled := false, hostAt := .none, tcWait := none, tcFlt := none } := by
  rw [Core.beginSave, Core.settleFly_eq]

section
variable {s : State} {gd : Guard} {i : Nat} {x : Option Nat}

theorem safe_traps_of_hm (hn : extLow x i < liveCount s) (hx : extLow x i ≠ 0xFFFF) (hr : Runs (.safe gd i x) s) (hm : s.me.hm = true) :
    Traps (.safe gd i x) s 4 2 0 := by
  refine traps_of_faults_unwatched (sem := semOf (.safe gd i x)) rfl hr (.inl fun h => nomatch h) (illegal_safe_of_index hn hx ..)
    (watchdog_of_safe ..) ?_
  exact if_pos hm
theorem safe_commits (hn : extLow x i < liveCount s) (hx : extLow x i ≠ 0xFFFF) (hr : Runs (.safe gd i x) s) (hm : s.me.hm = false) :
    ∃ t, exec (.safe gd i x) s = .next t ∧ CoreOnly s t ∧
      t.me.csr = { s.me.csr with safeix := BitVec.ofNat 32 (extLow x i), safedist := 0,
                                 lcnt := if loopEnd s.me then s.me.csr.lcnt - 1 else s.me.csr.lcnt } ∧
      t.me.pc = (if goesRound s then s.me.csr.lbeg.toNat else nextBundle (.safe gd i x) s t) ∧ t.me.iter = 0 ∧
      (s.me.preempt = false → t.me.run = .task ∧ t.me.regs = s.me.age.regs ∧ t.me.fly = s.me.age.fly) ∧
      (s.me.preempt = true → t.me.run = .saving false false false ∧ t.me.regs = s.me.age.settleFly.regs ∧ t.me.fly = []) := by
  have hs : semOf (.safe gd i x) s =
      onCore (fun c => { c with xfer := .safe, csr := { c.csr with safeix := BitVec.ofNat 32 (extLow x i) } }) :=
    if_neg (Bool.eq_false_iff.mp hm)
  obtain ⟨t, hx, ho, ht⟩ := onCore_ends (x := .safe) (r := s.me.csr.safeAt (extLow x i)) rfl hr (.inr (watchdog_of_safe ..))
    (illegal_safe_of_index hn hx ..) hs rfl rfl
  rw [Core.resolve_safe] at ht
  obtain ⟨hpc, hiter⟩ := s.me.safePoint_goes (extLow x i) (nextBundle (.safe gd i x) s t)
  obtain ⟨hrun, hregs, hfly⟩ := s.me.safePoint_results (extLow x i) (nextBundle (.safe gd i x) s t)
  have hcsr := s.me.safePoint_csr (extLow x i) (nextBundle (.safe gd i x) s t)
  refine ⟨t, hx, ho, ?_⟩
  rw [ht]
  by_cases hp : s.me.preempt = true
  · rw [if_pos hp, Core.beginSave_eq]
    refine ⟨hcsr, hpc, hiter, fun h => absurd (hp.symm.trans h) (by decide), fun _ => ⟨rfl, ?_, rfl⟩⟩
    exact Core.settleFly_regs_of hregs hfly
  · rw [if_neg hp]
    exact ⟨hcsr, hpc, hiter, fun _ => ⟨hrun.trans hr.1, hregs, hfly⟩, fun h => absurd h hp⟩
theorem done_begins (hr : Runs (.done gd) s) : ∃ t, exec (.done gd) s = .next t ∧ CoreOnly s t ∧ t.me.run = .doneWait ∧
    t.me.csr = { s.me.csr with status := 0, safedist := 0 } ∧ t.me.regs = s.me.age.regs ∧ t.me.fly = s.me.age.fly ∧
    t.me.toks = s.me.toks ∧ t.me.cmds = s.me.cmds ∧ t.me.pc = s.me.pc := by
  obtain ⟨t, hx, ho, ht⟩ := transfer_ends (i := .done gd) (x := .done) rfl (fun _ _ _ h => nomatch h) hr (.inr (watchdog_of_done ..)) rfl
  refine ⟨t, hx, ho, ?_⟩
  rw [ht]
  exact ⟨rfl, rfl, rfl, rfl, rfl, rfl, rfl⟩
end

/-- Settles O18: SAFE by its index and the mode, DONE by the end of its iteration. -/
theorem safePointsAndTaskEnds : Obligations.SafePointsAndTaskEnds := by
  refine ⟨fun s gd i x => ?_, fun s gd => done_begins⟩
  intro ix n
  have hix : extLow x i = ix := extLow_eq ..
  have hn : liveCount s = n := liveCount_eq s
  rw [← hix, ← hn]
  exact ⟨fun h h1 h2 => traps_of_illegal rfl h1 h2 (illegal_safe_of_no_index h ..), safe_traps_of_hm, safe_commits⟩

/-! ## TRAP and ERET -/

/-- What a trap leaves of a core in task mode whose task has a vector (R292). -/
theorem Core.takeTrap_of_vector {c : Core} (hm : c.hm = false) (hv : c.csr.tvec ≠ 0) (t : TrapRec) (dstep : Bool) (stop : Nat) :
    c.takeTrap t dstep stop = { c with
      run := .task, pc := c.csr.tvec.toNat, via := .target, iter := 0, regs := c.settleFly.regs, fly := []
      hCyc := 2, tCyc := c.tCyc + 2, preCyc := if c.preempt then c.preCyc + 2 else c.preCyc, xfer := .none, settle := true, stalled := false
      csr := { c.csr with
        epc := BitVec.ofNat 64 t.epc, repix := BitVec.ofNat 32 t.repix, fltmask := BitVec.ofNat 8 t.fltmask, fltcode := t.fltcode
        fltaddr := BitVec.ofNat 64 t.fltaddr, status := BitVec.ofNat 32 (1 + 2 * dstep.toNat) } } := by
  have h : ¬ (c.hm || c.csr.tvec == 0) = true := by
    rw [hm, Bool.false_or]
    exact fun h => hv (beq_iff_eq.mp h)
  rw [Core.takeTrap, if_neg h, Core.settleFly_eq]

/-- The core that a TRAP of the code n leaves for its handler. -/
def Core.trapPoint (c : Core) (n next : Nat) : Core := ({ c.stepped (.trap n) c.csr with xfer := .none } : Core).fallThrough c next false
theorem Core.trapPoint_eq (c : Core) (n next : Nat) : c.trapPoint n next = { c.stepped (.trap n) c.csr with
    xfer := .none
    pc := if loopEnd c && c.csr.lcnt != 1 then c.csr.lbeg.toNat else next
    via := if loopEnd c && c.csr.lcnt != 1 then .target else .seq
    iter := 0
    csr := { c.csr with
      safedist := if c.hm then c.csr.safedist else c.csr.safedist + 1
      lcnt := if loopEnd c then c.csr.lcnt - 1 else c.csr.lcnt } } := Core.fallThrough_eq ..
theorem Core.resolve_trap (c : Core) (n : Nat) (b : Bundle) (next : Nat) : (c.stepped (.trap n) c.csr).resolve c b next =
    (c.trapPoint n next).takeTrap ⟨(c.trapPoint n next).pc, 0, 0x80, 2, 0x8000 + n, false, 0, c.pc⟩ false c.pc := rfl

section
variable {s : State} {gd : Guard} {c : Nat} {x : Option Nat}

theorem trap_enters (hm : s.me.hm = false) (hr : Ready (.trap gd c x) s) : ∃ t, exec (.trap gd c x) s = .next t ∧ CoreOnly s t ∧
    (s.me.csr.tvec ≠ 0 → t.me.run = .task ∧ t.me.pc = s.me.csr.tvec.toNat ∧ t.me.iter = 0 ∧ t.me.settle = true ∧
      t.me.regs = s.me.age.settleFly.regs ∧ t.me.fly = [] ∧
      t.me.csr = { s.me.csr with
        epc := BitVec.ofNat 64 (if goesRound s then s.me.csr.lbeg.toNat else nextBundle (.trap gd c x) s t), repix := 0, fltmask := 0x80,
        fltcode := BitVec.ofNat 32 (2 + 0x10000 * (0x8000 + extLow x c)), fltaddr := BitVec.ofNat 64 s.me.pc, status := 1,
        safedist := s.me.csr.safedist + 1, lcnt := if loopEnd s.me then s.me.csr.lcnt - 1 else s.me.csr.lcnt }) ∧
    (s.me.csr.tvec = 0 → t.me.run = .aborting ∧ t.me.abort = some ⟨2, 0x8000 + extLow x c, s.me.pc, s.me.pc⟩) := by
  obtain ⟨t, hx, ho, ht⟩ := transfer_ends (i := .trap gd c x) (x := .trap (extLow x c)) rfl (fun _ _ _ h => nomatch h) hr.1 (.inl hr.2)
    (if_neg (Bool.eq_false_iff.mp hm))
  rw [Core.resolve_trap] at ht
  have hpt := s.me.trapPoint_eq (extLow x c) (nextBundle (.trap gd c x) s t)
  have hd : (s.me.trapPoint (extLow x c) (nextBundle (.trap gd c x) s t)).hm = false := by rw [hpt]; exact hm
  have hv : (s.me.trapPoint (extLow x c) (nextBundle (.trap gd c x) s t)).csr.tvec = s.me.csr.tvec := by rw [hpt]
  refine ⟨t, hx, ho, fun h => ?_, fun h => ?_⟩
  · rw [Core.takeTrap_of_vector hd (by rw [hv]; exact h)] at ht
    rw [ht]
    refine ⟨rfl, by rw [hv], rfl, rfl, ?_, rfl, ?_⟩
    · exact Core.settleFly_regs_of (by rw [hpt]; rfl) (by rw [hpt]; rfl)
    · rw [hpt, if_neg (Bool.eq_false_iff.mp hm)]
      simp only [TrapRec.fltcode]
      rfl
  · rw [Core.takeTrap_aborts _ _ _ _ (.inr (hv.trans h))] at ht
    rw [ht]
    exact ⟨rfl, rfl⟩
theorem eret_returns (hm : s.me.hm = true) (hr : Ready (.eret gd) s) : ∃ t, exec (.eret gd) s = .next t ∧ CoreOnly s t ∧
    t.me.pc = s.me.csr.epc.toNat ∧ t.me.iter = s.me.csr.repix.toNat ∧ t.me.csr = { s.me.csr with status := 0 } ∧
    t.me.run = (if bitOf s.me.csr.status.toNat 1 then .doneWait else .task) ∧
    t.me.regs = s.me.age.regs ∧ t.me.fly = s.me.age.fly ∧ t.me.tCyc = s.me.tCyc + 3 := by
  obtain ⟨t, hx, ho, ht⟩ := transfer_ends (i := .eret gd) (x := .eret) rfl (fun _ _ _ h => nomatch h) hr.1 (.inl hr.2) (if_pos hm)
  refine ⟨t, hx, ho, ?_⟩
  rw [ht]
  refine ⟨rfl, rfl, ?_, rfl, rfl, rfl, rfl⟩
  have hs : safeAfter .eret s.me.hm s.me.csr.safedist = s.me.csr.safedist := if_pos hm
  show ({ s.me.csr with safedist := safeAfter .eret s.me.hm s.me.csr.safedist, status := 0 } : Csr) = _
  rw [hs]
end

/-- Settles O21: each instruction faults in one mode, and ends its iteration by its transfer in the other. -/
theorem trapInstructionAndReturn : Obligations.TrapInstructionAndReturn := by
  refine ⟨fun s gd c x => ?_, fun s gd => ⟨fun hm hr => ?_, eret_returns⟩⟩
  · intro code i after
    have hcode : extLow x c = code := extLow_eq ..
    rw [← hcode]
    refine ⟨fun hm hr => ?_, trap_enters⟩
    exact traps_of_faults rfl (asked_of_ready (fun h => nomatch h) (fun _ _ _ h => nomatch h) hr) (if_pos hm)
  · exact traps_of_faults rfl (asked_of_ready (fun h => nomatch h) (fun _ _ _ h => nomatch h) hr) (if_neg (Bool.eq_false_iff.mp hm))

end Sys2Proof.Machine
end

section
/-! SUPPORT. Waits (R144 to R146, R148): what WAITK and POLLK find of each token, and the accesses that a FENCE or SYSC waits for. -/

namespace Sys2Proof.Machine

/-- A C slot other than SAFE is decided when it is ready. -/
theorem asked_cSlot {i : Instr} {s : State} (hc : i.cls = some .c) (hn : ∀ gd n x, i ≠ .safe gd n x) (hr : Ready i s) : Asked i (semOf i) s :=
  asked_of_ready (by simp [Instr.slot, hc]) hn hr

/-! ## Tokens (R144) -/

theorem Core.useToks_eq (c : Core) (l : List Nat) : c.useToks l = { c with toks := (c.useToks l).toks } :=
  List.foldlRecOn l _ (motive := fun d : Core => d = { c with toks := d.toks }) rfl (fun d hd t _ => by rw [hd]; rfl)
/-- The marks of the last iteration have no part in it. -/
theorem Core.useToks_clean (c : Core) (l : List Nat) :
    ({ c with settle := false, stalled := false, xfer := .none } : Core).useToks l =
      { c.useToks l with settle := false, stalled := false, xfer := .none } := by
  induction l generalizing c with
  | nil => rfl
  | cons t l ih => exact ih (c.setTok t { c.tok t with used := true })

theorem any_st_eq_true {c : Core} {l : List Nat} {x : TokSt} : l.any (fun t => (c.tok t).st == x) = true ↔ ∃ n ∈ l, (c.tok n).st = x := by
  simp
theorem any_st_eq_false {c : Core} {l : List Nat} {x : TokSt} : l.any (fun t => (c.tok t).st == x) = false ↔ ∀ n ∈ l, (c.tok n).st ≠ x := by
  simp
theorem filter_st_eq_nil {c : Core} {l : List Nat} {x : TokSt} (h : ∀ n ∈ l, (c.tok n).st ≠ x) : l.filter (fun t => (c.tok t).st == x) = [] := by
  simpa using h

section
variable {i : Instr} {s : State} {l : List Nat}

theorem waitOn_of_free (h : ∃ n ∈ l, (s.me.tok n).st = .free) : waitOn l s = faults 0x0E 1 0 := if_pos (any_st_eq_true.mpr h)
theorem waitOn_of_no_free (h : ∀ n ∈ l, (s.me.tok n).st ≠ .free) : waitOn l s =
    { wait := l.any (fun t => (s.me.tok t).st == .pending), late := l.filter (fun t => (s.me.tok t).st == .error)
      commit := fun s => s.updMe (fun c => c.useToks l) } :=
  if_neg (Bool.eq_false_iff.mp (any_st_eq_false.mpr h))
theorem waitOn_of_done (h : ∀ n ∈ l, (s.me.tok n).st = .done) : waitOn l s = onCore (fun c => c.useToks l) := by
  have hne (x : TokSt) (hx : .done ≠ x) : ∀ n ∈ l, (s.me.tok n).st ≠ x := fun n hn => by rw [h n hn]; exact hx
  rw [waitOn_of_no_free (hne _ (by decide)), any_st_eq_false.mpr (hne _ (by decide)), filter_st_eq_nil (hne _ (by decide))]
  rfl

/-- An instruction that waits on the tokens of l, by the states they are in. -/
theorem waits_on (hx : exec i s = runSole i (semOf i) s) (ha : Ready i s → Asked i (semOf i) s) (hs : semOf i s = waitOn l s) :
    ((∃ n ∈ l, (s.me.tok n).st = .free) → Ready i s → Traps i s 0x0E 1 0) ∧
    ((∀ n ∈ l, (s.me.tok n).st ≠ .free) → (∃ n ∈ l, (s.me.tok n).st = .pending) → Ready i s → Stalls i s) ∧
    (∀ n ∈ l, (∀ m ∈ l, (s.me.tok m).st = .done ∨ (s.me.tok m).st = .error) → (s.me.tok n).st = .error →
      (∀ m ∈ l, (s.me.tok m).st = .error → n ≤ m) → Ready i s → Delivers i s n) ∧
    ((∀ n ∈ l, (s.me.tok n).st = .done) → Ready i s →
      DoesTo i s (s.updMe (fun c => l.foldl (fun c n => c.setTok n { c.tok n with used := true }) c))) := by
  refine ⟨fun h hr => ?_, fun h hp hr => ?_, fun n hn h he hl hr => ?_, fun h hr => ?_⟩
  · exact traps_of_faults hx (ha hr) (hs.trans (waitOn_of_free h))
  · have hw := hs.trans (waitOn_of_no_free h)
    exact stalls_of hx (ha hr) (by rw [hw]) (.inl (by rw [hw])) (by rw [hw]; exact any_st_eq_true.mpr hp) (by rw [hw]; rfl)
  · have hne (x : TokSt) (hd : x ≠ .done) (he : x ≠ .error) : ∀ m ∈ l, (s.me.tok m).st ≠ x := fun m hm hx => by
      rcases h m hm with h | h
      · exact hd (hx.symm.trans h)
      · exact he (hx.symm.trans h)
    have hw := hs.trans (waitOn_of_no_free (hne .free (by decide) (by decide)))
    refine delivers_of_late hx (ha hr) (by rw [hw]) (by rw [hw]) (by rw [hw]; exact any_st_eq_false.mpr (hne .pending (by decide) (by decide))) ?_
    rw [hw]
    exact lowest_of (List.mem_filter.mpr ⟨hn, beq_iff_eq.mpr he⟩) (fun m hm => hl m (List.mem_filter.mp hm).1 (beq_iff_eq.mp (List.mem_filter.mp hm).2))
  · refine doesTo_onCore (g := fun c => c.useToks l) hx (ha hr) (hs.trans (waitOn_of_done h)) (Core.useToks_clean ..) ?_
    rw [Core.useToks_eq]
    exact ⟨rfl, rfl, rfl, rfl, rfl⟩
end

/-! ## Polls (R145) -/

theorem semPollk_of_free {s : State} {a : Nat} (h : (s.me.tok a).st = .free) (d : Nat) : semPollk d a s = faults 0x0E 1 0 := by
  rw [semPollk, h]; rfl
theorem semPollkErr_of_free {s : State} {a : Nat} (h : (s.me.tok a).st = .free) (d : Nat) : semPollkErr d a s = faults 0x0E 1 0 := by
  rw [semPollkErr, h]; rfl
theorem semPollk_of_ne_free {s : State} {a : Nat} (h : (s.me.tok a).st ≠ .free) (d : Nat) :
    semPollk d a s = pRes s.me d (decide ((s.me.tok a).st = .done ∨ (s.me.tok a).st = .error)) := by
  unfold semPollk
  generalize (s.me.tok a).st = st at h
  cases st with
  | free => exact absurd rfl h
  | _ => rfl
theorem semPollkErr_of_ne_free {s : State} {a : Nat} (h : (s.me.tok a).st ≠ .free) (d : Nat) :
    semPollkErr d a s = pRes s.me d (decide ((s.me.tok a).st = .error)) := by
  unfold semPollkErr
  generalize (s.me.tok a).st = st at h
  cases st with
  | free => exact absurd rfl h
  | _ => rfl
/-- A C slot whose meaning is one p result. -/
theorem givesP_cSlot {i : Instr} {s : State} {d : Nat} {v : Bool} (hc : i.cls = some .c) (hn : ∀ gd n x, i ≠ .safe gd n x)
    (hs : semOf i s = pRes s.me d v) : GivesP i s d v := by
  intro hr
  have ha := asked_cSlot hc hn hr
  exact gives_of (exec_eq_runSole (by simp [hc]) s) ha.ready ha.free ha.legal hs

/-- Settles O19: WAITK is a wait on its tokens, and POLLK one result or a fault. -/
theorem tokenWaitsAndPolls : Obligations.TokenWaitsAndPolls := by
  refine ⟨fun s gd a b _ => ⟨?_, ?_⟩, fun s gd d a => ⟨fun h => ⟨fun hr => ?_, fun hr => ?_⟩, fun h => ⟨?_, ?_⟩⟩⟩
  · exact waits_on rfl (asked_cSlot rfl (fun _ _ _ h => nomatch h)) rfl
  · exact waits_on rfl (asked_cSlot rfl (fun _ _ _ h => nomatch h)) rfl
  · exact traps_of_faults rfl (asked_cSlot rfl (fun _ _ _ h => nomatch h) hr) (semPollk_of_free h d)
  · exact traps_of_faults rfl (asked_cSlot rfl (fun _ _ _ h => nomatch h) hr) (semPollkErr_of_free h d)
  · exact givesP_cSlot rfl (fun _ _ _ h => nomatch h) (semPollk_of_ne_free h d)
  · exact givesP_cSlot rfl (fun _ _ _ h => nomatch h) (semPollkErr_of_ne_free h d)

/-! ## Fences and service calls (R146, R148, R235) -/

/-- A C slot that waits while w, and then does f beside the cores. -/
theorem fences_of {i : Instr} {s u : State} {w : Bool} {f : State → State} {still : Prop} (hc : i.cls = some .c)
    (hn : ∀ gd n x, i ≠ .safe gd n x) (hs : semOf i s = { wait := w, commit := f }) (hw : w = false ↔ still)
    (hf : f s.clean = { u with cores := s.clean.cores }) (hcores : u.cores = s.cores) (hcur : u.cur = s.cur) :
    (still → Ready i s → DoesTo i s u) ∧ (¬ still → Ready i s → Stalls i s) := by
  have hx : exec i s = runSole i (semOf i) s := exec_eq_runSole (by simp [hc]) s
  refine ⟨fun h hr => ?_, fun h hr => ?_⟩
  · exact doesTo_beside (asked_cSlot hc hn hr) hx hs ⟨rfl, rfl, hw.mpr h, rfl, rfl⟩ hf hcores hcur
  · have hw : w = true := by rwa [← hw, Bool.not_eq_false] at h
    exact stalls_of hx (asked_cSlot hc hn hr) (by rw [hs]) (.inl (by rw [hs])) (by rw [hs]; exact hw) (by rw [hs]; rfl)

theorem loads_wait {s : State} : (!s.me.loads.isEmpty) = false ↔ s.me.loads = [] := by simp
theorem systemDone_iff (s : State) : s.systemDone s.cur = true ↔ s.me.mq = [] ∧ s.relOpen s.cur = false := by
  simp [State.systemDone, State.me]
theorem deviceDone_iff (s : State) : s.deviceDone s.cur = true ↔ (∀ o ∈ s.me.mq, o.atHost ≠ none) ∧ s.relOpen s.cur = false := by
  simp [State.deviceDone, State.me, Option.isSome_iff_ne_none]
theorem clusterDone_iff (c : Core) : c.clusterDone = true ↔ ∀ o ∈ c.mq, o.accepted ≠ none := by
  simp [Core.clusterDone, Option.isSome_iff_ne_none]

/-! ### The record of SYSC (R148, R300) -/

/-- s with the cores l. -/
def State.withCores (s : State) (l : SMap Core) : State := { s with cores := l }
theorem State.withCores_part (s : State) (l : SMap Core) (p : Nat) : (s.withCores l).part p = s.part p := rfl
theorem State.withCores_dev (s : State) (l : SMap Core) : (s.withCores l).dev = s.dev := rfl
theorem State.withCores_wrBytes (s : State) (l : SMap Core) (a : Nat) (b : List Byte) : (s.withCores l).wrBytes a b = (s.wrBytes a b).withCores l := rfl
theorem State.withCores_updPart (s : State) (l : SMap Core) (p : Nat) (f : Part → Part) :
    (s.withCores l).updPart p f = (s.updPart p f).withCores l := rfl
theorem State.withCores_msix (s : State) (l : SMap Core) (fn v : Nat) : (s.withCores l).msix fn v = (s.msix fn v).withCores l := by
  unfold State.msix
  generalize Nat.blt v _ = b
  cases b <;> rfl
/-- A fault record's way into its ring neither reads nor changes the cores. -/
theorem State.withCores_frqPost (s : State) (l : SMap Core) (r : FrqRec) : (s.withCores l).frqPost r = (s.frqPost r).withCores l := by
  simp only [State.frqPost, State.withCores_part, State.withCores_dev, State.withCores_wrBytes, State.withCores_updPart, State.withCores_msix,
    apply_ite (State.withCores · l)]
theorem State.frqPost_cores (s : State) (r : FrqRec) : (s.frqPost r).cores = s.cores := by
  simp only [State.frqPost, apply_ite State.cores, State.msix_cores, State.updPart_cores, State.wrBytes_cores, ite_self]
theorem State.frqPost_cur (s : State) (r : FrqRec) : (s.frqPost r).cur = s.cur := by
  have hm (t : State) (fn v : Nat) : (t.msix fn v).cur = t.cur := by rw [State.msix_eq]
  simp only [State.frqPost, apply_ite State.cur, hm, State.updPart_cur, State.wrBytes_cur, ite_self]

/-- The 39 bits of a service number. -/
theorem toNat_serviceNumber (n : Nat) (x : Option Nat) : (BitVec.ofInt 39 (immB n x)).toNat = (immWord n x).toNat % 2 ^ 39 := by
  have h := (immWord n x).isLt
  rw [immB_eq, BitVec.toNat_ofInt, BitVec.toInt_eq_toNat_cond]
  split <;> omega

/-- Settles O20: each is a slot that waits, and whose effect then is none, the drain of the write queue, or the record. -/
theorem fencesAndServiceCalls : Obligations.FencesAndServiceCalls := by
  refine ⟨fun s gd => ?_, fun s gd a n x => ?_⟩
  · intro fence noRel
    refine ⟨?_, ?_, ?_, ?_⟩
    · exact fences_of rfl (fun _ _ _ h => nomatch h) rfl loads_wait rfl rfl rfl
    · refine fences_of rfl (fun _ _ _ h => nomatch h) rfl ?_ rfl rfl rfl
      rw [Bool.or_eq_false_iff, Bool.or_eq_false_iff, loads_wait, Bool.not_eq_false', clusterDone_iff, and_assoc]
    · refine fences_of rfl (fun _ _ _ h => nomatch h) rfl ?_ rfl rfl rfl
      rw [Bool.or_eq_false_iff, loads_wait, Bool.not_eq_false', deviceDone_iff]
    · refine fences_of rfl (fun _ _ _ h => nomatch h) rfl ?_ rfl rfl rfl
      rw [Bool.or_eq_false_iff, loads_wait, Bool.not_eq_false', systemDone_iff]
  · intro i still
    have hrec (m : Nat) : serviceRec s.clean m (s.me.rg a).toNat = serviceRec s m (s.me.rg a).toNat := by
      simp only [serviceRec, State.clean, State.updMe_me]
      rfl
    refine fences_of (w := !s.me.loads.isEmpty || !s.systemDone s.cur) rfl (fun _ _ _ h => nomatch h) rfl ?_ ?_ (s.frqPost_cores _) (s.frqPost_cur _)
    · rw [Bool.or_eq_false_iff, loads_wait, Bool.not_eq_false', systemDone_iff]
    · show s.clean.frqPost _ = _
      rw [hrec, toNat_serviceNumber]
      exact s.withCores_frqPost s.clean.cores _

end Sys2Proof.Machine
end

section
/-! SUPPORT. V slots (R151 to R173): each instruction is one result in lanes, or two, whose lanes hold what the
statements write. -/

namespace Sys2Proof.Machine

/-! ## A V slot and its results -/

section
variable {i : Instr} {s : State} {d d2 : Dest} {w n lat fl : Nat}

/-- A V slot is decided when it is ready. -/
theorem asked_vSlot (hc : i.cls = some .v) (hr : Ready i s) : Asked i (semOf i) s :=
  asked_of_ready (by simp [Instr.slot, hc]) (fun gd n x hi => by subst hi; cases hc) hr
theorem exec_vSlot (hc : i.cls = some .v) : exec i s = runSole i (semOf i) s := exec_eq_runSole (by simp [hc]) s

/-- A V slot whose meaning is one result under a mask. -/
theorem givesLanes_vSlot {v m : Nat} {g : Nat → Option Nat} (hc : i.cls = some .v)
    (hs : semOf i s = onCore (fun c => (c.put d v (some m) lat).orFp fl)) (h2 : 2 ≤ lat) (hv : InLanes v m w n g) (hr : Ready i s) :
    GivesLanes i s d w n lat fl g :=
  have ha := asked_vSlot hc hr
  givesLanes_of (exec_vSlot hc) ha.ready ha.free ha.legal hs h2 hv
/-- A V slot whose meaning is two of them. -/
theorem givesLanes2_vSlot {v m v2 m2 w2 n2 : Nat} {g g2 : Nat → Option Nat} (hc : i.cls = some .v)
    (hs : semOf i s = onCore (fun c => ((c.put d v (some m) lat).put d2 v2 (some m2) lat).orFp fl)) (h2 : 2 ≤ lat) (hv : InLanes v m w n g)
    (hv2 : InLanes v2 m2 w2 n2 g2) (hr : Ready i s) : GivesLanes2 i s d w n g d2 w2 n2 g2 lat fl :=
  have ha := asked_vSlot hc hr
  givesLanes2_of (exec_vSlot hc) ha.ready ha.free ha.legal hs h2 hv hv2
/-- A V slot whose meaning is one result without a mask. -/
theorem givesLater_vSlot {v u : Nat} (hc : i.cls = some .v) (hs : semOf i s = result d v lat) (h2 : 2 ≤ lat) (hv : v = u) (hr : Ready i s) :
    GivesLater i s d u lat 0 := by
  subst hv
  have ha := asked_vSlot hc hr
  exact givesLater_result (exec_vSlot hc) ha.ready ha.free ha.legal hs h2
/-- A V slot without an effect. -/
theorem doesTo_vSlot (hc : i.cls = some .v) (hs : semOf i s = {}) (hr : Ready i s) : DoesTo i s s :=
  doesTo_beside (asked_vSlot hc hr) (exec_vSlot hc) hs ⟨rfl, rfl, rfl, rfl, rfl⟩ rfl rfl rfl

/-- A V slot that puts the lanes g in a v register. -/
theorem givesMap_vPut {d : Nat} {g : Nat → Option (Nat × Nat)} (hc : i.cls = some .v)
    (hs : semOf i s = vPut d w lat ((upFrom 0 n).map (fun j => (g j).map Prod.fst)) (orFlags ((upFrom 0 n).map (fun j => ((g j).getD (0, 0)).2))))
    (h2 : 2 ≤ lat) : GivesMap i s (.v d) w n lat g :=
  givesLanes_vSlot hc hs h2 (packLanes_inLanes w n _)
/-- A V slot that maps its enabled lanes. -/
theorem givesMap_vMap {o : VOp} {f g : Nat → Nat × Nat} (hc : i.cls = some .v) (hs : semOf i s = vMap o (s.me.kn o.k) w lat f) (h2 : 2 ≤ lat)
    (hg : ∀ j, f j = g j) : GivesMap i s (.v o.d) w (o.bits / w) lat (enabled s o w g) := by
  obtain rfl : f = g := funext hg
  exact givesMap_of (exec_vSlot hc) (by simp [Instr.slot, hc]) (illegal_sole_of_not_safe (fun gd n x hi => by subst hi; cases hc) _ s) hs h2
    (fun _ _ => rfl)
end

/-- The lowest bits of a number. -/
theorem fld_low (x n : Nat) : fld x 0 n = x % 2 ^ n := by rw [fld, Nat.pow_zero, Nat.div_one]
theorem ite_blt {α : Type} (x y : Nat) (a b : α) : (if Nat.blt x y then a else b) = if x < y then a else b := if_congr (by rw [Nat.blt_eq]) rfl rfl
theorem ite_ble {α : Type} (x y : Nat) (a b : α) : (if Nat.ble x y then a else b) = if x ≤ y then a else b := if_congr (by rw [Nat.ble_eq]) rfl rfl
theorem laneAt_lt (x w j : Nat) : laneAt x w j < 2 ^ w := Nat.mod_lt _ (Nat.two_pow_pos w)

/-! ## The arithmetic family (R157) -/

/-- What the arithmetic family computes in lane j. -/
def arithLane (s : State) (o : VOp) (ff : Nat → Nat → Nat → Nat → Nat × Nat) (fi : Int → Int → Int → Int) (j : Nat) : Nat × Nat :=
  let t := vTy o
  let x := laneAt (s.me.vn o.a) (tyWidth t) j
  let y := laneAt (s.me.vn o.b) (tyWidth t) j
  let z := laneAt (s.me.vn o.ex.c) (tyWidth t) j
  match t with
  | .flt code => ff code x y z
  | t => (tyBits t (vSat o) (fi (tyInt t x) (tyInt t y) (tyInt t z)), 0)
theorem vArith_eq (s : State) (o : VOp) (ff : Nat → Nat → Nat → Nat → Nat × Nat) (fi : Int → Int → Int → Int) :
    vArith o s.me ff fi = vMap o (s.me.kn o.k) (tyWidth (vTy o)) (arithLat (vTy o)) (arithLane s o ff fi) := rfl
/-- Operations agree in a lane if they agree on integers, and on operands that the lane's format has room for. -/
theorem arithLane_congr {ff gf : Nat → Nat → Nat → Nat → Nat × Nat} {fi gi : Int → Int → Int → Int}
    (hf : ∀ code x y z, x < 2 ^ fmtWidth code → ff code x y z = gf code x y z) (hi : ∀ x y z, fi x y z = gi x y z) (s : State) (o : VOp) (j : Nat) :
    arithLane s o ff fi j = arithLane s o gf gi j := by
  unfold arithLane
  generalize vTy o = t
  cases t with
  | flt code => exact hf code _ _ _ (laneAt_lt ..)
  | int sg w => simp only [hi]
  | xa64 => simp only [hi]
theorem two_le_arithLat (t : LaneTy) : 2 ≤ arithLat t := by
  unfold arithLat
  split <;> decide

/-- The sign bit of a number of the format cleared. -/
theorem signOp_clear (code x : Nat) : signOp code x (fun _ => false) =
    if (decodeF code x).isNan then (nanBits code, (decodeF code x).sigFlag) else (x % 2 ^ (fmtWidth code - 1), 0) := rfl
/-- The sign bit of a number of the format changed. -/
theorem signOp_flip {code x : Nat} (hx : x < 2 ^ fmtWidth code) : signOp code x (fun n => !n) =
    if (decodeF code x).isNan then (nanBits code, (decodeF code x).sigFlag)
    else ((x + 2 ^ (fmtWidth code - 1)) % 2 ^ fmtWidth code, 0) := by
  have hw : 2 ^ fmtWidth code = 2 * 2 ^ (fmtWidth code - 1) := by
    rw [← Nat.pow_succ']
    congr 1
    unfold fmtWidth
    omega
  have hs : x % 2 ^ (fmtWidth code - 1) + (if !Nat.ble (2 ^ (fmtWidth code - 1)) x then 2 ^ (fmtWidth code - 1) else 0) =
      (x + 2 ^ (fmtWidth code - 1)) % 2 ^ fmtWidth code := by
    rw [hw] at hx ⊢
    generalize 2 ^ (fmtWidth code - 1) = b at hx ⊢
    rcases Nat.lt_or_ge x b with h | h
    · rw [Nat.mod_eq_of_lt h, Nat.mod_eq_of_lt (by omega), if_pos (by rw [Bool.not_eq_true', ← Bool.not_eq_true, Nat.ble_eq]; omega)]
    · rw [if_neg (by simpa using h), Nat.mod_eq_sub_mod h, Nat.mod_eq_of_lt (by omega : x - b < b), Nat.mod_eq_sub_mod (by omega),
        Nat.mod_eq_of_lt (by omega)]
      omega
  rw [← hs]
  rfl
theorem ite_neg_eq_abs (x : Int) : (if x < 0 then -x else x) = |x| := by
  split
  next h => exact (abs_of_neg h).symm
  next h => exact (abs_of_nonneg (not_lt.mp h)).symm

/-- Settles O24: each instruction maps its enabled lanes, VABS and VNEG by what they do to the sign bit. -/
theorem vectorArithmetic : Obligations.VectorArithmetic := by
  intro s gd o t w lat f
  have arith {i : Instr} {ff gf : Nat → Nat → Nat → Nat → Nat × Nat} {fi gi : Int → Int → Int → Int}
      (hf : ∀ code x y z, x < 2 ^ fmtWidth code → ff code x y z = gf code x y z) (hi : ∀ x y z, fi x y z = gi x y z) (hc : i.cls = some .v)
      (hs : semOf i s = vArith o s.me ff fi) : GivesMap i s (.v o.d) w (o.bits / w) lat (f gf gi) :=
    givesMap_vMap hc (hs.trans (vArith_eq ..)) (two_le_arithLat t) (arithLane_congr hf hi s o)
  -- What f computes no longer matters, and left open it would be unfolded to compare its arguments.
  clear_value f
  refine ⟨?_, ?_, ?_, ?_, ?_, ?_, ?abs, ?neg⟩
  case abs => exact arith (fun code x _ _ _ => signOp_clear code x) (fun x _ _ => ite_neg_eq_abs x) rfl rfl
  case neg => exact arith (fun _ _ _ _ hx => signOp_flip hx) (fun _ _ _ => rfl) rfl rfl
  all_goals exact arith (fun _ _ _ _ _ => rfl) (fun _ _ _ => rfl) rfl rfl

/-! ## Logic, shifts, select, move and compare (R158 to R160) -/

/-- VSEL writes every lane, and raises no flag. -/
theorem vsel_gives (s : State) (gd : Guard) (o : VOp) : GivesMap (.vsel gd o) s (.v o.d) (vW o) (o.bits / vW o) 2 (fun j =>
    some (if laneOn (s.me.kn o.k) (vW o) j then lane s o.a (vW o) j else lane s o.b (vW o) j, 0)) := by
  refine givesMap_vPut rfl ?_ (by decide)
  rw [orFlags_zero (by simp)]
  rfl

/-- A condition, with its flags, that counts only where b holds. -/
theorem fst_ite_off (b : Bool) (p : Bool × Nat) : (if b then p else (false, 0)).1 = (b && p.1) := by cases b <;> rfl
theorem snd_ite_off (b : Bool) (p : Bool × Nat) : (if b then p else (false, 0)).2 = if b then p.2 else 0 := by cases b <;> rfl
/-- VCMP writes the mask bits of every lane: its condition where the lane is enabled, zeros and no flags where it is not. -/
theorem vcmp_gives {s : State} {gd : Guard} {o : VOp} (hr : Ready (.vcmp gd o) s) :
    let w := tyWidth (vTy o)
    let cond (j : Nat) : Bool × Nat := vCond (vTy o) (o.ex.i8 % 8) (lane s o.a w j) (lane s o.b w j)
    let on (j : Nat) : Bool := laneOn (s.me.kn o.k) w j
    GivesLanes (.vcmp gd o) s (.k o.d) (w / 8) (o.bits / w) 2 (orFlags ((upFrom 0 (o.bits / w)).map (fun j => if on j then (cond j).2 else 0)))
      (fun j => some (if on j && (cond j).1 then 2 ^ (w / 8) - 1 else 0)) := by
  intro w cond on
  refine givesLanes_vSlot rfl ?_ (by decide) (packLanes_inLanes (w / 8) _ _) hr
  show semVcmp o s = _
  simp only [semVcmp, fld_low, List.map_map, Function.comp_def, fst_ite_off, snd_ite_off]
  rfl

/-- Settles O25: logic, shifts and moves map their enabled lanes; select and compare by the lemmas above. -/
theorem vectorLogicAndCompares : Obligations.VectorLogicAndCompares := by
  refine ⟨fun s gd o => ⟨?_, ?_, ?_, ?shl, ?shr, vsel_gives s gd o, ?_⟩, fun s gd o => vcmp_gives⟩
  case shl =>
    exact givesMap_vMap rfl rfl (by decide) (fun _ => congrArg (fun x => (x % 2 ^ tyWidth (vTy o), 0)) (Nat.shiftLeft_eq ..).symm)
  case shr =>
    exact givesMap_vMap rfl rfl (by decide) (fun _ => congrArg (fun x : Int => ((x % (2 ^ tyWidth (vTy o) : Nat)).toNat, 0)) (ashr_eq ..))
  all_goals exact givesMap_vMap rfl rfl (by decide) (fun _ => rfl)

/-! ## Extract (R164) -/

/-- VEXT of INT8 lanes extends the sign of its lane, whose width is then 8. -/
theorem semVext_eq (o : VOp) (s : State) : semVext o s = gResLat s.me o.ex.g
    (if o.ex.fmt = 5 then (BitVec.ofNat 8 (lane s o.a 8 (o.ex.i8 % 128))).signExtend 64
     else BitVec.ofNat 64 (lane s o.a (vW o) (o.ex.i8 % 128))) 3 := by
  rw [semVext, fld_low]
  by_cases h : o.ex.fmt = 5
  · have hw : vW o = 8 := by rw [vW, h]; rfl
    rw [if_pos h, if_pos (beq_iff_eq.mpr h), w64_sext _ (by decide), hw]
    rfl
  · rw [if_neg h, if_neg (mt beq_iff_eq.mp h)]
    rfl

/-! ## Mask logic and moves (R173) -/

/-- To take the common bits away is to keep those that the other word does not have, as `toNat_and_not` has it of 64 bits. -/
theorem toNat_sub_land {n : Nat} (x y : BitVec n) : x.toNat - Nat.land x.toNat y.toNat = (x &&& ~~~y).toNat := by
  have hd : (x &&& ~~~y) &&& (x &&& y) = 0#n := by ext i hi; simp +contextual
  have hs : (x &&& ~~~y) ||| (x &&& y) = x := by ext i hi; simp [← Bool.and_or_distrib_left]
  have hx := BitVec.toNat_add_of_and_eq_zero hd
  rw [BitVec.add_eq_or_of_and_eq_zero _ _ hd, hs, BitVec.toNat_and] at hx
  exact Nat.sub_eq_of_eq_add hx
/-- The logic of masks that n names. -/
def maskLogic (n : Nat) (x y : K128) : K128 :=
  match n with
  | 0 => x &&& y
  | 1 => x ||| y
  | 2 => x ^^^ y
  | _ => x &&& ~~~y
theorem semKlog_eq (o : VOp) (s : State) :
    semKlog o s = result (.k o.d) (maskLogic (o.ex.i8 % 4) (s.me.rk o.a) (s.me.rk o.b)).toNat 2 := by
  rw [semKlog, fld_low, show 2 ^ 2 = 4 from rfl]
  refine congrArg (result (.k o.d) · 2) ?_
  match o.ex.i8 % 4 with
  | 0 => exact (BitVec.toNat_and ..).symm
  | 1 => exact (BitVec.toNat_or ..).symm
  | 2 => exact (BitVec.toNat_xor ..).symm
  | _ + 3 => exact toNat_sub_land ..

/-- The move between masks, vectors and counts that n names. -/
def maskMove (n : Nat) (o : VOp) (s : State) : SlotEff :=
  match n with
  | 0 => result (.k o.d) (s.me.rk o.a).toNat 2
  | 1 => result (.k o.d) ((s.me.rv o.a).toNat % 2 ^ 128) 2
  | 2 => vPut o.d 128 2 [some (s.me.rk o.a).toNat] 0
  | _ => result (.k o.d) (2 ^ cdiv (min (s.me.rg o.ex.g).toNat (1024 / vW o) * vW o) 8 - 1) 2
theorem semKmov_eq {n : Nat} {o : VOp} (h : o.ex.i8 % 4 = n) (s : State) : semKmov o s = maskMove n o s := by
  subst h
  rw [semKmov, fld_low]
  rfl

/-- Settles O26: the lanes of each instruction that maps its enabled lanes, and the one result of the others. -/
theorem vectorPermutesAndMasks : Obligations.VectorPermutesAndMasks := by
  refine ⟨fun s gd o => ⟨?perm, ?slide, ?pack, ?unpk, ?bcast, ?ext⟩, fun s gd o => ⟨?klog, fun h => ?_, fun h => ?_, fun h => ?_, fun h => ?_, ?idle⟩⟩
  case perm => exact givesMap_vMap rfl rfl (by decide) (fun _ => by simp only [ite_blt]; rfl)
  case slide => exact givesMap_vMap rfl rfl (by decide) (fun _ => by simp only [ite_blt, ite_ble, fld_low]; rfl)
  case pack => exact givesMap_vMap rfl rfl (by decide) (fun _ => by simp only [ite_blt]; rfl)
  case unpk => exact givesMap_vMap rfl rfl (by decide) (fun _ => by simp only [fld_low, beq_iff_eq]; rfl)
  case bcast => exact givesMap_vMap rfl rfl (by decide) (fun _ => by simp only [fld_low]; rfl)
  case ext => exact givesLater_vSlot rfl (semVext_eq o s) (by decide) rfl
  case klog => exact givesLater_vSlot rfl (semKlog_eq o s) (by decide) rfl
  case idle => exact doesTo_vSlot rfl rfl
  · exact givesLater_vSlot rfl (semKmov_eq h s) (by decide) rfl
  · exact givesLater_vSlot rfl (semKmov_eq h s) (by decide) (by rw [BitVec.extractLsb'_toNat, Nat.shiftRight_zero])
  · exact givesLanes_vSlot rfl (semKmov_eq h s) (by decide) (packLanes_inLanes 128 1 fun _ => some (s.me.rk o.a).toNat)
  · exact givesLater_vSlot rfl (semKmov_eq h s) (by decide) rfl

/-! ## Conversions and special functions (R165, R169) -/

theorem ite_ble_and {α : Type} (m j : Nat) (b : Bool) (x : α) :
    (if Nat.ble m j && b then some x else none) = if m ≤ j then (if b then some x else none) else none := by
  rw [← ite_ble]
  cases Nat.ble m j <;> rfl
/-- VCVT writes the enabled lanes of the part that PART names: from lane bo on, of the lanes of v[a] from bi on. -/
theorem vcvt_gives (s : State) (gd : Guard) (o : VOp) :
    let ws := (laneWidth (o.ex.i8 % 16)).getD 32
    let n := o.bits / max ws (vW o)
    let bi := if ws < vW o then o.ex.i8 / 16 % 8 * n else 0
    let bo := if vW o < ws then o.ex.i8 / 16 % 8 * n else 0
    GivesMap (.vcvt gd o) s (.v o.d) (vW o) (bo + n) 6 (fun j => if bo ≤ j then enabled s o (vW o) (fun j =>
      vConvert (o.ex.i8 % 16) o.ex.fmt o.ex.rm (min ((s.me.rg o.ex.g).toNat % 64) 62) (lane s o.a ws (bi + (j - bo)))) j else none) := by
  refine givesMap_vPut rfl ?_ (by decide)
  show semVcvt o s = _
  simp only [semVcvt, fld_low, ite_blt, ite_ble_and, List.map_map]
  rfl

/-- Settles O27: VCVT by the lemma above; VSPEC maps its enabled lanes. -/
theorem vectorConversions : Obligations.VectorConversions := fun s gd o =>
  ⟨vcvt_gives s gd o, givesMap_vMap rfl rfl (by decide) (fun _ => by rw [fld_low]; rfl)⟩

/-! ## Blocks (R166 to R168) -/

/-- A packed list of values fills its lanes. -/
theorem packLanes_values (w : Nat) (l : List Nat) :
    InLanes (packLanes w (l.map some)).1 (packLanes w (l.map some)).2 w l.length (fun j => l[j]?) := by
  obtain ⟨hlt, hsome, -⟩ := packLanes_spec w (l.map some)
  refine ⟨by rwa [List.length_map] at hlt, fun j x _ hx => hsome j x ?_, fun j hj hx => ?_⟩
  · exact List.getElem?_map.trans (congrArg (Option.map some) hx)
  · exact absurd (List.getElem?_eq_none_iff.mp hx) (not_le.mpr hj)
theorem packLanes_values_map {α : Type} (w : Nat) (l : List α) (f : α → Nat) : InLanes (packLanes w (l.map (fun a => some (f a)))).1
    (packLanes w (l.map (fun a => some (f a)))).2 w l.length (fun j => (l[j]?).map f) := by
  have h := packLanes_values w (l.map f)
  simp only [List.map_map, List.length_map, List.getElem?_map] at h
  exact h

section
variable {s : State} {o : VOp}

theorem semVdq_of_other_format (he : bitOf o.ex.i8 7 = true) (hc : fld (s.me.re o.b).toNat 16 4 ≠ o.ex.fmt) : semVdq o s = faults 8 5 0 :=
  if_pos (by rw [he, Bool.true_and]; exact bne_iff_ne.mpr hc)
/-- VDQ maps its enabled lanes to the elements they decode, unless the lane group is narrower than a block. -/
theorem semVdq_of_format (h : bitOf o.ex.i8 7 = true → fld (s.me.re o.b).toNat 16 4 = o.ex.fmt) :
    let ws := (laneWidth (o.ex.i8 % 16)).getD 32
    semVdq o s = if o.bits < 32 * ws then {} else vMap o (s.me.kn o.k) ws 6 (fun j =>
      encodeF (o.ex.i8 % 16) o.ex.rm (blockDecode o.ex.fmt (laneAt (s.me.vn o.a) (blockWidth o.ex.fmt) j)
        (if bitOf o.ex.i8 7 then (s.me.re o.b).toNat % 65536 else fld (s.me.vn o.b) (j / 32 * hdrBits o.ex.fmt) (hdrBits o.ex.fmt)))) := by
  have hn : ¬ (bitOf o.ex.i8 7 && fld (s.me.re o.b).toNat 16 4 != o.ex.fmt) = true := by simpa using h
  rw [semVdq, if_neg hn, fld_low, ite_blt]
  rfl
end

/-- Settles O28: VQNT is two results that fill their lanes; VDQ faults, maps its enabled lanes or does nothing; VAMAX is one result. -/
theorem vectorBlocks : Obligations.VectorBlocks := by
  intro s gd o src ws code on bs els fromE e wf
  refine ⟨fun hr => ?vqnt, fun he hc hr => ?_, fun h hw => ?_, fun h hw hr => ?_, ?vamax⟩
  case vqnt =>
    refine givesLanes2_vSlot rfl ?_ (by decide) (packLanes_values (blockWidth code) els)
      (packLanes_values_map (hdrBits code) bs (fun b => b.2.1)) hr
    show semVqnt o s = _
    simp only [semVqnt, fld_low]
    rfl
  case vamax =>
    refine givesMap_vPut rfl ?_ (by decide)
    show semVamax o s = _
    simp only [semVamax, List.map_map]
    rfl
  · exact traps_of_faults rfl (asked_vSlot rfl hr) (semVdq_of_other_format he hc)
  · exact givesMap_vMap rfl ((semVdq_of_format h).trans (if_neg (not_lt.mpr hw))) (by decide) (fun _ => rfl)
  · exact doesTo_vSlot rfl ((semVdq_of_format h).trans (if_pos hw)) hr

/-! ## Reductions, scans and matches (R170 to R172) -/

/-- What is there of a lane that leads if b, its value and its flags. -/
theorem isSome_ite (b : Bool) (x : Nat × Nat) : (if b then some x else none).isSome = b := by cases b <;> rfl
theorem map_fst_ite (b : Bool) (x : Nat × Nat) : (if b then some x else none).map Prod.fst = if b then some x.1 else none := by cases b <;> rfl
theorem snd_getD_ite (b : Bool) (x : Nat × Nat) : ((if b then some x else none).getD (0, 0)).2 = if b then x.2 else 0 := by cases b <;> rfl

/-- Settles O29: each instruction is its tree, its scan or its groups, put in lanes. -/
theorem vectorReductions : Obligations.VectorReductions := by
  intro s gd o t w n op on wide t2 code ls r seg sc key leads grp
  refine ⟨?vred, ?vscan, ?vmatch⟩
  case vred =>
    refine givesLanes_vSlot rfl ?_ (by decide) (packLanes_inLanes (tyWidth t2) 1 fun _ => some r.1)
    show semVred o s = _
    simp only [semVred, fld_low]
    rfl
  case vscan =>
    refine givesLanes_vSlot rfl ?_ (by decide) (packLanes_inLanes w n _)
    show semVscan o s = _
    simp only [semVscan, fld_low]
    rfl
  case vmatch =>
    refine givesLanes2_vSlot rfl ?_ (by decide) (packLanes_inLanes w n _) (packLanes_inLanes (w / 8) n _)
    show semVmatch o s = _
    simp only [semVmatch, fld_low, List.map_map, Function.comp_def, isSome_ite, map_fst_ite, snd_getD_ite]
    rfl

end Sys2Proof.Machine
end

section
/-! SUPPORT. M slots (R174, R249, R250): each enqueues its command, or faults, delivers an exception or waits by what it finds of its tokens and of
its queue. -/

namespace Sys2Proof.Machine

/-! ## The commit of a command, from the marks of the last iteration on -/

theorem Core.consume_clean (c : Core) (l : List Nat) : ∀ k : Core,
    c.consume { k with settle := false, stalled := false, xfer := .none } l =
      { c.consume k l with settle := false, stalled := false, xfer := .none } := by
  induction l with
  | nil => exact fun _ => rfl
  | cons t l ih =>
    intro k
    by_cases h : ((k.tok t).latest == (c.tok t).latest) = true
    · have hk : c.consume k (t :: l) = c.consume (k.setTok t { k.tok t with used := true }) l := congrArg (c.consume · l) (if_pos h)
      rw [hk, ← ih]
      exact congrArg (c.consume · l) (if_pos h)
    · have hk : c.consume k (t :: l) = c.consume k l := congrArg (c.consume · l) (if_neg h)
      rw [hk, ← ih]
      exact congrArg (c.consume · l) (if_neg h)
/-- The marks of the last iteration have no part in the commit of a command. -/
theorem State.enqueue_clean_me (s : State) (i : Instr) (e : Edge) (args : List Nat) (hb : Bool) :
    (s.clean.enqueue s.me i e args hb).me =
      { (s.enqueue s.me i e args hb).me with settle := false, stalled := false, xfer := .none } := by
  obtain ⟨x, hs, hc⟩ : ∃ x : Cmd, (s.enqueue s.me i e args hb).me = (s.updMe (fun k => s.me.withCmd k e s.clock x)).me ∧
      (s.clean.enqueue s.me i e args hb).me = (s.clean.updMe (fun k => s.me.withCmd k e s.clock x)).me := ⟨_, rfl, rfl⟩
  rw [hs, hc, State.updMe_me, State.updMe_me, State.clean, State.updMe_me, Core.withCmd, Core.consume_clean]
  rfl
theorem State.enqueue_core_of_ne {s : State} {c : Core} {i : Instr} {e : Edge} {args : List Nat} {hb : Bool} {k : Nat} (h : k ≠ s.cur) :
    (s.enqueue c i e args hb).core k = s.core k := by
  obtain ⟨x, hx⟩ : ∃ x : Cmd, s.enqueue c i e args hb =
      { s.updMe (fun k => c.withCmd k e s.clock x) with clock := s.clock + 1 } := ⟨_, rfl⟩
  exact (congrArg (State.core · k) hx).trans (s.updMe_core_of_ne (fun k => c.withCmd k e s.clock x) h)
/-- A commit of a command leaves what the core runs, its mode and a pending pre-emption. -/
theorem State.enqueue_me_runs (s : State) (i : Instr) (e : Edge) (args : List Nat) (hb : Bool) :
    let u := (s.enqueue s.me i e args hb).me
    u.run = s.me.run ∧ u.hm = s.me.hm ∧ u.preempt = s.me.preempt := by
  obtain ⟨x, hs⟩ : ∃ x : Cmd, (s.enqueue s.me i e args hb).me = (s.updMe (fun k => s.me.withCmd k e s.clock x)).me := ⟨_, rfl⟩
  rw [hs, State.updMe_me, Core.withCmd_self]
  exact ⟨rfl, rfl, rfl⟩

/-! ## What an engine slot asks for -/

section
variable {i x : Instr} {s : State} {e : Edge} {args : List Nat} {hb : Bool}

theorem noneIn_iff {l : List Nat} {t : TokSt} : noneIn s l t ↔ ¬ ∃ n ∈ l, (s.me.tok n).st = t := by
  rw [noneIn, not_exists]
  exact forall_congr' fun n => not_and.symm

theorem engineSlot_of_free (h : ¬ noneIn s (consumed e) .free) : engineSlot s x e args hb = faults 0x0E 1 0 :=
  if_pos (any_st_eq_true.mpr (not_not.mp (mt noneIn_iff.mpr h)))
theorem engineSlot_of_no_free (h : noneIn s (consumed e) .free) : engineSlot s x e args hb =
    { errs := (consumed e ++ [e.tp]).filter (fun t => (s.me.tok t).st == .error)
      wait := Nat.ble (queueDepth (isM x)) (s.me.inQueue (isM x))
      commit := fun u => u.enqueue s.me x e args hb } :=
  if_neg (Bool.eq_false_iff.mp (any_st_eq_false.mpr h))
/-- Without an ERROR token there is no exception to deliver. -/
theorem engineSlot_of_no_error (h : noneIn s (consumed e) .free) (he : noneIn s (consumed e ++ [e.tp]) .error) : engineSlot s x e args hb =
    { wait := Nat.ble (queueDepth (isM x)) (s.me.inQueue (isM x)), commit := fun u => u.enqueue s.me x e args hb } := by
  rw [engineSlot_of_no_free h, filter_st_eq_nil he]

/-- An M or X slot enqueues its command, by the states of its tokens and the room in its queue. -/
theorem enqueues_of_engineSlot (hc : i.cls = some .m ∨ i.cls = some .x) (hs : semOf i s = engineSlot s x e args hb) (hr : Ready i s) :
    Enqueues i s e x args hb false id := by
  have hx : exec i s = runSole i (semOf i) s := exec_eq_runSole (by rcases hc with h | h <;> simp [h]) s
  have ha : Asked i (semOf i) s :=
    asked_of_ready (by rcases hc with h | h <;> simp [Instr.slot, h]) (by rintro gd n x rfl; simp [Instr.cls] at hc) hr
  refine ⟨fun hf => ?free, fun hf hst n hn he hl => ?error, fun hf he hw => ?full, fun hf he hw => ?room⟩
  case free => exact traps_of_faults hx ha (hs.trans (engineSlot_of_free hf))
  case error =>
    have hs := hs.trans (engineSlot_of_no_free hf)
    refine delivers_of hx ha (by rw [hs]) hst ?_
    rw [hs]
    exact lowest_of (List.mem_filter.mpr ⟨hn, beq_iff_eq.mpr he⟩)
      (fun m hm => hl m (List.mem_filter.mp hm).1 (beq_iff_eq.mp (List.mem_filter.mp hm).2))
  case full =>
    have hs := hs.trans (engineSlot_of_no_error hf he)
    have hd := hw.resolve_right (by decide)
    exact stalls_of hx ha (by rw [hs]) (.inl (by rw [hs])) (by rw [hs]; exact Nat.ble_eq.mpr hd) (by rw [hs]; rfl)
  case room =>
    have hs := hs.trans (engineSlot_of_no_error hf he)
    have hd : Nat.ble (queueDepth (isM x)) (s.me.inQueue (isM x)) = false :=
      Bool.eq_false_iff.mpr fun h => hw (.inl (Nat.ble_eq.mp h))
    obtain ⟨hrun, hmode, hpre⟩ := s.enqueue_me_runs x e args hb
    have ho : ∀ k, k ≠ s.cur → (s.clean.enqueue s.me x e args hb).core k = (s.enqueue s.me x e args hb).core k := fun k hk => by
      have hclean : s.clean.core k = s.core k := s.updMe_core_of_ne _ hk
      exact (State.enqueue_core_of_ne (s := s.clean) hk).trans (hclean.trans (State.enqueue_core_of_ne hk).symm)
    exact doesTo_of hx ha.ready ha.free ha.legal hs ⟨rfl, rfl, hd, rfl, rfl⟩ (s.enqueue_clean_me ..) rfl ho rfl
      ⟨hrun.trans hr.1.1, hmode, hpre⟩
end

/-- Settles O39: each slot is an engine slot of its command, whose operands are read as the bundle began. -/
theorem matrixCommands : Obligations.MatrixCommands := by
  intro s gd e d qa qb sa ta tb z kb0 kbn pa pb mask q t part rm dist gs one w cst cnm1 pm f cnt rq rg o queues
  have hslot : ∀ {i x : Instr} {args : List Nat}, i.cls = some .m → semOf i s = engineSlot s x e args false → queues i x args :=
    fun hc hs => enqueues_of_engineSlot (.inl hc) hs
  have hite : ∀ n a b : Nat, (if n == 1 then a else b) = if n = 1 then a else b := fun n a b => if_congr beq_iff_eq rfl rfl
  refine ⟨?mma, hslot rfl rfl, hslot rfl rfl, hslot rfl rfl, hslot rfl rfl, hslot rfl rfl, hslot rfl rfl, hslot rfl rfl, hslot rfl rfl,
    hslot rfl rfl, hslot rfl rfl, hslot rfl rfl, hslot rfl rfl, hslot rfl rfl, ?zsave, ?zload, hslot rfl rfl, hslot rfl rfl⟩
  case mma => exact hslot rfl (congrArg (fun n => engineSlot s _ e [n, _] false) (hite ..))
  case zsave => exact hslot rfl (congrArg (fun n => engineSlot s _ e [n] false) (hite ..))
  case zload => exact hslot rfl (congrArg (fun n => engineSlot s _ e [n] false) (hite ..))

end Sys2Proof.Machine
end

section
/-! SUPPORT. A superseded producer whose completion lets an earlier failure reach the latest producer of its token: the state that refutes O43
(R249, R250). -/

namespace Sys2Proof.Machine

/-! ## A failure that waits for a producer to complete -/

/-- A ZINV of table 0 with its number, edge, producers and failure. -/
def zinvCmd (id : Nat) (e : Edge) (st : CmdSt) (deps : List Nat) (fail : Option CmdFault) : Cmd :=
  { id := id, ins := .zinv ⟨0, 0⟩ e 1, args := [], tp := e.tp, deps := deps, hb := false, part := 0, launch := 0, repro := false, st := st,
    tiles := [], wtiles := [], parkedAt := 0, sentAt := 0, alloc := false, fail := fail, res := [], ready := false, snap := [], torn := [],
    imgs := [], wr := [], save := none }

/-- A running producer of token 7. -/
def supersededRunning : Cmd := zinvCmd 2 ⟨7, 0, 0, 0, 0⟩ .running [] none
/-- Command 2 runs, and command 4 has superseded it as the producer of token 7. Command 3 consumes tokens 5 and 7: the producer of 5 has failed,
and it waits for command 2 alone. Command 4 consumes token 8, which command 3 produces. -/
def supersededProducer : State :=
  { State.reset with
    cores := [(0, { Core.reset with
      run := .task
      cmds := [supersededRunning, zinvCmd 3 ⟨8, 5, 7, 2, 0⟩ .queued [2] (some ⟨⟨6, 3, 0⟩, 5, true⟩), zinvCmd 4 ⟨7, 8, 0, 1, 0⟩ .queued [3, 2] none]
      toks := [(5, ⟨.error, some ⟨⟨6, 3, 0⟩, 5, false⟩, none, true⟩), (7, ⟨.pending, none, some 4, false⟩), (8, ⟨.pending, none, some 3, true⟩)] })] }

theorem supersededProducer_tok : (supersededProducer.core 0).tok 7 = ⟨.pending, none, some 4, false⟩ := by decide
/-- With command 2, command 3 ends with the failure that reached it earlier, and command 4 after it. -/
theorem supersededProducer_completes :
    ((complete 0 0 supersededProducer).core 0).tok 7 = ⟨.error, some ⟨⟨6, 3, 0⟩, 5, true⟩, none, false⟩ := by decide

/-- Refutes O43: its second part asks that the completion of a superseded producer leave its token as it was, where every command that produces
the token is without a failure. In `supersededProducer` a command with another token carries a failure and waits for that completion; once it
ends, its failure passes to the token's latest producer, which ends as well and leaves the token ERROR, as R249 and R250 have it. -/
theorem not_commandCompletions : ¬ Obligations.CommandCompletions := by
  rintro ⟨-, hends, -⟩
  obtain ⟨-, heffect⟩ := hends supersededProducer 0 0 supersededRunning rfl rfl rfl (by decide) (by decide) (by decide)
  obtain ⟨t, ht, -, hkept, -⟩ := heffect rfl (by decide)
  have hcomplete : t = complete 0 0 supersededProducer := (Host.Outcome.next.inj ht).symm
  have htok := hkept (by decide) (by decide) (by decide)
  rw [hcomplete] at htok
  exact absurd (supersededProducer_completes.symm.trans (htok.trans supersededProducer_tok)) (by decide)

end Sys2Proof.Machine
end

section
/-! SUPPORT. The homes of tiles and the tile caches that they answer: what counting, records, messages and frames leave of one another, and what
each event of a home does with its message (R194 to R218, R243 to R256, R304, R374, R375). -/

namespace Sys2Proof.Machine

/-! ## What is counted (R274, R378, R380) -/

/-- A state without what its work is counted and charged in, and without its write queue: requests that pass change nothing else. -/
def State.uncounted (s : State) : State := { s with buckets := [], floors := [], pmcs := [], wq := [], freeCtr := 0 }

@[simp] theorem State.draw_uncounted (s : State) (n : Nat) : (s.draw n).uncounted = s.uncounted := rfl
@[simp] theorem State.countEv_uncounted (s : State) (u e p n : Nat) : (s.countEv u e p n).uncounted = s.uncounted := rfl
@[simp] theorem State.charge_uncounted (s : State) (p i n : Nat) : (s.charge p i n).uncounted = s.uncounted := by
  unfold State.charge
  split_ifs <;> rfl
@[simp] theorem State.countFloor_uncounted (s : State) (p ch n : Nat) : (s.countFloor p ch n).uncounted = s.uncounted := by
  unfold State.countFloor
  dsimp only
  split <;> rfl
@[simp] theorem State.passed_uncounted (s : State) (p pa n : Nat) : (s.passed p pa n).uncounted = s.uncounted := by
  unfold State.passed
  dsimp only
  split_ifs <;> simp
@[simp] theorem State.lookedUp_uncounted (s : State) (p pa : Nat) : (s.lookedUp p pa).uncounted = s.uncounted := by
  unfold State.lookedUp
  split_ifs <;> rfl
@[simp] theorem State.servedAll_uncounted (s : State) (p : Nat) (l : List Nat) : (s.servedAll p l).uncounted = s.uncounted := by
  refine List.foldlRecOn l _ (motive := fun r : State × Option Nat => r.1.uncounted = s.uncounted) rfl (fun r hr pa _ => ?_)
  dsimp only
  split_ifs <;> simp [State.served, hr]
@[simp] theorem State.chargeAll_uncounted (s : State) (p who : Nat) (l : List Nat) : (s.chargeAll p who l).uncounted = s.uncounted :=
  foldl_keeps State.uncounted (fun t _ => t.charge_uncounted ..) l s
@[simp] theorem State.passTile_uncounted (s : State) (who : Nat) (d : Desc) (t : Tile) : (s.passTile who d t).uncounted = s.uncounted := by
  simp [State.passTile]
@[simp] theorem State.closeLine_uncounted (s : State) (pa : Nat) : (s.closeLine pa).uncounted = s.uncounted := by
  unfold State.closeLine
  split <;> rfl
@[simp] theorem State.closeTile_uncounted (s : State) (who : Nat) (d : Desc) (t : Tile) : (s.closeTile who d t).uncounted = s.uncounted := by
  unfold State.closeTile
  split_ifs
  · rfl
  · refine foldl_keeps State.uncounted (fun u b => ?_) _ s
    split
    · exact u.closeLine_uncounted _
    · rfl

/-! ## Lists by number -/

theorem modNth_getElem? {α : Type} (l : List α) (i : Nat) (f : α → α) : (modNth l i f)[i]? = l[i]?.map f := by
  induction l generalizing i with
  | nil => rfl
  | cons a t ih =>
    cases i with
    | zero => rfl
    | succ i => simpa [modNth] using ih i

/-! ## Records of tiles (R205) -/

theorem State.homeRec_names {s : State} {ch : Nat} {t : Tile} {h : Home} (hr : s.homeRec ch t = some h) : h.ch = ch ∧ h.tile = t := by
  simpa using List.find?_some hr
/-- The record put is the one its channel holds of its tile. -/
theorem State.putHome_homeRec (s : State) (h : Home) : (s.putHome h).homeRec h.ch h.tile = some h := by
  have hnone : (s.homes.filter (fun x => !(x.ch == h.ch && x.tile == h.tile))).find? (fun x => x.ch == h.ch && x.tile == h.tile) = none :=
    List.find?_eq_none.mpr (fun x hx => by simpa [imp_iff_not_or] using (List.mem_filter.mp hx).2)
  rw [State.homeRec, State.putHome, List.find?_append, hnone]
  simp
/-- A record put again with another writer is the tile's record. -/
theorem State.homeRec_of_putHome_wown {s u : State} {ch cl : Nat} {t : Tile} {h : Home} (hr : s.homeRec ch t = some h)
    (hu : u.homes = (s.putHome { h with wown := cl }).homes) : u.homeRec ch t = some { h with wown := cl } := by
  obtain ⟨rfl, rfl⟩ := State.homeRec_names hr
  rw [← s.putHome_homeRec { h with wown := cl }, State.homeRec, State.homeRec, hu]
theorem State.useHome_of_homeRec {s : State} {ch : Nat} {t : Tile} {h : Home} (hr : s.homeRec ch t = some h) : s.useHome ch t = (s, some h) := by
  rw [State.useHome, hr]
theorem State.ownerAt_of_homeRec {s : State} {ch : Nat} {t : Tile} {h : Home} (hr : s.homeRec ch t = some h) : s.ownerAt ch t = h.wown := by
  rw [State.ownerAt, hr]
theorem State.rver_of_homeRec {s : State} {ch : Nat} {t : Tile} {h : Home} (hr : s.homeRec ch t = some h) : s.rver ch t = h.rver := by
  rw [State.rver, hr]

/-- A request taken moves its home's pointer alone (R209). -/
theorem State.movePtr_eq (s u : State) (ch n cl : Nat) (t : Tile) (sent : Nat) :
    s.movePtr ch n cl t sent u = { u with hptr := (s.movePtr ch n cl t sent u).hptr } := by
  unfold State.movePtr
  split_ifs <;> rfl
@[simp] theorem State.movePtr_msgs (s u : State) (ch n cl : Nat) (t : Tile) (sent : Nat) : (s.movePtr ch n cl t sent u).msgs = u.msgs := by
  rw [State.movePtr_eq]
@[simp] theorem State.movePtr_homeRec (s u : State) (ch n cl : Nat) (t : Tile) (sent c : Nat) (x : Tile) :
    (s.movePtr ch n cl t sent u).homeRec c x = u.homeRec c x := by
  rw [State.movePtr_eq]
  rfl
/-- A request that its home leaves waiting moves no pointer. -/
@[simp] theorem State.movePtr_self (s : State) (ch n cl : Nat) (t : Tile) (sent : Nat) : s.movePtr ch n cl t sent s = s := by
  simp [State.movePtr]

/-! ## Frames (R194, R199, R200) -/

theorem State.frame_congr {s t : State} (h : t.clusters = s.clusters) (cl key : Nat) : t.frame cl key = s.frame cl key := by
  rw [State.frame, State.frame, State.cluster, State.cluster, h]
@[simp] theorem State.setFrame_frame_self (s : State) (cl key : Nat) (f : Frame) : (s.setFrame cl key f).frame cl key = f := by
  simp [State.setFrame, State.frame]
theorem State.setFrame_frame_of_ne (s : State) {cl key c k : Nat} (f : Frame) (h : c ≠ cl ∨ k ≠ key) :
    (s.setFrame cl key f).frame c k = s.frame c k := by
  unfold State.setFrame State.frame
  by_cases hc : c = cl
  · subst hc
    rw [State.updCluster_cluster_self]
    exact mget_mput_of_ne (h.resolve_left (not_not_intro rfl))
  · rw [State.updCluster_cluster_of_ne _ _ hc]
@[simp] theorem State.updFrame_frame_self (s : State) (cl key : Nat) (f : Frame → Frame) : (s.updFrame cl key f).frame cl key = f (s.frame cl key) :=
  s.setFrame_frame_self cl key _
/-- What an update of some frame keeps of it, it keeps of every frame. -/
theorem State.updFrame_keeps {β : Type} (g : Frame → β) (s : State) {cl key : Nat} {f : Frame → Frame}
    (h : g (f (s.frame cl key)) = g (s.frame cl key)) (c k : Nat) : g ((s.updFrame cl key f).frame c k) = g (s.frame c k) := by
  by_cases hk : c = cl ∧ k = key
  · obtain ⟨rfl, rfl⟩ := hk
    rw [State.updFrame_frame_self, h]
  · rw [State.updFrame, State.setFrame_frame_of_ne _ _ (by tauto)]

/-- A step that changes what g reads at one element of a list alone, and in the same way when it comes again, leaves that change in a fold. -/
theorem foldl_at {β : Type} {f : State → Nat → State} {g : State → β} {c : β → β} {k : Nat} (hk : ∀ t, g (f t k) = c (g t))
    (hn : ∀ t x, x ≠ k → g (f t x) = g t) (hc : ∀ b, c (c b) = c b) (l : List Nat) (s : State) :
    g (l.foldl f s) = if k ∈ l then c (g s) else g s := by
  induction l generalizing s with
  | nil => rfl
  | cons x xs ih =>
    rw [List.foldl_cons, ih]
    by_cases hx : x = k
    · subst hx
      simp [hk, hc]
    · simp [hn _ _ hx, Ne.symm hx]
theorem mem_upFrom_iff {n lo m : Nat} : n ∈ upFrom lo m ↔ lo ≤ n ∧ n < lo + m := by
  induction m generalizing lo with
  | zero => simp [upFrom]
  | succ m ih => simp only [upFrom, List.mem_cons, ih]; omega
/-- A frame touched is of rank 0, and as it was otherwise (R200). -/
theorem State.touchFrame_frame_self (s : State) (cl key : Nat) : (s.touchFrame cl key).frame cl key = { s.frame cl key with lru := 0 } := by
  have hmem : key ∈ upFrom (key / 16 * 16) 16 := mem_upFrom_iff.mpr (by omega)
  refine (foldl_at (g := fun t => t.frame cl key) (c := fun f => { f with lru := 0 }) (k := key) (fun t => ?_) (fun t x hx => ?_) (fun _ => rfl)
    _ s).trans (if_pos hmem)
  · simp
  · simp only [beq_iff_eq, hx, if_false]
    split_ifs
    · exact t.setFrame_frame_of_ne _ (.inr (Ne.symm hx))
    · rfl

@[simp] theorem State.staleIf_clusters (s : State) (cl part : Nat) (f : ZRec → Bool) : (s.staleIf cl part f).clusters = s.clusters :=
  foldl_keeps State.clusters (fun t k => by dsimp only; split_ifs <;> rfl) _ _
@[simp] theorem State.staleIf_frame (s : State) (cl part : Nat) (f : ZRec → Bool) (c key : Nat) : (s.staleIf cl part f).frame c key = s.frame c key :=
  State.frame_congr (s.staleIf_clusters ..) c key
@[simp] theorem State.answered_frame (s : State) (k id cl key : Nat) : (s.answered k id).frame cl key = s.frame cl key := rfl
@[simp] theorem State.staleIf_msgs (s : State) (cl part : Nat) (f : ZRec → Bool) : (s.staleIf cl part f).msgs = s.msgs :=
  foldl_keeps State.msgs (fun t k => by dsimp only; split_ifs <;> rfl) _ _
@[simp] theorem State.touchFrame_msgs (s : State) (cl key : Nat) : (s.touchFrame cl key).msgs = s.msgs :=
  foldl_keeps State.msgs (fun t k => by dsimp only; split_ifs <;> rfl) _ _
@[simp] theorem State.forget_mem (s : State) (cl : Nat) (t : Tile) : (s.forget cl t).mem = s.mem := by
  unfold State.forget
  exact foldl_keeps State.mem (fun t k => t.updCore_mem k _) _ s

/-- A frame given up is INVALID. -/
@[simp] theorem State.dropFrame_st (s : State) (cl key : Nat) : ((s.dropFrame cl key).frame cl key).st = .invalid := by
  rw [State.dropFrame, State.updFrame_frame_self]
  rfl
@[simp] theorem State.dropFrame_mem (s : State) (cl key : Nat) : (s.dropFrame cl key).mem = s.mem := by
  have hgive : ∀ (u : State) (f : Frame), (u.giveLease cl f).mem = u.mem := fun u f => by
    unfold State.giveLease
    split_ifs <;> rfl
  have hforget : (if (s.frame cl key).ref == 0 then s else s.forget cl (s.frame cl key).tile).mem = s.mem := by
    split_ifs
    · rfl
    · exact s.forget_mem _ _
  exact (hgive _ _).trans hforget
/-- A leased frame that nothing refers to gives its lease back as it goes (R214). -/
theorem State.dropFrame_of_lease {s : State} {cl key : Nat} (hl : (s.frame cl key).lexp ≠ 0) (hr : (s.frame cl key).ref = 0) :
    s.dropFrame cl key = (s.emit (.leaseBack cl (s.frame cl key).tile)).updFrame cl key Frame.drop := by
  simp [State.dropFrame, State.giveLease, hl, hr]
theorem State.refDown_frame_st (s : State) (cl : Nat) (t : Tile) (c k : Nat) : ((s.refDown cl t).frame c k).st = (s.frame c k).st := by
  unfold State.refDown
  split
  · exact State.updFrame_keeps Frame.st _ rfl c k
  · rfl
theorem State.refDown_mem (s : State) (cl : Nat) (t : Tile) : (s.refDown cl t).mem = s.mem := by
  unfold State.refDown
  split <;> rfl
/-- Commands that wait for frames again lower references and change their own marks: what both keep is kept. -/
theorem State.unparkTile_keeps {β : Type} (g : State → β) (hd : ∀ t cl u, g (State.refDown t cl u) = g t)
    (hc : ∀ t k f, g (State.updCore t k f) = g t) (s : State) (cl : Nat) (t : Tile) : g (s.unparkTile cl t) = g s := by
  unfold State.unparkTile
  refine foldl_keeps g (fun u k => ?_) _ s
  refine foldl_keeps g (fun v x => ?_) _ u
  unfold State.unpark State.updCmd
  exact (hc _ _ _).trans (foldl_keeps g (fun w y => hd w (clusterOf k) y) x.tiles v)
theorem State.unparkTile_frame_st (s : State) (cl : Nat) (t : Tile) (c k : Nat) : ((s.unparkTile cl t).frame c k).st = (s.frame c k).st :=
  State.unparkTile_keeps (fun u => (u.frame c k).st) (fun u _ _ => u.refDown_frame_st ..) (fun _ _ _ => rfl) s cl t
theorem State.unparkTile_mem (s : State) (cl : Nat) (t : Tile) : (s.unparkTile cl t).mem = s.mem :=
  State.unparkTile_keeps State.mem (fun u _ _ => u.refDown_mem ..) (fun _ _ _ => rfl) s cl t

/-- A frame without the marks that hints leave. -/
def Frame.unhinted (f : Frame) : Frame := { f with pin := false, last := false, stream := false, hints := 0, itin := false }
theorem State.addPin_unhinted (s : State) (j : Nat) (t : Tile) (cl key : Nat) :
    ((s.addPin j t).frame cl key).unhinted = (s.frame cl key).unhinted := by
  unfold State.addPin
  split
  · rfl
  · exact State.updFrame_keeps Frame.unhinted s (f := fun f => { f with pin := true }) rfl cl key
theorem State.addPin_msgs (s : State) (j : Nat) (t : Tile) : (s.addPin j t).msgs = s.msgs := by
  unfold State.addPin
  split <;> rfl
/-- The hints that fall due on a frame leave its contents as they are (R201 to R203). -/
theorem State.fillHints_unhinted (s : State) (cl key : Nat) : ((s.fillHints cl key).frame cl key).unhinted = (s.frame cl key).unhinted := by
  have hset : ∀ f : Frame, f.unhinted = (s.frame cl key).unhinted → ((s.setFrame cl key f).frame cl key).unhinted = (s.frame cl key).unhinted :=
    fun f hf => by rw [State.setFrame_frame_self, hf]
  unfold State.fillHints
  dsimp only
  split_ifs
  · exact (State.addPin_unhinted ..).trans (hset _ rfl)
  · exact hset _ rfl
@[simp] theorem State.fillHints_msgs (s : State) (cl key : Nat) : (s.fillHints cl key).msgs = s.msgs := by
  unfold State.fillHints
  dsimp only
  split_ifs
  · exact State.addPin_msgs ..
  · rfl

/-! ## Fills at the home (R206, R207, R245) -/

/-- A cluster's fill reads the bytes of memory as they are, unless another cluster has written some of them under SUPER. -/
theorem State.tileFor_of_readTile {s : State} {cl : Nat} {d : Desc} {t : Tile} {h : Home} {m : SMap Byte}
    (hm : s.readTile (1024 + cl) d t = .ok m) (hs : h.super = false ∨ h.wown = parkedOwner) : s.tileFor cl d t h = .ok m := by
  have hc : (h.super && h.wown != cl && h.wown != parkedOwner) = false := by
    rcases hs with hs | hs <;> simp [hs]
  simp [State.tileFor, hm, hc]
/-- A home's answer from memory: the message goes, the data of the released version leave, and the ownership goes with a grant (R206). -/
theorem State.answerFill_of_memory {s : State} {n cl ch : Nat} {t : Tile} {h : Home} {m : SMap Byte} (g : Bool)
    (hr : s.homeRec ch t = some h) (hb : s.mayTile (1024 + cl) (s.desc t.part t.tid) t = true)
    (hm : s.readTile (1024 + cl) (s.desc t.part t.tid) t = .ok m) (hs : h.super = false ∨ h.wown = parkedOwner) :
    (s.answerFill n cl t h g false).msgs = dropNth s.msgs n ++ [.fillAns cl t h.rver g 0 (s.desc t.part t.tid).shape false (some m)] ∧
      (g = true → (s.answerFill n cl t h g false).homeRec ch t = some { h with wown := cl }) := by
  simp only [State.answerFill, Bool.false_eq_true, if_false, hb, Bool.not_true, State.tileFor_of_readTile hm hs]
  generalize hu : (if g then s.putHome { h with wown := cl } else s.putHome h) = u
  generalize hv : ((u.closeTile (1024 + cl) (s.desc t.part t.tid) t).passTile (1024 + cl) (s.desc t.part t.tid) t).countEv
    (unitCluster cl) (0x23 + Config.free (s.freeCtr + 139264) % 2) t.part 1 = v
  have hcount : v.uncounted = u.uncounted := by simp [← hv]
  have hmsgs : v.msgs = s.msgs := (congrArg State.msgs hcount :).trans (by rw [← hu]; split_ifs <;> rfl)
  have hhomes : v.homes = u.homes := (congrArg State.homes hcount :)
  refine ⟨congrArg (fun l => dropNth l n ++ _) hmsgs, fun hg => State.homeRec_of_putHome_wown hr (hhomes.trans ?_)⟩
  rw [← hu, if_pos hg]
/-- A home's answer to another device: the data of the released version, with a lease from now on (R245). -/
theorem State.answerDevice_of_memory {s : State} {n cl ch : Nat} {t : Tile} {h : Home} {m : SMap Byte} (hr : s.homeRec ch t = some h)
    (hloc : h.loc ≠ 1) (hl : h.leases.length < 4) (hm : s.readTile (1024 + cl) (s.desc t.part t.tid) t = .ok m) (hs : h.super = false) :
    (s.answerDevice n cl t h).msgs = dropNth s.msgs n ∧
      (s.answerDevice n cl t h).out = s.out ++
        [.fillReply (cl - 128) t (some (h.rver, s.dev.ptime.toNat + (s.desc t.part t.tid).leaseNs, m))] ∧
      (s.answerDevice n cl t h).homeRec ch t =
        some { h with leases := h.leases ++ [⟨cl - 128, s.dev.ptime.toNat + (s.desc t.part t.tid).leaseNs, false⟩] } := by
  have hfull : Nat.ble 4 h.leases.length = false := Bool.eq_false_iff.mpr (by simpa using hl)
  simp only [State.answerDevice, hfull, beq_iff_eq, hloc, if_false, Bool.false_eq_true, State.tileFor_of_readTile hm (.inl hs)]
  generalize hu : ((s.closeTile (1024 + cl) (s.desc t.part t.tid) t).passTile (1024 + cl) (s.desc t.part t.tid) t).charge t.part
    (s.portBucket (cl - 128) h.ch) ((s.desc t.part t.tid).tileBytes t).length = u
  have hcount : u.uncounted = s.uncounted := by simp [← hu]
  have hmsgs : u.msgs = s.msgs := (congrArg State.msgs hcount :)
  have hout : u.out = s.out := (congrArg State.out hcount :)
  refine ⟨congrArg (fun l => dropNth l n) hmsgs, congrArg (· ++ _) hout, ?_⟩
  obtain ⟨rfl, rfl⟩ := State.homeRec_names hr
  exact u.putHome_homeRec { h with leases := h.leases ++ [⟨cl - 128, s.dev.ptime.toNat + (s.desc h.tile.part h.tile.tid).leaseNs, false⟩] }

/-! ### Requests whose tile the home has a record of -/

section
variable {s : State} {n cl ch sent : Nat} {t : Tile} {g nd : Bool} {h : Home} (hmsg : s.msg n = some (.fillReq cl t g nd sent))
  (hprq : s.prqWaits (.fill cl t) = false) (hbefore : s.waitsBefore n cl t g = false) (hhome : s.homeAt cl t = .here ch)
  (hmoving : s.moving t = false) (hrec : s.homeRec ch t = some h)
include hmsg hprq hbefore hhome hmoving hrec

theorem fillRequest_of_device (hcl : 128 ≤ cl) : exec (.fillRequest n) s = .next (s.answerDevice n cl t h) := by
  show Host.Outcome.next (fillRequest n s) = _
  simp [fillRequest, hmsg, hprq, hbefore, hhome, hmoving, State.useHome_of_homeRec hrec, hcl]
/-- A cluster's request for a tile that nobody owns the writes of is answered by memory, or by the cluster that holds the released version; where it
is for a grant, the ownership goes with it and the pointer passes it. -/
theorem fillRequest_of_unowned (hw : h.wown = noOwner) (hgrant : g = true → h.leases = [] ∧ s.outranked ch n cl t sent = false) (hcl : cl < 96) :
    exec (.fillRequest n) s = .next (
      let u := if h.loc = 1 then (if h.ownc = cl then s else
          ((if g then s.putHome { h with wown := cl } else s.putHome h).dropMsg n).send (.serve h.ownc t (some cl) g))
        else s.answerFill n cl t h g nd
      if g then s.movePtr ch n cl t sent u else u) := by
  have hdev : ¬ 128 ≤ cl := by omega
  have hown : (h.wown == cl || h.wown == parkedOwner) = false := by
    have hne : 127 ≠ cl := by omega
    simp [hw, hne, noOwner, parkedOwner]
  show Host.Outcome.next (fillRequest n s) = _
  simp only [fillRequest, hmsg, hprq, hbefore, hhome, hmoving, State.useHome_of_homeRec hrec, hown]
  cases g with
  | false => simp [hdev]
  | true =>
    obtain ⟨hl, ho⟩ := hgrant rfl
    simp [hdev, hw, hl, ho]
/-- Memory answers with its data (R206). -/
theorem fillRequest_from_memory {m : SMap Byte} (hw : h.wown = noOwner)
    (hgrant : g = true → h.leases = [] ∧ s.outranked ch n cl t sent = false) (hcl : cl < 96) (hloc : h.loc ≠ 1) (hnd : nd = false)
    (hm : s.readTile (1024 + cl) (s.desc t.part t.tid) t = .ok m) (hb : s.mayTile (1024 + cl) (s.desc t.part t.tid) t = true)
    (hs : h.super = false) : Happens (.fillRequest n) s (fun u =>
      u.msgs = dropNth s.msgs n ++ [.fillAns cl t h.rver g 0 (s.desc t.part t.tid).shape false (some m)] ∧
        (g = true → (u.homeRec ch t).map (fun y => y.wown) = some cl)) := by
  obtain ⟨hmsgs, howner⟩ := State.answerFill_of_memory (n := n) g hrec hb hm (.inl hs)
  refine ⟨_, fillRequest_of_unowned hmsg hprq hbefore hhome hmoving hrec hw hgrant hcl, ?_⟩
  subst hnd
  cases g with
  | false => simpa [hloc] using hmsgs
  | true => simp [hloc, hmsgs, howner rfl]
/-- The cluster that holds the released version is told to serve it (R207). -/
theorem fillRequest_from_owner (hw : h.wown = noOwner) (hgrant : g = true → h.leases = [] ∧ s.outranked ch n cl t sent = false) (hcl : cl < 96)
    (hloc : h.loc = 1) (hown : h.ownc ≠ cl) : Happens (.fillRequest n) s (fun u =>
      u.msgs = dropNth s.msgs n ++ [.serve h.ownc t (some cl) g] ∧ (g = true → (u.homeRec ch t).map (fun y => y.wown) = some cl)) := by
  refine ⟨_, fillRequest_of_unowned hmsg hprq hbefore hhome hmoving hrec hw hgrant hcl, ?_⟩
  simp only [hloc, hown, if_true, if_false]
  cases g with
  | false => exact ⟨rfl, by simp⟩
  | true =>
    simp only [if_true, State.movePtr_msgs, State.movePtr_homeRec]
    exact ⟨rfl, fun _ => congrArg (Option.map Home.wown) (State.homeRec_of_putHome_wown (cl := cl) hrec (by rw [← hloc]; rfl))⟩

end

/-! ### Answers and timeouts (R194, R207, R209, R213) -/

theorem neighbourServe_of_published {s : State} {n owner key : Nat} {t : Tile} {dst : Option Nat} {g : Bool}
    (hmsg : s.msg n = some (.serve owner t dst g)) (hheld : s.held owner t = some key) (hst : (s.frame owner key).st = .published) :
    exec (.neighbourServe n) s = .next ((s.dropMsg n).setFrame owner key ((s.frame owner key).drain (.serve dst g))) := by
  show Host.Outcome.next (neighbourServe n s) = _
  simp [neighbourServe, hmsg, hheld, hst]

/-- A frame that a fill's answer reaches: CLEAN at the version that came, or with a grant DIRTY at the next one (R194). -/
def Frame.filled (f : Frame) (ver : Nat) (g : Bool) (le sh : Nat) (re : Bool) (m : SMap Byte) (wr : List (Nat × Nat)) : Frame :=
  { f with st := if g then .dirty else .clean, ver := if g then (ver + 1) % 65536 else ver, drn := false, lexp := le, shape := sh, redef := re,
           wrote := wr, data := m, lru := 0 }
theorem fillAnswer_fills {s : State} {n cl ver le sh key : Nat} {t : Tile} {g re : Bool} {dat : Option (SMap Byte)}
    (hmsg : s.msg n = some (.fillAns cl t ver g le sh re dat))
    (hkey : (setFrames t).find? (fun k => (s.frame cl k).tile == t &&
      ((s.frame cl k).st == FrSt.filling || (g && (s.frame cl k).st == FrSt.clean))) = some key) :
    Happens (.fillAnswer n) s (fun u => u.msgs = dropNth s.msgs n ∧
      ∃ wr, (u.frame cl key).unhinted = ((s.frame cl key).filled ver g le sh re
        (let m := dat.getD (freeFrame s.freeCtr); if g then clearRecord (s.desc t.part t.tid) m else m) wr).unhinted) := by
  refine ⟨fillAnswer n s, rfl, ?_⟩
  simp only [fillAnswer, hmsg, hkey]
  refine ⟨(State.fillHints_msgs ..).trans ((State.staleIf_msgs ..).trans (State.touchFrame_msgs ..)),
    if dat.isNone then wholeFrame else [], ?_⟩
  rw [State.fillHints_unhinted, State.staleIf_frame, State.touchFrame_frame_self, State.frame_congr (State.draw_clusters ..),
    State.updFrame_frame_self]
  rfl

theorem State.overdue_iff {s : State} {t : Tile} {sent : Nat} :
    s.overdue t sent = true ↔ s.arrived sent + (s.desc t.part t.tid).leaseNs < s.dev.ptime.toNat := by
  simp [State.overdue]
theorem State.not_overdue_of_le {s : State} {t : Tile} {sent : Nat} (h : s.dev.ptime.toNat ≤ s.arrived sent + (s.desc t.part t.tid).leaseNs) :
    ¬ s.overdue t sent = true :=
  mt State.overdue_iff.mp (not_lt.mpr h)
/-- A request for a grant that waits for another cluster's release fails once it is overdue, and not before (R209). -/
theorem grantTimeout_of_owned {s : State} {n cl ch sent : Nat} {t : Tile} {nd : Bool} {h : Home} (hmsg : s.msg n = some (.fillReq cl t true nd sent))
    (hhome : s.homeAt cl t = .here ch) (hrec : s.homeRec ch t = some h) (hno : h.wown ≠ noOwner) (hcl : h.wown ≠ cl)
    (hpark : h.wown ≠ parkedOwner) :
    exec (.grantTimeout n) s = .next (if s.overdue t sent then (s.dropMsg n).send (.fillFail cl t ⟨0x11, 0, t.q⟩) else s) := by
  show Host.Outcome.next (grantTimeout n s) = _
  cases ho : s.overdue t sent <;> simp [grantTimeout, hmsg, hhome, State.ownerAt_of_homeRec hrec, hno, hcl, hpark, ho, State.refuseFill, fcLeaseTimeout]
theorem remoteTimeout_of_away {s : State} {n cl dev sent : Nat} {t : Tile} {g nd : Bool} (hmsg : s.msg n = some (.fillReq cl t g nd sent))
    (hhome : s.homeAt cl t = .away dev) :
    exec (.remoteHomeTimeout n) s = .next (if s.overdue t sent then (s.dropMsg n).send (.fillFail cl t ⟨0x11, 0, t.q⟩) else s) := by
  show Host.Outcome.next (remoteTimeout n s) = _
  simp [remoteTimeout, hmsg, hhome, State.refuseFill, fcLeaseTimeout]

/-- Settles O48: each clause by the lemma about its event's case. -/
theorem fills : Obligations.Fills := by
  intro s n cl ch sent t h d
  refine ⟨fun g nd m hmsg hprq hbefore hhome hmoving hrec => ⟨fun hw hgrant hcl => ⟨fun hloc hnd hm hb hs => ?_, fun hloc hown => ?_⟩, ?_⟩,
    fun owner g key hmsg hheld hst => neighbourServe_of_published hmsg hheld hst, fun ver g le sh re dat key hmsg hkey => ?_, fun f hmsg => ?_,
    fun nd hmsg hhome hrec hno hcl hpark => ?_, fun g nd dev hmsg hhome => ?_⟩
  · exact fillRequest_from_memory hmsg hprq hbefore hhome hmoving hrec hw hgrant hcl hloc hnd hm hb hs
  · exact fillRequest_from_owner hmsg hprq hbefore hhome hmoving hrec hw hgrant hcl hloc hown
  · intro hcl hloc hs hl hm
    obtain ⟨hmsgs, hout, hrec'⟩ := State.answerDevice_of_memory (n := n) hrec hloc hl hm hs
    exact ⟨_, fillRequest_of_device hmsg hprq hbefore hhome hmoving hrec hcl, hmsgs, hout, congrArg _ hrec'⟩
  · obtain ⟨u, hu, hmsgs, wr, hf⟩ := fillAnswer_fills hmsg hkey
    exact ⟨u, hu, congrArg Frame.st hf, congrArg Frame.ver hf, congrArg Frame.data hf, congrArg Frame.lru hf, congrArg Frame.lexp hf,
      congrArg Frame.shape hf, congrArg Frame.redef hf, hmsgs⟩
  · show Host.Outcome.next (fillAnswer n s) = _
    simp only [fillAnswer, hmsg]
  · rw [grantTimeout_of_owned hmsg hhome hrec hno hcl hpark]
    exact ⟨fun hle => by rw [if_neg (State.not_overdue_of_le hle)], fun hlt => by rw [if_pos (State.overdue_iff.mpr hlt)]⟩
  · rw [remoteTimeout_of_away hmsg hhome]
    exact ⟨fun hle => by rw [if_neg (State.not_overdue_of_le hle)], fun hlt => by rw [if_pos (State.overdue_iff.mpr hlt)]⟩

/-! ## Grants (R195, R209, R310) -/

section
variable {s : State} {n cl ch v sent : Nat} {t : Tile} {h : Home} (hmsg : s.msg n = some (.grantReq cl t v sent))
  (hprq : s.prqWaits (.fill cl t) = false) (hbefore : s.waitsBefore n cl t true = false) (hhome : s.homeAt cl t = .here ch)
include hmsg hprq hbefore hhome

theorem grantRequest_of_outranked (ho : s.outranked ch n cl t sent = true) : exec (.grantRequest n) s = .next s := by
  show Host.Outcome.next (grantRequest n s) = _
  simp [grantRequest, hmsg, hprq, hbefore, hhome, ho]
/-- A request that no other goes before: a parked owner's right comes with the data of memory, and otherwise it is granted where nobody owns the
released version that it names, waits for leases, or is told to retry. -/
theorem grantRequest_of_first (ho : s.outranked ch n cl t sent = false) (hrec : s.homeRec ch t = some h) :
    exec (.grantRequest n) s = .next (s.movePtr ch n cl t sent (
      if h.wown = parkedOwner then (if h.leases = [] then s.answerFill n cl t h true false else s)
      else if h.wown = noOwner ∧ h.rver = v then
        (if h.leases = [] then ((s.putHome { h with wown := cl }).dropMsg n).send (.grantAns cl t) else s)
      else ((s.putHome h).dropMsg n).send (.retryAns cl t))) := by
  show Host.Outcome.next (grantRequest n s) = _
  simp [grantRequest, hmsg, hprq, hbefore, hhome, ho, State.useHome_of_homeRec hrec]
end

theorem writeGrant_of_clean {s : State} {n cl key : Nat} {t : Tile} (hmsg : s.msg n = some (.grantAns cl t)) (hheld : s.held cl t = some key)
    (hst : (s.frame cl key).st = .clean) : exec (.writeGrant n) s = .next ((s.dropMsg n).updFrame cl key (fun f =>
      { f with st := .dirty, ver := (f.ver + 1) % 65536, drn := false, wrote := [], data := clearRecord (s.desc t.part t.tid) f.data })) := by
  have hheld' : (s.dropMsg n).held cl t = some key := hheld
  have hst' : ((s.dropMsg n).frame cl key).st = .clean := hst
  show Host.Outcome.next (writeGrant n s) = _
  simp only [writeGrant, hmsg, hheld', hst']
  rfl
/-- A CLEAN frame told to retry is INVALID (R209). -/
theorem retry_of_clean {s : State} {n cl key : Nat} {t : Tile} (hmsg : s.msg n = some (.retryAns cl t)) (hheld : s.held cl t = some key)
    (hst : (s.frame cl key).st = .clean) : Happens (.retry n) s (fun w => (w.frame cl key).st = .invalid ∧ w.mem = s.mem) := by
  have hheld' : ((s.dropMsg n).countEv (unitCluster cl) 0x26 t.part 1).held cl t = some key := hheld
  have hst' : (((s.dropMsg n).countEv (unitCluster cl) 0x26 t.part 1).frame cl key).st = .clean := hst
  refine ⟨retry n s, rfl, ?_⟩
  simp only [retry, hmsg, hheld', hst', beq_self_eq_true, if_true]
  exact ⟨State.dropFrame_st .., (State.dropFrame_mem ..).trans (State.unparkTile_mem ..)⟩

/-! ## Leases (R214, R245, R374, R375) -/

theorem State.recalled_iff {s : State} {t : Tile} : s.recalled t = true ↔ .leaseRecall t ∈ s.msgs := by
  simp [State.recalled]
theorem State.not_recalled {s : State} {t : Tile} (h : .leaseRecall t ∉ s.msgs) : s.recalled t = false :=
  Bool.eq_false_iff.mpr (fun hr => h (State.recalled_iff.mp hr))
/-- The end of a recall is seen in the messages alone. -/
theorem State.endRecall_eq (s : State) (t : Tile) : s.endRecall t = { s with msgs := (s.endRecall t).msgs } := by
  unfold State.endRecall
  split_ifs <;> rfl
theorem leaseExpiry_of_expired {s : State} {cl key : Nat} (hl : (s.frame cl key).lexp ≠ 0) (he : (s.frame cl key).lexp ≤ s.dev.ptime.toNat)
    (hr : (s.frame cl key).ref = 0) (hst : (s.frame cl key).st = .clean) (hn : .leaseRecall (s.frame cl key).tile ∉ s.msgs) :
    exec (.leaseExpiry cl key) s = .next (s.setFrame cl key (s.frame cl key).drop) := by
  show Host.Outcome.next (leaseExpiry cl key s) = _
  simp [leaseExpiry, hl, he, hr, hst, State.not_recalled hn]
theorem leaseExpiry_of_standing {s : State} {cl key : Nat} (he : s.dev.ptime.toNat < (s.frame cl key).lexp)
    (hn : .leaseRecall (s.frame cl key).tile ∉ s.msgs) : exec (.leaseExpiry cl key) s = .next s := by
  show Host.Outcome.next (leaseExpiry cl key s) = _
  simp [leaseExpiry, not_le.mpr he, State.not_recalled hn]
theorem leaseExpiry_of_recalled {s : State} {cl key : Nat} (hl : (s.frame cl key).lexp ≠ 0) (hr : (s.frame cl key).ref = 0)
    (hst : (s.frame cl key).st = .clean) (hm : .leaseRecall (s.frame cl key).tile ∈ s.msgs) :
    exec (.leaseExpiry cl key) s =
      .next (((s.emit (.leaseBack cl (s.frame cl key).tile)).updFrame cl key Frame.drop).endRecall (s.frame cl key).tile) := by
  show Host.Outcome.next (leaseExpiry cl key s) = _
  simp [leaseExpiry, hl, hr, hst, State.recalled_iff.mpr hm, State.dropFrame_of_lease hl hr]

theorem State.lease_of_getElem? {s : State} {i n : Nat} {h : Home} {l : Lease} (hi : s.homes[i]? = some h) (hn : h.leases[n]? = some l) :
    s.lease i n = some (h, l) := by
  obtain ⟨hlt, rfl⟩ := List.getElem?_eq_some_iff.mp hi
  rw [State.lease, List.drop_eq_getElem_cons hlt]
  simp [List.head?_drop, hn]
section
variable {s : State} {i n : Nat} {h : Home} {l : Lease} (hlease : s.lease i n = some (h, l))
include hlease

/-- The home forgets a lease 40 ns after its expiry, while it is in bound (R375). -/
theorem homeLeaseExpiry_of_lease : exec (.homeLeaseExpiry i n) s =
    .next (if s.dev.inb = true ∧ l.exp + 40 ≤ s.dev.ptime.toNat then s.setLeases i (fun ls => dropNth ls n) else s) := by
  show Host.Outcome.next (homeLeaseExpiry i n s) = _
  simp [homeLeaseExpiry, hlease]
theorem leaseReturn_of_lease : exec (.leaseReturn i n) s = .next (s.setLeases i (fun ls => dropNth ls n)) := by
  show Host.Outcome.next (leaseReturn i n s) = _
  simp only [leaseReturn, hlease]
/-- A home out of bound for which a grant waits asks for a lease once (R374). -/
theorem leaseAsk_of_waiting {c v w : Nat} (hb : s.dev.inb = false) (ha : l.asked = false) (hm : .grantReq c h.tile v w ∈ s.msgs) :
    exec (.leaseReturnRequest i n) s =
      .next ((s.setLeases i (fun ls => modNth ls n (fun l => { l with asked := true }))).emit (.leaseAsk l.holder h.tile)) := by
  have hwaits : s.grantWaits h.tile = true := List.any_eq_true.mpr ⟨_, hm, by simp⟩
  show Host.Outcome.next (leaseAsk i n s) = _
  simp [leaseAsk, hlease, hb, ha, hwaits]
end

/-- Settles O49: the clauses of grants by what the home that holds the record does with the first request, those of leases each by the lemma about its
event's case. -/
theorem grantsAndLeases : Obligations.GrantsAndLeases := by
  constructor
  · intro s n cl ch v sent t h d mv
    refine ⟨fun hmsg hprq hbefore hhome hrec => ⟨grantRequest_of_outranked hmsg hprq hbefore hhome, fun ho => ?_⟩,
      fun key hmsg hheld hst => writeGrant_of_clean hmsg hheld hst, fun key hmsg hheld hst => retry_of_clean hmsg hheld hst⟩
    have he := grantRequest_of_first hmsg hprq hbefore hhome ho hrec
    have hpark : h.wown = noOwner → h.wown ≠ parkedOwner := fun hw => by rw [hw]; decide
    refine ⟨fun hw hv hl => ?_, fun hw hv hl => ?_, fun hp hn => ?_, fun m hp hl hb hm => ⟨_, he, ?_⟩⟩
    · rw [he, if_neg (hpark hw), if_pos ⟨hw, hv⟩, if_pos hl]
    · rw [he, if_neg (hpark hw), if_pos ⟨hw, hv⟩, if_neg hl, State.movePtr_self]
    · rw [he, if_neg hp, if_neg (not_and_or.mpr hn)]
    · obtain ⟨hmsgs, howner⟩ := State.answerFill_of_memory (n := n) true hrec hb hm (.inr hp)
      rw [if_pos hp, if_pos hl, State.movePtr_msgs, State.movePtr_homeRec]
      exact ⟨hmsgs, congrArg (Option.map Home.wown) (howner rfl)⟩
  · intro s cl key i n h l f without
    refine ⟨fun hl he hr hst hn => ?expired, leaseExpiry_of_standing, fun hl hr hst hm => ?recalled, fun hi hn => ?homeLeases⟩
    case expired =>
      refine ⟨_, leaseExpiry_of_expired hl he hr hst hn, ?_, ?_, rfl⟩ <;> rw [State.setFrame_frame_self] <;> rfl
    case recalled =>
      refine ⟨_, leaseExpiry_of_recalled hl hr hst hm, ?_⟩
      rw [State.endRecall_eq]
      exact ⟨congrArg Frame.st (State.updFrame_frame_self (s.emit _) cl key _), rfl, rfl⟩
    case homeLeases =>
      have hlease := State.lease_of_getElem? hi hn
      refine ⟨fun hb he => ?_, fun he => ?_, leaseReturn_of_lease hlease, fun c v w hb ha hm =>
        ⟨_, leaseAsk_of_waiting hlease hb ha hm, rfl, { h with leases := modNth h.leases n (fun l => { l with asked := true }) }, ?_, ?_⟩⟩
      · rw [homeLeaseExpiry_of_lease hlease, if_pos ⟨hb, he⟩]
        rfl
      · rw [homeLeaseExpiry_of_lease hlease, if_neg (fun hle => absurd hle.2 (not_le.mpr he))]
      · exact (modNth_getElem? ..).trans (by rw [hi]; rfl)
      · exact (modNth_getElem? ..).trans (by rw [hn]; rfl)

/-! ## Releases and acquires (R205, R243, R253) -/

section
variable {s : State} {n cl k id ch ver : Nat} {t : Tile} {held : Bool} {h : Home} (hmsg : s.msg n = some (.release cl t k id held ver))
  (hbefore : s.waitsBefore n cl t false = false) (hhome : s.homeOf cl t = .here ch) (hrec : s.homeRec ch t = some h)
include hmsg hbefore hhome hrec

/-- The home records the release of a DIRTY frame, or of one written back before, and answers the command. -/
theorem releaseAtHome_of_here : exec (.releaseAtHome n) s = .next (((s.putHome (
    if held then { h with rver := ver, loc := (s.holdsRelease cl t).toNat, ownc := cl, wown := noOwner, super := false, wrote := [] }
    else if h.wown = cl ∧ h.super = true then
      { h with rver := (h.rver + 1) % 65536, loc := 0, wown := noOwner, super := false, wrote := [] }
    else h)).dropMsg n).answered k id) := by
  show Host.Outcome.next (releaseAtHome n s) = _
  simp [releaseAtHome, hmsg, hbefore, hhome, State.useHome_of_homeRec hrec]
end

section
variable {s : State} {n k id ch v sent : Nat} {t : Tile} {h : Home} (hmsg : s.msg n = some (.tacq k id t v sent))
include hmsg

theorem tacqTimeout_eq :
    exec (.tacqTimeout n) s = .next (if s.overdue t sent then (s.dropMsg n).answerFault k id ⟨0x11, 0, t.q⟩ else s) := by
  show Host.Outcome.next (tacqTimeout n s) = _
  cases ho : s.overdue t sent <;> simp [tacqTimeout, hmsg, ho, fcLeaseTimeout]

variable (hfill : s.isFilling (clusterOf k) t = false) (hdrain : s.isDraining (clusterOf k) t = false)
  (hhome : s.homeAt (clusterOf k) t = .here ch) (hrec : s.homeRec ch t = some h)
include hfill hdrain hhome hrec

/-- An acquire waits until the released version has reached its minimum (R253). -/
theorem tacqAtHome_of_early (hv : verGe h.rver v = false) : exec (.tacqAtHome n) s = .next (s.draw 1) := by
  show Host.Outcome.next (tacqAtHome n s) = _
  simp [tacqAtHome, hmsg, hfill, hdrain, State.swept, hhome, hrec, State.rver_of_homeRec hrec, hv]
/-- An acquire whose cluster holds no frame of the tile is answered, and older tables of the cluster become STALE. -/
theorem tacqAtHome_of_none (hv : verGe h.rver v = true) (hheld : s.held (clusterOf k) t = none) : exec (.tacqAtHome n) s =
    .next ((((s.dropMsg n).draw 1).staleIf (clusterOf k) t.part (fun z => z.names t && verNewer v z.ver)).answered k id) := by
  have hheld' : ((s.dropMsg n).draw 1).held (clusterOf k) t = none := hheld
  show Host.Outcome.next (tacqAtHome n s) = _
  simp [tacqAtHome, hmsg, hfill, hdrain, State.swept, hhome, hrec, State.rver_of_homeRec hrec, hv, hheld']
/-- An older CLEAN frame of the acquire's cluster goes first (R243). -/
theorem tacqAtHome_of_older {key : Nat} (hv : verGe h.rver v = true) (hheld : s.held (clusterOf k) t = some key)
    (hst : (s.frame (clusterOf k) key).st = .clean) (hnew : verNewer v (s.frame (clusterOf k) key).ver = true) :
    exec (.tacqAtHome n) s = .next ((((((s.dropMsg n).draw 1).dropFrame (clusterOf k) key).unparkTile (clusterOf k) t).staleIf (clusterOf k) t.part
      (fun z => z.names t && verNewer v z.ver)).answered k id) := by
  have hheld' : ((s.dropMsg n).draw 1).held (clusterOf k) t = some key := hheld
  have hframe : ((s.dropMsg n).draw 1).frame (clusterOf k) key = s.frame (clusterOf k) key := rfl
  show Host.Outcome.next (tacqAtHome n s) = _
  simp [tacqAtHome, hmsg, hfill, hdrain, State.swept, hhome, hrec, State.rver_of_homeRec hrec, hv, hheld', hframe, hst, hnew]
end

/-! ## Reductions (R256) -/

theorem reductionAtHome_of_here {s : State} {n k id ch op : Nat} {t : Tile} {m : SMap Byte} {h : Home} {d : Desc}
    (hmsg : s.msg n = some (.reduce k id t op m)) (hdrain : s.isDraining (clusterOf k) t = false)
    (hbefore : s.waitsBefore n (clusterOf k) t false = false) (hmoving : s.moving t = false) (hhome : s.homeAt (clusterOf k) t = .here ch)
    (hrec : s.homeRec ch t = some h) (hw : h.wown = noOwner) (hloc : h.loc ≠ 1)
    (hd : d = ((s.core k).cmd id).elim (s.desc t.part t.tid) (fun x => x.desc s t.tid)) (hb : s.mayTile (1024 + clusterOf k) d t = true) :
    exec (.reductionAtHome n) s = .next (((((s.putHome h).dropMsg n).passTile (1024 + clusterOf k) d t).reduceTile
      (1024 + clusterOf k) d t op m).answered k id) := by
  show Host.Outcome.next (reductionAtHome n s) = _
  subst hd
  cases hc : (s.core k).cmd id <;> simp only [hc, Option.elim] at hb <;>
    simp [reductionAtHome, hmsg, hdrain, hbefore, hmoving, hhome, State.useHome_of_homeRec hrec, hw, hloc, hc, hb]

/-- Settles O50: each clause by what the home does with the message. -/
theorem releasesAndAcquires : Obligations.ReleasesAndAcquires := by
  intro s n k id ch t h cl
  refine ⟨fun ver hmsg hbefore hhome hrec => ?_, fun ver hmsg hbefore hhome hrec => ⟨fun hw hs => ?_, fun hn => ?_⟩,
    fun f sent hmsg hfill hdrain hhome hrec => ?_, fun f sent hmsg => ?_, fun op m hmsg hdrain hbefore hmoving hhome hrec hw hloc => ?_⟩
  · rw [releaseAtHome_of_here hmsg hbefore hhome hrec, if_pos rfl]
  · simpa [hw, hs] using releaseAtHome_of_here hmsg hbefore hhome hrec
  · have hn' : ¬ (h.wown = cl ∧ h.super = true) := by rcases hn with hn | hn <;> simp [hn]
    simpa [hn'] using releaseAtHome_of_here hmsg hbefore hhome hrec
  · refine ⟨tacqAtHome_of_none hmsg hfill hdrain hhome hrec, fun key hv hheld hst hnew =>
      ⟨_, tacqAtHome_of_older hmsg hfill hdrain hhome hrec hv hheld hst hnew, ?_⟩, tacqAtHome_of_early hmsg hfill hdrain hhome hrec⟩
    dsimp only
    rw [State.answered_frame, State.staleIf_frame, State.unparkTile_frame_st, State.dropFrame_st]
  · rw [tacqTimeout_eq hmsg]
    exact ⟨fun hle => by rw [if_neg (State.not_overdue_of_le hle)], fun hlt => by rw [if_pos (State.overdue_iff.mpr hlt)]⟩
  · intro d hb
    have hd : d = ((s.core k).cmd id).elim (s.desc t.part t.tid) (fun x => x.desc s t.tid) := by
      cases hc : (s.core k).cmd id <;> simp [d, hc]
    exact reductionAtHome_of_here hmsg hdrain hbefore hmoving hhome hrec hw hloc hd hb

/-! ## Frames read out and data that arrive (R194, R197, R205, R207, R210, R218) -/

theorem readOut_of_written {s : State} {cl key : Nat} (hw : s.beingWritten cl (s.frame cl key).tile 768 0 ≠ []) :
    exec (.readOutComplete cl key) s = .next s := by
  show Host.Outcome.next (readOut cl key s) = _
  simp [readOut, hw]

/-- The data of a frame on their way to memory: those of a DIRTY one are written back, those of a PUBLISHED one drained. -/
def Frame.leaving (f : Frame) (cl : Nat) : Msg :=
  if f.wasDirty then .wbData cl f.tile f.shape f.redef f.ver f.data false f.wrote else .drainData cl f.tile f.shape f.redef f.ver f.data f.wrote
/-- A frame whose data have left for a serve or a grant. -/
def Frame.kept (f : Frame) : Frame := { f with st := .clean, drn := true, why := .none, wrote := [] }

section
variable {s : State} {cl key : Nat} {f : Frame} (hf : s.frame cl key = f) (hst : f.st = .draining) (hw : s.beingWritten cl f.tile 768 0 = [])
include hf hst hw

theorem readOut_for_memory (hwhy : f.why = .serve none false ∨ f.why = .grant) :
    exec (.readOutComplete cl key) s = .next ((s.send (f.leaving cl)).setFrame cl key f.kept) := by
  show Host.Outcome.next (readOut cl key s) = _
  rcases hwhy with hwhy | hwhy <;> cases hd : f.wasDirty <;> simp [readOut, hf, hst, hw, hwhy, hd, Frame.leaving, Frame.kept]
theorem readOut_for_cluster {c : Nat} {g : Bool} (hwhy : f.why = .serve (some c) g) :
    exec (.readOutComplete cl key) s = .next ((((s.send (f.leaving cl)).setFrame cl key f.kept).send
      (.fillAns c f.tile f.ver g 0 f.shape f.redef (some f.data))).countEv (unitCluster c) 0x22 f.tile.part 1) := by
  show Host.Outcome.next (readOut cl key s) = _
  cases hd : f.wasDirty <;> simp [readOut, hf, hst, hw, hwhy, hd, Frame.leaving, Frame.kept]
theorem readOut_for_victim {u : Tile} (hwhy : f.why = .victim) (hnext : f.next = some u) :
    exec (.readOutComplete cl key) s =
      .next ((s.send (f.leaving cl)).setFrame cl key (f.fillFor u (s.desc u.part u.tid).shape f.ref)) := by
  show Host.Outcome.next (readOut cl key s) = _
  cases hd : f.wasDirty <;> simp [readOut, hf, hst, hw, hwhy, hnext, hd, Frame.leaving]
end

section
variable {s : State} {n cl sh ver : Nat} {t : Tile} {re dirty : Bool} {m : SMap Byte} {wr : List (Nat × Nat)} {f : Home → Home}
  (hprq : s.prqWaits (.wb cl t) = false) (hbefore : s.waitsBefore n cl t false = false)
include hprq hbefore

theorem State.landData_of_valid (hv : (s.desc t.part t.tid).v = true) (hs : (s.desc t.part t.tid).shape = sh)
    (hf : s.tileFault (1024 + cl) t.part accW (((s.desc t.part t.tid).tileBytes t).filter (fun b => b.back)) = none) :
    s.landData n cl t sh re ver m dirty wr f =
      (((s.dropMsg n).writeTile (1024 + cl) (s.desc t.part t.tid) t re m).passTile (1024 + cl) (s.desc t.part t.tid) t).updHome t f := by
  simp [State.landData, hprq, hbefore, hv, hs, hf]
/-- Data of a tile whose descriptor has become invalid are lost, with a machine check (R218). -/
theorem State.landData_of_invalid (hv : (s.desc t.part t.tid).v = false) : s.landData n cl t sh re ver m dirty wr f =
    ((s.dropMsg n).mcheck t.part 0xFFFF t.q 1 ver).lostFrame cl t dirty wr := by
  simp [State.landData, hprq, hbefore, hv]
end


/-- Settles O51: read-outs by the reason that the frame drains for, arrivals by what becomes of the data, and machine checks by their unit. -/
theorem drainsAndChecks : Obligations.DrainsAndChecks := by
  intro s n cl key t sh ver re park m wr f d kept data
  have hleaving : f.wasDirty = false → f.leaving cl = data := fun hd => if_neg (by simp [hd])
  refine ⟨readOut_of_written, fun hst hw => ⟨fun hwhy hd => ?_, fun c g hwhy hd => ?_, fun u hwhy hnext hd => ?_⟩,
    fun hprq hbefore hv hs hf => ⟨fun hmsg => ?_, fun hmsg => ?_⟩, fun hprq hbefore hv hmsg => ?_, ?_,
    fun x y => rfl, fun k hk => ?_, fun k hk => ?_⟩
  · rw [readOut_for_memory rfl hst hw hwhy, hleaving hd]
    rfl
  · exact ⟨_, readOut_for_cluster rfl hst hw hwhy, by rw [hleaving hd]; exact List.append_assoc .., State.setFrame_frame_self ..⟩
  · rw [readOut_for_victim rfl hst hw hwhy hnext, Frame.leaving, if_pos hd]
  · show Host.Outcome.next (drainArrival n s) = _
    simp only [drainArrival, hmsg]
    rw [State.landData_of_valid hprq hbefore hv hs hf]
  · show Host.Outcome.next (victimWriteBack n s) = _
    simp only [victimWriteBack, hmsg]
    rw [State.landData_of_valid hprq hbefore hv hs hf]
  · show Host.Outcome.next (victimWriteBack n s) = _
    simp only [victimWriteBack, hmsg]
    rw [State.landData_of_invalid hprq hbefore hv]
  · exact ⟨_, rfl, State.dropFrame_st ..⟩
  · show Host.Outcome.next (machineCheck 5 k 0 s) = _
    simp only [machineCheck, hk]
  · refine ⟨_, rfl, ?_⟩
    simp only [machineCheck, hk]
    exact congrArg Core.run (State.updCore_core_self ..)

end Sys2Proof.Machine
end

section
/-! SUPPORT. Memory keeps its canonical form through every event and every step (R221, R235): the operations of each keep it, and
so does a core's move (Laws/Canon1 to Laws/Canon5). -/

namespace Sys2Proof.Machine

/-- What each event does keeps the form. -/
theorem exec_event_wf {i : Instr} {s : State} (hc : i.cls = none) (h : s.Wf) : Res.Wf (exec i s) := by
  cases i with
  | stalledBundleCommit => exact execStalledBundleCommit_wf h
  | safeDistanceWatchdog => exact execSafeDistanceWatchdog_wf h
  | handlerWatchdog => exact execHandlerWatchdog_wf h
  | taskEnd => exact execTaskEnd_wf h
  | decrement => exact execDecrement_wf h
  | releaseArrival => exact execReleaseArrival_wf h
  | recordCreation => exact execRecordCreation_wf h
  | overflowRingPlacement => exact execOverflowRingPlacement_wf h
  | rdqRefill => exact execRdqRefill_wf h
  | rdqLoadReport => exact execRdqLoadReport_wf h
  | dispatch => exact execDispatch_wf h
  | gangDispatch => exact execGangDispatch_wf h
  | engineCommandTake => exact execEngineCommandTake_wf h
  | frameAllocation => exact execFrameAllocation_wf h
  | commandReplay => exact execCommandReplay_wf h
  | engineCommandCompletion => exact execEngineCommandCompletion_wf h
  | fillRequest => exact execFillRequest_wf h
  | neighbourServe => exact execNeighbourServe_wf h
  | fillAnswer => exact execFillAnswer_wf h
  | grantRequest => exact execGrantRequest_wf h
  | writeGrant => exact execWriteGrant_wf h
  | retry => exact execRetry_wf h
  | grantTimeout => exact execGrantTimeout_wf h
  | releaseAtHome => exact execReleaseAtHome_wf h
  | readOutComplete => exact execReadOutComplete_wf h
  | drainArrival => exact execDrainArrival_wf h
  | victimWriteBack => exact execVictimWriteBack_wf h
  | tacqAtHome => exact execTacqAtHome_wf h
  | tacqTimeout => exact execTacqTimeout_wf h
  | remoteHomeTimeout => exact execRemoteHomeTimeout_wf h
  | leaseExpiry => exact execLeaseExpiry_wf h
  | homeLeaseExpiry => exact execHomeLeaseExpiry_wf h
  | leaseReturn => exact execLeaseReturn_wf h
  | reductionAtHome => exact execReductionAtHome_wf h
  | machineCheck => exact execMachineCheck_wf h
  | loadDataArrival => exact execLoadDataArrival_wf h
  | storePerformed => exact execStorePerformed_wf h
  | relAtHome => exact execRelAtHome_wf h
  | acqAtHome => exact execAcqAtHome_wf h
  | regionDrain => exact execRegionDrain_wf h
  | regionDrainComplete => exact execRegionDrainComplete_wf h
  | acqReply => exact execAcqReply_wf h
  | amoAtSlice => exact execAmoAtSlice_wf h
  | hostAtomicCompletion => exact execHostAtomicCompletion_wf h
  | hostAtomicExhausted => exact execHostAtomicExhausted_wf h
  | fabricRequestAtTarget => exact execFabricRequestAtTarget_wf h
  | fabricReply => exact execFabricReply_wf h
  | fabricTimeout => exact execFabricTimeout_wf h
  | shunerFrameReceive => exact execShunerFrameReceive_wf h
  | preemptionOrder => exact execPreemptionOrder_wf h
  | forcedSave => exact execForcedSave_wf h
  | prqresp => exact execPrqresp_wf h
  | priPageGroupResponse => exact execPriPageGroupResponse_wf h
  | atsInvalidation => exact execAtsInvalidation_wf h
  | vacate => exact execVacate_wf h
  | sageEvaluation => exact execSageEvaluation_wf h
  | vacancy => exact execVacancy_wf h
  | resume => exact execResume_wf h
  | qstart => exact execQstart_wf h
  | qstopDrain => exact execQstopDrain_wf h
  | qstopSave => exact execQstopSave_wf h
  | qswap => exact execQswap_wf h
  | load => exact execLoad_wf h
  | unload => exact execUnload_wf h
  | descriptorCommand => exact execDescriptorCommand_wf h
  | launch => exact execLaunch_wf h
  | copy => exact execCopy_wf h
  | doorbell => exact execDoorbell_wf h
  | ownclaim => exact execOwnclaim_wf h
  | handover => exact execHandover_wf h
  | opreq => exact execOpreq_wf h
  | operatingPointSwitch => exact execOperatingPointSwitch_wf h
  | clstate => exact execClstate_wf h
  | clusterWake => exact execClusterWake_wf h
  | partitionEnable => exact execPartitionEnable_wf h
  | partitionDisable => exact execPartitionDisable_wf h
  | partitionReset => exact execPartitionReset_wf h
  | genbump => exact execGenbump_wf h
  | generationBumpComplete => exact execGenerationBumpComplete_wf h
  | generationBumpHold => exact execGenerationBumpHold_wf h
  | translationCacheExpiry => exact execTranslationCacheExpiry_wf h
  | ptpMessage => exact execPtpMessage_wf h
  | ptpSyncTimeout => exact execPtpSyncTimeout_wf h
  | bucketRefill => exact execBucketRefill_wf h
  | floorSegmentClose => exact execFloorSegmentClose_wf h
  | hardThermalTrip => exact execHardThermalTrip_wf h
  | packageReset => exact execPackageReset_wf h
  | powerOnReset => exact execPowerOnReset_wf h
  | functionLevelReset => exact execFunctionLevelReset_wf h
  | bootStage => exact execBootStage_wf h
  | getVersion => exact execGetVersion_wf h
  | getCapabilities => exact execGetCapabilities_wf h
  | negotiateAlgorithms => exact execNegotiateAlgorithms_wf h
  | getDigests => exact execGetDigests_wf h
  | getCertificate => exact execGetCertificate_wf h
  | challenge => exact execChallenge_wf h
  | getMeasurements => exact execGetMeasurements_wf h
  | registerWrite => exact execRegisterWrite_wf h
  | emptyBundle => exact execEmptyBundle_wf h
  | correctedError => exact execCorrectedError_wf h
  | thermalSensorUpdate => exact execThermalSensorUpdate_wf h
  | ptimeAdvance => exact execPtimeAdvance_wf h
  | fabricPathFailure => exact execFabricPathFailure_wf h
  | leaseReturnRequest => exact execLeaseReturnRequest_wf h
  | ringCommandCompletion => exact execRingCommandCompletion_wf h
  | _ => exact absurd hc (Option.some_ne_none _)
theorem step_wf {s : State} (h : s.Wf) : Res.Wf (step s) := by
  unfold step
  split
  · exact runCore_wf h
  · split
    next hm => exact exec_event_wf (State.event_of_mayHappen hm).1 h
    · exact next_wf h
  · exact runCore_wf h

/-- Settles O6: a step is a core's move, an event that may happen, or the passing of an entry of the agenda, and each keeps the form. -/
theorem memoryFormKept : Obligations.MemoryFormKept := by
  intro s t hs ht
  have h : Res.Wf (step s) := step_wf hs
  rw [ht] at h
  exact h

end Sys2Proof.Machine
end

section
/-! SUPPORT. L slots (R220, R226, R233): the checks of an access in their order, the slot that faults, waits or commits by them, and what its commit
leaves of its core. -/

namespace Sys2Proof.Machine

/-! ## Addresses (R220) -/

/-- The displacement of an access, added to its base register as words are. -/
theorem Core.ea_eq (c : Core) (b d : Nat) (x : Option Nat) (n : Nat) : c.ea b d x n = (c.rg b + (match x with
    | none => (BitVec.ofNat 8 d).signExtend 64 * BitVec.ofNat 64 n
    | some e => (BitVec.ofNat 39 (e * 256 + d)).signExtend 64)).toNat := by
  rw [Core.ea, BitVec.ofInt_add, BitVec.ofInt_natCast, BitVec.ofNat_toNat, BitVec.setWidth_eq]
  cases x with
  | none =>
    rw [dispL, BitVec.ofInt_mul, BitVec.ofInt_natCast]
    exact congrArg (fun v : W64 => (c.rg b + v * BitVec.ofNat 64 n).toNat) (w64_sext d (by decide))
  | some e => exact congrArg (fun v : W64 => (c.rg b + v).toNat) (w64_sext _ (by decide))

/-! ## The checks of an access (R226) -/

section
variable {s : State} {a n acc : Nat} {r : Xr}

theorem State.access_of_unaligned (ha : a % n ≠ 0) : s.access a n acc = .error ⟨5, 0, a⟩ := by
  rw [State.access, if_pos (bne_iff_ne.mpr ha)]
  rfl
theorem State.access_of_aligned (ha : a % n = 0) : s.access a n acc = s.lsTarget s.cur s.me.csr.partid.toNat a acc := by
  rw [State.access, ha]
  rfl
theorem State.access_of_untranslated {e : FaultInfo} (ha : a % n = 0) (hx : s.xlate s.cur s.me.csr.partid.toNat a acc = .error e) :
    s.access a n acc = .error e := by
  rw [State.access_of_aligned ha, State.lsTarget, hx]
theorem State.access_of_no_memory (ha : a % n = 0) (hx : s.xlate s.cur s.me.csr.partid.toNat a acc = .ok r)
    (hk : paKind r.pa = .remote ∨ paKind r.pa = .none) : s.access a n acc = .error ⟨7, 2, a⟩ := by
  rw [State.access_of_aligned ha, State.lsTarget, hx]
  rcases hk with hk | hk <;> simp only [hk] <;> rfl
/-- Of memory of the device and of the host, an access has its physical address. -/
theorem State.access_of_memory (ha : a % n = 0) (hx : s.xlate s.cur s.me.csr.partid.toNat a acc = .ok r)
    (hk : paKind r.pa = .localHbm ∨ paKind r.pa = .host) : s.access a n acc = .ok r.pa := by
  rw [State.access_of_aligned ha, State.lsTarget, hx]
  rcases hk with hk | hk <;> simp only [hk]
theorem State.accessing_of_error {e : FaultInfo} (h : s.access a n acc = .error e) (f : Nat → SlotEff) :
    s.accessing a n acc f = faults e.code e.cause e.addr := by
  rw [State.accessing, h]
  rfl
theorem State.accessing_of_ok {pa : Nat} (h : s.access a n acc = .ok pa) (f : Nat → SlotEff) : s.accessing a n acc f = f pa := by
  rw [State.accessing, h]
end

/-! ## An L slot alone in its bundle -/

section
variable {i : Instr} {s : State} {e : SlotEff} (hc : i.cls = some .l)
include hc

theorem asked_lSlot (hr : ReadyL i s) : Asked i (semOf i) s :=
  ⟨hr.1, .inr hr.2, illegal_sole_of_not_safe (fun gd n x hi => by subst hi; cases hc) _ s⟩
theorem exec_lSlot : exec i s = runSole i (semOf i) s := exec_eq_runSole (by simp [hc]) s
theorem traps_lSlot {code cause addr : Nat} (hs : semOf i s = faults code cause addr) (hr : ReadyL i s) : Traps i s code cause addr :=
  traps_of_faults (exec_lSlot hc) (asked_lSlot hc hr) hs
theorem stalls_lSlot (hs : semOf i s = e) (hf : e.flt = none) (he : e.errs = []) (hw : e.wait = true) (hp : e.prep = id) (hr : ReadyL i s) :
    Stalls i s := by
  subst hs
  exact stalls_of (exec_lSlot hc) (asked_lSlot hc hr) hf (.inl he) hw (congrFun hp s)

/-- An access faults by the first of its checks that fails. -/
theorem faults_of_accessing {a n acc : Nat} {f : Nat → SlotEff} (hs : semOf i s = s.accessing a n acc f) (hr : ReadyL i s) :
    (a % n ≠ 0 → Traps i s 5 0 a) ∧
    (∀ e, a % n = 0 → s.xlate s.cur s.me.csr.partid.toNat a acc = .error e → Traps i s e.code e.cause e.addr) ∧
    (∀ r, a % n = 0 → s.xlate s.cur s.me.csr.partid.toNat a acc = .ok r → (paKind r.pa = .remote ∨ paKind r.pa = .none) → Traps i s 7 2 a) :=
  ⟨fun ha => traps_lSlot hc (hs.trans (State.accessing_of_error (State.access_of_unaligned ha) f)) hr,
    fun _ ha hx => traps_lSlot hc (hs.trans (State.accessing_of_error (State.access_of_untranslated ha hx) f)) hr,
    fun _ ha hx hk => traps_lSlot hc (hs.trans (State.accessing_of_error (State.access_of_no_memory ha hx hk) f)) hr⟩
end

/-- Settles O30: each instruction accesses memory at its address, and only behind the checks does it do anything else. -/
theorem accessFaults : Obligations.AccessFaults := by
  intro s gd t b d x ea faults
  have hea (n : Nat) : s.me.ea b d x n = ea n := s.me.ea_eq b d x n
  have of {i : Instr} {n acc : Nat} {f : Nat → SlotEff} (hc : i.cls = some .l) (hs : semOf i s = s.accessing (s.me.ea b d x n) n acc f) :
      faults i n acc := fun hr => faults_of_accessing hc (hea n ▸ hs) hr
  exact ⟨of rfl rfl, of rfl rfl, of rfl rfl, of rfl rfl, of rfl rfl, of rfl rfl, of rfl rfl, of rfl rfl, of rfl rfl, of rfl rfl, of rfl rfl,
    of rfl rfl, of rfl rfl, of rfl rfl, of rfl rfl, of rfl rfl⟩

end Sys2Proof.Machine
end

section
/-! SUPPORT. What the commit of an L slot leaves (R220 to R228): the marks of its core that decide how the iteration ends, the page that stays
translated, the lines of an access, and the loads and stores that leave the core. -/

namespace Sys2Proof.Machine

/-! ## Commits that leave the marks of their core -/

/-- The running core as its iteration's own effects begin. -/
def Core.cleaned (c : Core) : Core := { c with settle := false, stalled := false, xfer := .none }
theorem State.clean_me (s : State) : s.clean.me = s.me.cleaned := State.updMe_me s Core.cleaned
@[simp] theorem State.clean_cur (s : State) : s.clean.cur = s.cur := rfl
theorem State.clean_csr (s : State) : s.clean.me.csr = s.me.csr := by rw [State.clean_me]; rfl

/-- What of a core an L slot leaves as it was, of all that decides how an iteration ends. -/
def Core.marks (c : Core) : Run × Csr × Bool × Bool × Bool × Xfer := (c.run, c.csr, c.preempt, c.settle, c.stalled, c.xfer)
/-- The running core, and the marks of every core. -/
def State.marks (s : State) : Nat × (Nat → Run × Csr × Bool × Bool × Bool × Xfer) := (s.cur, fun k => (s.core k).marks)
theorem Core.of_marks {c d : Core} (h : c.marks = d.marks) : c.run = d.run ∧ c.hm = d.hm ∧ c.preempt = d.preempt ∧ c.settle = d.settle ∧
    c.stalled = d.stalled ∧ c.xfer = d.xfer := by
  obtain ⟨hrun, hcsr, hrest⟩ : c.run = d.run ∧ c.csr = d.csr ∧ _ := by simpa only [Core.marks, Prod.mk.injEq] using h
  exact ⟨hrun, congrArg (fun r : Csr => bitOf r.status.toNat 0) hcsr, hrest⟩
theorem State.cur_of_marks {s u : State} (h : u.marks = s.marks) : u.cur = s.cur := congrArg Prod.fst h
theorem State.me_marks {s u : State} (h : u.marks = s.marks) : u.me.marks = s.me.marks :=
  (congrFun (congrArg Prod.snd h) u.cur).trans (congrArg (fun k => (s.core k).marks) (State.cur_of_marks h))
theorem State.marks_of_cores {s u : State} (hk : u.cores = s.cores) (hc : u.cur = s.cur) : u.marks = s.marks :=
  Prod.ext hc (funext fun k => congrArg (fun m => (mget m k Core.reset).marks) hk)
theorem State.updCore_marks (s : State) (k : Nat) {f : Core → Core} (h : ∀ c, (f c).marks = c.marks) : (s.updCore k f).marks = s.marks := by
  refine Prod.ext rfl (funext fun j => ?_)
  by_cases hj : j = k
  · subst hj
    exact (congrArg Core.marks (s.updCore_core_self j f)).trans (h _)
  · exact congrArg Core.marks (s.updCore_core_of_ne f hj)

section
variable {i : Instr} {s : State} {w : Bool} {p F : State → State} (hc : i.cls = some .l) (hr : ReadyL i s)
  (hs : semOf i s = { wait := w, prep := p, commit := F }) (hw : w = false)
include hc hr hs hw

/-- A commit that leaves the marks. -/
theorem doesTo_of_marks {u : State} (hu : F s.clean = u) (hm : u.marks = s.clean.marks) : DoesTo i s u := by
  have ha := asked_lSlot hc hr
  have hcur : u.cur = s.clean.cur := State.cur_of_marks hm
  obtain ⟨hrun, hmode, hpre, hset, hst, hxf⟩ := Core.of_marks (s.clean_me ▸ State.me_marks hm : u.me.marks = s.me.cleaned.marks)
  refine doesTo_of (exec_lSlot hc) ha.ready ha.free ha.legal hs ⟨rfl, rfl, hw, rfl, rfl⟩ ?_ (hu ▸ rfl)
    (fun k _ => congrArg (fun t : State => t.core k) hu) hcur ⟨hrun.trans hr.1.1.1, hmode, hpre⟩
  dsimp only
  rw [hu]
  generalize u.me = c at hset hst hxf
  cases c
  cases hset
  cases hst
  cases hxf
  rfl

/-- A commit of g on the running core, and of v beside the cores. -/
theorem doesTo_updMe {v : State} {f g : Core → Core} (hv : F s.clean = v.clean.updMe f) (hk : v.cores = s.cores) (hcur : v.cur = s.cur)
    (hf : f s.me.cleaned = (g s.me).cleaned) (hg : (g s.me).marks = s.me.marks) : DoesTo i s (v.updMe g) := by
  have ha := asked_lSlot hc hr
  have hme : v.me = s.me := congrArg₂ (fun m k => mget m k Core.reset) hk hcur
  refine doesTo_of (exec_lSlot hc) ha.ready ha.free ha.legal hs ⟨rfl, rfl, hw, rfl, rfl⟩ ?_ (show State.Alike _ (F s.clean) from hv ▸ rfl) (fun k hne => ?_) hcur ?_
  · dsimp only
    rw [hv, State.updMe_me, State.clean_me, State.updMe_me, hme, hf]
    rfl
  · have hne : k ≠ v.cur := hcur ▸ hne
    dsimp only
    rw [hv, State.updMe_core_of_ne v.clean f hne, State.updMe_core_of_ne v g hne]
    exact State.updMe_core_of_ne v _ hne
  · rw [State.updMe_me, hme]
    obtain ⟨hrun, hmode, hpre, -⟩ := Core.of_marks hg
    exact ⟨hrun.trans hr.1.1.1, hmode, hpre⟩
/-- A commit beside the cores. -/
theorem doesTo_unmarked {v : State} (hv : F s.clean = v.clean) (hk : v.cores = s.cores) (hcur : v.cur = s.cur) : DoesTo i s v := by
  have ha := asked_lSlot hc hr
  have hme : v.me = s.me := congrArg₂ (fun m k => mget m k Core.reset) hk hcur
  refine doesTo_of (exec_lSlot hc) ha.ready ha.free ha.legal hs ⟨rfl, rfl, hw, rfl, rfl⟩ ?_ (show State.Alike _ (F s.clean) from hv ▸ rfl) (fun k hne => ?_) hcur ?_
  · dsimp only
    rw [hv, State.clean_me]
    rfl
  · dsimp only
    rw [hv]
    exact State.updMe_core_of_ne v _ (hcur ▸ hne)
  · rw [hme]
    exact ⟨hr.1.1.1, rfl, rfl⟩
end

/-! ## Acquire and release (R233) -/

theorem State.syncWord_of_word {s : State} {a acc pa : Nat} (h : s.access a 8 acc = .ok pa)
    (hw : (s.regionWord s.me.csr.partid.toNat a).isSome = true) (f : Nat → SlotEff) : s.syncWord a acc f = f pa := by
  rw [State.syncWord, State.accessing_of_ok h, if_pos hw]
theorem State.syncWord_of_no_word {s : State} {a acc pa : Nat} (h : s.access a 8 acc = .ok pa)
    (hw : s.regionWord s.me.csr.partid.toNat a = none) (f : Nat → SlotEff) : s.syncWord a acc f = faults 7 4 a := by
  rw [State.syncWord, State.accessing_of_ok h, hw]
  rfl

/-- The core as its ACQ has asked the word's home: the register waits for the answer. -/
def Core.acquires (c : Core) (d : Dest) : Core := { c with
  fly := c.fly.filter (fun f => f.dest != d), loads := c.loads ++ [⟨d, [], 0, none, c.nextSeq, false, true⟩], nextSeq := c.nextSeq + 1 }

/-- Settles O36: ACQ commits to its request, REL waits or commits to its message, and both fault where no region has its word. -/
theorem acquireRelease : Obligations.AcquireRelease := by
  intro s gd t b d x r part a word ok still ha hok
  have hacc {acc : Nat} (hx : s.xlate s.cur part a acc = .ok r) : s.access a 8 acc = .ok r.pa := State.access_of_memory ha hx hok
  refine ⟨fun hr hx hw => ?acq, fun hr hx hw => ?noWord, fun hr hx hw hst => ?rel, fun hr hx hw hst => ?waits, fun hr hx hw => ?noWordRel⟩
  case acq =>
    refine doesTo_updMe (v := s.send (.acq s.cur part a r.pa)) (f := fun c => c.acquires (c.dg t)) (g := fun c => c.acquires (s.me.dg t)) rfl hr
      (State.syncWord_of_word (hacc hx) hw _) rfl ?_ rfl rfl rfl rfl
    dsimp only
    rw [State.clean_csr]
    rfl
  case noWord => exact traps_lSlot rfl (State.syncWord_of_no_word (hacc hx) hw _) hr
  case rel =>
    obtain ⟨hd, hl⟩ := hst
    refine doesTo_unmarked (v := s.send (.rel s.cur part a r.pa (s.me.rg t).toNat)) rfl hr (State.syncWord_of_word (hacc hx) hw _)
      ?_ ?_ rfl rfl
    · simp [hd, hl]
    · rw [State.clean_csr]
      rfl
  case waits =>
    refine stalls_lSlot rfl (State.syncWord_of_word (hacc hx) hw _) rfl rfl ?_ rfl hr
    show (!s.deviceDone s.cur || s.me.loads.any PLoad.outside) = true
    by_contra h
    rw [Bool.not_eq_true, Bool.or_eq_false_iff, Bool.not_eq_false'] at h
    exact hst h
  case noWordRel => exact traps_lSlot rfl (State.syncWord_of_no_word (hacc hx) hw _) hr

end Sys2Proof.Machine
end

section
/-! SUPPORT. Loads and stores outside every region (R220, R222, R227, R228, R344, R356 to R358): an access keeps its place within its page, so that a
line, or two, holds it; its page stays translated; and the pieces that leave the core. -/

namespace Sys2Proof.Machine

/-! ## Translation keeps the place in a page (R356) -/

/-- A leaf maps 64 KiB or more, and stands on a multiple of that. -/
theorem walkFrom_leaf {rd : Nat → Except (Nat × Nat) Nat} {miss x : Nat} {levels : List (Nat × Nat × Bool × Bool)} {base : Nat} {l : Leaf}
    (hl : ∀ v ∈ levels, 16 ≤ v.1) (h : walkFrom rd miss x levels base = .ok l) : 16 ≤ l.shift ∧ 2 ^ 16 ∣ l.base := by
  induction levels generalizing base with
  | nil => cases h
  | cons v rest ih =>
    obtain ⟨sh, n, tab, leaf⟩ := v
    obtain ⟨hsh, hrest⟩ := List.forall_mem_cons.mp hl
    simp only [walkFrom] at h
    split at h
    · cases h
    · split_ifs at h with h1 h2 h3 h4
      · cases h
        exact ⟨hsh, (pow_dvd_pow 2 hsh).trans (Nat.dvd_of_mod_eq_zero (beq_iff_eq.mp (Bool.and_eq_true_iff.mp h3).2))⟩
      · exact ih hrest h
theorem Leaf.target_mod {l : Leaf} (h : 16 ≤ l.shift ∧ 2 ^ 16 ∣ l.base) (x : Nat) : l.target x % 65536 = x % 65536 := by
  obtain ⟨hs, k, hb⟩ := h
  rw [Leaf.target, hb, show 65536 = 2 ^ 16 from rfl, Nat.mul_add_mod]
  exact Nat.mod_mod_of_dvd x (pow_dvd_pow 2 hs)
theorem stage2_target_mod {s : State} {p : Part} {ipa : Nat} {l : Leaf} (h : stage2 s p ipa = .ok l) : l.target ipa % 65536 = ipa % 65536 := by
  unfold stage2 at h
  split_ifs at h
  split at h
  · cases h
  next hw =>
    split_ifs at h
    cases h
    exact Leaf.target_mod (walkFrom_leaf (by decide) hw) ipa
theorem walk_mod {s : State} {p : Part} {gva : Nat} {r : Xr} (h : walk s p gva = .ok r) : r.pa % 65536 = gva % 65536 := by
  simp only [walk] at h
  split at h
  · cases h
  next l hl =>
    split at h
    · cases h
    next hs =>
      cases h
      refine (stage2_target_mod hs).trans ?_
      split_ifs at hl
      · rw [Leaf.target_mod (walkFrom_leaf (by decide) hl)]
      · cases hl
        simp only [Leaf.target, Nat.zero_add]
        exact Nat.mod_mod_of_dvd gva (pow_dvd_pow 2 (by decide : 16 ≤ 64))
theorem State.cached_mod {s : State} {who part gva : Nat} {r : Xr} (h : s.cached who part gva = some r) : r.pa % 65536 = gva % 65536 := by
  simp only [State.cached] at h
  split at h
  · cases h
  · cases h
    simp
/-- A translation, cached or walked, keeps the place in the page. -/
theorem State.xlate_mod {s : State} {who part gva acc : Nat} {r : Xr} (h : s.xlate who part gva acc = .ok r) : r.pa % 65536 = gva % 65536 := by
  unfold State.xlate at h
  extract_lets p fin fresh at h
  have hfin (q : Xr) (hq : fin q = .ok r) : q = r := by
    simp only [fin] at hq
    split at hq
    · cases hq
    · split_ifs at hq
      exact Except.ok.inj hq
  have hfresh (hq : fresh = .ok r) : r.pa % 65536 = gva % 65536 := by
    simp only [fresh] at hq
    split at hq
    · cases hq
    next hw => exact hfin _ hq ▸ walk_mod hw
  split_ifs at h
  split at h
  · exact hfresh h
  next q hc =>
    split_ifs at h
    · exact hfresh h
    · exact hfin q h ▸ State.cached_mod hc

/-! ## A page stays translated (R358) -/

theorem State.keepXlate_eq (s : State) (who part gva : Nat) :
    s.keepXlate who part gva = { s with xlats := (s.keepXlate who part gva).xlats } := by
  unfold State.keepXlate
  split
  · rfl
  · split <;> rfl
theorem State.reXlate_eq (s : State) (who part gva : Nat) :
    s.reXlate who part gva = { s with xlats := (s.reXlate who part gva).xlats, pmcs := (s.reXlate who part gva).pmcs } := by
  unfold State.reXlate
  split
  · rw [State.keepXlate_eq]
  · split
    · rw [State.keepXlate_eq]
      rfl
    · rfl
@[simp] theorem State.reXlate_cores (s : State) (who part gva : Nat) : (s.reXlate who part gva).cores = s.cores := by rw [State.reXlate_eq]
@[simp] theorem State.reXlate_cur (s : State) (who part gva : Nat) : (s.reXlate who part gva).cur = s.cur := by rw [State.reXlate_eq]
@[simp] theorem State.reXlate_mem (s : State) (who part gva : Nat) : (s.reXlate who part gva).mem = s.mem := by rw [State.reXlate_eq]
@[simp] theorem State.reXlate_parts (s : State) (who part gva : Nat) : (s.reXlate who part gva).parts = s.parts := by rw [State.reXlate_eq]
@[simp] theorem State.reXlate_core (s : State) (who part gva k : Nat) : (s.reXlate who part gva).core k = s.core k := by
  rw [State.core, State.reXlate_cores, State.core]
/-- What a core is doing does not bear on translations. -/
theorem State.withCores_keepXlate (s : State) (l : SMap Core) (who part gva : Nat) :
    (s.withCores l).keepXlate who part gva = (s.keepXlate who part gva).withCores l := by
  have hc : (s.withCores l).cached who part gva = s.cached who part gva := rfl
  have hw : walk (s.withCores l) ((s.withCores l).part part) gva = walk s (s.part part) gva := rfl
  unfold State.keepXlate
  rw [hc, hw]
  cases (s.cached who part gva).isSome
  · cases walk s (s.part part) gva <;> rfl
  · rfl
theorem State.withCores_reXlate (s : State) (l : SMap Core) (who part gva : Nat) :
    (s.withCores l).reXlate who part gva = (s.reXlate who part gva).withCores l := by
  have hc : (s.withCores l).cached who part gva = s.cached who part gva := rfl
  unfold State.reXlate
  rw [hc]
  cases s.cached who part gva with
  | none => exact s.withCores_keepXlate l who part gva
  | some r =>
    have hr : (s.withCores l).refuses who part r = s.refuses who part r := rfl
    simp only [hr]
    cases (s.refuses who part r).isSome
    · rfl
    · exact congrArg (fun t : State => t.countEv (unitChannel (channelOf r.pa)) 0x46 part 1) (State.withCores_keepXlate
        { s with xlats := s.xlats.filter (fun x => !(x.core == who && x.part == part && x.page == gva / 65536)) } l who part gva)
theorem State.clean_reXlate (s : State) (who part gva : Nat) : s.clean.reXlate who part gva = (s.reXlate who part gva).clean := by
  refine (s.withCores_reXlate s.clean.cores who part gva).trans ?_
  rw [State.clean, State.clean, State.updMe, State.updMe, State.updCore, State.updCore, State.reXlate_cur, State.reXlate_core]
  simp only [State.setCore, State.withCores, State.reXlate_cores]

/-! ## Lines of an access (R222) -/

/-- A short aligned access lies in one line. -/
theorem linePieces_of_dvd {pa n : Nat} (hn : n ∣ 64) (ha : pa % n = 0) : linePieces pa n = [(0, n)] := by
  obtain ⟨k, hk⟩ := hn
  obtain ⟨j, hj⟩ := Nat.dvd_of_mod_eq_zero ((Nat.mod_mod_of_dvd pa ⟨k, hk⟩).trans ha)
  have hlt : pa % 64 < n * k := hk ▸ Nat.mod_lt pa (by decide)
  have hjk : j + 1 ≤ k := Nat.lt_of_mul_lt_mul_left (hj ▸ hlt)
  have hle : n * (j + 1) ≤ n * k := Nat.mul_le_mul_left n hjk
  exact if_pos (Nat.ble_eq.mpr (by rw [Nat.mul_succ] at hle; omega))
/-- One of 128 bytes takes two. -/
theorem linePieces_vector {pa : Nat} (ha : pa % 64 = 0) : linePieces pa 128 = [(0, 64), (64, 64)] := by
  simp [linePieces, ha, cdiv, upFrom]
theorem mod_of_xlate {s : State} {who part gva acc n : Nat} {r : Xr} (hx : s.xlate who part gva acc = .ok r) (hn : n ∣ 65536)
    (ha : gva % n = 0) : r.pa % n = 0 := by
  rw [← Nat.mod_mod_of_dvd r.pa hn, State.xlate_mod hx, Nat.mod_mod_of_dvd gva hn, ha]

/-! ## Accesses that no region covers (R222, R227) -/

theorem State.regionOf_congr {s t : State} (hm : t.mem = s.mem) (hp : t.parts = s.parts) (part gva : Nat) :
    t.regionOf part gva = s.regionOf part gva := by
  have hr (p : Part) (ix : Nat) : t.regionAt p ix = s.regionAt p ix := by
    unfold State.regionAt State.rdMem State.bytes State.byte
    rw [hm]
  simp only [State.regionOf, State.regionsOf, State.part, hp, funext (hr _)]
/-- Of an access to local memory no byte lies in a region. -/
def State.Uncovered (s : State) (part gva pa n : Nat) : Prop := paKind pa = .localHbm → ∀ k, k < n → s.regionOf part (gva + k) = none
theorem State.Uncovered.piece {s : State} {part gva pa n : Nat} (h : s.Uncovered part gva pa n) {k : Nat} (hk : k < n) :
    (paKind pa == .localHbm && (s.regionOf part (gva + k)).isSome) = false := by
  rw [Bool.and_eq_false_imp]
  intro hl
  rw [h (beq_iff_eq.mp hl) k hk]
  rfl
theorem State.Uncovered.of_eq {s t : State} {part gva pa n : Nat} (h : s.Uncovered part gva pa n) (hm : t.mem = s.mem) (hp : t.parts = s.parts) :
    t.Uncovered part gva pa n := fun hl k hk => (State.regionOf_congr hm hp part (gva + k)).trans (h hl k hk)
/-- An access of n bytes is one piece, or two of 64 bytes. -/
def Pieces (pa n : Nat) : Prop := 0 < n ∧ n ≠ 128 ∧ linePieces pa n = [(0, n)] ∨ n = 128 ∧ linePieces pa n = [(0, 64), (64, 64)]
theorem pieces_of_dvd {pa n : Nat} (hn : n ∣ 64) (ha : pa % n = 0) : Pieces pa n :=
  .inl ⟨Nat.pos_of_dvd_of_pos hn (by decide), ne_of_lt (Nat.lt_of_le_of_lt (Nat.le_of_dvd (by decide) hn) (by decide)), linePieces_of_dvd hn ha⟩
theorem pieces_vector {pa : Nat} (ha : pa % 128 = 0) : Pieces pa 128 := .inr ⟨rfl, linePieces_vector (by omega)⟩

section
variable {s : State} {k part gva pa n : Nat}

theorem State.fillBusy_of_uncovered (hp : Pieces pa n) (h : s.Uncovered part gva pa n) : s.fillBusy k part gva pa n = false := by
  rcases hp with ⟨hn, -, hp⟩ | ⟨rfl, hp⟩
  · have h0 := h.piece hn
    simp only [State.fillBusy, hp, List.any_cons, List.any_nil, Bool.or_false]
    rw [← Bool.and_assoc, h0, Bool.false_and]
  · have h0 := h.piece (k := 0) (by decide)
    have h1 := h.piece (k := 64) (by decide)
    simp only [State.fillBusy, hp, List.any_cons, List.any_nil, Bool.or_false, Bool.and_or_distrib_left]
    rw [← Bool.and_assoc, ← Bool.and_assoc, h0, h1, Bool.false_and, Bool.false_and, Bool.or_false]
theorem memSrc_append (pa gva m n : Nat) : memSrc pa gva m ++ memSrc (pa + m) (gva + m) n = memSrc pa gva (m + n) := by
  refine List.ext_getElem? fun i => ?_
  simp only [memSrc, List.getElem?_append, List.getElem?_map, upFrom_get, List.length_map, upFrom_length]
  by_cases hm : i < m
  · simp [hm, Nat.lt_of_lt_of_le hm (Nat.le_add_right m n)]
  · obtain ⟨j, rfl⟩ := Nat.exists_eq_add_of_le (Nat.le_of_not_lt hm)
    simp [Nat.add_assoc]
/-- Nothing of such a load comes from L0. -/
theorem State.loadAt_of_uncovered (hp : Pieces pa n) (h : s.Uncovered part gva pa n) :
    s.loadAt k part gva pa n = (s.reXlate k part gva, memSrc pa gva n) := by
  have h := h.of_eq (s.reXlate_mem k part gva) (s.reXlate_parts k part gva)
  rcases hp with ⟨hn, -, hp⟩ | ⟨rfl, hp⟩
  · have h0 := h.piece hn
    simp only [State.loadAt, hp, List.foldl_cons, List.foldl_nil, h0, Bool.false_eq_true, if_false, List.nil_append]
    rfl
  · have h0 := h.piece (k := 0) (by decide)
    have h1 := h.piece (k := 64) (by decide)
    simp only [State.loadAt, hp, List.foldl_cons, List.foldl_nil, h0, h1, Bool.false_eq_true, if_false, List.nil_append]
    exact congrArg _ (memSrc_append pa gva 64 64)
/-- Such a store leaves by the core's port, one line at a time. -/
theorem State.storeAt_of_uncovered {l : List Byte} (hl : l.length = n) (hp : Pieces pa n) (h : s.Uncovered part gva pa n) :
    s.storeAt k part gva pa l = if n = 128
      then ((s.reXlate k part gva).storePort k pa gva (l.take 64)).storePort k (pa + 64) (gva + 64) (l.drop 64)
      else (s.reXlate k part gva).storePort k pa gva l := by
  subst hl
  have h := h.of_eq (s.reXlate_mem k part gva) (s.reXlate_parts k part gva)
  rcases hp with ⟨hn, hne, hp⟩ | ⟨hn, hp⟩
  · have h0 := h.piece hn
    simp only [State.storeAt, hp, List.foldl_cons, List.foldl_nil, h0, Bool.false_eq_true, if_false, List.drop_zero, List.take_length, hne]
    rfl
  · rw [hn] at h hp
    have h0 := h.piece (k := 0) (by decide)
    rw [Nat.add_zero] at h0
    have h1 := (h.of_eq (t := (s.reXlate k part gva).storePort k pa gva (l.take 64)) rfl rfl).piece (k := 64) (by decide)
    have ht : (l.drop 64).take 64 = l.drop 64 := List.take_of_length_le (by rw [List.length_drop, hn])
    simp only [State.storeAt, hn, hp, List.foldl_cons, List.foldl_nil, h0, h1, Bool.false_eq_true, if_false, if_true, List.drop_zero, Nat.add_zero, ht]
end

/-! ## What accesses leave of the marks -/

@[simp] theorem Core.setLine_marks (c : Core) (w : Nat) (l : L0Line) : (c.setLine w l).marks = c.marks := rfl
@[simp] theorem Core.touchLine_marks (c : Core) (w : Nat) : (c.touchLine w).marks = c.marks := by
  refine List.foldlRecOn (upFrom (w / 4 * 4) 4) _ (motive := fun d : Core => d.marks = c.marks) rfl (fun d hd v _ => ?_)
  dsimp only
  split_ifs <;> exact hd
@[simp] theorem State.reXlate_marks (s : State) (who part gva : Nat) : (s.reXlate who part gva).marks = s.marks :=
  State.marks_of_cores (s.reXlate_cores ..) (s.reXlate_cur ..)
@[simp] theorem State.storePort_marks (s : State) (k pa gva : Nat) (l : List Byte) : (s.storePort k pa gva l).marks = s.marks := by
  refine s.updCore_marks k fun c => ?_
  dsimp only
  split
  · split_ifs
    · exact (Core.touchLine_marks ..).trans (Core.setLine_marks ..)
    · rfl
  · rfl
@[simp] theorem State.staleIf_marks (s : State) (cl part : Nat) (f : ZRec → Bool) : (s.staleIf cl part f).marks = s.marks :=
  (foldl_keeps State.marks (fun t k => by
    split_ifs
    · rfl
    · exact t.updCore_marks k fun _ => rfl) _ _).trans rfl
@[simp] theorem State.staleStore_marks (s : State) (cl part pa n : Nat) : (s.staleStore cl part pa n).marks = s.marks := s.staleIf_marks ..

/-! ## Loads and stores outside every region -/

/-- The core with a load for d: the register waits for the bytes, and a result in flight to it is cancelled (R80). -/
def Core.loading (c : Core) (d : Dest) (src : List LSrc) (sx : Nat) (m : Option Nat) : Core := { c with
  fly := c.fly.filter (fun f => f.dest != d), loads := c.loads ++ [⟨d, src, sx, m, c.nextSeq, true, false⟩], nextSeq := c.nextSeq + 1 }
theorem State.addLoad_eq (s : State) (k : Nat) (d : Dest) (src : List LSrc) (sx : Nat) (m : Option Nat) :
    s.addLoad k d src sx m = s.updCore k (fun c => c.loading d src sx m) := rfl

theorem State.storeBytes_of_uncovered (s : State) {a pa n : Nat} {l : List Byte} (hl : l.length = n) (hp : Pieces pa n)
    (hu : s.Uncovered s.me.csr.partid.toNat a pa n) : s.storeBytes a pa l = (if n = 128
      then ((s.reXlate s.cur s.me.csr.partid.toNat a).storePort s.cur pa a (l.take 64)).storePort s.cur (pa + 64) (a + 64) (l.drop 64)
      else (s.reXlate s.cur s.me.csr.partid.toNat a).storePort s.cur pa a l).staleStore (clusterOf s.cur) s.me.csr.partid.toNat pa n := by
  rw [State.storeBytes, State.storeAt_of_uncovered hl hp hu, hl]

section
variable {i : Instr} {s : State} {a n : Nat} {r : Xr} (hc : i.cls = some .l) (hr : ReadyL i s) (ha : a % n = 0)
  (hk : paKind r.pa = .localHbm ∨ paKind r.pa = .host) (hp : Pieces r.pa n) (hu : s.Uncovered s.me.csr.partid.toNat a r.pa n)
include hc hr ha hk hp hu

theorem doesTo_load_uncovered {d : Dest} {sx : Nat} (hs : semOf i s = loadTo s d a n sx) (hx : s.xlate s.cur s.me.csr.partid.toNat a accR = .ok r) :
    DoesTo i s ((s.reXlate s.cur s.me.csr.partid.toNat a).updMe (fun c => c.loading d (memSrc r.pa a n) sx none)) := by
  refine doesTo_updMe (f := fun c => c.loading d (memSrc r.pa a n) sx none) hc hr (hs.trans (State.accessing_of_ok (State.access_of_memory ha hx hk) _))
    (State.fillBusy_of_uncovered hp hu) ?_ (s.reXlate_cores ..) (s.reXlate_cur ..) rfl rfl
  have hl := State.loadAt_of_uncovered (k := s.clean.cur) hp (hu.of_eq (t := s.clean) rfl rfl)
  dsimp only
  rw [State.clean_csr, hl, State.addLoad_eq, State.clean_reXlate, State.updMe]
  congr 1
  exact (s.reXlate_cur ..).symm

theorem doesTo_store_uncovered {l : List Byte} (hl : l.length = n) (hs : semOf i s = storeFrom s a l)
    (hx : s.xlate s.cur s.me.csr.partid.toNat a accW = .ok r) :
    DoesTo i s ((if n = 128
      then ((s.clean.reXlate s.cur s.me.csr.partid.toNat a).storePort s.cur r.pa a (l.take 64)).storePort s.cur (r.pa + 64) (a + 64) (l.drop 64)
      else (s.clean.reXlate s.cur s.me.csr.partid.toNat a).storePort s.cur r.pa a l).staleStore (clusterOf s.cur) s.me.csr.partid.toNat r.pa n) := by
  subst hl
  refine doesTo_of_marks hc hr (hs.trans (State.accessing_of_ok (State.access_of_memory ha hx hk) _))
    (State.fillBusy_of_uncovered hp hu) ?_ ?_
  · have h := s.clean.storeBytes_of_uncovered rfl hp (s.clean_csr.symm ▸ hu.of_eq (t := s.clean) rfl rfl)
    rw [s.clean_csr, s.clean_cur] at h
    exact h
  · split_ifs <;> simp
end

/-- Settles O31: a short access lies in one line, LDV's and STV's in two, and neither is held in L0. -/
theorem plainLoadsAndStores : Obligations.PlainLoadsAndStores := by
  have short {s : State} {part a acc n : Nat} {r : Xr} (hn : n ∣ 64) (ha : a % n = 0) (hx : s.xlate s.cur part a acc = .ok r) : Pieces r.pa n :=
    pieces_of_dvd hn (mod_of_xlate hx (hn.trans (by decide)) ha)
  have long {s : State} {part a acc : Nat} {r : Xr} (ha : a % 128 = 0) (hx : s.xlate s.cur part a acc = .ok r) : Pieces r.pa 128 :=
    pieces_vector (mod_of_xlate hx (by decide) ha)
  constructor
  · intro s gd t b d x part loads
    have of {i : Instr} {dst : Dest} {n sx : Nat} (hc : i.cls = some .l) (hn : n ∣ 64) (hs : semOf i s = loadTo s dst (s.me.ea b d x n) n sx) :
        loads i dst n sx := fun r hr ha hx hk hu => doesTo_load_uncovered hc hr ha hk (short hn ha hx) hu hs hx
    exact ⟨of rfl (by decide) rfl, of rfl (by decide) rfl, of rfl (by decide) rfl, of rfl (by decide) rfl, of rfl (by decide) rfl,
      of rfl (by decide) rfl, of rfl (by decide) rfl, fun r hr ha hx hk hu => doesTo_load_uncovered rfl hr ha hk (long ha hx) hu rfl hx⟩
  · intro s gd t b d x part stores
    have of {i : Instr} {n : Nat} (hc : i.cls = some .l) (hn : n ∣ 64) (hs : semOf i s = storeFrom s (s.me.ea b d x n) (toBytes n (s.me.rg t).toNat)) :
        stores i n (toBytes n (s.me.rg t).toNat) := by
      intro r hr a ha hx hk hu out
      simp only [out, State.reXlate_cur, State.clean_cur]
      exact doesTo_store_uncovered hc hr ha hk (short hn ha hx) hu (toBytes_length ..) hs hx
    refine ⟨of rfl (by decide) rfl, of rfl (by decide) rfl, of rfl (by decide) rfl, of rfl (by decide) rfl, ?_⟩
    intro r hr a ha hx hk hu out
    simp only [out, State.reXlate_cur, State.clean_cur]
    exact doesTo_store_uncovered rfl hr ha hk (long ha hx) hu (toBytes_length ..) rfl hx

end Sys2Proof.Machine
end

section
/-! SUPPORT. Accesses at their points (R80, R221, R227, R235, R236): a store that moves on in its port or is applied, and a load whose data land. -/

namespace Sys2Proof.Machine

/-! ## Entries of a port -/

theorem dropNth_eq_eraseIdx {α : Type} (l : List α) (n : Nat) : dropNth l n = l.eraseIdx n := by
  induction l generalizing n with
  | nil => rfl
  | cons a t ih =>
    cases n with
    | zero => rfl
    | succ n => exact congrArg (a :: ·) (ih n)
theorem modNth_const {α : Type} (l : List α) (n : Nat) (x : α) : modNth l n (fun _ => x) = l.set n x := by
  induction l generalizing n with
  | nil => rfl
  | cons a t ih =>
    cases n with
    | zero => rfl
    | succ n => exact congrArg (a :: ·) (ih n)
theorem drop_of_getElem? {α : Type} {l : List α} {n : Nat} {x : α} (h : l[n]? = some x) : l.drop n = x :: l.drop (n + 1) := by
  obtain ⟨hn, rfl⟩ := List.getElem?_eq_some_iff.mp h
  exact List.drop_eq_getElem_cons hn

theorem State.setOp_core_self (s : State) (k n : Nat) (o : MemOp) :
    (s.setOp k n o).core k = { s.core k with mq := (s.core k).mq.set n o } := by
  rw [State.setOp, State.updCore_core_self, modNth_const]
theorem State.setOp_core_of_ne (s : State) {k j : Nat} (n : Nat) (o : MemOp) (h : j ≠ k) : (s.setOp k n o).core j = s.core j :=
  s.updCore_core_of_ne _ h
theorem State.dropOp_core_self (s : State) (k n : Nat) : (s.dropOp k n).core k = { s.core k with mq := (s.core k).mq.eraseIdx n } := by
  rw [State.dropOp, State.updCore_core_self, dropNth_eq_eraseIdx]
theorem State.dropOp_core_of_ne (s : State) {k j : Nat} (n : Nat) (h : j ≠ k) : (s.dropOp k n).core j = s.core j :=
  s.updCore_core_of_ne _ h

/-! ## What counting leaves (R274, R378, R380) -/

@[simp] theorem State.served_uncounted (s : State) (p pa n : Nat) : (s.served p pa n).uncounted = s.uncounted := by
  rw [State.served, State.lookedUp_uncounted, State.passed_uncounted]
/-- What does not look at the counts is the same of states that differ in no more. -/
theorem State.eq_of_uncounted {β : Type} {s t : State} (h : t.uncounted = s.uncounted) (f : State → β) (hf : ∀ u : State, f u.uncounted = f u) :
    f t = f s := (hf t).symm.trans ((congrArg f h).trans (hf s))
theorem State.core_of_uncounted {s t : State} (h : t.uncounted = s.uncounted) (k : Nat) : t.core k = s.core k :=
  State.eq_of_uncounted h (fun u => u.core k) fun _ => rfl
theorem State.mem_of_uncounted {s t : State} (h : t.uncounted = s.uncounted) : t.mem = s.mem := State.eq_of_uncounted h State.mem fun _ => rfl
theorem State.byte_of_uncounted {s t : State} (h : t.uncounted = s.uncounted) (a : Nat) : t.byte a = s.byte a :=
  State.eq_of_uncounted h (fun u => u.byte a) fun _ => rfl

/-! ## Stores -/

/-- Bytes applied at their point are there, and nowhere else; the cores are as they were. -/
theorem State.applyBytes_spec {s t : State} (h : t.uncounted = s.uncounted) (pa : Nat) (l : List Byte) :
    (t.applyBytes pa l).bytes pa l.length = l ∧ (∀ a, a < pa ∨ pa + l.length ≤ a → (t.applyBytes pa l).byte a = s.byte a) ∧
      ∀ j, (t.applyBytes pa l).core j = s.core j := by
  have hc : (t.closeLine pa).uncounted = s.uncounted := (t.closeLine_uncounted pa).trans h
  exact ⟨State.wrBytes_bytes .., fun a ha => (State.wrBytes_byte_outside _ ha).trans (State.byte_of_uncounted hc a),
    fun j => State.core_of_uncounted hc j⟩

section
variable {s : State} {k n seq pa gva : Nat} {l : List Byte}

theorem storePerformed_of_core (h : (s.core k).mq[n]? = some (.store seq pa gva l .core)) (hm : s.mayPerform k (.store seq pa gva l .core) = true) :
    storePerformed k n s = { s.setOp k n (.store seq pa gva l (.cluster s.clock)) with clock := s.clock + 1 } := by
  simp only [storePerformed, drop_of_getElem? h, hm, if_true]
theorem storePerformed_of_cluster {i : Nat} (h : (s.core k).mq[n]? = some (.store seq pa gva l (.cluster i)))
    (hb : s.behind (clusterOf k) (some i) (.store seq pa gva l (.cluster i)) = false)
    (hi : s.mayInject (s.core k).csr.partid.toNat pa = true) : storePerformed k n s =
      if paKind pa = .host
      then { (s.served (s.core k).csr.partid.toNat pa l.length).setOp k n (.store seq pa gva l (.host i s.clock)) with clock := s.clock + 1 }
      else ((s.served (s.core k).csr.partid.toNat pa l.length).applyBytes pa l).dropOp k n := by
  simp only [storePerformed, drop_of_getElem? h, hb, hi, Bool.not_true, Bool.or_false, Bool.false_eq_true, if_false, beq_iff_eq]
theorem storePerformed_of_host {i m : Nat} (h : (s.core k).mq[n]? = some (.store seq pa gva l (.host i m)))
    (hb : s.hostBehind m (.store seq pa gva l (.host i m)) = false) : storePerformed k n s = (s.applyBytes pa l).dropOp k n := by
  simp only [storePerformed, drop_of_getElem? h, hb, Bool.false_eq_true, if_false]
end

/-! ## Loads -/

theorem loadArrives_of_mayReturn {s : State} {k n : Nat} {l : PLoad} (h : (s.core k).loads[n]? = some l) (hm : s.mayReturn k l = true)
    (hi : ∀ a v, LSrc.mem a v ∈ l.src → s.mayInject (s.core k).csr.partid.toNat a = true) : ∃ u : State, u.uncounted = s.uncounted ∧
      loadArrives k n s = u.setCore k { (s.core k).write l.dest (s.loadVal k l) l.mask with loads := (s.core k).loads.eraseIdx n } := by
  have hall : (l.src.all fun x => match x with | .mem a _ => s.mayInject (s.core k).csr.partid.toNat a | .known _ => true) = true :=
    List.all_eq_true.mpr fun x hx => by
      cases x with
      | known b => rfl
      | mem a v => exact hi a v hx
  let as := l.addrs.map Prod.fst
  let u := (as.foldl (fun s a => s.closeLine a) s).servedAll (s.core k).csr.partid.toNat as
  have hu : u.uncounted = s.uncounted := by
    rw [State.servedAll_uncounted]
    exact foldl_keeps State.uncounted (fun t a => t.closeLine_uncounted a) as s
  refine ⟨u, hu, ?_⟩
  have harr : loadArrives k n s = u.arrive k n := by
    simp only [loadArrives, drop_of_getElem? h]
    exact if_pos (Bool.and_eq_true_iff.mpr ⟨hm, hall⟩)
  have hv : u.loadVal k l = s.loadVal k l := State.eq_of_uncounted hu (fun t => t.loadVal k l) fun _ => rfl
  rw [harr, State.arrive]
  simp only [State.core_of_uncounted hu, drop_of_getElem? h, hv, dropNth_eq_eraseIdx]

/-- Settles O32: each point by what a store does there, and a load by what lands. -/
theorem accessesPerformed : Obligations.AccessesPerformed := by
  constructor
  · intro s k n i m seq pa gva l o at_ moves lands
    have landed {t : State} (ht : t.uncounted = s.uncounted) (he : storePerformed k n s = (t.applyBytes pa l).dropOp k n) : lands := by
      obtain ⟨hin, hout, hcore⟩ := State.applyBytes_spec ht pa l
      exact ⟨_, congrArg Host.Outcome.next he, hin, hout, by rw [State.dropOp_core_self, hcore],
        fun j hj => (State.dropOp_core_of_ne _ n hj).trans (hcore j)⟩
    have moved {t : State} {p : PortAt} (ht : t.uncounted = s.uncounted)
        (he : storePerformed k n s = { t.setOp k n (o p) with clock := s.clock + 1 }) : moves p :=
      ⟨_, congrArg Host.Outcome.next he, (t.setOp_core_self k n (o p)).trans (by rw [State.core_of_uncounted ht]),
        fun j hj => (t.setOp_core_of_ne n (o p) hj).trans (State.core_of_uncounted ht j), (State.mem_of_uncounted ht :), rfl⟩
    refine ⟨fun h hm => moved rfl (storePerformed_of_core h hm), fun h hb hi => ⟨fun hk => ?_, fun hk => ?_⟩,
      fun h hb => landed rfl (storePerformed_of_host h hb)⟩
    · exact moved (s.served_uncounted ..) ((storePerformed_of_cluster h hb hi).trans (if_pos hk))
    · exact landed (s.served_uncounted ..) ((storePerformed_of_cluster h hb hi).trans (if_neg hk))
  · intro s k n l h hm hi
    obtain ⟨u, hu, he⟩ := loadArrives_of_mayReturn h hm hi
    exact ⟨_, congrArg Host.Outcome.next he, State.setCore_core_self .., fun j hj => (State.setCore_core_of_ne u _ hj).trans (State.core_of_uncounted hu j),
      fun a => (State.byte_of_uncounted hu a :)⟩

end Sys2Proof.Machine
end

section
/-! SUPPORT. Synchronisation words at their home, drains and acquires of regions (R233, R239, R246), and atomics at their slice and in host memory
(R267 to R271). -/

namespace Sys2Proof.Machine

/-! ## Words and records -/

/-- No earlier REL of the core to the word is on its way to the home. -/
def State.relsDone (s : State) (n k part word : Nat) : Prop := ∀ m ∈ s.msgs.take n, ∀ a b, m ≠ .rel k part word a b
/-- A REL of the core to the word. -/
def Msg.isRelOf (k part word : Nat) : Msg → Bool
  | .rel k' p' w' _ _ => k' == k && p' == part && w' == word
  | _ => false
theorem Msg.isRelOf_iff {k part word : Nat} {m : Msg} : m.isRelOf k part word = true ↔ ∃ a b, m = .rel k part word a b := by
  constructor
  · intro h
    cases m with
    | rel k' p' w' a b =>
      simp only [Msg.isRelOf, Bool.and_eq_true, beq_iff_eq] at h
      obtain ⟨⟨rfl, rfl⟩, rfl⟩ := h
      exact ⟨a, b, rfl⟩
    | _ => cases h
  · rintro ⟨a, b, rfl⟩
    simp only [Msg.isRelOf, beq_self_eq_true, Bool.and_self]
theorem State.setRec_recOf (s : State) (part word k : Nat) : (s.setRec part word k).recOf part word = k := mget_mset_self
theorem State.wrMem_byte_outside (s : State) {pa n a : Nat} (v : Nat) (h : a < pa ∨ pa + n ≤ a) : (s.wrMem pa n v).byte a = s.byte a :=
  State.wrBytes_byte_outside s (by rwa [toBytes_length])
theorem State.wrMem_rdMem_bits (s : State) (pa n v : Nat) : (s.wrMem pa n v).rdMem pa n = v % 2 ^ (8 * n) := by
  rw [Nat.pow_mul]
  exact s.wrMem_rdMem pa n v
theorem State.rdMem_of_uncounted {s t : State} (h : t.uncounted = s.uncounted) (pa n : Nat) : t.rdMem pa n = s.rdMem pa n :=
  State.eq_of_uncounted h (fun u => u.rdMem pa n) fun _ => rfl
theorem State.msgs_of_uncounted {s t : State} (h : t.uncounted = s.uncounted) : t.msgs = s.msgs := State.eq_of_uncounted h State.msgs fun _ => rfl
theorem State.recs_of_uncounted {s t : State} (h : t.uncounted = s.uncounted) : t.recs = s.recs := State.eq_of_uncounted h State.recs fun _ => rfl

/-! ## Releases and acquires at the home (R233) -/

/-- The other core that a release record names, told to drain the region. -/
def State.ordered (s : State) (r k part word : Nat) : State := if r != 0x3FF && r != k then s.send (.drainOrder r part word) else s
@[simp] theorem State.ordered_mem (s : State) (r k part word : Nat) : (s.ordered r k part word).mem = s.mem := by
  unfold State.ordered; split <;> rfl
theorem State.ordered_msgs (s : State) (r k part word : Nat) :
    (s.ordered r k part word).msgs = s.msgs ++ if r ≠ 0x3FF ∧ r ≠ k then [.drainOrder r part word] else [] := by
  have hc : (r != 0x3FF && r != k) = true ↔ r ≠ 0x3FF ∧ r ≠ k := by simp
  unfold State.ordered
  split
  · next h => rw [if_pos (hc.mp h)]; rfl
  · next h => rw [if_neg (mt hc.mpr h), List.append_nil]

section
variable {s : State} {n k part word pa v : Nat}

/-- Of the messages before message n no REL of the core to the word stands in the way. -/
theorem State.before_of_relsDone (hb : s.relsDone n k part word) {p : Msg → Bool} (hp : ∀ m : Msg, p m = m.isRelOf k part word) :
    s.before n p = false :=
  List.any_eq_false.mpr fun m hm h => by
    obtain ⟨a, b, e⟩ := Msg.isRelOf_iff.mp ((hp m).symm.trans h)
    exact hb m hm a b e

theorem relHome_of_rel (hmsg : s.msg n = some (.rel k part word pa v)) (hb : s.relsDone n k part word)
    (hh : s.hostBehind s.clock (.amo 0 pa 0 8 0 0 0 true 0) = false) (hi : s.mayInject part pa = true) : relHome n s =
      (((((s.dropMsg n).ordered (s.recOf part word) k part word).closeLine pa).served part pa 8).wrMem pa 8 v).setRec part word k := by
  simp only [relHome, hmsg, hh, hi]
  rw [State.before_of_relsDone hb]
  · rfl
  · intro m
    cases m <;> rfl

/-- A release at its home: the record, the word, every other byte, and the order to drain. -/
theorem happens_relAtHome (hmsg : s.msg n = some (.rel k part word pa v)) (hb : s.relsDone n k part word)
    (hh : s.hostBehind s.clock (.amo 0 pa 0 8 0 0 0 true 0) = false) (hi : s.mayInject part pa = true) :
    Happens (.relAtHome n) s fun t => t.recOf part word = k ∧ t.rdMem pa 8 = v % 2 ^ 64 ∧ (∀ a, a < pa ∨ pa + 8 ≤ a → t.byte a = s.byte a) ∧
      t.msgs = dropNth s.msgs n ++ if s.recOf part word ≠ 0x3FF ∧ s.recOf part word ≠ k then [.drainOrder (s.recOf part word) part word] else [] := by
  let o := (s.dropMsg n).ordered (s.recOf part word) k part word
  have hu : ((o.closeLine pa).served part pa 8).uncounted = o.uncounted := (State.served_uncounted ..).trans (State.closeLine_uncounted ..)
  have ho (a : Nat) : o.byte a = s.byte a := congrArg (fun m => mget m a 0) (State.ordered_mem ..)
  exact ⟨_, congrArg Host.Outcome.next (relHome_of_rel hmsg hb hh hi), State.setRec_recOf .., State.wrMem_rdMem_bits .., fun a ha =>
    (State.wrMem_byte_outside _ v ha).trans ((State.byte_of_uncounted hu a).trans (ho a)), (State.msgs_of_uncounted hu).trans (State.ordered_msgs ..)⟩

theorem acqHome_of_drainOpen (hmsg : s.msg n = some (.acq k part word pa)) (h : s.drainOpen part word = true) : acqHome n s = s := by
  simp only [acqHome, hmsg, h, Bool.true_or, if_true]
theorem acqHome_of_held (hmsg : s.msg n = some (.acq k part word pa)) (h : s.acqMayRead k pa = false) : acqHome n s = s := by
  simp only [acqHome, hmsg, h, Bool.not_false, Bool.or_true, Bool.true_or, if_true]
theorem acqHome_of_acq (hmsg : s.msg n = some (.acq k part word pa)) (hb : s.relsDone n k part word) (hd : s.drainOpen part word = false)
    (hm : s.acqMayRead k pa = true) (hi : s.mayInject part pa = true) : acqHome n s =
      if s.recOf part word != 0x3FF && s.recOf part word != k then (s.setRec part word 0x3FF).send (.drainOrder (s.recOf part word) part word)
      else (((s.dropMsg n).closeLine pa).served part pa 8).send (.acqReply k part word (s.rdMem pa 8)) := by
  simp only [acqHome, hmsg, hd, hm, hi]
  rw [State.before_of_relsDone hb]
  · rfl
  · intro m
    cases m <;> rfl

/-- An acquire at a home whose record names another core. -/
theorem happens_acqAtHome_of_other (hmsg : s.msg n = some (.acq k part word pa)) (hb : s.relsDone n k part word)
    (hd : s.drainOpen part word = false) (hm : s.acqMayRead k pa = true) (hi : s.mayInject part pa = true)
    (h0 : s.recOf part word ≠ 0x3FF) (hk : s.recOf part word ≠ k) : Happens (.acqAtHome n) s fun t =>
      t.recOf part word = 0x3FF ∧ t.msgs = s.msgs ++ [.drainOrder (s.recOf part word) part word] := by
  refine ⟨_, congrArg Host.Outcome.next ((acqHome_of_acq hmsg hb hd hm hi).trans (if_pos ?_)), (s.setRec_recOf part word 0x3FF :), rfl⟩
  simp [h0, hk]
/-- An acquire at a home whose record names no core or the one that acquires. -/
theorem happens_acqAtHome_of_own (hmsg : s.msg n = some (.acq k part word pa)) (hb : s.relsDone n k part word)
    (hd : s.drainOpen part word = false) (hm : s.acqMayRead k pa = true) (hi : s.mayInject part pa = true)
    (hr : s.recOf part word = 0x3FF ∨ s.recOf part word = k) : Happens (.acqAtHome n) s fun t =>
      t.msgs = dropNth s.msgs n ++ [.acqReply k part word (s.rdMem pa 8)] ∧ t.mem = s.mem ∧ t.recs = s.recs := by
  have hu : (((s.dropMsg n).closeLine pa).served part pa 8).uncounted = (s.dropMsg n).uncounted :=
    (State.served_uncounted ..).trans (State.closeLine_uncounted ..)
  refine ⟨_, congrArg Host.Outcome.next ((acqHome_of_acq hmsg hb hd hm hi).trans (if_neg ?_)),
    congrArg (· ++ [_]) (State.msgs_of_uncounted hu), (State.mem_of_uncounted hu :), (State.recs_of_uncounted hu :)⟩
  simp only [Bool.and_eq_true, bne_iff_ne, not_and_or, not_not]
  exact hr

/-! ## Drains, and the reply to an acquire -/

/-- Dropped lines change the lines of their core alone. -/
theorem State.dropLines_keeps (s : State) (k : Nat) (f : L0Line → Bool) :
    (s.dropLines k f).msgs = s.msgs ∧ ((s.dropLines k f).core k).regs = (s.core k).regs ∧ ((s.dropLines k f).core k).loads = (s.core k).loads := by
  have hstep (t : State) (e : Nat × L0Line) : let u := if f ((t.core k).line e.1) then t.updCore k (fun c => c.dropLine e.1) else t
      u.msgs = t.msgs ∧ (u.core k).regs = (t.core k).regs ∧ (u.core k).loads = (t.core k).loads := by
    dsimp only
    split
    · rw [State.updCore_core_self]; exact ⟨rfl, rfl, rfl⟩
    · exact ⟨rfl, rfl, rfl⟩
  exact ⟨foldl_keeps State.msgs (fun t e => (hstep t e).1) _ s, foldl_keeps (fun t => (t.core k).regs) (fun t e => (hstep t e).2.1) _ s,
    foldl_keeps (fun t => (t.core k).loads) (fun t e => (hstep t e).2.2) _ s⟩

theorem regionDrain_of_order (hmsg : s.msg n = some (.drainOrder k part word)) : regionDrain n s =
    ((s.eachLine k (fun l => l.st == .dirty && s.regionLine k part word l) (fun s w => s.writeBackLine k w)).dropMsg n).send
      (.drainDone k part word) := by
  simp only [regionDrain, hmsg]
theorem regionDrainDone_of_done (hmsg : s.msg n = some (.drainDone k part word)) : regionDrainDone n s = s.dropMsg n := by
  simp only [regionDrainDone, hmsg]
theorem happens_acqReply {l : PLoad} (hmsg : s.msg n = some (.acqReply k part word v)) (hl : (s.core k).loads = [l]) (ha : l.acq = true) :
    let d := s.dropLines k fun x => (x.st == .clean || x.st == .ro) && s.regionLine k part word x
    Happens (.acqReply n) s fun t => t.msgs = dropNth s.msgs n ∧ (t.core k).loads = [] ∧
      (t.core k).regs = ((s.core k).write l.dest v none).regs ∧ (t.core k).l0 = (d.core k).l0 := by
  intro d
  obtain ⟨hmsgs, hregs, hloads⟩ := s.dropLines_keeps k fun x => (x.st == .clean || x.st == .ro) && s.regionLine k part word x
  have hall : (d.core k).loads.filter (fun l => l.acq) = [l] ∧ (d.core k).loads.filter (fun l => !l.acq) = [] := by
    rw [hloads, hl]; simp [ha]
  have he : acqReply n s = (d.dropMsg n).updCore k fun c =>
      { (c.loads.filter (fun l => l.acq)).foldl (fun c l => c.write l.dest v none) c with loads := c.loads.filter (fun l => !l.acq) } := by
    simp only [acqReply, hmsg]; rfl
  have hcore : ((acqReply n s).core k) = { (d.core k).write l.dest v none with loads := [] } := by
    rw [he, State.updCore_core_self]
    change { ((d.core k).loads.filter (fun l => l.acq)).foldl (fun c l => c.write l.dest v none) (d.core k) with
      loads := (d.core k).loads.filter (fun l => !l.acq) } = _
    rw [hall.1, hall.2]; rfl
  refine ⟨_, rfl, ?_, by rw [hcore], ?_, ?_⟩
  · rw [he]; exact congrArg (dropNth · n) hmsgs
  · rw [hcore]; exact Core.write_regs_of hregs ..
  · rw [hcore]; exact Core.write_l0 ..
end

/-! ## Atomics (R267 to R271) -/

/-- R267: the comparison of two values of w bytes as signed words. -/
theorem sext_lt_iff_slt {n : Nat} (h : 0 < n) (a b : Nat) : sext a n < sext b n ↔ (BitVec.ofNat n a).slt (BitVec.ofNat n b) = true := by
  rw [sext_eq_toInt a h, sext_eq_toInt b h, BitVec.slt_iff_toInt_lt]

@[simp] theorem State.applyOldest_uncounted (s : State) (part pa : Nat) : (s.applyOldest part pa).uncounted = s.uncounted := by
  unfold State.applyOldest; split <;> rfl
@[simp] theorem State.joinLine_uncounted (s : State) (part pa : Nat) : (s.joinLine part pa).uncounted = s.uncounted := by
  unfold State.joinLine
  split
  · rfl
  · split
    · exact s.applyOldest_uncounted part pa
    · rfl
/-- An atomic applied: memory has its new value, and what it answers is the old one. -/
theorem State.applyAmo_spec {s t : State} (h : t.uncounted = s.uncounted) (part pa n opc x cmp : Nat) (ret : Bool) : ∃ u : State,
    u.uncounted = s.uncounted ∧ t.applyAmo part pa n opc x cmp ret = (u.wrMem pa n (amoNew opc n (s.rdMem pa n) x cmp), s.rdMem pa n) := by
  let u := if ret then t.closeLine pa else t.joinLine part pa
  have hu : u.uncounted = s.uncounted := by
    cases ret with
    | true => exact (t.closeLine_uncounted pa).trans h
    | false => exact (t.joinLine_uncounted part pa).trans h
  exact ⟨u, hu, by rw [← State.rdMem_of_uncounted hu pa n]; rfl⟩

section
variable {s : State} {k i seq pa gva n opc x cmp own : Nat} {ret : Bool}

theorem atSlice_of_waits (h : (s.core k).mq[i]? = some (.amo seq pa gva n opc x cmp false own))
    (hm : s.mayPerform k (.amo seq pa gva n opc x cmp false own) = true)
    (hb : s.behind (clusterOf k) none (.amo seq pa gva n opc x cmp false own) = false) (hi : s.mayInject (own % 256) pa = true)
    (hf : s.shareFull (own % 256) pa = true) (hw : s.wqHeld (own % 256) pa ≠ []) : atSlice k i s = s.applyOldest (own % 256) pa := by
  simp only [atSlice, drop_of_getElem? h, hm, hb, hi, hf, List.isEmpty_eq_false_iff.mpr hw]
  rfl
theorem atSlice_of_room (h : (s.core k).mq[i]? = some (.amo seq pa gva n opc x cmp ret own))
    (hm : s.mayPerform k (.amo seq pa gva n opc x cmp ret own) = true)
    (hb : s.behind (clusterOf k) none (.amo seq pa gva n opc x cmp ret own) = false) (hi : s.mayInject (own % 256) pa = true)
    (hf : ret = true ∨ s.shareFull (own % 256) pa = false) : ∃ u : State, u.uncounted = s.uncounted ∧
      atSlice k i s = (u.wrMem pa n (amoNew opc n (s.rdMem pa n) x cmp)).updCore k (fun c => { c with
        mq := c.mq.eraseIdx i, loads := if ret then fillLoads seq n (s.rdMem pa n) c.loads else c.loads }) := by
  have hroom : (!ret && s.shareFull (own % 256) pa && !(s.wqHeld (own % 256) pa).isEmpty) = false := by
    rcases hf with rfl | hf
    · rfl
    · rw [hf, Bool.and_false, Bool.false_and]
  obtain ⟨u, hu, he⟩ := State.applyAmo_spec (s.served_uncounted (own % 256) pa n) (own % 256) pa n opc x cmp ret
  refine ⟨u, hu, ?_⟩
  simp only [atSlice, drop_of_getElem? h, hm, hb, hi, hroom, he, dropNth_eq_eraseIdx]
  rfl

/-- HOST_ATOMIC_COMPLETION of an operation that nothing is before. -/
theorem hostDone_of_asked (h : (s.core k).hostAt = .asked pa n opc x cmp)
    (hm : s.mayPerform k (.amo (s.core k).nextSeq pa 0 n opc x cmp true 0) = true)
    (hb : s.behind (clusterOf k) none (.amo (s.core k).nextSeq pa 0 n opc x cmp true 0) = false)
    (hh : s.hostBehind s.clock (.amo (s.core k).nextSeq pa 0 n opc x cmp true 0) = false)
    (hi : s.mayInject (s.core k).csr.partid.toNat pa = true) : hostDone k s =
      ((s.served (s.core k).csr.partid.toNat pa n).wrMem pa n (amoNew opc n (s.rdMem pa n) x cmp)).updCore k
        (fun c => { c with hostAt := .done (s.rdMem pa n) }) := by
  simp only [hostDone, h, hm, hb, hh, hi]
  rfl
theorem hostGivesUp_of_asked (h : (s.core k).hostAt = .asked pa n opc x cmp) (h0 : opc ≠ 0) (h8 : opc ≠ 8) (h16 : opc ≠ 16) :
    hostGivesUp k s = s.updCore k (fun c => { c with hostAt := .failed }) := by
  have hopc : (opc == 0 || opc == 8 || opc == 16) = false := by simp [h0, h8, h16]
  simp only [hostGivesUp, h, hopc, Bool.false_eq_true, if_false]
end

/-- R267: what each operation stores. -/
theorem amoNew_cases {w : Nat} (hw : w = 4 ∨ w = 8) (old x cmp : Nat) :
    let f := if w = 8 then 14 else 0
    let lt (a b : Nat) : Bool := (BitVec.ofNat (8 * w) a).slt (BitVec.ofNat (8 * w) b)
    amoNew 0 w old x cmp = (old + x) % 2 ^ (8 * w) ∧ amoNew 1 w old x cmp = old &&& x ∧ amoNew 2 w old x cmp = old ||| x ∧
    amoNew 3 w old x cmp = old ^^^ x ∧ amoNew 4 w old x cmp = (if lt x old then x else old) ∧
    amoNew 5 w old x cmp = (if lt old x then x else old) ∧ amoNew 6 w old x cmp = min old x ∧ amoNew 7 w old x cmp = max old x ∧
    amoNew 8 w old x cmp = x ∧ amoNew 9 w old x cmp = (fAdd f rne old x).1 ∧ amoNew 10 w old x cmp = (fMinMax f false old x).1 ∧
    amoNew 11 w old x cmp = (fMinMax f true old x).1 ∧ amoNew 16 w old x cmp = (if old = cmp then x else old) := by
  have hpos : 0 < 8 * w := by omega
  have hf : (if (w == 8) = true then 14 else 0) = if w = 8 then 14 else 0 := by simp only [beq_iff_eq]
  refine ⟨rfl, rfl, rfl, rfl, ?_, ?_, rfl, rfl, rfl, ?_, ?_, ?_, ?_⟩
  · simp only [amoNew, sext_lt_iff_slt hpos]
  · simp only [amoNew, sext_lt_iff_slt hpos]
  · simp only [amoNew, hf]
  · simp only [amoNew, hf]
  · simp only [amoNew, hf]
  · simp only [amoNew, beq_iff_eq]

/-- Settles O52: words and regions by what each message does, atomics by what they store. -/
theorem regionAndAtomicEvents : Obligations.RegionAndAtomicEvents := by
  constructor
  · intro s n k part word pa v r drain
    exact ⟨happens_relAtHome, fun hmsg hb => ⟨fun hd => congrArg Host.Outcome.next (acqHome_of_drainOpen hmsg hd),
        fun hm => congrArg Host.Outcome.next (acqHome_of_held hmsg hm), happens_acqAtHome_of_other hmsg hb, happens_acqAtHome_of_own hmsg hb⟩,
      fun hmsg => congrArg Host.Outcome.next (regionDrain_of_order hmsg), fun hmsg => congrArg Host.Outcome.next (regionDrainDone_of_done hmsg),
      fun l hmsg hl ha => happens_acqReply hmsg hl ha⟩
  · intro s k i n
    refine ⟨fun w old x cmp hw _ _ => amoNew_cases hw old x cmp, ?_, ?_⟩
    · intro seq pa gva opc x cmp ret own o part h hm hb hi
      refine ⟨fun hf => ?_, fun hr hf hw => ?_⟩
      · obtain ⟨u, hu, he⟩ := atSlice_of_room h hm hb hi hf
        have hcore (j : Nat) : (u.wrMem pa n (amoNew opc n (s.rdMem pa n) x cmp)).core j = s.core j := State.core_of_uncounted hu j
        exact ⟨_, congrArg Host.Outcome.next he, State.wrMem_rdMem_bits ..,
          fun a ha => (State.wrMem_byte_outside _ _ ha).trans (State.byte_of_uncounted hu a),
          by rw [State.updCore_core_self, hcore, dropNth_eq_eraseIdx], by rw [State.updCore_core_self, hcore],
          fun j hj => (State.updCore_core_of_ne _ _ hj).trans (hcore j)⟩
      · subst hr
        exact congrArg Host.Outcome.next (atSlice_of_waits h hm hb hi hf hw)
    · intro pa opc x cmp o h
      refine ⟨fun hm hb hh hi => ?_, fun h0 h8 h16 => ?_⟩
      · have hu := s.served_uncounted (s.core k).csr.partid.toNat pa n
        exact ⟨_, congrArg Host.Outcome.next (hostDone_of_asked h hm hb hh hi), State.wrMem_rdMem_bits ..,
          fun a ha => (State.wrMem_byte_outside _ _ ha).trans (State.byte_of_uncounted hu a), by rw [State.updCore_core_self]⟩
      · exact ⟨_, congrArg Host.Outcome.next (hostGivesUp_of_asked h h0 h8 h16), by rw [State.updCore_core_self], rfl⟩

end Sys2Proof.Machine
end

section
/-! SUPPORT. Accesses by lane (R222 to R224, R229): what filling, writing back and storing leave of the marks of the cores, and gather and scatter. -/

namespace Sys2Proof.Machine

/-! ## Lines and accesses keep the marks (R223, R224) -/

theorem State.marks_of_uncounted {s t : State} (h : t.uncounted = s.uncounted) : t.marks = s.marks :=
  State.eq_of_uncounted h State.marks fun _ => rfl
@[simp] theorem State.countCore_uncounted (s : State) (k : Nat) (l : List (Nat × Nat)) : (s.countCore k l).uncounted = s.uncounted := by
  rw [State.countCore_eq]
  rfl
@[simp] theorem State.applyMasked_marks (s : State) (pa mask i : Nat) (l : List Byte) : (s.applyMasked pa mask i l).marks = s.marks := by
  induction l generalizing s i with
  | nil => rfl
  | cons b t ih =>
    refine (ih ..).trans ?_
    split <;> rfl
@[simp] theorem State.writeBackLine_marks (s : State) (k w : Nat) : (s.writeBackLine k w).marks = s.marks := by
  have hu (a p q n : Nat) : ((s.closeLine a).served p q n).uncounted = s.uncounted := (State.served_uncounted ..).trans (s.closeLine_uncounted a)
  unfold State.writeBackLine
  dsimp only
  split_ifs
  · refine (State.updCore_marks _ k fun c => ?_).trans ((State.applyMasked_marks ..).trans (State.marks_of_uncounted (hu ..)))
    exact Core.setLine_marks ..
  · rfl
/-- R224: the state in which a line of the core is filled, its victim written back and the fill counted. -/
def State.roomFor (s : State) (k pa : Nat) : State :=
  (((s.writeBackLine k ((s.core k).victimLine pa)).closeLine pa).served (s.core k).csr.partid.toNat pa 64).countCore k [(0x0A, 1)]
theorem State.roomFor_uncounted (s : State) (k pa : Nat) :
    (s.roomFor k pa).uncounted = (s.writeBackLine k ((s.core k).victimLine pa)).uncounted :=
  (State.countCore_uncounted ..).trans ((State.served_uncounted ..).trans (State.closeLine_uncounted ..))
/-- The core with the line of pa in way w. -/
def Core.filled (c : Core) (w pa : Nat) (st : L0St) (l : List Byte) : Core := (c.setLine w ⟨pa / 64, st, (c.line w).lru, 0, l⟩).touchLine w
theorem State.fillLine_eq (s : State) (k pa : Nat) (st : L0St) : s.fillLine k pa st = (s.roomFor k pa).updCore k (fun c =>
    c.filled ((s.core k).victimLine pa) pa st ((s.roomFor k pa).portBytes k c.nextSeq (pa / 64 * 64) 64)) := rfl
@[simp] theorem State.fillLine_marks (s : State) (k pa : Nat) (st : L0St) : (s.fillLine k pa st).marks = s.marks := by
  rw [State.fillLine_eq]
  refine (State.updCore_marks _ k fun c => ?_).trans ((State.marks_of_uncounted (s.roomFor_uncounted k pa)).trans (s.writeBackLine_marks ..))
  exact (Core.touchLine_marks ..).trans (Core.setLine_marks ..)
@[simp] theorem State.needRegionLine_marks (s : State) (k pa : Nat) : (s.needRegionLine k pa).marks = s.marks := by
  unfold State.needRegionLine
  split
  · split_ifs
    · exact (State.fillLine_marks ..).trans (s.updCore_marks k fun c => rfl)
    · exact s.updCore_marks k fun c => c.touchLine_marks _
  · exact s.fillLine_marks k pa .clean
@[simp] theorem State.storeRegion_marks (s : State) (k pa : Nat) (l : List Byte) : (s.storeRegion k pa l).marks = s.marks := by
  refine (State.updCore_marks _ k fun c => ?_).trans (s.needRegionLine_marks k pa)
  dsimp only
  split <;> rfl
@[simp] theorem State.storeAt_marks (s : State) (k part gva pa : Nat) (l : List Byte) : (s.storeAt k part gva pa l).marks = s.marks := by
  refine (foldl_keeps State.marks (fun t p => ?_) _ _).trans (s.reXlate_marks k part gva)
  split_ifs
  · exact t.storeRegion_marks ..
  · exact t.storePort_marks ..
@[simp] theorem State.storeBytes_marks (s : State) (a pa : Nat) (l : List Byte) : (s.storeBytes a pa l).marks = s.marks :=
  (State.staleStore_marks ..).trans (s.storeAt_marks ..)
@[simp] theorem State.loadAt_marks (s : State) (k part gva pa n : Nat) : (s.loadAt k part gva pa n).1.marks = s.marks := by
  refine List.foldlRecOn (linePieces pa n) _ (motive := fun r : State × List LSrc => r.1.marks = s.marks) (s.reXlate_marks k part gva)
    fun r hr p _ => ?_
  dsimp only
  split_ifs
  · exact (State.needRegionLine_marks ..).trans hr
  · exact hr
@[simp] theorem State.addLoad_marks (s : State) (k : Nat) (d : Dest) (src : List LSrc) (sx : Nat) (m : Option Nat) :
    (s.addLoad k d src sx m).marks = s.marks := s.updCore_marks k fun _ => rfl
@[simp] theorem gathLanes_marks (s : State) (n : Nat) (is : List Nat) (l : List (Nat × Nat)) : (gathLanes s n is l).1.marks = s.marks := by
  induction is generalizing s with
  | nil => rfl
  | cons i is ih =>
    unfold gathLanes
    split
    · exact ih s
    · split
      · exact ih s
      · exact (ih _).trans (s.loadAt_marks ..)

/-! ## Gather and scatter (R229) -/

theorem wrap64_eq (x : Int) : wrap64 x = (BitVec.ofInt 64 x).toNat := (BitVec.toNat_ofInt ..).symm
/-- Where an enabled lane accesses memory. -/
theorem lanesOf_spec {s : State} {b vx k es sc : Nat} {p : Nat × Nat} (h : p ∈ lanesOf s.me b vx k es sc) :
    bitOf (s.me.rk k).toNat (p.1 * (8 * 2 ^ es) / 8) = true ∧ p.2 = (s.me.rg b + (BitVec.ofNat (8 * 2 ^ es)
      (lane s vx (8 * 2 ^ es) p.1)).signExtend 64 * (if sc = 1 then BitVec.ofNat 64 (2 ^ es) else 1)).toNat := by
  obtain ⟨i, hi, rfl⟩ := List.mem_map.mp h
  refine ⟨(List.mem_filter.mp hi).2, ?_⟩
  have hsx : BitVec.ofInt 64 (sext (laneAt (s.me.vn vx) (8 * 2 ^ es) i) (8 * 2 ^ es)) =
      (BitVec.ofNat (8 * 2 ^ es) (lane s vx (8 * 2 ^ es) i)).signExtend 64 := w64_sext _ (Nat.mul_pos (by decide) (Nat.two_pow_pos es))
  have hn : BitVec.ofNat 64 (if (sc == 1) = true then 2 ^ es else 1) = if sc = 1 then BitVec.ofNat 64 (2 ^ es) else 1 := by
    simp only [beq_iff_eq, apply_ite (BitVec.ofNat 64)]
    rfl
  rw [wrap64_eq, BitVec.ofInt_add, BitVec.ofInt_mul, BitVec.ofInt_natCast, BitVec.ofInt_natCast, hsx, hn, BitVec.ofNat_toNat, BitVec.setWidth_eq]

section
variable {s : State} {n acc : Nat} {l : List (Nat × Nat)} {e : FaultInfo} {x : SlotEff}

/-- A gather or scatter with a faulting lane. -/
theorem laneFault_some (h : laneFault s n acc l = some e) :
    (match laneFault s n acc l with | some e => { flt := some e } | none => x : SlotEff) = faults e.code e.cause e.addr := by rw [h]; rfl
theorem laneFault_none (h : laneFault s n acc l = none) :
    (match laneFault s n acc l with | some e => { flt := some e } | none => x : SlotEff) = x := by rw [h]
end

/-- Settles O34: a gather or scatter faults by its lanes, waits for their lines, or commits lane after lane. -/
theorem gatherScatter : Obligations.GatherScatter := by
  intro s gd t b vx k es sc n l g c r
  refine ⟨fun p hp => lanesOf_spec hp, fun e he hr => traps_lSlot rfl (laneFault_some he) hr, fun e he hr => traps_lSlot rfl (laneFault_some he) hr,
    fun he hb hr => stalls_lSlot rfl (laneFault_none he) rfl rfl hb rfl hr, fun he hb hr => stalls_lSlot rfl (laneFault_none he) rfl rfl hb rfl hr,
    fun he hb hr => ?gath, fun he hb hr => ?scat⟩
  case gath =>
    exact doesTo_of_marks rfl hr (laneFault_none he) hb rfl ((State.addLoad_marks ..).trans (gathLanes_marks ..))
  case scat =>
    refine doesTo_of_marks rfl hr (laneFault_none he) hb rfl (foldl_keeps State.marks (fun q p => ?_) l s.clean)
    split
    · exact q.storeBytes_marks ..
    · rfl
end Sys2Proof.Machine
end

section
/-! SUPPORT. TRD and TWR (R177, R234, R246): the checks of a window, the wait for its frame, and what reading and writing it leave of the cores. -/

namespace Sys2Proof.Machine

/-! ## The slot, by its checks (R234, R357) -/

section
variable {s : State} {b d : Nat} {x : Option Nat} {write : Bool} {f : Desc → Tile → Window → State → State} {wd : Window} {e : FaultInfo}

/-- The tile that an access of a frame names, and its descriptor. -/
def State.frameTile (s : State) (b : Nat) : Tile := tileOf s.me.csr.partid.toNat (s.me.rg b).toNat
def State.frameDesc (s : State) (b : Nat) : Desc := s.desc (s.frameTile b).part (s.frameTile b).tid
/-- What the slot does once its checks pass: it waits for its tile, and its effect begins with the marks of the wait gone. -/
def State.frameSlot (s : State) (b : Nat) (write : Bool) (F : State → State) : SlotEff :=
  { wait := !s.have (clusterOf s.cur) ⟨s.frameTile b, write, false⟩
    prep := fun u => (u.pursue (clusterOf s.cur) ⟨s.frameTile b, write, false⟩).updMe (fun c => { c with tcWait := some (s.frameTile b) })
    commit := fun u => F (u.updMe (fun c => { c with tcWait := none, tcFlt := none })) }

theorem frameAccess_of_error (h : tileWindow (s.frameDesc b) (s.frameTile b) (dispL d x 128) write = .error e) :
    frameAccess s b d x write f = faults e.code e.cause e.addr := by
  unfold State.frameDesc State.frameTile at h
  simp only [frameAccess, h]
  rfl
theorem frameAccess_of_flt (h : tileWindow (s.frameDesc b) (s.frameTile b) (dispL d x 128) write = .ok wd)
    (hw : s.me.tcWait = some (s.frameTile b)) (hf : s.me.tcFlt = some e) :
    frameAccess s b d x write f = faults e.code e.cause (s.frameTile b).q := by
  unfold State.frameDesc State.frameTile at *
  simp only [frameAccess, h, hw, hf, beq_self_eq_true, if_true]
  rfl
theorem frameAccess_of_denied (h : tileWindow (s.frameDesc b) (s.frameTile b) (dispL d x 128) true = .ok wd) (hf : s.me.tcFlt = none)
    (hd : windowDenied s (s.frameDesc b) (s.frameTile b) wd = true) : frameAccess s b d x true f = faults 7 1 (s.frameTile b).q := by
  unfold State.frameDesc State.frameTile at *
  simp only [frameAccess, h, hf, ite_self, hd, Bool.and_self, if_true]
  rfl
theorem frameAccess_of_ok (h : tileWindow (s.frameDesc b) (s.frameTile b) (dispL d x 128) write = .ok wd) (hf : s.me.tcFlt = none)
    (hd : write = true → windowDenied s (s.frameDesc b) (s.frameTile b) wd = false) :
    frameAccess s b d x write f = s.frameSlot b write (f (s.frameDesc b) (s.frameTile b) wd) := by
  unfold State.frameSlot State.frameDesc State.frameTile at *
  have hd : (write && windowDenied s (s.desc _ _) _ wd) = false := Bool.and_eq_false_imp.mpr hd
  simp only [frameAccess, h, hf, ite_self, hd, Bool.false_eq_true, if_false]
end

/-! ## The wait for a tile -/

/-- What the wait for a tile does not touch. -/
def State.kept (s : State) : SMap Core × SMap Byte × Nat := (s.cores, s.mem, s.cur)
@[simp] theorem State.setFrame_kept (s : State) (cl key : Nat) (f : Frame) : (s.setFrame cl key f).kept = s.kept := rfl
@[simp] theorem State.updFrame_kept (s : State) (cl key : Nat) (f : Frame → Frame) : (s.updFrame cl key f).kept = s.kept := rfl
@[simp] theorem State.giveLease_kept (s : State) (cl : Nat) (f : Frame) : (s.giveLease cl f).kept = s.kept := by
  unfold State.giveLease; split <;> rfl
@[simp] theorem State.ask_kept (s : State) (cl : Nat) (n : Need) : (s.ask cl n).kept = s.kept := by
  unfold State.ask; split <;> rfl
@[simp] theorem State.needGrant_kept (s : State) (cl : Nat) (t : Tile) : (s.needGrant cl t).kept = s.kept := by
  unfold State.needGrant
  split
  · rfl
  · dsimp only
    split_ifs <;> rfl
theorem State.dropFrame_kept {s : State} {cl key : Nat} (h : (s.frame cl key).ref = 0) : (s.dropFrame cl key).kept = s.kept := by
  simp only [State.dropFrame, h, beq_self_eq_true, if_true, State.updFrame_kept, State.giveLease_kept]
theorem State.allocate_kept {s : State} {cl : Nat} {t : Tile} {ref top : Nat} {r : State × Nat} (h : s.allocate cl t ref top = some r) :
    r.1.kept = s.kept := by
  unfold State.allocate at h
  extract_lets pick at h
  have hpick {u : State} {r : State × Nat} (h : pick u = some r) : r.1.kept = u.kept := by
    simp only [pick] at h
    split at h
    · cases h
    · split_ifs at h <;> cases h <;> simp
  split at h
  · exact hpick h
  · dsimp only at h
    split_ifs at h with hr
    exact (hpick h).trans (State.dropFrame_kept (beq_iff_eq.mp hr))
@[simp] theorem State.pursue_kept (s : State) (cl : Nat) (n : Need) : (s.pursue cl n).kept = s.kept := by
  unfold State.pursue
  split
  · dsimp only
    split_ifs
    · exact (State.needGrant_kept ..).trans (s.updFrame_kept ..)
    · exact s.updFrame_kept ..
  · split
    · rfl
    · next h => exact (State.ask_kept ..).trans (State.allocate_kept h)

/-- A slot that waits, and what it does meanwhile. -/
theorem exec_of_wait {i : Instr} {sem : State → SlotEff} {s : State} (hx : exec i s = runSole i sem s) (h : Asked i sem s)
    (hf : (sem s).flt = none) (he : (sem s).errs = []) (hw : (sem s).wait = true) :
    ∃ u, exec i s = .next u ∧ u.uncounted = (((sem s).prep s).updMe Core.stall).uncounted := by
  obtain ⟨hrun, heffs⟩ := runSole_iterate h
  refine ⟨_, hx.trans hrun, ?_⟩
  simp only [Bundle.iterate, heffs, List.findSome?_cons, List.findSome?_nil, hf, he, List.flatMap_cons, List.flatMap_nil, List.append_nil,
    lowest, ite_self, List.any_cons, hw, Bool.true_or, if_true, List.foldl_cons, List.foldl_nil]
  exact State.countCore_uncounted ..

/-- The frame access i at s waits for the tile t. -/
def WaitsFor (i : Instr) (s : State) (t : Tile) : Prop := ∃ u, exec i s = .next u ∧ u.me.stalled = true ∧ u.me.tcWait = some t ∧
  u.me.pc = s.me.pc ∧ u.me.regs = s.me.regs ∧ u.mem = s.mem
theorem waitsFor_of_frameSlot {i : Instr} {s : State} {b : Nat} {write : Bool} {F : State → State} (hc : i.cls = some .l) (hr : ReadyL i s)
    (hs : semOf i s = s.frameSlot b write F) (hw : s.have (clusterOf s.cur) ⟨s.frameTile b, write, false⟩ = false) :
    WaitsFor i s (s.frameTile b) := by
  obtain ⟨u, hu, huc⟩ := exec_of_wait (exec_lSlot hc) (asked_lSlot hc hr) (by rw [hs]; rfl) (by rw [hs]; rfl) (by rw [hs, State.frameSlot, hw]; rfl)
  let p := s.pursue (clusterOf s.cur) ⟨s.frameTile b, write, false⟩
  obtain ⟨hcores, hmem, hcur⟩ : p.cores = s.cores ∧ p.mem = s.mem ∧ p.cur = s.cur := by
    simpa only [State.kept, Prod.mk.injEq] using s.pursue_kept (clusterOf s.cur) ⟨s.frameTile b, write, false⟩
  have hme : u.me = Core.stall { s.me with tcWait := some (s.frameTile b) } := by
    rw [State.eq_of_uncounted huc State.me fun _ => rfl, hs, State.updMe_me]
    refine congrArg Core.stall ((p.updMe_me _).trans ?_)
    rw [show p.me = s.me from congrArg₂ (fun m k => mget m k Core.reset) hcores hcur]
  exact ⟨u, hu, by rw [hme]; rfl, by rw [hme]; rfl, by rw [hme]; rfl, by rw [hme]; rfl,
    (State.mem_of_uncounted huc).trans (by rw [hs]; exact hmem)⟩

/-! ## Reading a window (R177) -/

theorem State.beingWritten_congr {s t : State} (h : ∀ k, (t.core k).cmds = (s.core k).cmds) (cl : Nat) (tl : Tile) (k id : Nat) :
    t.beingWritten cl tl k id = s.beingWritten cl tl k id := by
  simp only [State.beingWritten, h]
theorem State.updMe_cmds (s : State) {f : Core → Core} (h : ∀ c, (f c).cmds = c.cmds) (k : Nat) : ((s.updMe f).core k).cmds = (s.core k).cmds := by
  by_cases hk : k = s.cur
  · subst hk
    exact (congrArg Core.cmds (s.updMe_me f)).trans (h _)
  · rw [s.updMe_core_of_ne f hk]
theorem State.clean_cmds (s : State) (k : Nat) : (s.clean.core k).cmds = (s.core k).cmds := s.updMe_cmds (f := Core.cleaned) (fun _ => rfl) k
/-- The core as a bundle that waited for a tile goes on. -/
def Core.unwaited (c : Core) : Core := { c with tcWait := none, tcFlt := none }

/-- A load whose bytes are there, of a bundle that waits no longer. -/
theorem doesTo_known {i : Instr} {s : State} {w : Bool} {p F : State → State} {t m : Nat} {l : List LSrc} (hc : i.cls = some .l)
    (hr : ReadyL i s) (hs : semOf i s = { wait := w, prep := p, commit := F }) (hw : w = false)
    (hF : F s.clean = ((s.clean.updMe Core.unwaited).addLoad s.cur (.v t) l 0 none).draw m) :
    DoesTo i s (((s.updMe Core.unwaited).addLoad s.cur (.v t) l 0 none).draw m) := by
  have ha := asked_lSlot hc hr
  have hme (u : State) (hcur : u.cur = s.cur) : (((u.updMe Core.unwaited).addLoad s.cur (.v t) l 0 none).draw m).me =
      u.me.unwaited.loading (.v t) l 0 none := by
    rw [← hcur, State.addLoad_eq]
    change ((u.updMe Core.unwaited).updCore u.cur (fun c => c.loading (.v t) l 0 none)).core u.cur = _
    rw [State.updCore_core_self]
    exact congrArg (Core.loading · (.v t) l 0 none) (u.updMe_me Core.unwaited)
  have hother (u : State) (hcur : u.cur = s.cur) {k : Nat} (hk : k ≠ s.cur) :
      (((u.updMe Core.unwaited).addLoad s.cur (.v t) l 0 none).draw m).core k = u.core k := by
    rw [State.addLoad_eq]
    change ((u.updMe Core.unwaited).updCore s.cur (fun c => c.loading (.v t) l 0 none)).core k = _
    rw [State.updCore_core_of_ne _ _ hk, u.updMe_core_of_ne _ (hcur ▸ hk)]
  refine doesTo_of (exec_lSlot hc) ha.ready ha.free ha.legal hs ⟨rfl, rfl, hw, rfl, rfl⟩ ?_ ?_ (fun k hk => ?_) rfl ?_
  · dsimp only
    rw [hF, hme s.clean rfl, hme s rfl, State.clean_me]
    rfl
  · dsimp only
    rw [hF]
    rfl
  · dsimp only
    rw [hF, hother s.clean rfl hk, hother s rfl hk]
    exact s.updMe_core_of_ne _ hk
  · rw [hme s rfl]
    exact ⟨hr.1.1.1, rfl, rfl⟩

/-! ## Writing a window (R177, R344) -/

@[simp] theorem State.draw_marks (s : State) (n : Nat) : (s.draw n).marks = s.marks := rfl
@[simp] theorem State.putFrame_marks (s : State) (cl : Nat) (t : Tile) (m : SMap Byte) (wr : List (Nat × Nat)) :
    (s.putFrame cl t m wr).marks = s.marks := by
  unfold State.putFrame; split <;> rfl
@[simp] theorem State.markTorn_marks (s : State) (cl : Nat) (t : Tile) (wr : List (Nat × Nat)) (k id : Nat) :
    (s.markTorn cl t wr k id).marks = s.marks := by
  unfold State.markTorn
  extract_lets hitBy
  split
  · rw [State.draw_marks]
    refine foldl_keeps State.marks (fun u kk => ?_) _ s
    exact u.updCore_marks kk fun _ => rfl
  · rfl
@[simp] theorem State.writeWindow_marks (s : State) (cl : Nat) (ds : Desc) (tl : Tile) (wd : Window) (v : Nat) :
    (s.writeWindow cl ds tl wd v).marks = s.marks := by
  unfold State.writeWindow
  split
  · rfl
  · exact (State.staleIf_marks ..).trans ((State.markTorn_marks ..).trans (State.putFrame_marks ..))

/-- Settles O37: the checks fault, a tile not at hand is waited for, and a window is read or written. -/
theorem framesAccessed : Obligations.FrameAccess := by
  intro s gd t b d x tl ds cl rd wr none' torn data waits
  have hrd : semOf rd s = semTrd t b d x s := rfl
  have hwr : semOf wr s = frameAccess s b d x true (fun ds tl wd u => u.writeWindow (clusterOf u.cur) ds tl wd (s.me.rv t).toNat) := rfl
  refine ⟨fun e he hr => traps_lSlot rfl (hrd.trans (frameAccess_of_error he)) hr,
    fun e he hr => traps_lSlot rfl (hwr.trans (frameAccess_of_error he)) hr, fun wd hwd hf hhit hr => ?reads,
    fun wd hwd hf hd hr => traps_lSlot rfl (hwr.trans (frameAccess_of_denied hwd hf hd)) hr, fun wd hwd hf hd hm hr => ?writes,
    fun wd hwd hf hhit hr => waitsFor_of_frameSlot rfl hr (hrd.trans (frameAccess_of_ok hwd hf nofun)) ?_,
    fun wd hwd hf hd hm hr => waitsFor_of_frameSlot rfl hr (hwr.trans (frameAccess_of_ok hwd hf fun _ => hd)) hm,
    fun wd e hwd hw hf hr => traps_lSlot rfl (hrd.trans (frameAccess_of_flt hwd hw hf)) hr,
    fun wd e hwd hw hf hr => traps_lSlot rfl (hwr.trans (frameAccess_of_flt hwd hw hf)) hr⟩
  case reads =>
    have hhave : s.have cl ⟨tl, false, false⟩ = true := hhit
    have htorn : (s.clean.updMe Core.unwaited).beingWritten cl tl 768 0 = torn :=
      State.beingWritten_congr (fun k => (s.clean.updMe_cmds (f := Core.unwaited) (fun _ => rfl) k).trans (s.clean_cmds k)) cl tl 768 0
    refine doesTo_known rfl hr (hrd.trans (frameAccess_of_ok hwd hf nofun)) (congrArg not hhave) ?_
    change ((s.clean.updMe Core.unwaited).addLoad s.cur (.v t) ((toBytes 128 (wd.read ds
      (((s.clean.updMe Core.unwaited).beingWritten cl tl 768 0).foldl _ _))).map .known) 0 none).draw
      (if ((s.clean.updMe Core.unwaited).beingWritten cl tl 768 0).isEmpty then 0 else 139264) = _
    rw [htorn]
    rfl
  case writes =>
    have hhave : s.have cl ⟨tl, true, false⟩ = true := hm
    exact doesTo_of_marks rfl hr (hwr.trans (frameAccess_of_ok hwd hf fun _ => hd)) (congrArg not hhave) rfl
      ((State.writeWindow_marks ..).trans (State.updCore_marks _ _ fun _ => rfl))
  · exact congrArg Option.isSome hhit

end Sys2Proof.Machine
end

section
/-! SUPPORT. The statements about region lines and about scale loads take the table of cores to list each core once, which no statement assumes: a
store of a second entry for a core is forwarded (R235) until the core is next changed, when the table keeps one entry for it. -/

namespace Sys2Proof.Machine

/-- Core 0 listed twice: running a task with address 0 in its registers, and again with a store of byte 5 to address 0 that the cluster's port has
accepted. Page 0 is translated to itself. -/
def twiceListed : State := { State.reset with
  cores := [(0, { Core.reset with run := .task }), (0, { Core.reset with mq := [.store 0 0 0 [5] (.cluster 0)] })]
  xlats := [⟨0, 0, 0, 0, 7, 0, 0, 0⟩] }
/-- A line filled there holds the byte of the second entry's store; the table as the fill leaves it has that store no more. -/
theorem twiceListed_fillLine :
    nth (((twiceListed.fillLine 0 0 .clean).core 0).line 0).data 0 0 = 5 ∧ (twiceListed.fillLine 0 0 .clean).portByte 0 0 0 = 0 := by decide

/-- Refutes O33: the data of a line just filled are not the bytes that its core reads when the table lists the core a second time, with a store that
the cluster's port has accepted. -/
theorem not_regionLines : ¬ Obligations.RegionLines := by
  rintro ⟨-, hfill⟩
  obtain ⟨-, -, -, -, -, hdata, -⟩ := hfill twiceListed 0 0 .clean
  obtain ⟨hline, hport⟩ := twiceListed_fillLine
  have h5 : (5 : Byte) = 0 := calc
    5 = nth (((twiceListed.fillLine 0 0 .clean).core 0).line 0).data 0 0 := hline.symm
    _ = (twiceListed.fillLine 0 0 .clean).portByte 0 ((twiceListed.fillLine 0 0 .clean).core 0).nextSeq 0 := congrArg (nth · 0 0) hdata
    _ = 0 := hport
  exact absurd h5 (by decide)

/-- SLD of the byte at address 0. -/
def sldZero : Instr := .sld ⟨0, 0⟩ 3 1 0 none
/-- What the clause about SLD asks of a state holds of this one; the byte that it names is 5. -/
theorem twiceListed_asked : ReadyL sldZero twiceListed ∧ twiceListed.xlate 0 0 0 accR = .ok ⟨0, 7, 0, 0⟩ ∧ twiceListed.regionOf 0 0 = none ∧
    twiceListed.lineBusy 0 0 = false ∧ twiceListed.portByte 0 0 0 = 5 := by decide
/-- SLD there puts the byte 0 of memory in flight. -/
theorem twiceListed_sld {u : State} (h : exec sldZero twiceListed = .next u) : u.me.fly = [⟨.e 3, 0, some 0xFFFF, 5⟩] := by
  have hfly : (match exec sldZero twiceListed with | .next t => t.me.fly | _ => []) = [⟨.e 3, 0, some 0xFFFF, 5⟩] := by decide
  rwa [h] at hfly

/-- Refutes O35: SLD does not land the byte of the store that a second entry for its core forwards. -/
theorem not_readOnlyAndScaleLoads : ¬ Obligations.ReadOnlyAndScaleLoads := by
  rintro ⟨-, hsld⟩
  obtain ⟨hr, hx, hreg, hbusy, hbyte⟩ := twiceListed_asked
  obtain ⟨u, hu, -, -, hfly⟩ := (hsld twiceListed ⟨0, 0⟩ 3 1 0 none ⟨0, 7, 0, 0⟩).1 hr rfl hx (.inl rfl) (fun _ => hreg) hbusy
  have hval : 0 = ofBytes [twiceListed.portByte 0 0 0] :=
    congrArg (fun l => (l.head?.map Fly.val).getD 0) ((twiceListed_sld hu).symm.trans hfly)
  rw [hbyte] at hval
  exact absurd hval (by decide)

end Sys2Proof.Machine
end

section
/-! SUPPORT. X slots (R249, R250, R253 to R265, R280): the slots of the tile cache, the copy engine, the channels, the descriptor unit and the task
unit are engine slots, as M slots are; a fabric slot checks its address first, waits for one of its target's slots too, and keeps its page translated. -/

namespace Sys2Proof.Machine

/-- Settles O40: each slot is an engine slot of its command, whose operands are read as the bundle began. -/
theorem tileAndTaskCommands : Obligations.TileAndTaskCommands := by
  intro s gd e q hint set clr ax nm1 qs qd t gs opr ver s0 ix dm1 ch gt ga rq rg o queues
  have hslot : ∀ {i x : Instr} {args : List Nat}, i.cls = some .x → semOf i s = engineSlot s x e args false → queues i x args :=
    fun hc hs => enqueues_of_engineSlot (.inr hc) hs
  exact ⟨hslot rfl rfl, hslot rfl rfl, hslot rfl rfl, hslot rfl rfl, hslot rfl rfl, hslot rfl rfl, hslot rfl rfl, hslot rfl rfl, hslot rfl rfl,
    hslot rfl rfl, hslot rfl rfl, hslot rfl rfl, hslot rfl rfl, hslot rfl rfl, hslot rfl rfl, hslot rfl rfl, hslot rfl rfl, hslot rfl rfl,
    hslot rfl rfl⟩

/-! ## A page stays translated behind a commit (R358) -/

/-- The order of the device's events does not bear on translations. -/
theorem State.keepXlate_of_clock (s : State) (n who part gva : Nat) :
    ({ s with clock := n } : State).keepXlate who part gva = { s.keepXlate who part gva with clock := n } := by
  have hc : ({ s with clock := n } : State).cached who part gva = s.cached who part gva := rfl
  have hw : walk { s with clock := n } (({ s with clock := n } : State).part part) gva = walk s (s.part part) gva := rfl
  unfold State.keepXlate
  rw [hc, hw]
  cases (s.cached who part gva).isSome
  · cases walk s (s.part part) gva <;> rfl
  · rfl
theorem State.reXlate_of_clock (s : State) (n who part gva : Nat) :
    ({ s with clock := n } : State).reXlate who part gva = { s.reXlate who part gva with clock := n } := by
  have hc : ({ s with clock := n } : State).cached who part gva = s.cached who part gva := rfl
  unfold State.reXlate
  rw [hc]
  cases s.cached who part gva with
  | none => exact s.keepXlate_of_clock n who part gva
  | some r =>
    have hr : ({ s with clock := n } : State).refuses who part r = s.refuses who part r := rfl
    simp only [hr]
    cases (s.refuses who part r).isSome
    · rfl
    · exact congrArg (fun t : State => t.countEv (unitChannel (channelOf r.pa)) 0x46 part 1) (State.keepXlate_of_clock
        { s with xlats := s.xlats.filter (fun x => !(x.core == who && x.part == part && x.page == gva / 65536)) } n who part gva)
@[simp] theorem State.reXlate_me (s : State) (who part gva : Nat) : (s.reXlate who part gva).me = s.me := by
  rw [State.me, State.reXlate_cur, State.reXlate_core, State.me]
/-- A command enters its queue whether its page is looked up before or after. -/
theorem State.enqueue_reXlate (s : State) (c : Core) (i : Instr) (e : Edge) (args : List Nat) (hb : Bool) (who part gva : Nat) :
    (s.enqueue c i e args hb).reXlate who part gva = (s.reXlate who part gva).enqueue c i e args hb := by
  have h : s.enqueue c i e args hb = { s.withCores (s.enqueue c i e args hb).cores with clock := s.clock + 1 } := rfl
  rw [h, State.reXlate_of_clock, State.withCores_reXlate, State.reXlate_eq]
  rfl

/-- Of the other cores a command that enters its queue changes none. -/
theorem State.enqueue_clean_core_of_ne {s : State} {c : Core} {i : Instr} {e : Edge} {args : List Nat} {hb : Bool} {k : Nat} (h : k ≠ s.cur) :
    (s.clean.enqueue c i e args hb).core k = (s.enqueue c i e args hb).core k :=
  (State.enqueue_core_of_ne (s := s.clean) h).trans ((s.updMe_core_of_ne _ h).trans (State.enqueue_core_of_ne h).symm)

/-! ## Fabric slots (R263, R265) -/

section
variable {i x : Instr} {s : State} {e : Edge} {args : List Nat} {hb w : Bool} {a val : Nat}

theorem exec_xSlot (hc : i.cls = some .x) : exec i s = runSole i (semOf i) s := exec_eq_runSole (by simp [hc]) s
theorem asked_xSlot (hc : i.cls = some .x) (hr : Ready i s) : Asked i (semOf i) s :=
  asked_of_ready (by simp [Instr.slot, hc]) (fun gd n y hi => by subst hi; cases hc) hr

/-- An engine slot that also waits while w, and whose commit keeps the page of a translated. -/
def paged (s : State) (w : Bool) (a : Nat) (f : SlotEff) : SlotEff :=
  { f with wait := f.wait || w, commit := fun t => f.commit (t.reXlate t.cur s.me.csr.partid.toNat a) }

theorem fabricSlot_of_unaligned (ha : a % 8 ≠ 0) : (fabricSlot s x e a val hb).flt = some ⟨5, 0, a⟩ := by
  rw [fabricSlot, if_pos (bne_iff_ne.mpr ha)]
  rfl
theorem fabricSlot_of_untranslated {f : FaultInfo} (ha : a % 8 = 0)
    (hx : s.xlate s.cur s.me.csr.partid.toNat a (fabricAcc ((fabricKind x).getD 0)) = .error f) : (fabricSlot s x e a val hb).flt = some f := by
  simp only [fabricSlot, ha, hx]
  rfl
theorem fabricSlot_of_not_remote {r : Xr} (ha : a % 8 = 0)
    (hx : s.xlate s.cur s.me.csr.partid.toNat a (fabricAcc ((fabricKind x).getD 0)) = .ok r) (hk : paKind r.pa ≠ .remote) :
    (fabricSlot s x e a val hb).flt = some ⟨7, 2, a⟩ := by
  simp only [fabricSlot, ha, hx]
  cases hp : paKind r.pa with
  | remote => exact absurd hp hk
  | _ => rfl
theorem fabricSlot_of_remote {r : Xr} (ha : a % 8 = 0)
    (hx : s.xlate s.cur s.me.csr.partid.toNat a (fabricAcc ((fabricKind x).getD 0)) = .ok r) (hk : paKind r.pa = .remote) :
    fabricSlot s x e a val hb = paged s (Nat.ble 8 (s.me.toDev (fabricDev r.pa)).length) a (engineSlot s x e [r.pa, val] hb) := by
  simp only [fabricSlot, ha, hx, hk, bne_self_eq_false, Bool.false_eq_true, if_false]
  rfl

/-- An X slot of this form enqueues its command, by the states of its tokens, the room in its queue and its own wait. -/
theorem enqueues_of_paged (hc : i.cls = some .x) (hs : semOf i s = paged s w a (engineSlot s x e args hb)) (hr : Ready i s) :
    Enqueues i s e x args hb w (fun u => u.reXlate s.cur s.me.csr.partid.toNat a) := by
  have hx : exec i s = runSole i (semOf i) s := exec_xSlot hc
  have ha : Asked i (semOf i) s := asked_xSlot hc hr
  refine ⟨fun hf => ?free, fun hf hst n hn he hl => ?error, fun hf he hw => ?full, fun hf he hw => ?room⟩
  case free =>
    rw [engineSlot_of_free hf] at hs
    exact traps_of (f := ⟨0x0E, 1, 0⟩) hx ha (by rw [hs]; rfl)
  case error =>
    rw [engineSlot_of_no_free hf] at hs
    refine delivers_of hx ha (by rw [hs]; rfl) hst ?_
    rw [hs]
    exact lowest_of (List.mem_filter.mpr ⟨hn, beq_iff_eq.mpr he⟩)
      (fun m hm => hl m (List.mem_filter.mp hm).1 (beq_iff_eq.mp (List.mem_filter.mp hm).2))
  case full =>
    rw [engineSlot_of_no_error hf he] at hs
    refine stalls_of hx ha (by rw [hs]; rfl) (.inl (by rw [hs]; rfl)) ?_ (by rw [hs]; rfl)
    rw [hs]
    exact Bool.or_eq_true_iff.mpr (hw.imp_left Nat.ble_eq.mpr)
  case room =>
    rw [engineSlot_of_no_error hf he] at hs
    obtain ⟨hd, hw⟩ := not_or.mp hw
    have hwait : (Nat.ble (queueDepth (isM x)) (s.me.inQueue (isM x)) || w) = false :=
      Bool.or_eq_false_iff.mpr ⟨Bool.eq_false_iff.mpr fun h => hd (Nat.ble_eq.mp h), Bool.eq_false_iff.mpr hw⟩
    obtain ⟨t, ht⟩ : ∃ t, t = s.reXlate s.cur s.me.csr.partid.toNat a := ⟨_, rfl⟩
    have hme : t.me = s.me := ht ▸ s.reXlate_me ..
    have hcur : t.cur = s.cur := ht ▸ s.reXlate_cur ..
    have hleaves : (s.enqueue s.me x e args hb).reXlate s.cur s.me.csr.partid.toNat a = t.enqueue t.me x e args hb := by
      rw [State.enqueue_reXlate, ← ht, hme]
    have hcommit : (s.clean.reXlate s.cur s.me.csr.partid.toNat a).enqueue s.me x e args hb = t.clean.enqueue t.me x e args hb := by
      rw [State.clean_reXlate, ← ht, hme]
    obtain ⟨hrun, hmode, hpre⟩ := t.enqueue_me_runs x e args hb
    refine (congrArg (DoesTo i s) hleaves).mpr (doesTo_of hx ha.ready ha.free ha.legal hs ⟨rfl, rfl, hwait, rfl, rfl⟩ ?me ?alike ?others hcur
      ⟨hrun.trans (hme ▸ hr.1.1), hmode.trans (congrArg Core.hm hme), hpre.trans (congrArg Core.preempt hme)⟩)
    case me => exact (congrArg State.me hcommit).trans (t.enqueue_clean_me ..)
    case alike => exact (congrArg (State.Alike (t.enqueue t.me x e args hb)) hcommit).mpr rfl
    case others => exact fun k hk => (congrArg (State.core · k) hcommit).trans (State.enqueue_clean_core_of_ne (hcur ▸ hk))
end

/-- Settles O41: the checks of the address fault in their order; behind them, the slot is an engine slot that waits for its target too. -/
theorem fabricCommands : Obligations.FabricCommands := by
  intro s gd e d ga gs a v o part asks
  have hslot : ∀ {i x : Instr} {acc val : Nat} {hb : Bool}, i.cls = some .x → fabricAcc ((fabricKind x).getD 0) = acc →
      semOf i s = fabricSlot s x e a val hb → asks i x acc val hb := by
    intro i x acc val hb hc hacc hs hr
    subst hacc
    have hx : exec i s = runSole i (semOf i) s := exec_xSlot hc
    have ha : Asked i (semOf i) s := asked_xSlot hc hr
    refine ⟨fun h8 => ?unaligned, fun f h8 hf => ?untranslated, fun r h8 hok hk => ?notRemote, fun r h8 hok hk => ?remote⟩
    case unaligned => exact traps_of (f := ⟨5, 0, a⟩) hx ha (hs ▸ fabricSlot_of_unaligned h8)
    case untranslated => exact traps_of hx ha (hs ▸ fabricSlot_of_untranslated h8 hf)
    case notRemote => exact traps_of (f := ⟨7, 2, a⟩) hx ha (hs ▸ fabricSlot_of_not_remote h8 hok hk)
    case remote =>
      have hwait : decide (8 ≤ (s.me.toDev (fld r.pa 39 13)).length) = Nat.ble 8 (s.me.toDev (fabricDev r.pa)).length :=
        Bool.eq_iff_iff.mpr (decide_eq_true_iff.trans (Iff.of_eq Nat.ble_eq.symm))
      rw [hwait]
      exact enqueues_of_paged hc (hs.trans (fabricSlot_of_remote h8 hok hk)) hr
  exact ⟨hslot rfl rfl rfl, hslot rfl rfl rfl, hslot rfl rfl rfl, hslot rfl rfl rfl, hslot rfl rfl rfl, hslot rfl rfl rfl, hslot rfl rfl rfl⟩

end Sys2Proof.Machine
end

section
/-! SUPPORT. AMO and CAS (R267, R268, R271): an operation on local memory leaves for its slice with its line, one on host memory is asked for and
stalls its bundle until it is done. -/

namespace Sys2Proof.Machine

/-! ## A slot that asks for an operation before it commits (R271) -/

/-- Nothing keeps the bundle back but the operation that its slot asks for: it is asked for, and the bundle stalls. -/
theorem exec_of_asks {i : Instr} {s : State} {e : SlotEff} {f : State → State} (hx : exec i s = runSole i (semOf i) s) (h : Asked i (semOf i) s)
    (hs : semOf i s = e) (he : e.flt = none ∧ e.errs = [] ∧ e.wait = false ∧ e.late = []) (hf : e.ask = some f) :
    exec i s = .next (((f s).updMe Core.stall).countCore s.cur [(1, 1), (6, 1)]) := by
  obtain ⟨hrun, heff⟩ := runSole_iterate h
  obtain ⟨hflt, herrs, hwait, hlate⟩ := he
  refine hx.trans (hrun.trans (congrArg _ ?_))
  simp only [Bundle.iterate, heff, hs, List.findSome?_cons, List.findSome?_nil, hflt, List.flatMap_cons, List.flatMap_nil, herrs, hlate,
    List.append_nil, lowest, ite_self, List.any_cons, List.any_nil, hwait, Bool.or_false, Bool.false_eq_true, if_false, hf]

/-! ## What an operation that leaves keeps (R268) -/

@[simp] theorem State.evictLine_marks (s : State) (k pa : Nat) : (s.evictLine k pa).marks = s.marks := by
  unfold State.evictLine
  split
  · rfl
  · next w _ => exact (State.updCore_marks _ k fun c => Core.setLine_marks ..).trans (s.writeBackLine_marks k w)
theorem Core.cancelAll_marks (c : Core) (l : List Dest) : (l.foldl Core.cancel c).marks = c.marks := 
  List.foldlRecOn l _ (motive := fun k : Core => k.marks = c.marks) rfl (fun _ h _ _ => h)
@[simp] theorem State.amoOut_marks (s : State) (pa gva n opc x cmp : Nat) (dests : List Dest) :
    (s.amoOut pa gva n opc x cmp dests).marks = s.marks := by
  refine (State.updCore_marks (s.evictLine s.cur pa) _ fun c => ?_).trans (s.evictLine_marks s.cur pa)
  exact c.cancelAll_marks dests

/-! ## The old value of a host operation (R271) -/

/-- The results that bring an old value to its destinations, 64 bits to each. -/
def hostFlies (dests : List Dest) (old : Nat) : List Fly :=
  (dests.zip [old % 2 ^ 64, old / 2 ^ 64 % 2 ^ 64]).map (fun p => ⟨p.1, p.2, none, 1⟩)
theorem Core.hostResult_eq (c : Core) {dests : List Dest} (h : dests.length ≤ 2) (old : Nat) :
    c.hostResult dests old = { c with fly := c.fly ++ hostFlies dests old, hostAt := .none } := by
  match dests, h with
  | [], _ => simp [Core.hostResult, hostFlies]
  | [_], _ => rfl
  | [_, _], _ => simp [Core.hostResult, hostFlies, Core.put]
/-- One step later all of them have landed. -/
theorem hostFlies_land (c : Core) (dests : List Dest) (old : Nat) :
    c.landAll (((hostFlies dests old).map (fun f => { f with left := f.left - 1 })).filter (fun f => f.left == 0)) =
      (dests.zip [old % 2 ^ 64, old / 2 ^ 64 % 2 ^ 64]).foldl (fun c p => c.write p.1 p.2 none) c := by
  simp [hostFlies, Core.landAll, List.map_map, Function.comp_def, List.filter_map, List.foldl_map]
theorem hostFlies_landed (dests : List Dest) (old : Nat) :
    ((hostFlies dests old).map (fun f => { f with left := f.left - 1 })).filter (fun f => f.left != 0) = [] := by
  simp [hostFlies, List.filter_map, Function.comp_def]

/-! ## The slot -/

section
variable {s : State} {a n opc x cmp : Nat} {dests : List Dest} {r : Xr}

/-- An operation at its physical address: it leaves for its slice, or is asked of a host that has atomics. -/
def atomicAt (pa a n opc x cmp : Nat) (dests : List Dest) : SlotEff :=
  match paKind pa with
  | .host => if !Config.hostAtomics then faults 0x10 2 a
    else { ask := some (fun s => s.updMe (fun c => { c with hostAt := .asked pa n opc x cmp })) }
  | _ => { commit := fun s => s.amoOut pa a n opc x cmp dests }
theorem atomic_of_idle (h : s.me.hostAt = .none) :
    atomic s a n opc x cmp dests = s.accessing a n 3 (fun pa => atomicAt pa a n opc x cmp dests) := by
  simp only [atomic, h]
  rfl
theorem atomic_of_local (h : s.me.hostAt = .none) (ha : a % n = 0) (hx : s.xlate s.cur s.me.csr.partid.toNat a 3 = .ok r)
    (hk : paKind r.pa = .localHbm) : atomic s a n opc x cmp dests = { commit := fun s => s.amoOut r.pa a n opc x cmp dests } := by
  rw [atomic_of_idle h, State.accessing_of_ok (State.access_of_memory ha hx (.inl hk)), atomicAt, hk]
theorem atomic_of_host (h : s.me.hostAt = .none) (ha : a % n = 0) (hx : s.xlate s.cur s.me.csr.partid.toNat a 3 = .ok r)
    (hk : paKind r.pa = .host) : atomic s a n opc x cmp dests = if !Config.hostAtomics then faults 0x10 2 a
      else { ask := some (fun s => s.updMe (fun c => { c with hostAt := .asked r.pa n opc x cmp })) } := by
  rw [atomic_of_idle h, State.accessing_of_ok (State.access_of_memory ha hx (.inr hk)), atomicAt, hk]

variable {i : Instr} (hc : i.cls = some .l) (hs : semOf i s = atomic s a n opc x cmp dests) (hr : ReadyL i s)
include hc hs hr

theorem atomic_leaves (h : s.me.hostAt = .none) (ha : a % n = 0) (hx : s.xlate s.cur s.me.csr.partid.toNat a 3 = .ok r)
    (hk : paKind r.pa = .localHbm) : DoesTo i s (s.clean.amoOut r.pa a n opc x cmp dests) :=
  doesTo_of_marks hc hr (hs.trans (atomic_of_local h ha hx hk)) rfl rfl (State.amoOut_marks ..)

/-- The operation is asked of the host, and the bundle stalls. -/
theorem atomic_asks (h : s.me.hostAt = .none) (ha : a % n = 0) (hx : s.xlate s.cur s.me.csr.partid.toNat a 3 = .ok r)
    (hk : paKind r.pa = .host) (hat : Config.hostAtomics = true) :
    ∃ u, exec i s = .next u ∧ CoreOnly s u ∧ u.me = Core.stall { s.me with hostAt := .asked r.pa n opc x cmp } := by
  have hs := hs.trans ((atomic_of_host h ha hx hk).trans (if_neg (by rw [hat]; decide)))
  refine ⟨_, exec_of_asks (exec_lSlot hc) (asked_lSlot hc hr) hs ⟨rfl, rfl, rfl, rfl⟩ rfl, ?_⟩
  rw [State.countCore_eq]
  refine ⟨⟨rfl, fun k hk => ?_⟩, ?_⟩
  · exact (State.updMe_core_of_ne (s.updMe _) Core.stall hk).trans (s.updMe_core_of_ne _ hk)
  · exact (State.updMe_me _ Core.stall).trans (congrArg Core.stall (s.updMe_me _))
/-- While the host has not answered, the bundle stalls. -/
theorem atomic_stalls {p m o y z : Nat} (h : s.me.hostAt = .asked p m o y z) : Stalls i s := by
  have hs : semOf i s = { ask := some id } := hs.trans (by simp only [atomic, h])
  obtain ⟨honly, hme⟩ := coreOnly_count s Core.stall s.cur [(1, 1), (6, 1)]
  exact ⟨_, exec_of_asks (exec_lSlot hc) (asked_lSlot hc hr) hs ⟨rfl, rfl, rfl, rfl⟩ rfl, honly, hme⟩
/-- With the host's answer the bundle commits, and the old value lands. -/
theorem atomic_lands {old : Nat} (hd : dests.length ≤ 2) (h : s.me.hostAt = .done old) :
    ∃ u, exec i s = .next u ∧ CoreOnly s u ∧ u.me.hostAt = .none ∧ u.me.loads = s.me.loads ∧ u.me.fly = s.me.age.fly ∧
      u.me.regs = ((dests.zip [old % 2 ^ 64, old / 2 ^ 64 % 2 ^ 64]).foldl (fun c p => c.write p.1 p.2 none) s.me.age).regs := by
  have hs : semOf i s = onCore (fun c => c.hostResult dests old) := hs.trans (by simp only [atomic, h])
  have ha := asked_lSlot hc hr
  obtain ⟨t, ht, hcom, hregs, hfly⟩ := onCore_completes (g := fun c => { c with hostAt := .none }) (fl := hostFlies dests old) (exec_lSlot hc) ha.ready
    ha.free ha.legal hs (Core.hostResult_eq _ hd old) ⟨rfl, rfl, rfl, rfl, rfl⟩
  have hme : (s.updMe (fun c => { c with hostAt := .none })).me = { s.me with hostAt := .none } := s.updMe_me _
  refine ⟨t, ht, ⟨hcom.rest, fun k hk => (hcom.others k hk).trans (s.updMe_core_of_ne _ hk)⟩, ?_, ?_, ?_, ?_⟩
  · rw [hcom.core, hme]
  · rw [hcom.core, hme]
  · rw [hfly, hostFlies_landed, List.append_nil]
  · rw [hregs, hostFlies_land]
end

/-- Settles O38: the slot faults, leaves for its slice, asks, stalls, or lands the host's answer, as the state of its host operation says. -/
theorem atomics : Obligations.Atomics := by
  intro s gd t b d opc sz r c x part m n w pair runs
  have of {i : Instr} {k opc cmp : Nat} {dests : List Dest} (hc : i.cls = some .l) (hd : dests.length ≤ 2)
      (hs : semOf i s = atomic s (s.me.ea b d none k) k opc (w k r) cmp dests) : runs i k opc cmp dests := by
    intro hr a
    refine ⟨fun h ha => ?unaligned, fun h ha hx hk => atomic_leaves hc hs hr h ha hx hk, fun h ha hx hk => ⟨fun hat => ?without, atomic_asks hc hs hr h ha hx hk⟩,
      fun _ _ _ _ _ h => atomic_stalls hc hs hr h, fun _ h => atomic_lands hc hs hr hd h, fun h => ?failed⟩
    case unaligned =>
      exact traps_lSlot hc (hs.trans ((atomic_of_idle h).trans (State.accessing_of_error (State.access_of_unaligned ha) _))) hr
    case without => exact traps_lSlot hc (hs.trans ((atomic_of_host h ha hx hk).trans (if_pos (by rw [hat]; rfl)))) hr
    case failed => exact traps_lSlot hc (hs.trans (by simp only [atomic, h]; rfl)) hr
  have harg (k q : Nat) : amoArg s.me q k = w k q := if_congr beq_iff_eq rfl rfl
  have hpair (k : Nat) : amoDests s.me t k = if k = 16 then [s.me.dg t, s.me.dg (t + 1)] else [s.me.dg t] := if_congr beq_iff_eq rfl rfl
  have hm : (if sz == 1 then 8 else 4) = m := if_congr beq_iff_eq rfl rfl
  have hm16 : m ≠ 16 := by simp only [m]; split_ifs <;> decide
  constructor
  · refine of rfl (by split_ifs <;> simp) ?_
    have hdests : (if t == 0 then [] else amoDests s.me t m) = if t = 0 then [] else [s.me.dg t] := by
      rw [hpair, if_neg hm16]
      exact if_congr beq_iff_eq rfl rfl
    rw [← hdests, ← harg, ← hm]
    rfl
  · refine of rfl (by simp only [pair]; split_ifs <;> simp) ?_
    have hdests : amoDests s.me t n = pair := hpair n
    rw [← hdests, ← harg, ← harg]
    rfl

end Sys2Proof.Machine
end

section
/-! SUPPORT. Fabric requests (R263 to R265, R281, R395): what a request finds at its target, what an answer, a refusal or a failure does with the
command that waits for it, and the frames that bring requests. -/

namespace Sys2Proof.Machine

/-! ## At the target (R263, R264) -/

/-- A request of the same requester to the same eight bytes. -/
def Msg.isReqAt (c : Option (Nat × Nat)) (dev off : Nat) : Msg → Bool
  | .fabReq c' d _ o _ => c' == c && d == dev && o / 8 == off / 8
  | _ => false
@[simp] theorem State.servedFab_uncounted (s : State) (c : Option (Nat × Nat)) (dev part off : Nat) :
    (s.servedFab c dev part off).uncounted = s.uncounted := by
  cases c with
  | none => exact (State.charge_uncounted ..).trans (s.served_uncounted ..)
  | some p => exact (State.lookedUp_uncounted ..).trans (s.countFloor_uncounted ..)

section
variable {s : State} {n dev kind off v : Nat} {c : Option (Nat × Nat)}

/-- Message n is a request, and the first of its requester's to its eight bytes. -/
def State.requestAt (s : State) (n : Nat) (c : Option (Nat × Nat)) (dev kind off v : Nat) : Prop :=
  s.msg n = some (.fabReq c dev kind off v) ∧ ∀ m ∈ s.msgs.take n, ∀ k o x, m = .fabReq c dev k o x → o / 8 ≠ off / 8
/-- The state in which a request of the kind is applied: its line is closed, and its access served for the partition that maps it. -/
def State.reqServed (s : State) (n : Nat) (c : Option (Nat × Nat)) (dev kind off : Nat) : State :=
  ((s.dropMsg n).closeLine off).servedFab c dev (((s.dropMsg n).mapper off (fabricAcc kind)).getD 0) off
theorem State.reqServed_rdMem (s : State) (n : Nat) (c : Option (Nat × Nat)) (dev kind off pa m : Nat) :
    (s.reqServed n c dev kind off).rdMem pa m = s.rdMem pa m :=
  State.rdMem_of_uncounted (s := s.dropMsg n) ((State.servedFab_uncounted ..).trans (State.closeLine_uncounted ..)) pa m

theorem State.before_of_requestAt (h : s.requestAt n c dev kind off v) {p : Msg → Bool} (hp : ∀ m : Msg, p m = m.isReqAt c dev off) :
    s.before n p = false :=
  List.any_eq_false.mpr fun m hm hpm => by
    rw [hp m] at hpm
    cases m with
    | fabReq c' d k o x =>
      simp only [Msg.isReqAt, Bool.and_eq_true, beq_iff_eq] at hpm
      obtain ⟨⟨rfl, rfl⟩, ho⟩ := hpm
      exact h.2 _ hm k o x rfl ho
    | _ => cases hpm

theorem fabricAtTarget_of_refused (h : s.requestAt n c dev kind off v)
    (hf : ¬ (paKind off = .localHbm ∧ s.mapped off (fabricAcc kind) = true)) :
    fabricAtTarget n s = (s.dropMsg n).fabAnswer c dev 0 false := by
  have hrefused : (paKind off != .localHbm || !s.mapped off (fabricAcc kind)) = true := by
    rw [not_and_or] at hf
    simpa using hf
  simp only [fabricAtTarget, h.1, hrefused, if_true]
  rw [State.before_of_requestAt h]
  · rfl
  · intro m
    cases m <;> rfl

/-- What a request that is not refused does at its target, where its access has been served and has left t. -/
def State.reqApplied (s t : State) (n : Nat) (c : Option (Nat × Nat)) (dev kind off v : Nat) : State :=
  match kind with
  | 0 => t.fabAnswer c dev (t.rdMem off 8) true
  | 1 => (t.wrMem off 8 v).fabAnswer c dev 0 true
  | 2 => (t.wrMem off 8 (t.rdMem off 8 + v)).fabAnswer c dev (t.rdMem off 8) true
  | 3 => t.fabDec c dev off
  | 4 => (s.dropMsg n).fabAnswer c dev 0 true
  | 5 => (t.wrMem off 8 v).fabAnswer c dev 0 true
  | _ => t.fabDec c dev off
theorem fabricAtTarget_of_mapped (h : s.requestAt n c dev kind off v) (hf : paKind off = .localHbm ∧ s.mapped off (fabricAcc kind) = true) :
    fabricAtTarget n s = s.reqApplied (s.reqServed n c dev kind off) n c dev kind off v := by
  have hfits : (paKind off != .localHbm || !s.mapped off (fabricAcc kind)) = false := by simp [hf]
  simp only [fabricAtTarget, h.1, hfits, Bool.false_eq_true, if_false]
  rw [State.before_of_requestAt h]
  · rfl
  · intro m
    cases m <;> rfl
end

/-! ## The end of a command that nothing waits for (R249, R250) -/

/-- The core without command x, whose token says how it ended. -/
def Core.ended (c : Core) (x : Cmd) : Core :=
  ({ c with cmds := passOn x.id x.fail (c.cmds.filter (fun y => y.id != x.id)) } : Core).setTok x.tp ((c.tok x.tp).after x.id x.fail)
theorem Core.ended_tok (c : Core) (x : Cmd) : (c.ended x).tok x.tp = (c.tok x.tp).after x.id x.fail := by
  rw [Core.ended, Core.setTok_tok, if_pos rfl]

@[simp] theorem State.refDown_cores (s : State) (cl : Nat) (t : Tile) : (s.refDown cl t).cores = s.cores := by
  unfold State.refDown
  split <;> rfl

section
variable {s : State} {k : Nat} {x : Cmd}

theorem State.endCmd_core (hx : (s.core k).cmd x.id = some x) (hs : x.save = none) (hr : (s.core k).run ≠ .aborting) :
    (s.endCmd k x.id 0).core k = (s.core k).ended x := by
  have hdown : (x.tiles.foldl (fun s t => s.refDown (clusterOf k) t) s).core k = s.core k :=
    congrArg (mget · k Core.reset) (foldl_cores (fun t _ => t.refDown_cores _ _) x.tiles s)
  have hrun : ((s.core k).run == Run.aborting) = false := beq_eq_false_iff_ne.mpr hr
  simp only [State.endCmd, hx, hs, State.updCore_core_self, hdown, Core.setTok_run, hrun, Core.orFp_zero, Bool.false_eq_true, if_false]
  rfl
/-- It passes no failure on. -/
theorem passOn_clear {l : List Cmd} {id : Nat} (h : ∀ y ∈ l, id ∉ y.deps ∧ y.fail = none) (f : Option CmdFault) : ∀ y ∈ passOn id f l, y.fail = none := by
  intro y hy
  obtain ⟨z, hz, rfl⟩ := List.mem_map.mp hy
  obtain ⟨hdep, hfail⟩ := h z hz
  rw [if_neg (by simpa using hdep)]
  exact hfail
theorem State.finish_core (hx : (s.core k).cmd x.id = some x) (hs : x.save = none) (hr : (s.core k).run ≠ .aborting)
    (hl : ∀ y ∈ (s.core k).cmds, y.id ≠ x.id → x.id ∉ y.deps ∧ y.fail = none) : (s.finish k x.id 0).core k = (s.core k).ended x := by
  have hend := State.endCmd_core hx hs hr
  have hclear : ∀ y ∈ ((s.endCmd k x.id 0).core k).cmds, y.fail = none := by
    rw [hend]
    exact passOn_clear (fun y hy => hl y (List.mem_filter.mp hy).1 (bne_iff_ne.mp (List.mem_filter.mp hy).2)) x.fail
  rw [State.finish, State.cascade_of_clear hclear, hend]
end

/-- A running command that has failed completes with its failure. -/
theorem complete_of_failed {s : State} {k n : Nat} {x : Cmd} (hn : (s.core k).cmds[n]? = some x) (hst : x.st = .running)
    (hd : (x.sem k).done s = true) (hf : x.fail.isSome = true) : complete k n s = s.finish k x.id 0 := by
  have hruns : (x.st != .running || !(x.sem k).done s) = false := by rw [hst, hd]; rfl
  simp only [complete, drop_of_getElem? hn, hruns, hf, Bool.false_eq_true, if_false, if_true]
/-- One that has not completes with what its effect leaves. -/
theorem complete_of_effect {s u : State} {k n fl : Nat} {x : Cmd} (hn : (s.core k).cmds[n]? = some x) (hst : x.st = .running)
    (hd : (x.sem k).done s = true) (hf : x.fail = none) (hr : (s.core k).run ≠ .aborting)
    (he : (x.sem k).effect (s.countCore k x.events) = (u, fl, none)) : complete k n s = u.finish k x.id fl := by
  have hruns : (x.st != .running || !(x.sem k).done s) = false := by rw [hst, hd]; rfl
  have hrun : ((s.core k).run == Run.aborting) = false := beq_eq_false_iff_ne.mpr hr
  simp only [complete, drop_of_getElem? hn, hruns, hf, hrun, he, Option.isSome_none, Bool.false_eq_true, if_false]

/-! ## The command that waits for another device (R265) -/

/-- Numbers tell the commands of a list apart. -/
theorem Core.cmd_of_getElem {c : Core} {i : Nat} {x : Cmd} (hi : c.cmds[i]? = some x) (hd : c.cmds.Pairwise (fun a b => a.id ≠ b.id)) :
    c.cmd x.id = some x := by
  have hx : x ∈ c.cmds := List.mem_of_getElem? hi
  have hinj := List.inj_on_of_nodup_map (f := Cmd.id) (List.pairwise_map.mpr hd)
  cases hf : c.cmd x.id with
  | none => exact absurd (beq_self_eq_true x.id) (List.find?_eq_none.mp hf x hx)
  | some y => exact congrArg some (hinj (List.mem_of_find?_eq_some hf) hx (beq_iff_eq.mp (List.find?_some (p := fun z : Cmd => z.id == x.id) hf)))
theorem Core.updCmd_cmd (c : Core) {id : Nat} {g : Cmd → Cmd} (hg : ∀ y, (g y).id = y.id) : (c.updCmd id g).cmd id = (c.cmd id).map g := by
  have hp : (fun y : Cmd => y.id == id) ∘ (fun y => if y.id == id then g y else y) = fun y => y.id == id := by
    funext y
    dsimp only [Function.comp_apply]
    split_ifs
    · rw [hg]
    · rfl
  rw [Core.cmd, Core.updCmd, List.find?_map, hp]
  cases hf : c.cmds.find? (fun y => y.id == id) with
  | none => rw [Core.cmd, hf]; rfl
  | some y =>
    rw [Core.cmd, hf]
    exact congrArg some (if_pos (List.find?_some hf))

/-- Command i of core k is an RLD for g[d] that waits for another device; it alone has its number, is the latest producer of its token, and nothing
waits for it. -/
structure RldWaits (s : State) (k i d : Nat) (x : Cmd) : Prop where
  place : (s.core k).cmds[i]? = some x
  ins : ∃ gd e ga, x.ins = .rld gd e d ga
  running : x.st = .running
  unanswered : x.ready = false
  unfailed : x.fail = none
  unsaved : x.save = none
  away : fabricDev (nth x.args 0 0) ≠ s.dev.fabid
  run : (s.core k).run = .task
  numbers : (s.core k).cmds.Pairwise (fun a b => a.id ≠ b.id)
  latest : ((s.core k).tok x.tp).latest = some x.id
  alone : ∀ y ∈ (s.core k).cmds, x.id ∉ y.deps ∧ y.fail = none

theorem fabricSem_of_rld {x y : Cmd} {k d : Nat} (hi : ∃ gd e ga, x.ins = .rld gd e d ga) (hy : y.ins = x.ins) : y.sem k = fabricSem 0 k y (some d) := by
  obtain ⟨gd, e, ga, hi⟩ := hi
  rw [Cmd.sem, hy, hi]
  rfl

theorem fabricSem_done {s : State} {k kind : Nat} {x : Cmd} {d : Option Nat} (hc : (s.core k).cmd x.id = some x) (hr : x.ready = true) :
    (fabricSem kind k x d).done s = true := by
  simp only [fabricSem, hc, hr]

/-- An arrival changes registers and results in flight alone. -/
theorem Core.arrive_eq (c : Core) (d : Dest) (v : Nat) : c.arrive d v = { c with regs := (c.arrive d v).regs, fly := (c.arrive d v).fly } := by
  unfold Core.arrive
  split_ifs
  · rfl
  · rw [Core.write_eq]
/-- The queue has no part in it. -/
theorem Core.updCmd_arrive (c : Core) (id : Nat) (g : Cmd → Cmd) (d : Dest) (v : Nat) :
    ((c.updCmd id g).arrive d v).regs = (c.arrive d v).regs ∧ ((c.updCmd id g).arrive d v).fly = (c.arrive d v).fly := by
  have hs : (c.updCmd id g).stalled = c.stalled := rfl
  unfold Core.arrive
  rw [hs]
  split_ifs
  · exact ⟨rfl, rfl⟩
  · exact ⟨Core.write_regs_of (c := c.updCmd id g) (d := c) rfl d v none, by rw [Core.write_fly, Core.write_fly]; rfl⟩

/-- A value comes back to a core: an aborting task's is dropped (R294). -/
def Core.receive (c : Core) (d : Dest) (v : Nat) : Core := if c.run == .aborting then c else c.arrive d v

/-- The bytes that a reply brings are charged as they pass (R377). -/
def State.replied (s : State) (k : Nat) (x : Cmd) : State :=
  s.charge x.part (s.portBucket (fabricDev (nth x.args 0 0)) k) (if fabricKind x.ins == some 0 || fabricKind x.ins == some 2 then 8 else 0)
theorem State.replied_core (s : State) (k : Nat) (x : Cmd) : (s.replied k x).core k = s.core k := State.core_of_uncounted (s.charge_uncounted ..) k
theorem pathFailure_of_core {k : Nat} (hk : k < 768) (i : Nat) (s : State) : pathFailure k i s = fabricFails k i s := if_pos (Nat.blt_eq.mpr hk)

namespace RldWaits
section
variable {s : State} {k i d : Nat} {x : Cmd} (h : RldWaits s k i d x)
include h

theorem awaited : s.awaited k i = some x := by
  obtain ⟨gd, e, ga, hi⟩ := h.ins
  have hc : (x.st == .running && !x.ready && (fabricKind x.ins).isSome && fabricDev (nth x.args 0 0) != s.dev.fabid) = true := by
    simp [h.running, h.unanswered, hi, fabricKind, h.away]
  simp only [State.awaited, drop_of_getElem? h.place]
  exact if_pos hc

theorem not_aborting : (s.core k).run ≠ .aborting := by
  rw [h.run]
  decide

/-- The command changed by its answer: it stands where it stood, and nothing waits for it. -/
theorem answered {g : Cmd → Cmd} (hg : ∀ y, (g y).id = y.id) : ((s.core k).updCmd x.id g).cmds[i]? = some (g x) ∧
    ((s.core k).updCmd x.id g).cmd (g x).id = some (g x) ∧
    ∀ y ∈ ((s.core k).updCmd x.id g).cmds, y.id ≠ (g x).id → (g x).id ∉ y.deps ∧ y.fail = none := by
  rw [hg]
  refine ⟨?_, ?_, ?_⟩
  · rw [Core.updCmd, List.getElem?_map, h.place]
    exact congrArg some (if_pos (beq_self_eq_true x.id))
  · rw [Core.updCmd_cmd _ hg, Core.cmd_of_getElem h.place h.numbers]
    rfl
  · intro y hy hne
    obtain ⟨z, hz, rfl⟩ := List.mem_map.mp hy
    by_cases hid : (z.id == x.id) = true
    · rw [if_pos hid, hg] at hne
      exact absurd (beq_iff_eq.mp hid) hne
    · rw [if_neg hid]
      exact h.alone z hz

/-- An answered command may complete: it runs, and its answer is there. -/
theorem answered_done {u : State} {g : Cmd → Cmd} (hu : u.core k = (s.core k).updCmd x.id g) (hg : ∀ y, (g y).id = y.id)
    (hins : (g x).ins = x.ins) (hready : (g x).ready = true) : (u.core k).cmds[i]? = some (g x) ∧ ((g x).sem k).done u = true := by
  obtain ⟨hplace, hcmd, -⟩ := h.answered hg
  rw [← hu] at hplace hcmd
  rw [fabricSem_of_rld h.ins hins]
  exact ⟨hplace, fabricSem_done hcmd hready⟩

/-- The end of the answered command, on a core w that differs by no more than what has arrived: its token says how it ended. -/
theorem finished {w : State} {g : Cmd → Cmd} (hg : ∀ y, (g y).id = y.id) (htp : (g x).tp = x.tp) (hs : (g x).save = none)
    (hw : w.core k = { (s.core k).updCmd x.id g with regs := (w.core k).regs, fly := (w.core k).fly }) :
    let t := w.finish k (g x).id 0
    (t.core k).tok x.tp = ((s.core k).tok x.tp).after x.id (g x).fail ∧ (t.core k).regs = (w.core k).regs ∧ (t.core k).fly = (w.core k).fly := by
  obtain ⟨-, hcmd, hrest⟩ := h.answered hg
  have hend : (w.finish k (g x).id 0).core k = (w.core k).ended (g x) :=
    State.finish_core (by rw [hw]; exact hcmd) hs (by rw [hw]; exact h.not_aborting) (by rw [hw]; exact hrest)
  have hkept : (w.core k).tok x.tp = (s.core k).tok x.tp := by rw [hw]; rfl
  have htok := (w.core k).ended_tok (g x)
  rw [htp, hg, hkept] at htok
  intro t
  rw [show t.core k = (w.core k).ended (g x) from hend]
  exact ⟨htok, rfl, rfl⟩

/-- A command answered with a fault completes: its token is ERROR, and no register has changed. -/
theorem completes_failed {u : State} (hu : u.core k = s.core k) (f : FaultInfo) :
    let t := complete k i (u.answerFault k x.id f)
    ((t.core k).tok x.tp).st = .error ∧ ((t.core k).tok x.tp).flt = some ⟨f, x.tp, false⟩ ∧ (t.core k).regs = (s.core k).regs := by
  obtain ⟨g, hg, hgx, hgs⟩ : ∃ g : Cmd → Cmd, (∀ y, (g y).id = y.id) ∧ g x = { x with fail := some ⟨f, x.tp, false⟩, ready := true } ∧
      u.answerFault k x.id f = u.updCmd k x.id g :=
    ⟨fun y => { y.failWith f with ready := true }, fun y => by simp only [Cmd.failWith]; split_ifs <;> rfl,
      by simp only [Cmd.failWith, h.unfailed]; rfl, rfl⟩
  have hfail : (g x).fail = some ⟨f, x.tp, false⟩ := by rw [hgx]
  have hcore : (u.updCmd k x.id g).core k = (s.core k).updCmd x.id g := by rw [State.updCmd_core_self, hu]
  obtain ⟨hplace, hdone⟩ := h.answered_done hcore hg (by rw [hgx]) (by rw [hgx])
  obtain ⟨htok, hregs, -⟩ := h.finished hg (by rw [hgx]) (by rw [hgx]; exact h.unsaved) (w := u.updCmd k x.id g) (by rw [hcore])
  rw [hfail, Tok.after, h.latest, if_pos (beq_self_eq_true _)] at htok
  rw [hgs, complete_of_failed hplace (by rw [hgx]; exact h.running) hdone (by rw [hfail]; rfl)]
  dsimp only
  rw [htok, hregs, hcore]
  exact ⟨rfl, rfl, rfl⟩

/-- A command answered with a value completes: its destination receives it, and its token is DONE. -/
theorem completes_answered {u : State} (hu : u.core k = s.core k) (v : Nat) :
    let t := complete k i (u.updCmd k x.id (fun y => { y with res := [v], ready := true }))
    (t.core k).regs = ((s.core k).arrive (.g d x.hb) v).regs ∧ (t.core k).fly = ((s.core k).arrive (.g d x.hb) v).fly ∧
      ((t.core k).tok x.tp).st = .done := by
  obtain ⟨g, hgx, hgs⟩ : ∃ g : Cmd → Cmd, g x = { x with res := [v], ready := true } ∧ g = fun y => { y with res := [v], ready := true } := ⟨_, rfl, rfl⟩
  have hg (y : Cmd) : (g y).id = y.id := by rw [hgs]
  have hfail : (g x).fail = none := by rw [hgx]; exact h.unfailed
  have hcore : (u.updCmd k x.id g).core k = (s.core k).updCmd x.id g := by rw [State.updCmd_core_self, hu]
  obtain ⟨hplace, hdone⟩ := h.answered_done hcore hg (by rw [hgx]) (by rw [hgx])
  obtain ⟨w, hw⟩ : ∃ w, w = ((u.updCmd k x.id g).countCore k (g x).events).updCore k (fun c => c.receive (.g d x.hb) v) := ⟨_, rfl⟩
  have heffect : ((g x).sem k).effect ((u.updCmd k x.id g).countCore k (g x).events) = (w, 0, none) := by
    rw [fabricSem_of_rld h.ins (by rw [hgx]), hw, hgx]
    rfl
  have hwcore : w.core k = ((s.core k).updCmd x.id g).arrive (.g d x.hb) v := by
    rw [hw, State.updCore_core_self, State.countCore_core, hcore]
    exact if_neg (mt beq_iff_eq.mp h.not_aborting)
  obtain ⟨htok, hregs, hfly⟩ := h.finished hg (by rw [hgx]) (by rw [hgx]; exact h.unsaved) (w := w) (by rw [hwcore]; exact Core.arrive_eq ..)
  obtain ⟨hvalue, hvfly⟩ := (s.core k).updCmd_arrive x.id g (.g d x.hb) v
  rw [hfail, Tok.after, h.latest, if_pos (beq_self_eq_true _)] at htok
  rw [← hgs, complete_of_effect hplace (by rw [hgx]; exact h.running) hdone hfail (by rw [hcore]; exact h.not_aborting) heffect]
  dsimp only
  rw [htok, hregs, hfly, hwcore, hvalue, hvfly]
  exact ⟨rfl, rfl, rfl⟩

/-! The events that answer it. -/

variable (hk : k < 768)
include hk

theorem fabricReply_of_value (v : Nat) :
    fabricReply k i 1 v s = complete k i ((s.replied k x).updCmd k x.id (fun y => { y with res := [v], ready := true })) := by
  rw [fabricReply, if_neg (mt Nat.ble_eq.mp (Nat.not_le.mpr hk)), h.awaited]
  rfl
theorem fabricReply_of_refusal (v : Nat) : fabricReply k i 0 v s = complete k i ((s.replied k x).answerFault k x.id ⟨7, 6, 0⟩) := by
  simp only [fabricReply, h.awaited]
  exact if_neg (mt Nat.ble_eq.mp (Nat.not_le.mpr hk))
theorem fabricFails_of_core : fabricFails k i s = complete k i (s.answerFault k x.id ⟨0x12, 0, 0⟩) := by
  rw [fabricFails, if_neg (mt Nat.ble_eq.mp (Nat.not_le.mpr hk)), h.awaited]
  rfl
theorem fabricSent_eq : s.fabricSent k i = some x.sentAt := by
  rw [State.fabricSent, if_neg (mt Nat.ble_eq.mp (Nat.not_le.mpr hk)), h.awaited]
  rfl
theorem fabricTimeout_of_late (ht : x.sentAt + 20000 ≤ s.dev.ptime.toNat) : fabricTimeout k i s = fabricFails k i s := by
  simp only [fabricTimeout, h.fabricSent_eq hk]
  exact if_pos (Nat.ble_eq.mpr ht)
theorem fabricTimeout_of_early (ht : s.dev.ptime.toNat < x.sentAt + 20000) : fabricTimeout k i s = s := by
  simp only [fabricTimeout, h.fabricSent_eq hk]
  exact if_neg (mt Nat.ble_eq.mp (Nat.not_le.mpr ht))
end
end RldWaits

/-! ## Frames of the fabric (R395) -/

theorem frameReceive_of_request (s : State) (src off v : Nat) {kind : Nat} (h : kind < 7) :
    frameReceive 1 src kind off v s = s.send (.fabReq none src kind (off % 2 ^ 39) v) := by
  unfold frameReceive
  rw [if_neg (by decide)]
  split
  · omega
  · omega
  · omega
  · exact if_pos (Nat.blt_eq.mpr h)

/-- Settles O53: requests by what their target does with them, answers and failures by how the command that waits ends, frames by their kind. -/
theorem fabricEvents : Obligations.FabricEvents := by
  intro s n dev off v c at_ fits old u
  have hold (kind : Nat) : (u kind).rdMem off 8 = old := s.reqServed_rdMem n c dev kind off off 8
  refine ⟨fun kind h hf => congrArg Host.Outcome.next (fabricAtTarget_of_refused h hf), fun h hf => ?read, fun h hf => ?store, fun h hf => ?add,
    fun k i x gd e d ga hi hins hst hready hfail hsave haway hk hrun hids hlatest halone => ?answers, fun src kind hkind => ?request,
    fun src hl => ?lease, fun crc src kind hcrc => ?bad⟩
  case read => rw [← hold 0]; exact congrArg Host.Outcome.next (fabricAtTarget_of_mapped h hf)
  case store => exact congrArg Host.Outcome.next (fabricAtTarget_of_mapped h hf)
  case add => rw [← hold 2]; exact congrArg Host.Outcome.next (fabricAtTarget_of_mapped h hf)
  case answers =>
    intro fails
    have h : RldWaits s k i d x := ⟨hi, ⟨gd, e, ga, hins⟩, hst, hready, hfail, hsave, haway, hrun, hids, hlatest, halone⟩
    have hfails : ∀ {e : Instr}, exec e s = .next (fabricFails k i s) → Happens e s (fails ⟨0x12, 0, 0⟩) := fun he =>
      ⟨_, he.trans (congrArg Host.Outcome.next (h.fabricFails_of_core hk)), h.completes_failed rfl _⟩
    exact ⟨⟨_, congrArg Host.Outcome.next (h.fabricReply_of_value hk v), h.completes_answered (s.replied_core k x) v⟩,
      ⟨_, congrArg Host.Outcome.next (h.fabricReply_of_refusal hk v), h.completes_failed (s.replied_core k x) _⟩,
      fun hlate => hfails (congrArg Host.Outcome.next (h.fabricTimeout_of_late hk hlate)),
      fun hearly => congrArg Host.Outcome.next (h.fabricTimeout_of_early hk hearly),
      hfails (congrArg Host.Outcome.next (pathFailure_of_core hk i s))⟩
  case request => exact congrArg Host.Outcome.next (frameReceive_of_request s src off v hkind)
  case lease => exact congrArg Host.Outcome.next (if_pos hl)
  case bad => exact congrArg Host.Outcome.next (if_pos (bne_iff_ne.mpr hcrc))

end Sys2Proof.Machine
end

section
/-! SUPPORT. Decrements, releases, and the way of an entry through overflow ring and ready queue (R278, R281, R284, R286, R287). -/

namespace Sys2Proof.Machine

/-! ## Tables -/

/-- A table whose keys stay reads at each key what its value there became. -/
theorem mget_map_of_keys {α : Type} {f : Nat × α → Nat × α} {g : α → α} {k : Nat} {d : α} (hf : ∀ e, (f e).1 = e.1)
    (hk : ∀ v, (f (k, v)).2 = g v) (hd : g d = d) (m : SMap α) : mget (m.map f) k d = g (mget m k d) := by
  induction m with
  | nil => exact hd.symm
  | cons e t ih =>
    have hcons : mget ((e :: t).map f) k d = if (f e).1 == k then (f e).2 else mget (t.map f) k d := rfl
    rw [hcons, hf, ih, mget]
    by_cases he : e.1 = k
    · subst he
      simp [hk]
    · simp [he]
/-- A table built key by key reads at each of its keys what was written there. -/
theorem mget_foldl_mset {α : Type} [DecidableEq α] (c : Nat → α) (d : α) {k : Nat} {l : List Nat} (h : k ∈ l) (m : SMap α) :
    mget (l.foldl (fun m p => mset m p (c p) d) m) k d = c k := by
  induction l using List.reverseRecOn with
  | nil => cases h
  | append_singleton l p ih =>
    rw [List.foldl_append, List.foldl_cons, List.foldl_nil]
    by_cases hp : k = p
    · rw [hp, mget_mset_self]
    · rw [mget_mset_of_ne hp]
      exact ih ((List.mem_append.mp h).resolve_right (fun hk => hp (List.mem_singleton.mp hk)))

/-! ## The rings, and the memory that holds them (R286) -/

theorem State.setRings_eq (s : State) (r : SMap (List RdqE)) : s.setRings r = { s with rings := r, mem := (s.setRings r).mem } := by
  unfold State.setRings
  refine List.foldlRecOn _ _ (motive := fun u : State => u = { s with rings := r, mem := u.mem }) rfl (fun u hu x _ => ?_)
  split
  · exact hu
  · rw [hu]; rfl
@[simp] theorem State.setRings_rings (s : State) (r : SMap (List RdqE)) : (s.setRings r).rings = r := by rw [State.setRings_eq]
@[simp] theorem State.setRings_msgs (s : State) (r : SMap (List RdqE)) : (s.setRings r).msgs = s.msgs := by rw [State.setRings_eq]
@[simp] theorem State.setRings_clusters (s : State) (r : SMap (List RdqE)) : (s.setRings r).clusters = s.clusters := by rw [State.setRings_eq]
theorem State.ring_of_rings {s : State} {r : SMap (List RdqE)} (h : s.rings = r) (key : Nat) : s.ring key = mget r key [] := by rw [State.ring, h]
theorem State.cluster_of_clusters {s t : State} (h : t.clusters = s.clusters) (cl : Nat) : t.cluster cl = s.cluster cl := by
  rw [State.cluster, h]; rfl
/-- A ring's key names its cluster. -/
theorem ringKey_div {part prio : Nat} (hp : part < 64) (hr : prio < 4) (cl : Nat) : ringKey cl part prio / 256 = cl := by
  unfold ringKey; omega

/-! ## Decrements (R278, R281, R284) -/

section
variable {s : State} {n pa ctr part : Nat} {src : DecSrc}

theorem decrement_of_later {rec : Bool} {target : Nat} (hm : s.msg n = some (.decr rec target part src)) (hb : s.decBefore n src rec target = true) :
    decrement n s = s := by
  unfold decrement; rw [hm]; exact if_pos hb
theorem decrement_of_record (hm : s.msg n = some (.decr true pa part src)) (hb : s.decBefore n src true pa = false) :
    decrement n s = (s.dropMsg n).decRec pa src := by
  unfold decrement; rw [hm]; simp [hb]
theorem decrement_of_counter (hm : s.msg n = some (.decr false ctr part src)) (hb : s.decBefore n src false ctr = false) :
    decrement n s = (s.dropMsg n).decCtr ctr src := by
  unfold decrement; rw [hm]; simp [hb]

theorem State.decRec_of_zero (h : (s.trec pa).cnt = 0) : s.decRec pa src = s.decAnswer src (some ⟨9, 5, mget s.gvas pa pa⟩) := by
  simp [State.decRec, h, fcIndex]
/-- A record whose counter does not reach 0, or that does not wait for it, is only counted down. -/
theorem State.decRec_of_lowered (h : 2 ≤ (s.trec pa).cnt ∨ (s.trec pa).cnt = 1 ∧ (s.trec pa).state ≠ 1) :
    s.decRec pa src = (s.wrMem (pa + 0x18) 4 ((s.trec pa).cnt - 1)).decAnswer src none := by
  have h0 : (s.trec pa).cnt ≠ 0 := by omega
  have h1 : ((s.trec pa).cnt == 1 && (s.trec pa).state == recWaiting) = false := by
    simp only [recWaiting, Bool.and_eq_false_iff, beq_eq_false_iff_ne]; omega
  simp only [State.decRec, beq_iff_eq, h0, if_false, h1, Bool.false_eq_true]
theorem State.decRec_of_last (h : (s.trec pa).cnt = 1) (hst : (s.trec pa).state = 1) :
    s.decRec pa src = ((s.wrMem (pa + 0x18) 4 0).placeRec pa).decAnswer src none := by
  simp [State.decRec, h, hst, recWaiting]

theorem State.decCtr_of_zero (h : (s.bc ctr).value = 0) : s.decCtr ctr src = s.decAnswer src (some ⟨9, 5, 0⟩) := by
  simp [State.decCtr, h, fcIndex]
theorem State.decCtr_of_lowered (h : (s.bc ctr).value ≠ 0) (h1 : (s.bc ctr).value ≠ 1) :
    s.decCtr ctr src = { s with bcs := mput s.bcs ctr { s.bc ctr with value := (s.bc ctr).value - 1 } }.decAnswer src none := by
  simp only [State.decCtr, beq_iff_eq, h, h1, if_false]
theorem State.decCtr_of_last (h : (s.bc ctr).value = 1) :
    s.decCtr ctr src = (State.release { s with bcs := mput s.bcs ctr { s.bc ctr with value := 0 } } ctr).decAnswer src none := by
  simp [State.decCtr, h]

end

/-! ## A release (R26, R284) -/

/-- An entry as a release of the counter and epoch at a time leaves it. -/
def RdqE.released (e : RdqE) (ctr ep clock : Nat) : RdqE :=
  if e.held ∧ e.bcn = ctr ∧ e.epoch = ep then { e with held := false, stamp := clock } else e
theorem RdqE.released_eq (e : RdqE) (ctr ep clock : Nat) :
    (if e.held && e.bcn == ctr && e.epoch == ep then { e with held := false, stamp := clock } else e) = e.released ctr ep clock := by
  simp only [RdqE.released, Bool.and_eq_true, beq_iff_eq, and_assoc]
/-- A message of a placement that waits holds an entry, which a release in its cluster reaches. -/
def Msg.released (m : Msg) (cl ctr ep clock : Nat) : Msg :=
  match m with
  | .ringWait c e => .ringWait c (if c = cl then e.released ctr ep clock else e)
  | m => m
/-- The rings as a release in a cluster leaves them. -/
def releasedRings (r : SMap (List RdqE)) (cl ctr ep clock : Nat) : SMap (List RdqE) :=
  r.map (fun x => if x.1 / 256 == cl then (x.1, x.2.map (fun e => e.released ctr ep clock)) else x)
theorem mget_releasedRings_of_cluster (r : SMap (List RdqE)) {cl key : Nat} (h : key / 256 = cl) (ctr ep clock : Nat) :
    mget (releasedRings r cl ctr ep clock) key [] = (mget r key []).map (fun e => e.released ctr ep clock) := by
  refine mget_map_of_keys (fun e => ?_) (fun v => ?_) rfl r
  · split <;> rfl
  · simp [h]
theorem mget_releasedRings_of_ne (r : SMap (List RdqE)) {cl key : Nat} (h : key / 256 ≠ cl) (ctr ep clock : Nat) :
    mget (releasedRings r cl ctr ep clock) key [] = mget r key [] := by
  refine mget_map_of_keys (g := id) (fun e => ?_) (fun v => ?_) rfl r
  · split <;> rfl
  · simp [h]

theorem releaseArrival_eq {s : State} {n cl ctr ep : Nat} (hm : s.msg n = some (.relMsg cl ctr ep)) :
    let u := (s.dropMsg n).updCluster cl (fun c => { c with rdq := c.rdq.map (fun e => e.released ctr ep s.clock) })
    releaseArrival n s = { u.setRings (releasedRings s.rings cl ctr ep s.clock) with
      msgs := (dropNth s.msgs n).map (fun m => m.released cl ctr ep s.clock), clock := s.clock + 1 } := by
  unfold releaseArrival
  rw [hm]
  simp only [RdqE.released_eq]
  have hmsg : (fun m : Msg => match m with
      | .ringWait c e => .ringWait c (if c == cl then e.released ctr ep s.clock else e)
      | m => m) = fun m => m.released cl ctr ep s.clock := by
    funext m
    cases m <;> simp [Msg.released]
  rw [← hmsg]
  rfl

theorem releaseArrival_happens {s : State} {n cl ctr ep : Nat} (hm : s.msg n = some (.relMsg cl ctr ep)) :
    Happens (.releaseArrival n) s (fun t =>
      (t.cluster cl).rdq = (s.cluster cl).rdq.map (fun e => e.released ctr ep s.clock) ∧ (∀ j, j ≠ cl → t.cluster j = s.cluster j) ∧
      (∀ part prio, part < 64 → prio < 4 →
        t.ring (ringKey cl part prio) = (s.ring (ringKey cl part prio)).map (fun e => e.released ctr ep s.clock)) ∧
      (∀ key, key / 256 ≠ cl → t.ring key = s.ring key) ∧
      t.msgs = (dropNth s.msgs n).map (fun m => m.released cl ctr ep s.clock) ∧ t.clock = s.clock + 1) := by
  refine ⟨_, congrArg Host.Outcome.next (releaseArrival_eq hm), ?_, fun j hj => ?_, fun part prio hp hr => ?_, fun key hk => ?_, rfl, rfl⟩
  · refine (congrArg Cluster.rdq (State.cluster_of_clusters (State.setRings_clusters ..) cl)).trans ?_
    rw [State.updCluster_cluster_self]
    rfl
  · refine (State.cluster_of_clusters (State.setRings_clusters ..) j).trans ?_
    rw [State.updCluster_cluster_of_ne _ _ hj]
    rfl
  · exact (State.ring_of_rings (State.setRings_rings ..) _).trans (mget_releasedRings_of_cluster _ (ringKey_div hp hr cl) ..)
  · exact (State.ring_of_rings (State.setRings_rings ..) _).trans (mget_releasedRings_of_ne _ hk ..)

/-! ## Placement: ready queue, overflow ring, or the wait for room (R286) -/

section
variable {s : State} {cl : Nat} {e : RdqE}

/-- The entry may go to its cluster's ready queue at once: that has room, is not gated, and the ring has no earlier one. -/
def State.rdqOpen (s : State) (cl : Nat) (e : RdqE) : Prop :=
  (s.cluster cl).rdq.length < 2048 ∧ s.clState cl ≠ clGated ∧ s.ring (ringKey cl e.part e.prio) = []
theorem State.rdqOpen_iff :
    (Nat.blt (s.cluster cl).rdq.length 2048 && s.clState cl != clGated && (s.ring (ringKey cl e.part e.prio)).isEmpty) = true ↔
    s.rdqOpen cl e := by
  simp only [State.rdqOpen, Bool.and_eq_true, Nat.blt_eq, bne_iff_ne, List.isEmpty_iff, ne_eq, and_assoc]

theorem State.room_of_hold (h : s.clState cl = clHold) : s.room cl e = none := by
  unfold State.room; rw [h]; rfl
theorem State.room_of_open (hc : s.clState cl ≠ clHold) (ho : s.rdqOpen cl e) :
    s.room cl e = some (s.updCluster cl (fun c => { c with rdq := c.rdq ++ [e] })) := by
  unfold State.room
  rw [if_neg (by simpa using hc), if_pos (State.rdqOpen_iff.mpr ho)]
theorem State.room_of_ring (hc : s.clState cl ≠ clHold) (ho : ¬ s.rdqOpen cl e) (hr : s.ringUsed e.part e.prio < (s.part e.part).fld 0x98 4) :
    s.room cl e = some ((s.setRings (mput s.rings (ringKey cl e.part e.prio) (s.ring (ringKey cl e.part e.prio) ++ [e]))).countEv
      (unitCluster cl) 0x29 e.part 1) := by
  unfold State.room
  rw [if_neg (by simpa using hc), if_neg (fun h => ho (State.rdqOpen_iff.mp h)), if_pos (Nat.blt_eq.mpr hr)]
theorem State.room_of_full (hc : s.clState cl ≠ clHold) (ho : ¬ s.rdqOpen cl e) (hr : (s.part e.part).fld 0x98 4 ≤ s.ringUsed e.part e.prio) :
    s.room cl e = none := by
  unfold State.room
  rw [if_neg (by simpa using hc), if_neg (fun h => ho (State.rdqOpen_iff.mp h)), if_neg (fun h => Nat.not_lt.mpr hr (Nat.blt_eq.mp h))]

variable {n : Nat}
theorem overflowPlace_of_later (hm : s.msg n = some (.ringWait cl e)) (hb : s.before n (Msg.waitsFor cl e) = true) : overflowPlace n s = s := by
  unfold overflowPlace; rw [hm]; exact if_pos hb
theorem overflowPlace_of_first (hm : s.msg n = some (.ringWait cl e)) (hb : s.before n (Msg.waitsFor cl e) = false) :
    overflowPlace n s = ((s.dropMsg n).room cl e).getD s := by
  unfold overflowPlace; rw [hm]; simp [hb]
theorem overflowPlace_of_hold (hm : s.msg n = some (.ringWait cl e)) (hc : s.clState cl = clHold) : overflowPlace n s = s := by
  cases hb : s.before n (Msg.waitsFor cl e) with
  | true => exact overflowPlace_of_later hm hb
  | false => rw [overflowPlace_of_first hm hb, State.room_of_hold (s := s.dropMsg n) hc]; rfl
theorem overflowRingPlacement_spills (hm : s.msg n = some (.ringWait cl e)) (hb : s.before n (Msg.waitsFor cl e) = false)
    (hc : s.clState cl ≠ clHold) (ho : ¬ s.rdqOpen cl e) (hr : s.ringUsed e.part e.prio < (s.part e.part).fld 0x98 4) :
    Happens (.overflowRingPlacement n) s (fun t =>
      t.ring (ringKey cl e.part e.prio) = s.ring (ringKey cl e.part e.prio) ++ [e] ∧
      (∀ k, k ≠ ringKey cl e.part e.prio → t.ring k = s.ring k) ∧ t.clusters = s.clusters ∧ t.msgs = dropNth s.msgs n) := by
  have hroom := State.room_of_ring (s := s.dropMsg n) hc ho hr
  refine ⟨_, congrArg Host.Outcome.next ((overflowPlace_of_first hm hb).trans (congrArg (·.getD s) hroom)), ?_, fun k hk => ?_, ?_, ?_⟩
  · exact (State.ring_of_rings (State.setRings_rings ..) _).trans mget_mput_self
  · exact (State.ring_of_rings (State.setRings_rings ..) _).trans (mget_mput_of_ne hk)
  · exact State.setRings_clusters ..
  · exact State.setRings_msgs ..

theorem rdqRefill_happens {part prio : Nat} {l : List RdqE} (hr : s.ring (ringKey cl part prio) = e :: l) (hl : (s.cluster cl).rdq.length < 2048)
    (hc : s.clState cl ≠ clGated) : Happens (.rdqRefill cl part prio) s (fun t =>
      (t.cluster cl).rdq = (s.cluster cl).rdq ++ [e] ∧ t.ring (ringKey cl part prio) = l) := by
  have hroom : (Nat.blt (s.cluster cl).rdq.length 2048 && s.clState cl != clGated) = true := by simp [hl, hc]
  have hx : rdqRefill cl part prio s =
      (s.updCluster cl (fun c => { c with rdq := c.rdq ++ [e] })).setRings (mput s.rings (ringKey cl part prio) l) := by
    unfold rdqRefill
    simp only [hr, hroom, if_true]
  refine ⟨_, congrArg Host.Outcome.next hx, ?_, (State.ring_of_rings (State.setRings_rings ..) _).trans mget_mput_self⟩
  rw [State.cluster_of_clusters (State.setRings_clusters ..), State.updCluster_cluster_self]

end

/-! ## The report of a cluster's load (R287) -/

/-- How many entries of a partition a cluster's ready queue and rings hold. -/
def State.loadOf (s : State) (cl p : Nat) : Nat :=
  ((s.cluster cl).rdq.filter (fun e => e.part == p)).length + ((upFrom 0 4).map (fun r => (s.ring (ringKey cl p r)).length)).foldl (· + ·) 0
theorem State.loadOf_eq (s : State) (cl p : Nat) : s.loadOf cl p = ((s.cluster cl).rdq.filter (fun e => e.part == p)).length +
    (s.ring (ringKey cl p 0)).length + (s.ring (ringKey cl p 1)).length + (s.ring (ringKey cl p 2)).length + (s.ring (ringKey cl p 3)).length := by
  simp [State.loadOf, upFrom, Nat.add_assoc]
theorem loadReport_cluster (s : State) (cl : Nat) :
    (loadReport cl s).cluster cl = { s.cluster cl with load := (upFrom 0 48).foldl (fun m p => mset m p (s.loadOf cl p) 0) [] } :=
  State.updCluster_cluster_self ..
theorem loadReport_load (s : State) (cl : Nat) {p : Nat} (hp : p < 48) : mget ((loadReport cl s).cluster cl).load p 0 = s.loadOf cl p := by
  rw [loadReport_cluster]
  exact mget_foldl_mset (s.loadOf cl) 0 (mem_upFrom.mpr hp) []

/-- Settles O45: a decrement, a release, a placement, a refill and a report, each by the cases of its event. -/
theorem countersAndPlacement : Obligations.CountersAndPlacement := by
  unfold Obligations.CountersAndPlacement
  intro s n
  refine ⟨fun pa part src hm hb => ?record, fun ctr part src hm hb => ?counter, fun rec target part src hm hb => ?later,
    fun cl ctr ep hm => ?release, fun cl e hm => ?placement, fun cl part prio e l hr hl hc => rdqRefill_happens hr hl hc, fun cl => ?report⟩
  case record =>
    have hx {t : State} (h : (s.dropMsg n).decRec pa src = t) : exec (.decrement n) s = .next t :=
      congrArg Host.Outcome.next ((decrement_of_record hm hb).trans h)
    exact ⟨fun h => hx (State.decRec_of_zero h), fun h => hx (State.decRec_of_lowered h), fun h hst => hx (State.decRec_of_last h hst)⟩
  case counter =>
    have hx {t : State} (h : (s.dropMsg n).decCtr ctr src = t) : exec (.decrement n) s = .next t :=
      congrArg Host.Outcome.next ((decrement_of_counter hm hb).trans h)
    exact ⟨fun h => hx (State.decCtr_of_zero h), fun h h1 => hx (State.decCtr_of_lowered h h1), fun h => hx (State.decCtr_of_last h)⟩
  case later => exact congrArg Host.Outcome.next (decrement_of_later hm hb)
  case release =>
    obtain ⟨t, hx, hrdq, hcl, hring, hother, hmsgs, hclock⟩ := releaseArrival_happens hm
    refine ⟨t, hx, hrdq, hcl, hring, hother, hmsgs.trans (List.map_congr_left (fun m _ => ?_)), hclock⟩
    cases m <;> rfl
  case report => exact ⟨_, rfl, by rw [loadReport_cluster], fun p hp => (loadReport_load s cl hp).trans (s.loadOf_eq cl p)⟩
  case placement =>
    have hx {t : State} (h : overflowPlace n s = t) : exec (.overflowRingPlacement n) s = .next t := congrArg Host.Outcome.next h
    refine ⟨fun hb => hx (overflowPlace_of_later hm hb), fun hc => hx (overflowPlace_of_hold hm hc), fun hb hc => ⟨fun ho => ?_, fun ho hr => ?_,
      fun ho hr => ?_⟩⟩
    · rw [hx (overflowPlace_of_first hm hb), State.room_of_open (s := s.dropMsg n) hc ho]; rfl
    · exact overflowRingPlacement_spills hm hb hc ho hr
    · rw [hx (overflowPlace_of_first hm hb), State.room_of_full (s := s.dropMsg n) hc ho hr]; rfl

end Sys2Proof.Machine
end

section
/-! SUPPORT. The creation of a TSPAWN's record, dispatch by a cluster's arbiter, and gang dispatch (R20, R25, R262, R279, R280, R287 to R289). -/

namespace Sys2Proof.Machine

/-! ## What a queue's counters and a launch's leave alone -/

theorem State.updQueueOf_eq (s : State) (l : Nat) (f : Qcb → Qcb) : s.updQueueOf l f = { s with qcbs := (s.updQueueOf l f).qcbs } := by
  unfold State.updQueueOf
  split <;> rfl
@[simp] theorem State.updQueueOf_cores (s : State) (l : Nat) (f : Qcb → Qcb) : (s.updQueueOf l f).cores = s.cores := by rw [State.updQueueOf_eq]
@[simp] theorem State.updQueueOf_clusters (s : State) (l : Nat) (f : Qcb → Qcb) : (s.updQueueOf l f).clusters = s.clusters := by
  rw [State.updQueueOf_eq]
@[simp] theorem State.updQueueOf_rings (s : State) (l : Nat) (f : Qcb → Qcb) : (s.updQueueOf l f).rings = s.rings := by rw [State.updQueueOf_eq]
@[simp] theorem State.updQueueOf_mem (s : State) (l : Nat) (f : Qcb → Qcb) : (s.updQueueOf l f).mem = s.mem := by rw [State.updQueueOf_eq]
@[simp] theorem State.updQueueOf_msgs (s : State) (l : Nat) (f : Qcb → Qcb) : (s.updQueueOf l f).msgs = s.msgs := by rw [State.updQueueOf_eq]
@[simp] theorem State.updQueueOf_gvas (s : State) (l : Nat) (f : Qcb → Qcb) : (s.updQueueOf l f).gvas = s.gvas := by rw [State.updQueueOf_eq]
@[simp] theorem State.updQueueOf_launches (s : State) (l : Nat) (f : Qcb → Qcb) : (s.updQueueOf l f).launches = s.launches := by
  rw [State.updQueueOf_eq]
theorem mgetBytes_length (m : SMap Byte) (k n : Nat) : (mgetBytes m k n).length = n := by
  induction n generalizing k with
  | zero => rfl
  | succ n ih => exact congrArg Nat.succ (ih (k + 1))
/-- A number in memory reads as before when its bytes do. -/
theorem State.rdMem_of_byte {s t : State} {pa n : Nat} (h : ∀ i, i < n → t.byte (pa + i) = s.byte (pa + i)) : t.rdMem pa n = s.rdMem pa n := by
  have hb : ∀ i, (t.bytes pa n)[i]? = (s.bytes pa n)[i]? := fun i => by
    by_cases hi : i < n
    · rw [State.bytes_getElem? hi, State.bytes_getElem? hi, h i hi]
    · have hn (u : State) : (u.bytes pa n)[i]? = none := List.getElem?_eq_none ((mgetBytes_length u.mem pa n).trans_le (Nat.le_of_not_lt hi))
      rw [hn, hn]
  exact congrArg ofBytes (List.ext_getElem? hb)

/-! ## The creation of a record (R279, R280) -/

section
variable {s : State} {n pa gva part l k id : Nat} {x : Launch}

/-- The record names its launch, whose live count rises, and its queue counts its cost. -/
def State.enlisted (s : State) (pa gva l : Nat) : State :=
  let u := (s.wrMem (pa + 0x40) 4 l).updLaunch l (fun x => { x with live := x.live + 1 })
  { u with gvas := mput u.gvas pa gva }.updQueueOf l (fun q => { q with rem := Nat.min (q.rem + (s.trec pa).cost) (2 ^ 48 - 1) })
/-- A record of no channel and no broadcast counter, whose counter is not 0, is created WAITING. -/
theorem State.create_of_waiting {c : Code} (hc : s.code (s.trec pa).codeh = some c) (he : c.isEnd (s.trec pa).taskix = false)
    (hb : (s.trec pa).isBc = false) (hn : (s.trec pa).cnt ≠ 0) :
    s.create pa gva part l = .ok ((s.enlisted pa gva l).setRecState pa recWaiting) := by
  unfold State.create
  simp only [hc, he, hb, Bool.false_eq_true, if_false, beq_iff_eq, hn]
  rfl

theorem recordCreation_of_bad {f : FaultInfo} (hm : s.msg n = some (.create pa gva part l k id)) (hl : s.launch l = some x) (hd : x.dropped = false)
    (hf : s.recordBad part x (s.trec pa) gva = some f) : recordCreation n s = (s.dropMsg n).answerFault k id f := by
  unfold recordCreation
  rw [hm]
  simp only [hl, hd, hf, Bool.false_eq_true, if_false]
theorem recordCreation_of_created {t : State} (hm : s.msg n = some (.create pa gva part l k id)) (hl : s.launch l = some x)
    (hd : x.dropped = false) (hf : s.recordBad part x (s.trec pa) gva = none) (hv : x.live < 2 ^ 32 - 1)
    (ht : (s.dropMsg n).create pa gva part l = .ok t) : recordCreation n s = t.answered k id := by
  have hv' : x.live ≠ 2 ^ 32 - 1 := by omega
  unfold recordCreation
  rw [hm]
  simp only [hl, hd, hf, Bool.false_eq_true, if_false, beq_iff_eq, hv', ht]

theorem State.enlisted_mem (s : State) (pa gva l : Nat) : (s.enlisted pa gva l).mem = (s.wrMem (pa + 0x40) 4 l).mem := State.updQueueOf_mem ..
theorem State.enlisted_launch (hl : s.launch l = some x) (pa gva : Nat) :
    (s.enlisted pa gva l).launch l = some { x with live := x.live + 1 } := by
  have h := State.updLaunch_launch (s.wrMem (pa + 0x40) 4 l) l (fun x => { x with live := x.live + 1 })
  rw [show (s.wrMem (pa + 0x40) 4 l).launch l = some x from hl] at h
  exact (State.launch_of_launches (State.updQueueOf_launches ..) l).trans h

theorem recordCreation_happens {c : Code} (hm : s.msg n = some (.create pa gva part l k id)) (hl : s.launch l = some x) (hd : x.dropped = false)
    (hv : x.live < 2 ^ 32 - 1) (hf : s.recordBad part x (s.trec pa) gva = none) (hc : s.code (s.trec pa).codeh = some c)
    (he : c.isEnd (s.trec pa).taskix = false) (hb : (s.trec pa).isBc = false) (hn : (s.trec pa).cnt ≠ 0) :
    Happens (.recordCreation n) s (fun t =>
      t.rdMem (pa + 0x40) 4 = l % 2 ^ 32 ∧ t.byte (pa + 7) = 1 ∧ (t.launch l).map (fun y => y.live) = some (x.live + 1) ∧
      (∀ a, a ≠ pa + 7 → (a < pa + 0x40 ∨ pa + 0x44 ≤ a) → t.byte a = s.byte a) ∧ t.msgs = dropNth s.msgs n ∧
      t.core k = (s.core k).updCmd id (fun y => { y with ready := true })) := by
  have hcreate := State.create_of_waiting (s := s.dropMsg n) (gva := gva) (part := part) (l := l) hc he hb hn
  have hmem (a : Nat) : ((s.dropMsg n).enlisted pa gva l).byte a = (s.wrMem (pa + 0x40) 4 l).byte a :=
    congrArg (fun m => mget m a 0) (State.enlisted_mem ..)
  have hstate (a : Nat) (ha : a ≠ pa + 7) : (((s.dropMsg n).enlisted pa gva l).setRecState pa recWaiting).byte a =
      (s.wrMem (pa + 0x40) 4 l).byte a :=
    (State.wrMem_byte_outside _ _ (by omega)).trans (hmem a)
  refine ⟨_, congrArg Host.Outcome.next (recordCreation_of_created hm hl hd hf hv hcreate), ?_, ?_, ?_, fun a ha ho => ?_, ?_, ?_⟩
  · exact (State.rdMem_of_byte (fun i _ => hstate (pa + 0x40 + i) (by omega))).trans (State.wrMem_rdMem_bits ..)
  · exact State.setRecState_byte ((s.dropMsg n).enlisted pa gva l) pa recWaiting
  · exact congrArg (Option.map (fun y : Launch => y.live)) (State.enlisted_launch (s := s.dropMsg n) hl pa gva)
  · exact (hstate a ha).trans (State.wrMem_byte_outside _ _ ho)
  · exact State.updQueueOf_msgs ..
  · rw [State.answered, State.updCmd, State.updCore_core_self]
    exact congrArg (fun m : SMap Core => (mget m k Core.reset).updCmd id (fun y => { y with ready := true })) (State.updQueueOf_cores ..)

end

/-! ## The entry that a partition sends first (R25, R287) -/

theorem entryBefore_iff (a b : RdqE) : entryBefore a b = true ↔
    b.prio < a.prio ∨ a.prio = b.prio ∧ (a.stamp < b.stamp ∨ a.stamp = b.stamp ∧ a.raddr < b.raddr) := by
  simp only [entryBefore, Bool.or_eq_true, Bool.and_eq_true, Nat.blt_eq, beq_iff_eq]
theorem entryBefore_irrefl (a : RdqE) : entryBefore a a = false := by
  rw [Bool.eq_false_iff, Ne, entryBefore_iff]; omega
theorem entryBefore_trans {a b c : RdqE} (hab : entryBefore a b = true) (hbc : entryBefore b c = true) : entryBefore a c = true := by
  rw [entryBefore_iff] at *; omega
/-- The better of the first entry so far and another. -/
def firstOfTwo (b : Option RdqE) (e : RdqE) : Option RdqE :=
  match b with
  | none => some e
  | some x => if entryBefore e x then some e else some x
theorem firstEntry_append (l : List RdqE) (a : RdqE) : firstEntry (l ++ [a]) = firstOfTwo (firstEntry l) a := by
  unfold firstEntry
  rw [List.foldl_append]
  rfl
theorem firstEntry_eq_none {l : List RdqE} (h : firstEntry l = none) : l = [] := by
  induction l using List.reverseRecOn with
  | nil => rfl
  | append_singleton l a _ =>
    rw [firstEntry_append] at h
    unfold firstOfTwo at h
    split at h
    · cases h
    · split at h <;> cases h
/-- The first entry is one of the list's, and none of them goes before it. -/
theorem firstEntry_spec {l : List RdqE} {e : RdqE} (h : firstEntry l = some e) : e ∈ l ∧ ∀ x ∈ l, entryBefore x e = false := by
  induction l using List.reverseRecOn generalizing e with
  | nil => cases h
  | append_singleton l a ih =>
    rw [firstEntry_append] at h
    cases hf : firstEntry l with
    | none =>
      rw [hf] at h
      cases h
      rw [firstEntry_eq_none hf]
      exact ⟨List.mem_singleton_self _, fun x hx => by rw [List.mem_singleton.mp hx]; exact entryBefore_irrefl _⟩
    | some b =>
      obtain ⟨hb, hmin⟩ := ih hf
      rw [hf] at h
      unfold firstOfTwo at h
      dsimp only at h
      split at h
      next hab =>
        cases h
        refine ⟨List.mem_append_right _ (List.mem_singleton_self _), fun x hx => ?_⟩
        rcases List.mem_append.mp hx with hx | hx
        · refine Bool.eq_false_iff.mpr (fun hxa => ?_)
          exact absurd (entryBefore_trans hxa hab) (Bool.eq_false_iff.mp (hmin x hx))
        · rw [List.mem_singleton.mp hx]; exact entryBefore_irrefl _
      next hab =>
        cases h
        refine ⟨List.mem_append_left _ hb, fun x hx => ?_⟩
        rcases List.mem_append.mp hx with hx | hx
        · exact hmin x hx
        · rw [List.mem_singleton.mp hx]; exact Bool.eq_false_iff.mpr hab

/-! ## An entry leaves its cluster for a core (R20, R25) -/

theorem State.idleCore_spec {s : State} {cl part k : Nat} (h : s.idleCore cl part = some k) : k ∈ coresOf cl ∧ (s.core k).run = .idle := by
  have hk : k ∈ (coresOf cl).filter (fun k => (s.core k).run == .idle) := by
    rcases Option.or_eq_some_iff.mp h with h | ⟨-, h⟩
    · exact List.mem_of_find?_eq_some h
    · exact List.mem_of_head? h
  obtain ⟨hmem, hrun⟩ := List.mem_filter.mp hk
  exact ⟨hmem, beq_iff_eq.mp hrun⟩

theorem State.entriesOf_congr {s t : State} (hc : t.clusters = s.clusters) (hr : t.rings = s.rings) (cl : Nat) : t.entriesOf cl = s.entriesOf cl := by
  unfold State.entriesOf
  rw [State.cluster_of_clusters hc, hr]
theorem State.takeEntry_cluster_self (s : State) (cl : Nat) (e : RdqE) :
    (s.takeEntry cl e).cluster cl = { s.cluster cl with rdq := (s.cluster cl).rdq.filter (fun x => x != e) } := by
  rw [State.takeEntry, State.cluster_of_clusters (State.setRings_clusters ..), State.updCluster_cluster_self]
/-- An entry that has left its cluster is in neither its ready queue nor its rings. -/
theorem State.takeEntry_not_mem (s : State) (cl : Nat) (e : RdqE) : e ∉ (s.takeEntry cl e).entriesOf cl := by
  have hrings : (s.takeEntry cl e).rings = s.rings.map (fun x => if x.1 / 256 == cl then (x.1, x.2.filter (fun y => y != e)) else x) :=
    State.setRings_rings ..
  unfold State.entriesOf
  rw [s.takeEntry_cluster_self, hrings, List.mem_append]
  rintro (h | h)
  · simp at h
  · obtain ⟨x, hx, he⟩ := List.mem_flatMap.mp h
    obtain ⟨hx, hcl⟩ := List.mem_filter.mp hx
    obtain ⟨y, -, rfl⟩ := List.mem_map.mp hx
    split at he
    · simp at he
    next hy => exact hy (by rwa [if_neg hy] at hcl)

section
variable (s : State) (k part : Nat) (zero : Bool)

theorem State.dropLines_eq (f : L0Line → Bool) : s.dropLines k f = { s with cores := (s.dropLines k f).cores } := by
  unfold State.dropLines State.eachLine
  refine List.foldlRecOn _ _ (motive := fun u : State => u = { s with cores := u.cores }) rfl (fun u hu e _ => ?_)
  split
  · rw [hu]; rfl
  · exact hu
theorem State.freshCore_eq : s.freshCore k part zero = { s with
    cores := (s.freshCore k part zero).cores, freeCtr := (s.freshCore k part zero).freeCtr } := by
  unfold State.freshCore
  dsimp only
  rw [State.dropLines_eq]
  rfl
theorem State.freshCore_core : ∃ (c : Core) (base : Nat), (s.freshCore k part zero).core k = c.fresh part zero base := by
  let u := s.dropLines k (fun l => (s.core k).other part || l.st == .clean)
  exact ⟨u.core k, u.freeCtr, State.updCore_core_self u k (fun c => c.fresh part zero u.freeCtr)⟩
theorem State.beginTask_eq (pa : Nat) : s.beginTask k part pa = { s with
    cores := (s.beginTask k part pa).cores, freeCtr := (s.beginTask k part pa).freeCtr } := by
  unfold State.beginTask
  dsimp only
  rw [State.freshCore_eq]
  rfl
@[simp] theorem State.beginTask_clusters (pa : Nat) : (s.beginTask k part pa).clusters = s.clusters := by rw [State.beginTask_eq]
@[simp] theorem State.beginTask_rings (pa : Nat) : (s.beginTask k part pa).rings = s.rings := by rw [State.beginTask_eq]
/-- Core c begins the task of a record r named g2, in a partition: its identity, mode and safe point, and the registers that hold what R20 gives
them. -/
def Core.Begun (c : Core) (r : TRec) (part g2 : Nat) : Prop :=
  c.run = .task ∧ c.csr.taskid = BitVec.ofNat 32 r.taskid ∧ c.csr.partid = BitVec.ofNat 8 part ∧ c.csr.status = 0 ∧ c.csr.safeix = 0xFFFF ∧
    c.csr.safedist = 0 ∧ c.rg 1 = BitVec.ofNat 64 r.arg ∧ c.rg 2 = BitVec.ofNat 64 g2 ∧ c.rq 0 = BitVec.ofNat 64 r.coord ∧
    (∀ n, (c.tok n).st = .free) ∧ ∀ n, n ≠ 0 → c.rp n = false
/-- With STATUS 0 the handler bank is not in sight. -/
theorem Core.rg_of_task_mode {c : Core} (h : c.csr.status = 0) {n : Nat} (hn : n ≠ 0) : c.rg n = mget c.regs.g n (c.regs.dflt 64 0 n) := by
  have hm : c.hm = false := by rw [Core.hm, h]; rfl
  simp [Core.rg, Core.rgIn, Core.bank, hm, hn]
theorem Core.rp_of_task_mode {c : Core} (h : c.csr.status = 0) {n : Nat} (hn : n ≠ 0) : c.rp n = mget c.regs.p n false := by
  have hm : c.hm = false := by rw [Core.hm, h]; rfl
  simp [Core.rp, Core.pbank, hm, hn]
theorem State.beginTask_begun (pa : Nat) : ((s.beginTask k part pa).core k).Begun (s.trec pa) part (mget s.gvas pa pa) := by
  obtain ⟨c, base, hc⟩ := s.freshCore_core k part true
  have hg : (s.freshCore k part true).gvas = s.gvas := by rw [State.freshCore_eq]
  unfold State.beginTask
  dsimp only
  rw [State.updCore_core_self, hc, hg]
  exact ⟨rfl, rfl, rfl, rfl, rfl, rfl, Core.rg_of_task_mode rfl Nat.one_ne_zero, Core.rg_of_task_mode rfl two_ne_zero, rfl, fun _ => rfl,
    fun n hn => Core.rp_of_task_mode rfl hn⟩

end

theorem State.trec_of_mem {s t : State} (h : t.mem = s.mem) (pa : Nat) : t.trec pa = s.trec pa := by
  unfold State.trec State.rdMem State.bytes
  rw [h]
/-- The state from which a core takes up what an entry names: the entry has left, and the queue counts one task more that runs. -/
def State.handedOver (s : State) (cl : Nat) (e : RdqE) : State :=
  ((s.takeEntry cl e).countEv (unitCluster cl) 0x28 e.part 1).updQueueOf (s.entryLaunch e) (fun q => { q with runN := q.runN + 1, ent := q.ent - 1 })
theorem State.sendTo_of_new {s : State} {e : RdqE} (h : e.kind = 0) (cl k : Nat) :
    s.sendTo cl k e = (s.handedOver cl e).beginTask k e.part e.raddr :=
  if_neg (by simp [h])
@[simp] theorem State.handedOver_clusters (s : State) (cl : Nat) (e : RdqE) : (s.handedOver cl e).clusters = (s.takeEntry cl e).clusters :=
  State.updQueueOf_clusters ..
@[simp] theorem State.handedOver_mem (s : State) (cl : Nat) (e : RdqE) : (s.handedOver cl e).mem = (s.takeEntry cl e).mem := State.updQueueOf_mem ..
@[simp] theorem State.handedOver_gvas (s : State) (cl : Nat) (e : RdqE) : (s.handedOver cl e).gvas = s.gvas := by
  have h : (s.takeEntry cl e).gvas = s.gvas := by rw [State.takeEntry, State.setRings_eq]; rfl
  exact (State.updQueueOf_gvas ..).trans h
theorem State.handedOver_not_mem (s : State) (cl : Nat) (e : RdqE) : e ∉ (s.handedOver cl e).entriesOf cl := by
  rw [State.entriesOf_congr (s.handedOver_clusters cl e) (State.updQueueOf_rings ..)]
  exact s.takeEntry_not_mem cl e
/-- The clusters' ready queues and credits are apart from the rings and their memory. -/
def State.withClusters (s : State) (c : SMap Cluster) : State := { s with clusters := c }
@[simp] theorem State.withClusters_part (s : State) (c : SMap Cluster) (p : Nat) : (s.withClusters c).part p = s.part p := rfl
@[simp] theorem State.withClusters_rings (s : State) (c : SMap Cluster) : (s.withClusters c).rings = s.rings := rfl
theorem State.withClusters_wrBytes (s : State) (c : SMap Cluster) (a : Nat) (l : List Byte) :
    (s.withClusters c).wrBytes a l = (s.wrBytes a l).withClusters c := rfl
theorem State.setRings_withClusters (s : State) (c : SMap Cluster) (r : SMap (List RdqE)) :
    (s.withClusters c).setRings r = (s.setRings r).withClusters c := by
  unfold State.setRings
  simp only [State.withClusters_rings, State.withClusters_part]
  refine List.foldl_hom (State.withClusters · c) (init := { s with rings := r }) (fun t x => ?_)
  rw [State.withClusters_wrBytes]
  exact (apply_ite (State.withClusters · c) ..).symm
theorem State.takeEntry_mem_of_credits (s : State) (cl : Nat) (e : RdqE) (f : Cluster → Cluster) :
    ((s.updCluster cl f).takeEntry cl e).mem = (s.takeEntry cl e).mem := by
  have h (c : SMap Cluster) (r : SMap (List RdqE)) : ((s.withClusters c).setRings r).mem = (s.setRings r).mem := by
    rw [State.setRings_withClusters]; rfl
  exact (h _ _).trans (h _ _).symm

/-! ## Dispatch (R288, R289) -/

section
variable {s v : State} {cl p ptr k : Nat} {crd : SMap Int} {e : RdqE}

/-- In a cluster that is ACTIVE a partition wins, with the credits and the pointer after that, and sends its first entry e to the idle core k. -/
def State.sends (v : State) (cl p : Nat) (crd : SMap Int) (ptr : Nat) (e : RdqE) (k : Nat) : Prop :=
  let ok := (v.entriesOf cl).filter (fun e => v.dispatchable e)
  v.clState cl = clActive ∧ creditWin (partsOf ok) (fun p => (v.part p).wgt) (v.weightSum cl) (v.cluster cl).crd (v.cluster cl).ptr =
      some (p, crd, ptr) ∧ firstEntry (ok.filter (fun e => e.part == p)) = some e ∧ v.idleCore cl p = some k
theorem dispatch_of_sends (hv : s.reserveIn cl = v) (h : v.sends cl p crd ptr e k) :
    dispatch cl s = (v.updCluster cl (fun c => { c with crd := crd, ptr := ptr })).sendTo cl k e := by
  obtain ⟨hc, hw, he, hk⟩ := h
  obtain ⟨hmem, hrun⟩ := State.idleCore_spec hk
  have hidle : (v.clState cl != clActive || !((coresOf cl).any (fun k => (v.core k).run == .idle))) = false := by
    simp only [hc, bne_self_eq_false, Bool.false_or, Bool.not_eq_false', List.any_eq_true, beq_iff_eq]
    exact ⟨k, hmem, hrun⟩
  unfold dispatch
  simp only [hv, hidle, Bool.false_eq_true, if_false, hw, he, hk]
theorem dispatch_happens (hv : s.reserveIn cl = v) (h : v.sends cl p crd ptr e k) (hkind : e.kind = 0) :
    Happens (.dispatch cl) s (fun t => k ∈ coresOf cl ∧ (v.core k).run = .idle ∧ e ∉ t.entriesOf cl ∧ (t.cluster cl).crd = crd ∧
      (t.cluster cl).ptr = ptr ∧ (t.core k).Begun ((v.takeEntry cl e).trec e.raddr) e.part (mget v.gvas e.raddr e.raddr)) := by
  have hx := dispatch_of_sends hv h
  obtain ⟨-, -, -, hk⟩ := h
  obtain ⟨hmem, hrun⟩ := State.idleCore_spec hk
  generalize hu : v.updCluster cl (fun c => { c with crd := crd, ptr := ptr }) = u at hx
  have hsend := State.sendTo_of_new hkind (s := u) cl k
  have hkeeps := (u.handedOver cl e).beginTask_clusters k e.part e.raddr
  have hcluster : ((u.handedOver cl e).cluster cl).crd = crd ∧ ((u.handedOver cl e).cluster cl).ptr = ptr := by
    rw [State.cluster_of_clusters (u.handedOver_clusters cl e), u.takeEntry_cluster_self, ← hu, State.updCluster_cluster_self]
    exact ⟨rfl, rfl⟩
  have hrec : (u.handedOver cl e).trec e.raddr = (v.takeEntry cl e).trec e.raddr :=
    State.trec_of_mem ((u.handedOver_mem cl e).trans (hu ▸ v.takeEntry_mem_of_credits cl e _)) _
  have hgvas : (u.handedOver cl e).gvas = v.gvas := (u.handedOver_gvas cl e).trans (hu ▸ rfl)
  have hbegun := State.beginTask_begun (u.handedOver cl e) k e.part e.raddr
  rw [hrec, hgvas] at hbegun
  refine ⟨_, congrArg Host.Outcome.next (hx.trans hsend), hmem, hrun, ?_, ?_, ?_, hbegun⟩
  · rw [State.entriesOf_congr hkeeps (State.beginTask_rings ..)]
    exact u.handedOver_not_mem cl e
  · rw [State.cluster_of_clusters hkeeps]; exact hcluster.1
  · rw [State.cluster_of_clusters hkeeps]; exact hcluster.2

end

/-! ## Gang dispatch (R262, R287) -/

section
variable {s : State} {part l : Nat} {ms : List (Nat × RdqE)}

/-- The arbiter keeps the gang that it holds while a member of it waits. -/
theorem State.takeGang_of_waiting {ch : Nat} (h : mget s.gangs part none = some (l, ch)) (hm : s.members l (s.gangAt l ch) ≠ []) :
    s.takeGang part = s := by
  have hw : (s.members l (s.gangAt l ch)).isEmpty = false := by simpa [List.isEmpty_iff] using hm
  unfold State.takeGang
  rw [h]
  simp only [hw, Bool.not_false, if_true]

theorem gangDispatch_of_none (h : (s.takeGang part).heldGang part = none) : gangDispatch part s = s.takeGang part := by
  unfold gangDispatch
  simp only [h]
/-- A member without a core reserved for it, or in a cluster that is not ACTIVE. -/
def State.lacks (s : State) (l : Nat) (m : Nat × RdqE) : Prop := s.reserved l m = none ∨ s.clState m.1 ≠ clActive
theorem State.any_lacks_iff {u : State} :
    (ms.any (fun m => (u.reserved l m).isNone || u.clState m.1 != clActive)) = true ↔ ∃ m ∈ ms, u.lacks l m := by
  simp only [State.lacks, List.any_eq_true, Bool.or_eq_true, Option.isNone_iff_eq_none, bne_iff_ne]
theorem gangDispatch_of_lacking (h : (s.takeGang part).heldGang part = some (l, ms))
    (hm : ms = [] ∨ ∃ m ∈ ms, ((s.takeGang part).reserve l ms).lacks l m) : gangDispatch part s = (s.takeGang part).reserve l ms := by
  unfold gangDispatch
  simp only [h]
  refine if_pos ?_
  rw [Bool.or_eq_true, List.isEmpty_iff, State.any_lacks_iff]
  exact hm
theorem gangDispatch_of_ready (h : (s.takeGang part).heldGang part = some (l, ms)) (hne : ms ≠ [])
    (hm : ∀ m ∈ ms, ¬ ((s.takeGang part).reserve l ms).lacks l m) :
    let t := ms.foldl (fun w m => match w.reserved l m with | some k => w.sendMember m.1 k m.2 | none => w) ((s.takeGang part).reserve l ms)
    gangDispatch part s = { t with gangs := merase t.gangs part } := by
  unfold gangDispatch
  simp only [h]
  refine if_neg ?_
  rw [Bool.or_eq_true, List.isEmpty_iff, State.any_lacks_iff, not_or]
  exact ⟨hne, fun ⟨m, hmem, hl⟩ => hm m hmem hl⟩

end

/-- Settles O46: a creation by its checks, a dispatch by its winner, and a gang by what its members lack. -/
theorem creationAndDispatch : Obligations.CreationAndDispatch := by
  unfold Obligations.CreationAndDispatch
  refine ⟨fun s n pa gva part l k id x c hm hl hd hv => ⟨fun f hf => ?bad, fun hf hc he hb hn _ => ?good⟩, fun s cl part =>
    ⟨fun l e h => firstEntry_spec h, fun p crd ptr e k hc hw he hk hkind => ?single, fun l ch h hm => State.takeGang_of_waiting h hm, ?gang⟩⟩
  case bad => exact congrArg Host.Outcome.next (recordCreation_of_bad hm hl hd hf)
  case good => exact recordCreation_happens hm hl hd hv hf hc he hb hn
  case single => exact dispatch_happens rfl ⟨hc, hw, he, hk⟩ hkind
  case gang =>
    refine ⟨fun h => congrArg Host.Outcome.next (gangDispatch_of_none h), fun l ms h =>
      ⟨fun hm => congrArg Host.Outcome.next (gangDispatch_of_lacking h hm), fun hne hm => ?_⟩⟩
    refine congrArg Host.Outcome.next (gangDispatch_of_ready h hne (fun m hmem => ?_))
    obtain ⟨hr, hc⟩ := hm m hmem
    exact not_or.mpr ⟨hr, not_not.mpr hc⟩

end Sys2Proof.Machine
end

section
/-! SUPPORT. Ring commands: LOAD, UNLOAD, DESC, LAUNCH and COPY (R274, R285, R353, R362, R388). -/

namespace Sys2Proof.Machine

/-! ## Objects by their handle -/

theorem find?_minsert_self {α : Type} {m : SMap α} {k : Nat} {v : α} (h : ∀ e ∈ m, e.1 ≠ k) :
    (minsert m k v).find? (fun e => e.1 == k) = some (k, v) := by
  induction m with
  | nil => simp [minsert]
  | cons e t ih =>
    obtain ⟨a, x⟩ := e
    have ha : a ≠ k := h (a, x) (List.mem_cons_self ..)
    by_cases hlt : k < a
    · simp [minsert, hlt]
    · simp only [minsert, Nat.blt_eq, hlt, if_false]
      rw [List.find?_cons_of_neg (by simpa using ha)]
      exact ih (fun e he => h e (List.mem_cons_of_mem _ he))
/-- The object that was given a handle is the handle's. -/
theorem State.code_of_mput {s : State} {m : SMap Code} {h : Nat} {c : Code} (hs : s.codes = mput m h c) : s.code h = some c := by
  rw [State.code, hs, mput, find?_minsert_self (fun _ he => (merase_mem.mp he).2)]
  rfl
/-- A handle taken from the list names nothing. -/
theorem State.code_of_filter {s : State} {m : SMap Code} {h : Nat} (hs : s.codes = m.filter (fun e => e.1 != h)) : s.code h = none := by
  rw [State.code, hs, Option.map_eq_none_iff, List.find?_eq_none]
  intro e he
  simpa using (List.mem_filter.mp he).2

/-! ## Taking a command (R388) -/

section
variable {s : State} {fn q opc : Nat} {b : List Byte}

theorem State.ringMay_of_done {f : List Byte → State → Option (State × Nat × Nat × Nat)} {r : State × Nat × Nat × Nat}
    (hg : s.goodOf fn q opc = some b) (hf : f b s = some r) : s.ringMay fn q opc f = r.1.taken (qkey fn q) b (some r.2) := by
  unfold State.ringMay
  simp only [hg, hf]
theorem State.ringMay_of_waiting {f : List Byte → State → Option (State × Nat × Nat × Nat)} (hg : s.goodOf fn q opc = some b)
    (hf : f b s = none) :
    s.ringMay fn q opc f = s := by
  unfold State.ringMay
  simp only [hg, hf]
theorem State.ringDo_of_good {f : List Byte → State → State × Nat × Nat × Nat} {r : State × Nat × Nat × Nat}
    (hg : s.goodOf fn q opc = some b) (hf : f b s = r) : s.ringDo fn q opc f = r.1.taken (qkey fn q) b (some r.2) := by
  unfold State.ringDo
  simp only [hg, hf]
/-- A command that is taken stays its ring's current one, with its tag and completion. -/
theorem State.taken_busy (s : State) (key : Nat) (b : List Byte) (r : Nat × Nat × Nat) :
    ((s.taken key b (some r)).qcb key).busy = some (imgFld b 2 2, r) := by
  rw [State.taken, State.updQcb_qcb_self]
  rfl

end

/-! ## Bytes moved at once (R269, R274, R388) -/

section
variable {s : State} {part : Nat} {src dst : List Nat}

/-- Listed bytes written to listed addresses, in order. -/
def State.putBytes (s : State) (dst : List Nat) (data : List Byte) : State := (dst.zip data).foldl (fun s x => s.wrBytes x.1 [x.2]) s
theorem State.wrBytes_byte_self (s : State) (a : Nat) (v : Byte) : (s.wrBytes a [v]).byte a = v :=
  mget_msetBytes_inside (m := s.mem) (k := a) (i := 0) (l := [v]) Nat.zero_lt_one
theorem State.wrBytes_byte_of_ne (s : State) {a p : Nat} (h : p ≠ a) (v : Byte) : (s.wrBytes a [v]).byte p = s.byte p :=
  State.wrBytes_byte_outside s (by simp only [List.length_singleton]; omega)
theorem State.putBytes_cons (s : State) (d : Nat) (v : Byte) (dst : List Nat) (data : List Byte) :
    s.putBytes (d :: dst) (v :: data) = (s.wrBytes d [v]).putBytes dst data := rfl
theorem State.putBytes_byte_outside (s : State) {data : List Byte} {a : Nat} (h : a ∉ dst) : (s.putBytes dst data).byte a = s.byte a := by
  induction dst generalizing s data with
  | nil => rfl
  | cons d dst ih =>
    cases data with
    | nil => rfl
    | cons v data =>
      rw [State.putBytes_cons, ih _ (List.not_mem_of_not_mem_cons h), State.wrBytes_byte_of_ne _ (List.ne_of_not_mem_cons h)]
theorem State.putBytes_byte_at (s : State) {data : List Byte} (h : dst.Nodup) {i d : Nat} {v : Byte} (hd : dst[i]? = some d)
    (hv : data[i]? = some v) : (s.putBytes dst data).byte d = v := by
  induction dst generalizing s data i with
  | nil => cases hd
  | cons d0 dst ih =>
    obtain ⟨hnot, hnodup⟩ := List.nodup_cons.mp h
    cases data with
    | nil => cases hv
    | cons v0 data =>
      rw [State.putBytes_cons]
      cases i with
      | zero =>
        cases hd
        cases hv
        rw [State.putBytes_byte_outside _ hnot, State.wrBytes_byte_self]
      | succ i => exact ih _ hnodup hd hv
theorem State.putBytes_eq (s : State) (dst : List Nat) (data : List Byte) : s.putBytes dst data = { s with mem := (s.putBytes dst data).mem } := by
  unfold State.putBytes
  refine List.foldlRecOn _ _ (motive := fun u : State => u = { s with mem := u.mem }) rfl (fun u hu x _ => ?_)
  rw [hu]
  rfl

/-- The state in which the bytes of a move are served, and the lines of all of them closed. -/
def State.lineUp (s : State) (part : Nat) (l : List Nat) : State := (l.foldl (fun s a => s.closeLine a) s).servedAll part l
theorem State.lineUp_uncounted (s : State) (part : Nat) (l : List Nat) : (s.lineUp part l).uncounted = s.uncounted :=
  (State.servedAll_uncounted ..).trans (foldl_keeps State.uncounted (fun t a => t.closeLine_uncounted a) l s)
theorem State.moveBytes_of_passing (h : ∀ a ∈ src ++ dst, s.mayInject part a = true) :
    s.moveBytes part src dst = some ((s.lineUp part (src ++ dst)).putBytes dst (src.map s.byte)) := by
  unfold State.moveBytes
  rw [if_neg (by simpa only [Bool.not_eq_true', Bool.not_eq_false, List.all_eq_true] using h)]
  rfl
theorem State.moveBytes_of_held (h : ¬ ∀ a ∈ src ++ dst, s.mayInject part a = true) : s.moveBytes part src dst = none := by
  unfold State.moveBytes
  refine if_pos ?_
  rw [Bool.not_eq_true', Bool.eq_false_iff, Ne, List.all_eq_true]
  exact h

end

/-! ## LOAD (R362, R388) -/

section
variable {s : State} {fn q part dest : Nat} {b : List Byte} {im : Image} {c : Code}

@[simp] theorem State.addRegions_nextCode (s : State) (im : Image) (part : Nat) : (s.addRegions im part).nextCode = s.nextCode := by
  unfold State.addRegions
  exact foldl_keeps (f := fun t (x : Nat × List Byte) => t.addRegion part x.1 x.2) State.nextCode (fun _ _ => rfl) _ s
/-- LOAD's command, by its image, destination and partition. -/
def State.loads (s : State) (fn q : Nat) (b : List Byte) (im : Image) (part dest : Nat) : Prop :=
  s.goodOf fn q 1 = some b ∧ im = ⟨hostPa (imgFld b 8 8), imgFld b 0x18 4⟩ ∧ part = (s.fnPart fn).getD 0 ∧ dest = imgFld b 0x10 8
theorem loadCmd_of_bad {st o : Nat} (hl : s.loads fn q b im part dest) (hc : s.checkCode im part dest = .error (st, o)) :
    loadCmd fn q s = s.taken (qkey fn q) b (some (st, o, 0)) := by
  obtain ⟨hg, rfl, rfl, rfl⟩ := hl
  unfold loadCmd
  refine State.ringMay_of_done (r := (s, st, o, 0)) hg ?_
  simp only [hc]
/-- The object is copied, its regions enter the table, and it has the next handle. -/
def State.loaded (s : State) (im : Image) (part : Nat) (as : List Nat) (c : Code) : State :=
  let u := ((s.lineUp part (upFrom im.pa im.size ++ as)).putBytes as ((upFrom im.pa im.size).map s.byte)).addRegions im part
  { u with codes := mput u.codes u.nextCode c, nextCode := u.nextCode + 1 }
theorem State.addRegions_moved_nextCode (s : State) (im : Image) (part : Nat) (as : List Nat) :
    (((s.lineUp part (upFrom im.pa im.size ++ as)).putBytes as ((upFrom im.pa im.size).map s.byte)).addRegions im part).nextCode = s.nextCode := by
  rw [State.addRegions_nextCode, State.putBytes_eq]
  exact State.eq_of_uncounted (s.lineUp_uncounted part _) State.nextCode (fun _ => rfl)
variable {as : List Nat}
theorem loadCmd_of_passing (hl : s.loads fn q b im part dest) (hc : s.checkCode im part dest = .ok c)
    (ha : s.guestAddrs part dest im.size (accR + accX) = .ok as) (hp : ∀ a ∈ upFrom im.pa im.size ++ as, s.mayInject part a = true) :
    loadCmd fn q s = (s.loaded im part as c).taken (qkey fn q) b (some (0, 0, s.nextCode)) := by
  have hmove := State.moveBytes_of_passing hp
  have hnext := s.addRegions_moved_nextCode im part as
  obtain ⟨hg, rfl, rfl, rfl⟩ := hl
  unfold loadCmd
  refine State.ringMay_of_done (r := (s.loaded _ _ as c, 0, 0, s.nextCode)) hg ?_
  simp only [hc, ha, hmove]
  rw [← hnext]
  rfl
theorem loadCmd_of_held (hl : s.loads fn q b im part dest) (hc : s.checkCode im part dest = .ok c)
    (ha : s.guestAddrs part dest im.size (accR + accX) = .ok as) (hp : ¬ ∀ a ∈ upFrom im.pa im.size ++ as, s.mayInject part a = true) :
    loadCmd fn q s = s := by
  have hmove := State.moveBytes_of_held hp
  obtain ⟨hg, rfl, rfl, rfl⟩ := hl
  unfold loadCmd
  refine State.ringMay_of_waiting hg ?_
  simp only [hc, ha, hmove]
theorem load_happens (hl : s.loads fn q b im part dest) (hc : s.checkCode im part dest = .ok c)
    (ha : s.guestAddrs part dest im.size (accR + accX) = .ok as) (hp : ∀ a ∈ upFrom im.pa im.size ++ as, s.mayInject part a = true) :
    Happens (.load fn q) s (fun t => t.code s.nextCode = some c ∧ (t.qcb (qkey fn q)).busy = some (imgFld b 2 2, 0, 0, s.nextCode) ∧
      t.nextCode = s.nextCode + 1) := by
  have hnext := s.addRegions_moved_nextCode im part as
  have hcodes : (s.loaded im part as c).code s.nextCode = some c := State.code_of_mput (by rw [← hnext]; rfl)
  exact ⟨_, congrArg Host.Outcome.next (loadCmd_of_passing hl hc ha hp), hcodes, State.taken_busy .., congrArg (· + 1) hnext⟩

end

/-! ## UNLOAD, DESC (R353, R362) -/

section
variable {s : State} {fn q : Nat} {b : List Byte}

/-- An object's regions leave the partition's table. -/
def State.withoutRegions (s : State) (part : Nat) (c : Code) : State :=
  (upFrom 0 64).foldl (fun s ix => match s.regionAt (s.part part) ix with
    | some r => if c.regions.contains (r.base, r.size, r.word) then s.clearRegion part ix else s
    | none => s) s
theorem unloadCmd_of_used {c : Code} (hg : s.goodOf fn q 2 = some b) (hc : s.code (imgFld b 8 4) = some c) (hp : c.part = (s.fnPart fn).getD 0)
    (hu : s.launches.any (fun l => l.2.codeh == imgFld b 8 4 && !l.2.dropped) = true) :
    unloadCmd fn q s = s.taken (qkey fn q) b (some (0x27, 0, 0)) := by
  refine State.ringDo_of_good (r := (s, 0x27, 0, 0)) hg ?_
  simp only [hc, hp, bne_self_eq_false, Bool.false_eq_true, if_false, hu, if_true]
theorem unloadCmd_of_unused {c : Code} (hg : s.goodOf fn q 2 = some b) (hc : s.code (imgFld b 8 4) = some c) (hp : c.part = (s.fnPart fn).getD 0)
    (hu : s.launches.any (fun l => l.2.codeh == imgFld b 8 4 && !l.2.dropped) = false) :
    let u := s.withoutRegions ((s.fnPart fn).getD 0) c
    unloadCmd fn q s = ({ u with codes := u.codes.filter (fun e => e.1 != imgFld b 8 4) }.taken (qkey fn q) b (some (0, 0, 0))) := by
  refine State.ringDo_of_good (r := (_, 0, 0, 0)) hg ?_
  simp only [hc, hp, bne_self_eq_false, Bool.false_eq_true, if_false, hu]
  rfl

variable {img : List Byte}
theorem descriptorCmd_of_good (hg : s.goodOf fn q 3 = some b) (hi : s.bytes (hostPa (imgFld b 0x10 8)) 128 = img)
    (hc : descCheck img (imgFld b 8 4) ((s.part ((s.fnPart fn).getD 0)).fld 0x58 4) = none) :
    descriptorCmd fn q s = (s.setDesc ((s.fnPart fn).getD 0) (imgFld b 8 4) img).taken (qkey fn q) b (some (0, 0, 0)) := by
  refine State.ringDo_of_good (r := (s.setDesc ((s.fnPart fn).getD 0) (imgFld b 8 4) img, 0, 0, 0)) hg ?_
  simp only [hi, hc]
theorem descriptorCmd_of_bad {c e : Nat} (hg : s.goodOf fn q 3 = some b) (hi : s.bytes (hostPa (imgFld b 0x10 8)) 128 = img)
    (hc : descCheck img (imgFld b 8 4) ((s.part ((s.fnPart fn).getD 0)).fld 0x58 4) = some (c, e)) :
    descriptorCmd fn q s = s.taken (qkey fn q) b (some (if c = 0x0D then 0x31 else 0x30, e, 0)) := by
  refine State.ringDo_of_good (r := (s, _, e, 0)) hg ?_
  simp only [hi, hc, fcDescAlias, beq_iff_eq]

/-! ## LAUNCH (R285, R388) -/

theorem launchCmd_of_waiting (hg : s.goodOf fn q 4 = some b) (hl : s.takeLaunch fn q ((s.fnPart fn).getD 0) b = none) : launchCmd fn q s = s := by
  unfold launchCmd
  simp only [hg, hl]
theorem launchCmd_of_refused {st f : Nat} (hg : s.goodOf fn q 4 = some b)
    (hl : s.takeLaunch fn q ((s.fnPart fn).getD 0) b = some (.error (st, f))) : launchCmd fn q s = s.taken (qkey fn q) b (some (st, f, 0)) := by
  unfold launchCmd
  simp only [hg, hl]
theorem launchCmd_of_live {t : State} {l : Nat} {x : Launch} (hg : s.goodOf fn q 4 = some b)
    (hl : s.takeLaunch fn q ((s.fnPart fn).getD 0) b = some (.ok (t, l))) (hx : t.launch l = some x) (hv : x.live ≠ 0) :
    launchCmd fn q s = t.taken (qkey fn q) b none := by
  have hx' : (t.taken (qkey fn q) b none).launch l = some x := hx
  unfold launchCmd
  simp only [hg, hl, hx', beq_iff_eq, hv, if_false]

/-! ## COPY (R388) -/

/-- COPY's command reads the bytes of one side. -/
def State.copyFrom (s : State) (fn : Nat) (b : List Byte) : Except FaultInfo (List Nat) :=
  s.copySide ((s.fnPart fn).getD 0) (imgFld b 8 8) (imgFld b 0x18 8) accR (imgFld b 1 1 == 0)
/-- And writes those of the other. -/
def State.copyTo (s : State) (fn : Nat) (b : List Byte) : Except FaultInfo (List Nat) :=
  s.copySide ((s.fnPart fn).getD 0) (imgFld b 0x10 8) (imgFld b 0x18 8) accW (imgFld b 1 1 == 1)
theorem copyCmd_of_fault {e : FaultInfo} (hg : s.goodOf fn q 5 = some b) (hs : s.copyFrom fn b = .error e) :
    copyCmd fn q s = s.taken (qkey fn q) b (some (0x32, e.code, 0)) := by
  unfold State.copyFrom at hs
  unfold copyCmd
  refine State.ringMay_of_done (r := (s, 0x32, e.code, 0)) hg ?_
  simp only [hs]
variable {src dst : List Nat}
theorem copyCmd_of_sides (hg : s.goodOf fn q 5 = some b) (hs : s.copyFrom fn b = .ok src) (hd : s.copyTo fn b = .ok dst) :
    copyCmd fn q s = match s.moveBytes ((s.fnPart fn).getD 0) src dst with
      | none => s
      | some t => t.taken (qkey fn q) b (some (0, 0, 0)) := by
  unfold State.copyFrom at hs
  unfold State.copyTo at hd
  unfold copyCmd
  cases hm : s.moveBytes ((s.fnPart fn).getD 0) src dst with
  | none =>
    refine State.ringMay_of_waiting hg ?_
    simp only [hs, hd, hm, Option.map_none]
  | some t =>
    refine State.ringMay_of_done (r := (t, 0, 0, 0)) hg ?_
    simp only [hs, hd, hm, Option.map_some]
theorem copy_happens (hg : s.goodOf fn q 5 = some b) (hs : s.copyFrom fn b = .ok src) (hd : s.copyTo fn b = .ok dst)
    (hp : ∀ a ∈ src ++ dst, s.mayInject ((s.fnPart fn).getD 0) a = true) (hn : dst.Nodup) : Happens (.copy fn q) s (fun t =>
      (∀ (i a d : Nat), src[i]? = some a → dst[i]? = some d → t.byte d = s.byte a) ∧ (∀ a, a ∉ dst → t.byte a = s.byte a) ∧
      (t.qcb (qkey fn q)).busy = some (imgFld b 2 2, 0, 0, 0)) := by
  have hx := copyCmd_of_sides hg hs hd
  rw [State.moveBytes_of_passing hp] at hx
  refine ⟨_, congrArg Host.Outcome.next hx, fun i a d ha hd => ?_, fun a ha => ?_, State.taken_busy ..⟩
  · exact State.putBytes_byte_at _ hn hd (by rw [List.getElem?_map, ha]; rfl)
  · exact (State.putBytes_byte_outside _ ha).trans (State.byte_of_uncounted (s.lineUp_uncounted _ _) a)

end

/-- Settles O56: each command, once it is taken, by what its checks answer. -/
theorem ringCommands : Obligations.RingCommands := by
  unfold Obligations.RingCommands
  intro s fn q b
  refine ⟨fun st o hg hc => ?bad, fun c as hg hc ha => ?load, fun c hg hc hp => ?unload, fun hg => ?desc,
    fun hg hl => congrArg Host.Outcome.next (launchCmd_of_waiting hg hl), fun st f hg hl => congrArg Host.Outcome.next (launchCmd_of_refused hg hl),
    fun t l x hg hl hx hv => congrArg Host.Outcome.next (launchCmd_of_live hg hl hx hv), fun src dst hg hs hd => ?copy,
    fun e hg hs => congrArg Host.Outcome.next (copyCmd_of_fault hg hs)⟩
  case bad => exact congrArg Host.Outcome.next (loadCmd_of_bad ⟨hg, rfl, rfl, rfl⟩ hc)
  case load =>
    exact ⟨fun hp => load_happens ⟨hg, rfl, rfl, rfl⟩ hc ha hp, fun hp =>
      congrArg Host.Outcome.next (loadCmd_of_held ⟨hg, rfl, rfl, rfl⟩ hc ha hp)⟩
  case unload =>
    exact ⟨fun hu => congrArg Host.Outcome.next (unloadCmd_of_used hg hc hp hu), fun hu =>
      ⟨_, congrArg Host.Outcome.next (unloadCmd_of_unused hg hc hp hu), State.code_of_filter rfl, State.taken_busy ..⟩⟩
  case desc =>
    exact ⟨fun hc => congrArg Host.Outcome.next (descriptorCmd_of_good hg rfl hc), fun c e hc =>
      congrArg Host.Outcome.next (descriptorCmd_of_bad hg rfl hc)⟩
  case copy =>
    refine ⟨fun hp hn => copy_happens hg hs hd hp hn, fun hp => ?_⟩
    have hx := copyCmd_of_sides hg hs hd
    rw [State.moveBytes_of_held hp] at hx
    exact congrArg Host.Outcome.next hx

end Sys2Proof.Machine
end

section
/-! SUPPORT. A fault record that goes to an empty ring whose function lacks the ring's vector: the state that refutes O9 (R298, R391). -/

namespace Sys2Proof.Machine

/-- A partition's fault ring of 64 records, empty, whose vector is 2,048 of the physical function, which has the vectors 0 to 2,047 (R391). -/
def beyondVector : State := { State.reset with parts := [(0, ⟨[(0x70, 6), (0x73, 8)], 0, 0, 0⟩)] }
/-- An ABORT record of partition 0. -/
def abortRecord : FrqRec := ⟨2, 0, 0, 0, 0, 0, 0, 0, 0, 0⟩
/-- No interrupt leaves the device, though the ring was empty. -/
theorem beyondVector_frqPost_out : (beyondVector.frqPost abortRecord).out = [] := by decide

/-- Refutes O9: the ring was empty, but its function does not have the ring's vector, and nothing is raised (R391). -/
theorem not_faultRecords : ¬ Obligations.FaultRecords := by
  intro h
  obtain ⟨-, -, hwritten⟩ := h beyondVector abortRecord
  obtain ⟨-, -, -, -, -, -, -, -, -, -, -, -, -, -, -, hout⟩ := hwritten (by decide)
  rw [beyondVector_frqPost_out] at hout
  exact absurd hout (by decide)

end Sys2Proof.Machine
end

section
/-! SUPPORT. Doorbells and completion records (R387 to R391): where a record goes, what it holds, and whom it interrupts. -/

namespace Sys2Proof.Machine

/-! ## Doorbells (R383, R387) -/

theorem isRing_iff {fn q : Nat} : isRing fn q = true ↔ fn ≤ 256 ∧ q < 17 := by
  rw [isRing, Bool.and_eq_true, Nat.blt_eq, Nat.blt_eq, Nat.lt_succ_iff]
theorem Qcb.ring_eq (x : Qcb) (p : W32) : x.ring p =
    if (x.pidx - x.cidx).toNat ≤ (p - x.cidx).toNat ∧ (p - x.cidx).toNat ≤ 2 ^ x.rsz then { x with pidx := p } else { x with dberr := true } :=
  if_congr (by rw [Bool.and_eq_true, Nat.ble_eq, Nat.ble_eq]) rfl rfl
theorem doorbell_of_ring {fn q : Nat} (s : State) (v : Nat) (h : fn ≤ 256 ∧ q < 17) :
    doorbell fn q v s = s.updQcb (qkey fn q) (fun x => x.ring (BitVec.ofNat 32 v)) := if_pos (isRing_iff.mpr h)
theorem doorbell_of_none {fn q : Nat} (s : State) (v : Nat) (h : ¬ (fn ≤ 256 ∧ q < 17)) : doorbell fn q v s = s := if_neg (mt isRing_iff.mp h)

/-! ## A completion record (R389 to R391) -/

/-- The place of a ring's next completion record. -/
def Qcb.place (q : Qcb) : Nat := hostPa (q.cbase + 32 * (q.cpidx.toNat % 2 ^ q.csz))
/-- The 32 bytes of a record that goes to the ring at a time. -/
def Qcb.record (q : Qcb) (tag st f r w ptime : Nat) : List Byte :=
  toBytes 2 tag ++ toBytes 1 st ++ toBytes 1 (bitOf q.cpidx.toNat q.csz).toNat ++ toBytes 4 f ++ toBytes 8 r ++ toBytes 8 w ++ toBytes 8 ptime
/-- The interrupt of a record: of an empty ring, if function fn has its vector. -/
def Qcb.interrupt (q : Qcb) (fn : Nat) : List Out :=
  if q.ccidx = q.cpidx ∧ q.vec < (if fn = 0 then 2048 else 64) then [.msix fn q.vec] else []
theorem Qcb.record_length (q : Qcb) (tag st f r w ptime : Nat) : (q.record tag st f r w ptime).length = 32 := by
  simp [Qcb.record, toBytes_length]

theorem State.qcb_of_qcbs {s t : State} (h : t.qcbs = s.qcbs) (key : Nat) : t.qcb key = s.qcb key := by rw [State.qcb, h, State.qcb]

section
variable (s : State) (key tag st f r w : Nat)

theorem State.msix_out (fn vec : Nat) : (s.msix fn vec).out = s.out ++ if vec < (if fn = 0 then 2048 else 64) then [.msix fn vec] else [] := by
  unfold State.msix
  by_cases h : vec < (if fn = 0 then 2048 else 64)
  · rw [if_pos (by simpa using h), if_pos h]; rfl
  · rw [if_neg (by simpa using h), if_neg h, List.append_nil]
/-- A posted record stands in its place, CPIDX is past it, and its interrupt has left. -/
theorem State.post_eq : s.post key tag st f r w =
    { (s.wrBytes (s.qcb key).place ((s.qcb key).record tag st f r w s.dev.ptime.toNat)).updQcb key (fun q => { q with cpidx := q.cpidx + 1 }) with
      out := s.out ++ (s.qcb key).interrupt (key / 17) } := by
  unfold State.post Qcb.interrupt
  by_cases hc : (s.qcb key).ccidx = (s.qcb key).cpidx
  · simp only [hc, beq_self_eq_true, if_true, true_and]
    rw [State.msix_eq, State.msix_out]
    rfl
  · simp only [hc, false_and, if_false, List.append_nil, beq_eq_false_iff_ne.mpr hc, Bool.false_eq_true]
    rfl
theorem State.post_qcb_self : (s.post key tag st f r w).qcb key = { s.qcb key with cpidx := (s.qcb key).cpidx + 1 } := by
  have hq : (s.post key tag st f r w).qcbs = (s.updQcb key (fun q => { q with cpidx := q.cpidx + 1 })).qcbs := by rw [State.post_eq]; rfl
  rw [State.qcb_of_qcbs hq, State.updQcb_qcb_self]
theorem State.post_mem : (s.post key tag st f r w).mem = (s.wrBytes (s.qcb key).place ((s.qcb key).record tag st f r w s.dev.ptime.toNat)).mem := by
  rw [State.post_eq]
  rfl
theorem State.post_out : (s.post key tag st f r w).out = s.out ++ (s.qcb key).interrupt (key / 17) := by
  rw [State.post_eq]

end

/-! ## The current command's end (R388, R390) -/

section
variable {s : State} {fn q : Nat}

theorem ringComplete_of_ended {tag st f r : Nat} (hb : (s.qcb (qkey fn q)).busy = some (tag, st, f, r)) (hst : st < 256) :
    ringComplete fn q s = (s.post (qkey fn q) tag st f r 0).updQcb (qkey fn q) (fun q => { q with busy := none }) := by
  unfold ringComplete
  simp only [hb, Nat.blt_eq, hst, if_true]
theorem ringComplete_of_refused {b : List Byte} {st : Nat} (hr : fn ≤ 256 ∧ q < 17) (hb : (s.qcb (qkey fn q)).busy = none)
    (hh : s.ringHead (qkey fn q) = some b) (hst : s.refusal (qkey fn q) b = some st) :
    ringComplete fn q s = (s.taken (qkey fn q) b none).post (qkey fn q) (imgFld b 2 2) st 0 0 0 := by
  unfold ringComplete
  simp only [hb, isRing_iff.mpr hr, if_true, hh, hst]

theorem ringCommandCompletion_of_ended {tag st f r : Nat} (hb : (s.qcb (qkey fn q)).busy = some (tag, st, f, r)) (hst : st < 256) :
    let x := s.qcb (qkey fn q)
    Happens (.ringCommandCompletion fn q) s (fun t => t.bytes x.place 32 = x.record tag st f r 0 s.dev.ptime.toNat ∧
      (∀ p, p < x.place ∨ x.place + 32 ≤ p → t.byte p = s.byte p) ∧ (t.qcb (qkey fn q)).cpidx = x.cpidx + 1 ∧ (t.qcb (qkey fn q)).busy = none ∧
      t.out = s.out ++ x.interrupt (qkey fn q / 17)) := by
  intro x
  have hlen := x.record_length tag st f r 0 s.dev.ptime.toNat
  have hmem : ((s.post (qkey fn q) tag st f r 0).updQcb (qkey fn q) (fun q => { q with busy := none })).mem =
      (s.wrBytes x.place (x.record tag st f r 0 s.dev.ptime.toNat)).mem := s.post_mem ..
  refine ⟨_, congrArg Host.Outcome.next (ringComplete_of_ended hb hst), ?_, fun p hp => ?_, ?_, ?_, s.post_out ..⟩
  · rw [State.bytes, hmem]
    exact hlen ▸ s.wrBytes_bytes x.place _
  · rw [State.byte, hmem]
    exact s.wrBytes_byte_outside (hlen.symm ▸ hp)
  · rw [State.updQcb_qcb_self, State.post_qcb_self]
  · rw [State.updQcb_qcb_self]
theorem ringCommandCompletion_of_refused {b : List Byte} {st : Nat} (hr : fn ≤ 256 ∧ q < 17) (hb : (s.qcb (qkey fn q)).busy = none)
    (hh : s.ringHead (qkey fn q) = some b) (hst : s.refusal (qkey fn q) b = some st) : Happens (.ringCommandCompletion fn q) s (fun t =>
      (t.qcb (qkey fn q)).cidx = (s.qcb (qkey fn q)).cidx + 1 ∧ (t.qcb (qkey fn q)).cpidx = (s.qcb (qkey fn q)).cpidx + 1 ∧
      (t.qcb (qkey fn q)).busy = none) := by
  have hq : ((s.taken (qkey fn q) b none).post (qkey fn q) (imgFld b 2 2) st 0 0 0).qcb (qkey fn q) =
      { s.qcb (qkey fn q) with cidx := (s.qcb (qkey fn q)).cidx + 1, busy := none, cpidx := (s.qcb (qkey fn q)).cpidx + 1 } := by
    rw [State.post_qcb_self, State.taken, State.updQcb_qcb_self]
    rfl
  exact ⟨_, congrArg Host.Outcome.next (ringComplete_of_refused hr hb hh hst), congrArg Qcb.cidx hq, congrArg Qcb.cpidx hq, congrArg Qcb.busy hq⟩

end

/-- Settles O55: a doorbell by whether its ring is there, a completion by whether the ring has a current command. -/
theorem hostRings : Obligations.HostRings := by
  unfold Obligations.HostRings
  intro s fn q v key x p known
  refine ⟨fun h => congrArg Host.Outcome.next (doorbell_of_none s v h), fun h => ?_, fun tag st f r => ringCommandCompletion_of_ended,
    fun b st => ringCommandCompletion_of_refused⟩
  refine congrArg Host.Outcome.next ((doorbell_of_ring s v h).trans (congrArg (s.updQcb key) ?_))
  exact funext (fun y => y.ring_eq p)

end Sys2Proof.Machine
end

section
/-! SUPPORT. Queue control (R311, R312): what stopping, saving and starting a queue leave of the queues, the vacates and the device. -/

namespace Sys2Proof.Machine

/-! ## Queues by their keys -/

theorem State.updQcb_qcb_of_ne (s : State) {k j : Nat} (f : Qcb → Qcb) (h : j ≠ k) : (s.updQcb k f).qcb j = s.qcb j := by
  simp [State.updQcb, State.qcb, mget_mput_of_ne h]
@[simp] theorem State.updQcb_vacates (s : State) (k : Nat) (f : Qcb → Qcb) : (s.updQcb k f).vacates = s.vacates := rfl
/-- A host queue of a function is none of its control ring. -/
theorem qkey_ne_control (fn : Nat) {q : Nat} (h : q < 16) : qkey fn q ≠ qkey fn 16 := by unfold qkey; omega
theorem State.taken_qcb_of_ne (s : State) {k j : Nat} (b : List Byte) (r : Option (Nat × Nat × Nat)) (h : j ≠ k) : (s.taken k b r).qcb j = s.qcb j :=
  s.updQcb_qcb_of_ne _ h

/-! ## What each operation leaves alone -/

theorem State.pushFrames_eq (s : State) (part : Nat) (l : List Nat) :
    s.pushFrames part l = { s with mem := (s.pushFrames part l).mem, parts := (s.pushFrames part l).parts } := by
  unfold State.pushFrames
  refine List.foldlRecOn _ _ (motive := fun u : State => u = { s with mem := u.mem, parts := u.parts }) rfl (fun u hu x _ => ?_)
  rw [hu]
  rfl
@[simp] theorem State.pushFrames_qcbs (s : State) (part : Nat) (l : List Nat) : (s.pushFrames part l).qcbs = s.qcbs := by rw [State.pushFrames_eq]
@[simp] theorem State.pushFrames_vacates (s : State) (part : Nat) (l : List Nat) : (s.pushFrames part l).vacates = s.vacates := by
  rw [State.pushFrames_eq]
@[simp] theorem State.pushFrames_out (s : State) (part : Nat) (l : List Nat) : (s.pushFrames part l).out = s.out := by rw [State.pushFrames_eq]
@[simp] theorem State.pushFrames_dev (s : State) (part : Nat) (l : List Nat) : (s.pushFrames part l).dev = s.dev := by rw [State.pushFrames_eq]
theorem State.popFrames_eq {s t : State} {part n : Nat} {l : List Nat} (h : s.popFrames part n = some (t, l)) : t = { s with parts := t.parts } := by
  induction n generalizing s t l with
  | zero => cases h; rfl
  | succ n ih =>
    unfold State.popFrames at h
    split at h
    · cases h
    next u a hu =>
      have he : u = { s with parts := u.parts } := by
        unfold State.popFrame at hu
        dsimp only at hu
        split at hu
        · cases hu
        · cases hu; rfl
      split at h
      · cases h
      next v m hv =>
        cases h
        rw [ih hv, he]
@[simp] theorem State.pullEntries_qcbs (s : State) (key : Nat) : (s.pullEntries key).1.qcbs = s.qcbs := by
  show (s.setRings _).qcbs = s.qcbs
  rw [State.setRings_eq]
@[simp] theorem State.pullEntries_vacates (s : State) (key : Nat) : (s.pullEntries key).1.vacates = s.vacates := by
  show (s.setRings _).vacates = s.vacates
  rw [State.setRings_eq]
@[simp] theorem State.post_vacates (s : State) (key tag st f r w : Nat) : (s.post key tag st f r w).vacates = s.vacates := by
  rw [State.post_eq]
  rfl
@[simp] theorem State.waited_vacates (s : State) (key : Nat) : (s.waited key).vacates = s.vacates := by
  unfold State.waited
  split <;> simp
@[simp] theorem State.queueSaved_vacates (s : State) (key : Nat) : (s.queueSaved key).vacates = s.vacates := by
  unfold State.queueSaved
  dsimp only
  repeat' split
  all_goals simp
/-- A pre-emption is ordered of each of the cores listed. -/
def State.orderAll (s : State) (ks : List Nat) : State := ks.foldl (fun s k => s.updCore k Core.order) s
@[simp] theorem State.orderAll_qcbs (s : State) (ks : List Nat) : (s.orderAll ks).qcbs = s.qcbs :=
  foldl_keeps (f := fun s k => s.updCore k Core.order) State.qcbs (fun _ _ => rfl) ks s
@[simp] theorem State.orderAll_vacates (s : State) (ks : List Nat) : (s.orderAll ks).vacates = s.vacates :=
  foldl_keeps (f := fun s k => s.updCore k Core.order) State.vacates (fun _ _ => rfl) ks s
/-- The queue is on its way to SAVED, with its entries in its saved list. -/
def State.listed (s : State) (key : Nat) : State :=
  ((s.pullEntries key).1.unreserve key).updQcb key (fun q => { q with qstate := 1, toSave := true, saved := q.saved ++ (s.pullEntries key).2 })
/-- The queue as it is on its way to SAVED, before it is looked whether it is there. -/
def State.saving (s : State) (key : Nat) : State := (s.listed key).orderAll ((s.listed key).runners key)
theorem State.unreserve_pullEntries_qcb (s : State) (key j : Nat) : ((s.pullEntries key).1.unreserve key).qcb j = s.qcb j :=
  State.qcb_of_qcbs (s.pullEntries_qcbs key) j
theorem State.saveQueue_eq (s : State) (key : Nat) : s.saveQueue key = (s.saving key).queueSaved key := rfl
theorem State.saving_qcb_self (s : State) (key : Nat) : (s.saving key).qcb key =
    { s.qcb key with qstate := 1, toSave := true, saved := (s.qcb key).saved ++ (s.pullEntries key).2 } := by
  rw [State.saving, State.qcb_of_qcbs (State.orderAll_qcbs ..), State.listed, State.updQcb_qcb_self, State.unreserve_pullEntries_qcb]
theorem State.saving_qcb_of_ne (s : State) {key j : Nat} (h : j ≠ key) : (s.saving key).qcb j = s.qcb j := by
  rw [State.saving, State.qcb_of_qcbs (State.orderAll_qcbs ..), State.listed, State.updQcb_qcb_of_ne _ _ h, State.unreserve_pullEntries_qcb]
@[simp] theorem State.saveQueue_vacates (s : State) (key : Nat) : (s.saveQueue key).vacates = s.vacates := by
  rw [State.saveQueue_eq, State.queueSaved_vacates, State.saving, State.orderAll_vacates, State.listed, State.updQcb_vacates]
  exact s.pullEntries_vacates key
/-- A queue whose tasks still run is not SAVED yet. -/
theorem State.saveQueue_of_running {s : State} {key : Nat} (h : (s.qcb key).runN ≠ 0) : s.saveQueue key = s.saving key := by
  rw [State.saveQueue_eq, State.queueSaved, State.saving_qcb_self]
  simp [h]

/-! ## Starting (R312, R320) -/

section
variable {s : State} {key : Nat}

/-- A queue started without a saved list: its record and its list's frames alone change. -/
theorem State.startQueue_of_unsaved (hq : (s.qcb key).qstate = 2 ∨ (s.qcb key).qstate = 3) (hs : (s.qcb key).saved = []) : s.startQueue key =
    (s.updQcb key (fun q => { q with qstate := 0, toSave := false, saved := [], lists := [] })).pushFrames ((s.fnPart (key / 17)).getD 0)
      (s.qcb key).lists := by
  unfold State.startQueue
  dsimp only
  rw [if_pos (by simpa using hq), hs]
  rfl
theorem State.startQueue_qstate (hq : (s.qcb key).qstate = 2 ∨ (s.qcb key).qstate = 3) (hs : (s.qcb key).saved = []) :
    ((s.startQueue key).qcb key).qstate = 0 := by
  rw [State.startQueue_of_unsaved hq hs, State.qcb_of_qcbs (State.pushFrames_qcbs ..), State.updQcb_qcb_self]
theorem State.startQueue_qcb_of_ne {j : Nat} (hq : (s.qcb key).qstate = 2 ∨ (s.qcb key).qstate = 3) (hs : (s.qcb key).saved = []) (hj : j ≠ key) :
    (s.startQueue key).qcb j = s.qcb j := by
  rw [State.startQueue_of_unsaved hq hs, State.qcb_of_qcbs (State.pushFrames_qcbs ..), State.updQcb_qcb_of_ne _ _ hj]
theorem State.startQueue_of_started (hq : (s.qcb key).qstate = 0 ∨ (s.qcb key).qstate = 1) : s.startQueue key = s := by
  unfold State.startQueue
  dsimp only
  rw [if_neg (by rw [Bool.or_eq_true, beq_iff_eq, beq_iff_eq]; omega)]

/-! ## Stopping (R312) -/

/-- The queue's launches are not over. -/
def State.hasLive (s : State) (key : Nat) : Prop := s.launches.any (fun e => e.2.key == key && !e.2.dropped) = true
theorem State.queueStopped_of_live (h : s.hasLive key) : s.queueStopped key = s := by
  unfold State.queueStopped
  dsimp only
  rw [if_pos]
  rw [Bool.or_eq_true]
  exact .inr h
theorem State.stopQueue_of_live (hq : (s.qcb key).qstate = 0) (hl : s.hasLive key) :
    s.stopQueue key 0 = s.updQcb key (fun q => { q with qstate := 1 }) := by
  unfold State.stopQueue
  rw [if_neg (by simp [hq]), if_pos (by decide)]
  exact State.queueStopped_of_live hl
theorem State.stopQueue_of_running (hq : (s.qcb key).qstate = 0) (hr : (s.qcb key).runN ≠ 0) : s.stopQueue key 1 = s.saving key := by
  unfold State.stopQueue
  rw [if_neg (by simp [hq]), if_neg (by decide)]
  exact State.saveQueue_of_running hr

end

section
variable {s : State} {fn q : Nat} {b : List Byte}

/-- t follows s by the start of a command that queue q of a function waits with until it has stopped, or been saved. -/
def Stopping (s t : State) (fn q tag : Nat) (save : Bool) : Prop :=
  (t.qcb (qkey fn q)).qstate = 1 ∧ (t.qcb (qkey fn q)).toSave = save ∧ (t.qcb (qkey fn q)).waiting = some tag ∧
    (t.qcb (qkey fn 16)).busy = some (tag, 256, 0, 0) ∧ (t.qcb (qkey fn 16)).cidx = (s.qcb (qkey fn 16)).cidx + 1
/-- The command that the queue waits with has been taken. -/
def State.stopTaken (s : State) (fn q : Nat) (b : List Byte) : State :=
  (s.updQcb (qkey fn q) (fun x => { x with waiting := some (imgFld b 2 2) })).taken (qkey fn 16) b (some (256, 0, 0))
theorem State.stopTaken_qcb_self (hq : q < 16) :
    (s.stopTaken fn q b).qcb (qkey fn q) = { s.qcb (qkey fn q) with waiting := some (imgFld b 2 2) } := by
  rw [State.stopTaken, State.taken_qcb_of_ne _ _ _ (qkey_ne_control fn hq), State.updQcb_qcb_self]
theorem State.stopTaken_qcb_control (hq : q < 16) : (s.stopTaken fn q b).qcb (qkey fn 16) =
    { s.qcb (qkey fn 16) with cidx := (s.qcb (qkey fn 16)).cidx + 1, busy := some (imgFld b 2 2, 256, 0, 0) } := by
  rw [State.stopTaken, State.taken, State.updQcb_qcb_self, State.updQcb_qcb_of_ne _ _ (qkey_ne_control fn hq).symm]
  rfl
theorem State.stopTaken_qcb_of_ne {j : Nat} (h : j ≠ qkey fn q) (hc : j ≠ qkey fn 16) : (s.stopTaken fn q b).qcb j = s.qcb j := by
  rw [State.stopTaken, State.taken_qcb_of_ne _ _ _ hc, State.updQcb_qcb_of_ne _ _ h]
theorem State.stopCmd_of_active {mode : Nat} {next : State → State} (h : (s.qcb (qkey fn q)).qstate = 0) :
    s.stopCmd fn q mode b next = next ((s.stopTaken fn q b).stopQueue (qkey fn q) mode) := by
  unfold State.stopCmd
  dsimp only
  rw [if_neg (by simp [h])]
  rfl
theorem State.stopCmd_of_other {mode : Nat} {next : State → State} (h : (s.qcb (qkey fn q)).qstate ≠ 0) :
    s.stopCmd fn q mode b next = s.taken (qkey fn 16) b (some (0, 0, 0)) := by
  unfold State.stopCmd
  dsimp only
  rw [if_pos (by simpa using h)]
/-- Stopping the queue starts the command's wait. -/
theorem State.stopQueue_drains (hq : q < 16) (h0 : (s.qcb (qkey fn q)).qstate = 0) (hs : (s.qcb (qkey fn q)).toSave = false) (hl : s.hasLive (qkey fn q)) :
    Stopping s ((s.stopTaken fn q b).stopQueue (qkey fn q) 0) fn q (imgFld b 2 2) false := by
  have hself := State.stopTaken_qcb_self (s := s) (fn := fn) (b := b) hq
  rw [State.stopQueue_of_live ((congrArg Qcb.qstate hself).trans h0) hl, Stopping, State.updQcb_qcb_self, hself,
    State.updQcb_qcb_of_ne _ _ (qkey_ne_control fn hq).symm, State.stopTaken_qcb_control hq]
  exact ⟨rfl, hs, rfl, rfl, rfl⟩
theorem State.stopQueue_saves (hq : q < 16) (h0 : (s.qcb (qkey fn q)).qstate = 0) (hr : (s.qcb (qkey fn q)).runN ≠ 0) :
    Stopping s ((s.stopTaken fn q b).stopQueue (qkey fn q) 1) fn q (imgFld b 2 2) true := by
  have hself := State.stopTaken_qcb_self (s := s) (fn := fn) (b := b) hq
  rw [State.stopQueue_of_running ((congrArg Qcb.qstate hself).trans h0) (fun h => hr ((congrArg Qcb.runN hself).symm.trans h)), Stopping,
    State.saving_qcb_self, hself, State.saving_qcb_of_ne _ (qkey_ne_control fn hq).symm, State.stopTaken_qcb_control hq]
  exact ⟨rfl, rfl, rfl, rfl, rfl⟩

/-! ## The commands (R311, R312) -/

theorem qstart_of_good (hg : s.goodOf fn 16 0x10 = some b) (hb : imgFld b 8 1 = q) :
    qstart fn q s = (s.startQueue (qkey fn q)).taken (qkey fn 16) b (some (0, 0, 0)) := by
  unfold qstart
  simp [hg, hb]
theorem qstop_of_good {mode : Nat} (hg : s.goodOf fn 16 0x11 = some b) (hb : imgFld b 8 1 = q) (hm : imgFld b 0xA 1 = mode) :
    qstop fn q mode s = s.stopCmd fn q mode b id := by
  unfold qstop
  simp [hg, hb, hm]
theorem qswap_of_good {r mode : Nat} (hg : s.goodOf fn 16 0x12 = some b) (hb : imgFld b 8 1 = q) (hr : imgFld b 9 1 = r) (hm : imgFld b 0xA 1 = mode)
    (hv : s.vacating fn = false) : qswap fn q r mode s =
      if (s.qcb (qkey fn r)).qstate = 2 ∨ (s.qcb (qkey fn r)).qstate = 3 then s.stopCmd fn q mode b (fun s => s.startQueue (qkey fn r))
      else s.taken (qkey fn 16) b (some (0, 0, 0)) := by
  unfold qswap
  simp [hg, hb, hr, hm, hv]

theorem qstart_happens (hq : q < 16) (hg : s.goodOf fn 16 0x10 = some b) (hb : imgFld b 8 1 = q)
    (h23 : (s.qcb (qkey fn q)).qstate = 2 ∨ (s.qcb (qkey fn q)).qstate = 3) (hs : (s.qcb (qkey fn q)).saved = []) : Happens (.qstart fn q) s (fun t =>
      (t.qcb (qkey fn q)).qstate = 0 ∧ (t.qcb (qkey fn 16)).busy = some (imgFld b 2 2, 0, 0, 0)) := by
  refine ⟨_, congrArg Host.Outcome.next (qstart_of_good hg hb), ?_, State.taken_busy ..⟩
  rw [State.taken_qcb_of_ne _ _ _ (qkey_ne_control fn hq)]
  exact State.startQueue_qstate h23 hs
/-- A swap drains one queue and starts the other in one step. -/
theorem qswap_happens {r : Nat} (hq : q < 16) (hr16 : r < 16) (hg : s.goodOf fn 16 0x12 = some b) (hb : imgFld b 8 1 = q) (hr : imgFld b 9 1 = r)
    (hm : imgFld b 0xA 1 = 0) (hv : s.vacating fn = false) (h0 : (s.qcb (qkey fn q)).qstate = 0) (hs : (s.qcb (qkey fn q)).toSave = false)
    (hl : s.hasLive (qkey fn q)) (h3 : (s.qcb (qkey fn r)).qstate = 3) (hrs : (s.qcb (qkey fn r)).saved = []) :
    Happens (.qswap fn q r 0) s (fun t => Stopping s t fn q (imgFld b 2 2) false ∧ (t.qcb (qkey fn r)).qstate = 0) := by
  have hne : qkey fn r ≠ qkey fn q := fun h => by rw [h, h0] at h3; cases h3
  have hself := State.stopTaken_qcb_self (s := s) (fn := fn) (b := b) hq
  have hstop := State.stopQueue_of_live ((congrArg Qcb.qstate hself).trans h0) hl
  have hother : ((s.stopTaken fn q b).stopQueue (qkey fn q) 0).qcb (qkey fn r) = s.qcb (qkey fn r) := by
    rw [hstop, State.updQcb_qcb_of_ne _ _ hne, State.stopTaken_qcb_of_ne hne (qkey_ne_control fn hr16)]
  have h23 := Or.inr (a := (((s.stopTaken fn q b).stopQueue (qkey fn q) 0).qcb (qkey fn r)).qstate = 2) (hother ▸ h3)
  have hsaved : (((s.stopTaken fn q b).stopQueue (qkey fn q) 0).qcb (qkey fn r)).saved = [] := hother ▸ hrs
  have hx := (qswap_of_good hg hb hr hm hv).trans ((if_pos (.inr h3)).trans (State.stopCmd_of_active h0))
  refine ⟨_, congrArg Host.Outcome.next hx, ?_, State.startQueue_qstate h23 hsaved⟩
  rw [Stopping, State.startQueue_qcb_of_ne h23 hsaved hne.symm, State.startQueue_qcb_of_ne h23 hsaved (qkey_ne_control fn hr16).symm]
  exact State.stopQueue_drains hq h0 hs hl

end

/-- Settles O57: each command by the state of its queue, whose stop begins a wait. -/
theorem queueControl : Obligations.QueueControl := by
  unfold Obligations.QueueControl
  intro s fn q r b hq hr key ctl tag live waits
  refine ⟨fun hg hb => ⟨fun h23 hs => qstart_happens hq hg hb h23 hs, fun h01 => ?_⟩, fun hg hb hm => ⟨fun h0 hs hl => ?_, fun h => ?_⟩,
    fun hg hb hm => ⟨fun h0 hrun => ?_, fun h => ?_⟩, fun hg hb hr' hm hv => ⟨fun h0 hs hl h3 hrs => ?_, fun h01 => ?_⟩⟩
  · exact congrArg Host.Outcome.next ((qstart_of_good hg hb).trans (by rw [State.startQueue_of_started h01]))
  · exact ⟨_, congrArg Host.Outcome.next ((qstop_of_good hg hb hm).trans (State.stopCmd_of_active h0)), State.stopQueue_drains hq h0 hs hl⟩
  · exact congrArg Host.Outcome.next ((qstop_of_good hg hb hm).trans (State.stopCmd_of_other h))
  · exact ⟨_, congrArg Host.Outcome.next ((qstop_of_good hg hb hm).trans (State.stopCmd_of_active h0)), State.stopQueue_saves hq h0 hrun⟩
  · exact congrArg Host.Outcome.next ((qstop_of_good hg hb hm).trans (State.stopCmd_of_other h))
  · exact qswap_happens hq hr hg hb hr' hm hv h0 hs hl h3 hrs
  · exact congrArg Host.Outcome.next ((qswap_of_good hg hb hr' hm hv).trans (if_neg (by omega)))

end Sys2Proof.Machine
end

section
/-! SUPPORT. Vacates: posting, the evaluation of a queue that runs on, vacancy and RESUME (R313 to R323). -/

namespace Sys2Proof.Machine

/-! ## Posting (R314, R317, R318) -/

section
variable {s : State} {kind id qm dl drop part : Nat}

/-- The plan of a vacate before any choice. -/
def State.openPlan (s : State) (kind id qm dl part : Nat) : Plan :=
  ⟨kind, part, dl, (s.targetQueues kind id qm).map (fun k => (k, 3)), [], s.targetQueues kind id qm⟩
/-- The vacate of Omfin that a plan becomes. -/
def State.planned (s : State) (p : Plan) (kind id qm dl part drop : Nat) (fs : List Nat) : Vacate :=
  { kind := kind, id := id, qmask := qm, part := part, deadline := dl, drop := drop == 1, tag := none,
    queues := p.queues.map (fun x => (x.1, x.2, (s.qcb x.1).snapshot)), frames := fs, lists := [], clusters := (s.part part).clusters.length,
    done := false, next := s.dev.ptime.toNat + 2000 }

theorem State.postVacate_of_none (ht : s.targetPart kind id = none) : s.postVacate 1 kind id qm dl (drop == 1) none = .error (7, 0) := by
  unfold State.postVacate
  simp only [ht]
theorem State.postVacate_of_barred (ht : s.targetPart kind id = some part) (hm : s.mayPost part 1 = false) :
    s.postVacate 1 kind id qm dl (drop == 1) none = .error (0x33, 0) := by
  unfold State.postVacate
  simp only [ht, hm, Bool.not_false, if_true]
theorem State.postVacate_of_pending (ht : s.targetPart kind id = some part) (hm : s.mayPost part 1 = true)
    (hp : s.vacates.any (fun x => x.part == part && !x.done) = true) : s.postVacate 1 kind id qm dl (drop == 1) none = .error (0x13, 0) := by
  unfold State.postVacate
  simp only [ht, hm, hp, Bool.not_true, Bool.false_eq_true, if_false, if_true]
theorem State.postVacate_of_refused {e : Nat × Nat} (ht : s.targetPart kind id = some part) (hm : s.mayPost part 1 = true)
    (hp : s.vacates.any (fun x => x.part == part && !x.done) = false)
    (hc : s.choose (s.targetQueues kind id qm) (s.openPlan kind id qm dl part) = .error e) :
    s.postVacate 1 kind id qm dl (drop == 1) none = .error e := by
  unfold State.openPlan at hc
  unfold State.postVacate
  simp only [ht, hm, hp, hc, Bool.not_true, Bool.false_eq_true, if_false]
theorem State.postVacate_of_chosen {p : Plan} {u : State} {fs : List Nat} (ht : s.targetPart kind id = some part) (hm : s.mayPost part 1 = true)
    (hp : s.vacates.any (fun x => x.part == part && !x.done) = false)
    (hc : s.choose (s.targetQueues kind id qm) (s.openPlan kind id qm dl part) = .ok p)
    (hf : s.popFrames part (s.planFrames p.queues) = some (u, fs)) : s.postVacate 1 kind id qm dl (drop == 1) none =
      .ok (p.queues.foldl (fun w x => w.applyChoice x.1 x.2 (drop == 1))
        { u with vacates := u.vacates ++ [s.planned p kind id qm dl part drop fs] }.holdLower) := by
  unfold State.openPlan at hc
  unfold State.postVacate
  simp only [ht, hm, hp, hc, hf, Bool.not_true, Bool.false_eq_true, if_false]
  rfl
theorem vacate_of_refused {st q : Nat} (h : s.postVacate 1 kind id qm dl (drop == 1) none = .error (st, q)) :
    vacate 1 kind id qm dl drop s = s.emit (.mctp 0x13 [st, q, 0, s.dev.ptime.toNat]) := by
  unfold vacate
  rw [if_neg (by decide), h]
  rfl
theorem vacate_of_posted {t : State} (h : s.postVacate 1 kind id qm dl (drop == 1) none = .ok t) : vacate 1 kind id qm dl drop s = t := by
  unfold vacate
  rw [if_neg (by decide), h]
theorem State.holdLower_of_lower (hb : s.dev.opbusy = true) (hl : fld s.dev.opreq.toNat 16 16 < s.dev.opcur.1) :
    s.holdLower = { s with dev := { s.dev with ophold := true, opbusy := false } } :=
  if_pos (by rw [hb, Bool.true_and, Nat.blt_eq]; exact hl)

end

/-! ## A pending vacate -/

theorem map_modNth {α β : Type} {f : α → α} {g : α → β} (h : ∀ x, g (f x) = g x) (l : List α) (n : Nat) : (modNth l n f).map g = l.map g := by
  induction l generalizing n with
  | nil => rfl
  | cons a t ih =>
    cases n with
    | zero => simp [modNth, h]
    | succ n => simp [modNth, ih n]

section
variable {s : State} {n key st : Nat} {v : Vacate}

theorem State.pendingVacate_of_getElem? (hv : s.vacates[n]? = some v) (hd : v.done = false) : s.pendingVacate n = some v := by
  simp [State.pendingVacate, drop_of_getElem? hv, hd]
theorem State.getElem?_of_pendingVacate (h : s.pendingVacate n = some v) : s.vacates[n]? = some v := by
  unfold State.pendingVacate at h
  split at h
  next w t ht =>
    split at h
    · cases h
    · cases h
      rw [← List.head?_drop, ht]
      rfl
  · cases h

/-! ## Evaluation (R318) -/

/-- The vacate's next evaluation is 2,000 ns on. -/
def State.rescheduled (s : State) (n : Nat) : State := s.updVacate n (fun x => { x with next := x.next + 2000 })
theorem State.rescheduled_pendingVacate (hv : s.vacates[n]? = some v) (hd : v.done = false) :
    (s.rescheduled n).pendingVacate n = some { v with next := v.next + 2000 } := by
  refine State.pendingVacate_of_getElem? ?_ hd
  rw [State.rescheduled, State.updVacate, modNth_getElem?, hv]
  rfl
/-- Frames are cleared for a partition target alone (R310). -/
theorem State.clearTarget_of_kind (s : State) (hk : v.kind ≠ 0) : s.clearTarget v = s := by
  unfold State.clearTarget
  rw [if_pos (by simp [hk])]
/-- A vacate that a moved queue belongs to keeps its kind. -/
theorem State.moveDown_kinds (s : State) (n key : Nat) (drop : Bool) :
    (s.moveDown n key 1 drop).vacates.map Vacate.kind = s.vacates.map Vacate.kind := by
  unfold State.moveDown
  split
  · rfl
  · rw [if_pos (by decide)]
    split
    · rfl
    next u fs hu =>
      have huv : u.vacates = s.vacates := by rw [State.popFrames_eq hu]
      rw [State.applyChoice, State.saveQueue_vacates, State.updVacate]
      refine (map_modNth ?_ u.vacates n).trans (congrArg _ huv)
      exact fun _ => rfl
theorem State.moveDown_kind {w : Vacate} {drop : Bool} (hv : s.vacates[n]? = some v) (hw : (s.moveDown n key 1 drop).pendingVacate n = some w) :
    w.kind = v.kind := by
  have h : ((s.moveDown n key 1 drop).vacates.map Vacate.kind)[n]? = (s.vacates.map Vacate.kind)[n]? := by rw [s.moveDown_kinds n key drop]
  rw [List.getElem?_map, List.getElem?_map, State.getElem?_of_pendingVacate hw, hv] at h
  exact Option.some.inj h
theorem sageEvaluation_of_early (hv : s.vacates[n]? = some v) (hd : v.done = false) (hk : v.kind ≠ 0) (ht : s.dev.ptime.toNat < v.next) :
    sageEvaluation n s = s := by
  unfold sageEvaluation
  rw [State.pendingVacate_of_getElem? hv hd]
  dsimp only
  rw [if_neg (by rw [Nat.ble_eq]; omega), State.pendingVacate_of_getElem? hv hd]
  exact s.clearTarget_of_kind hk
theorem sageEvaluation_of_due (hv : s.vacates[n]? = some v) (hd : v.done = false) (hq : v.queues = [(key, 0, st)])
    (ht : v.next ≤ s.dev.ptime.toNat) : sageEvaluation n s =
      ((s.rescheduled n).evalQueue n (key, 0, st)).clearTarget ((((s.rescheduled n).evalQueue n (key, 0, st)).pendingVacate n).getD v) := by
  unfold sageEvaluation
  rw [State.pendingVacate_of_getElem? hv hd]
  dsimp only
  rw [if_pos (Nat.ble_eq.mpr ht), hq]
  rfl
theorem State.evalQueue_of_fitting {u : State} (hp : u.pendingVacate n = some v) (hr : u.runFits v.plan key = true)
    (hf : u.fits (v.plan.with key 1) 2000 = true) : u.evalQueue n (key, 0, st) = u := by
  unfold State.evalQueue
  rw [hp]
  dsimp only
  exact if_pos (by rw [hr, hf]; rfl)
theorem State.evalQueue_of_late {u : State} (hp : u.pendingVacate n = some v) (hr : u.runFits v.plan key = false) (hc : (u.qcb key).disc = false) :
    u.evalQueue n (key, 0, st) = u.moveDown n key 1 v.drop := by
  unfold State.evalQueue
  rw [hp]
  dsimp only
  exact (if_neg (by simp [hr])).trans (if_neg (by simp [hc]))

theorem sageEvaluation_of_fitting (hv : s.vacates[n]? = some v) (hd : v.done = false) (hk : v.kind ≠ 0) (hq : v.queues = [(key, 0, st)])
    (ht : v.next ≤ s.dev.ptime.toNat) (hr : (s.rescheduled n).runFits v.plan key = true)
    (hf : (s.rescheduled n).fits (v.plan.with key 1) 2000 = true) : sageEvaluation n s = s.rescheduled n := by
  have hp := State.rescheduled_pendingVacate hv hd
  rw [sageEvaluation_of_due hv hd hq ht, State.evalQueue_of_fitting hp hr hf, hp]
  exact State.clearTarget_of_kind _ hk
theorem sageEvaluation_of_late (hv : s.vacates[n]? = some v) (hd : v.done = false) (hk : v.kind ≠ 0) (hq : v.queues = [(key, 0, st)])
    (ht : v.next ≤ s.dev.ptime.toNat) (hr : (s.rescheduled n).runFits v.plan key = false) (hc : (s.qcb key).disc = false) :
    sageEvaluation n s = (s.rescheduled n).moveDown n key 1 v.drop := by
  have hp := State.rescheduled_pendingVacate hv hd
  rw [sageEvaluation_of_due hv hd hq ht, State.evalQueue_of_late hp hr hc]
  refine State.clearTarget_of_kind _ ?_
  cases hw : ((s.rescheduled n).moveDown n key 1 v.drop).pendingVacate n with
  | none => exact hk
  | some w => exact fun h => hk ((State.moveDown_kind (State.getElem?_of_pendingVacate hp) hw).symm.trans h)

/-! ## Vacancy (R320, R322) -/

theorem vacancy_of_occupied (hv : s.vacates[n]? = some v) (hd : v.done = false) (ho : s.vacant v = false) : vacancy n s = s := by
  unfold vacancy
  rw [State.pendingVacate_of_getElem? hv hd]
  dsimp only
  rw [ho]
  rfl
/-- A queue that ran to its end has no list to write. -/
theorem State.writeLists_of_run (s : State) (hq : v.queues = [(key, 0, st)]) : s.writeLists n v = s := by
  unfold State.writeLists
  rw [hq]
  rfl
/-- The vacate is over and its frames are back. -/
def State.vacatedOf (s : State) (n : Nat) (v : Vacate) : State :=
  (s.pushFrames v.part v.frames).updVacate n (fun v => { v with frames := [], done := true })
theorem State.releaseHeld_eq (s : State) : s.releaseHeld =
    { s with dev := { s.dev with ophold := s.releaseHeld.dev.ophold, opbusy := s.releaseHeld.dev.opbusy } } := by
  unfold State.releaseHeld
  split <;> rfl
theorem vacancy_of_vacant (hv : s.vacates[n]? = some v) (hd : v.done = false) (ho : s.vacant v = true) (ht : v.tag = none)
    (hq : v.queues = [(key, 0, st)]) : vacancy n s = (s.vacatedOf n v).releaseHeld.tellOmfin 0x13 0 0 v.outcome := by
  unfold vacancy
  rw [State.pendingVacate_of_getElem? hv hd]
  dsimp only
  rw [ho, s.writeLists_of_run hq, drop_of_getElem? hv, ht]
  rfl
theorem vacancy_happens (hv : s.vacates[n]? = some v) (hd : v.done = false) (ho : s.vacant v = true) (ht : v.tag = none)
    (hq : v.queues = [(key, 0, st)]) : Happens (.vacancy n) s (fun t =>
      t.out = s.out ++ [.mctp 0x13 [0, 0, v.outcome, s.dev.ptime.toNat]] ∧ (t.vacates[n]?).map (fun x => x.done) = some true) := by
  refine ⟨_, congrArg Host.Outcome.next (vacancy_of_vacant hv hd ho ht hq), ?_, ?_⟩
  · rw [State.tellOmfin, State.releaseHeld_eq]
    show (s.pushFrames _ _).out ++ [.mctp 0x13 [0, 0, v.outcome, (s.pushFrames v.part v.frames).dev.ptime.toNat]] = _
    rw [State.pushFrames_out, State.pushFrames_dev]
  · rw [State.tellOmfin, State.releaseHeld_eq]
    show ((modNth (s.pushFrames _ _).vacates n _)[n]?).map _ = _
    rw [State.pushFrames_vacates, modNth_getElem?, hv]
    rfl

/-! ## RESUME (R313, R323) -/

theorem State.queueStopped_of_qstate (h : (s.qcb key).qstate ≠ 1) : s.queueStopped key = s := by
  unfold State.queueStopped
  dsimp only
  rw [if_pos (by simp [h])]
/-- A queue without a saved list returns to a state other than SAVED. -/
def State.restored (s : State) (part key st : Nat) : State :=
  (s.updQcb key (fun x => { x with qstate := st, toSave := false, saved := [], lists := [] })).pushFrames part (s.qcb key).lists
theorem State.restored_qcb_self (s : State) (part key st : Nat) :
    (s.restored part key st).qcb key = { s.qcb key with qstate := st, toSave := false, saved := [], lists := [] } := by
  rw [State.restored, State.qcb_of_qcbs (State.pushFrames_qcbs ..), State.updQcb_qcb_self]
theorem State.restoreQueue_of_unsaved (hst : st = 0 ∨ st = 3) (hs : (s.qcb key).saved = []) (hl : v.lists = []) (c : Nat) :
    s.restoreQueue v (key, c, st) = s.restored v.part key st := by
  have h1 : ((s.restored v.part key st).qcb key).qstate ≠ 1 := by
    rw [State.restored_qcb_self]
    show st ≠ 1
    omega
  unfold State.restoreQueue
  dsimp only
  rw [if_neg (by rw [beq_iff_eq]; omega), hs, hl, ← State.queueStopped_of_qstate h1]
  simp only [List.filter_nil, List.map_nil, List.append_nil, List.foldl_nil]
  rfl
variable {kind id qm part : Nat}
theorem resume_of_unvacated (ht : s.targetPart kind id = some part) (hm : s.mayPost part 1 = true) (hv : s.vacated kind id qm = none) :
    resume 1 kind id qm s = s.tellOmfin 0x14 6 0 0 := by
  unfold resume State.doResume
  rw [if_neg (by decide), ht]
  dsimp only
  rw [hm, hv]
  rfl
theorem resume_of_vacated (ht : s.targetPart kind id = some part) (hm : s.mayPost part 1 = true) (hv : s.vacated kind id qm = some (n, v))
    (hk : kind ≠ 0) : resume 1 kind id qm s = (s.resumeTarget n v).tellOmfin 0x14 0 0 0 := by
  unfold resume State.doResume
  rw [if_neg (by decide), ht]
  dsimp only
  rw [hm, hv]
  simp [hk]
theorem resume_happens (ht : s.targetPart kind id = some part) (hm : s.mayPost part 1 = true) (hv : s.vacated kind id qm = some (n, v))
    (hk : kind ≠ 0) (hq : v.queues = [(key, 0, st)]) (hst : st = 0 ∨ st = 3) (hs : (s.qcb key).saved = []) (hl : v.lists = []) :
    Happens (.resume 1 kind id qm) s (fun t => (t.qcb key).qstate = st ∧ t.vacates = dropNth s.vacates n ∧
      t.out = s.out ++ [.mctp 0x14 [0, 0, 0, s.dev.ptime.toNat]]) := by
  let u : State := { s with vacates := dropNth s.vacates n }
  have hr : v.queues.foldl (fun s q => s.restoreQueue v q) u = u.restored v.part key st := by
    rw [hq]
    exact State.restoreQueue_of_unsaved (s := u) hst hs hl 0
  refine ⟨_, congrArg Host.Outcome.next (resume_of_vacated ht hm hv hk), ?_⟩
  unfold State.resumeTarget
  dsimp only
  rw [hr]
  refine ⟨congrArg Qcb.qstate (u.restored_qcb_self v.part key st), State.pushFrames_vacates .., ?_⟩
  show (State.pushFrames _ _ _).out ++ [.mctp 0x14 [0, 0, 0, (State.pushFrames (u.updQcb key _) _ _).dev.ptime.toNat]] = _
  rw [State.pushFrames_out, State.pushFrames_dev]
  rfl

end

/-- Settles O58: a post by its checks, an evaluation by its queue's bound, a vacancy and a resumption of a queue that ran to its end. -/
theorem vacates : Obligations.Vacates := by
  unfold Obligations.Vacates
  intro s n kind id qm dl drop part key st v tells post keys want
  refine ⟨fun ht => ?_, fun ht hm => ?_, fun ht hm hp => ?_, fun ht hm hp => ⟨fun e hc => ?_, fun p u fs hc hf => ?_, State.holdLower_of_lower⟩,
    fun hv hd hk hq => ⟨fun ht => ?_, fun ht hr hf => ?_, fun ht hr hc => ?_⟩, fun hv hd => ⟨fun ho => ?_, vacancy_happens hv hd⟩,
    fun ht hm hv => ?_, resume_happens⟩
  · exact congrArg Host.Outcome.next (vacate_of_refused (State.postVacate_of_none ht))
  · exact congrArg Host.Outcome.next (vacate_of_refused (State.postVacate_of_barred ht hm))
  · exact congrArg Host.Outcome.next (vacate_of_refused (State.postVacate_of_pending ht hm hp))
  · exact congrArg Host.Outcome.next (vacate_of_refused (State.postVacate_of_refused ht hm hp hc))
  · exact congrArg Host.Outcome.next (vacate_of_posted (State.postVacate_of_chosen ht hm hp hc hf))
  · exact congrArg Host.Outcome.next (sageEvaluation_of_early hv hd hk ht)
  · exact congrArg Host.Outcome.next (sageEvaluation_of_fitting hv hd hk hq ht hr hf)
  · exact congrArg Host.Outcome.next (sageEvaluation_of_late hv hd hk hq ht hr hc)
  · exact congrArg Host.Outcome.next (vacancy_of_occupied hv hd ho)
  · exact congrArg Host.Outcome.next (resume_of_unvacated ht hm hv)

end Sys2Proof.Machine
end

section
/-! SUPPORT. Page requests answered, cached translations dropped, and generation bumps asked for, applied and held (R301, R302, R359, R360, R385). -/

namespace Sys2Proof.Machine

/-! ## Page requests (R301, R302) -/

section
variable {s : State} {fn v n : Nat} {e : Prq}

theorem State.answerPage_of_ok (s : State) (e : Prq) : s.answerPage e true = { s with prq := s.prq.filter (fun x => x.ix != e.ix) } := rfl
theorem prqresp_of_ok (hv : bitOf v 12 = true) (he : s.prq.find? (fun x => x.ix == v % 4096) = some e) (hf : fn = 0 ∨ s.fnPart fn = some e.part) :
    prqresp fn v s = { s with prq := s.prq.filter (fun x => x.ix != e.ix) } := by
  have hc : (fn == 0 || s.fnPart fn == some e.part) = true := by simpa using hf
  have he' : s.prq.find? (fun x => x.ix == fld v 0 12) = some e := by rw [fld_low]; exact he
  unfold prqresp
  rw [he']
  dsimp only
  rw [if_pos hc, hv, State.answerPage_of_ok]
theorem priResponse_of_ok {h : Nat} (he : s.prq.find? (fun x => x.ix == n) = some e) (hh : s.hostPage e.part e.stage e.page = some h) :
    priResponse n 1 s =
      { s with prq := s.prq.filter (fun x => x.ix != e.ix), absent := s.absent.filter (fun x => x != (e.part, h)) } := by
  unfold priResponse
  rw [he]
  dsimp only
  rw [hh]
  rfl

/-! ## Cached translations (R360) -/

/-- The state without the cached translations of a guest page that end in host memory. -/
def State.uncached (s : State) (part page : Nat) : State :=
  { s with xlats := s.xlats.filter (fun x => !(x.part == part && x.page == page && paKind (x.target * 65536) == .host)) }
theorem State.mem_uncached {x : Xl} {part page : Nat} :
    x ∈ (s.uncached part page).xlats ↔ x ∈ s.xlats ∧ ¬ (x.part = part ∧ x.page = page ∧ paKind (x.target * 65536) = .host) := by
  simp only [State.uncached, List.mem_filter, Bool.not_eq_true', Bool.eq_false_iff, ne_eq, Bool.and_eq_true, beq_iff_eq, and_assoc]
/-- Beside them, an invalidation changes the host pages given and the free values alone. -/
theorem atsInvalidation_eq (s : State) (part page : Nat) : atsInvalidation part page s =
    { s.uncached part page with absent := (atsInvalidation part page s).absent, freeCtr := (atsInvalidation part page s).freeCtr } := by
  unfold atsInvalidation
  dsimp only
  split
  · rfl
  · split <;> rfl
theorem atsInvalidation_happens (s : State) (part page : Nat) : Happens (.atsInvalidation part page) s (fun t =>
    t = { s with xlats := t.xlats, absent := t.absent, freeCtr := t.freeCtr } ∧
    ∀ x, x ∈ t.xlats ↔ x ∈ s.xlats ∧ ¬ (x.part = part ∧ x.page = page ∧ paKind (x.target * 65536) = .host)) := by
  refine ⟨atsInvalidation part page s, rfl, ?_, fun x => ?_⟩
  · rw [atsInvalidation_eq]
    rfl
  · rw [atsInvalidation_eq]
    exact State.mem_uncached

/-! ## Bumps asked for (R385) -/

/-- A bit that has been set in a register is set. -/
theorem bitOf_setFld_one {x i w : Nat} (h : i < w) : bitOf (BitVec.ofNat w (setFld x i 1 1)).toNat i = true := by
  rw [bitOf_toNat, BitVec.getLsbD_ofNat, setFld_testBit, if_pos ⟨le_refl i, Nat.lt_succ_self i⟩, Nat.sub_self]
  simp [h]
theorem State.setGenres_mem (s : State) (fn v : Nat) : (s.setGenres fn v).mem = s.mem := rfl
theorem State.setGenres_bumps (s : State) (fn v : Nat) : (s.setGenres fn v).bumps = s.bumps := rfl
theorem State.setGenres_genres (s : State) (fn v : Nat) : (s.setGenres fn v).genres fn = (BitVec.ofNat 32 v).toNat := by
  show (mget (mput s.dev.genres fn (BitVec.ofNat 32 v)) fn 0).toNat = _
  rw [mget_mput_self]
/-- The function has a right to a bump of the stage and size. -/
def State.mayBump (s : State) (fn v : Nat) : Prop :=
  fld v 0 2 ≠ 3 ∧ (fn = 0 ↔ 1 + fld v 2 1 = 2) ∧ (fn ≠ 0 → (s.fnPart fn).isSome = true)
theorem State.mayBump_iff : (fld v 0 2 == 3 || (fn == 0) != (1 + fld v 2 1 == 2) || (fn != 0 && (s.fnPart fn).isNone)) = false ↔ s.mayBump fn v := by
  unfold State.mayBump
  by_cases hf : fn = 0 <;> cases hp : s.fnPart fn <;> simp [hf]
/-- The bump that a write of v asks for. -/
def Bump.asked (fn v : Nat) : Bump := ⟨fn, 1 + fld v 2 1, fld v 0 2, fld v 16 40 * 65536, false⟩
theorem genbump_of_room (h : s.mayBump fn v) (hm : (s.bumps.filter (fun x => x.fn == fn)).length < 5) :
    genbump fn v s = { s with bumps := s.bumps ++ [Bump.asked fn v] }.setGenres fn (setFld (s.genres fn) 31 1 1) := by
  unfold genbump
  dsimp only
  rw [State.mayBump_iff.mpr h, if_neg Bool.false_ne_true, if_neg (by rw [Nat.ble_eq]; omega)]
  rfl
theorem genbump_of_full (h : s.mayBump fn v) (hm : 5 ≤ (s.bumps.filter (fun x => x.fn == fn)).length) :
    genbump fn v s = s.setGenres fn (setFld (s.genres fn) 30 1 1) := by
  unfold genbump
  dsimp only
  rw [State.mayBump_iff.mpr h, if_neg Bool.false_ne_true, if_pos (Nat.ble_eq.mpr hm)]
theorem genbump_queues (h : s.mayBump fn v) (hm : (s.bumps.filter (fun x => x.fn == fn)).length < 5) : Happens (.genbump fn v) s (fun t =>
    t.bumps = s.bumps ++ [Bump.asked fn v] ∧ bitOf (t.genres fn) 31 = true) := by
  refine ⟨_, congrArg Host.Outcome.next (genbump_of_room h hm), rfl, ?_⟩
  rw [State.setGenres_genres]
  exact bitOf_setFld_one (by decide)
theorem genbump_drops (h : s.mayBump fn v) (hm : 5 ≤ (s.bumps.filter (fun x => x.fn == fn)).length) :
    Happens (.genbump fn v) s (fun t => t.bumps = s.bumps ∧ bitOf (t.genres fn) 30 = true) := by
  refine ⟨_, congrArg Host.Outcome.next (genbump_of_full h hm), rfl, ?_⟩
  rw [State.setGenres_genres]
  exact bitOf_setFld_one (by decide)

end

/-! ## Bumps applied and held (R358, R359) -/

theorem State.rebindCore_eq (s : State) (pages : List Nat) (k : Nat) : s.rebindCore pages k = { s with cores := (s.rebindCore pages k).cores } := rfl
theorem State.rebindMsg_eq (s : State) (pages : List Nat) (n : Nat) :
    s.rebindMsg pages n = { s with cores := (s.rebindMsg pages n).cores, msgs := (s.rebindMsg pages n).msgs } := by
  unfold State.rebindMsg
  repeat' split
  all_goals rfl
/-- What is walked again is in the cores' ports and in messages. -/
theorem State.rebindAll_eq (s : State) (pages : List Nat) :
    s.rebindAll pages = { s with cores := (s.rebindAll pages).cores, msgs := (s.rebindAll pages).msgs } := by
  unfold State.rebindAll
  refine List.foldrRecOn _ _ (motive := fun u : State => u = { s with cores := u.cores, msgs := u.msgs }) ?_ (fun u hu n _ => ?_)
  · refine List.foldlRecOn _ _ (motive := fun u : State => u = { s with cores := u.cores, msgs := u.msgs }) rfl (fun u hu e _ => ?_)
    rw [State.rebindCore_eq, hu]
  · rw [State.rebindMsg_eq, hu]
theorem State.rebindAll_mem (s : State) (pages : List Nat) : (s.rebindAll pages).mem = s.mem := by rw [State.rebindAll_eq]
theorem State.rebindAll_bumps (s : State) (pages : List Nat) : (s.rebindAll pages).bumps = s.bumps := by rw [State.rebindAll_eq]

section
variable {s : State} {n page : Nat} {b : Bump}

theorem State.leavesOf_of_mem {t : State} (h : t.mem = s.mem) (levels : List (Nat × Nat × Bool × Bool)) (base : Nat) :
    t.leavesOf levels base = s.leavesOf levels base := by
  induction levels generalizing base with
  | nil => rfl
  | cons l rest ih =>
    have hr (a : Nat) : t.rdMem a 8 = s.rdMem a 8 := by rw [State.rdMem, State.bytes, h]; rfl
    unfold State.leavesOf
    simp only [h, hr, ih]
theorem State.genPlaced_of {t : State} (hm : t.mem = s.mem) (hp : t.parts = s.parts) (hd : t.dev = s.dev) : t.genPlaced = s.genPlaced := by
  simp only [State.genPlaced, State.tablePlaced, State.leavesOf_of_mem hm, hp, hd]
theorem State.genOf_eq (hp : s.genPlaced = true) (stage page : Nat) :
    s.genOf stage page = s.rdMem (s.dev.genbase + 2 * page + (stage - 1)) 1 := by
  rw [State.genOf, State.genByte, if_pos hp, Nat.add_assoc]
  exact (Nat.mul_zero 256 ▸ Nat.add_zero _).symm
/-- The generation byte at an address written, where the table lies as it must. -/
def State.setGen (s : State) (a v : Nat) : State := if s.genPlaced then s.wrMem a 1 v else s
theorem State.setGen_mem (hp : s.genPlaced = true) (a v : Nat) : (s.setGen a v).mem = (s.wrMem a 1 v).mem := by rw [State.setGen, if_pos hp]
theorem State.setGen_bumps (s : State) (a v : Nat) : (s.setGen a v).bumps = s.bumps := by
  unfold State.setGen
  generalize s.genPlaced = placed
  cases placed <;> rfl
/-- s with the generations h that were held last. -/
def State.withHist (s : State) (h : List (Nat × Nat × Nat)) : State := { s with hist := h }
theorem State.withHist_mem (s : State) (h : List (Nat × Nat × Nat)) : (s.withHist h).mem = s.mem := rfl
theorem State.withHist_bumps (s : State) (h : List (Nat × Nat × Nat)) : (s.withHist h).bumps = s.bumps := rfl
/-- A bump of a page writes its generation, and notes when the old one was held last. -/
theorem State.bumpPage_eq (s : State) (stage page : Nat) : ∃ h, s.bumpPage stage page =
    (s.setGen (s.dev.genbase + 2 * page + (stage - 1)) ((s.genOf stage page + 1) % 256)).withHist h :=
  ⟨_, rfl⟩
theorem State.bumpPage_mem (hp : s.genPlaced = true) (stage page : Nat) : (s.bumpPage stage page).mem =
    (s.wrMem (s.dev.genbase + 2 * page + (stage - 1)) 1 ((s.rdMem (s.dev.genbase + 2 * page + (stage - 1)) 1 + 1) % 256)).mem := by
  obtain ⟨h, hx⟩ := s.bumpPage_eq stage page
  rw [hx, ← State.genOf_eq hp, State.withHist_mem, State.setGen_mem hp]
theorem State.bumpPage_bumps (s : State) (stage page : Nat) : (s.bumpPage stage page).bumps = s.bumps := by
  obtain ⟨h, hx⟩ := s.bumpPage_eq stage page
  rw [hx, State.withHist_bumps, State.setGen_bumps]
theorem State.applyBump_eq (s : State) (n : Nat) (b : Bump) : ∃ v, s.applyBump n b =
    (((s.bumpPages b).foldl (fun (u : State) p => u.bumpPage b.stage p) { s with bumps := dropNth s.bumps n }).rebindAll (s.bumpPages b)).setGenres b.fn v :=
  ⟨_, rfl⟩
/-- Memory and the bumps that wait, as a bump of one page leaves them. -/
theorem State.applyBump_of_page (hp : s.genPlaced = true) (hb : s.bumpPages b = [page]) :
    let a := s.dev.genbase + 2 * page + (b.stage - 1)
    (s.applyBump n b).mem = (s.wrMem a 1 ((s.rdMem a 1 + 1) % 256)).mem ∧ (s.applyBump n b).bumps = dropNth s.bumps n := by
  intro a
  have hu : State.genPlaced { s with bumps := dropNth s.bumps n } = true := (State.genPlaced_of rfl rfl rfl).trans hp
  obtain ⟨v, hx⟩ := s.applyBump_eq n b
  rw [hx, State.setGenres_mem, State.setGenres_bumps, State.rebindAll_mem, State.rebindAll_bumps, hb, List.foldl_cons, List.foldl_nil,
    State.bumpPage_bumps, State.bumpPage_mem hu]
  exact ⟨rfl, rfl⟩
theorem State.applyBump_bumps (hp : s.genPlaced = true) (hb : s.bumpPages b = [page]) :
    let a := s.dev.genbase + 2 * page + (b.stage - 1)
    (s.applyBump n b).rdMem a 1 = (s.rdMem a 1 + 1) % 256 ∧ (∀ x, x ≠ a → (s.applyBump n b).byte x = s.byte x) ∧
      (s.applyBump n b).bumps = dropNth s.bumps n := by
  intro a
  obtain ⟨hmem, hbumps⟩ := State.applyBump_of_page (n := n) hp hb
  refine ⟨?_, fun x hx => ?_, hbumps⟩
  · rw [State.rdMem, State.bytes, hmem]
    exact (s.wrMem_rdMem a 1 _).trans (Nat.mod_mod _ 256)
  · rw [State.byte, hmem]
    exact s.wrMem_byte_outside _ (by omega)

theorem bumpComplete_of_held (hf : s.firstBump n = some b) (hb : s.bumpPages b = [page]) (hh : s.heldGen b.stage page = true) :
    bumpComplete n s = { s with bumps := modNth s.bumps n (fun x => { x with held := true }) } := by
  unfold bumpComplete
  simp [hf, hb, hh]
theorem bumpHold_of_held (hf : s.firstBump n = some b) (hb : s.bumpPages b = [page]) (hh : s.heldGen b.stage page = true) : bumpHold n s = s := by
  unfold bumpHold
  simp [hf, hb, hh]
theorem bumpComplete_of_free (hf : s.firstBump n = some b) (hb : s.bumpPages b = [page]) (hh : s.heldGen b.stage page = false)
    (hn : b.held = false) : bumpComplete n s = s.applyBump n b := by
  unfold bumpComplete
  simp [hf, hb, hh, hn]
theorem bumpHold_of_free (hf : s.firstBump n = some b) (hb : s.bumpPages b = [page]) (hh : s.heldGen b.stage page = false)
    (hn : b.held = true) : bumpHold n s = s.applyBump n b := by
  unfold bumpHold
  simp [hf, hb, hh, hn]

end

/-- Settles O54: an answer by its entry, a bump asked for by the room behind its function's others, and one that comes due by the generation that it
would bring back. -/
theorem translationEvents : Obligations.TranslationEvents := by
  unfold Obligations.TranslationEvents
  intro s fn v n e b
  refine ⟨fun hv he hf => congrArg Host.Outcome.next (prqresp_of_ok hv he hf), fun h he hh => congrArg Host.Outcome.next (priResponse_of_ok he hh),
    atsInvalidation_happens s, rfl, ?asked, ?due⟩
  case asked =>
    intro stage h3 h2 hp mine
    exact ⟨genbump_queues ⟨h3, h2, hp⟩, genbump_drops ⟨h3, h2, hp⟩⟩
  case due =>
    intro hf hp page hb a
    refine ⟨fun hh => ⟨?_, ?_⟩, fun hh => ⟨fun hn => ?_, fun hn => ?_⟩⟩
    · exact congrArg Host.Outcome.next (bumpComplete_of_held hf hb hh)
    · exact congrArg Host.Outcome.next (bumpHold_of_held hf hb hh)
    · exact ⟨_, congrArg Host.Outcome.next (bumpComplete_of_free hf hb hh hn), State.applyBump_bumps hp hb⟩
    · exact ⟨_, congrArg Host.Outcome.next (bumpHold_of_free hf hb hh hn), State.applyBump_bumps hp hb⟩

end Sys2Proof.Machine
end

section
/-! SUPPORT. Ownership and power (R386, R392, R393): the owner's writes, the operating point's steps, and the states of the clusters. -/

namespace Sys2Proof.Machine

theorem ble_eq_decide (a b : Nat) : Nat.ble a b = decide (a ≤ b) := Bool.eq_iff_iff.mpr (by rw [Nat.ble_eq, decide_eq_true_eq])
theorem blt_eq_decide (a b : Nat) : Nat.blt a b = decide (a < b) := ble_eq_decide ..

/-! ## The owner (R386) -/

section
variable {s : State} {w v : Nat}

/-- Writer w is the owner. -/
def State.ownedBy (s : State) (w : Nat) : Prop := w ≠ 0 ∧ fld s.dev.owner.toNat 56 8 = w
theorem State.owns_iff : s.owns w = true ↔ s.ownedBy w := by
  rw [State.owns, Bool.and_eq_true, bne_iff_ne, beq_iff_eq, Dev.ownerId, State.ownedBy]
theorem State.owns_of_not (h : ¬ s.ownedBy w) : s.owns w = false := Bool.eq_false_iff.mpr (mt State.owns_iff.mp h)
theorem ownclaim_of_free (hw : w ≠ 0) (ho : fld s.dev.owner.toNat 56 8 = 0) (hv : fld v 56 8 = w) :
    ownclaim w v s = s.updDev (fun d => { d with owner := BitVec.ofNat 64 v }) :=
  if_pos (by simp [Dev.ownerId, ho, hw, hv])
theorem ownclaim_of_other (h : fld s.dev.owner.toNat 56 8 ≠ 0 ∨ fld v 56 8 ≠ w) : ownclaim w v s = s := by
  refine if_neg ?_
  rw [Bool.and_eq_true, Bool.and_eq_true, beq_iff_eq, beq_iff_eq, Dev.ownerId]
  rintro ⟨⟨h0, -⟩, hv⟩
  exact h.elim (absurd h0) (absurd hv)
theorem handover_of_owner (h : s.ownedBy w) : handover w v s = s.updDev (fun d => { d with owner := BitVec.ofNat 64 v }) :=
  if_pos (State.owns_iff.mpr h)
theorem handover_of_other (h : ¬ s.ownedBy w) : handover w v s = s := if_neg (mt State.owns_iff.mp h)

/-! ## The operating point (R392) -/

/-- The operating points that may be asked for. -/
def MayRun (v : Nat) : Prop :=
  320 ≤ fld v 0 16 ∧ fld v 0 16 ≤ 420 ∧ fld v 16 16 % 25 = 0 ∧ 800 ≤ fld v 16 16 ∧ fld v 16 16 + 3500 ≤ 1800 + 10 * fld v 0 16
theorem opOk_iff : opOk v = true ↔ MayRun v := by
  simp only [opOk, opFreq, opVmv, MayRun, Bool.and_eq_true, Nat.ble_eq, beq_iff_eq, and_assoc]
theorem opreq_of_other (h : ¬ s.ownedBy w) : opreq w v s = s := if_pos (by rw [State.owns_of_not h]; rfl)
theorem opreq_of_owner (h : s.ownedBy w) (hv : v < 2 ^ 32) : opreq w v s =
    if opOk v then s.updDev (fun d => { d with
      opreq := BitVec.ofNat 32 v, operr := false, ophold := decide (fld v 16 16 < s.dev.opcur.1) && s.vacates.any (fun x => !x.done),
      opbusy := !(decide (fld v 16 16 < s.dev.opcur.1) && s.vacates.any (fun x => !x.done)) })
    else s.updDev (fun d => { d with operr := true }) := by
  unfold opreq
  rw [State.owns_iff.mpr h, Nat.mod_eq_of_lt hv, ← blt_eq_decide]
  cases opOk v <;> rfl

theorem opSwitch_of_idle (hb : s.dev.opbusy = false) : opSwitch s = s := if_pos (by rw [hb]; rfl)
/-- The operating point that OPREQ asks for. -/
def State.opAsked (s : State) : Nat × Nat := (fld s.dev.opreq.toNat 16 16, fld s.dev.opreq.toNat 0 16)
theorem opSwitch_of_busy {p : Nat × Nat} {busy : Bool} (hb : s.dev.opbusy = true) (hs : opStep s.dev.opcur s.opAsked = p)
    (hp : busy = decide (p ≠ s.opAsked)) : opSwitch s = s.updDev (fun d => { d with opcur := p, opbusy := busy }) := by
  have hbusy : (p != s.opAsked) = busy := by rw [hp, bne, beq_eq_decide, ← decide_not]
  unfold opSwitch
  rw [hb]
  show s.updDev (fun d => { d with opcur := opStep d.opcur (opFreq d.opreq.toNat, opVmv d.opreq.toNat), opbusy := _ }) = _
  unfold State.updDev
  show ({ s with dev := { s.dev with opcur := opStep s.dev.opcur s.opAsked, opbusy := opStep s.dev.opcur s.opAsked != s.opAsked } } : State) = _
  rw [hs, hbusy]
theorem opStep_raises {c r : Nat × Nat} (h : c.2 < r.2) : opStep c r = (c.1, r.2) := if_pos (Nat.blt_eq.mpr h)
theorem opStep_switches {c r : Nat × Nat} (h : r.2 ≤ c.2) (h1 : c.1 ≠ r.1) : opStep c r = (r.1, c.2) :=
  (if_neg (by rw [Nat.blt_eq]; omega)).trans (if_pos (by simpa using h1))
theorem opStep_lowers {c r : Nat × Nat} (h : r.2 ≤ c.2) (h1 : c.1 = r.1) : opStep c r = r :=
  (if_neg (by rw [Nat.blt_eq]; omega)).trans (if_neg (by simp [h1]))

/-! ## Clusters (R393) -/

theorem clstate_of_other (h : ¬ s.ownedBy w) : clstate w v s = s := if_pos (by rw [State.owns_of_not h]; rfl)
theorem clstate_of_ungatable (h : s.ownedBy w) (hc : ∃ cl, cl < 96 ∧ fld v (2 * cl) 2 = 2 ∧ s.clState cl ≠ 2 ∧ s.gateOk cl = false) :
    clstate w v s = s.updDev (fun d => { d with clerr := true }) := by
  obtain ⟨cl, h96, h2, hs, hg⟩ := hc
  have hany : (upFrom 0 96).any (fun cl => fld v (2 * cl) 2 == 2 && s.clState cl != 2 && !s.gateOk cl) = true :=
    List.any_eq_true.mpr ⟨cl, mem_upFrom.mpr h96, by simp [h2, hs, hg]⟩
  unfold clstate
  rw [State.owns_iff.mpr h, hany]
  rfl
theorem State.clState_of_clReg {cl : Nat} (h : s.clReg cl = 1) : s.clState cl = 1 := by
  unfold State.clReg at h
  split at h
  · cases h
  · exact h
/-- A cluster that 1 is written for is held, or has been. -/
theorem State.setCl_holds (s : State) (cl j : Nat) : (s.setCl cl 1).clState j = if j = cl then 1 else s.clState j := by
  unfold State.setCl
  by_cases hr : s.clReg cl = 1
  · rw [hr, if_pos (by decide)]
    split
    next hj => rw [hj, State.clState_of_clReg hr]
    · rfl
  · rw [if_neg (by simp [Ne.symm hr]), if_neg (by decide), if_neg (by decide)]
    show mget (mset s.dev.clstate cl 1 0) j clActive = _
    split
    next hj => rw [hj]; exact mget_mset_self
    next hj => exact mget_mset_of_ne hj
/-- A return to ACTIVE takes until the wake, and 3 is ignored. -/
theorem State.setCl_keeps_clState (s : State) {cl x : Nat} (hx : x = 0 ∨ x = 3) (j : Nat) : (s.setCl cl x).clState j = s.clState j := by
  unfold State.setCl
  split
  · rfl
  next h =>
    obtain rfl : x = 0 := hx.resolve_right (fun h3 => h (by rw [h3]; rfl))
    rfl
theorem State.setCl_clerr (s : State) {cl x : Nat} (hx : x ≠ 2) : (s.setCl cl x).dev.clerr = s.dev.clerr := by
  unfold State.setCl
  repeat' split
  · rfl
  · rfl
  next h => exact absurd (beq_iff_eq.mp h) hx
  · rfl
/-- Each cluster's two bits of a write, as CLSTATE goes through them. -/
def State.setCls (s : State) (v : Nat) (l : List Nat) : State := l.foldl (fun s cl => s.setCl cl (fld v (2 * cl) 2)) s
theorem State.setCls_clState (s : State) {l : List Nat} (h2 : ∀ cl ∈ l, fld v (2 * cl) 2 ≠ 2) (j : Nat) :
    (s.setCls v l).clState j = if j ∈ l ∧ fld v (2 * j) 2 = 1 then 1 else s.clState j := by
  induction l generalizing s with
  | nil => rfl
  | cons cl l ih =>
    obtain ⟨hcl, hl⟩ := List.forall_mem_cons.mp h2
    have hlt : fld v (2 * cl) 2 < 4 := Nat.mod_lt _ (by decide)
    rw [State.setCls, List.foldl_cons, ← State.setCls, ih _ hl]
    by_cases h1 : fld v (2 * cl) 2 = 1
    · rw [h1, State.setCl_holds]
      by_cases hj : j = cl
      · simp [hj, h1]
      · simp [hj]
    · rw [State.setCl_keeps_clState s (by omega)]
      by_cases hj : j = cl
      · simp [hj, h1]
      · simp [hj]
theorem State.setCls_clerr (s : State) {l : List Nat} (h2 : ∀ cl ∈ l, fld v (2 * cl) 2 ≠ 2) : (s.setCls v l).dev.clerr = s.dev.clerr := by
  induction l generalizing s with
  | nil => rfl
  | cons cl l ih =>
    obtain ⟨hcl, hl⟩ := List.forall_mem_cons.mp h2
    exact (ih _ hl).trans (s.setCl_clerr hcl)
theorem clstate_of_ungated (h : s.ownedBy w) (h2 : ∀ cl, cl < 96 → fld v (2 * cl) 2 ≠ 2) :
    clstate w v s = (s.updDev (fun d => { d with clerr := false })).setCls v (upFrom 0 96) := by
  have hany : (upFrom 0 96).any (fun cl => fld v (2 * cl) 2 == 2 && s.clState cl != 2 && !s.gateOk cl) = false :=
    List.any_eq_false.mpr fun cl hcl => by simp [h2 cl (mem_upFrom.mp hcl)]
  unfold clstate
  rw [State.owns_iff.mpr h, hany]
  rfl
theorem clstate_happens (h : s.ownedBy w) (h2 : ∀ cl, cl < 96 → fld v (2 * cl) 2 ≠ 2) : Happens (.clstate w v) s (fun t =>
    t.dev.clerr = false ∧ ∀ cl, cl < 96 → t.clState cl = if fld v (2 * cl) 2 = 1 then 1 else s.clState cl) := by
  have hl : ∀ cl ∈ upFrom 0 96, fld v (2 * cl) 2 ≠ 2 := fun cl hcl => h2 cl (mem_upFrom.mp hcl)
  refine ⟨_, congrArg Host.Outcome.next (clstate_of_ungated h h2), State.setCls_clerr _ hl, fun cl hcl => ?_⟩
  rw [State.setCls_clState _ hl]
  simp only [mem_upFrom.mpr hcl, true_and]
  rfl
theorem clusterWake_happens {cl : Nat} (h : mget s.dev.wake cl 0 = 1) : Happens (.clusterWake cl) s (fun t =>
    t.clState cl = 0 ∧ t.clocked cl = (!s.dev.trip && !s.refillDue && decide (cl < 96))) := by
  have hx : clusterWake cl s = s.updDev (fun d => { d with clstate := merase d.clstate cl, wake := merase d.wake cl }) :=
    if_pos (beq_iff_eq.mpr h)
  have hst : (s.updDev (fun d => { d with clstate := merase d.clstate cl, wake := merase d.wake cl })).clState cl = clActive := mget_merase_self
  refine ⟨_, congrArg Host.Outcome.next hx, hst, ?_⟩
  rw [State.clocked, hst, blt_eq_decide, beq_self_eq_true, Bool.and_true]
  rfl

end

end Sys2Proof.Machine
end

section
/-! SUPPORT. The partition table's enables and resets (R365, R366), and register writes (R384, R385, R387). -/

namespace Sys2Proof.Machine

/-! ## Enabling and disabling (R365, R366) -/

section
variable {s : State} {w part : Nat}

theorem Part.fld_setFld (p : Part) (off n v : Nat) : (p.setFld off n v).fld off n = v % 256 ^ n := by
  have h := mgetBytes_msetBytes (m := p.tab) (k := off) (l := toBytes n v)
  rw [toBytes_length] at h
  rw [Part.fld, Part.setFld, h, ofBytes_toBytes]
theorem Part.setEn_en (p : Part) {v : Nat} (h : v < 2) : (p.setEn v).en = decide (v = 1) := by
  rw [Part.en, Part.setEn, Part.fld_setFld, bitOf, beq_eq_decide]
  exact decide_eq_decide.mpr (by omega)
theorem partitionEnable_of_ok (h : s.ownedBy w) (hp : part < 48) (he : (s.part part).en = false)
    (hok : enableOk (s.part part) (s.others part) = true) : partitionEnable w part s = s.updPart part (fun p => p.setEn 1) :=
  if_pos (by simp [State.owns_iff.mpr h, hp, he, hok])
theorem partitionEnable_of_not (h : ¬ s.ownedBy w ∨ enableOk (s.part part) (s.others part) = false) : partitionEnable w part s = s := by
  refine if_neg fun hc => ?_
  simp only [Bool.and_eq_true] at hc
  obtain ⟨⟨⟨ho, -⟩, -⟩, hok⟩ := hc
  exact h.elim (fun hn => hn (State.owns_iff.mp ho)) (fun hn => Bool.false_ne_true (hn.symm.trans hok))
theorem partitionDisable_of_ok (h : s.ownedBy w) (hp : part < 48) (hl : s.launches.any (fun l => l.2.part == part && !l.2.dropped) = false)
    (hs : ∀ k ∈ s.partQueues part, (s.qcb k).saved = []) (hv : ∀ x ∈ s.vacates, x.part = part → x.done = true) :
    partitionDisable w part s = s.updPart part (fun p => p.setEn 0) := by
  have hsaved : (s.partQueues part).all (fun k => (s.qcb k).saved.isEmpty) = true :=
    List.all_eq_true.mpr fun k hk => by rw [hs k hk]; rfl
  have hvac : s.vacates.any (fun v => v.part == part && !v.done) = false :=
    List.any_eq_false.mpr fun x hx => by
      rw [Bool.and_eq_true, beq_iff_eq, Bool.not_eq_true']
      exact fun hc => Bool.false_ne_true (hc.2.symm.trans (hv x hx hc.1))
  exact if_pos (by simp [State.owns_iff.mpr h, hp, hl, hsaved, hvac])
theorem partitionDisable_of_other (h : ¬ s.ownedBy w) : partitionDisable w part s = s := if_neg (by simp [State.owns_of_not h])
/-- A partition's EN as it is set or cleared. -/
theorem State.updPart_setEn (s : State) (part : Nat) {v : Nat} (h : v < 2) :
    ((s.updPart part (fun p => p.setEn v)).part part).en = decide (v = 1) := by
  rw [State.updPart_part_self, Part.setEn_en _ h]

/-! ## Reset (R366) -/

/-- A cluster without the frames and entries of a partition. -/
def Cluster.purged (c : Cluster) (part : Nat) : Cluster :=
  { c with
    frames := c.frames.map (fun f => if f.2.tile.part == part then (f.1, { f.2.drop with ver := 0 }) else f),
    rdq := c.rdq.filter (fun e => e.part != part), crd := merase c.crd part }
theorem Cluster.purged_reset (part : Nat) : Cluster.reset.purged part = Cluster.reset := rfl
/-- A frame of the partition, dropped and of version 0; any other as it is. -/
def Frame.purged (f : Frame) (part : Nat) : Frame := if f.tile.part == part then { f.drop with ver := 0 } else f
theorem Frame.purged_of_part {f : Frame} {part : Nat} (h : (f.purged part).tile.part = part) :
    (f.purged part).st = .invalid ∧ (f.purged part).ver = 0 := by
  unfold Frame.purged at h ⊢
  split
  · exact ⟨rfl, rfl⟩
  next hf => rw [if_neg hf] at h; exact absurd (beq_iff_eq.mpr h) hf
theorem Frame.purged_reset (key part : Nat) : (Frame.reset key).purged part = Frame.reset key := by
  unfold Frame.purged
  split <;> rfl
theorem Cluster.purged_frame (c : Cluster) (part key : Nat) :
    mget (c.purged part).frames key (Frame.reset key) = (mget c.frames key (Frame.reset key)).purged part := by
  refine mget_map_of_keys (g := fun f => f.purged part) (fun e => ?_) (fun v => ?_) (Frame.purged_reset key part) c.frames
  · split <;> rfl
  · unfold Frame.purged
    dsimp only
    split <;> rfl
theorem partitionReset_of_other (h : ¬ s.ownedBy w) : partitionReset w part s = s := if_pos (by rw [State.owns_of_not h]; rfl)
/-- A reset leaves every cluster without the partition's frames and entries, and clears its rings and the indices of its fault ring. -/
theorem partitionReset_of_owner (h : s.ownedBy w) (hp : part < 48) :
    ∃ (cs : SMap Cluster) (rs : SMap (List RdqE)) (p : Part),
      (partitionReset w part s).clusters = cs.map (fun c => (c.1, c.2.purged part)) ∧
      (partitionReset w part s).rings = rs.filter (fun e => e.1 % 256 / 4 != part) ∧
      (partitionReset w part s).part part = { p with frqpidx := 0, frqcidx := 0, frqovf := 0 } := by
  unfold partitionReset
  rw [if_neg (by simp [State.owns_iff.mpr h, hp])]
  extract_lets p s1 s2 s3 mine s4 s5
  exact ⟨s4.clusters, s3.rings, s5.part part, rfl, State.setRings_rings .., State.updPart_part_self ..⟩
theorem State.cluster_of_purged {t : State} {cs : SMap Cluster} (h : t.clusters = cs.map (fun c => (c.1, c.2.purged part))) (cl : Nat) :
    t.cluster cl = (mget cs cl Cluster.reset).purged part := by
  rw [State.cluster, h]
  exact mget_map_of_keys (f := fun c => (c.1, c.2.purged part)) (g := fun c => c.purged part) (fun _ => rfl) (fun _ => rfl) (Cluster.purged_reset part) cs
theorem partitionReset_happens (h : s.ownedBy w) (hp : part < 48) : Happens (.partitionReset w part) s (fun t =>
    (t.part part).frqpidx = 0 ∧ (t.part part).frqcidx = 0 ∧ (t.part part).frqovf = 0 ∧
    (∀ cl k, (t.frame cl k).tile.part = part → (t.frame cl k).st = .invalid ∧ (t.frame cl k).ver = 0) ∧
    (∀ cl e, e ∈ (t.cluster cl).rdq → e.part ≠ part) ∧ ∀ cl prio, prio < 4 → t.ring (ringKey cl part prio) = []) := by
  obtain ⟨cs, rs, p, hc, hr, hpart⟩ := partitionReset_of_owner h hp
  refine ⟨partitionReset w part s, rfl, ?_, ?_, ?_, fun cl k hk => ?_, fun cl e he => ?_, fun cl prio hprio => ?_⟩
  · rw [hpart]
  · rw [hpart]
  · rw [hpart]
  · have hf : (partitionReset w part s).frame cl k = (mget (mget cs cl Cluster.reset).frames k (Frame.reset k)).purged part := by
      rw [State.frame, State.cluster_of_purged hc, Cluster.purged_frame]
    rw [hf] at hk ⊢
    exact Frame.purged_of_part hk
  · rw [State.cluster_of_purged hc] at he
    simpa using (List.mem_filter.mp he).2
  · rw [State.ring, hr]
    refine mget_of_not_mem fun hm => ?_
    obtain ⟨e, he, hk⟩ := List.mem_map.mp hm
    have hne := (List.mem_filter.mp he).2
    rw [hk, bne_iff_ne, ringKey] at hne
    omega

end

/-! ## Registers that a write reaches (R7, R384; log entry 68) -/

section
variable {s : State}

/-- A register of n bytes as a write of all of them leaves it. -/
def rewritten (n old v : Nat) : Nat := (upFrom 0 n).foldl (fun x i => setFld x (8 * i) 8 (fld v (8 * i) 8)) old
theorem upFrom_succ (lo n : Nat) : upFrom lo (n + 1) = upFrom lo n ++ [lo + n] := by
  induction n generalizing lo with
  | zero => rfl
  | succ n ih => rw [upFrom, ih (lo + 1), upFrom, List.cons_append, Nat.add_right_comm, Nat.add_assoc]
theorem rewritten_testBit (n old v i : Nat) : (rewritten n old v).testBit i = if i < 8 * n then v.testBit i else old.testBit i := by
  induction n with
  | zero => rfl
  | succ n ih =>
    have hb : (rewritten (n + 1) old v).testBit i = (setFld (rewritten n old v) (8 * n) 8 (fld v (8 * n) 8)).testBit i := by
      rw [rewritten, upFrom_succ, List.foldl_append, Nat.zero_add]
      rfl
    rw [hb, setFld_testBit, ih, fld, Nat.testBit_mod_two_pow, Nat.testBit_div_two_pow]
    split
    next h =>
      rw [if_pos (by omega), Nat.sub_add_cancel h.1]
      simp only [show i - 8 * n < 8 by omega, decide_true, Bool.true_and]
    · exact if_congr (by omega) rfl rfl
theorem rewritten_mod {n k : Nat} (hk : k ≤ 8 * n) (old v : Nat) : rewritten n old v % 2 ^ k = v % 2 ^ k := by
  refine Nat.eq_of_testBit_eq fun i => ?_
  rw [Nat.testBit_mod_two_pow, Nat.testBit_mod_two_pow, rewritten_testBit]
  by_cases hi : i < k
  · rw [if_pos (by omega)]
  · simp [hi]
/-- The write reaches no byte of the register. -/
def WReg.missed (r : WReg) (off size : Nat) : Prop := off + size ≤ r.off ∨ r.off + r.n ≤ off
theorem merged_of_missed {ro n off size : Nat} (h : off + size ≤ ro ∨ ro + n ≤ off) (old v : Nat) : merged ro n old off size v = none := by
  refine if_neg ?_
  rw [Bool.and_eq_true, Nat.blt_eq, Nat.blt_eq]
  omega
theorem merged_self {n : Nat} (hn : 0 < n) (ro old v : Nat) : merged ro n old ro n v = some (rewritten n old v) := by
  refine (if_pos ?_).trans (congrArg some ?_)
  · simp only [Bool.and_eq_true, Nat.blt_eq]
    omega
  · refine List.foldl_ext _ _ _ fun x i hi => ?_
    have hlt := mem_upFrom.mp hi
    rw [if_pos (by simp only [Bool.and_eq_true, Nat.ble_eq, Nat.blt_eq]; omega), Nat.add_sub_cancel_left]
theorem writeRegs_of_missed {off size : Nat} (v : Nat) {l : List WReg} (h : ∀ r ∈ l, r.missed off size) (s : State) : writeRegs off size v l s = s := by
  induction l with
  | nil => rfl
  | cons r l ih =>
    obtain ⟨hr, hl⟩ := List.forall_mem_cons.mp h
    rw [writeRegs, List.foldl_cons, merged_of_missed hr]
    exact ih hl
/-- A write of a register as a whole takes effect there alone. -/
theorem writeRegs_of_whole {pre post : List WReg} {r : WReg} (v : Nat) (hn : 0 < r.n) (hpre : ∀ x ∈ pre, x.missed r.off r.n)
    (hpost : ∀ x ∈ post, x.missed r.off r.n) (s : State) : writeRegs r.off r.n v (pre ++ r :: post) s = r.put (rewritten r.n r.old v) s := by
  have hsplit : writeRegs r.off r.n v (pre ++ r :: post) s = writeRegs r.off r.n v (r :: post) (writeRegs r.off r.n v pre s) := List.foldl_append
  rw [hsplit, writeRegs_of_missed v hpre, writeRegs, List.foldl_cons, merged_self hn]
  exact writeRegs_of_missed v hpost _

/-! ## A queue control block (R387) -/

theorem ofNat_fld_setFld (x lo v : Nat) : BitVec.ofNat 32 (fld (setFld x lo 32 v) lo 32) = BitVec.ofNat 32 v := by
  rw [fld_setFld_self]
  exact BitVec.eq_of_toNat_eq (by simp)
variable (key v : Nat)
theorem State.writeQcb_pidx : s.writeQcb key 32 4 v = s.updQcb key (fun x => x.ring (BitVec.ofNat 32 v)) := by
  refine congrArg (s.updQcb key) (funext fun q => ?_)
  have hv := ofNat_fld_setFld q.image 256 v
  simp [upFrom, covers, ble_eq_decide, blt_eq_decide, hv]
theorem State.writeQcb_ccidx : s.writeQcb key 44 4 v = s.updQcb key (fun x => { x with ccidx := BitVec.ofNat 32 v }) := by
  refine congrArg (s.updQcb key) (funext fun q => ?_)
  have hv := ofNat_fld_setFld q.image 352 v
  simp [upFrom, covers, ble_eq_decide, blt_eq_decide, hv]
theorem State.writeQcb_vec (h : v < 2 ^ 16) : s.writeQcb key 53 2 v = s.updQcb key (fun x => { x with vec := v }) := by
  refine congrArg (s.updQcb key) (funext fun q => ?_)
  have hv : fld (setFld q.image 424 16 v) 424 16 = v := (fld_setFld_self ..).trans (Nat.mod_eq_of_lt h)
  simp [upFrom, covers, ble_eq_decide, blt_eq_decide, hv]

end

/-! ## A function's block (R385) -/

section
variable {s : State} {w fn q v : Nat}

theorem registerWrite_of_beyond (h : 256 < fn) (off size : Nat) : registerWrite w fn off size v s = s := if_pos (Nat.blt_eq.mpr h)
theorem registerWrite_of_function {off size : Nat} (h0 : 0 < fn) (h : fn ≤ 256) (hs : size ≤ 8) :
    registerWrite w fn off size v s = s.writeBlock fn off size v := by
  unfold registerWrite
  rw [if_neg (by rw [Nat.blt_eq]; omega), if_neg (by rw [Bool.and_eq_true, Nat.blt_eq]; omega), if_neg (by rw [beq_iff_eq]; omega)]
theorem State.writeBlock_of_queue {o size : Nat} (hq : q < 17) (ho : o < 64) : s.writeBlock fn (64 * q + o) size v = s.writeQcb (qkey fn q) o size v := by
  unfold State.writeBlock
  rw [if_pos (by rw [Nat.blt_eq]; omega), show (64 * q + o) / 64 = q by omega, show (64 * q + o) % 64 = o by omega]
theorem rewritten_four {v : Nat} (hv : v < 2 ^ 32) (old : W32) : rewritten 4 old.toNat v = v := by
  refine Nat.eq_of_testBit_eq fun i => ?_
  rw [rewritten_testBit]
  split
  · rfl
  next h =>
    have hp : 2 ^ 32 ≤ 2 ^ i := Nat.pow_le_pow_right (by decide) (by omega)
    rw [Nat.testBit_lt_two_pow (old.isLt.trans_le hp), Nat.testBit_lt_two_pow (hv.trans_le hp)]
theorem State.writeBlock_frqcidx {k : Nat} (h0 : 0 < fn) (hk : s.fnPart fn = some k) (hv : v < 2 ^ 32) :
    s.writeBlock fn 0xC44 4 v = s.updPart k (fun x => { x with frqcidx := BitVec.ofNat 32 v }) := by
  unfold State.writeBlock
  rw [if_neg (by decide), if_neg (by rw [beq_iff_eq]; omega), hk]
  let r : WReg := ⟨0xC44, 4, (s.part k).frqcidx.toNat, fun x s => s.updPart k (fun p => { p with frqcidx := BitVec.ofNat 32 x })⟩
  refine (writeRegs_of_whole (pre := [_, _]) (post := [_]) (r := r) v (Nat.succ_pos _) ?_ ?_ s).trans ?_
  · simp [WReg.missed, trigger, r]
  · simp [WReg.missed, r]
  · rw [rewritten_four hv]

/-! ## The physical function's registers (R384) -/

theorem registerWrite_of_physical {off size : Nat} (hs : size ≤ 8) : registerWrite w 0 off size v s = s.writePf w off size v := by
  unfold registerWrite
  rw [if_neg (by decide), if_neg (by rw [Bool.and_eq_true, Nat.blt_eq]; omega)]
  rfl
theorem State.writePf_opreq (hv : v < 2 ^ 32) : s.writePf w 0x20 4 v = opreq w v s := by
  unfold State.writePf
  dsimp only
  rw [if_neg (by decide), if_neg (by decide), if_neg (by decide), if_neg (by decide), if_neg (by decide)]
  let r : WReg := ⟨0x20, 4, s.dev.opreq.toNat, opreq w⟩
  refine (writeRegs_of_whole (pre := [_, _]) (post := [_, _, _, _, _, _, _, _, _]) (r := r) v (Nat.succ_pos _) ?_ ?_ s).trans ?_
  · simp [WReg.missed, trigger, r]
  · simp [WReg.missed, r]
  · rw [rewritten_four hv]
theorem State.writePf_fabid (h : s.ownedBy w) : s.writePf w 0x90 2 v = s.updDev (fun d => { d with fabid := v % 8192 }) := by
  unfold State.writePf
  dsimp only
  rw [if_neg (by decide), if_neg (by decide), if_neg (by decide), if_neg (by decide), if_neg (by decide), State.owns_iff.mpr h]
  let r : WReg := ⟨0x90, 2, s.dev.fabid, fun x s => s.updDev (fun d => { d with fabid := x % 8192 })⟩
  refine (writeRegs_of_whole (pre := [_, _, _, _, _, _, _, _, _, _, _]) (post := []) (r := r) v (Nat.succ_pos _) ?_ ?_ s).trans ?_
  · simp [WReg.missed, trigger, r]
  · simp
  · exact congrArg (fun x => s.updDev (fun d => { d with fabid := x })) (rewritten_mod (n := 2) (k := 13) (by decide) s.dev.fabid v)

end

/-- Settles O59: registers of the device by who writes them, the partition table by its checks, and a write by the register at its offset. -/
theorem deviceRegisters : Obligations.DeviceRegisters := by
  refine ⟨fun s w v => ?device, fun s w part fn q v => ?table⟩
  case device =>
    intro dev owns mhz mv ok hold
    have hx {f : State → State} {t : State} (h : f s = t) : (Host.Outcome.next (f s) : Res) = .next t := congrArg _ h
    refine ⟨fun hw ho hv => hx (ownclaim_of_free hw ho hv), fun h => hx (ownclaim_of_other h), fun h => hx (handover_of_owner h),
      fun h => ⟨hx (handover_of_other h), hx (opreq_of_other h), hx (clstate_of_other h)⟩, fun h hv hok => ?_, fun h hv hok => ?_,
      ⟨fun hb => hx (opSwitch_of_idle hb), fun hb h => ?_, fun hb h h1 => ?_, fun hb h h1 => ?_⟩, fun h hc => hx (clstate_of_ungatable h hc),
      clstate_happens, fun cl => clusterWake_happens⟩
    · exact hx ((opreq_of_owner h hv).trans (if_pos (opOk_iff.mpr hok)))
    · exact hx ((opreq_of_owner h hv).trans (if_neg (mt opOk_iff.mp hok)))
    · exact hx (opSwitch_of_busy hb (opStep_raises h) (by simp [State.opAsked, Prod.ext_iff]))
    · exact hx (opSwitch_of_busy hb (opStep_switches h h1) (by simp [State.opAsked, Prod.ext_iff]))
    · exact hx (opSwitch_of_busy hb (opStep_lowers h h1) (by simp [State.opAsked]))
  case table =>
    intro owns p
    have hx {f : State → State} {t : State} (h : f s = t) : (Host.Outcome.next (f s) : Res) = .next t := congrArg _ h
    refine ⟨fun h hp he hok => ?_, fun h => hx (partitionEnable_of_not h), fun h hp hl hs hv => ?_, partitionReset_happens,
      fun h => ⟨hx (partitionDisable_of_other h), hx (partitionReset_of_other h)⟩,
      fun h => hx (registerWrite_of_beyond h _ _), fun h0 h256 hq hv => ⟨?_, ?_, fun hv16 => ?_, fun k hk => ?_⟩, fun hv => ?_,
      fun h hv => ?_⟩
    · exact ⟨_, hx (partitionEnable_of_ok h hp he hok), s.updPart_setEn part (by decide),
        fun k hk => s.updPart_part_of_ne _ hk, rfl⟩
    · exact ⟨_, hx (partitionDisable_of_ok h hp hl hs hv), s.updPart_setEn part (by decide),
        fun k hk => s.updPart_part_of_ne _ hk, rfl⟩
    · exact hx ((registerWrite_of_function h0 h256 (by decide)).trans
        ((State.writeBlock_of_queue hq (by decide)).trans (State.writeQcb_pidx _ v)))
    · exact hx ((registerWrite_of_function h0 h256 (by decide)).trans
        ((State.writeBlock_of_queue hq (by decide)).trans (State.writeQcb_ccidx _ v)))
    · exact hx ((registerWrite_of_function h0 h256 (by decide)).trans
        ((State.writeBlock_of_queue hq (by decide)).trans (State.writeQcb_vec _ v hv16)))
    · exact hx ((registerWrite_of_function h0 h256 (by decide)).trans (State.writeBlock_frqcidx h0 hk hv))
    · exact hx ((registerWrite_of_physical (by decide)).trans (State.writePf_opreq hv))
    · exact hx ((registerWrite_of_physical (by decide)).trans (State.writePf_fabid h))

end Sys2Proof.Machine
end
